-- ==== Sys2Proof/Word.lean ====
section
/-! DEFINITION. The widths the spec gives its data (R5, R8, R29, R292), and the names of the package's objects (R2 to R5).
Object numbers are `Fin` types: a number outside the range names nothing (R1). -/

namespace Sys2Proof

/-- One byte of SRAM or MRAM. -/
abbrev Byte := BitVec 8
/-- The data bits of a register (R8: bits [15:0] hold data). -/
abbrev Half := BitVec 16
/-- One DW: a register access with its mask, a command-packet word, a counter (R292, R324, R399). -/
abbrev Word := BitVec 32

/-- A die of the package, 0 to 7 (R1); a part with fewer dies leaves the higher numbers unused. -/
abbrev DieId := Fin 8
/-- A course of a die (R2). -/
abbrev CourseId := Fin 8
/-- A port index within its course (R5). -/
abbrev PortIx := Fin 8
/-- A receive slice of a die, S0 to S151 (R3). -/
abbrev SliceId := Fin 152
/-- A transmitter of a die, T0 to T135 (R4). -/
abbrev TxId := Fin 136
/-- A queue pair of an access die (R319). -/
abbrev QueueId := Fin 3
/-- A two-wire controller port of a die, MC0 or MC1 (R366). -/
abbrev McId := Fin 2
/-- A line position of a course, 0 to 8, or a host position 0 to 7 (R46). -/
abbrev Pos := Fin 9
/-- One of the two access dies of the part: 0 is die 0, 1 the other access die (R477). -/
abbrev AccessId := Fin 2

/-- The two sides of a course, the two segments of a port, and the two directions of a datapath:
`host` is also the H2L direction, `line` also L2H (R189, R207). -/
inductive Side where
  | host
  | line
  deriving DecidableEq, Repr

/-- The two bridges of a die (R268). -/
inductive Ew where
  | east
  | west
  deriving DecidableEq, Repr

/-- The three parts of R1. -/
inductive Part where
  | q128
  | q256
  | q512
  deriving DecidableEq, Repr

/-- The two external references (R247). -/
inductive Ref where
  | a
  | b
  deriving DecidableEq, Repr

/-- The two clock domains that have a preferred source (R248). -/
inductive Domain where
  | sys
  | lane
  deriving DecidableEq, Repr

/-- A port, by die, course and index (R5). -/
structure PortId where
  die    : DieId
  course : CourseId
  idx    : PortIx
  deriving DecidableEq, Repr

/-- The global port number of R5: die × 64 + course × 8 + index. -/
def PortId.number (p : PortId) : Nat := p.die.val * 64 + p.course.val * 8 + p.idx.val

/-- Key of a port within its die: course × 8 + index. -/
def PortId.key (p : PortId) : Nat := p.course.val * 8 + p.idx.val

end Sys2Proof
end

