-- ==== Sys2Proof/Config.lean ====
section
/-! DEFINITION. What the spec fixes per piece of silicon without giving a value, and the free values. Each is opaque:
nothing in Lean can see what it is, so a claim that mentions one holds whatever it is. -/

namespace Sys2Proof.Config

/-- DIE_ID.STEP, the silicon stepping: R314 says the part fixes it and gives no value. -/
opaque stepping : BitVec 4

/-- The package serial number (R12, R333): fixed at the factory, no value given. -/
opaque serial : BitVec 64

/-- The VERSION of the ROM image each pegbox boots (R463 step 3): no value given. -/
opaque romVersion : BitVec 32

/-- A word whose value the spec leaves open: the n-th such value the machine uses, n counted by `State.free`. -/
opaque freeWord : Nat → BitVec 32

/-- The expected self-test signature "held in ROM" for a test and a target (R427): no value given. -/
opaque signature : Nat → Nat → BitVec 32

/-- A firmware image, from its byte 0 to the end of its code, carries a good signature (R335): ECDSA over P-384 with SHA-384, against a public
key the spec does not give. -/
opaque imageSigned : List (BitVec 8) → Bool

/-- Strokes from the start of the copy of an image of so many code bytes to its end (R336): no duration given. -/
opaque copyStrokes : Nat → Nat

/-- Which tap, preset or step the training engine asks its partner for: R177 says only that it is chosen to raise SNR. -/
opaque freeRequest : Nat → BitVec 8

/-- The tap values of IEEE 802.3's presets and of its default initial condition (number 8), by rate, preset and tap, in the
device's tap units: R162 and R166 name the standard and give no value. -/
opaque standardPreset : Nat → Nat → Nat → BitVec 7

/-- The boot port profile that the NV region holds for a port of a die, by die, port key and the region's listed bytes: R463
and R482 give the region and no layout. Seven registers, PORT_CFGA to PORT_POLL in ascending offset; none: no profile. -/
opaque bootProfile : Nat → Nat → List (Nat × Byte) → Option (List Half)

/-- The code of a conversion with its trims and corrections applied, from the raw code, the sensor trim, the converter trim, the
offset and the gain correction: R377 and R383 name them and give no formula. -/
opaque hkCode : BitVec 12 → BitVec 16 → BitVec 16 → BitVec 16 → BitVec 16 → BitVec 12

/-- The offset correction, in 1/16 LSB, and the gain correction, in 10 ppm, that a calibration's results give, REF_LO's and REF_HI's codes in
turn: R383 and R393 give the units and no formula. -/
opaque hkCorrections : List Nat → BitVec 16 × BitVec 16

/-- RS(544,514) of IEEE 802.3 over 10-bit symbols: the 514 data symbols of a received codeword, corrected, or none where it cannot be
corrected; and the 30 parity symbols of data (R195 to R197). The spec names the code and gives no field or generator. -/
opaque fecData : List (BitVec 10) → Option (List (BitVec 10))
opaque fecParity : List (BitVec 10) → List (BitVec 10)

/-- The outer level of an equalised slice in ADC codes, by slice: R80 and R81 give the taps and terms relative to the cursor and no
value of the cursor itself. -/
opaque cursor : Nat → Int

end Sys2Proof.Config
end

