-- ==== Sys2Proof/Syntax.lean ====
section
/-! DEFINITION. The commands and events of the block: one constructor of `Instr` per row of spec/opcode_table.json,
with the row's operands. Where a row is a command packet its operand is the packet (R324); where it is an event of the
hardware its operands name the object and carry what the analogue world or a partner decides (a measured SNR, a
received frame, a NACK). -/

namespace Sys2Proof

/-- A command packet (R324): the header fields and the parameter words from word 4 on.
`origin` and `queue` are the access die and queue it was submitted to (R330), `entry` the slot of the queue it lay in (R273). -/
structure Packet where
  origin : DieId
  queue  : QueueId
  tag    : BitVec 16
  length : BitVec 12
  die    : DieId
  fence  : Bool
  noprog : Bool
  irq    : Bool
  target : Word
  cookie : Word
  words  : List Word
  entry  : BitVec 6 := 0
  deriving DecidableEq, Repr

/-- Parameter word `4 + n` of a packet; a word the packet does not hold reads 0 (its length is checked first). -/
def Packet.w (p : Packet) (n : Nat) : Nat := ((p.words[n - 4]?).getD 0).toNat

/-- A standard training frame, as the standard of the segment's rate reads it (R166): whether it passes the standard's check, and the
fields that the device acts on. `session` tells one partner session from the next, as the standard recognises a restart (R182). -/
structure StdFrame where
  ok         : Bool
  reqTap     : Fin 8
  reqOp      : Fin 4
  reqPreset  : Fin 8
  reqSeq     : Fin 16
  reqPrecode : Bool
  session    : Byte
  ackSeq     : Fin 16
  rxReady    : Bool
  precodeOn  : Bool
  done       : Bool
  deriving DecidableEq, Repr

/-- A training frame, or what stands in its place, as it reaches a framer (R166, R170, R174): of a peer frame the 352 symbols of
marker, fields and CRC, as levels after polarity is undone (at N26 bit 1 as level 3 and bit 0 as level 0). -/
inductive RxFrame where
  | peer (symbols : List (Fin 4))
  | standard (f : StdFrame)
  deriving DecidableEq, Repr

/-- What one slice's hardware has accumulated since its previous update (R85): the error correlations of its coefficients, in units
of one LSB before the LMS step scales them, the direction PEAK should move, the mean absolute ADC output in codes (R77), and the
direction of each sub-ADC trim. -/
structure SliceUpdate where
  slice : SliceId
  peak  : Int
  adc   : Nat
  ffe   : List Int          -- taps 0, 1, …; a missing entry is 0
  dfe   : Int
  h1    : Int
  h2    : Int
  trims : List Int          -- sub-ADC background correction, one trim LSB each way
  deriving DecidableEq, Repr

/-- One slice's estimator result for the stroke that ends (R95, R507): SNR in 0.1 dB, CDR frequency in 0.01 ppm,
and whether the CDR was locked throughout the stroke. -/
structure SliceObs where
  die    : DieId
  slice  : SliceId
  locked : Bool
  snr    : Nat
  freq   : Half
  mean   : Nat               -- mean absolute equalised sample, in 1/64 of the level spacing (R215)
  last   : Fin 4             -- level of the last symbol received, after polarity inversion is undone (R167)
  deriving DecidableEq, Repr

/-- The last symbol that a transmitter in TRAIN sends before the boundary (R167): of a peer frame its index in the frame, of a standard
frame its level, before polarity inversion. -/
structure SentObs where
  die   : DieId
  tx    : TxId
  at_   : Fin 8192
  level : Fin 4
  deriving DecidableEq, Repr

/-- One FEC engine's or 64b/66b monitor's results for the stroke that ends (R198, R203, R206). -/
structure FecObs where
  port    : PortId
  dir     : Side
  corr    : List Nat         -- codewords decoded, by number of symbols corrected 0 to 15
  uncorr  : Nat
  b1to0   : Nat
  b0to1   : Nat
  blocks  : List (Fin 8 × BitVec 2 × BitVec 64)   -- 64b/66b: the blocks of the lanes with block lock, as received: position, sync header, payload, the first bit in bit 0
  deriving DecidableEq, Repr

/-- A pair FIFO fill measured over the stroke that ends (R234). -/
structure FillObs where
  die    : DieId
  course : CourseId
  k      : Fin 4
  fill   : Nat
  deriving DecidableEq, Repr

/-- The last change of a course's PRS_N input within the stroke that ends (R54): its level from then on, and the sc of it. An input
that is not named has not changed. -/
structure PrsObs where
  die    : DieId
  course : CourseId
  low    : Bool
  sc     : Fin 1280
  deriving DecidableEq, Repr

/-- An aligned symbol slot as received (R210, R214): the 2-bit values of the lanes, the protection lane's last; whether the slot
carries a service word; and, in a window in which rebuilding began or ended, whether a lane was being rebuilt in it. -/
structure Slot where
  values  : List (Fin 4)
  service : Bool
  rebuilt : Bool
  deriving DecidableEq, Repr

/-- What the receiver of a course in AGREEING compared over the stroke that ends (R222): the offset from the old wait that its search
found in it, if any; whether a symbol disagreed after that; and the agreeing symbols in succession at its end. -/
structure AgreeObs where
  die    : DieId
  course : CourseId
  found  : Option Int
  broke  : Bool
  run    : Nat
  deriving DecidableEq, Repr

/-- What an eye scan's sampler compared over the stroke that ends (R143): of each symbol whose decisions differ, and of any others, the
equalised sample at the slice's own sampling phase and the one at the displaced phase, in codes. A side that is not named saw none
differ. -/
structure EyeObs where
  die    : DieId
  course : CourseId
  side   : Side
  pairs  : List (Int × Int)
  deriving DecidableEq, Repr

/-- What a two-wire controller port saw on its bus over the stroke that ends (R367, R369, R371, R374): the levels of its lines at the end,
whether both were high throughout, whether a STOP and the bus-free time after it have passed without a START since, and of a transfer
that runs the write bytes acknowledged and the bytes read since it began. A port that is not named saw its lines and its transfer as
they were. -/
structure TwiObs where
  die   : DieId
  m     : McId
  scl   : Bool
  sda   : Bool
  high  : Bool
  stop  : Bool
  acked : Byte
  data  : List Byte
  deriving DecidableEq, Repr

/-- What the stroke that ends measured (R31, R54, R95, R122, R198, R234). -/
structure BoundaryObs where
  slices : List SliceObs
  fec    : List FecObs
  fills  : List FillObs
  prs    : List PrsObs
  agree  : List AgreeObs
  limits : List (DieId × TxId)   -- transmitters whose current limit was engaged throughout (R122)
  sent   : List SentObs
  eyes   : List EyeObs
  twi    : List TwiObs
  deriving DecidableEq, Repr

/-- What two reference monitors' 10 µs window saw (R249). -/
structure QualObs where
  aToggles : Bool
  bToggles : Bool
  aPlaus   : Bool            -- REFA within ±3 % of the soundpost
  bPlaus   : Bool
  agree    : Bool            -- REFA and REFB within ±100 ppm of each other
  spOk     : Bool            -- the soundpost within ±3 % of a READY reference (R259)
  diff     : Half            -- CLK_REFDIFF
  refSp    : Half            -- CLK_REFSP
  deriving DecidableEq, Repr

/-- What software writes and reads in an endpoint's configuration space (R290, R291, R293, R294): the read-only identity, a base address
register, the power state, the MSI-X message control word, and the status registers of AER, whose bits a write of 1 clears. -/
inductive ConfigReg where
  | header (n : Fin 6)
  | bar (n : Fin 6)
  | power
  | msix
  | aer
  | serial
  deriving DecidableEq, Repr

/-- The BAR window a host access names (R291), or the two-wire SPACE (R296), or the endpoint's configuration space. -/
inductive Window where
  | regs      -- BAR0, SPACE 0
  | obs       -- BAR2, SPACE 1
  | mem       -- BAR4, SPACE 2
  | config (r : ConfigReg)
  deriving DecidableEq, Repr

/-- A memory or configuration request over PCI Express (R292): a read of some DW, or a write of its DW, with the byte enables of its first
and last DW. The second is 0 for one DW. -/
inductive Request where
  | read (dws : BitVec 6) (first last : BitVec 4)
  | write (data : List Word) (first last : BitVec 4)
  deriving DecidableEq, Repr

/-- A write, and a read, of exactly one DW with all four byte enables set: the form BAR0 accepts (R292). -/
def Request.put (w : Word) : Request := .write [w] 15 0
def Request.get : Request := .read 1 15 0

/-- The bus an access arrives on, as DIE_ERR_HI.BUS names it (R314). -/
inductive Bus where
  | pcie
  | twoWire
  | bridge
  deriving DecidableEq, Repr

/-- What the scrub finds in a ledger word (R310, R311). -/
inductive EccResult where
  | clean
  | corrected
  | uncorrectable
  deriving DecidableEq, Repr

/-- The result of a self-test (R427). -/
inductive TestResult where
  | pass
  | fail
  | incomplete
  | aborted
  deriving DecidableEq, Repr

/-- What a bandwidth meter takes at one arrival cycle (R410): a 256b/257b block whose header shows four data blocks, one that carries
four 64b/66b-equivalent blocks, or a 64b/66b block; of a 64b/66b block, whether it is a control block, and its 64 bits. -/
inductive MBlock where
  | data257
  | mixed257 (a b c e : Bool × BitVec 64)
  | one66 (b : Bool × BitVec 64)
  deriving DecidableEq, Repr

/-- One tagged codeword's four recorded dc (R415). -/
structure TagPoints where
  ingress : Nat
  eqOut   : Nat
  fecOut  : Nat
  egress  : Nat
  deriving DecidableEq, Repr

/-- The commands and events of the block: one constructor per row of spec/opcode_table.json, in the table's order. -/
inductive Instr where
  -- start-up, resets and links (R462 to R468, R294, R295)
  | powerOnReset
  | brownout (d : DieId) (rail : Fin 5) (io33 : Bool) (mv : BitVec 16) (ns : Word)
  | resetN (ns : Word)
  | boot (straps : Fin 4) (readable : Fin 4) (ecc : List (BitVec 18 × EccResult × EccResult))
  | perst (e : AccessId)
  | pcieLink (e : AccessId) (up : Bool) (speed : Fin 5) (width : Fin 3)
  | poisonedTlp (e : AccessId) (off : BitVec 25)
  | vddhPowerDown
  | soundpostReady (d : DieId)
  -- strokes and frets (R26, R28, R31)
  | strokeBoundary (obs : BoundaryObs)
  | fretOverrun (d : DieId) (fret : Fin 32) (left : BitVec 16)
  | fretOvrClear (d : DieId) (fret : Fin 32)
  -- receive slices (R85 to R98, R445)
  | tuningFret (d : DieId) (c : CourseId) (side : Side) (upd : List SliceUpdate)
  | converged (d : DieId) (s : SliceId)
  | adaptLimit (d : DieId) (s : SliceId) (coef : Fin 69)
  | sdChange (d : DieId) (s : SliceId) (mv : BitVec 16)
  | lockLost (d : DieId) (s : SliceId) (reason : Fin 3)
  | lockAcquired (d : DieId) (s : SliceId)
  | reacqStart (d : DieId) (s : SliceId)
  | reacqDone (d : DieId) (s : SliceId)
  | reacqFailed (d : DieId) (s : SliceId)
  | sliceSubstitution (d : DieId) (s : SliceId)
  | sliceSubstituted (d : DieId) (c : CourseId) (side : Side)
  | capoHostWrite (d : DieId) (s : SliceId) (level : Bool)
  -- presence and ports (R53, R54, R60, R65 to R68)
  | prsAsserted (d : DieId) (c : CourseId)
  | prsDeasserted (d : DieId) (c : CourseId)
  | segmentPresent (p : PortId) (side : Side)
  | segmentAbsent (p : PortId) (side : Side)
  | trainRetry (p : PortId)
  | portDefine (k : Packet)
  | portEnable (k : Packet)
  | portDisable (k : Packet)
  | portStatus (k : Packet)
  | portAttachPolicy (k : Packet)
  | laneEqSet (k : Packet)
  | laneEqGet (k : Packet)
  | laneCapo (k : Packet)
  -- transmitters and pattern checks (R122 to R127)
  | txSet (k : Packet)
  | txPattern (k : Packet)
  | driverLimit (d : DieId) (t : TxId)
  | prbsCheck (k : Packet)
  | prbsCheckLock (d : DieId) (s : SliceId)
  | prbsCheckRelock (d : DieId) (s : SliceId)
  | prbsCheckEnd (d : DieId) (s : SliceId) (symbols : BitVec 64) (bitErrs : BitVec 64) (symErrs : Word)
  -- rotation (R136 to R152)
  | sympAttach (k : Packet)
  | sympDetach (k : Packet)
  | handover (k : Packet)
  | handoverAlign (d : DieId) (c : CourseId) (side : Side) (offset : Option Int)
  | handoverDisagree (d : DieId) (c : CourseId) (side : Side) (compared : Word)
  | handoverConvTimeout (d : DieId) (c : CourseId) (side : Side)
  | retuneInService (k : Packet)
  | eyeScan (k : Packet)
  | capture (k : Packet)
  | captureTrigger (d : DieId) (c : CourseId) (side : Side) (samples : List Byte)
  | captureTimeout (d : DieId) (c : CourseId) (side : Side)
  | captureRead (k : Packet)
  | bankRotationStart (d : DieId) (c : CourseId)
  | bankSwap (d : DieId) (c : CourseId)
  -- training (R157 to R188)
  | trainingEngineFret (d : DieId)
  | trainingFrame (p : PortId) (side : Side) (pos : Pos) (f : RxFrame)
  | frameLock (p : PortId) (side : Side) (pos : Pos) (arrival : Nat)
  | frameLockLost (p : PortId) (side : Side) (pos : Pos)
  | requestAbandoned (p : PortId) (side : Side) (pos : Pos)
  | trainBudgetExpired (p : PortId)
  | framesInService (p : PortId) (side : Side) (pos : Pos)
  | trainStart (k : Packet)
  | trainAbort (k : Packet)
  | trainStatus (k : Packet)
  -- datapath (R196 to R203)
  | fecLockChange (p : PortId) (dir : Side) (locked : Bool) (skew : Nat)
  | fecDegWindowEnd (p : PortId) (dir : Side)
  | blockLockChange (p : PortId) (side : Side) (pos : Fin 8) (headers : List (BitVec 2))
  -- lattice (R214 to R226)
  | syndromeWindowEnd (d : DieId) (c : CourseId) (slots : List Slot)
  | latticeRebuild (d : DieId) (c : CourseId) (pos : Pos) (trigger : Fin 3) (words : List (List Int))
  | readmitByAgreement (d : DieId) (c : CourseId)
  | autoReadmit (d : DieId) (c : CourseId)
  | serviceWord (d : DieId) (c : CourseId) (copies : List (List (Fin 4)))
  | readmitTrainSwitch (d : DieId) (c : CourseId)
  | latticeReadmitDone (d : DieId) (c : CourseId) (last : Fin 4)
  | latticeReadmitted (d : DieId) (c : CourseId) (agreed : Nat)
  | latticeReadmitFailed (d : DieId) (c : CourseId)
  | latticeDisarmed (d : DieId) (c : CourseId) (reason : Fin 6) (pos : Option Pos) (pos2 : Option Pos) (badWords : Bool)
  | latticeDisarm (k : Packet)
  | latticeArm (k : Packet)
  | latticeReadmit (k : Packet)
  | latticeStatus (k : Packet)
  -- gearbox (R234 to R238)
  | pairSlip (d : DieId) (c : CourseId) (k : Fin 4) (fill : BitVec 9)
  | phaseSession (d : DieId) (c : CourseId) (k : Fin 4)
  | phaseRestored (d : DieId) (c : CourseId) (k last : Fin 4)
  | phaseSessionFailed (d : DieId) (c : CourseId) (k : Fin 4)
  -- clocks (R249 to R264)
  | qualWindowEnd (d : DieId) (o : QualObs)
  | refFail (d : DieId) (r : Ref) (stopped : Bool)
  | holdoverAged (d : DieId)
  | autoReturn (d : DieId) (m : Domain)
  | lanePllRelock (d : DieId) (c : CourseId)
  | switchForced (d : DieId) (m : Domain)
  | refFailFallbackDeferred (d : DieId) (r : Ref) (stopped : Bool)
  | spNotReady (d : DieId)
  | spFail (d : DieId) (stopped : Bool) (err : Byte)
  | lpllUnlock (d : DieId) (c : CourseId) (side : Side)
  | clkSwitch (k : Packet)
  | clkGate (k : Packet)
  | clkStatus (k : Packet)
  | gateChange (d : DieId) (level : Fin 5) (node : Byte)
  -- Standby (R470 to R474)
  | standbyEntry
  | standbyWake (source : Fin 4) (ns : Word)
  | standbyExit
  | standbyMonitorRestart (d : DieId)
  -- stroke sync and bridges (R38, R39, R268 to R283)
  | sync (d : DieId) (src : DieId) (tag : BitVec 16) (arrival : Int) (residence : BitVec 24)
  | syncSend
  | markerMissing (d : DieId)
  | heartbeatSend (d : DieId)
  | heartbeat (d : DieId) (b : Ew)
  | bridgeDown (d : DieId) (b : Ew)
  | bridgeUp (d : DieId) (b : Ew)
  | bridgeLaneChange (d : DieId) (b : Ew) (lane : Fin 4) (headers : List (BitVec 2)) (damaged : List (DieId × BitVec 16 × BitVec 64))
  | alignmentBlock (d : DieId) (b : Ew) (blocks : List (BitVec 64 × Byte))
  | ringState (d : DieId) (src : DieId) (tag : BitVec 16)
  | echo (d : DieId) (b : Ew) (latency : Half)
  | regReq (d : DieId) (src : DieId) (tag : BitVec 16)
  | regRsp (d : DieId) (src : DieId) (tag : BitVec 16)
  | cmdFwd (d : DieId) (src : DieId) (tag : BitVec 16)
  | cmdRsp (d : DieId) (src : DieId) (tag : BitVec 16)
  | evtFwd (d : DieId) (src : DieId) (tag : BitVec 16)
  | ack (d : DieId) (src : DieId) (tag : BitVec 16)
  | gcommit (d : DieId) (src : DieId) (tag : BitVec 16)
  | elect (d : DieId) (src : DieId) (tag : BitVec 16)
  | packetResend (d : DieId) (tag : BitVec 16)
  | packetAbandoned (d : DieId) (tag : BitVec 16)
  | die0Unavailable
  | leadChanged
  | leadReturn
  | dieIsolate (k : Packet)
  | dieRestore (k : Packet)
  | dieReachableAgain (d : DieId)
  -- register access (R296 to R313)
  | registerWrite (e : AccessId) (b : Bus) (win : Window) (addr : BitVec 25) (r : Request)
  | localCommit (d : DieId) (half : Bool) (groups : Byte)
  | globalCommit (d : DieId) (half : Bool) (groups : Byte)
  | commitDiscard (d : DieId) (half : Bool) (groups : Byte)
  | wmbSel (d : DieId) (m : Fin 4) (addr : Half)
  | reservedAccess (e : AccessId) (b : Bus) (off : BitVec 25) (write : Bool) (space : Fin 8)
  | twiWriteFrame (e : AccessId) (bytes : List Byte)
  | twiReadFrame (e : AccessId) (bytes : List Byte)
  | twiWriteBufEmpty (e : AccessId)
  | twiBusyNack (e : AccessId)
  | twiReadNotReady (e : AccessId)
  | twiStartInAck (e : AccessId)
  | targetTimeout (e : AccessId) (frame unsent : Bool)
  | alertResponse (e : AccessId) (won : Bool)
  | alertRedrive (e : AccessId)
  | parityFault (d : DieId) (off : BitVec 20) (faulty : Half) (ecc : EccResult)
  | stagedParityFault (d : DieId) (off : BitVec 20)
  | ledgerScrubVisit (d : DieId) (off : BitVec 20) (ecc : EccResult)
  | crcPassEnd (d : DieId)
  -- queues and the pegbox (R320 to R340)
  | sqDoorbell (e : AccessId) (q : QueueId) (tail : BitVec 6)
  | cqDoorbell (e : AccessId) (q : QueueId) (head : BitVec 6)
  | lockedSlotWrite (e : AccessId) (q : QueueId) (slot : BitVec 6)
  | commandFetch (e : AccessId) (q : QueueId)
  | recordPost (e : AccessId) (q : QueueId)
  | inboxTimeout (d : DieId)
  | nop (k : Packet)
  | getInfo (k : Packet)
  | opStatus (k : Packet)
  | opCancel (k : Packet)
  | fwStage (k : Packet)
  | fwStageAbort (k : Packet)
  | stagingSessionTimeout
  | fwActivate (k : Packet)
  | fwSwap (d : DieId)
  | fwReverted (d : DieId)
  | watchdogExpiry (d : DieId)
  | pegRestart (d : DieId) (rom : Bool)
  -- events (R346 to R352)
  | eventCause (d : DieId) (source : Fin 512) (cause : Byte) (data : Word)
  | eventForward (d : DieId)
  | evtRpWrite (e : AccessId) (rp : BitVec 12)
  | msixEvent (e : AccessId)
  -- two-wire controller ports (R366 to R373)
  | twiTransfer (k : Packet)
  | moduleIdentify (k : Packet)
  | arbLost (d : DieId) (m : McId) (acked : Byte) (data : List Byte)
  | stretchTimeout (d : DieId) (m : McId) (acked : Byte) (data : List Byte)
  | busClear (d : DieId) (m : McId) (pulses : Fin 10) (freed : Bool)
  | busError (d : DieId) (m : McId) (acked : Byte) (data : List Byte)
  -- housekeeping and PWM (R377 to R394)
  | hkConversionEnd (d : DieId) (raw : BitVec 12)
  | hkStrokeTrigger (d : DieId) (s : Fin 2) (late : Bool)
  | hkPwmEdge (d : DieId) (p : Fin 8) (rising : Bool)
  | hkDelayEnd (d : DieId) (s : Fin 2)
  | overrun (d : DieId) (s : Fin 2)
  | hkSeqDefine (k : Packet)
  | hkInject (k : Packet)
  | hkCalibrate (k : Packet)
  | calDone (d : DieId)
  | hkRpWrite (d : DieId) (rp : BitVec 13)
  | tempCritical (d : DieId) (above : Byte)
  | tempCritCleared (d : DieId)
  | pwmLoad (d : DieId)
  | pwmWrap (d : DieId) (p : Fin 8)
  | pwmSet (k : Packet)
  -- counters and telemetry (R403 to R419)
  | liveCopy (d : DieId)
  | cntSnapshot (k : Packet)
  | meterWindowEnd (p : PortId) (dir : Side) (blocks : List (MBlock × Word))
  | taggedSample (p : PortId) (dir : Side) (nth : BitVec 16) (t : TagPoints)
  | profileSample (d : DieId) (pc : Word)
  | tagTagging (k : Packet)
  | tagMeter (k : Packet)
  | tagProfiling (k : Packet)
  -- self-test and repair (R420 to R437)
  | bistRun (k : Packet)
  | workSliceEnd (d : DieId) (tag : BitVec 16) (work : Nat)
  | sliceAborted (d : DieId) (tag : BitVec 16) (clock : Bool)
  | testEnded (d : DieId) (tag : BitVec 16) (result : TestResult) (sig : Word) (loc : Word) (repaired : Bool)
  | bistResult (k : Packet)
  | repairSoft (k : Packet)
  | repairFuse (k : Packet)
  | fuseWritten (d : DieId)
  -- nonvolatile store and calibration (R482 to R491)
  | nvRead (k : Packet) (ecc : List EccResult)
  | nvWrite (k : Packet)
  | nvWorn (k : Packet)
  | mirrorResync
  | calRead (k : Packet) (own other : EccResult)
  | calWrite (k : Packet)
  -- boundary scan, and the rows the table adds at its end
  | jtagInstruction (d : DieId) (code : Byte)
  | cdrLocked (d : DieId) (s : SliceId) (freq : Half)
  | outgoingFrameBoundary (p : PortId) (side : Side) (pos : Pos)
  | twiTransferEnd (d : DieId) (m : McId) (result : Fin 8) (acked : Byte) (data : List Byte)
  | msixUnmask (e : AccessId) (vector : Option (Fin 32))
  | otherAccessDieUnavailable
  deriving DecidableEq, Repr

end Sys2Proof
end

