-- ==== Sys2Proof/Machine/Bits.lean ====
section
/-! DEFINITION. Bit-field helpers, sign extension, and the sparse maps that hold registers, counters and per-object
state: a list of (key, value) with keys strictly rising and no value equal to what an unlisted key reads as. -/

namespace Sys2Proof.Machine

/-- Bits [hi:lo] of a number (the manual's [msb:lsb], R7's numbers section). -/
def bits (n hi lo : Nat) : Nat := (n >>> lo) % 2 ^ (hi + 1 - lo)

/-- Bit i of a number as a Bool. -/
def bit (n i : Nat) : Bool := n.testBit i

/-- A Bool as a bit. -/
def b2n (b : Bool) : Nat := if b then 1 else 0

/-- Bits [hi:lo] of a register's data. -/
def fld (v : Half) (hi lo : Nat) : Nat := bits v.toNat hi lo

/-- The mask of bits [hi:lo] in 16 bits. -/
def fmask (hi lo : Nat) : Half := BitVec.ofNat 16 ((2 ^ (hi + 1 - lo) - 1) <<< lo)

/-- v with bits [hi:lo] replaced by x. -/
def setFld (v : Half) (hi lo x : Nat) : Half :=
  (v &&& ~~~(fmask hi lo)) ||| (BitVec.ofNat 16 (x <<< lo) &&& fmask hi lo)

/-- v with the bits of the mask m taken from w (R300, base view). -/
def mergeMask (v w m : Half) : Half := (v &&& ~~~m) ||| (w &&& m)

/-- An n-bit two's complement field as an integer. -/
def signed (n x : Nat) : Int := if x < 2 ^ (n - 1) then (x : Int) else (x : Int) - 2 ^ n

/-- An integer as an n-bit two's complement field. -/
def unsigned (n : Nat) (x : Int) : Nat := (x % (2 ^ n : Int)).toNat

/-- x held in [lo, hi]. -/
def clamp (x lo hi : Int) : Int := max lo (min hi x)

/-- A 32-bit word built from two 16-bit halves, as the reply tables lay them out ([15:0], [31:16]). -/
def pair (lo hi : Nat) : Nat := lo % 65536 + (hi % 65536) * 65536

/-- n held at its 16-bit limit ("saturating"). -/
def sat16 (n : Nat) : Nat := min n 65535
/-- n held at its 32-bit limit. -/
def sat32 (n : Nat) : Nat := min n 4294967295

/-! ### Sparse maps -/

/-- A sparse map: (key, value) pairs in canonical form. -/
abbrev SMap (β : Type) := List (Nat × β)

/-- The value at key k, or d (what an unlisted key reads as). -/
def SMap.get {β : Type} (d : β) : List (Nat × β) → Nat → β
  | [], _ => d
  | (i, v) :: m, k => if i = k then v else SMap.get d m k

/-- Put v at key k in place of what is there, keys strictly rising. -/
def SMap.ins {β : Type} : List (Nat × β) → Nat → β → List (Nat × β)
  | [], k, v => [(k, v)]
  | (i, x) :: m, k, v =>
    if k < i then (k, v) :: (i, x) :: m else if k = i then (k, v) :: m else (i, x) :: SMap.ins m k v

/-- Remove the entry at key k: the key reads as its default again. -/
def SMap.del {β : Type} (m : List (Nat × β)) (k : Nat) : List (Nat × β) := m.filter (fun p => p.1 != k)

/-- Write v at key k, keeping the canonical form; d is what the key reads as when unlisted. -/
def SMap.put {β : Type} [DecidableEq β] (d : β) (m : List (Nat × β)) (k : Nat) (v : β) : List (Nat × β) :=
  if v = d then SMap.del m k else SMap.ins m k v

/-- Every key of m is above k. -/
def SMap.above {β : Type} (k : Nat) (m : List (Nat × β)) : Bool := m.all (fun p => k < p.1)

/-- The canonical form: keys strictly rising. -/
def SMap.rising {β : Type} : List (Nat × β) → Bool
  | [] => true
  | (i, _) :: m => SMap.above i m && SMap.rising m

/-- The canonical form of a map whose unlisted key k reads as `d k`: keys strictly rising, no entry at its default. -/
def SMap.wf {β : Type} [DecidableEq β] (d : Nat → β) (m : List (Nat × β)) : Bool :=
  SMap.rising m && m.all (fun p => !(p.2 == d p.1))

/-- Remove every entry whose key satisfies f. -/
def SMap.delIf {β : Type} (m : List (Nat × β)) (f : Nat → Bool) : List (Nat × β) := m.filter (fun p => !f p.1)

/-! ### Byte memories -/

/-- What a byte that nothing has written reads as (DESIGN CHOICE, log entry 5). -/
def Memory.unlisted : Byte := 0

/-- One byte of a memory. -/
def Memory.read (m : List Host.Cell) (a : Nat) : Byte := SMap.get Memory.unlisted m a

/-- Write one byte. -/
def Memory.write (m : List Host.Cell) (a : Nat) (v : Byte) : List Host.Cell := SMap.put Memory.unlisted m a v

/-- The canonical form of a byte memory: addresses strictly rising, no entry that reads as an unlisted byte. -/
def Memory.wf (m : List Host.Cell) : Bool := SMap.wf (fun _ => Memory.unlisted) m

/-- Write bytes from address a upward. -/
def Memory.writeList (m : List Host.Cell) (a : Nat) : List Byte → List Host.Cell
  | [] => m
  | v :: vs => Memory.writeList (Memory.write m a v) (a + 1) vs

/-- n bytes from address a, least significant first, as a number (R319, R345: least significant byte first). -/
def Memory.readLE (m : List Host.Cell) (a : Nat) : Nat → Nat
  | 0 => 0
  | n + 1 => (Memory.read m a).toNat + 256 * Memory.readLE m (a + 1) n

/-- Write the n low bytes of v from address a, least significant first. -/
def Memory.writeLE (m : List Host.Cell) (a : Nat) : Nat → Nat → List Host.Cell
  | 0, _ => m
  | n + 1, v => Memory.writeLE (Memory.write m a (BitVec.ofNat 8 v)) (a + 1) n (v / 256)

/-- A list of 32-bit words from address a. -/
def Memory.readWords (m : List Host.Cell) (a : Nat) : Nat → List Word
  | 0 => []
  | n + 1 => BitVec.ofNat 32 (Memory.readLE m a 4) :: Memory.readWords m (a + 4) n

/-- Write 32-bit words from address a upward. -/
def Memory.writeWords (m : List Host.Cell) (a : Nat) : List Nat → List Host.Cell
  | [] => m
  | w :: ws => Memory.writeWords (Memory.writeLE m a 4 w) (a + 4) ws

/-- CRC bits: one step of a width-n CRC register, most significant bit first (R172, R312). -/
def crcStep (width poly : Nat) (crc : Nat) (b : Bool) : Nat :=
  let fb := (bit crc (width - 1)) != b
  let sh := (crc * 2) % 2 ^ width
  if fb then sh ^^^ poly else sh

end Sys2Proof.Machine
end

