-- ==== Sys2Proof/Machine/State.lean ====
section
/-! DEFINITION. The state of a part: everything the spec gives the block, as plain data. Commit-controlled (RWS)
registers are held in `Die.active`, `Die.staged` and `Die.ledger`, keyed by base-view offset; every other register is
computed from the structured fields by `readReg` (Machine/Operands.lean), so each has one home. -/

namespace Sys2Proof.Machine

/-- Nothing the spec gives the block stops it: a command or event either has its effect or did not occur. This one
reason is raised by nothing (safe); the type exists because the interface asks for it. -/
inductive Fault where
  /-- Raised by no meaning: safe. -/
  | unreachable
  deriving DecidableEq, Repr

/-- Reasons for a refusal. -/
inductive Refusal where
  /-- Raised by a dispatch arm whose instruction has no meaning yet: safe, the run stops. -/
  | notModelled (mnemonic : String)
  deriving DecidableEq, Repr

/-! ### Records and packets -/

/-- A completion record (R325) before it is written to its queue. -/
structure Rec where
  origin  : DieId
  queue   : QueueId
  tag     : BitVec 16
  entry   : BitVec 6         -- queue entry of the command (R273)
  status  : Nat
  final   : Bool
  effect  : Nat              -- R325 EFFECT
  isPos   : Bool             -- R325 POSITION
  die     : DieId            -- die that executed the command
  herr    : Nat
  progress : Nat
  cookie  : Word
  irq     : Bool
  data    : List Nat         -- reply data words
  deriving DecidableEq, Repr

/-- An event record (R345) without its ring phase. -/
structure Evt where
  time   : Nat               -- 64-bit timestamp (R29)
  source : Nat               -- package source number (R344)
  cause  : Nat
  nmi    : Bool
  late   : Bool
  seq    : Nat
  data   : Nat
  deriving DecidableEq, Repr

/-- The body of a bridge packet, by type (R273). -/
inductive Body where
  | regReq (off view : Nat) (write : Bool) (value : Word) (twi : Bool)
  | regRsp (value : Word) (status : Nat) (forTag : Nat)
  | cmdFwd (p : Packet) (op : Nat)
  | cmdRsp (q : QueueId) (entry : BitVec 6) (forTag : Nat) (r : Option Rec)
  | evtFwd (recs : List Evt)
  | ack (forTag : Nat)
  | sync (stroke : Nat) (lead : DieId) (acc path : Nat)   -- `path`: latency of the links it has crossed (R277)
  | gcommit (stroke : Nat) (mask : Nat) (kind : Nat)
  | heartbeat (stroke : Nat) (running isolated : Bool) (lead : Nat) (lanes : Nat)
  | ringState (die : DieId) (b : Ew) (st : Nat)
  | elect (stroke : Nat) (cand : DieId)
  | echo (reply : Bool) (sendTime : Nat)
  deriving DecidableEq, Repr

/-- A packet on the ring (R272): `at` is the die it reaches next, `dir` the bridge it left by. -/
structure Flit where
  src  : DieId
  dst  : DieId
  bcast : Bool
  tag  : Nat
  ttl  : Nat
  here : DieId
  dir  : Ew
  body : Body
  held : Bool := false       -- it has reached its die, and waits there for an earlier one (R302)
  deriving DecidableEq, Repr

/-- An answered-type packet its originator still waits on (R275). -/
structure Sent where
  dst   : DieId
  tag   : Nat
  first : Nat                -- stroke it was first sent in
  last  : Nat                -- stroke it was last sent in
  body  : Body
  deriving DecidableEq, Repr

/-- A long operation (R329, R330), identified by origin, queue and tag. -/
structure Op where
  origin   : DieId
  queue    : QueueId
  tag      : BitVec 16
  opcode   : Nat
  packet   : Packet
  cls      : Nat             -- object class: 1 slice, 2 transmitter, 3 port, 4 course side, 5 controller, 6 test, 0 die
  obj      : Nat
  phase    : Nat
  position : Nat
  start    : Nat             -- stroke of acceptance
  lastProg : Option Nat      -- stroke of its last PROGRESS record (R328)
  status   : Nat             -- last status posted
  effect   : Nat
  cancel   : Bool
  from_    : Nat             -- stroke the counted work began
  data     : List Nat
  deriving DecidableEq, Repr

/-- What a die keeps of a command it ended (R330). -/
structure Ended where
  origin : DieId
  queue  : QueueId
  tag    : BitVec 16
  opcode : Nat
  status : Nat
  effect : Nat
  progress : Nat
  span   : Nat
  deriving DecidableEq, Repr

/-- A command waiting in a die's inbox (R331). -/
structure Waiting where
  packet  : Packet
  op      : Nat
  arrived : Nat
  deriving DecidableEq, Repr

/-- A short command whose answer waits for a boundary or a tuning fret (R33, R66, R103). -/
structure Await where
  packet : Packet
  op     : Nat
  due    : Nat                       -- stroke whose start answers it
  arg    : Nat                       -- what its row keeps for the answer
  start  : Nat                       -- stroke it was started in
  deriving DecidableEq, Repr

/-- One queue pair of an access die (R319 to R322). Slot contents lie in the die's SRAM. -/
structure Queue where
  sqTail  : Nat := 0
  sqHead  : Nat := 0
  cqHead  : Nat := 0
  cqTail  : Nat := 0
  phase   : Bool := true
  enabled : Bool := false
  exec    : List (Packet × Nat) := []   -- fetched, first record not yet posted, in submission order; with its opcode
  held    : List (Packet × Nat) := []   -- those of them not yet started: a FENCE, or one behind it for the same die
  running : List (BitVec 16 × BitVec 6) := []   -- long operations whose ACCEPTED has been posted and the final record not: tag, entry
  waiting : List Rec := []              -- records that wait to be written (R321, R328)
  gone    : List (BitVec 16 × BitVec 6) := []   -- commands given up without an answer: tag and entry (R275)
  drain   : Bool := false
  deriving DecidableEq, Repr

/-! ### Lanes -/

/-- A sub-ADC's background correction, in trim LSB, on top of its calibration trim (R79). -/
structure AdcCorr where
  offset : Int := 0
  gain   : Int := 0
  skew   : Int := 0
  deriving DecidableEq, Repr

/-- A receive slice (chapter Receive slices): everything its RX block shows and its detectors hold. -/
structure Slice where
  sd        : Bool := false
  cdrLock   : Bool := false
  locked    : Bool := false
  converged : Bool := false
  capoHost  : Bool := false
  capoHold  : Bool := false
  capoHo    : Bool := false
  capoLoss  : Bool := false
  reacq     : Bool := false
  acquiring : Bool := true        -- MU_ACQ in use (R86)
  snrNow    : Nat := 0
  snrHist   : List Nat := []      -- SNR_NOW of up to the last 1,024 strokes, newest first (R95)
  freq      : Half := 0
  h1        : Half := 0
  h2        : Half := 0
  warnArmed : Bool := false       -- R507
  warnGood  : Nat := 0            -- after an SNR_LOW: 1 + strokes in succession 1 dB above SNR_WARN; 0 before one
  good      : Bool := false       -- SD, CDR lock and SNR margin held throughout the stroke that ended (R94)
  sdStrokes : Nat := 0            -- boundaries passed since signal detect asserted
  sdPos     : Nat := 0            -- position in the stroke at which it did
  convRun   : Nat := 0            -- consecutive updates that qualify for CONVERGED (R86)
  updates   : Nat := 0            -- updates since acquisition began
  snrAtUpd  : Nat := 0            -- SNR_NOW at the previous update
  peakAge   : Nat := 64           -- strokes since PEAK last changed (R76)
  limits    : SMap Nat := []      -- coefficient id: consecutive updates at its range limit (R87)
  limited   : List Nat := []      -- coefficients whose ADAPT_LIMIT has been posted (R87)
  reacqOn  : Bool := false        -- step 2 of R97 is past
  sdLost   : Bool := false        -- signal detect has deasserted and no loss is declared for it yet
  afresh   : Bool := false        -- lost in a session: it acquires afresh once signal detect asserts (R97)
  reacqFrom : Nat := 0            -- stroke of step 2 of R97
  reacqRec  : Bool := false       -- the pin record was used
  reacqFree : Bool := false       -- restarted without a time limit (R98)
  corr      : SMap AdcCorr := []  -- background corrections in use, on top of the CAL trims, keyed by sub-ADC (R79)
  stored    : SMap AdcCorr := []  -- the slice record: stored corrections (R96)
  retired   : Bool := false       -- R429
  held      : Bool := false       -- adaptation held for an eye scan (R143)
  prev      : Nat := 0            -- the last level received in the stroke before, from which decoding goes on in DATA (R167)
  mean      : Nat := 0            -- mean absolute equalised sample of the stroke before, in 1/64 of the level spacing (R215)
  deriving DecidableEq, Repr

/-- The pin record of a receive pin (R96). -/
structure PinRec where
  valid  : Bool := false
  ctle   : Half := 0
  vga    : Half := 0
  dfe    : Half := 0
  main   : Nat := 0
  ffe    : List Half := []
  h1     : Half := 0
  h2     : Half := 0
  freq   : Half := 0
  snr    : Nat := 0
  stroke : Nat := 0
  deriving DecidableEq, Repr

/-- A transmitter (chapter Transmitters). -/
structure Tx where
  mode    : Nat := 5              -- TX_STAT.MODE (R128)
  held    : Bool := false         -- OVR_HELD
  ilim    : Bool := false
  limRun  : Nat := 0              -- consecutive strokes the current limit has been engaged (R122)
  genFrom : Nat := 0              -- stroke at whose edge the pattern or drone generator started (R116)
  genAdv  : Nat := 0              -- symbols it was advanced by (R116)
  prev    : Nat := 0              -- y(n−1): the last level sent before the last change into DATA (R167)
  freq    : Half := 0
  lossAct : Nat := 0              -- loss action in force: 0 none, 1 SQUELCH, 2 DRONE (R62)
  single  : Bool := false         -- sends single-lane session frames (R221, R238)
  gate    : Bool := false         -- gated closed by CLK_GATE (R261)
  deriving DecidableEq, Repr

/-- The fields of a valid training frame: those of a peer frame (R175, R176), or their counterparts in a standard one (R166). -/
structure Frame where
  peer       : Bool              -- a peer frame; false: a standard frame of the segment's rate
  reqTap     : Nat
  reqOp      : Nat
  reqPreset  : Nat
  reqSeq     : Nat
  reqPrecode : Bool
  reqP425    : Bool := false
  reqLattice : Bool := false
  beaconVer  : Nat := 1
  ptype      : Nat := 0
  capLattice : Bool := false
  capP425    : Bool := false
  capRotation : Bool := false
  lanePos    : Nat := 0
  rate       : Nat := 0
  session    : Nat
  ackTap     : Nat := 6
  tapStatus  : Nat := 0
  ackSeq     : Nat
  rxReady    : Bool
  latReady   : Bool := false
  phaseLock  : Bool := false
  precodeOn  : Bool
  p425Grant  : Bool := false
  latGrant   : Bool := false
  rxSnr      : Nat := 0
  countdown  : Nat := 0
  done       : Bool
  echo       : Nat := 0
  deriving DecidableEq, Repr

/-- A lane's framer (R159, R174): consecutive valid frames up to 3, consecutive bad ones up to 4, frame lock, and the marker's
arrival. -/
structure Framer where
  valid   : Nat := 0
  bad     : Nat := 0
  locked  : Bool := false
  arrival : Nat := 0              -- in symbols (R212)
  deriving DecidableEq, Repr

/-- One lane of a training session (R161, R177). -/
structure LaneSess where
  state    : Nat := 0             -- R161 code
  flock    : Bool := false
  rrTx     : Bool := false
  rrRx     : Bool := false
  latRx    : Bool := false        -- partner's LATTICE_READY
  frame    : Option Frame := none -- latest fields presented to the engine (R159)
  fresh    : Bool := false        -- presented and not yet decided
  answered : Option Nat := none   -- REQ_SEQ last answered
  tapStat  : Nat := 0             -- TAP_STATUS sent
  reqSeq   : Nat := 0
  reqOpen  : Bool := false        -- a request is outstanding
  reqFrom  : Nat := 0             -- stroke it was issued
  reqCode  : Nat := 0             -- REQ_TAP, REQ_OP, REQ_PRESET as sent (R175)
  reqCount : Nat := 0
  reqDone  : Bool := false        -- the device has ended its requests
  snrRef   : List Nat := []       -- SNR_NOW at the last four answered requests
  session  : Option Nat := none   -- partner's SESSION_ID
  ownId    : Nat := 0
  arrival  : Nat := 0             -- marker arrival, in symbols (R212)
  count    : Nat := 0             -- COUNTDOWN (R180)
  doneTx   : Bool := false
  doneRx   : Bool := false
  grant425 : Bool := false        -- grants received (R179)
  grantLat : Bool := false
  req425   : Bool := false
  reqLat   : Bool := false
  reqPre   : Bool := false
  capLat   : Bool := false
  cap425   : Bool := false
  capRot   : Bool := false
  pendTaps : Option (List Half) := none   -- taps that take effect with the next frame (R160)
  ackTap   : Nat := 6             -- ACK_TAP sent: REQ_TAP of the request answered
  bits     : Nat := 0             -- status and mode bits the engine last decided for its frames (R159)
  sentCtl  : BitVec 64 := 0       -- control and status field of the peer frame being sent (R175, R176)
  sentSts  : BitVec 64 := 0
  frames   : Nat := 0             -- frames sent in this session: each has advanced the pattern generator by 7,840 symbols (R173)
  deriving DecidableEq, Repr

/-- One direction of a port's datapath: FEC engine, degraded flag, meter, tagging (chapters 8 and 18). -/
structure DirSt where
  fecLock  : Bool := false
  bypass   : Bool := false
  deg      : Bool := false
  degCount : Nat := 0
  degWhole : Bool := true         -- the window has been counted from its start (R199)
  degAt    : Nat := 0             -- stroke at which the last window ended
  skew     : Nat := 0
  block    : Nat := 0             -- block-lock mask (DP_BLOCK)
  scr      : SMap Nat := []       -- the last 58 payload bits of a lane's monitor, the newest the highest (R203)
  blind    : Nat := 0             -- lanes whose monitor has descrambled nothing since it locked
  slip     : SMap Nat := []       -- bits a lane's monitor has slipped, modulo 66: where it parts the blocks
  fecRan   : Bool := false        -- the engine has lost lock in this stroke, and decoded before
  blockRan : Bool := false        -- a monitor has lost block lock in this stroke, and classified before
  tagEn    : Bool := false
  tagK     : Nat := 0
  tagSeg   : Nat := 0
  tagBase  : Nat := 0
  tagLfsr  : Nat := 0
  tagSeen  : Nat := 0             -- codewords of the stroke up to the last one that gave a sample
  hist     : SMap Nat := []       -- histogram bins (R416)
  metEn    : Bool := false
  metW     : Nat := 0
  metWin   : Nat := 0               -- number k of the window in progress
  metFrom  : Nat := 0               -- stroke of E_0 (R411)
  metLow   : Bool := false        -- the window in progress has had the engine or a monitor unlocked (R412)
  metVals  : List Nat := []       -- the four DW of R412, last complete window
  deriving DecidableEq, Repr

/-- A port (chapter Lanes, courses, ports and partners) with its sessions (chapter 7). -/
structure Port where
  state    : Nat := 0             -- R57 code
  hostPres : Bool := false
  linePres : Bool := false
  kind     : Nat := 0             -- LINE_KIND
  lostSeg  : Bool := false        -- LOST_SEG: true = line
  bad      : Bool := false        -- PROFILE_BAD
  badRule  : Nat := 0
  lastChg  : Nat := 0             -- stroke of the last state change
  lastWhy  : Nat := 0
  losts    : Nat := 0             -- transitions to LOST since enable
  caps     : Nat := 0             -- beacon capabilities (R67 word 2 [10:8])
  -- pending boundary work
  startAt  : Option Nat := none   -- sessions start at this boundary, or the first after it
  startOp  : Bool := false        -- that start belongs to a TRAIN_START
  abort    : Nat := 0             -- sessions end at the next boundary with this reason (0 none)
  noRetry  : Bool := false
  failed   : Bool := false        -- waits in DETECTED after a failed session (R181)
  retryAt  : Option Nat := none   -- stroke of the pending automatic retry (R60)
  ready    : Bool := false        -- both segments ready (R164)
  hFramers : SMap Framer := []    -- framers, by position
  lFramers : SMap Framer := []
  preTxH   : Bool := false        -- precoding agreed, by segment and direction (R83, R108, R167, R179)
  preTxL   : Bool := false
  preRxH   : Bool := false
  preRxL   : Bool := false
  -- sessions
  sess     : Bool := false        -- sessions run
  begun    : Nat := 0             -- stroke of their start
  hostRun  : Bool := false        -- a session runs on the host segment
  lineRun  : Bool := false
  kept     : Option Side := none  -- the segment whose session is a readiness session (R165)
  hlanes   : SMap LaneSess := []  -- by host position
  llanes   : SMap LaneSess := []  -- by line position
  modes    : Nat := 0             -- MODES of TRN_SEG
  reason   : Nat := 0             -- last failure reason
  sessions : Nat := 0             -- sessions started since enable
  reqTx    : Nat := 0
  reqRx    : Nat := 0
  ownId    : Nat := 0
  partnerId : Nat := 0
  hostReady : Nat := 0            -- strokes from start to host segment ready
  lineReady : Nat := 0
  latUnav  : Bool := false        -- lattice refused in this session (R179)
  restartH : Option Nat := none   -- partner session already reported (R188)
  restartL : Option Nat := none
  newH     : List (Nat × Nat) := []   -- partner sessions that the engine's present decision sees as new, with the lane's position
  newL     : List (Nat × Nat) := []
  svcH     : Nat := 0             -- host positions counted as framers locked in service; FRAMES_IN_SERVICE is posted with the first (R168)
  svcL     : Nat := 0             -- line positions
  trn      : Half := 0xFF03       -- TRN_CFG in use: as it stood at the last session start (R186)
  agreed   : Nat := 0             -- precoding agreed in this session: host transmit, host receive, line transmit, line receive (R167, R179)
  hLost    : Nat := 0             -- host positions whose lane is lost
  lLost    : Nat := 0             -- line positions whose lane is lost
  hNew     : Nat := 0             -- losses and returns to act on at the next boundary
  lNew     : Nat := 0
  hFrame   : Bool := false        -- a valid training frame has arrived on the segment since the last boundary
  lFrame   : Bool := false
  hQuiet   : Nat := 0             -- boundaries passed since signal detect or a frame was last on the segment (R53)
  lQuiet   : Nat := 0
  hQuietAt : Nat := 0             -- position in the stroke at which it was
  lQuietAt : Nat := 0
  h2l      : DirSt := {}
  l2h      : DirSt := {}
  deriving DecidableEq, Repr

/-- One course side's sympathetic receiver and rotation map (R133 to R141, R154). -/
structure SideRot where
  map     : List Nat                -- slice index serving each position
  symp    : Nat                     -- index of the sympathetic slice
  gen     : Nat := 0
  state   : Nat := 0                -- ROT_xSYMP.STATE
  tap     : Bool := false           -- SRC: monitor tap
  pos     : Nat := 0
  mode    : Bool := false           -- RH
  aligned : Bool := false
  owner   : Nat := 0
  d       : Int := 0                -- aligner offset
  want    : Nat := 0                -- attach at the next boundary: 0 none, 1 attach, 2 park
  wantPos : Nat := 0
  wantTap : Bool := false
  wantMode : Bool := false
  wantStart : Nat := 0
  wantOwner : Nat := 0
  wantAdapt : Bool := true
  adapt   : Bool := true
  phase   : Nat := 0                -- handover phase running (R136), 0 none
  winLeft : Nat := 0                -- compare strokes left
  compared : Nat := 0
  attachAt : Nat := 0               -- stroke of the attach
  convLim : Nat := 0                -- CONV_TMO in use
  win     : Nat := 0                -- WIN in use
  liveSnr : Nat := 0
  sympSnr : Nat := 0
  cfgHit  : Bool := false           -- a commit changed either slice in the open window
  subst   : Bool := false           -- slice substitution in progress (R445)
  substNow : Bool := false          -- the substitute has locked: the pin moves to it at the next boundary
  deriving DecidableEq, Repr

/-- A course's buffer banks (R146). -/
structure Banks where
  map     : List Nat := [0, 1, 2, 3, 4, 5]
  spare   : Nat := 6
  src     : Nat := 7
  copying : Bool := false
  failed  : Nat := 0
  logical : Nat := 0
  nextLog : Nat := 0
  copied  : Nat := 0                -- bytes copied
  copyEnd : Nat := 0                -- stroke in which the last of them was copied
  lastRot : Nat := 0                -- stroke of the last rotation start
  stopped : Bool := false
  stores  : SMap Nat := []        -- bytes allocated to each port, by index (R201)
  deriving DecidableEq, Repr

/-- A course's lattice receiver (chapter Lane loss and lattice protection). -/
structure Lattice where
  state    : Nat := 0               -- LAT_STAT.STATE
  pos      : Nat := 15
  pos2     : Nat := 15
  dreason  : Nat := 0
  txFrames : Bool := false
  skew     : Nat := 0
  agree    : Nat := 0               -- consecutive agreeing symbols, up to 2^20
  found    : Bool := false          -- the new wait of AGREEING has been found (R222)
  svcOut   : List Word := []        -- the service values last sent, copies 0 to 3 (R220)
  spos     : Nat := 15              -- the position the single-lane session runs on, or ran on last
  ofs      : Vector Nat 9 := Vector.replicate 9 0
  changed  : Nat := 0               -- stroke of the last change of STATE
  singles  : Nat := 0
  nonzero  : Nat := 0
  byAgree  : Bool := false          -- READMITTED by agreement alone (R219)
  trigger  : Nat := 0
  failedAt : Nat := 0               -- stroke of the declaration
  announced : Bool := false         -- service word sent or accepted, switch to TRAIN due
  ann      : Nat := 15             -- the position announced
  sess     : Bool := false         -- a single-lane session runs
  here     : Bool := false          -- started here
  sessFrom : Nat := 0
  retryAt  : Option Nat := none
  skewSeen : Bool := false          -- LATTICE_SKEW posted in this session
  disarm   : Bool := false          -- disarm at the next boundary
  noArm    : Bool := false          -- disarmed with DREASON 3: armed again only after a disable and enable (R224)
  port     : Nat := 0               -- index of the lattice port
  lane     : LaneSess := {}
  deriving DecidableEq, Repr

/-- A gearbox line lane (R234 to R238, R244). -/
structure Gbx where
  fill   : Nat := 0
  phase  : Bool := false
  phses  : Bool := false
  slip   : Bool := false
  lostAt : Option Nat := none      -- stroke the phase was lost, until it is restored
  sessAt : Nat := 0
  lane   : LaneSess := {}
  deriving DecidableEq, Repr

/-- One half of a course's capture memory (R144, R429). The bytes lie in the die's SRAM. -/
structure CapHalf where
  valid   : Bool := false
  retired : Bool := false
  isol    : Bool := false           -- isolated for self-test
  deriving DecidableEq, Repr

/-- A course: presence, rotation, banks, lattice, gearbox, capture memory, ports. -/
structure Course where
  prsRaw  : Bool := false           -- PRS_N is low
  prsAt   : Nat := 0                -- sc count at its last change: 1,280 × stroke + sc (R54)
  present : Bool := false           -- debounced presence level
  host    : SideRot := { map := [0, 1, 2, 3, 4, 5, 6, 7], symp := 8 }
  line    : SideRot := { map := [0, 1, 2, 3, 4, 5, 6, 7, 8], symp := 9 }
  banks   : Banks := {}
  lat     : Lattice := {}
  gbx     : Vector Gbx 4 := Vector.replicate 4 {}
  capH    : CapHalf := {}
  capL    : CapHalf := {}
  pllH    : Bool := false           -- host-side lane PLL locked
  pllL    : Bool := false
  hold    : Bool := false           -- lane PLLs hold over
  relock  : Bool := false           -- lane PLLs slew back to a reference (R254)
  gate    : Bool := false           -- gated closed
  deriving DecidableEq, Repr

/-! ### Die blocks -/

/-- The STROKE block and the commit scheduling of a die (chapter 2). -/
structure StrokeBlk where
  count   : Nat := 0
  state   : Nat := 0                -- STROKE_ALIGN.STATE
  gcHeld  : Bool := false
  mloss   : Bool := false
  err     : Int := 0
  lead    : DieId := 0
  misses  : Nat := 0                -- consecutive strokes without a marker
  marker  : Bool := false           -- a marker has arrived for this stroke
  markerNext : Bool := false        -- one has arrived for the next stroke
  trk     : Nat := 0                -- 1 + stroke of the first marker since TRACKING was entered; 0 before it (R39)
  phase   : Int := 0                -- the die's boundary after the lead's, in sc, as its last marker left it (R38)
  mismatch : Bool := false          -- STROKE_MISMATCH (R40)
  ovr     : Nat := 0                -- FRET_OVR bits, bit f
  ovrAt   : SMap Nat := []          -- stroke of the last overrun of each fret
  dueNow  : Nat := 0                -- groups due at the next boundary, local
  dueNext : Nat := 0                -- groups due at the boundary after
  gdue    : List (Nat × Nat × Nat) := []  -- global packets scheduled: (target stroke, mask, kind)
  held    : Nat := 0                -- group mask of the held global strobe
  lastCommit : Nat := 0
  hkOvr   : Bool := false           -- frets 28 and 29 of this stroke overran (R27)
  hkPrev  : Bool := false           -- those of the stroke before did
  pegOvr  : Bool := false           -- frets 21 to 24 of this stroke overran (R27)
  left    : List Nat := []          -- slices left over by the tuning overruns of the stroke before (R27)
  cut     : List Nat := []          -- slices that this stroke's tuning overruns leave over
  ran     : Nat := 0                -- fret work that has run in this stroke: bit f; fret 30: bits 30 events, 31 MSI-X messages, 32 heartbeats, 33 marker
  trainLeft : List Nat := []        -- lanes left over by the training overrun of the stroke before, by transmitter number (R27, R159)
  trainCut : Nat := 0               -- training requests that this stroke's frets 17 to 20 leave undecided
  bistCut : Nat := 0                -- bytes of the bank copy that this stroke's frets 25 to 27 leave over
  evtCut  : Nat := 0                -- event records that this stroke's fret 30 leaves for the next
  sync    : Option (Nat × Nat) := none   -- TAG of the last SYNC, and the hops of the copy in use (R277)
  asleep  : Bool := false           -- SYS runs again after Standby, and the die has not resumed counting (R472)
  wakeTo  : Option Nat := none      -- the stroke that the first marker to reach it names
  resumed : Option Nat := none      -- stroke of leaving Standby, until monitoring restarts (R472)
  deriving DecidableEq, Repr

/-- The CLK block (chapter Clocks). -/
structure Clk where
  aReady  : Bool := false
  bReady  : Bool := false
  spReady : Bool := false
  sysUse  : Nat := 2
  laneUse : Nat := 3
  slowAlt : Bool := false
  disagree : Bool := false
  told    : Bool := false           -- REF_DISAGREE posted since the last agreement
  aPass   : Nat := 0                -- consecutive passing windows
  bPass   : Nat := 0
  spPass  : Nat := 0
  diff    : Half := 0
  refSp   : Half := 0
  holdFrom : Nat := 0               -- stroke of holdover entry
  aged    : Bool := false
  inHold  : Bool := false           -- holdover entered from a locked state
  aSince  : Nat := 0                -- stroke since which the reference has been READY
  bSince  : Nat := 0
  defer   : Bool := false           -- free-run holdover, fallback deferred (R258)
  forcedSys : Bool := false         -- the last SYS switch was forced
  forcedLane : Bool := false        -- the last LANE switch was forced
  failover : Nat := 0               -- domains that failed over since the last CLK_SWITCH: bit 0 SYS, bit 1 LANE (R260)
  switching : Bool := false         -- a CLK_SWITCH waits for its commit (R260)
  gTune   : Bool := false
  gTrain  : Bool := false
  gBist   : Bool := false
  gHk     : Bool := false
  gDie    : Bool := false
  gSlice  : List Nat := []          -- slices gated closed
  gWant   : List (Nat × Nat × Bool) := []   -- gate changes due at the next boundary: level, node, close
  gFresh  : List (Nat × Nat) := []  -- gates opened in this stroke: what is below them runs from the next boundary (R261)
  sysPend : Option Nat := none      -- a SYS changeover waits for an edge of the source being left (R255)
  lanePend : Option Nat := none     -- the same for LANE
  sysStop : Bool := false           -- the SYS source being left has stopped
  failing : Bool := false           -- the monitor has tripped and SYS is not yet on the soundpost (R252)
  restart : Bool := false           -- the soundpost settles after a trim update (R257)
  deferAt : Nat := 0                -- timestamp of the trip of R258
  spRun   : Bool := false           -- SYS failed over to the soundpost: an EPOCH record is due (R354)
  refused : Nat := 0                -- domains the last CLK_CFG commit refused: bit 0 SYS, bit 1 LANE
  deriving DecidableEq, Repr

/-- Block lock of one receive lane (R270). -/
structure BlockLock where
  locked : Bool := false
  run    : Nat := 0                 -- consecutive valid sync headers, while it searches
  recent : List Bool := []          -- while locked: the last 64 headers, newest first; true = invalid
  deriving DecidableEq, Repr

/-- One bridge of a die (R270, R271, R287). -/
structure Bridge where
  lock   : SMap BlockLock := []     -- block lock by receive lane
  aligned : Nat := 0                -- receive lanes that the alignment blocks deskew
  rxSet  : Nat := 0                 -- lane set that the neighbour uses, as its alignment blocks tell
  state  : Nat := 0                 -- 0 DOWN, 1 UP, 2 DEGRADED
  hb     : Bool := false            -- heartbeats arrive
  seen   : Bool := false            -- a heartbeat has arrived in this stroke
  misses : Nat := 0
  good   : Nat := 0                 -- strokes with 3 or more lanes up and heartbeats, while DOWN
  dip    : Bool := true             -- fewer than 3 lanes have been up at some time of this stroke
  alignAt : Option Nat := none      -- time in sc of the last period of alignment blocks (R271)
  set_   : Nat := 0                 -- lane set in use (R271)
  peer   : Nat := 0                 -- outgoing lanes that the neighbour receives, as its heartbeats report (R270, R274)
  lat    : Half := 0                -- measured one-way latency
  echoes : Nat := 0                 -- ECHO exchanges of the measurement under way, and their latencies added (R277)
  echoSum : Nat := 0
  measured : Bool := false
  deriving DecidableEq, Repr

/-- The BRG block and the packets of a die (chapter Dies and bridges). -/
structure Brg where
  east    : Bridge := {}
  west    : Bridge := {}
  reach   : Nat := 0                -- REACH
  isol    : Nat := 0                -- ISOL
  route   : Nat := 0                -- WEST
  known   : List (DieId × Bool × Nat) := []   -- bridge states learned by RING_STATE (die, west?, state)
  failover : Bool := false          -- ring failover in progress (R278)
  changed : Bool := false           -- routes to be recomputed at the next boundary
  nextTag : Nat := 0
  sent    : List Sent := []
  seen    : List (DieId × Nat) := []          -- SRC and TAG of the last packets accepted
  stored  : List (DieId × Nat × Body) := []   -- stored replies of the last 256 packets of each source (R275)
  isolated : Bool := false
  lost    : Bool := false
  restoring : Bool := false
  restStep : Nat := 0
  isolNext : Bool := false          -- isolate at the next boundary
  restFrom : Nat := 0               -- stroke from which the restore is counted
  restSpent : Nat := 0              -- strokes it had taken when the die adopted the lead's count (R40)
  elect   : Option Nat := none      -- stroke of the ELECT this die sent
  electTag : Nat := 0               -- its TAG
  acks    : Nat := 0                -- dies that have answered it
  notRun  : Nat := 0                -- consecutive strokes in which this die's heartbeats have reported its pegbox not running (R282)
  toldAt  : Nat := 0                -- 1 + stroke of the last heartbeat that told of it
  run0    : Nat := 0                -- consecutive strokes die 0 has been available
  deriving DecidableEq, Repr

/-- An instance of the wide-value mailbox (R305, R315). -/
structure Wmb where
  selx  : Nat := 0
  sel   : Nat := 0
  valid : Bool := false
  err   : Bool := false
  nostage : Bool := false
  wide  : Bool := false
  data  : Nat := 0                  -- 64 bits
  deriving DecidableEq, Repr

/-- Register access, error capture, and configuration protection of a die (chapter 13). -/
structure Prot where
  errAddr : Nat := 0
  errBus  : Nat := 0
  errWr   : Bool := false
  wmb     : Vector Wmb 4 := Vector.replicate 4 {}
  crcLast : Nat := 0
  mismatch : Bool := false
  dirty   : Bool := false
  passDirty : Bool := false         -- a commit or restore was applied in the pass under way
  passAt  : Nat := 0                -- registers read so far in the pass
  passCrc : Nat := 0xFFFFFFFF       -- the CRC over them (R312)
  passEnd : Option (Nat × Bool) := none   -- the pass that has ended and is not yet reported: its CRC, and whether it was dirty
  commit  : Half := 0               -- H, GLOBAL and DISCARD of DIE_COMMIT as last written (R301, R314)
  parAddr : Nat := 0
  parStaged : Bool := false
  parUnrec : Bool := false
  restore : List Nat := []          -- registers to restore from the ledger at the next boundary (R310)
  bad     : List Nat := []          -- ledger words that are uncorrectable
  deriving DecidableEq, Repr

/-- The pegbox of a die (chapter 14): its state, its firmware images and staging session, the commands it holds. -/
structure Peg where
  state   : Nat := 0                -- PEG_STAT.STATE
  region  : Bool := false
  sbValid : Bool := false
  romImg  : Bool := false
  romS    : Bool := false           -- the standby region holds the ROM's image: it was swapped out
  staging : Bool := false           -- a session is open on this die
  stOrigin : DieId := 0
  stQueue : QueueId := 0
  stLast  : Nat := 0                -- stroke of the last chunk
  stBytes : SMap Byte := []         -- image bytes received
  stCover : List Nat := []          -- word offsets received
  verA    : Word := 0
  verS    : Word := 0
  secA    : Nat := 0
  secS    : Nat := 0
  restarts : Nat := 0
  startAt : Nat := 0
  wdtAt   : Nat := 0                -- stroke of the watchdog expiry being served
  swapAt  : Option Nat := none      -- boundary of a scheduled image swap (R338)
  swapped : Option Nat := none      -- stroke of the swap, until the new image reports running
  ops     : List Op := []
  ended   : List Ended := []
  inbox   : List Waiting := []
  awaits  : List Await := []
  late    : List (Nat × Nat × Rec) := []  -- answers of short commands that ended while the pegbox did not run: opcode, span, record
  deriving DecidableEq, Repr

/-- The event system of a die (chapter Events). -/
structure EvtBlk where
  seq     : SMap Nat := []          -- occurrences per local source, modulo 256
  stroke  : SMap Nat := []          -- normal records written this stroke, per local source
  local_  : List Evt := []          -- local buffer, oldest first, not yet acknowledged
  fresh   : Nat := 0                -- records at its end added since the previous fret 30
  epochs  : Nat := 0
  held    : List Evt := []          -- records an access die received and does not write yet, behind an EPOCH record (R354)
  wp      : Nat := 0
  phase   : Bool := true
  rp      : Nat := 0
  unmasked : List Nat := []         -- slots of unmasked normal records not yet passed by RP
  nmis    : List Nat := []          -- slots of non-maskable records not yet passed by RP
  dropped : Nat := 0
  dropAt  : Nat := 0
  groups  : Nat := 0                -- groups with an unmasked record since the last fret 30
  relAlert : Bool := false          -- ALERT_N released under R364
  relAt   : Nat := 0                -- stroke of that release
  vecs    : List Nat := []          -- MSI-X messages sent, newest first (the endpoint's output)
  pend    : Nat := 0                -- MSI-X pending bits
  pendEv  : Nat := 0                -- those of them that an event set
  mask    : Nat := 0xFFFFFFFF       -- MSI-X per-vector masks (log entry 6)
  fmask   : Bool := false           -- MSI-X function mask
  deriving DecidableEq, Repr

/-- A two-wire controller port (R366 to R370, R374). -/
structure Mc where
  scl    : Bool := true
  sda    : Bool := true
  active : Bool := false
  stuck  : Bool := false
  free   : Bool := false            -- the bus is free (R367)
  high   : Nat := 0                 -- strokes both lines have been high without a transfer
  last   : Nat := 0
  check  : Bool := false            -- lines to be checked before the next transfer (R369)
  retries : Nat := 0
  cleared : Bool := false           -- bus clear was run
  acked  : Nat := 0                 -- write bytes of the transfer acknowledged so far
  got    : List Byte := []          -- bytes it has read so far
  low    : Nat := 0                 -- strokes a check has waited for SCL to rise (R369)
  deriving DecidableEq, Repr

/-- The two-wire block of a die (chapter Two-wire management ports). -/
structure Twi where
  addr   : Nat := 0x4C
  wbuf   : Option (Word × Word) := none    -- the one-entry write buffer: X and D
  wres   : Nat := 5                        -- outcome of the most recent write frame (R297)
  read   : Option (Word × Nat) := none     -- the read in progress: X, and the TAG of its request
  st     : Nat := 0                        -- the status byte that answers the last read frame
  d      : Word := 0                       -- the D that answers it
  ready  : Bool := false                   -- they are ready to be sent, and no frame has followed
  mc     : Vector Mc 2 := Vector.replicate 2 {}
  deriving DecidableEq, Repr

/-- One regular sequence of the housekeeping converter (R378 to R380). -/
structure Seq where
  state  : Nat := 0                 -- 0 IDLE, 1 QUEUED, 2 RUNNING, 3 suspended
  pend   : Bool := false
  pendLate : Bool := false
  step   : Nat := 0
  pass   : Nat := 0
  late   : Bool := false
  calDel : Bool := false
  told   : Bool := false            -- OVERRUN posted, no clean pass since
  dropped : Bool := false           -- a trigger was dropped while this pass waited or ran
  pendDrop : Bool := false          -- a trigger was dropped while the latched one waited
  pendCal : Bool := false           -- the latched trigger was held across a calibration
  delay  : Bool := false            -- the delay timer runs
  delayAt : Nat := 0                -- timestamp of its start
  trigAt : Nat := 0                 -- 1 + stroke of the last stroke-timer trigger delivered on time
  lateAt : Nat := 0                 -- 1 + stroke of the last one delivered a stroke late
  cfg    : Half := 0                -- HK_SEQCFG in use by the pass under way
  steps  : List Nat := []           -- inputs in use by the pass under way
  deriving DecidableEq, Repr

/-- The housekeeping converter and the PWM outputs of a die (chapter 17). -/
structure Hk where
  seq0    : Seq := {}
  seq1    : Seq := {}
  cal     : Nat := 0                -- 0 none, 1 waiting, 2 running
  calAfter : Nat := 0               -- injected conversions the calibration waits for
  inj     : List (Nat × Bool) := [] -- injected conversions pending: input, CAL_DELAYED
  injDone : List (Nat × Bool) := [] -- results of the HK_INJECT being served: code, flag
  injOps  : List (Packet × Nat) := []   -- HK_INJECT commands not yet answered, in order, each with the stroke it started in
  conv    : Nat := 0                -- conversion in progress: 0 none, 1 injected, 2 + s a step of sequence s
  calRes  : List Nat := []          -- results of the calibration under way, in order
  calOp   : Option (Packet × Nat) := none   -- HK_CALIBRATE, and the stroke it started in
  last    : SMap Nat := []          -- HK_LAST codes
  wp      : Nat := 0
  rp      : Nat := 0
  count   : Nat := 0                -- unconsumed records, 0 to 8,192
  owTold  : Bool := false
  above   : Nat := 0
  trip    : Bool := false
  owed    : Bool := false           -- TEMP_CRITICAL is posted at the wake from Standby (R474)
  pwm     : SMap Half := []         -- values the counters run on: channel × 4 + (0 CTL, 1 PER, 2 DUTY, 3 PHASE); unlisted: the reset value
  load    : SMap Half := []         -- the load registers, keyed likewise
  pwmZero : SMap Int := []          -- time in sc, from stroke 0, at which each channel's count was last known to be 0
  pwmUsed : Nat := 0                -- channels enabled since power-up (R388)
  moved   : SMap Nat := []          -- stroke in which each channel's values last moved to its load register
  loading : Nat := 0
  dueLoad : Nat := 0                -- channels to load in frets 28 and 29
  waiters : List Await := []        -- PWM_SET commands waiting for their channel, in arg
  ofs     : Half := 0               -- corrections in use (R383)
  gain    : Half := 0
  deriving DecidableEq, Repr

/-- A self-test in progress (R420 to R428). -/
structure Test where
  tag     : BitVec 16
  test    : Nat
  target  : Nat
  packet  : Packet
  done    : Nat := 0                -- work done at the last checkpoint, strokes
  susp    : Nat := 0
  paused  : Bool := false           -- SUSPENDED
  isol    : Bool := false           -- its block is isolated
  auto_   : Bool := false           -- started by the device (R445): no record
  half    : Bool := false           -- PEGMEM_MARCH has tested half A and copied it (R424)
  copied  : Nat := 0                -- bytes of half B copied to half A (R424)
  sliceAt : Nat := 0                -- stroke in which the current work slice began (R422)
  rep     : Nat := 0                -- the repeat of a REPAIR_SOFT (R436): 1 repaired, 2 recorded in NV, 3 NV worn
  deriving DecidableEq, Repr

/-- Self-test and repair state of a die (chapter 19). -/
structure Bist where
  tests   : List Test := []
  ring    : SMap (List Nat) := []   -- result records by ring index
  wp      : Nat := 0
  count   : Nat := 0
  fuses   : Nat := 0                -- entries programmed
  fuseMap : List (Nat × Nat) := []  -- macro id, row or column ([15:0], [16])
  soft    : List (Nat × Nat) := []  -- soft repairs in effect
  burnOf  : List (Nat × Nat) := []  -- entries REPAIR_FUSE still has to program
  burnt   : Nat := 0                -- entries it has programmed
  conflicts : List Nat := []        -- macros of NV records discarded at boot (R433)
  retMac  : List Nat := []          -- retired macros (R429)
  deriving DecidableEq, Repr

/-- Nonvolatile store of an access die (chapter 22). The words lie in `Die.nv`. -/
structure Nvs where
  stale  : List Nat := []           -- blocks of the other mirror marked STALE
  resync : Bool := false
  busy   : Bool := false
  wear   : SMap Nat := []           -- wear counter of each block
  repairs : List (Nat × Nat) := []  -- repair records: macro id, row or column
  retire : List Nat := []           -- retired macros and slices recorded in NV
  minSec : Nat := 0                 -- minimum SECVER (R333)
  patch  : Bool := false            -- the firmware patch region holds an image (R336)
  unread : Bool := false            -- neither mirror was readable at BOOT: NV fields read 0 (R10, R443)
  dead   : Bool := false            -- this mirror was not readable at BOOT (R463)
  gone   : List Nat := []           -- its words that BOOT found uncorrectable in both mirrors, not rewritten since (R443)
  deriving DecidableEq, Repr

/-- Counters, snapshot and profiling of a die (chapter 18). -/
structure Tele where
  cnt     : SMap Nat := []          -- every counter, by live-region offset, modulo 2^32
  live    : SMap Nat := []          -- the live region as last copied (R403)
  latch   : Option (SMap Nat) := none   -- the live region as latched at the start of fret 21, until the end of fret 24
  marks   : List Nat := []          -- level counters whose condition has held in this fret
  frets   : Nat := 0                -- frets ended since the counters' reset
  high    : SMap Nat := []          -- by slice, those of them throughout which SNR_NOW was not below SNR_WARN (R105)
  lowMarks : List Nat := []         -- slices whose SNR_NOW has been below SNR_WARN in this fret
  snapAt  : Option Nat := none      -- boundary of a waiting snapshot
  snapBusy : Bool := false          -- a snapshot is latched and its buffer being written
  snapHold : Option Packet := none  -- a GLOBAL snapshot held during ring failover (R37, R409)
  snapFirst : Nat := 0
  snapCount : Nat := 0
  snapStroke : Nat := 0
  snapValid : Bool := false
  snapLow : Bool := false
  snapVals : SMap Nat := []
  snapReq : Nat × Nat := (0, 0)
  lowMark : Bool := false           -- a recovery or isolation since the previous snapshot (R408)
  profRun : Bool := false
  profM   : Nat := 0
  profFrom : Nat := 0               -- stroke at whose boundary profiling began
  profLast : Nat := 0               -- time of the last sample, in sc from stroke 0
  profWp  : Nat := 0
  profFull : Bool := false
  profBuf : SMap Nat := []          -- the profiling samples, 64 bits each
  lowAt   : Nat := 0                -- 1 + stroke of the last recovery or isolation (R408, R412)
  deriving DecidableEq, Repr

/-- A die: its registers, memories and blocks. -/
structure Die where
  active : SMap Half := []          -- active values of RWS registers; unlisted: the reset value
  staged : SMap Half := []          -- staged values, one entry per register that holds one
  ledger : SMap Half := []          -- the configuration ledger (R310); unlisted: the reset value
  pend   : Nat := 0                 -- DIE_STAGE_PENDING
  slices : SMap Slice := []
  pins   : SMap PinRec := []        -- host pins 0 to 63, line pins 64 to 135
  txs    : SMap Tx := []
  ports  : SMap Port := []          -- key 8c + i
  courses : SMap Course := []
  stroke : StrokeBlk := {}
  clk    : Clk := {}
  brg    : Brg := {}
  prot   : Prot := {}
  peg    : Peg := {}
  q0     : Queue := {}
  q1     : Queue := {}
  q2     : Queue := {}
  evt    : EvtBlk := {}
  twi    : Twi := {}
  hk     : Hk := {}
  bist   : Bist := {}
  nvs    : Nvs := {}
  tele   : Tele := {}
  calLoaded : SMap Half := []       -- CAL trims loaded at boot: 128 × slice + sub-ADC, then the other kinds by position (R10, R79, R489)
  sram   : List Host.Cell := []     -- the host-visible regions of the SRAM (R13)
  nv     : List Host.Cell := []     -- the MRAM mirror of an access die (R482)
  ir     : Nat := 1                 -- boundary-scan instruction register (R480)
  irCap  : Nat := 1                 -- what it captures next
  deriving DecidableEq, Repr

/-- A request at an endpoint: its window, its offset there, and its form. -/
abbrev Tlp := Window × BitVec 25 × Request

/-- One PCI Express endpoint (R290 to R295). -/
structure Endpoint where
  l0    : Bool := false
  speed : Nat := 0
  width : Nat := 0
  bars  : Vector Word 6 := Vector.replicate 6 0   -- the writable bits of the base address registers (R291)
  d3    : Bool := false             -- power state D3hot; else D0 (R290)
  caStatus : Bool := false          -- AER: Completer Abort status logged (R294)
  poison : Bool := false            -- AER: Poisoned TLP Received
  unsup  : Bool := false            -- AER: Unsupported Request status
  advisory : Bool := false          -- AER: advisory non-fatal status
  header : Option Tlp := none       -- AER: the request whose header is logged
  crossings : Nat := 0              -- bridge crossings of the access under way (R308)
  waiting : List Tlp := []          -- requests behind it, or that came in Standby, in order (R308, R473)
  rdata : Option (Bool × List Word) := none   -- the last read completion: abort?, the DW
  deriving DecidableEq, Repr

/-- The package: its part, its reset and Standby phase, the position in the stroke, the dies, the ring, the endpoints,
and the queue of commands waiting (first in, first out). -/
structure State where
  part    : Part
  phase   : Nat                     -- 0 held in reset, 1 booting (RESET_N deasserted), 2 running, 3 Standby
  pos     : Nat                     -- sc within the stroke, 0 to 1,279 (R22)
  free    : Nat                     -- index of the next free value (the model's own)
  wake    : Nat                     -- wake source of the Standby being left
  waking  : Bool                    -- STANDBY_EXIT not yet posted
  rootOff : Bool                    -- the package root closes at the next boundary (R470)
  vddhOff : Bool                    -- drivers disabled by VDDH falling (R466)
  lead    : Option DieId            -- the lead die
  dies    : Vector Die 8
  air     : List Flit
  ep0     : Endpoint
  ep1     : Endpoint
  gsync   : Option (Nat × Nat)      -- FW_ACTIVATE in progress: boundary T, dies named
  fwHeld  : Bool                    -- T not yet chosen: the packet that carries it waits for the end of a ring failover (R37)
  fwOp    : Option Packet
  fwDone  : Nat                     -- dies activated
  fwBack  : Nat                     -- dies reverted
  pending : List Instr
  deriving DecidableEq, Repr

/-- Right after power-on reset (R462, R467, R10): every register at its reset value, every transmitter OFF and every
port DISABLED, memories with nothing listed, an empty queue. The part is DESIGN CHOICE (log entry 2): Q512. -/
def State.reset : State :=
  { part := .q512, phase := 0, pos := 0, free := 0, wake := 0, waking := false, rootOff := false, vddhOff := false,
    lead := none, dies := Vector.replicate 8 {}, air := [], ep0 := {}, ep1 := {},
    gsync := none, fwHeld := false, fwOp := none, fwDone := 0, fwBack := 0, pending := [] }

/-- Every meaning answers one of the host's three outcomes. -/
abbrev Result := Host.Outcome State Fault Refusal

end Sys2Proof.Machine
end

