-- ==== Sys2Proof/Machine/RegMap.lean ====
section
/-! DEFINITION. The register map of a die window: one row per register of the manual's maps (R43, R70, R104, R128, R154,
R186, R205, R227, R244, R265, R287, R314 to R316, R341, R356, R374, R395, R396, R438, R492), with its base-view offset,
its instances, its commit group, the bits that are RWS and RWI (R8) and its reset value (R10). -/

namespace Sys2Proof.Machine

/-- The registers of a die window, by the names of their maps. -/
inductive RegId where
  | strokeNow0
  | strokePos
  | strokeAlign
  | strokeLead
  | fretCtl
  | fretOvr0
  | fretOvr1
  | prsCfg
  | prsStat
  | portCfga
  | portCfgb
  | portBudget
  | portMapLo
  | portMapHi
  | portPolh
  | portPoll
  | portCtl
  | portState
  | portLock
  | rxCtl
  | rxCtle
  | rxVga
  | rxDfe
  | rxAdapt
  | rxSd
  | rxSnrth
  | rxCdr
  | rxReacq
  | rxStat
  | rxPin
  | rxSnr
  | rxSnrmin
  | rxFreq
  | rxH1
  | rxH2
  | rxFfe
  | rxAdctrim
  | txCtl
  | txSwing
  | txFfe
  | txUpat
  | txStat
  | txFreq
  | rotHmap0
  | rotHmap1
  | rotLmap0
  | rotLmap1
  | rotLmap2
  | rotGen
  | rotHsymp
  | rotLsymp
  | rotHalign
  | rotLalign
  | hoCfg
  | bankCtl
  | bankStat
  | bankMap0
  | bankMap1
  | trnCfg
  | trnSeg
  | trnHlane
  | trnLlane
  | dpCfg
  | dpStat
  | dpBlock
  | dpLat
  | dpSkew
  | latCfg
  | latStat
  | latSkew
  | latAgree
  | latOfs
  | gbxLane
  | clkCfg
  | clkSptrim
  | clkStat
  | clkLpll
  | clkRefdiff
  | clkRefsp
  | clkGatestat
  | brgCfg
  | brgEstat
  | brgWstat
  | brgRing
  | brgRoute
  | brgHoplatE
  | brgHoplatW
  | dieId
  | dieCfg
  | dieCommit
  | dieStagePending
  | dieLastcommit
  | dieErrLo
  | dieErrHi
  | wmbSelx
  | wmbSel
  | wmbStat
  | wmbD0
  | wmbD1
  | wmbD2
  | wmbD3
  | cfgprotCtl
  | cfgCrcRefLo
  | cfgCrcRefHi
  | cfgCrcLastLo
  | cfgCrcLastHi
  | cfgCrcStat
  | cfgCrcNreg
  | cfgParAddrLo
  | cfgParAddrHi
  | pegSqTail
  | pegSqHead
  | pegCqHead
  | pegCqTail
  | pegQcfg
  | pegQstat
  | pegStat
  | pegFwverA
  | pegFwverS
  | pegWdt
  | evtCfg
  | evtWp
  | evtRp
  | evtStat
  | evtGmask
  | evtDmask
  | evtVec
  | evtLocal
  | twiTcfg
  | twiTstat
  | twiMcfg
  | twiMstat
  | hkSeqcfg
  | hkSeqn
  | hkSeqdly
  | hkStat
  | hkBuf
  | hkWp
  | hkRp
  | hkTcrit
  | hkTstat
  | hkStep
  | hkLast
  | pwmCtl
  | pwmPer
  | pwmDuty
  | pwmPhase
  | pwmStat
  | bistCfg
  | bistStat
  | bistFuse
  | bistRetired
  | nvsStat
  | nvsWear
  deriving DecidableEq, Repr

/-- How a register's commit group is given (R299): none, a fixed group, or 8 + the course of its block. -/
inductive GroupOf where
  | none
  | fixed (g : Nat)
  | course
  | slice
  | tx
  deriving DecidableEq, Repr

/-- One row of the register map: `na` instances `sa` apart, each with `nb` registers `sb` apart. -/
structure RegRow where
  id    : RegId
  off   : Nat
  na    : Nat
  sa    : Nat
  nb    : Nat
  sb    : Nat
  group : GroupOf
  rws   : Half
  rwi   : Half
  rst   : Half
  deriving DecidableEq, Repr

/-- The DIE block's registers. -/
def rowsDie : List RegRow :=
  [ ⟨.dieId, 0x00000, 1, 0x0, 1, 0x0, .none, 0x0000, 0x0000, 0x0000⟩,
    ⟨.dieCfg, 0x00004, 1, 0x0, 1, 0x0, (.fixed 0), 0x0001, 0x0000, 0x0000⟩,
    ⟨.dieCommit, 0x00010, 1, 0x0, 1, 0x0, .none, 0x0000, 0x07FF, 0x0000⟩,
    ⟨.dieStagePending, 0x00014, 1, 0x0, 1, 0x0, .none, 0x0000, 0x0000, 0x0000⟩,
    ⟨.dieLastcommit, 0x00018, 1, 0x0, 1, 0x0, .none, 0x0000, 0x0000, 0x0000⟩,
    ⟨.dieErrLo, 0x00020, 1, 0x0, 1, 0x0, .none, 0x0000, 0x0000, 0x0000⟩,
    ⟨.dieErrHi, 0x00024, 1, 0x0, 1, 0x0, .none, 0x0000, 0x0000, 0x0000⟩ ]

/-- The CLK block's registers. -/
def rowsClk : List RegRow :=
  [ ⟨.clkCfg, 0x01000, 1, 0x0, 1, 0x0, (.fixed 2), 0x03FF, 0x0000, 0x001A⟩,
    ⟨.clkSptrim, 0x01004, 1, 0x0, 1, 0x0, (.fixed 2), 0x007F, 0x0000, 0x0040⟩,
    ⟨.clkStat, 0x01010, 1, 0x0, 1, 0x0, .none, 0x0000, 0x0000, 0x0070⟩,
    ⟨.clkLpll, 0x01014, 1, 0x0, 1, 0x0, .none, 0x0000, 0x0000, 0x0000⟩,
    ⟨.clkRefdiff, 0x01018, 1, 0x0, 1, 0x0, .none, 0x0000, 0x0000, 0x0000⟩,
    ⟨.clkRefsp, 0x0101C, 1, 0x0, 1, 0x0, .none, 0x0000, 0x0000, 0x0000⟩,
    ⟨.clkGatestat, 0x01020, 1, 0x0, 1, 0x0, .none, 0x0000, 0x0000, 0x0000⟩ ]

/-- The STROKE block's registers. -/
def rowsStroke : List RegRow :=
  [ ⟨.strokeNow0, 0x02000, 1, 0x0, 1, 0x0, .none, 0x0000, 0x0000, 0x0000⟩,
    ⟨.strokePos, 0x02004, 1, 0x0, 1, 0x0, .none, 0x0000, 0x0000, 0x0000⟩,
    ⟨.strokeAlign, 0x02008, 1, 0x0, 1, 0x0, .none, 0x0000, 0x0000, 0x0000⟩,
    ⟨.strokeLead, 0x0200C, 1, 0x0, 1, 0x0, .none, 0x0000, 0x0000, 0x0000⟩,
    ⟨.fretCtl, 0x02010, 1, 0x0, 1, 0x0, (.fixed 1), 0x0001, 0x0000, 0x0001⟩,
    ⟨.fretOvr0, 0x02014, 1, 0x0, 1, 0x0, .none, 0x0000, 0x0000, 0x0000⟩,
    ⟨.fretOvr1, 0x02018, 1, 0x0, 1, 0x0, .none, 0x0000, 0x0000, 0x0000⟩ ]

/-- The EVT block's registers. -/
def rowsEvt : List RegRow :=
  [ ⟨.evtCfg, 0x03000, 1, 0x0, 1, 0x0, (.fixed 4), 0x0003, 0x0000, 0x0001⟩,
    ⟨.evtWp, 0x03004, 1, 0x0, 1, 0x0, .none, 0x0000, 0x0000, 0x1000⟩,
    ⟨.evtRp, 0x03008, 1, 0x0, 1, 0x0, .none, 0x0000, 0x0FFF, 0x0000⟩,
    ⟨.evtStat, 0x0300C, 1, 0x0, 1, 0x0, .none, 0x0000, 0x0000, 0x0000⟩,
    ⟨.evtGmask, 0x03010, 1, 0x0, 1, 0x0, (.fixed 4), 0x07FF, 0x0000, 0x07FF⟩,
    ⟨.evtDmask, 0x03014, 1, 0x0, 1, 0x0, (.fixed 4), 0x00FF, 0x0000, 0x0000⟩,
    ⟨.evtVec, 0x03040, 1, 0x0, 11, 0x4, (.fixed 4), 0x001F, 0x0000, 0x0001⟩,
    ⟨.evtLocal, 0x03080, 1, 0x0, 1, 0x0, .none, 0x0000, 0x0000, 0x0000⟩ ]

/-- The WMB block's registers. -/
def rowsWmb : List RegRow :=
  [ ⟨.wmbSelx, 0x04000, 4, 0x40, 1, 0x0, .none, 0x0000, 0x001F, 0x0000⟩,
    ⟨.wmbSel, 0x04004, 4, 0x40, 1, 0x0, .none, 0x0000, 0xFFFF, 0x0000⟩,
    ⟨.wmbStat, 0x04008, 4, 0x40, 1, 0x0, .none, 0x0000, 0x0000, 0x0000⟩,
    ⟨.wmbD0, 0x04010, 4, 0x40, 1, 0x0, .none, 0x0000, 0x0000, 0x0000⟩,
    ⟨.wmbD1, 0x04014, 4, 0x40, 1, 0x0, .none, 0x0000, 0x0000, 0x0000⟩,
    ⟨.wmbD2, 0x04018, 4, 0x40, 1, 0x0, .none, 0x0000, 0x0000, 0x0000⟩,
    ⟨.wmbD3, 0x0401C, 4, 0x40, 1, 0x0, .none, 0x0000, 0x0000, 0x0000⟩ ]

/-- The CFGPROT block's registers. -/
def rowsCfgprot : List RegRow :=
  [ ⟨.cfgprotCtl, 0x05000, 1, 0x0, 1, 0x0, (.fixed 7), 0x0001, 0x0000, 0x0000⟩,
    ⟨.cfgCrcRefLo, 0x05004, 1, 0x0, 1, 0x0, (.fixed 7), 0xFFFF, 0x0000, 0x0000⟩,
    ⟨.cfgCrcRefHi, 0x05008, 1, 0x0, 1, 0x0, (.fixed 7), 0xFFFF, 0x0000, 0x0000⟩,
    ⟨.cfgCrcLastLo, 0x05010, 1, 0x0, 1, 0x0, .none, 0x0000, 0x0000, 0x0000⟩,
    ⟨.cfgCrcLastHi, 0x05014, 1, 0x0, 1, 0x0, .none, 0x0000, 0x0000, 0x0000⟩,
    ⟨.cfgCrcStat, 0x05018, 1, 0x0, 1, 0x0, .none, 0x0000, 0x0000, 0x0000⟩,
    ⟨.cfgCrcNreg, 0x0501C, 1, 0x0, 1, 0x0, .none, 0x0000, 0x0000, 0x0000⟩,
    ⟨.cfgParAddrLo, 0x05020, 1, 0x0, 1, 0x0, .none, 0x0000, 0x0000, 0x0000⟩,
    ⟨.cfgParAddrHi, 0x05024, 1, 0x0, 1, 0x0, .none, 0x0000, 0x0000, 0x0000⟩ ]

/-- The PEG block's registers. -/
def rowsPeg : List RegRow :=
  [ ⟨.pegSqTail, 0x06000, 3, 0x20, 1, 0x0, .none, 0x0000, 0x003F, 0x0000⟩,
    ⟨.pegSqHead, 0x06004, 3, 0x20, 1, 0x0, .none, 0x0000, 0x0000, 0x0000⟩,
    ⟨.pegCqHead, 0x06008, 3, 0x20, 1, 0x0, .none, 0x0000, 0x003F, 0x0000⟩,
    ⟨.pegCqTail, 0x0600C, 3, 0x20, 1, 0x0, .none, 0x0000, 0x0000, 0x0040⟩,
    ⟨.pegQcfg, 0x06010, 3, 0x20, 1, 0x0, (.fixed 4), 0x003F, 0x0000, 0x0002⟩,
    ⟨.pegQstat, 0x06014, 3, 0x20, 1, 0x0, .none, 0x0000, 0x0000, 0x0000⟩,
    ⟨.pegStat, 0x06100, 1, 0x0, 1, 0x0, .none, 0x0000, 0x0000, 0x0000⟩,
    ⟨.pegFwverA, 0x06104, 1, 0x0, 1, 0x0, .none, 0x0000, 0x0000, 0x0000⟩,
    ⟨.pegFwverS, 0x06108, 1, 0x0, 1, 0x0, .none, 0x0000, 0x0000, 0x0000⟩,
    ⟨.pegWdt, 0x06110, 1, 0x0, 1, 0x0, (.fixed 4), 0x00FF, 0x0000, 0x0010⟩ ]

/-- The HKADC block's registers. -/
def rowsHkadc : List RegRow :=
  [ ⟨.hkSeqcfg, 0x08000, 2, 0x10, 1, 0x0, (.fixed 5), 0x07FF, 0x0000, 0x0000⟩,
    ⟨.hkSeqn, 0x08004, 2, 0x10, 1, 0x0, (.fixed 5), 0xFFFF, 0x0000, 0x0001⟩,
    ⟨.hkSeqdly, 0x08008, 2, 0x10, 1, 0x0, (.fixed 5), 0xFFFF, 0x0000, 0x0000⟩,
    ⟨.hkStat, 0x08040, 1, 0x0, 1, 0x0, .none, 0x0000, 0x0000, 0x0000⟩,
    ⟨.hkBuf, 0x08044, 1, 0x0, 1, 0x0, (.fixed 5), 0x0001, 0x0000, 0x0001⟩,
    ⟨.hkWp, 0x08048, 1, 0x0, 1, 0x0, .none, 0x0000, 0x0000, 0x0000⟩,
    ⟨.hkRp, 0x0804C, 1, 0x0, 1, 0x0, .none, 0x0000, 0x1FFF, 0x0000⟩,
    ⟨.hkTcrit, 0x08050, 1, 0x0, 1, 0x0, (.fixed 5), 0x00FF, 0x0000, 0x0078⟩,
    ⟨.hkTstat, 0x08054, 1, 0x0, 1, 0x0, .none, 0x0000, 0x0000, 0x0000⟩,
    ⟨.hkStep, 0x08100, 2, 0x40, 16, 0x4, (.fixed 5), 0x001F, 0x0000, 0x0000⟩,
    ⟨.hkLast, 0x08200, 1, 0x0, 32, 0x4, .none, 0x0000, 0x0000, 0x0000⟩ ]

/-- The PWM block's registers. -/
def rowsPwm : List RegRow :=
  [ ⟨.pwmCtl, 0x09000, 8, 0x10, 1, 0x0, (.fixed 5), 0x0007, 0x0000, 0x0000⟩,
    ⟨.pwmPer, 0x09004, 8, 0x10, 1, 0x0, (.fixed 5), 0xFFFF, 0x0000, 0xFFFF⟩,
    ⟨.pwmDuty, 0x09008, 8, 0x10, 1, 0x0, (.fixed 5), 0xFFFF, 0x0000, 0x0000⟩,
    ⟨.pwmPhase, 0x0900C, 8, 0x10, 1, 0x0, (.fixed 5), 0xFFFF, 0x0000, 0x0000⟩,
    ⟨.pwmStat, 0x09100, 1, 0x0, 1, 0x0, .none, 0x0000, 0x0000, 0x0000⟩ ]

/-- The TWI block's registers. -/
def rowsTwi : List RegRow :=
  [ ⟨.twiTcfg, 0x0A000, 1, 0x0, 1, 0x0, (.fixed 6), 0x0003, 0x0000, 0x0003⟩,
    ⟨.twiTstat, 0x0A004, 1, 0x0, 1, 0x0, .none, 0x0000, 0x0000, 0x0000⟩,
    ⟨.twiMcfg, 0x0A100, 2, 0x40, 1, 0x0, (.fixed 6), 0x0FFF, 0x0000, 0x0CCA⟩,
    ⟨.twiMstat, 0x0A104, 2, 0x40, 1, 0x0, .none, 0x0000, 0x0000, 0x0003⟩ ]

/-- The NVS block's registers. -/
def rowsNvs : List RegRow :=
  [ ⟨.nvsStat, 0x0B000, 1, 0x0, 1, 0x0, .none, 0x0000, 0x0000, 0x0000⟩,
    ⟨.nvsWear, 0x0B800, 1, 0x0, 512, 0x4, .none, 0x0000, 0x0000, 0x0000⟩ ]

/-- The BIST block's registers. -/
def rowsBist : List RegRow :=
  [ ⟨.bistCfg, 0x0C000, 1, 0x0, 1, 0x0, (.fixed 7), 0x0003, 0x0000, 0x0001⟩,
    ⟨.bistStat, 0x0C004, 1, 0x0, 1, 0x0, .none, 0x0000, 0x0000, 0x0000⟩,
    ⟨.bistFuse, 0x0C008, 1, 0x0, 1, 0x0, .none, 0x0000, 0x0000, 0x0000⟩,
    ⟨.bistRetired, 0x0C00C, 1, 0x0, 1, 0x0, .none, 0x0000, 0x0000, 0x0000⟩ ]

/-- The BRG block's registers. -/
def rowsBrg : List RegRow :=
  [ ⟨.brgCfg, 0x0D000, 1, 0x0, 1, 0x0, (.fixed 3), 0x00FF, 0x0000, 0x00FF⟩,
    ⟨.brgEstat, 0x0D010, 1, 0x0, 1, 0x0, .none, 0x0000, 0x0000, 0x0000⟩,
    ⟨.brgWstat, 0x0D014, 1, 0x0, 1, 0x0, .none, 0x0000, 0x0000, 0x0000⟩,
    ⟨.brgRing, 0x0D020, 1, 0x0, 1, 0x0, .none, 0x0000, 0x0000, 0x0000⟩,
    ⟨.brgRoute, 0x0D024, 1, 0x0, 1, 0x0, .none, 0x0000, 0x0000, 0x0000⟩,
    ⟨.brgHoplatE, 0x0D028, 1, 0x0, 1, 0x0, .none, 0x0000, 0x0000, 0x0000⟩,
    ⟨.brgHoplatW, 0x0D02C, 1, 0x0, 1, 0x0, .none, 0x0000, 0x0000, 0x0000⟩ ]

/-- The COURSE block's registers. -/
def rowsCourse : List RegRow :=
  [ ⟨.prsCfg, 0x10000, 8, 0x1000, 1, 0x0, .course, 0x003F, 0x0000, 0x0008⟩,
    ⟨.prsStat, 0x10004, 8, 0x1000, 1, 0x0, .none, 0x0000, 0x0000, 0x0000⟩,
    ⟨.portCfga, 0x10100, 8, 0x1000, 8, 0x20, .course, 0xFFFF, 0x0000, 0x6040⟩,
    ⟨.portCfgb, 0x10104, 8, 0x1000, 8, 0x20, .course, 0x8FFF, 0x0000, 0x0006⟩,
    ⟨.portBudget, 0x10108, 8, 0x1000, 8, 0x20, .course, 0x0FFF, 0x0000, 0x01F4⟩,
    ⟨.portMapLo, 0x1010C, 8, 0x1000, 8, 0x20, .course, 0x0FFF, 0x0000, 0x0688⟩,
    ⟨.portMapHi, 0x10110, 8, 0x1000, 8, 0x20, .course, 0x0FFF, 0x0000, 0x0FAC⟩,
    ⟨.portPolh, 0x10114, 8, 0x1000, 8, 0x20, .course, 0xFFFF, 0x0000, 0x0000⟩,
    ⟨.portPoll, 0x10118, 8, 0x1000, 8, 0x20, .course, 0xFFFF, 0x0000, 0x0000⟩,
    ⟨.portCtl, 0x1011C, 8, 0x1000, 8, 0x20, .course, 0x0001, 0x0000, 0x0000⟩,
    ⟨.portState, 0x10300, 8, 0x1000, 8, 0x10, .none, 0x0000, 0x0000, 0x0000⟩,
    ⟨.portLock, 0x10304, 8, 0x1000, 8, 0x10, .none, 0x0000, 0x0000, 0x0000⟩,
    ⟨.rotHmap0, 0x10800, 8, 0x1000, 1, 0x0, .none, 0x0000, 0x0000, 0x3210⟩,
    ⟨.rotHmap1, 0x10804, 8, 0x1000, 1, 0x0, .none, 0x0000, 0x0000, 0x7654⟩,
    ⟨.rotLmap0, 0x10808, 8, 0x1000, 1, 0x0, .none, 0x0000, 0x0000, 0x3210⟩,
    ⟨.rotLmap1, 0x1080C, 8, 0x1000, 1, 0x0, .none, 0x0000, 0x0000, 0x7654⟩,
    ⟨.rotLmap2, 0x10810, 8, 0x1000, 1, 0x0, .none, 0x0000, 0x0000, 0x0008⟩,
    ⟨.rotGen, 0x10814, 8, 0x1000, 1, 0x0, .none, 0x0000, 0x0000, 0x0000⟩,
    ⟨.rotHsymp, 0x10820, 8, 0x1000, 1, 0x0, .none, 0x0000, 0x0000, 0x0008⟩,
    ⟨.rotLsymp, 0x10824, 8, 0x1000, 1, 0x0, .none, 0x0000, 0x0000, 0x0009⟩,
    ⟨.rotHalign, 0x10828, 8, 0x1000, 1, 0x0, .none, 0x0000, 0x0000, 0x0000⟩,
    ⟨.rotLalign, 0x1082C, 8, 0x1000, 1, 0x0, .none, 0x0000, 0x0000, 0x0000⟩,
    ⟨.hoCfg, 0x10840, 8, 0x1000, 1, 0x0, .course, 0xFFFF, 0x0000, 0xC801⟩,
    ⟨.bankCtl, 0x10860, 8, 0x1000, 1, 0x0, .course, 0x07FF, 0x0000, 0x0081⟩,
    ⟨.bankStat, 0x10864, 8, 0x1000, 1, 0x0, .none, 0x0000, 0x0000, 0x003E⟩,
    ⟨.bankMap0, 0x10868, 8, 0x1000, 1, 0x0, .none, 0x0000, 0x0000, 0x0688⟩,
    ⟨.bankMap1, 0x1086C, 8, 0x1000, 1, 0x0, .none, 0x0000, 0x0000, 0x002C⟩,
    ⟨.trnCfg, 0x10900, 8, 0x1000, 8, 0x10, .course, 0xFF0F, 0x0000, 0xFF03⟩,
    ⟨.trnSeg, 0x10904, 8, 0x1000, 8, 0x10, .none, 0x0000, 0x0000, 0x0000⟩,
    ⟨.trnHlane, 0x10908, 8, 0x1000, 8, 0x10, .none, 0x0000, 0x0000, 0x0000⟩,
    ⟨.trnLlane, 0x1090C, 8, 0x1000, 8, 0x10, .none, 0x0000, 0x0000, 0x0000⟩,
    ⟨.dpCfg, 0x10A00, 8, 0x1000, 8, 0x20, .course, 0x003F, 0x0000, 0x002C⟩,
    ⟨.dpStat, 0x10A04, 8, 0x1000, 8, 0x20, .none, 0x0000, 0x0000, 0x0000⟩,
    ⟨.dpBlock, 0x10A08, 8, 0x1000, 8, 0x20, .none, 0x0000, 0x0000, 0x0000⟩,
    ⟨.dpLat, 0x10A0C, 8, 0x1000, 8, 0x20, .none, 0x0000, 0x0000, 0x0000⟩,
    ⟨.dpSkew, 0x10A10, 8, 0x1000, 8, 0x20, .none, 0x0000, 0x0000, 0x0000⟩,
    ⟨.latCfg, 0x10B00, 8, 0x1000, 1, 0x0, .course, 0x1FFF, 0x0000, 0x0584⟩,
    ⟨.latStat, 0x10B04, 8, 0x1000, 1, 0x0, .none, 0x0000, 0x0000, 0x07F8⟩,
    ⟨.latSkew, 0x10B08, 8, 0x1000, 1, 0x0, .none, 0x0000, 0x0000, 0x0000⟩,
    ⟨.latAgree, 0x10B0C, 8, 0x1000, 1, 0x0, .none, 0x0000, 0x0000, 0x0000⟩,
    ⟨.latOfs, 0x10B10, 8, 0x1000, 9, 0x4, .none, 0x0000, 0x0000, 0x0000⟩,
    ⟨.gbxLane, 0x10C00, 8, 0x1000, 4, 0x4, .none, 0x0000, 0x0000, 0x0000⟩ ]

/-- The RX block's registers. -/
def rowsRX : List RegRow :=
  [ ⟨.rxCtl, 0x20000, 152, 0x400, 1, 0x0, .none, 0x0000, 0x0001, 0x0000⟩,
    ⟨.rxCtle, 0x20008, 152, 0x400, 1, 0x0, .slice, 0x1FFF, 0x0000, 0x1650⟩,
    ⟨.rxVga, 0x2000C, 152, 0x400, 1, 0x0, .slice, 0x007F, 0x0000, 0x0058⟩,
    ⟨.rxDfe, 0x20010, 152, 0x400, 1, 0x0, .slice, 0x03FF, 0x0000, 0x0000⟩,
    ⟨.rxAdapt, 0x20014, 152, 0x400, 1, 0x0, .slice, 0x03FF, 0x0000, 0x01A3⟩,
    ⟨.rxSd, 0x20018, 152, 0x400, 1, 0x0, .slice, 0x0FFF, 0x0000, 0x03D4⟩,
    ⟨.rxSnrth, 0x2001C, 152, 0x400, 1, 0x0, .slice, 0xFFFF, 0x0000, 0xAA78⟩,
    ⟨.rxCdr, 0x20020, 152, 0x400, 1, 0x0, .slice, 0x0007, 0x0000, 0x0003⟩,
    ⟨.rxReacq, 0x20024, 152, 0x400, 1, 0x0, .slice, 0x03FF, 0x0000, 0x0040⟩,
    ⟨.rxStat, 0x20040, 152, 0x400, 1, 0x0, .none, 0x0000, 0x0000, 0x0600⟩,
    ⟨.rxPin, 0x20044, 152, 0x400, 1, 0x0, .none, 0x0000, 0x0000, 0x0000⟩,
    ⟨.rxSnr, 0x20048, 152, 0x400, 1, 0x0, .none, 0x0000, 0x0000, 0x0000⟩,
    ⟨.rxSnrmin, 0x2004C, 152, 0x400, 1, 0x0, .none, 0x0000, 0x0000, 0x0000⟩,
    ⟨.rxFreq, 0x20050, 152, 0x400, 1, 0x0, .none, 0x0000, 0x0000, 0x0000⟩,
    ⟨.rxH1, 0x20054, 152, 0x400, 1, 0x0, .none, 0x0000, 0x0000, 0x0000⟩,
    ⟨.rxH2, 0x20058, 152, 0x400, 1, 0x0, .none, 0x0000, 0x0000, 0x0000⟩,
    ⟨.rxFfe, 0x20100, 152, 0x400, 64, 0x4, .slice, 0x0FFF, 0x0000, 0x0200⟩,
    ⟨.rxAdctrim, 0x20200, 152, 0x400, 128, 0x4, .none, 0x0000, 0x0000, 0x0000⟩ ]

/-- The TX block's registers. -/
def rowsTX : List RegRow :=
  [ ⟨.txCtl, 0x50000, 136, 0x200, 1, 0x0, .tx, 0x07FF, 0x0000, 0x0008⟩,
    ⟨.txSwing, 0x50004, 136, 0x200, 1, 0x0, .tx, 0x001F, 0x0000, 0x0014⟩,
    ⟨.txFfe, 0x50010, 136, 0x200, 6, 0x4, .tx, 0x007F, 0x0000, 0x0040⟩,
    ⟨.txUpat, 0x50040, 136, 0x200, 8, 0x4, .tx, 0xFFFF, 0x0000, 0x0000⟩,
    ⟨.txStat, 0x50080, 136, 0x200, 1, 0x0, .none, 0x0000, 0x0000, 0x0005⟩,
    ⟨.txFreq, 0x50084, 136, 0x200, 1, 0x0, .none, 0x0000, 0x0000, 0x0000⟩ ]

/-- Every row of the map. -/
def regRows : List RegRow :=
  rowsDie ++ rowsClk ++ rowsStroke ++ rowsEvt ++ rowsWmb ++ rowsCfgprot ++ rowsPeg ++ rowsHkadc ++ rowsPwm ++ rowsTwi ++ rowsNvs ++ rowsBist ++ rowsBrg ++ rowsCourse ++ rowsRX ++ rowsTX

/-- The rows of the block that holds base-view offset o (R299). -/
def blockRows (o : Nat) : List RegRow :=
  if o < 0x1000 then rowsDie
  else if o < 0x2000 then rowsClk
  else if o < 0x3000 then rowsStroke
  else if o < 0x4000 then rowsEvt
  else if o < 0x5000 then rowsWmb
  else if o < 0x6000 then rowsCfgprot
  else if o < 0x8000 then rowsPeg
  else if o < 0x9000 then rowsHkadc
  else if o < 0xA000 then rowsPwm
  else if o < 0xB000 then rowsTwi
  else if o < 0xC000 then rowsNvs
  else if o < 0xD000 then rowsBist
  else if o < 0xE000 then rowsBrg
  else if o < 0x10000 then []
  else if o < 0x20000 then rowsCourse
  else if o < 0x50000 then rowsRX
  else rowsTX

/-- A register selected by an offset: its row, its instance and its index within the instance. -/
structure RegSel where
  row  : RegRow
  inst : Nat
  rep  : Nat
  deriving DecidableEq, Repr

/-- The instance and index at which row r holds offset o, if it does. -/
def RegRow.at? (r : RegRow) (o : Nat) : Option RegSel :=
  if o < r.off then Option.none
  else
    let inst := if r.na = 1 then 0 else (o - r.off) / r.sa
    let rest := o - r.off - inst * r.sa
    let rep := if r.nb = 1 then 0 else rest / r.sb
    if inst < r.na && rep < r.nb && rest == rep * r.sb then some ⟨r, inst, rep⟩ else Option.none

/-- The register at base-view offset o; none is a reserved location (R299, R306). -/
def lookup (o : Nat) : Option RegSel := (blockRows o).findSome? (fun r => r.at? o)

/-- The base-view offset of a selected register. -/
def RegSel.offset (s : RegSel) : Nat := s.row.off + s.inst * s.row.sa + s.rep * s.row.sb

/-- The offset within its block instance, as the heading of its map gives it (R345). -/
def RegSel.blockOffset (s : RegSel) : Nat :=
  let o := s.offset
  if 0x50000 ≤ o then (o - 0x50000) % 0x200
  else if 0x20000 ≤ o then (o - 0x20000) % 0x400
  else o % 0x1000

/-- The course of a receive slice (R3). -/
def sliceCourse (s : Nat) : Nat := if s < 72 then s / 9 else (s - 72) / 10

/-- The course of a transmitter (chapter Transmitters). -/
def txCourse (t : Nat) : Nat := if t < 64 then t / 8 else (t - 64) / 9

/-- The commit group of a selected register, if it has one (R299). -/
def RegSel.group (s : RegSel) : Option Nat :=
  match s.row.group with
  | .none => Option.none
  | .fixed g => some g
  | .course => some (8 + s.inst)
  | .slice => some (8 + sliceCourse s.inst)
  | .tx => some (8 + txCourse s.inst)

/-- The RWS bits of a selected register: the host-slice FFE taps 48 to 63 have no field (R104). -/
def RegSel.rws (s : RegSel) : Half :=
  if s.row.id == .rxFfe && s.inst < 72 && 48 ≤ s.rep then 0 else s.row.rws

/-- The reset value of a selected register (R10), with the entries that depend on the instance. -/
def RegSel.reset (s : RegSel) : Half :=
  match s.row.id with
  | .rxAdapt => if s.inst < 72 then 0x01A3 else 0x0223
  | .rxFfe => if s.rep = (if s.inst < 72 then 6 else 8) then 0x200 else 0
  | .txFfe => if s.rep = 3 then 0x40 else 0
  | .hkStep => BitVec.ofNat 16 s.rep
  | _ => s.row.rst

/-- The reset value of the RWS register at offset o: what an unlisted entry of `active` and `ledger` reads as. -/
def rwsReset (o : Nat) : Half :=
  match lookup o with
  | some s => s.reset &&& s.rws
  | Option.none => 0

end Sys2Proof.Machine
end

