-- ==== Sys2Proof/Machine/Ops.lean ====
section
/-! DEFINITION. The named operations over dies, objects, registers, counters, events, the clock of strokes and frets,
packets and replies. Every meaning is written over these. -/

namespace Sys2Proof.Machine

/-! ### The part (R1, R13 to R15, R268) -/

/-- Dies of a part (R1, R11). -/
def dieCount : Part → Nat
  | .q128 => 2
  | .q256 => 4
  | .q512 => 8

/-- The part has die d (R1). -/
def present (p : Part) (d : DieId) : Bool := d.val < dieCount p

/-- The access die of higher number (R1). -/
def otherAccess : Part → DieId
  | .q128 => 1
  | .q256 => 3
  | .q512 => 7

/-- d is an access die (R1). -/
def isAccess (p : Part) (d : DieId) : Bool := d == 0 || d == otherAccess p

/-- The access die of endpoint and target port e (R359, R477). -/
def accessDie (p : Part) (e : AccessId) : DieId := if e = 0 then 0 else otherAccess p

/-- DIE_ID.PART (R314). -/
def partCode : Part → Nat
  | .q128 => 0
  | .q256 => 1
  | .q512 => 2

/-- The east neighbour of a die (R268). -/
def eastOf : Part → DieId → DieId
  | .q128, d => if d = 0 then 1 else 0
  | .q256, d => if d = 0 then 1 else if d = 1 then 3 else if d = 3 then 2 else 0
  | .q512, d =>
    if d = 0 then 1 else if d = 1 then 2 else if d = 2 then 3 else if d = 3 then 7
    else if d = 7 then 6 else if d = 6 then 5 else if d = 5 then 4 else 0

/-- The west neighbour of a die: the die whose east neighbour it is (R268). -/
def westOf : Part → DieId → DieId
  | .q128, d => if d = 0 then 1 else 0
  | .q256, d => if d = 0 then 2 else if d = 1 then 0 else if d = 3 then 1 else 3
  | .q512, d =>
    if d = 0 then 4 else if d = 1 then 0 else if d = 2 then 1 else if d = 3 then 2
    else if d = 7 then 3 else if d = 6 then 7 else if d = 5 then 6 else 5

/-- The neighbour over a bridge. -/
def neighbour (p : Part) (d : DieId) : Ew → DieId
  | .east => eastOf p d
  | .west => westOf p d

/-- The other bridge of a link. -/
def Ew.flip : Ew → Ew
  | .east => .west
  | .west => .east

/-! ### Dies and their objects -/

/-- Die d. -/
def State.die (s : State) (d : DieId) : Die := s.dies[d.val]

/-- s with die d replaced. -/
def State.setDie (s : State) (d : DieId) (x : Die) : State := { s with dies := s.dies.set d.val x }

/-- s with f applied to die d. -/
def State.onDie (s : State) (d : DieId) (f : Die → Die) : State := s.setDie d (f (s.die d))

/-- The dies of the part, in ascending order. -/
def State.dieList (s : State) : List DieId := (List.finRange 8).filter (present s.part)

/-- s with f applied at each die of the part, in ascending order. -/
def State.onAll (s : State) (f : State → DieId → State) : State := s.dieList.foldl f s

/-- Change each present die whose stroke count runs, in ascending order (R472). -/
def State.onAwake (s : State) (f : State → DieId → State) : State :=
  s.onAll (fun s d => if (s.die d).stroke.asleep then s else f s d)

/-- Slice n of a die. -/
def Die.slice (x : Die) (n : Nat) : Slice := SMap.get {} x.slices n

/-- Transmitter n of a die. -/
def Die.tx (x : Die) (n : Nat) : Tx := SMap.get {} x.txs n

/-- Port 8c + i of a die. -/
def Die.port (x : Die) (n : Nat) : Port := SMap.get {} x.ports n

/-- Course c of a die. -/
def Die.course (x : Die) (c : Nat) : Course := SMap.get {} x.courses c

/-- Pin record of a pin: host pin n at n, line pin m at 64 + m (R96). -/
def Die.pin (x : Die) (n : Nat) : PinRec := SMap.get {} x.pins n

/-- Port p. -/
def State.port (s : State) (p : PortId) : Port := (s.die p.die).port p.key

/-! ### Counters (R399 to R402) -/

/-- Base of the CLK, BRG, CFGPROT, PEG, EVT, TWI, HK, BIST and NVS counter regions (R402). -/
def cClk : Nat := 0x100
def cBrg : Nat := 0x200
def cProt : Nat := 0x300
def cPeg : Nat := 0x400
def cEvt : Nat := 0x500
def cTwi : Nat := 0x600
def cHk : Nat := 0x700
def cBist : Nat := 0x800
def cNvs : Nat := 0x900
def cTele : Nat := 0xA00
/-- Counter region of slice s (R105). -/
def cRx (s : Nat) : Nat := 0x1000 + s * 0x20
/-- Counter region of transmitter t (R129). -/
def cTx (t : Nat) : Nat := 0x2400 + t * 0x10
/-- Counter region of course c (R402). -/
def cCourse (c : Nat) : Nat := 0x3000 + c * 0x1400
/-- Port counters of R71 and training counters of R187. -/
def cPort (c i : Nat) : Nat := cCourse c + 0x400 + i * 0x10
def cTrain (c i : Nat) : Nat := cCourse c + 0x600 + i * 0x10
/-- Datapath counters of R206. -/
def cDp (c i : Nat) (dir : Side) : Nat :=
  cCourse c + 0x800 + i * 0x100 + (match dir with | .host => 0 | .line => 0x80)

/-- The counter at live-region offset o. -/
def Die.counter (x : Die) (o : Nat) : Nat := SMap.get 0 x.tele.cnt o

/-- Add n to the counter at offset o, modulo 2^32 (R399): a counter never runs backwards, and no recovery resets it (R449). -/
def Die.count (x : Die) (o : Nat) (n : Nat := 1) : Die :=
  { x with tele := { x.tele with cnt := SMap.put 0 x.tele.cnt o ((x.counter o + n) % 4294967296) } }

/-- s with n added to a counter of die d. -/
def State.count (s : State) (d : DieId) (o : Nat) (n : Nat := 1) : State := s.onDie d (fun x => x.count o n)

/-- Mark a level counter whose condition has held in the current fret (R400). -/
def Die.mark (x : Die) (o : Nat) : Die :=
  if x.tele.marks.contains o then x else { x with tele := { x.tele with marks := o :: x.tele.marks } }

/-- Mark o when its condition falls. -/
def Die.fall (x : Die) (o : Nat) (before after : Bool) : Die := if before && !after then x.mark o else x

/-- Some capo source is active (R90). -/
def Slice.capped (v : Slice) : Bool := v.capoHost || v.capoHold || v.capoHo || v.capoLoss

/-- RX_STAT.CAPO, bits 0 to 3 of R90. -/
def Slice.capo (v : Slice) : Nat := b2n v.capoHost + 2 * b2n v.capoHold + 4 * b2n v.capoHo + 8 * b2n v.capoLoss

/-- RX_SNRTH.SNR_WARN of slice n in use (R104). -/
def Die.snrWarn (x : Die) (n : Nat) : Nat :=
  let o := 0x20000 + n * 0x400 + 0x1C
  fld (SMap.get (rwsReset o) x.active o) 15 8

/-- SNR_NOW of slice n is below SNR_WARN (R105); a parked slice reads SNR_NOW as 0 (R507). -/
def Die.lowSnr (x : Die) (n : Nat) : Bool := (x.slice n).snrNow < x.snrWarn n

/-- SNR_NOW of slice n has been below SNR_WARN in this fret. -/
def Die.markLow (x : Die) (n : Nat) : Die :=
  if x.tele.lowMarks.contains n then x else { x with tele := { x.tele with lowMarks := n :: x.tele.lowMarks } }

/-- Write slice n. A level condition that falls is marked for the fret it held in (R400, R105). -/
def Die.setSlice (x : Die) (n : Nat) (v : Slice) : Die :=
  let o := x.slice n
  let y := x.fall (cRx n + 0x10) o.capped v.capped
  let y := if x.lowSnr n && x.snrWarn n ≤ v.snrNow then y.markLow n else y
  { y with slices := SMap.put {} y.slices n v }

/-- Write transmitter n (R129: frets in SQUELCH and DRONE are level counters). -/
def Die.setTx (x : Die) (n : Nat) (v : Tx) : Die :=
  let o := x.tx n
  let y := (x.fall (cTx n + 4) (o.mode == 2) (v.mode == 2)).fall (cTx n + 8) (o.mode == 1) (v.mode == 1)
  { y with txs := SMap.put {} y.txs n v }

/-- Write port n. -/
def Die.setPort (x : Die) (n : Nat) (v : Port) : Die := { x with ports := SMap.put {} x.ports n v }

/-- The sympathetic slice of a side is attached (R155). -/
def SideRot.attached (r : SideRot) : Bool := r.state == 1 || r.state == 2

/-- A lane of the course is being rebuilt (R216, R228): REBUILDING, READMIT or AGREEING. -/
def Lattice.rebuilding (l : Lattice) : Bool := l.state == 4 || l.state == 5 || l.state == 6

/-- Write course c. -/
def Die.setCourse (x : Die) (c : Nat) (v : Course) : Die :=
  let o := x.course c
  let y := ((x.fall (cCourse c + 0x510) o.host.attached v.host.attached).fall
      (cCourse c + 0x514) o.line.attached v.line.attached).fall
      (cCourse c + 0x1008) o.lat.rebuilding v.lat.rebuilding
  { y with courses := SMap.put {} y.courses c v }

/-- Write a pin record. -/
def Die.setPin (x : Die) (n : Nat) (v : PinRec) : Die := { x with pins := SMap.put {} x.pins n v }

def State.setSlice (s : State) (d : DieId) (n : Nat) (v : Slice) : State := s.onDie d (fun x => x.setSlice n v)
def State.setTx (s : State) (d : DieId) (n : Nat) (v : Tx) : State := s.onDie d (fun x => x.setTx n v)
def State.setPort (s : State) (p : PortId) (v : Port) : State := s.onDie p.die (fun x => x.setPort p.key v)
def State.setCourse (s : State) (d : DieId) (c : Nat) (v : Course) : State := s.onDie d (fun x => x.setCourse c v)

/-- The side of a course. -/
def Course.side (v : Course) : Side → SideRot
  | .host => v.host
  | .line => v.line

def Course.setSide (v : Course) (h : Side) (r : SideRot) : Course :=
  match h with
  | .host => { v with host := r }
  | .line => { v with line := r }

/-- Write one side of a course. -/
def State.setSide (s : State) (d : DieId) (c : Nat) (h : Side) (r : SideRot) : State :=
  s.setCourse d c (((s.die d).course c).setSide h r)

/-! ### Events (R28 to R30, R344 to R351) -/

/-- The fret the package is in (R22). -/
def State.fret (s : State) : Nat := s.pos / 40

/-- The position in the stroke as die d's own stroke timer places it, held within the package's stroke: the package's, less the phase
of its boundary (R38). -/
def State.ownPos (s : State) (d : DieId) : Nat := (clamp ((s.pos : Int) - (s.die d).stroke.phase) 0 1279).toNat

/-- The time of die d in sc from its stroke 0, as its own stroke timer counts it: near a boundary that is the neighbouring stroke,
where its boundary is not the package's (R38). -/
def State.ownTime (s : State) (d : DieId) : Nat :=
  (1280 * ((s.die d).stroke.count : Int) + s.pos - (s.die d).stroke.phase).toNat

/-- The 64-bit timestamp of die d now (R29): stroke, fret and sub-fret are its time in sub-frets of 5 sc, 256 to a stroke. -/
def State.stamp (s : State) (d : DieId) : Nat := s.ownTime d / 5

/-- The causes of the non-maskable class (R351), by local source and cause code. -/
def isNmi (src cause : Nat) : Bool :=
  (src == 360 && (cause == 1 || cause == 2 || cause == 3))
    || ((src == 376 || src == 377) && cause == 3)
    || (src == 379 && cause == 1)
    || (src == 444 && (cause == 1 || cause == 2))
    || (src == 409 && cause == 1)

/-- An EPOCH record (R354). -/
def Evt.isEpoch (r : Evt) : Bool := r.source % 512 == 456 && r.cause == 0x10

/-- The place in a full local buffer of the record that makes room: the oldest normal one (R347), an EPOCH record only where there is
no other (R354); the length where there is none. -/
def roomAt (l : List Evt) : Nat :=
  let i := l.findIdx (fun e => !e.nmi && !e.isEpoch)
  if i < l.length then i else l.findIdx (fun e => !e.nmi)

/-- Put a record into the local buffer: the oldest normal record makes room in a full one (R347). -/
def Die.buffer (x : Die) (r : Evt) : Die :=
  let l := x.evt.local_
  let i := roomAt l
  if l.length < 4096 then
    ({ x with evt := { x.evt with local_ := l ++ [r], fresh := x.evt.fresh + 1 } }).count cEvt
  else if i < l.length then
    let fresh := if i < l.length - x.evt.fresh then x.evt.fresh + 1 else x.evt.fresh
    (({ x with evt := { x.evt with local_ := l.eraseIdx i ++ [r], fresh := fresh } }).count cEvt).count (cEvt + 8)
  else if r.nmi then ({ x with evt := { x.evt with local_ := l ++ [r], fresh := x.evt.fresh + 1 } }).count cEvt
  else x.count (cEvt + 8)

/-- A cause occurs at local source src of die d: SEQ advances, and a record is placed in the local buffer unless the
source has already written 4 normal records this stroke (R346, R350). EPOCH records (source 456, cause 0x10) are never
suppressed. -/
def State.post (s : State) (d : DieId) (src cause data : Nat) : State :=
  let t := s.stamp d
  s.onDie d (fun x =>
    let q := (SMap.get 0 x.evt.seq src + 1) % 256
    let n := SMap.get 0 x.evt.stroke src
    let nmi := isNmi src cause
    let free := nmi || (src == 456 && cause == 0x10)
    let y := { x with evt := { x.evt with seq := SMap.put 0 x.evt.seq src q } }
    if !free && 4 ≤ n then y.count (cEvt + 4)
    else
      let z := { y with evt := { y.evt with stroke := if free then y.evt.stroke else SMap.put 0 y.evt.stroke src (n + 1) } }
      z.buffer { time := t, source := d.val * 512 + src, cause := cause, nmi := nmi, late := false, seq := q,
                 data := data % 4294967296 })

/-- A recovery or an isolation for self-test: differences of snapshots and meter windows over it are lower bounds (R408). -/
def Die.lowered (x : Die) : Die := { x with tele := { x.tele with lowMark := true, lowAt := x.stroke.count + 1 } }

/-- Put an EPOCH record's KIND and dies (data [23:0]) in its place among the EPOCH records of the same instant, which stand in
the order of the table of R354 (R355): the records, and what the last of them is to hold. SEQ and the count keep their places. -/
def epochPlace (now : Nat) : Nat → List Evt → List Evt × Nat
  | v, [] => ([], v)
  | v, e :: l =>
    if e.isEpoch && e.time == now && v % 256 < e.data % 256 then
      let r := epochPlace now (e.data % 16777216) l
      ({ e with data := v + e.data / 16777216 * 16777216 } :: r.1, r.2)
    else
      let r := epochPlace now v l
      (e :: r.1, r.2)

/-- Post an EPOCH record of a recovery (R354, R355, R358), and mark the snapshots of the dies it concerns a lower bound (R408). -/
def State.epoch (s : State) (d : DieId) (kind dies : Nat) : State :=
  let n := ((s.die d).evt.epochs + 1) % 256
  let r := epochPlace (s.stamp d) (kind + dies * 256) (s.die d).evt.local_
  let s := s.onDie d (fun x => { x with evt := { x.evt with epochs := n, local_ := r.1 } })
  let s := (s.dieList.filter (fun x => bit dies x.val)).foldl (fun s x => s.onDie x Die.lowered) s
  s.post d 456 0x10 (r.2 + n * 16777216)

/-- Post from a slice's source (R106). -/
def State.postRx (s : State) (d : DieId) (n cause data : Nat) : State := s.post d n cause data
/-- Post from a transmitter's source (R130). -/
def State.postTx (s : State) (d : DieId) (n cause data : Nat) : State := s.post d (152 + n) cause data
/-- Post from a course's source (R72). -/
def State.postCourse (s : State) (d : DieId) (c cause data : Nat) : State := s.post d (288 + c) cause data
/-- Post from a port's source (R72). -/
def State.postPort (s : State) (p : PortId) (cause data : Nat) : State := s.post p.die (296 + p.key) cause data

/-! ### Time: strokes, frets and level counters (R21, R22, R400) -/

/-- A node's gate has opened in this stroke, and it does not run yet (R261). -/
def Clk.fresh (v : Clk) (level node : Nat) : Bool := v.gFresh.contains (level, node)

/-- The slice's block is gated or isolated for self-test: its counters hold (R399). -/
def Die.sliceStill (x : Die) (n : Nat) : Bool :=
  x.clk.gDie || (x.course (sliceCourse n)).gate || x.clk.gSlice.contains n
    || x.bist.tests.any (fun t => t.isol && t.test == 1 && t.target == n)

/-- The transmitter's block is gated: its counters hold (R399). -/
def Die.txStill (x : Die) (n : Nat) : Bool := x.clk.gDie || (x.course (txCourse n)).gate || (x.tx n).gate

/-- The housekeeping, bridge, clock and other level conditions of a die that hold now, by counter offset (R266, R397, R439).
A gated or isolated block's do not count (R399); SNR_LOW_FRETS is kept by its frets without it (`Die.highSlices`). -/
def Die.levels (x : Die) : List Nat :=
  (x.slices.flatMap (fun p => if p.2.capped && !x.sliceStill p.1 then [cRx p.1 + 0x10] else []))
    ++ (x.txs.flatMap (fun p => if x.txStill p.1 then [] else
      (if p.2.mode = 2 then [cTx p.1 + 4] else []) ++ (if p.2.mode = 1 then [cTx p.1 + 8] else [])))
    ++ (x.courses.flatMap (fun p => if x.clk.gDie || p.2.gate then [] else (if p.2.host.attached then [cCourse p.1 + 0x510] else [])
      ++ (if p.2.line.attached then [cCourse p.1 + 0x514] else [])
      ++ (if p.2.lat.rebuilding then [cCourse p.1 + 0x1008] else [])))
    ++ (if x.clk.laneUse = 3 && x.clk.inHold then [cClk + 8] else [])
    ++ (if x.clk.sysUse = 2 || x.clk.sysUse = 3 then [cClk + 0xC] else [])
    ++ (if x.hk.trip && !x.clk.gHk && !x.clk.gDie then [cHk + 0x20] else [])
    ++ (if x.bist.tests.any (fun t => t.isol) then [cBist + 0x1C] else [])

/-- The slices for which this fret is no SNR_LOW_FRETS as it stands: SNR_NOW is not below SNR_WARN, or the counter holds. Only a
slice that is listed, or whose threshold is, can have SNR_NOW at its threshold; of the others a gate must be closed. -/
def Die.highSlices (x : Die) : List Nat :=
  let warned := (x.active.filter (fun p => 0x20000 ≤ p.1 && p.1 < 0x20000 + 152 * 0x400 && p.1 % 0x400 == 0x1C)).map
    (fun p => (p.1 - 0x20000) / 0x400)
  let all := if x.clk.gDie || x.courses.any (fun p => p.2.gate) then List.range 152
    else (x.slices.map (·.1) ++ warned ++ x.clk.gSlice ++ (x.bist.tests.filter (fun t => t.test == 1)).map (·.target)).dedup
  all.filter (fun n => x.sliceStill n || !x.lowSnr n)

/-- SNR_LOW_FRETS of slice n (R105): every fret since the counters' reset but those throughout which it did not hold. -/
def Die.lowFrets (x : Die) (n : Nat) : Nat := (x.tele.frets - SMap.get 0 x.tele.high n) % 4294967296

/-- n frets of a die end: each level condition that held in the first counts once, and each that holds now counts in
the rest (R400). -/
def Die.frets (x : Die) (n : Nat) : Die :=
  if n = 0 then x
  else
    let now := x.levels
    let first := now ++ x.tele.marks.filter (fun o => !now.contains o)
    let y := first.foldl (fun z o => z.count o) x
    let z := if n = 1 then y else now.foldl (fun z o => z.count o (n - 1)) y
    let high := x.highSlices.foldl (fun m k =>
      SMap.put 0 m k (SMap.get 0 m k + (if x.tele.lowMarks.contains k then n - 1 else n))) x.tele.high
    { z with tele := { z.tele with marks := [], frets := x.tele.frets + n, high := high, lowMarks := [] } }

/-- A die's SYS runs: the package is up, not in Standby (R470). -/
def State.running (s : State) : Bool := s.phase == 2

/-- The end of fret 16: a die other than the lead whose marker has not come counts the miss (R39, R44), unless it has
just left Standby (R472). -/
def Die.markerDue (x : Die) : Die :=
  if x.stroke.state = 3 || x.stroke.marker || x.stroke.resumed.isSome then x
  else ({ x with stroke := { x.stroke with misses := x.stroke.misses + 1 } }).count 0x080

/-- Before fret 21 a latched snapshot is in its buffer (R407). -/
def Die.snapDone (x : Die) : Die :=
  if x.tele.snapBusy then { x with tele := { x.tele with snapBusy := false, snapValid := true } } else x

/-- At the end of fret 24 the latched counters are the live region (R403). -/
def Die.copyDone (x : Die) : Die :=
  match x.tele.latch with
  | none => x
  | some l => { x with tele := { x.tele with live := l, latch := none } }

/-- The BIST frets of a die are enabled (R25). -/
def Die.bistOn (x : Die) : Bool := fld (SMap.get (rwsReset 0x2010) x.active 0x2010) 0 0 == 1

/-- Bytes of a bank (R146). -/
def bankSize : Nat := 16384

/-- Work of PEGMEM_MARCH on each half in strokes, and the bytes of a half (R421, R424). -/
def halfWork : Nat := 4395
def halfSize : Nat := 327680

/-- PEGMEM_MARCH has tested half A, and the firmware copies half B to it (R424). -/
def Test.copies (t : Test) : Bool := t.test == 5 && !t.half && halfWork ≤ t.done

/-- The stroke's part of the firmware's copy (R422, R424): 3,840 bytes, less what an overrun left over. Once half A is whole, the firmware
goes on from it, and the active image lies in the other region. -/
def Die.halfStep (x : Die) : Die :=
  match x.bist.tests.find? Test.copies with
  | none => x
  | some t =>
    let n := t.copied + (3840 - x.stroke.bistCut)
    let done_ := decide (halfSize ≤ n)
    let u := { t with copied := min halfSize n, half := done_, sliceAt := if done_ then x.stroke.count + 1 else t.sliceAt }
    { x with bist := { x.bist with tests := x.bist.tests.map (fun z => if z == t then u else z) },
             peg := if done_ then { x.peg with region := !x.peg.region } else x.peg }

/-- At the end of fret 27 the stroke's copies have moved on: 32 bytes per sc, 3,840 bytes in the three frets, less what an
overrun left over; not at all while the BIST frets are disabled, or the BIST gate does not yet run (R24, R25, R27, R261, R146 step 2, R147, R424). -/
def Die.bankStep (x : Die) : Die :=
  if x.bistOn && !x.clk.gBist && !x.clk.fresh 2 10 then
    let x := x.halfStep
    (List.range 8).foldl (fun x c =>
      let v := x.course c
      if v.banks.copying then
        let n := min bankSize (v.banks.copied + (3840 - x.stroke.bistCut))
        x.setCourse c { v with banks := { v.banks with copied := n, copyEnd := if v.banks.copied = n then v.banks.copyEnd else x.stroke.count } }
      else x) x
  else x

/-- Move the package's position forward to sc p of the stroke, counting the frets that end (R22, R400), with what the
passing of fret 16, of the start of fret 21, of fret 24 and of fret 27 brings. Time counts in sc, frets and strokes,
whatever their absolute length while SYS runs from the soundpost oscillator (R6). -/
def State.advance (s : State) (p : Nat) : State :=
  if s.running && s.pos < p && p ≤ 1279 then
    let n := p / 40 - s.pos / 40
    let miss := decide (s.pos < 680 && 680 ≤ p)
    let snap := decide (s.pos < 840 && 840 ≤ p)
    let copy := decide (s.pos < 1000 && 1000 ≤ p)
    let bank := decide (s.pos < 1120 && 1120 ≤ p)
    let s := s.onAwake (fun s d => s.onDie d (fun x =>
      let x := x.frets n
      let x := if miss then x.markerDue else x
      let x := if snap then x.snapDone else x
      let x := if copy then x.copyDone else x
      if bank then x.bankStep else x))
    { s with pos := p }
  else s

/-- Move to the start of fret f when it has not yet begun (R26). -/
def State.toFret (s : State) (f : Nat) : State := s.advance (40 * f)

/-- The work of die d in frets f to g may still run in this stroke: the last has not ended, and it has not run (R24, R26). -/
def State.fretOpen (s : State) (d : DieId) (f g : Nat) : Bool := s.pos < 40 * (g + 1) && !bit (s.die d).stroke.ran f
  && !(s.die d).stroke.asleep

/-- The work of fret f has run in this stroke. -/
def Die.didFret (x : Die) (f : Nat) : Die := { x with stroke := { x.stroke with ran := x.stroke.ran ||| 2 ^ f } }

/-- The stroke count of die d (R21). -/
def State.stroke (s : State) (d : DieId) : Nat := (s.die d).stroke.count

/-! ### RWS registers (R301, R303, R310) -/

/-- The active value of the RWS register at offset o: the value in use (R8). -/
def Die.act (x : Die) (o : Nat) : Half := SMap.get (rwsReset o) x.active o

/-- The staged value at offset o, when one is pending. -/
def Die.stg (x : Die) (o : Nat) : Option Half := (x.staged.find? (fun p => p.1 == o)).map (·.2)

/-- The ledger's image of the register at offset o (R310), the only source a configuration is restored from (R451). -/
def Die.led (x : Die) (o : Nat) : Half := SMap.get (rwsReset o) x.ledger o

/-- Put a value into use at offset o. -/
def Die.setAct (x : Die) (o : Nat) (v : Half) : Die := { x with active := SMap.put (rwsReset o) x.active o v }

/-- Write the ledger word of offset o, which protects it again (R310, R311). -/
def Die.setLed (x : Die) (o : Nat) (v : Half) : Die :=
  { x with ledger := SMap.put (rwsReset o) x.ledger o v,
           prot := { x.prot with bad := x.prot.bad.filter (fun b => b != o) } }

/-- The value a write to an RWS register acts on: the staged value when one is pending, else the active one (R301). -/
def Die.base (x : Die) (o : Nat) : Half := (x.stg o).getD (x.act o)

/-- Stage value v at offset o: the group's pending bit sets even when v equals the active value (R303). -/
def Die.stage (x : Die) (o : Nat) (v : Half) : Die :=
  match lookup o with
  | none => x
  | some sel =>
    match sel.group with
    | none => x
    | some g =>
      { x with staged := SMap.ins x.staged o (mergeMask (x.base o) v sel.rws), pend := x.pend ||| 2 ^ g }

/-- The commit group of offset o. -/
def groupOf (o : Nat) : Option Nat := (lookup o).bind (fun s => s.group)

/-- Drop the staged values of a group and clear its pending bit (R304). -/
def Die.dropGroup (x : Die) (g : Nat) : Die :=
  { x with staged := x.staged.filter (fun p => groupOf p.1 != some g), pend := x.pend &&& (0xFFFF ^^^ 2 ^ g) }

/-! #### Offsets of the registers the meanings use -/

def oPort (c i r : Nat) : Nat := 0x10100 + c * 0x1000 + i * 0x20 + r
/-- PORT_CFGA, PORT_CFGB, PORT_BUDGET, PORT_MAP_LO, PORT_MAP_HI, PORT_POLH, PORT_POLL, PORT_CTL of course c, index i. -/
def oCfga (c i : Nat) : Nat := oPort c i 0x00
def oCfgb (c i : Nat) : Nat := oPort c i 0x04
def oBudget (c i : Nat) : Nat := oPort c i 0x08
def oMapLo (c i : Nat) : Nat := oPort c i 0x0C
def oMapHi (c i : Nat) : Nat := oPort c i 0x10
def oPolh (c i : Nat) : Nat := oPort c i 0x14
def oPoll (c i : Nat) : Nat := oPort c i 0x18
def oPctl (c i : Nat) : Nat := oPort c i 0x1C
/-- Course registers. -/
def oCourse (c r : Nat) : Nat := 0x10000 + c * 0x1000 + r
def oPrs (c : Nat) : Nat := oCourse c 0x000
def oHoCfg (c : Nat) : Nat := oCourse c 0x840
def oBank (c : Nat) : Nat := oCourse c 0x860
def oTrn (c i : Nat) : Nat := oCourse c (0x900 + i * 0x10)
def oDp (c i : Nat) : Nat := oCourse c (0xA00 + i * 0x20)
def oLat (c : Nat) : Nat := oCourse c 0xB00
/-- RX and TX registers. -/
def oRx (s r : Nat) : Nat := 0x20000 + s * 0x400 + r
def oTx (t r : Nat) : Nat := 0x50000 + t * 0x200 + r
def oFfe (s k : Nat) : Nat := oRx s (0x100 + 4 * k)
def oTap (t k : Nat) : Nat := oTx t (0x10 + 4 * k)
def oFretCtl : Nat := 0x2010
def oClkCfg : Nat := 0x1000
def oSptrim : Nat := 0x1004
def oEvtCfg : Nat := 0x3000
def oGmask : Nat := 0x3010
def oDmask : Nat := 0x3014
def oVec (g : Nat) : Nat := 0x3040 + 4 * g
def oDieCfg : Nat := 0x4
def oQcfg (q : Nat) : Nat := 0x6010 + q * 0x20
def oWdt : Nat := 0x6110
def oTcfg : Nat := 0xA000
def oMcfg (m : Nat) : Nat := 0xA100 + m * 0x40
def oSeqCfg (s : Nat) : Nat := 0x8000 + s * 0x10
def oSeqN (s : Nat) : Nat := 0x8004 + s * 0x10
def oSeqDly (s : Nat) : Nat := 0x8008 + s * 0x10
def oHkBuf : Nat := 0x8044
def oTcrit : Nat := 0x8050
def oStep (s j : Nat) : Nat := 0x8100 + s * 0x40 + 4 * j
/-- Register k of PWM channel p: 0 CTL, 1 PER, 2 DUTY, 3 PHASE. -/
def oPwm (p k : Nat) : Nat := 0x9000 + p * 0x10 + 4 * k
def oBist : Nat := 0xC000
def oBrg : Nat := 0xD000

/-! ### Slices, pins and transmitters of a course (R2 to R4, R133) -/

/-- The slice of index x of a course side (R3, R133). -/
def sliceOf (c : Nat) (h : Side) (x : Nat) : Nat :=
  match h with
  | .host => 9 * c + x
  | .line => 72 + 10 * c + x

/-- The side a slice lies on (RX_STAT.SIDE). -/
def sliceSide (s : Nat) : Side := if s < 72 then .host else .line

/-- A slice's index within its course side. -/
def sliceIndex (s : Nat) : Nat := if s < 72 then s % 9 else (s - 72) % 10

/-- The local lane number of position j of a course side (R2, R46). -/
def pinOf (c : Nat) (h : Side) (j : Nat) : Nat :=
  match h with
  | .host => 8 * c + j
  | .line => 9 * c + j

/-- The key of a pin's record (R96). -/
def pinKey (c : Nat) (h : Side) (j : Nat) : Nat :=
  match h with
  | .host => 8 * c + j
  | .line => 64 + 9 * c + j

/-- The transmitter of position j of a course side (R4). -/
def txOf (c : Nat) (h : Side) (j : Nat) : Nat := pinKey c h j

/-- Positions of a course side: 8 host, 9 line. -/
def sidePins : Side → Nat
  | .host => 8
  | .line => 9

/-- The rotation side that holds slice n. -/
def Die.sideOf (x : Die) (n : Nat) : SideRot := (x.course (sliceCourse n)).side (sliceSide n)

/-- The slice that serves position j of a course side (R133). -/
def Die.serving (x : Die) (c : Nat) (h : Side) (j : Nat) : Nat :=
  sliceOf c h ((((x.course c).side h).map[j]?).getD 0)

/-- The position a slice is assigned to, if it is not the sympathetic slice. -/
def Die.posOf (x : Die) (n : Nat) : Option Nat :=
  let r := x.sideOf n
  if r.symp = sliceIndex n then none else r.map.findIdx? (fun i => i == sliceIndex n)

/-! ### Port profile fields (R49, R70) -/

def Die.cfga (x : Die) (n : Nat) : Half := x.act (oCfga (n / 8) (n % 8))
def Die.cfgb (x : Die) (n : Nat) : Half := x.act (oCfgb (n / 8) (n % 8))
/-- WIDTH in lanes. -/
def width (a : Half) : Nat := 2 ^ fld a 1 0
def hostBase (a : Half) : Nat := fld a 4 2
def rate (a : Half) : Nat := fld a 7 5
def isRh (a : Half) : Bool := fld a 8 8 == 1
def dpath (a : Half) : Nat := fld a 10 9
def hasLattice (a : Half) : Bool := fld a 11 11 == 1
def hasGearbox (a : Half) : Bool := fld a 12 12 == 1
def isHold (a : Half) : Bool := fld a 13 13 == 1
def lossAct (a : Half) : Nat := fld a 15 14
def isPeer (b : Half) : Bool := fld b 0 0 == 1
def sdEn (b : Half) : Bool := fld b 1 1 == 1
def frameEn (b : Half) : Bool := fld b 2 2 == 1
def prsEn (b : Half) : Bool := fld b 3 3 == 1
def trainRetries (b : Half) : Nat := fld b 11 4
def isDefined (b : Half) : Bool := fld b 15 15 == 1

/-- The line position that carries host position j (PORT_MAP_LO, PORT_MAP_HI). -/
def mapEntry (lo hi : Half) (j : Nat) : Nat :=
  if j < 4 then fld lo (3 * j + 2) (3 * j) else fld hi (3 * (j - 4) + 2) (3 * (j - 4))

/-- Host positions of a port with this PORT_CFGA (R47). -/
def hostPos (a : Half) : List Nat := (List.range (width a)).map (fun k => hostBase a + k)

/-- Line data positions of a port (R47, R230). -/
def linePos (a lo hi : Half) : List Nat :=
  if hasGearbox a then (List.range (width a / 2)).map (fun k => hostBase a / 2 + k)
  else (hostPos a).map (mapEntry lo hi)

/-- The port's host positions in use. -/
def Die.portHost (x : Die) (n : Nat) : List Nat := hostPos (x.cfga n)

/-- The port's line data positions in use. -/
def Die.portLine (x : Die) (n : Nat) : List Nat :=
  linePos (x.cfga n) (x.act (oMapLo (n / 8) (n % 8))) (x.act (oMapHi (n / 8) (n % 8)))

/-- The line position that carries host position j of port n, with or without gearbox. -/
def Die.lineFor (x : Die) (n j : Nat) : Nat :=
  if hasGearbox (x.cfga n) then j / 2 else mapEntry (x.act (oMapLo (n / 8) (n % 8))) (x.act (oMapHi (n / 8) (n % 8))) j

/-- The host positions whose data line position v of port n carries (R62, R230). -/
def Die.hostsFor (x : Die) (n v : Nat) : List Nat := (x.portHost n).filter (fun j => x.lineFor n j == v)

/-- All line positions of a port in a session: the protection lane too on a lattice port (R50, R179). -/
def Die.portLineAll (x : Die) (n : Nat) : List Nat :=
  if hasLattice (x.cfga n) && !(x.port n).latUnav then x.portLine n ++ [8] else x.portLine n

/-- Positions of one segment of a port. -/
def Die.segPos (x : Die) (n : Nat) : Side → List Nat
  | .host => x.portHost n
  | .line => x.portLineAll n

/-- A port is enabled: its state is not DISABLED (R57). -/
def Port.enabled (v : Port) : Bool := v.state != 0

/-- CARRYING or DEGRADED. -/
def Port.carrying (v : Port) : Bool := v.state == 4 || v.state == 5

/-- The enabled port that owns a position of a course side, if any (R46, R47). The protection lane belongs to the
course's lattice port (R50). -/
def Die.owner (x : Die) (c : Nat) (h : Side) (j : Nat) : Option Nat :=
  ((List.range 8).map (fun i => 8 * c + i)).find? (fun n =>
    (x.port n).enabled && (match h with
      | .host => (x.portHost n).contains j
      | .line => (x.portLine n).contains j || (j == 8 && hasLattice (x.cfga n))))

/-- The enabled port whose pin slice n serves. -/
def Die.slicePort (x : Die) (n : Nat) : Option (Nat × Nat) :=
  match x.posOf n with
  | none => none
  | some j => (x.owner (sliceCourse n) (sliceSide n) j).map (fun p => (p, j))

/-- The position of a transmitter within its course side. -/
def txSide (t : Nat) : Side := if t < 64 then .host else .line
def txPos (t : Nat) : Nat := if t < 64 then t % 8 else (t - 64) % 9

/-- The enabled port that owns transmitter t. -/
def Die.txPort (x : Die) (t : Nat) : Option Nat := x.owner (txCourse t) (txSide t) (txPos t)

/-! ### Packets, records, replies (R272 to R275, R325, R327, R331) -/

/-- Die d's pegbox runs (PEG_STAT.STATE = 1). -/
def Die.pegRuns (x : Die) : Bool := x.peg.state == 1

/-- Queue q of a die. -/
def Die.queue (x : Die) (q : QueueId) : Queue := if q = 0 then x.q0 else if q = 1 then x.q1 else x.q2
def Die.setQueue (x : Die) (q : QueueId) (v : Queue) : Die :=
  if q = 0 then { x with q0 := v } else if q = 1 then { x with q1 := v } else { x with q2 := v }

/-- Bit d of a die mask. -/
def dbit (d : DieId) : Nat := 2 ^ d.val

/-- Die a reaches die b (R269). -/
def State.reaches (s : State) (a b : DieId) : Bool := a == b || bit (s.die a).brg.reach b.val

/-- The bridge by which a packet leaves a for b (R269). -/
def State.way (s : State) (a b : DieId) : Ew := if bit (s.die a).brg.route b.val then .west else .east

/-- A bridge of a die. -/
def Die.bridge (x : Die) : Ew → Bridge
  | .east => x.brg.east
  | .west => x.brg.west

def Die.setBridge (x : Die) (w : Ew) (v : Bridge) : Die :=
  match w with
  | .east => { x with brg := { x.brg with east := v } }
  | .west => { x with brg := { x.brg with west := v } }

/-- The packet goes ahead of every other queued packet: SYNC and GCOMMIT (R276). -/
def Body.urgent : Body → Bool
  | .sync _ _ _ _ => true
  | .gcommit _ _ _ => true
  | _ => false

/-- Two packets cross the same link in the same direction: they wait in one outgoing queue. -/
def Flit.sameHop (p q : Flit) : Bool := p.here == q.here && p.dir == q.dir && !p.held && !q.held

/-- A packet enters the outgoing queue of its bridge (R276): an urgent one ahead of every other queued packet, but neither of the
packet already in transmission, its queue's first (`first` = it has been passed), nor of urgent ones before it. -/
def putQueue (f : Flit) : Bool → List Flit → List Flit
  | _, [] => [f]
  | first, q :: l =>
    if !f.sameHop q then q :: putQueue f first l
    else if first && f.body.urgent && !q.body.urgent then f :: q :: l
    else q :: putQueue f true l

/-- A packet leaves die a by a bridge: a DOWN bridge carries no packets (R271). -/
def State.leave (s : State) (a : DieId) (w : Ew) (f : Flit) : State :=
  if ((s.die a).bridge w).state = 0 then s
  else { s with air := putQueue { f with here := neighbour s.part a w, dir := w } false s.air }

/-- Put a packet on the ring towards one die, with a new TAG; answered types stay in `sent` until answered (R274, R275). -/
def State.sendTo (s : State) (a b : DieId) (body : Body) (answered : Bool) : State :=
  let tag := (s.die a).brg.nextTag
  let f : Flit := { src := a, dst := b, bcast := false, tag := tag, ttl := 7, here := b, dir := .east, body := body }
  let now := s.stroke a
  let s := s.onDie a (fun x =>
    let wait : List Sent := if answered then [{ dst := b, tag := tag, first := now, last := now, body := body }] else []
    { x with brg := { x.brg with nextTag := (tag + 1) % 65536, sent := x.brg.sent ++ wait } })
  s.leave a (s.way a b) f

/-- Put a broadcast packet on both bridges (R272). -/
def State.broadcast (s : State) (a : DieId) (body : Body) : State :=
  let tag := (s.die a).brg.nextTag
  let f : Flit := { src := a, dst := a, bcast := true, tag := tag, ttl := 7, here := a, dir := .east, body := body }
  let s := s.onDie a (fun x => { x with brg := { x.brg with nextTag := (tag + 1) % 65536 } })
  (s.leave a .east f).leave a .west f

/-- A completion record with no data. -/
def mkRec (k : Packet) (status effect : Nat) (data : List Nat) : Rec :=
  { origin := k.origin, queue := k.queue, tag := k.tag, entry := k.entry, status := status, final := true, effect := effect,
    isPos := false, die := k.die, herr := 0, progress := 0, cookie := k.cookie, irq := k.irq, data := data }

/-- The entry of a fetched command whose first record this is. -/
def Rec.of (r : Rec) (x : Packet × Nat) : Bool := x.1.tag == r.tag && x.1.die == r.die && x.1.entry == r.entry

/-- A record of a long operation whose ACCEPTED has been posted: it is not the command's first (R328). The answer to a duplicate tag
(HERR 3) is no record of the operation that has the tag. -/
def Queue.later (q : Queue) (r : Rec) : Bool := q.running.contains (r.tag, r.entry) && r.herr != 3

/-- What posting or discarding a record does to the commands in execution: ACCEPTED makes its command a running
operation, a final record ends it (R321, R328). -/
def Queue.settle (q : Queue) (r : Rec) : Queue :=
  if q.later r then (if r.final then { q with running := q.running.erase (r.tag, r.entry) } else q)
  else if r.final then { q with exec := q.exec.eraseP r.of }
  else if r.status = 0x01 then { q with exec := q.exec.eraseP r.of, running := q.running ++ [(r.tag, r.entry)] }
  else q

/-- CQ slots that hold unconsumed records, and those that are free (R320: at most 63 entries). -/
def Queue.used (q : Queue) : Nat := (q.cqTail + 64 - q.cqHead) % 64
def Queue.free (q : Queue) : Nat := 63 - q.used

/-- Put v into a queue of a die, in place. -/
def State.setQueue (s : State) (d : DieId) (q : QueueId) (v : Queue) : State := s.onDie d (fun x => x.setQueue q v)

/-- The command is in the inbox of its die. -/
def Waiting.is (w : Waiting) (k : Packet) (op : Nat) : Bool := w.packet == k && w.op == op

/-- Put a command into the inbox of die d (R331). -/
def State.enqueue (s : State) (d : DieId) (k : Packet) (op : Nat) : State :=
  let w : Waiting := ⟨k, op, s.stroke d⟩
  s.onDie d (fun x => { x with peg := { x.peg with inbox := x.peg.inbox ++ [w] } })

/-- Send a fetched command to its die: into the inbox of this die, or as CMD_FWD (R331). -/
def State.dispatch (s : State) (d : DieId) (x : Packet × Nat) : State :=
  if x.1.die = d then s.enqueue d x.1 x.2 else s.sendTo d x.1.die (.cmdFwd x.1 x.2) true

/-- A held command may start: without FENCE, or when every earlier command of the queue has posted its final record (R324). -/
def Queue.mayStart (q : Queue) (x : Packet × Nat) : Bool := !x.1.fence || (q.running.isEmpty && q.exec.head? == some x)

/-- The commands that may start now, and those that stay held: one behind a held command for the same die waits (R329). -/
def Queue.split (q : Queue) : List DieId → List (Packet × Nat) → List (Packet × Nat) × List (Packet × Nat)
  | _, [] => ([], [])
  | stop, x :: l =>
    if q.mayStart x && !stop.contains x.1.die then
      let r := Queue.split q stop l
      (x :: r.1, r.2)
    else
      let r := Queue.split q (x.1.die :: stop) l
      (r.1, x :: r.2)

/-- Start every held command of a queue that may start. -/
def State.startHeld (s : State) (d : DieId) (n : QueueId) : State :=
  let q := (s.die d).queue n
  let r := q.split [] q.held
  r.1.foldl (fun s x => s.dispatch d x) (s.setQueue d n { q with held := r.2 })

/-- A record reaches its queue (R321, R322, R328). While the queue is disabled the record is discarded. A PROGRESS
record that finds no free slot replaces one of its operation that still waits; the replaced one is counted as dropped. -/
def State.receive (s : State) (d : DieId) (r : Rec) : State :=
  let q := (s.die d).queue r.queue
  if !q.enabled then (s.setQueue d r.queue (q.settle r)).startHeld d r.queue
  else if r.status = 0x02 && q.free ≤ q.exec.length && q.waiting.any (fun w => w.status == 0x02 && w.tag == r.tag) then
    let keep := q.waiting.eraseP (fun w => w.status == 0x02 && w.tag == r.tag)
    let s := s.setQueue d r.queue { q with waiting := keep ++ [r] }
    let s := s.count d (cPeg + 0x20 + 4 * r.queue.val)
    s.post d (457 + r.queue.val) 0x02 r.tag.toNat
  else s.setQueue d r.queue { q with waiting := q.waiting ++ [r] }

/-- Hand a record to the queue it belongs to, on this die or over the ring (R328, R331, R274). -/
def State.deliver (s : State) (at_ : DieId) (r : Rec) : State :=
  if r.origin = at_ then s.receive at_ r
  else s.sendTo at_ r.origin (.cmdRsp r.queue r.entry r.tag.toNat (some r)) true

/-- Remember the outcome of a command that ended: the last 256 (R330). -/
def Die.remember (x : Die) (e : Ended) : Die :=
  { x with peg := { x.peg with ended := (e :: x.peg.ended).take 256 } }

/-- A short command ends at its die's pegbox with this record, `span` strokes after it started: the outcome is remembered, the command
counted, the record handed to its queue (R325, R330, R334, R342). -/
def State.finish (s : State) (k : Packet) (op : Nat) (r : Rec) (span : Nat := 0) : State :=
  let e : Ended := ⟨k.origin, k.queue, k.tag, op, r.status, r.effect, r.progress, span⟩
  let s := s.onDie k.die (fun x => (x.remember e).count (cPeg + 0x30))
  s.deliver k.die r

/-- The work of a short command has ended in hardware: its record is handed over now, or by the restarted pegbox (R340). -/
def State.finishHw (s : State) (k : Packet) (op : Nat) (r : Rec) (span : Nat := 0) : State :=
  if (s.die k.die).pegRuns then s.finish k op r span
  else s.onDie k.die (fun x => { x with peg := { x.peg with late := x.peg.late ++ [(op, span, r)] } })

/-- Answer DONE. -/
def State.done (s : State) (k : Packet) (op effect : Nat) (data : List Nat) : State := s.finish k op (mkRec k 0x00 effect data)

/-- Answer with an error status, nothing applied. -/
def State.refuse (s : State) (k : Packet) (op status : Nat) (data : List Nat := []) : State :=
  s.finish k op (mkRec k status 0 data)

/-! #### Status codes (R327) -/
def stDone : Nat := 0x00
def stAccepted : Nat := 0x01
def stProgress : Nat := 0x02
def stBadOpcode : Nat := 0x10
def stBadParam : Nat := 0x11
def stBadTarget : Nat := 0x12
def stBusy : Nat := 0x20
def stBusyTest : Nat := 0x21
def stNotReady : Nat := 0x30
def stInUse : Nat := 0x31
def stMismatch : Nat := 0x32
def stTimeout : Nat := 0x40
def stIncomplete : Nat := 0x41
def stAborted : Nat := 0x50
def stCancelled : Nat := 0x51
def stUnavail : Nat := 0x60
def stWorn : Nat := 0x61

/-! ### Long operations (R328 to R330) -/

/-- The operation a packet names. -/
def Op.is (o : Op) (origin : DieId) (q : QueueId) (tag : BitVec 16) : Bool := o.origin == origin && o.queue == q && o.tag == tag

/-- An operation runs on an object of a die (R329). -/
def Die.busy (x : Die) (cls obj : Nat) : Bool := x.peg.ops.any (fun o => o.cls == cls && o.obj == obj)

/-- Accept a long operation: it is entered and ACCEPTED is handed to its queue; a 65th is BUSY (R325, R329). -/
def State.accept (s : State) (k : Packet) (op cls obj : Nat) (data : List Nat) : State :=
  if 64 ≤ (s.die k.die).peg.ops.length then s.refuse k op stBusy
  else
    let now := s.stroke k.die
    let o : Op := { origin := k.origin, queue := k.queue, tag := k.tag, opcode := op, packet := k, cls := cls,
                    obj := obj, phase := 0, position := 0, start := now, lastProg := none, status := stAccepted,
                    effect := 0, cancel := false, from_ := now, data := data }
    let s := s.onDie k.die (fun x => ({ x with peg := { x.peg with ops := x.peg.ops ++ [o] } }).count (cPeg + 0x30))
    s.deliver k.die { mkRec k stAccepted 0 [] with final := false }

/-- Accept a long operation and start its work; a 65th is turned away and starts nothing. -/
def State.start (s : State) (k : Packet) (op cls obj : Nat) (data : List Nat) (work : State → State) : State :=
  if 64 ≤ (s.die k.die).peg.ops.length then s.refuse k op stBusy else work (s.accept k op cls obj data)

/-- Update the operations of a die that satisfy f. -/
def Die.mapOps (x : Die) (f : Op → Bool) (g : Op → Op) : Die :=
  { x with peg := { x.peg with ops := x.peg.ops.map (fun o => if f o then g o else o) } }

/-- The operation counts its PROGRESS in positions, not in per-mille: HANDOVER, RETUNE_IN_SERVICE, DIE_RESTORE, TWI_TRANSFER
and MODULE_IDENTIFY (R150, R286, R325, R371). -/
def Op.isPos (o : Op) : Bool := [0x0403, 0x0404, 0x0D02, 0x0E01, 0x0E02].contains o.opcode

/-- End the operation o of die d with this status, effect and reply data: its final record is handed to its queue
(R325, R330). -/
def State.endOp (s : State) (d : DieId) (o : Op) (status effect : Nat) (data : List Nat) : State :=
  let now := s.stroke d
  let e : Ended := ⟨o.origin, o.queue, o.tag, o.opcode, status, effect, o.position, now - o.start⟩
  let s := s.onDie d (fun x => ({ x with peg := { x.peg with ops := x.peg.ops.eraseP (fun z => z.is o.origin o.queue o.tag) } }).remember e)
  s.deliver d { mkRec o.packet status effect data with isPos := o.isPos, progress := o.position }

/-- End every operation of die d that satisfies f. -/
def State.endOps (s : State) (d : DieId) (f : Op → Bool) (status effect : Nat) (data : Op → List Nat) : State :=
  ((s.die d).peg.ops.filter f).foldl (fun s o => s.endOp d o status effect (data o)) s

/-- Bring an operation to a position; a PROGRESS record is posted when the operation has posted none for 1,000 strokes
and the command allows it (R324 NOPROG, R328). The first record of a per-mille count comes 1,000 strokes after the start
(log entry 18). -/
def State.progress (s : State) (d : DieId) (o : Op) (pos : Nat) : State :=
  let now := s.stroke d
  let o1 := { o with position := pos }
  if !o.packet.noprog && (match o.lastProg with | none => o.isPos || o.start + 1000 ≤ now | some t => t + 1000 ≤ now) then
    let o2 := { o1 with lastProg := some now, status := stProgress }
    let s := s.onDie d (fun x => x.mapOps (fun z => z == o) (fun _ => o2))
    s.deliver d { mkRec o.packet stProgress 0 [] with final := false, isPos := o.isPos, progress := pos }
  else s.onDie d (fun x => x.mapOps (fun z => z == o) (fun _ => o1))

/-- The phase of an operation that has ended in hardware while its pegbox did not run: the restarted pegbox posts its final
record (R340). -/
def opOver : Nat := 99

/-- The operation goes on in hardware while its pegbox restarts (R340): TRAIN_START, a handover, and a PRBS check after its first
lock. Any other ends with ABORTED_RECOVERY, whatever its work came to meanwhile. -/
def Op.inHw (o : Op) : Bool :=
  o.opcode == 0x0301 || o.opcode == 0x0403 || o.opcode == 0x0404 || (o.opcode == 0x0503 && o.phase == 1)

/-- An operation's hardware work has ended: its final record is handed over now, or by the restarted pegbox (R141, R340). -/
def State.conclude (s : State) (d : DieId) (o : Op) (status effect : Nat) (data : List Nat) : State :=
  if (s.die d).pegRuns then s.endOp d o status effect data
  else s.onDie d (fun x => x.mapOps (fun z => z.is o.origin o.queue o.tag)
    (fun z => { z with status := if o.inHw then status else stAborted, effect := effect, data := data, position := o.position, phase := opOver }))

/-! ### Command rows (R324 to R331, R508) -/

/-- The die is on the part, reachable from the die of the queue, and not lost (R326 step 5). -/
def State.reachable (s : State) (a b : DieId) : Bool := s.reaches a b && !(s.die b).brg.lost

/-- The opcodes of the index with the shortest and longest LENGTH their chapters give them (R334 and the commands' own
rules). A command whose length follows from its parameters is checked again by its own row. -/
def opLengths : List (Nat × Nat × Nat) :=
  [ (0x0001, 4, 4), (0x0002, 5, 5), (0x0003, 5, 5), (0x0004, 5, 5),
    (0x0101, 8, 8), (0x0102, 4, 4), (0x0103, 4, 4), (0x0104, 4, 4), (0x0105, 5, 5),
    (0x0201, 7, 39), (0x0202, 5, 5), (0x0203, 5, 5), (0x0204, 8, 8), (0x0205, 5, 9),
    (0x0301, 4, 4), (0x0302, 5, 5), (0x0303, 4, 4),
    (0x0401, 5, 5), (0x0402, 4, 4), (0x0403, 5, 5), (0x0404, 6, 6),
    (0x0501, 6, 6), (0x0502, 6, 8), (0x0503, 6, 6), (0x0601, 5, 5), (0x0602, 4, 4),
    (0x0701, 5, 5), (0x0702, 5, 5), (0x0703, 4, 4),
    (0x0801, 5, 5), (0x0802, 7, 63), (0x0803, 4, 4), (0x0804, 5, 5) ]
  ++ [ (0x0901, 10, 10), (0x0902, 6, 6), (0x0903, 4, 4), (0x0904, 6, 6),
    (0x0A01, 6, 64), (0x0A02, 5, 5), (0x0B01, 6, 6), (0x0B02, 6, 6),
    (0x0C01, 6, 6), (0x0C02, 5, 5), (0x0C03, 6, 6), (0x0C04, 5, 5),
    (0x0D01, 5, 5), (0x0D02, 4, 4), (0x0E01, 6, 62), (0x0E02, 5, 5) ]

/-- The opcode is in the index (R326 step 1). -/
def knownOp (op : Nat) : Bool := opLengths.any (fun r => r.1 == op)

/-- LENGTH is one a header can have: 4 to 64 words (R324, R326 step 2). -/
def headerLenOk (len : Nat) : Bool := 4 ≤ len && len ≤ 64

/-- LENGTH is one the opcode can have, by its chapter (R508). -/
def lenOk (op len : Nat) : Bool := opLengths.any (fun r => r.1 == op && r.2.1 ≤ len && len ≤ r.2.2)

/-- The command is a long operation (R334's index: FW_STAGE with LAST = 1, CAPTURE_SAMPLES with FUNC 0). -/
def isLong (op : Nat) (k : Packet) : Bool :=
  [0x0301, 0x0403, 0x0404, 0x0501, 0x0503, 0x0A02, 0x0C01, 0x0C03, 0x0C04, 0x0D02, 0x0E01, 0x0E02].contains op
    || (op == 0x0A01 && bit (k.w 4) 19) || (op == 0x0502 && k.w 4 % 4 == 0)

/-- A header error (R325 HERR). -/
def State.headerError (s : State) (k : Packet) (status herr : Nat) : State :=
  s.deliver k.origin { mkRec k status 0 [] with herr := herr }

/-- Take a command out of the inbox of its die, where it waits there. -/
def State.takeInbox (s : State) (k : Packet) (op : Nat) : State :=
  s.onDie k.die (fun x => { x with peg := { x.peg with inbox := x.peg.inbox.eraseP (fun w => w.is k op) } })

/-! ### The turn of a command (R329) -/

/-- A tap a command names by form 1, 2 or 3: course, side, position, monitor tap (R148). -/
def tapTarget (w : Nat) : Option (Nat × Side × Nat × Bool) :=
  let rest := w % 2 ^ 30
  match w / 2 ^ 30 with
  | 1 => if rest < 64 then some (rest / 8, .host, rest % 8, false) else none
  | 2 => if rest < 72 then some (rest / 9, .line, rest % 9, false) else none
  | 3 => if rest < 136 then some (txCourse rest, txSide rest, txPos rest, true) else none
  | _ => none

/-- A course side named by form 0 (R148). -/
def sideTarget (w : Nat) : Option (Nat × Side) :=
  if w < 512 && bits w 7 3 = 0 then some (w % 8, if bit w 8 then .line else .host) else none

/-- The slice a TARGET names (R99). -/
def Die.targetSlice (x : Die) (w : Nat) : Option Nat :=
  let form := w / 2 ^ 30
  let rest := w % 2 ^ 30
  if form = 0 then (if rest < 152 then some rest else none)
  else if form = 1 then (if rest < 64 then some (x.serving (rest / 8) .host (rest % 8)) else none)
  else if form = 2 then (if rest < 72 then some (x.serving (rest / 9) .line (rest % 9)) else none)
  else none

/-- The sympathetic slice of a course side. -/
def Die.sympSlice (x : Die) (c : Nat) (h : Side) : Nat := sliceOf c h ((x.course c).side h).symp

/-- The position of an entry in its die's block; none for a reserved key (R489). -/
def calPos (kind obj idx : Nat) : Option Nat :=
  if kind = 0 then
    if obj < 72 then (if idx < 64 then some (64 * obj + idx) else none)
    else if obj < 152 then (if idx < 128 then some (4608 + 128 * (obj - 72) + idx) else none)
    else none
  else if idx ≠ 0 then none
  else if kind = 1 then (if obj < 152 then some (14848 + obj) else none)
  else if kind = 2 then (if obj < 136 then some (15000 + obj) else none)
  else if kind = 3 then (if obj < 8 then some (15136 + obj) else none)
  else if kind = 4 then (if obj = 0 then some 15144 else none)
  else none

/-- The byte offset of the entry a key names (R489). -/
def calOffset (p : Part) (key : Nat) : Option Nat :=
  let d := bits key 31 29
  if dieCount p ≤ d || bits key 17 7 ≠ 0 then none
  else (calPos (bits key 28 26) (bits key 25 18) (bits key 6 0)).map (fun n => 0x1000 + d * 0x10000 + 4 * n)

/-- The macro class and index of an id. -/
def macClass (m : Nat) : Nat := m / 256
def macIndex (m : Nat) : Nat := m % 256

/-- The macro id exists (R430). -/
def macOk (m : Nat) : Bool :=
  match macClass m with
  | 0 => macIndex m < 10
  | 1 => macIndex m < 6
  | 2 => macIndex m < 56
  | 3 => macIndex m < 48
  | _ => false

/-- A node exists, below the package root (R261, R263). -/
def nodeOk (d : DieId) (level node : Nat) : Bool :=
  match level with
  | 1 => node == d.val
  | 2 => node < 12
  | 3 => node < 152
  | 4 => node < 136
  | _ => false

/-- The objects of a die that a command's TARGET names (R329; log entry 9): ports as (3, number), slices as (1, number),
transmitters as (2, number), course sides as (4, side), the clock of the SerDes domain as (7, 0), the die as (13, 0); any other
object as TARGET spells it. A command with TARGET = 0 and no such object has none. -/
def Die.cmdObjects (x : Die) (op : Nat) (k : Packet) : List (Nat × Nat) :=
  let w := k.target.toNat
  let rest := w % 2 ^ 30
  let side := fun (c : Nat) (h : Side) => (4, 2 * c + match h with | .host => 0 | .line => 1)
  let tap := match tapTarget w with | some (c, h, _) => [side c h, (1, x.sympSlice c h)] | none => []
  let half := match sideTarget w with | some (c, h) => [side c h] | none => []
  let slice := match x.targetSlice w with | some n => [(1, n)] | none => []
  if op / 256 = 1 || op / 256 = 3 || op / 256 = 6 then [(3, w)]
  else if op = 0x0204 then [(2, w)]
  else if op = 0x0205 then
    (if w / 2 ^ 30 = 1 then (3, rest) :: ([Side.host, Side.line].flatMap (fun h => (x.segPos (rest % 64) h).map (fun j => (2, txOf (rest / 8 % 8) h j))))
     else [(2, rest)])
  else if op / 256 = 2 then slice
  else if op = 0x0402 || (op = 0x0502 && k.w 4 % 4 = 1) then half
  else if op / 256 = 4 || op = 0x0501 || op = 0x0502 then tap
  else if op = 0x0503 then (if w / 2 ^ 30 = 3 then tap else slice)
  else if op = 0x0701 then [(7, 0)]
  else if op / 256 = 13 then [(13, 0)]
  else if w = 0 && op / 256 ≠ 9 then []
  else if op = 0x0B02 then [(3, w)]
  else [(256 + op, w)]

/-- Two commands of a die share an object. -/
def Die.shares (x : Die) (op : Nat) (k : Packet) (op' : Nat) (k' : Packet) : Bool :=
  (x.cmdObjects op k).any (fun a => (x.cmdObjects op' k').contains a)

/-- The command must wait in the inbox (R329): an earlier command of its queue waits there, or one that names an object of
it; or a started short command that names an object of it has not been answered. An accepted long operation holds nothing
back: its object answers BUSY, or as its chapter decides. -/
def Die.waitsTurn (x : Die) (k : Packet) (op : Nat) : Bool :=
  (x.peg.inbox.takeWhile (fun w => !w.is k op)).any (fun w =>
      (w.packet.origin == k.origin && w.packet.queue == k.queue) || x.shares op k w.op w.packet)
    || x.peg.awaits.any (fun a => x.shares op k a.op a.packet)
    || x.hk.waiters.any (fun a => x.shares op k a.op a.packet)

/-- The global port number a TARGET holds names a port of the header's die: the port, else none (R5, R508). -/
def portOf (s : State) (k : Packet) (n : Nat) : Option PortId :=
  if n < 64 * dieCount s.part ∧ n / 64 = k.die.val then
    some { die := k.die, course := ⟨n / 8 % 8, by omega⟩, idx := ⟨n % 8, by omega⟩ }
  else none

/-- The target of a BIST_RUN is of the kind its test needs (R428, R434). -/
def State.testTargetOk (s : State) (k : Packet) (n : Nat) : Bool :=
  let w := k.target.toNat
  match n with
  | 1 => w < 152
  | 2 => w < 136
  | 3 | 4 => (sideTarget w).isSome
  | 6 => (portOf s k w).isSome
  | _ => w == 0

/-- TARGET has a shape that R508 and the opcode's layout allow: 0, a port of the header's die, or a form that names an object (R152,
R263, R419, R428, R435 to R437, R487 to R491). Where only a chapter's own check can tell, it is left to that check. -/
def State.targetShape (s : State) (k : Packet) (op : Nat) : Bool :=
  let x := s.die k.die
  let w := k.target.toNat
  let form := w / 2 ^ 30
  let rest := w % 2 ^ 30
  if op / 256 = 1 || op / 256 = 3 || op / 256 = 6 then (portOf s k w).isSome
  else if op = 0x0204 then w < 136
  else if op = 0x0205 then (form = 0 && rest < 136) || (form = 1 && (portOf s k rest).isSome)
  else if op / 256 = 2 then (x.targetSlice w).isSome
  else if op = 0x0402 then (sideTarget w).isSome
  else if op = 0x0502 then (match k.w 4 % 4 with
    | 0 => (tapTarget w).isSome
    | 1 => (sideTarget w).isSome
    | _ => (tapTarget w).isSome || (sideTarget w).isSome)
  else if op = 0x0403 || op = 0x0404 then (form = 1 || form = 2) && (tapTarget w).isSome
  else if op / 256 = 4 || op = 0x0501 then (tapTarget w).isSome
  else if op = 0x0503 then (if form = 3 then rest < 136 else (x.targetSlice w).isSome)
  else if op = 0x0901 || op / 256 = 14 then w < 2
  else if op = 0x0904 then w < 8
  else if op = 0x0702 then bits w 27 8 = 0 && (nodeOk k.die (w / 2 ^ 28) (w % 256) || (w / 2 ^ 28 = 0 && w % 256 = 0))
  else if op = 0x0801 || op = 0x0802 then isAccess s.part k.die && w % 8 = 0
  else if op = 0x0803 || op = 0x0804 then isAccess s.part k.die && (calOffset s.part w).isSome
  else if op = 0x0B02 then (match k.w 4 % 4 with
    | 2 => w = 0
    | 3 => true
    | _ => (portOf s k w).isSome)
  else if op = 0x0C01 then !(1 ≤ k.w 4 % 256 && k.w 4 % 256 ≤ 9) || s.testTargetOk k (k.w 4 % 256)
  else if op = 0x0C03 || op = 0x0C04 then w < 65536 && macOk w
  else if op / 256 = 0 || op = 0x0701 || op = 0x0703 || op / 256 = 9 || op / 256 = 10 || op = 0x0B01 || op = 0x0C02 || op / 256 = 13 then w = 0
  else true

/-- Commands whose reply the pegbox collects from the datapath in frets 21 to 24 of one stroke: LANE_EQ_GET, TRAIN_STATUS,
LATTICE_STATUS, CLK_STATUS (R24, R102, R185, R226, R264). -/
def collects (op : Nat) : Bool := [0x0202, 0x0303, 0x0602, 0x0703].contains op

/-- Frets 21 to 24 of the stroke are over on die d, or were cut short (R27): a reply is collected in the next stroke's. Else the row moves
to fret 21 for it. -/
def State.collectLate (s : State) (d : DieId) (op : Nat) : Bool := collects op && (1000 ≤ s.pos || (s.die d).stroke.pegOvr)

/-- A command row: the packet's die runs the command (R326, R329, R331). A packet that waits in the inbox of its die has
passed the queue logic; any other is checked here as the queue logic checks it. A pegbox that does not run leaves the
command waiting in the inbox, and so does one whose turn has not come (R329), or one that collects its reply after the frets for
it are over: a later row of the same packet starts it. The pegbox checks
TARGET (R508), then LENGTH against the opcode's own, then the chapter's rules apply. -/
def State.command (s : State) (k : Packet) (op : Nat) (body : State → State) : State :=
  if !isAccess s.part k.origin then s
  else
    let x := s.die k.die
    let here := x.peg.inbox.any (fun w => w.is k op)
    if !here && !headerLenOk k.length.toNat then s.headerError k stBadParam 1
    else if !present s.part k.die then s.headerError k stBadTarget 4
    else if !here && x.peg.ops.any (fun o => o.is k.origin k.queue k.tag) then s.headerError k stBadParam 3
    else if !here && !s.reachable k.origin k.die then s.headerError k stUnavail 0
    else if !x.pegRuns || x.waitsTurn k op || s.collectLate k.die op then (if here then s else s.enqueue k.die k op)
    else if !lenOk op k.length.toNat then
      let u := s.takeInbox k op
      u.refuse k op (if u.targetShape k op then stBadParam else stBadTarget)
    else body (s.takeInbox k op)

/-- A command whose TARGET must be 0 (R508). -/
def State.command0 (s : State) (k : Packet) (op : Nat) (body : State → State) : State :=
  s.command k op (fun s => if k.target = 0 then body s else s.refuse k op stBadTarget)

/-- A command whose TARGET is a port: [11:0] the number, [31:12] = 0 (R5, R508). -/
def State.commandPort (s : State) (k : Packet) (op : Nat) (body : State → PortId → State) : State :=
  s.command k op (fun s =>
    match portOf s k k.target.toNat with
    | none => s.refuse k op stBadTarget
    | some p => body s p)

/-! ### Clock gates (R261) -/

/-- Change the CLK block of a die. -/
def State.onClk (s : State) (d : DieId) (f : Clk → Clk) : State := s.onDie d (fun x => { x with clk := f x.clk })

/-- A gate is closed. -/
def Die.gated (x : Die) (level node : Nat) : Bool :=
  match level with
  | 1 => x.clk.gDie
  | 2 => if node < 8 then (x.course node).gate else if node = 8 then x.clk.gTune else if node = 9 then x.clk.gTrain
         else if node = 10 then x.clk.gBist else x.clk.gHk
  | 3 => x.clk.gSlice.contains node
  | 4 => (x.tx node).gate
  | _ => false

/-- Close or open one gate. -/
def Die.setGate (x : Die) (level node : Nat) (close : Bool) : Die :=
  match level with
  | 1 => { x with clk := { x.clk with gDie := close } }
  | 2 =>
    if node < 8 then x.setCourse node { x.course node with gate := close }
    else if node = 8 then { x with clk := { x.clk with gTune := close } }
    else if node = 9 then { x with clk := { x.clk with gTrain := close } }
    else if node = 10 then { x with clk := { x.clk with gBist := close } }
    else { x with clk := { x.clk with gHk := close } }
  | 3 => { x with clk := { x.clk with gSlice := if close then node :: x.clk.gSlice.filter (fun n => n != node) else x.clk.gSlice.filter (fun n => n != node) } }
  | 4 => x.setTx node { x.tx node with gate := close }
  | _ => x

/-- The parent of a node (log entry 40): the die for a course or an engine, the course for a slice or a transmitter. -/
def parentOf (d : DieId) (level node : Nat) : Nat × Nat :=
  if level ≤ 2 then (1, d.val) else if level = 3 then (2, sliceCourse node) else (2, txCourse node)

/-- A gate changes: GATE_CHANGE is posted (R267). What is below an opened one runs from the next boundary (R261). -/
def State.gateTo (s : State) (d : DieId) (level node : Nat) (close dev : Bool) : State :=
  if (s.die d).gated level node = close then s
  else ((s.onDie d (fun x => x.setGate level node close)).onClk d (fun v =>
    { v with gFresh := if close then v.gFresh else (level, node) :: v.gFresh })).post d 372 0x01 (level + 16 * node + 4096 * b2n close + 8192 * b2n dev)

/-- The device opens a closed gate and every gate above it (R261). -/
def State.gateOpen (s : State) (d : DieId) (level node : Nat) : State :=
  let s := if 1 < level then s.gateTo d 1 d.val false true else s
  let s := if 2 < level then let p := parentOf d level node; s.gateTo d p.1 p.2 false true else s
  s.gateTo d level node false true

/-- Slice n of a die is put to use at a boundary: its gates and the tuning engine's open with it (R261). -/
def State.gatesFor (s : State) (d : DieId) (n : Nat) : State :=
  if (s.die d).gated 3 n || (s.die d).gated 2 (sliceCourse n) || (s.die d).gated 2 8 || (s.die d).gated 1 d.val then
    (s.gateOpen d 2 8).gateOpen d 3 n
  else s

/-! ### Access to the reserved locations, and free values -/

/-- The next free value (log entry 4), and the state with the counter advanced. -/
def State.takeFree (s : State) : Word × State := (Config.freeWord s.free, { s with free := s.free + 1 })

/-- The courses, by number. -/
def courseList : List Nat := List.range 8

/-- Die d is isolated, or marked so (R280, R284). -/
def State.isolated (s : State) (d : DieId) : Bool := (s.die d).brg.isolated

/-- The lead die, die 0 when none has been chosen (R15). -/
def State.leadDie (s : State) : DieId := s.lead.getD 0

end Sys2Proof.Machine
end

