-- ==== Sys2Proof/Machine/Events.lean ====
section
/-! DEFINITION. Events (R344 to R358): the package rings of the access dies, forwarding, and MSI-X messages. -/

namespace Sys2Proof.Machine

/-- The group of a local source, 0 to 10; 11 for the reserved sources 472 to 511 (R344). -/
def sourceGroup (l : Nat) : Nat :=
  if l < 152 then 0 else if l < 288 then 1 else if l < 296 then 2 else if l < 360 then 3 else if l < 376 then 4
  else if l < 392 then 5 else if l < 408 then 6 else if l < 424 then 7 else if l < 440 then 8 else if l < 456 then 9
  else if l < 472 then 10 else 11

/-- Unconsumed records of a ring, and its free slots (R348). -/
def EvtBlk.unread (v : EvtBlk) : Nat := (v.wp + 4096 - v.rp) % 4096
def EvtBlk.free (v : EvtBlk) : Nat := 4095 - v.unread

/-- The INT_N and NMI_N conditions of an access die (R352). -/
def EvtBlk.int (v : EvtBlk) : Bool := !v.unmasked.isEmpty
def EvtBlk.nmi (v : EvtBlk) : Bool := !v.nmis.isEmpty

/-- The access die drives INT_N, or NMI_N, low (R352). -/
def Die.drivesInt (x : Die) : Bool := fld (x.act oEvtCfg) 0 0 == 1 && x.evt.int
def Die.drivesNmi (x : Die) : Bool := fld (x.act oEvtCfg) 0 0 == 1 && x.evt.nmi

/-- The die drives ALERT_N low (R364). -/
def Die.alert (x : Die) : Bool := fld (x.act oEvtCfg) 1 1 == 1 && (x.evt.int || x.evt.nmi) && !x.evt.relAlert

/-- The four words of a record (R345), its PHASE included. -/
def Evt.words (r : Evt) (phase : Bool) : List Nat :=
  [ r.time % 4294967296, r.time / 4294967296,
    r.source + r.cause * 2 ^ 12 + b2n r.nmi * 2 ^ 20 + b2n r.late * 2 ^ 21 + b2n phase * 2 ^ 22 + r.seq * 2 ^ 24,
    r.data ]

/-- The endpoint of an access die sends MSI-X vector v, or marks it pending while it is masked (R293). `event`: the
message is an event's, counted in MSIX_SENT (R357). -/
def Die.msix (x : Die) (v : Nat) (event : Bool) : Die :=
  if x.evt.fmask || bit x.evt.mask v then
    { x with evt := { x.evt with pend := x.evt.pend ||| 2 ^ v, pendEv := if event then x.evt.pendEv ||| 2 ^ v else x.evt.pendEv } }
  else
    let y := { x with evt := { x.evt with vecs := v :: x.evt.vecs } }
    if event then y.count (cEvt + 0x14) else y

/-- Write a record into the package ring of access die d (R347, R348, R352): normal records leave the last 64 slots to
the non-maskable class and EPOCH records; a record that finds no slot is dropped and counted. -/
def State.ringWrite (s : State) (d : DieId) (r : Evt) : State :=
  let late := r.late || r.time + 512 < s.stamp d
  let now := s.stroke d
  s.onDie d (fun x =>
    let v := x.evt
    let urgent := r.nmi || r.isEpoch
    if (if urgent then 1 else 64) ≤ v.free then
      let g := sourceGroup (r.source % 512)
      let open_ := !r.nmi && !bit (x.act oGmask).toNat g && !bit (x.act oDmask).toNat (r.source / 512)
      let sram := Memory.writeWords x.sram (0x30000 + v.wp * 16) (({ r with late := late }).words v.phase)
      let v1 := { v with wp := (v.wp + 1) % 4096, phase := if v.wp = 4095 then !v.phase else v.phase,
                         unmasked := if open_ then v.unmasked ++ [v.wp] else v.unmasked,
                         nmis := if r.nmi then v.nmis ++ [v.wp] else v.nmis,
                         groups := if open_ then v.groups ||| 2 ^ g else v.groups }
      let y := { x with evt := v1, sram := sram }
      let y := if late then y.count (cEvt + 0xC) else y
      if r.nmi then y.msix 0 true else y
    else
      ({ x with evt := { v with dropped := v.dropped + 1, dropAt := if v.dropped = 0 then now else v.dropAt } }).count (cEvt + 0x10))

/-- The records an EVT_FWD carries. -/
def Body.evts : Body → List Evt
  | .evtFwd l => l
  | _ => []

/-- A record of a die that EPOCH record e names as affected, with an earlier cause, has not reached access die a (R354). -/
def State.earlierOut (s : State) (a : DieId) (e : Evt) : Bool :=
  s.dieList.any (fun x =>
    let v := (s.die x).evt
    bit (e.data / 256) x.val
      && ((v.local_.drop (v.local_.length - v.fresh)).any (fun r => r.time < e.time)
        || (x != a && (s.die x).brg.sent.any (fun p =>
              p.dst == a && p.body.evts.any (fun r => r.time < e.time) && !(s.die a).brg.seen.contains (x, p.tag)))))

/-- EPOCH record e, which waits, holds record r back: r's cause follows the recovery point, or r came after e from its die
(R347, R354; log entry 23). -/
def Evt.holds (e r : Evt) : Bool := e.isEpoch && (e.time < r.time || (e.time == r.time && e.source / 512 == r.source / 512))

/-- The EPOCH records that access die a has not received yet: new in the buffer of their die, or in an EVT_FWD on its way (R354). -/
def State.epochsOut (s : State) (a : DieId) : List Evt :=
  s.dieList.flatMap (fun x =>
    let v := (s.die x).evt
    ((v.local_.drop (v.local_.length - v.fresh)) ++
      (if x = a then [] else ((s.die x).brg.sent.filter (fun p => p.dst == a && !(s.die a).brg.seen.contains (x, p.tag))).flatMap (fun p => p.body.evts))).filter
        Evt.isEpoch)

/-- An EPOCH record still on its way to access die a, its own deadline not over, precedes record r: r's cause follows the recovery
point (R354). -/
def State.epochDue (s : State) (a : DieId) (r : Evt) : Bool :=
  (s.epochsOut a).any (fun e => e.time < r.time && s.stamp a < e.time + 512)

/-- Access die d takes a record: an EPOCH record waits for the earlier records of its dies, up to its own 2-stroke deadline, and
then carries INCOMPLETE = 1; a record that a waiting EPOCH record holds back waits behind it, and one whose cause follows an EPOCH record still on its way waits for
that; any other is written (R347, R354). -/
def State.ringTake (s : State) (d : DieId) (r : Evt) : State :=
  let out := r.isEpoch && s.earlierOut d r
  if (s.die d).evt.held.any (fun e => e.holds r) || s.epochDue d r || (out && s.stamp d < r.time + 512) then
    s.onDie d (fun x => { x with evt := { x.evt with held := x.evt.held ++ [r] } })
  else s.ringWrite d (if out then { r with data := r.data ||| 65536 } else r)

/-- Take records in order. -/
def State.ringWrites (s : State) (d : DieId) (l : List Evt) : State := l.foldl (fun s r => s.ringTake d r) s

/-- Take the held records of access die d again, in order. -/
def State.ringRelease (s : State) (d : DieId) : State :=
  (s.onDie d (fun x => { x with evt := { x.evt with held := [] } })).ringWrites d (s.die d).evt.held

/-- Release the local records that every reachable access die has acknowledged: those not new and in no EVT_FWD still
waiting for its ACK (R346). -/
def Die.release (x : Die) : Die :=
  let held := x.brg.sent.flatMap (fun p => p.body.evts)
  let old := x.evt.local_.length - x.evt.fresh
  { x with evt := { x.evt with local_ := (x.evt.local_.take old).filter (fun r => held.contains r) ++ x.evt.local_.drop old } }

/-- Cut a list into pieces of at most 16 (R273: 1 to 16 records in an EVT_FWD). -/
def pieces (l : List Evt) : List (List Evt) :=
  ((List.range ((l.length + 15) / 16)).map (fun i => (l.drop (16 * i)).take 16))

/-- Die d reaches no access die: its records wait for the return of its path (R347, R355). -/
def State.cutOff (s : State) (d : DieId) : Bool := !s.reachable d 0 && !s.reachable d (otherAccess s.part)

/-- Records held for an access die that has become unreachable are released (R346). -/
def State.dropUnreached (s : State) (d : DieId) : State :=
  if s.cutOff d then s
  else s.onDie d (fun x =>
    let lost := fun (r : Sent) => match r.body with | .evtFwd _ => !s.reachable d r.dst | _ => false
    if x.brg.sent.any lost then ({ x with brg := { x.brg with sent := x.brg.sent.filter (fun r => !lost r) } }).release else x)

/-- Forward the records added since the previous fret 30 to each reachable access die, a die's own ring directly (R346). Those
that an overrun of the fret left over, the last of them, wait for the next fret 30 (R27); a die that reaches no access die keeps its
records, and forwards them LATE once it does (R347, R355). -/
def State.forwardEvents (s : State) (d : DieId) : State :=
  let x := s.die d
  if s.cutOff d then s else
  let rest := min x.stroke.evtCut x.evt.fresh
  let recs := (x.evt.local_.drop (x.evt.local_.length - x.evt.fresh)).take (x.evt.fresh - rest)
  let s := s.onDie d (fun x => { x with evt := { x.evt with fresh := rest } })
  let give := fun (s : State) (a : DieId) =>
    if a = d then (s.ringWrites d recs).ringRelease d
    else if s.reachable d a then (pieces recs).foldl (fun s p => s.sendTo d a (.evtFwd p) true) s
    else s
  let s := give (give s 0) (otherAccess s.part)
  s.onDie d Die.release

/-- Move EVT_RP of access die d to v (R348): a value outside the span from RP to WP is ignored and EVT_PTR_ERROR posted.
When 256 slots are free again after drops, EVT_DROPPED is posted with the count. -/
def State.evtRp (s : State) (d : DieId) (v : Nat) : State :=
  let e := (s.die d).evt
  let step := (v + 4096 - e.rp) % 4096
  if e.unread < step then s.post d 456 0x12 v
  else
    let passed := fun (n : Nat) => (n + 4096 - e.rp) % 4096 < step
    let e1 := { e with rp := v, unmasked := e.unmasked.filter (fun n => !passed n), nmis := e.nmis.filter (fun n => !passed n) }
    let s := s.onDie d (fun x => { x with evt := e1 })
    if 0 < e1.dropped && 256 ≤ e1.free then
      let s := s.onDie d (fun x => { x with evt := { x.evt with dropped := 0 } })
      s.post d 456 0x11 (pair (sat16 e1.dropped) e1.dropAt)
    else s

/-- A reserved local source (R267, R289, R343, R344, R376, R396, R438, R492): no record carries it. -/
def reservedSource (l : Nat) : Bool :=
  [(373, 374), (380, 391), (395, 407), (418, 423), (426, 439), (442, 443), (460, 511)].any (fun r => r.1 ≤ l && l ≤ r.2)

/-- EVENT_CAUSE (R346, R350): a cause of a local source occurs on a die of the part; the reserved sources have none. -/
def execEventCause (d : DieId) (source : Fin 512) (cause : Byte) (data : Word) (s : State) : Result :=
  .next (if present s.part d && s.running && !reservedSource source.val then s.post d source.val cause.toNat data.toNat else s)

/-- EVENT_FORWARD (R26, R346): fret 30 of die d, once in a stroke. -/
def execEventForward (d : DieId) (s : State) : Result :=
  .next (if present s.part d && s.running && s.fretOpen d 30 30 then
    ((s.toFret 30).onDie d (fun x => x.didFret 30)).forwardEvents d
  else s)

/-- EVT_RP_WRITE (R348): host software frees ring slots of access die e. -/
def execEvtRpWrite (e : AccessId) (rp : BitVec 12) (s : State) : Result :=
  .next (if s.running then s.evtRp (accessDie s.part e) rp.toNat else s)

/-- The vectors of the groups with an unmasked record, each once (R352). -/
def Die.groupVectors (x : Die) : List Nat :=
  (((List.range 11).filter (fun g => bit x.evt.groups g)).map (fun g => fld (x.act (oVec g)) 4 0)).dedup

/-- MSIX_EVENT (R26, R352): at the end of fret 30, once in a stroke, each vector of a group with a new unmasked record is sent, once. -/
def execMsixEvent (e : AccessId) (s : State) : Result :=
  .next (if s.running && s.pos ≤ 1240 && !bit (s.die (accessDie s.part e)).stroke.ran 31 then
    (s.advance 1240).onDie (accessDie s.part e) (fun x =>
      let x := x.didFret 31
      let y := x.groupVectors.foldl (fun x v => x.msix v true) x
      { y with evt := { y.evt with groups := 0 } })
    else s)

/-- MSIX_UNMASK (R293): a vector's mask, or with no vector the function mask, is cleared; each pending vector that is
no longer masked sends its message. -/
def execMsixUnmask (e : AccessId) (vector : Option (Fin 32)) (s : State) : Result :=
  .next (s.onDie (accessDie s.part e) (fun x =>
    let x := match vector with
      | none => { x with evt := { x.evt with fmask := false } }
      | some v => { x with evt := { x.evt with mask := x.evt.mask &&& (0xFFFFFFFF ^^^ 2 ^ v.val) } }
    let go := if x.evt.fmask then [] else (List.range 32).filter (fun v => bit x.evt.pend v && !bit x.evt.mask v)
    go.foldl (fun x v =>
      let ev := bit x.evt.pendEv v
      let x := { x with evt := { x.evt with pend := x.evt.pend ^^^ 2 ^ v, pendEv := if ev then x.evt.pendEv ^^^ 2 ^ v else x.evt.pendEv } }
      x.msix v ev) x))

end Sys2Proof.Machine
end

