-- ==== Sys2Proof/Machine/Pegbox.lean ====
section
/-! DEFINITION. Queues and the short package commands (R319 to R334): doorbells, fetching, records, the inbox, NOP,
GET_INFO and OP_STATUS. -/

namespace Sys2Proof.Machine

/-! ### Queues (R319 to R323) -/

/-- SQ and CQ base of queue q in the memory window (R319). -/
def sqBase (q : QueueId) : Nat := 0x10000 + q.val * 0x8000
def cqBase (q : QueueId) : Nat := 0x14000 + q.val * 0x8000

/-- Entries not yet fetched (R320). -/
def Queue.unfetched (q : Queue) : Nat := (q.sqTail + 64 - q.sqHead) % 64

/-- A slot is locked: from the head up to the tail (R320). -/
def Queue.locked (q : Queue) (slot : Nat) : Bool := (slot + 64 - q.sqHead) % 64 < q.unfetched

/-- QUEUE_ERROR of queue q: 0 SQ doorbell, 1 CQ doorbell, 2 locked slot (R343). -/
def State.queueError (s : State) (d : DieId) (q : QueueId) (what index : Nat) : State :=
  s.post d (457 + q.val) 0x01 (what + 256 * index)

/-- Write PEG_SQ_TAIL_q (R320): a doorbell that would reduce the entries not yet fetched is ignored. -/
def State.sqTail (s : State) (d : DieId) (n : QueueId) (v : Nat) : State :=
  let q := (s.die d).queue n
  if (v + 64 - q.sqHead) % 64 < q.unfetched then s.queueError d n 0 v
  else s.setQueue d n { q with sqTail := v }

/-- Write PEG_CQ_HEAD_q (R320): a value outside the span from the head to the tail is ignored. -/
def State.cqHead (s : State) (d : DieId) (n : QueueId) (v : Nat) : State :=
  let q := (s.die d).queue n
  if q.used < (v + 64 - q.cqHead) % 64 then s.queueError d n 1 v
  else s.setQueue d n { q with cqHead := v }

/-- SQ_DOORBELL (R320). -/
def execSqDoorbell (e : AccessId) (q : QueueId) (tail : BitVec 6) (s : State) : Result :=
  .next (if s.running then s.sqTail (accessDie s.part e) q tail.toNat else s)

/-- CQ_DOORBELL (R320). -/
def execCqDoorbell (e : AccessId) (q : QueueId) (head : BitVec 6) (s : State) : Result :=
  .next (if s.running then s.cqHead (accessDie s.part e) q head.toNat else s)

/-- LOCKED_SLOT_WRITE (R320): a write to a locked SQ slot is discarded, and QUEUE_ERROR posted. -/
def execLockedSlotWrite (e : AccessId) (q : QueueId) (slot : BitVec 6) (s : State) : Result :=
  let d := accessDie s.part e
  .next (if s.running && ((s.die d).queue q).locked slot.toNat then s.queueError d q 2 slot.toNat else s)

/-- The packet in an SQ slot of access die d, as the queue logic reads it (R324): its opcode and header. -/
def readPacket (x : Die) (d : DieId) (q : QueueId) (slot : Nat) : Packet × Nat :=
  let w := Memory.readWords x.sram (sqBase q + slot * 0x100) 64
  let word := fun n => ((w[n]?).getD 0).toNat
  let len := bits (word 1) 11 0
  ({ origin := d, queue := q, tag := BitVec.ofNat 16 (word 0 / 65536), length := BitVec.ofNat 12 len,
     die := ⟨bits (word 1) 14 12, Nat.mod_lt _ (by decide)⟩, fence := bit (word 1) 15, noprog := bit (word 1) 16,
     irq := bit (word 1) 17, target := BitVec.ofNat 32 (word 2), cookie := BitVec.ofNat 32 (word 3),
     words := (w.take len).drop 4, entry := BitVec.ofNat 6 slot }, word 0 % 65536)

/-- The reserved flags of header word 1 in a slot (R324 [31:18]). -/
def readFlags (x : Die) (q : QueueId) (slot : Nat) : Nat :=
  Memory.readLE x.sram (sqBase q + slot * 0x100 + 4) 4 / 2 ^ 18

/-- The tag of a command is that of a long operation of its queue still running (R326 step 4, R330): one whose ACCEPTED has been posted
or waits here. For a long command it is taken too by an earlier one not yet answered, which may still be accepted (log entry 103). -/
def Queue.tagTaken (q : Queue) (k : Packet) (op : Nat) : Bool :=
  q.running.any (fun r => r.1 == k.tag) || q.exec.any (fun x => x.1.tag == k.tag && isLong x.2 x.1 &&
    (match q.waiting.find? (fun r => r.of x) with
     | some r => !r.final
     | none => isLong op k))

/-- The queue logic's checks of a header, the first failing one deciding the record (R326): status and HERR. -/
def State.checkHeader (s : State) (d : DieId) (q : Queue) (k : Packet) (op flags : Nat) : Option (Nat × Nat) :=
  if !knownOp op then some (stBadOpcode, 0)
  else if !headerLenOk k.length.toNat then some (stBadParam, 1)
  else if flags ≠ 0 then some (stBadParam, 2)
  else if !present s.part k.die then some (stBadTarget, 4)
  else if q.tagTaken k op then some (stBadParam, 3)
  else if !s.reachable d k.die then some (stUnavail, 0)
  else none

/-- Commands of a queue in execution (R321, PEG_QSTAT.INEXEC). -/
def Queue.inExec (q : Queue) : Nat := q.exec.length + q.running.length

/-- A command may be fetched (R321, R322, R338 step 2), by an access die whose pegbox runs (R339). -/
def Queue.mayFetch (q : Queue) : Bool :=
  q.enabled && !q.drain && 0 < q.unfetched && q.inExec < 16 && q.exec.length < q.free

/-- COMMAND_FETCH (R321, R326, R331): the command in the next slot is fetched and its header checked; a good one starts
in its die's inbox once FENCE lets it, another is answered. -/
def execCommandFetch (e : AccessId) (n : QueueId) (s : State) : Result :=
  let d := accessDie s.part e
  let q := (s.die d).queue n
  .next (if s.running && (s.die d).pegRuns && q.mayFetch then
    let x := readPacket (s.die d) d n q.sqHead
    let err := s.checkHeader d q x.1 x.2 (readFlags (s.die d) n q.sqHead)
    let s := s.count d (cPeg + 4 * n.val)
    let q1 := { q with sqHead := (q.sqHead + 1) % 64, exec := q.exec ++ [x], gone := q.gone.filter (fun g => g.2 != x.1.entry) }
    match err with
    | some (st, herr) => (s.setQueue d n q1).receive d { mkRec x.1 st 0 [] with herr := herr }
    | none => (s.setQueue d n { q1 with held := q1.held ++ [x] }).startHeld d n
  else s)

/-- The words of a record with its PHASE (R325). -/
def Rec.words (r : Rec) (phase : Bool) : List Nat :=
  [ r.status + b2n phase * 2 ^ 8 + b2n r.final * 2 ^ 9 + r.effect * 2 ^ 10 + b2n r.isPos * 2 ^ 12 + r.tag.toNat * 2 ^ 16,
    r.data.length + r.die.val * 2 ^ 6 + r.origin.val * 2 ^ 9 + r.herr * 2 ^ 12, r.progress, r.cookie.toNat ] ++ r.data

/-- A waiting record may be written (R321, R328): the first record of a command in submission order into the slot
reserved for it, any other when an unreserved slot is free. -/
def Queue.mayPost (q : Queue) (r : Rec) : Bool :=
  if !q.later r && q.exec.any r.of then 0 < q.free && (match q.exec with | x :: _ => r.of x | [] => false)
  else q.exec.length < q.free

/-- RECORD_POST (R320, R321, R323): the next waiting record is written at the CQ tail. -/
def execRecordPost (e : AccessId) (n : QueueId) (s : State) : Result :=
  let d := accessDie s.part e
  let q := (s.die d).queue n
  .next (match q.waiting.find? q.mayPost with
    | none => s
    | some r =>
      let slot := q.cqTail
      let s := s.onDie d (fun x =>
        { x with sram := Memory.writeWords x.sram (cqBase n + slot * 0x100) (r.words q.phase) })
      let q1 := ({ q with waiting := q.waiting.erase r, cqTail := (slot + 1) % 64, phase := if slot = 63 then !q.phase else q.phase }).settle r
      let s := s.setQueue d n q1
      let s := if stBadOpcode ≤ r.status then s.count d (cPeg + 0x10 + 4 * n.val) else s
      let vec := fld ((s.die d).act (oQcfg n.val)) 5 1
      let s := if !r.irq then s
        else if n = 2 then s.post d 459 0x03 (pair r.tag.toNat slot)
        else if vec = 0 then s else s.onDie d (fun x => x.msix vec false)
      s.startHeld d n)

/-- INBOX_TIMEOUT (R331): a command whose pegbox has not run within 1,024 strokes of its arrival ends with DIE_UNAVAILABLE.
Under STATE = 1 the row says that the pegbox hangs, which nothing shows before its watchdog expires (R339); a command that
waits its turn there is none of these. -/
def execInboxTimeout (d : DieId) (s : State) : Result :=
  let x := s.die d
  .next (if s.running && present s.part d then
    match x.peg.inbox.find? (fun w => w.arrived + 1024 ≤ s.stroke d && (!x.pegRuns || !x.waitsTurn w.packet w.op)) with
    | none => s
    | some w =>
      let k := w.packet
      let s := s.takeInbox k w.op
      let s := s.onDie d (fun x => x.remember ⟨k.origin, k.queue, k.tag, w.op, stUnavail, 0, 0, 0⟩)
      s.deliver d (mkRec k stUnavail 0 [])
  else s)

/-! ### NOP, GET_INFO, OP_STATUS (R332 to R334) -/

/-- NOP (R332). -/
def execNop (k : Packet) (s : State) : Result :=
  .next (s.command0 k 0x0001 (fun s => s.done k 0x0001 3 []))

/-- PEG_STAT (R341). -/
def Peg.stat (p : Peg) : Nat :=
  p.state + 4 * b2n p.region + 8 * b2n p.sbValid + 16 * b2n p.romImg + 32 * b2n p.staging

/-- The dies of a part, as a mask. -/
def State.dieMask (s : State) : Nat := s.dieList.foldl (fun m d => m + dbit d) 0

/-- GET_INFO page 0, the package (R333). -/
def State.packageInfo (s : State) (k : Packet) : List Nat :=
  let ver := (s.die s.leadDie).peg.verA
  [ partCode s.part + Config.stepping.toNat * 16 + s.dieMask * 2 ^ 8 + (s.die k.die).brg.reach * 2 ^ 16
      + s.leadDie.val * 2 ^ 24 + k.origin.val * 2 ^ 27,
    (otherAccess s.part).val * 8,
    Config.serial.toNat % 4294967296, Config.serial.toNat / 4294967296,
    ver.toNat,
    (s.dieList.filter (fun d => (s.die d).peg.verA != ver)).foldl (fun m d => m + dbit d) 0 ]

/-- The access die whose NV mirror die d's commands use: the lower-numbered one it reaches (R484). -/
def State.lowAccess (s : State) (d : DieId) : DieId := if s.reaches d 0 && !(s.die 0).brg.lost then 0 else otherAccess s.part

/-- GET_INFO page 1, the named die (R333). -/
def State.dieInfo (s : State) (d : DieId) : List Nat :=
  let p := (s.die d).peg
  [ p.stat, p.verA.toNat, if p.sbValid then p.verS.toNat else 0, p.secA + (s.die (s.lowAccess d)).nvs.minSec * 256,
    sat32 p.restarts, sat32 (s.stroke d - p.startAt) ]

/-- GET_INFO (R333). -/
def execGetInfo (k : Packet) (s : State) : Result :=
  .next (s.command0 k 0x0002 (fun s =>
    if k.w 4 = 0 then s.done k 0x0002 3 (s.packageInfo k)
    else if k.w 4 = 1 then s.done k 0x0002 3 (s.dieInfo k.die)
    else s.refuse k 0x0002 stBadParam))

/-- The command an OP_STATUS or OP_CANCEL names (R334 word 4): tag, queue and origin. -/
def namesCmd (w : Nat) (origin : DieId) (q : QueueId) (tag : BitVec 16) : Bool :=
  tag.toNat == bits w 15 0 && q.val == bits w 17 16 && origin.val == bits w 20 18

/-- The short commands of a die that have started and wait for a boundary, a fret, a conversion or a PWM channel: packet, opcode, stroke of
their start. -/
def Die.started (x : Die) : List (Packet × Nat × Nat) :=
  (x.peg.awaits ++ x.hk.waiters).map (fun a => (a.packet, a.op, a.start)) ++ x.hk.injOps.map (fun p => (p.1, 0x0902, p.2))
    ++ x.hk.calOp.toList.map (fun p => (p.1, 0x0903, p.2))

/-- OP_STATUS reply data (R334): for an ended command the outcome kept among the last 256, also where its record was given
up (R447, R455). -/
def State.opStatus (s : State) (d : DieId) (w : Nat) : List Nat :=
  let p := (s.die d).peg
  let now := s.stroke d
  match p.ops.find? (fun o => namesCmd w o.origin o.queue o.tag) with
  | some o => [2 + o.effect * 256 + o.status * 65536, o.position, o.opcode, sat32 (now - o.start)]
  | none =>
    match (s.die d).started.find? (fun a => namesCmd w a.1.origin a.1.queue a.1.tag) with
    | some a => [2, 0, a.2.1, sat32 (now - a.2.2)]
    | none =>
      match p.inbox.find? (fun i => namesCmd w i.packet.origin i.packet.queue i.packet.tag) with
      | some i => [1, 0, i.op, 0]
      | none =>
        match p.ended.find? (fun e => namesCmd w e.origin e.queue e.tag) with
        | some e => [3 + e.effect * 256 + e.status * 65536, e.progress, e.opcode, sat32 e.span]
        | none => [0, 0, 0, 0]

/-- OP_STATUS (R334). -/
def execOpStatus (k : Packet) (s : State) : Result :=
  .next (s.command0 k 0x0003 (fun s =>
    if 2 ^ 21 ≤ k.w 4 then s.refuse k 0x0003 stBadParam else s.done k 0x0003 3 (s.opStatus k.die (k.w 4))))

/-- Answer a short command at the boundary that applies it (R66, R100). -/
def State.await (s : State) (k : Packet) (op due arg : Nat) : State :=
  let a : Await := ⟨k, op, due, arg, s.stroke k.die⟩
  s.onDie k.die (fun x => { x with peg := { x.peg with awaits := x.peg.awaits ++ [a] } })

/-- Stage a list of values and strobe their group, as a command does (R65, R100): applied at the boundary R33 gives. -/
def State.stageAll (s : State) (d : DieId) (l : List (Nat × Half)) : State :=
  s.onDie d (fun x => l.foldl (fun x p => x.stage p.1 p.2) x)

/-- The boundary a local strobe that arrives now is applied at (R33): the next, or the one after from fret 24 on. -/
def State.strobeDue (s : State) (d : DieId) : Nat := if s.ownPos d < 960 then s.stroke d + 1 else s.stroke d + 2

/-- A local commit strobe of the groups in a mask (R33, R35). -/
def State.strobe (s : State) (d : DieId) (mask : Nat) : State :=
  s.onDie d (fun x =>
    if s.ownPos d < 960 then { x with stroke := { x.stroke with dueNow := x.stroke.dueNow ||| mask } }
    else { x with stroke := { x.stroke with dueNext := x.stroke.dueNext ||| mask } })

/-- Stage, strobe group g and answer at the boundary that applies it. -/
def State.commitAnswer (s : State) (k : Packet) (op g : Nat) (l : List (Nat × Half)) (arg : Nat := 0) : State :=
  let due := s.strobeDue k.die
  ((s.stageAll k.die l).strobe k.die (2 ^ g)).await k op due arg

end Sys2Proof.Machine
end

