-- ==== Sys2Proof/Machine/Signal.lean ====
section
/-! DEFINITION. What the block does to the symbols of a lane: coding and polarity (R83, R108, R171), the transmit equaliser (R110),
the receive equaliser and decision (R80, R81), the pattern generators (R116, R117, R173), peer frames (R170 to R172), lattice parity
and its words (R210 to R216, R220), and the 425 interleave (R231, R232). All are functions of symbols; the state they start from is
held in `State`. A PAM4 symbol is its level 0 to 3, or its 2-bit value; at N26 a symbol is one bit. -/

namespace Sys2Proof.Machine

/-! ### Coding and polarity (R83, R108) -/

/-- Gray coding (R108 step 1): 0b00, 0b01, 0b11 and 0b10 to levels 0, 1, 2 and 3. -/
def gray : Nat → Nat
  | 0 => 0
  | 1 => 1
  | 3 => 2
  | _ => 3

/-- Gray decoding (R83 step 3). -/
def ungray : Nat → Nat
  | 0 => 0
  | 1 => 1
  | 2 => 3
  | _ => 2

/-- Polarity inversion (R83 step 1, R108 step 3): levels 0 and 3 are exchanged, as are 1 and 2; an N26 bit is complemented. -/
def invert (n26 inv : Bool) (l : Nat) : Nat := if inv then (if n26 then 1 - l else 3 - l) else l

/-- Precoding y(n) = (x(n) − y(n−1)) mod 4 of a level sequence after the level y (R108 step 2). -/
def precode : Nat → List Nat → List Nat
  | _, [] => []
  | y, x :: l => let z := (x + 4 - y % 4) % 4; z :: precode z l

/-- Decoding by (1 + D) mod 4 after the level y (R83 step 2). -/
def unprecode : Nat → List Nat → List Nat
  | _, [] => []
  | y, x :: l => (x + y) % 4 :: unprecode x l

/-- The levels a transmitter in DATA sends for the values of the lane map (R108): Gray coding, precoding where it is in use after
the level y, and polarity. At N26 only the polarity applies. -/
def sendLevels (n26 pre inv : Bool) (y : Nat) (values : List Nat) : List Nat :=
  if n26 then values.map (invert true inv)
  else
    let l := values.map gray
    (if pre then precode y l else l).map (invert false inv)

/-- The values a slice hands to the lane map for the levels it decided (R83): polarity, decoding after the level y, Gray decoding. -/
def receiveValues (n26 pre inv : Bool) (y : Nat) (levels : List Nat) : List Nat :=
  let l := levels.map (invert n26 inv)
  if n26 then l else (if pre then unprecode y l else l).map ungray

/-! ### The transmit equaliser (R110) -/

/-- The amplitude a of a level, in thirds: −3, −1, +1, +3 (R110). -/
def amp (l : Nat) : Int := 2 * (l : Int) - 3

/-- V of a swing code, in 1/31 mVppd (R110). -/
def swing31 (code : Nat) : Nat := 12400 + 800 * code

/-- The output for one symbol in 1/11,904 mV (R110): taps c(−3) first; the levels from the symbol 3 places later to the one 2 places
earlier. v(n) = (V / 2) × Σ c(k) × a(n − k) / 64. -/
def driveOut (code : Nat) (taps : List Int) (levels : List Nat) : Int :=
  (swing31 code : Int) * ((taps.zip levels).map (fun p => p.1 * amp p.2)).sum

/-! ### The receive equaliser and the decision (R80, R81) -/

/-- A sample of a list, 0 outside it. -/
def sampleAt (l : List Int) (i : Int) : Int := if i < 0 then 0 else (l[i.toNat]?).getD 0

/-- The FFE output at sample i, times 0x200 (R80): tap k weights the sample k − main symbols from the cursor, pre-cursor taps the
later ones. -/
def ffeSum (coefs : List Int) (main : Nat) (x : List Int) (i : Nat) : Int :=
  (coefs.zipIdx.map (fun c => c.1 * sampleAt x ((i : Int) + main - c.2))).sum

/-- The FFE output at sample i in ADC codes, saturating at 8 bits (R80, R145). -/
def ffeOut (coefs : List Int) (main : Nat) (x : List Int) (i : Nat) : Int := clamp ((ffeSum coefs main x i) / 512) (-128) 127

/-- The level whose nominal value lies nearest to an equalised sample, for an outer level of `cursor` codes. -/
def slice4 (cursor v : Int) : Nat :=
  if 3 * v < -2 * cursor then 0 else if v < 0 then 1 else if 3 * v < 2 * cursor then 2 else 3

/-- The 2-level decision at N26 (R81). -/
def slice2 (v : Int) : Nat := if v < 0 then 0 else 1

/-- The decided level's nominal value, in codes. -/
def nominal (n26 : Bool) (cursor : Int) (l : Nat) : Int := if n26 then (if l = 0 then -cursor else cursor) else cursor * amp l / 3

/-- Slicer with the 1-tap DFE (R81): the DFE takes dfe/512 of the cursor's share of the symbol decided before. `prev` is its nominal
value. -/
def dfeDecide (n26 : Bool) (cursor dfe : Int) : Int → List Int → List Nat
  | _, [] => []
  | prev, v :: l =>
    let e := v - dfe * prev / 512
    let d := if n26 then slice2 e else slice4 cursor e
    d :: dfeDecide n26 cursor dfe (nominal n26 cursor d) l

/-- A state of the MLSE: the two preceding symbols, the metric of the best path into it, and that path's symbols, newest first. -/
structure MlsePath where
  s1     : Nat
  s2     : Nat
  metric : Nat
  path   : List Nat
  deriving DecidableEq, Repr

/-- The 16 states of the MLSE, equally likely (R81). -/
def mlseStart : List MlsePath := (List.range 16).map (fun i => ⟨i % 4, i / 4, 0, []⟩)

/-- The state of least metric, the first of equals. -/
def mlseBest : List MlsePath → MlsePath
  | [] => ⟨0, 0, 0, []⟩
  | p :: l => l.foldl (fun a b => if b.metric < a.metric then b else a) p

/-- One step of the MLSE (R81): the residual channel is the cursor and the terms H1 and H2, in 1/512 of it. -/
def mlseStep (cursor h1 h2 : Int) (v : Int) (l : List MlsePath) : List MlsePath :=
  (List.range 16).map (fun i =>
    let s := i % 4
    let p := i / 4
    let from_ := l.filter (fun q => q.s1 == p)
    let ext := from_.map (fun q =>
      let e := 512 * 3 * v - cursor * (512 * amp s + h1 * amp q.s1 + h2 * amp q.s2)
      { q with s1 := s, s2 := q.s1, metric := q.metric + (e * e).toNat, path := s :: q.path : MlsePath })
    mlseBest ext)

/-- The decisions of the MLSE over a run of equalised samples (R81). -/
def mlseDecide (cursor h1 h2 : Int) (l : List Int) : List Nat :=
  (mlseBest (l.foldl (fun st v => mlseStep cursor h1 h2 v st) mlseStart)).path.reverse

/-! ### Pattern generators (R116, R117, R173) -/

/-- Register length of PRBS7, PRBS9, PRBS13 and PRBS31 by PAT_SEL 0 to 3 (R117). -/
def prbsLen : Nat → Nat
  | 0 => 7
  | 1 => 9
  | 2 => 13
  | _ => 31

/-- The exponents of the generator polynomial, without 0 (R117). -/
def prbsTaps : Nat → List Nat
  | 0 => [6, 7]
  | 1 => [5, 9]
  | 2 => [1, 2, 12, 13]
  | _ => [28, 31]

/-- Period in symbols (R117). -/
def prbsPeriod (sel : Nat) : Nat := 2 ^ prbsLen sel - 1

/-- The next bit of a generator whose register holds the last bits, the newest in bit 0: the sum of the polynomial's taps. -/
def prbsNext (sel reg : Nat) : Bool := (prbsTaps sel).foldl (fun b e => b != bit reg (e - 1)) false

/-- The register after the next bit. -/
def prbsShift (sel reg : Nat) : Nat := (2 * reg + b2n (prbsNext sel reg)) % 2 ^ prbsLen sel

/-- The bit a generator sends next. PRBS31 is sent inverted, as IEEE 802.3 defines it (PRESUMED, log entry 67). -/
def prbsBit (sel reg : Nat) : Nat := b2n (prbsNext sel reg != (sel == 3))

/-- The register after one symbol: two bits at PAM4, one at N26. -/
def prbsSym (n26 : Bool) (sel reg : Nat) : Nat := if n26 then prbsShift sel reg else prbsShift sel (prbsShift sel reg)

/-- The level of the next symbol: two bits, the first as MSB, Gray-coded; at N26 one bit (R117). -/
def prbsLevel (n26 : Bool) (sel reg : Nat) : Nat :=
  if n26 then prbsBit sel reg else gray (2 * prbsBit sel reg + prbsBit sel (prbsShift sel reg))

/-- A linear map of registers, given by the images of the single bits, applied to a register. -/
def linApply (m : List Nat) (v : Nat) : Nat := m.zipIdx.foldl (fun a p => if bit v p.2 then a ^^^ p.1 else a) 0

/-- The k-th power of a linear map applied to a register, by squaring; `fuel` bounds the bits of k. -/
def linPow : Nat → List Nat → Nat → Nat → Nat
  | 0, _, _, v => v
  | fuel + 1, m, k, v =>
    if k = 0 then v else linPow fuel (m.map (linApply m)) (k / 2) (if k % 2 = 1 then linApply m v else v)

/-- The map of a register to the one after the next bit. -/
def prbsMap (sel : Nat) : List Nat := (List.range (prbsLen sel)).map (fun i => prbsShift sel (2 ^ i))

/-- The register after k symbols: k bits at N26, else 2k. -/
def prbsSkip (n26 : Bool) (sel k reg : Nat) : Nat := linPow 64 (prbsMap sel) (if n26 then k else 2 * k) reg

/-- The levels of k symbols from a register. -/
def prbsLevels (n26 : Bool) (sel : Nat) : Nat → Nat → List Nat
  | 0, _ => []
  | k + 1, reg => prbsLevel n26 sel reg :: prbsLevels n26 sel k (prbsSym n26 sel reg)

/-- The all-ones state in which a pattern or drone generator starts (R116). -/
def prbsOnes (sel : Nat) : Nat := 2 ^ prbsLen sel - 1

/-- Symbol i of a square wave (R117): SQ_N + 1 symbols high, SQ_N + 1 low. -/
def squareLevel (n26 : Bool) (sqN i : Nat) : Nat := if i / (sqN + 1) % 2 = 0 then (if n26 then 1 else 3) else 0

/-- Symbol i of the user pattern, from the eight TX_UPAT registers (R117): the level as written, at N26 bit 1 of the entry. -/
def userLevel (n26 : Bool) (upat : List Half) (i : Nat) : Nat :=
  let w := ((upat[i % 64 / 8]?).getD 0).toNat
  let v := bits w (2 * (i % 8) + 1) (2 * (i % 8))
  if n26 then v / 2 else v

/-- Symbol i of a generator that started in the all-ones state, advanced by adv symbols (R116, R117), before polarity. -/
def patternLevel (n26 : Bool) (sel adv sqN : Nat) (upat : List Half) (i : Nat) : Nat :=
  if sel < 4 then prbsLevel n26 sel (prbsSkip n26 sel (adv + i) (prbsOnes sel))
  else if sel = 4 then squareLevel n26 sqN i
  else userLevel n26 upat i

/-- The seed of a lane's training pattern generator at session start (R173). -/
def patternSeed (v : Nat) : Nat := 0x1FFF ^^^ (v * 0x0111)

/-! ### Peer frames (R170 to R172) -/

/-- Symbols of a frame's pattern (R170). -/
def patternSymbols : Nat := 7840

/-- Symbols of a frame's marker, fields and CRC (R170). -/
def headerSymbols : Nat := 352

/-- The 32 symbols at level 3 and 32 at level 0 of a marker (R170). -/
def markerLevels : List Nat := List.replicate 32 3 ++ List.replicate 32 0

/-- A field bit as a pair of levels (R171). -/
def bitLevels (b : Bool) : List Nat := if b then [3, 0] else [0, 3]

/-- The pairs of levels of field bits. -/
def fieldLevels (l : List Bool) : List Nat := l.flatMap bitLevels

/-- The bits of a field in sending order. -/
def fieldBits (w : BitVec 64) : List Bool := (List.range 64).map (fun i => w.getLsbD i)

/-- The CRC register over a run of bits, from its initial value (R172). -/
def frameCrc (l : List Bool) : Nat := l.foldl (crcStep 16 0x1021) 0xFFFF

/-- The CRC bits as sent, most significant first (R170, R172). -/
def crcBits (crc : Nat) : List Bool := (List.range 16).map (fun m => bit crc (15 - m))

/-- The 128 field bits of a frame in sending order (R172). -/
def frameBits (control status : BitVec 64) : List Bool := fieldBits control ++ fieldBits status

/-- Marker, control, status and CRC of a frame, as levels (R170). -/
def peerHeader (control status : BitVec 64) : List Nat :=
  markerLevels ++ fieldLevels (frameBits control status ++ crcBits (frameCrc (frameBits control status)))

/-- A whole peer frame, as levels before polarity, with the pattern generator's register at its start (R170, R173). -/
def peerFrame (control status : BitVec 64) (reg : Nat) : List Nat :=
  peerHeader control status ++ prbsLevels false 2 patternSymbols reg

/-- A frame as sent at N26: level 3 is bit 1, level 0 is bit 0, and the pattern is PRBS13 (R171). -/
def peerFrame26 (control status : BitVec 64) (reg : Nat) : List Nat :=
  (peerHeader control status).map (fun l => l / 3) ++ prbsLevels true 2 patternSymbols reg

/-- The bits that pairs of levels stand for; none where a pair is no bit (R171). -/
def pairBits : List Nat → Option (List Bool)
  | [] => some []
  | 3 :: 0 :: l => (pairBits l).map (fun m => true :: m)
  | 0 :: 3 :: l => (pairBits l).map (fun m => false :: m)
  | _ => none

/-- A field from its bits in sending order. -/
def fieldOf (l : List Bool) : BitVec 64 := BitVec.ofNat 64 (l.zipIdx.foldl (fun n b => n + b2n b.1 * 2 ^ b.2) 0)

/-- What a framer reads from the 352 symbols of a frame's marker, fields and CRC (R170 to R172, R174): the control and status field
of a valid frame, none where the marker or the CRC is bad. -/
def readFrame (l : List Nat) : Option (BitVec 64 × BitVec 64) :=
  if l.take 64 != markerLevels then none
  else match pairBits (l.drop 64) with
    | none => none
    | some b => if b.length = 144 && frameCrc b = 0 then some (fieldOf (b.take 64), fieldOf ((b.drop 64).take 64)) else none

/-! ### Lattice words (R210 to R216, R220) -/

/-- Bitwise XOR of 2-bit values. -/
def xorValues (l : List Nat) : Nat := l.foldl (fun a b => a ^^^ b) 0

/-- What a data transmitter contributes to a slot's parity (R211), by its mode: in DATA its value; in DRONE the Gray-decoded drone
symbol; in SQUELCH, OFF and TRAIN 0b00. In PATTERN, which R211 does not name, the Gray-decoded pattern symbol (log entry 68). -/
def parityShare (mode value level : Nat) : Nat :=
  match mode with
  | 0 => value
  | 1 => ungray level
  | 3 => ungray level
  | _ => 0

/-- The parity value of an aligned slot (R210). -/
def parityValue (l : List Nat) : Nat := xorValues l

/-- The syndrome of an aligned slot: the XOR of the received values, the protection lane's last (R214). -/
def syndrome (l : List Nat) : Nat := xorValues l

/-- The rebuilt value of the lane at index i of a slot: the XOR of the parity and the other lanes' values (R216). -/
def rebuilt (l : List Nat) (i : Nat) : Nat := xorValues (l.eraseIdx i)

/-- Nominal levels of an equalised sample that is given in 1/64 of the level spacing. -/
def nominal64 : List Int := [-96, -32, 32, 96]

/-- A symbol is suspect (R215): its sample, in 1/64 of the level spacing, lies more than 3/8 of the spacing from the nearest level. -/
def suspect (v : Int) : Bool := nominal64.all (fun n => 24 < (v - n).natAbs)

/-- A word is bad (R215): at least SUSP_TH/64 of its symbols are suspect, or its mean absolute sample is below 1/4 of the slice's mean
over the previous stroke. -/
def badWord (suspTh mean : Nat) (l : List Int) : Bool :=
  suspTh * l.length ≤ 64 * (l.filter suspect).length || 4 * (l.map Int.natAbs).sum < mean * l.length

/-- The service value of copy seq that announces position pos (R220). -/
def serviceValue (pos seq : Nat) : Word :=
  let hi := pos * 16 + 4 + seq
  BitVec.ofNat 32 (0x5AC3 + hi * 65536 + (255 - hi) * 16777216)

/-- The parity value sent in slot s of a service word (R220). -/
def serviceSlot (parity : Nat) (q : Word) (s : Nat) : Nat := parity ^^^ bits q.toNat (2 * s + 1) (2 * s)

/-- The service value that the syndromes of slots 0 to 15 spell (R220). -/
def serviceOf (syndromes : List Nat) : Word := BitVec.ofNat 32 ((syndromes.take 16).zipIdx.foldl (fun n p => n + p.1 % 4 * 4 ^ p.2) 0)

/-! ### The 425 interleave (R231, R232) -/

/-- The symbols of a line word from the words of its host pair: even symbols from the first (R231). -/
def interleave : List Nat → List Nat → List Nat
  | a :: l, b :: m => a :: b :: interleave l m
  | _, _ => []

/-- The values of a line word parted by symbol phase (R232): the even ones for the host transmitter of position 2k, the odd ones for
that of 2k + 1. `odd`: the word's first symbol is odd. -/
def deinterleave : Bool → List Nat → List Nat × List Nat
  | _, [] => ([], [])
  | false, v :: l => let r := deinterleave true l; (v :: r.1, r.2)
  | true, v :: l => let r := deinterleave false l; (r.1, v :: r.2)

end Sys2Proof.Machine
end

