-- ==== Sys2Proof/Machine/Links.lean ====
section
/-! DEFINITION. What crosses a bridge link (R270 to R273): block lock, the scrambler, idle and alignment blocks, packet words and
their CRC, and the striping of blocks over the lane set. -/

namespace Sys2Proof.Machine

/-! ### Block lock and alignment (R270, R271) -/

/-- A sync header of 64b/66b is valid: its two bits differ. -/
def goodHeader (h : BitVec 2) : Bool := h.getLsbD 0 != h.getLsbD 1

/-- A receive lane takes one sync header (R270): it locks after 64 consecutive valid ones, and loses lock when 16 invalid ones occur
within 64. The second value: the header counts as invalid, as it came while the lane had lock (R288). -/
def BlockLock.take (k : BlockLock) (h : BitVec 2) : BlockLock × Bool :=
  let good := goodHeader h
  if k.locked then
    let r := ((!good) :: k.recent).take 64
    (if 16 ≤ (r.filter id).length then {} else { k with recent := r }, !good)
  else
    let n := if good then k.run + 1 else 0
    (if 64 ≤ n then { locked := true } else { run := n }, false)

/-- Sync headers in the order received: the lane's lock after them, and the invalid ones counted. -/
def BlockLock.takes (k : BlockLock) (l : List (BitVec 2)) : BlockLock × Nat :=
  l.foldl (fun r h => let t := r.1.take h; (t.1, r.2 + b2n t.2)) (k, 0)

/-- Block lock of lane l of a bridge. -/
def Bridge.lane (v : Bridge) (l : Nat) : BlockLock := SMap.get {} v.lock l

/-- The lanes a bridge receives with block lock and alignment, as its heartbeats report them (R270, R273). -/
def Bridge.rx (v : Bridge) : Nat :=
  (List.range 4).foldl (fun m l => if (v.lane l).locked && bit v.aligned l then m + 2 ^ l else m) 0

/-- LANE_UP: lanes with block lock and alignment in both directions; the neighbour's heartbeats tell of the outgoing one (R270). -/
def Bridge.up (v : Bridge) : Nat := v.rx &&& v.peer

/-- The scrambler 1 + x^39 + x^58 takes one bit: its register, newest bit lowest, and the bit sent (R270). -/
def scramble1 (r : BitVec 58) (b : Bool) : BitVec 58 × Bool :=
  let o := (b != r.getLsbD 38) != r.getLsbD 57
  (r.shiftLeft 1 ||| BitVec.ofNat 58 (b2n o), o)

/-- The payload bits of a block as scrambled, and the register after it. -/
def scramble (r : BitVec 58) (l : List Bool) : BitVec 58 × List Bool :=
  l.foldl (fun s b => let t := scramble1 s.1 b; (t.1, s.2 ++ [t.2])) (r, [])

/-- The self-synchronous descrambler takes one received bit. -/
def descramble1 (r : BitVec 58) (b : Bool) : BitVec 58 × Bool :=
  (r.shiftLeft 1 ||| BitVec.ofNat 58 (b2n b), (b != r.getLsbD 38) != r.getLsbD 57)

/-- The idle control block between packets (R270). -/
def idleBlock : BitVec 64 := 0x1E

/-- An alignment block on one lane: the lane set that applies from the next block, and the lane's number (R271). -/
def alignBlock (set_ lane : Nat) : BitVec 64 := BitVec.ofNat 64 (0xC3 + set_ % 16 * 2 ^ 8 + lane % 4 * 2 ^ 12)

/-- A received block is an alignment block; its lane number and lane set (R271). -/
def isAlign (w : BitVec 64) : Bool := w.toNat % 256 == 0xC3
def alignLane (w : BitVec 64) : Nat := bits w.toNat 13 12
def alignSet (w : BitVec 64) : Nat := bits w.toNat 11 8

/-- The lanes that one period's alignment blocks deskew: those whose block comes at most 32 blocks after the first (R271). -/
def deskewed (l : List (BitVec 64 × Byte)) : Nat :=
  (List.range 4).foldl (fun m k => if l.any (fun p => isAlign p.1 && alignLane p.1 == k && p.2.toNat ≤ 32) then m + 2 ^ k else m) 0

/-- Packet blocks on the lanes of a set: round-robin, in ascending lane order (R271). -/
def stripe (set_ : Nat) (l : List (BitVec 64)) : List (Nat × BitVec 64) :=
  let lanes := (List.range 4).filter (bit set_)
  (List.range l.length).filterMap (fun i =>
    match lanes[i % lanes.length]?, l[i]? with
    | some k, some w => some (k, w)
    | _, _ => none)

/-! ### Packets (R272, R273) -/

/-- The TYPE of a packet (R273). -/
def Body.type : Body → Nat
  | .regReq _ _ _ _ _ => 0x1
  | .regRsp _ _ _ => 0x2
  | .cmdFwd _ _ => 0x3
  | .cmdRsp _ _ _ _ => 0x4
  | .evtFwd _ => 0x5
  | .ack _ => 0x6
  | .sync _ _ _ _ => 0x7
  | .gcommit _ _ _ => 0x8
  | .heartbeat _ _ _ _ _ => 0x9
  | .ringState _ _ _ => 0xA
  | .elect _ _ => 0xB
  | .echo _ _ => 0xC

/-- The number of a bridge in RING_STATE: 0 east, 1 west. -/
def isWest : Ew → Bool
  | .east => false
  | .west => true

/-- Pairs of 32-bit words as the 64-bit words of a packet, the first in the low half. -/
def doubles : List Nat → List Nat
  | a :: b :: l => (a % 2 ^ 32 + b % 2 ^ 32 * 2 ^ 32) :: doubles l
  | [a] => [a % 2 ^ 32]
  | [] => []

/-- A command packet as submitted: its header and its parameters (R324). -/
def submitted (k : Packet) (op : Nat) : List Nat :=
  [op % 65536 + k.tag.toNat * 65536,
   k.length.toNat + k.die.val * 2 ^ 12 + b2n k.fence * 2 ^ 15 + b2n k.noprog * 2 ^ 16 + b2n k.irq * 2 ^ 17,
   k.target.toNat, k.cookie.toNat] ++ k.words.map BitVec.toNat

/-- The data words of a packet (R273). The queue entry of a command is the slot of its submission queue (log entry 79). -/
def Body.data : Body → List Nat
  | .regReq off view wr v _ => [off % 2 ^ 22 + view % 4 * 2 ^ 22 + b2n wr * 2 ^ 24 + v.toNat * 2 ^ 32]
  | .regRsp v st _ => [v.toNat + st * 2 ^ 32]
  | .cmdFwd k op => (k.queue.val + k.entry.toNat * 4) :: doubles ((submitted k op ++ List.replicate 64 0).take 64)
  | .cmdRsp q e _ none => [q.val + e.toNat * 4]
  | .cmdRsp q e _ (some r) => (q.val + e.toNat * 4) :: doubles (r.words false)
  | .evtFwd l => l.flatMap (fun r => doubles (r.words false))
  | .ack t => [t % 65536]
  | .sync n lead acc _ => [n % 2 ^ 56 + lead.val * 2 ^ 56, acc % 2 ^ 24]
  | .gcommit n mask _ => [n % 2 ^ 56, mask % 65536]
  | .heartbeat n run iso lead lanes => [n % 2 ^ 56 + b2n run * 2 ^ 56 + b2n iso * 2 ^ 57 + lead % 4 * 2 ^ 58 + lanes % 16 * 2 ^ 60]
  | .ringState d b st => [d.val + b2n (isWest b) * 8 + st % 4 * 16]
  | .elect n c => [n % 2 ^ 56 + c.val * 2 ^ 56]
  | .echo reply t => [b2n reply + t % 2 ^ 24 * 2 ^ 8]

/-- The bits of words of n bits, bit 0 of each word first. -/
def lowFirst (n : Nat) (l : List Nat) : List Bool := l.flatMap (fun w => (List.range n).map (bit w))

/-- The CRC of a packet: over header bits [47:0] and then every data bit (R172, R272). -/
def packetCrc (head : Nat) (data : List Nat) : Nat := frameCrc (lowFirst 48 [head] ++ lowFirst 64 data)

/-- Header bits [47:0] of a packet (R272). -/
def Flit.head (f : Flit) : Nat :=
  0xB5 + f.body.type * 2 ^ 8 + f.src.val * 2 ^ 12 + f.dst.val * 2 ^ 15 + b2n f.bcast * 2 ^ 18 + f.ttl % 8 * 2 ^ 20
    + f.body.data.length * 2 ^ 24 + f.tag % 65536 * 2 ^ 32

/-- The header word of a packet, its CRC on top (R272). -/
def Flit.header (f : Flit) : BitVec 64 := BitVec.ofNat 64 (f.head + packetCrc f.head f.body.data * 2 ^ 48)

/-- The words of a packet as its sender forms them (R272). -/
def Flit.words (f : Flit) : List (BitVec 64) := f.header :: f.body.data.map (BitVec.ofNat 64)

/-- Received packet words check: the CRC in the header is that of the rest (R272). -/
def crcGood : List (BitVec 64) → Bool
  | [] => false
  | h :: l => packetCrc (h.toNat % 2 ^ 48) (l.map BitVec.toNat) == h.toNat / 2 ^ 48

/-- A packet whose header arrives with these bits inverted fails its CRC. -/
def Flit.spoiled (f : Flit) (err : BitVec 64) : Bool :=
  match f.words with
  | [] => false
  | h :: l => !crcGood ((h ^^^ err) :: l)

/-- A packet type that the table of R273 reserves. -/
def reservedType (t : Nat) : Bool := t == 0 || 0xD ≤ t

/-- A packet whose header arrives with these bits inverted carries a reserved type (R273). -/
def Flit.strange (f : Flit) (err : BitVec 64) : Bool := reservedType (bits (f.header ^^^ err).toNat 11 8)

end Sys2Proof.Machine
end

