-- ==== Sys2Proof/Machine/Bridges.lean ====
section
/-! DEFINITION. The bridge ring (R268 to R289): routes, packet reception and forwarding, stroke sync, elections. -/

namespace Sys2Proof.Machine

/-! ### Routes (R269) -/

/-- The ring from die a going by bridge w: the dies met, in order, the part's count of them. -/
def ringFrom (p : Part) (w : Ew) : Nat → DieId → List DieId
  | 0, _ => []
  | n + 1, a => neighbour p a w :: ringFrom p w n (neighbour p a w)

/-- Die a knows bridge w of die x to be DOWN: its own bridges by itself, others by RING_STATE. -/
def State.knownDown (s : State) (a x : DieId) (w : Ew) : Bool :=
  if x = a then ((s.die a).bridge w).state == 0
  else (s.die a).brg.known.any (fun r => r.1 == x && r.2.1 == (w == .west) && r.2.2 == 0)

/-- The link by which x sends over bridge w is usable, as die a knows it: neither end DOWN. -/
def State.linkOk (s : State) (a x : DieId) (w : Ew) : Bool :=
  !s.knownDown a x w && !s.knownDown a (neighbour s.part x w) (Ew.flip w)

/-- Hops from a to b by bridge w over usable links, if there is such a way. -/
def State.hops (s : State) (a b : DieId) (w : Ew) : Option Nat :=
  let go := a :: ringFrom s.part w (dieCount s.part) a
  let n := (go.drop 1).idxOf b + 1
  if b = a then some 0
  else if n ≤ dieCount s.part && (go.take n).all (fun x => s.linkOk a x w) then some n else none

/-- REACH and WEST of die a by what it knows of the ring: the way with fewer hops, east on a tie (R269). -/
def State.routes (s : State) (a : DieId) : Nat × Nat :=
  s.dieList.foldl (fun r b =>
    if b = a then (r.1 + dbit b, r.2)
    else match s.hops a b .east, s.hops a b .west with
      | none, none => r
      | some _, none => (r.1 + dbit b, r.2)
      | none, some _ => (r.1 + dbit b, r.2 + dbit b)
      | some e, some w => (r.1 + dbit b, if w < e then r.2 + dbit b else r.2)) (0, 0)

/-- A set of lanes as a mask, counted. -/
def lanesIn (m : Nat) : Nat := b2n (bit m 0) + b2n (bit m 1) + b2n (bit m 2) + b2n (bit m 3)

/-- Local source of a bridge (R289). -/
def bridgeSrc : Ew → Nat
  | .east => 376
  | .west => 377

/-! ### Reception (R272, R275) -/

/-- Another packet stands ahead of p in the queue of the bridge it left by. The queue holds them in the order of R276, and its first is
in transmission: none overtakes it. -/
def State.ahead (s : State) (p : Flit) : Bool := (s.air.takeWhile (fun q => q != p)).any (fun q => q.sameHop p)

/-- Every lane of the set that the neighbour uses is received with block lock and alignment: the packet blocks striped over it arrive
(R270, R271). -/
def Bridge.whole (v : Bridge) : Bool := v.rxSet &&& v.rx == v.rxSet

/-- The packet of this source, TAG and TYPE that die d receives next. A DOWN bridge carries none (R271), and packets of one bridge arrive
in the order of its queue (R276); one that has arrived and been held is at hand. -/
def State.arriving (s : State) (d src : DieId) (tag type : Nat) : Option Flit :=
  if s.running && present s.part d then
    match s.air.find? (fun p => p.here == d && p.src == src && p.tag == tag && p.body.type == type) with
    | none => none
    | some p =>
      let v := (s.die d).bridge (Ew.flip p.dir)
      if p.held then some p
      else if v.state = 0 || !v.whole || s.ahead p then none else some p
  else none

/-- Take a packet off the ring. -/
def State.arrive (s : State) (p : Flit) : State := { s with air := s.air.erase p }

/-- Forward a packet that is not for this die: it is dropped when its TTL would fall below 0 (R272). A broadcast goes on
in its direction unless the next hop is its originator. -/
def State.forward (s : State) (d : DieId) (p : Flit) : State :=
  if p.ttl = 0 then s
  else
    let q : Flit := { p with ttl := p.ttl - 1 }
    if p.bcast then (if neighbour s.part d p.dir = p.src then s else s.leave d p.dir q)
    else s.leave d (s.way d p.dst) q

/-- The die has accepted this packet before: the TAGs of the last 256 packets of each source (R275). -/
def Die.hasSeen (x : Die) (src : DieId) (tag : Nat) : Bool := x.brg.seen.contains (src, tag)

/-- Keep the TAG of an accepted packet, and the stored reply if the packet has one: the last 256 of its source. -/
def Die.accept (x : Die) (src : DieId) (tag : Nat) (reply : Option Body) : Die :=
  let trim := fun (l : List (DieId × Nat)) => l.filter (fun r => r.1 != src) ++ (l.filter (fun r => r.1 == src)).take 256
  let rep := match reply with
    | none => x.brg.stored
    | some b => x.brg.stored.filter (fun r => r.1 != src) ++ ((src, tag, b) :: x.brg.stored.filter (fun r => r.1 == src)).take 256
  { x with brg := { x.brg with seen := trim ((src, tag) :: x.brg.seen), stored := rep } }

/-- The stored reply of a packet. -/
def Die.reply? (x : Die) (src : DieId) (tag : Nat) : Option Body :=
  (x.brg.stored.find? (fun r => r.1 == src && r.2.1 == tag)).map (fun r => r.2.2)

/-- A routed packet arrives at die d: one for another die is forwarded; a duplicate is answered with the stored reply and
counted; a new one is handled by `run`, which answers the state and the stored reply (R272, R275). `ans` says whether the
stored reply is of an answered type. -/
def State.routed (s : State) (d : DieId) (p : Flit) (ans : Bool) (run : State → State × Option Body) : State :=
  let s := s.arrive p
  if p.dst ≠ d then s.forward d p
  else if (s.die d).hasSeen p.src p.tag then
    let s := s.count d (cBrg + 0x2C)
    match (s.die d).reply? p.src p.tag with
    | none => s
    | some b => s.sendTo d p.src b ans
  else
    let r := run s
    let s := r.1.onDie d (fun x => x.accept p.src p.tag r.2)
    match r.2 with
    | none => s
    | some b => s.sendTo d p.src b ans

/-- A broadcast arrives at die d: the first copy is accepted and handled by `run`, and each copy is forwarded as q (R272). -/
def State.bcastAs (s : State) (d : DieId) (p q : Flit) (run : State → State) : State :=
  let s := (s.arrive p).forward d q
  if (s.die d).hasSeen p.src p.tag then s
  else run (s.onDie d (fun x => x.accept p.src p.tag none))

/-- A broadcast whose body the die forwards unchanged. -/
def State.bcast (s : State) (d : DieId) (p : Flit) (run : State → State) : State := s.bcastAs d p p run

/-- The packets of one source to one die that are taken in TAG order: requests (R302), records of events (R349), replies (R328). -/
def Body.order : Body → Nat
  | .regReq _ _ _ _ _ => 1
  | .cmdFwd _ _ => 1
  | .evtFwd _ => 2
  | .cmdRsp _ _ _ (some _) => 3
  | _ => 0

/-- A packet of source a to die b of the same order, with an earlier TAG than p, is still on its way: neither executed nor abandoned
(R302, R328, R349). -/
def State.earlier (s : State) (a b : DieId) (p : Flit) : Bool :=
  ((s.die a).brg.sent.takeWhile (fun r => r.tag != p.tag)).any (fun r =>
    r.dst == b && !(s.die b).hasSeen a r.tag && r.body.order == p.body.order)

/-- TAG b follows TAG a, in modulo-65,536 order. -/
def tagAfter (a b : Nat) : Bool := a != b && (b + 65536 - a) % 65536 < 32768

/-- The die has already executed a request of this source with a later TAG: one that its originator abandoned comes too late to be
executed in order (R302). -/
def Die.passed (x : Die) (src : DieId) (tag : Nat) : Bool :=
  x.brg.stored.any (fun r => r.1 == src && tagAfter tag r.2.1
    && (match r.2.2 with | .regRsp _ _ _ => true | .cmdRsp _ _ _ none => true | _ => false))

/-- Packet p waits at the die it has reached for an earlier one of its source. -/
def State.holdFlit (s : State) (p : Flit) : State :=
  { s with air := s.air.map (fun q => if q == p then { q with held := true } else q) }

/-- A packet of an ordered type arrives at die d: it waits for the earlier ones of its source; a request that they have passed is
discarded; any other is handled as `routed` says (R302, R328, R349). -/
def State.ordered (s : State) (d : DieId) (p : Flit) (ans : Bool) (run : State → State × Option Body) : State :=
  if p.dst = d && !(s.die d).hasSeen p.src p.tag && s.earlier p.src d p then s.holdFlit p
  else if p.dst = d && !(s.die d).hasSeen p.src p.tag && p.body.order == 1 && (s.die d).passed p.src p.tag then s.arrive p
  else s.routed d p ans run

/-- Drop the waiting entry of an answered packet. -/
def Die.answered (x : Die) (dst : DieId) (tag : Nat) : Die :=
  { x with brg := { x.brg with sent := x.brg.sent.filter (fun r => !(r.dst == dst && r.tag == tag)) } }

/-! ### Stroke sync (R38 to R40, R277) -/

/-- SYS of two dies runs from the same reference input (R39). -/
def State.sameRef (s : State) (a b : DieId) : Bool :=
  (s.die a).clk.sysUse == (s.die b).clk.sysUse && (s.die a).clk.sysUse < 2

/-- STROKE_ALIGN.STATE changes to TRACKING: ALIGN_TRACKING is posted, and a change from LOCKED counted (R39, R44, R45). -/
def State.toTracking (s : State) (d : DieId) : State :=
  let b := (s.die d).stroke
  if b.state = 1 then s
  else
    let s := s.onDie d (fun x => { x with stroke := { x.stroke with state := 1, trk := 0 } })
    let s := if b.state = 2 then s.count d 0x084 else s
    s.post d 375 0x02 (unsigned 8 b.err)

/-- A die that reads LOCKED without markers, its SYS no longer on the lead's reference, changes to TRACKING (R39). -/
def State.realign (s : State) : State :=
  s.onAll (fun s d =>
    let b := (s.die d).stroke
    if b.state = 2 && b.mloss && !s.sameRef d b.lead then s.toTracking d else s)

/-- A marker is accepted at die d (R38 to R40, R44, R277): it is noted for the stroke it names, its own or the next, the phase
error kept and the boundary steered (a marker that comes late by the die's own count tells of a boundary that is early), a number that is neither reported once; a die within 2 sc, or 16 strokes after its first
marker, reads LOCKED. A number that names neither stroke counts for the one whose fret 16 has not ended. While TRACKING the
boundary is within 40 sc of the lead's; from LOCKED on it is the lead's after each correction (log entry 64). -/
def State.marker (s : State) (d : DieId) (n : Nat) (lead : DieId) (err : Int) : State :=
  let b := (s.die d).stroke
  let now := s.stroke d
  let own := n = b.count
  let ahead := n = b.count + 1 && 640 ≤ s.pos
  let next := ahead || (!own && 680 ≤ s.pos)
  let e := clamp err (-128) 127
  let first := if b.trk = 0 then now + 1 else b.trk
  let lock := e.natAbs ≤ 2 || first + 16 ≤ now + 1
  let b1 := { b with
    lead := lead, err := e, mloss := false, misses := 0, trk := first,
    phase := if b.state = 2 || lock then 0 else clamp (-err) (-40) 40,
    marker := b.marker || !next, markerNext := b.markerNext || next }
  let s := s.onDie d (fun x => { x with stroke := b1 })
  let s := if !own && !ahead && !b.mismatch then
      (s.onDie d (fun x => { x with stroke := { x.stroke with mismatch := true } })).post d 375 0x05 (pair b.count n)
    else s
  if b.state = 3 || b.state = 2 then s
  else if lock then
    let s := s.onDie d (fun x => { x with stroke := { x.stroke with state := 2 } })
    if b.state = 1 then s.post d 375 0x03 (unsigned 8 e) else s
  else s.toTracking d

/-- The one-way latency of the link by which a packet reached die d, as this die measured it, in 1/8 sc (R277). -/
def State.linkLat (s : State) (d : DieId) (p : Flit) : Nat := ((s.die d).bridge (Ew.flip p.dir)).lat.toNat

/-- The hops a packet has come, its TTL set to 7 at origin (R272). -/
def Flit.hops (p : Flit) : Nat := 8 - p.ttl

/-- A copy of a SYNC is the one a die steers by: the first, or one that has come fewer hops than the copy in use, going east on a tie
(R277). -/
def Die.steersBy (x : Die) (p : Flit) : Bool :=
  match x.stroke.sync with
  | some (tag, hops) => tag != p.tag || p.hops < hops || (p.hops == hops && p.dir == .east)
  | none => true

/-- The lead's boundary as a copy of its SYNC tells it steers die d (R277): the copy's arrival, less its path's latencies and ACC. A die
that has not resumed after Standby resumes at the boundary that the first marker names (R472). -/
def State.steer (s : State) (d : DieId) (p : Flit) (n : Nat) (lead : DieId) (arrival : Int) (late : Nat) : State :=
  if (s.die d).stroke.asleep then
    s.onDie d (fun x => { x with stroke := { x.stroke with lead := lead, wakeTo := some (x.stroke.wakeTo.getD n) } })
  else (s.onDie d (fun x => { x with stroke := { x.stroke with sync := some (p.tag, p.hops) } })).marker d n lead (arrival - late / 8)

/-- SYNC (R38, R272, R277): the marker packet is forwarded with its residence time added to ACC, and with the latency of the link it
came by. The copy with fewer hops, east on a tie, steers the boundary. `arrival` is the copy's arrival against the die's own fret 30
in sc, `residence` the time it stays on this die in 1/8 sc. -/
def execSync (d : DieId) (src : DieId) (tag : BitVec 16) (arrival : Int) (residence : BitVec 24) (s : State) : Result :=
  .next (match s.arriving d src tag.toNat 0x7 with
    | none => s
    | some p => match p.body with
      | .sync n lead acc path =>
        let way := path + s.linkLat d p
        let q : Flit := { p with body := .sync n lead ((acc + residence.toNat) % 2 ^ 24) way }
        if (s.die d).hasSeen src tag.toNat && (s.die d).steersBy p then ((s.arrive p).forward d q).steer d p n lead arrival (acc + way)
        else s.bcastAs d p q (fun s => s.steer d p n lead arrival (acc + way))
      | _ => s)

/-- A leading die's stroke timer sends its marker, once in a stroke: the next stroke's number, on both bridges (R38). -/
def State.sendMarker (s : State) (l : DieId) : State :=
  if bit (s.die l).stroke.ran 33 then s
  else (s.onDie l (fun x => x.didFret 33)).broadcast l (.sync (s.stroke l + 1) l 0 0)

/-- The dies that lead: the lead, and after a split of the ring the lead of the other part (R283). -/
def State.leaders (s : State) : List DieId :=
  s.dieList.filter (fun d => s.lead == some d || (s.lead.isSome && (s.die d).stroke.state == 3))

/-- SYNC_SEND (R26, R38): in fret 30 the lead die's stroke timer sends the marker, whether its pegbox runs or not. -/
def execSyncSend (s : State) : Result :=
  .next (if s.running && s.pos < 1240 && s.leaders.any (fun l => !bit (s.die l).stroke.ran 33) then
    s.leaders.foldl (fun s l => s.sendMarker l) (s.toFret 30)
  else s)

/-- MARKER_MISSING (R39, R45): no marker for 4 consecutive strokes. The die keeps LOCKED only where its SYS runs from the
lead's reference. -/
def execMarkerMissing (d : DieId) (s : State) : Result :=
  let b := (s.die d).stroke
  .next (if present s.part d && s.running && 4 ≤ b.misses && !b.mloss && b.state != 3 then
    let s := s.onDie d (fun x => { x with stroke := { x.stroke with mloss := true } })
    let s := s.post d 375 0x04 b.lead.val
    if s.sameRef d b.lead then s else s.toTracking d
  else s)

/-! ### Heartbeats and links (R270, R271, R273, R279) -/

/-- The lead state a heartbeat carries: 1 lead, 2 candidate (R273). -/
def State.leadState (s : State) (d : DieId) : Nat :=
  if s.leaders.contains d then 1 else if (s.die d).brg.elect.isSome then 2 else 0

/-- HEARTBEAT_SEND (R274): in fret 30 die d sends HEARTBEAT on both bridges. A heartbeat crosses a DOWN bridge: it is one
of the two things that bring a bridge back (R279). -/
def execHeartbeatSend (d : DieId) (s : State) : Result :=
  .next (if present s.part d && s.running && s.pos < 1240 && !bit (s.die d).stroke.ran 32 && !(s.die d).stroke.asleep then
    let s := (s.toFret 30).onDie d (fun x => x.didFret 32)
    let x := s.die d
    let mk := fun (w : Ew) => (
      { src := d, dst := neighbour s.part d w, bcast := false, tag := x.brg.nextTag, ttl := 7,
        here := neighbour s.part d w, dir := w,
        body := .heartbeat x.stroke.count x.pegRuns x.brg.isolated (s.leadState d) (x.bridge w).rx } : Flit)
    let s := s.onDie d (fun x => { x with brg := { x.brg with nextTag := (x.brg.nextTag + 1) % 65536 } })
    { s with air := s.air ++ [mk .east, mk .west] }
  else s)

/-- The lanes of bridge b that may be used: up, and let by BRG_CFG (R271, R287). -/
def Die.usable (x : Die) (b : Ew) : Nat :=
  (x.bridge b).up &&& fld (x.act oBrg) (3 + 4 * b2n (isWest b)) (4 * b2n (isWest b))

/-- What has happened to the lanes of a bridge whose up lanes were `was`: LANE_UP, or LANE_DOWN and its count (R288, R289). -/
def State.lanesTold (s : State) (d : DieId) (b : Ew) (was : Nat) : State :=
  let now := ((s.die d).bridge b).up
  (List.range 4).foldl (fun s l =>
    if bit was l && !bit now l then (s.count d (cBrg + 0x20)).post d (bridgeSrc b) 0x01 l
    else if !bit was l && bit now l then s.post d (bridgeSrc b) 0x02 l
    else s) s

/-- Change the link state of a bridge, and report its lanes. -/
def State.onLink (s : State) (d : DieId) (b : Ew) (f : Bridge → Bridge) : State :=
  let put := fun (x : Die) =>
    let v := f (x.bridge b)
    x.setBridge b { v with dip := v.dip || lanesIn v.up < 3 }
  (s.onDie d put).lanesTold d b ((s.die d).bridge b).up

/-- A die's heartbeat of stroke n has told whether its pegbox runs (R282). How the report reaches a die that is not its neighbour the
spec does not say: every die knows it (log entry 101). -/
def Die.reported (x : Die) (n : Nat) (run : Bool) : Die :=
  if run then { x with brg := { x.brg with notRun := 0, toldAt := n + 1 } }
  else if x.brg.toldAt = n + 1 then x
  else { x with brg := { x.brg with notRun := x.brg.notRun + 1, toldAt := n + 1 } }

/-- HEARTBEAT (R270, R273, R276): the neighbour's heartbeat arrives over bridge b, in the order of its queue; its mask tells the die which
of its outgoing lanes are received. Over a DOWN bridge nothing else crosses. -/
def execHeartbeat (d : DieId) (b : Ew) (s : State) : Result :=
  .next (if present s.part d && s.running then
    match s.air.find? (fun p => p.here == d && p.dir == Ew.flip b && p.body.type == 0x9) with
    | none => s
    | some p => match p.body with
      | .heartbeat n run _ _ lanes =>
        if ((s.die d).bridge b).state ≠ 0 && s.ahead p then s
        else ((s.arrive p).onDie p.src (fun x => x.reported n run)).onLink d b
          (fun v => { v with seen := true, hb := true, misses := 0, peer := lanes })
      | _ => s
  else s)

/-- A die learns that a bridge has changed between DOWN and not: ring failover begins, and its routes are recomputed for
the next boundary (R278, R279). -/
def Die.failing (x : Die) : Die := { x with brg := { x.brg with failover := true, changed := true } }

/-- Packets on a link that goes DOWN at die d are lost, in both directions; heartbeats still cross (R271, R279). -/
def State.cutLink (s : State) (d : DieId) (b : Ew) : State :=
  let n := neighbour s.part d b
  { s with air := s.air.filter (fun p =>
      p.body.type == 0x9 || !((p.here == d && p.dir == Ew.flip b) || (p.here == n && p.dir == b))) }

/-- BRIDGE_DOWN (R271, R279): fewer than 3 lanes, or 4 strokes without a heartbeat. -/
def execBridgeDown (d : DieId) (b : Ew) (s : State) : Result :=
  let v := (s.die d).bridge b
  .next (if present s.part d && s.running && v.state != 0 && (lanesIn ((s.die d).usable b) < 3 || 4 ≤ v.misses) then
    let s := s.onDie d (fun x => (x.setBridge b { x.bridge b with state := 0, measured := false, echoes := 0, echoSum := 0, good := 0 }).failing)
    let s := (s.cutLink d b).post d (bridgeSrc b) 0x03 (v.up + 16 * (neighbour s.part d b).val)
    s.broadcast d (.ringState d b 0)
  else s)

/-- BRIDGE_UP (R271, R279): after 64 strokes of 3 or more lanes and heartbeats, and a new latency measurement, the bridge reads as its
lane set says. -/
def execBridgeUp (d : DieId) (b : Ew) (s : State) : Result :=
  let v := (s.die d).bridge b
  let m := v.set_
  let st := if lanesIn m = 4 then 1 else 2
  .next (if present s.part d && s.running && v.state == 0 && 64 ≤ v.good && 3 ≤ lanesIn ((s.die d).usable b) && 3 ≤ lanesIn m && v.measured then
    let s := s.onDie d (fun x => (x.setBridge b { x.bridge b with state := st }).failing)
    let s := s.post d (bridgeSrc b) 0x04 m
    s.broadcast d (.ringState d b st)
  else s)

/-- Counter of invalid sync headers of lane l (R288). -/
def cHdrInv (b : Ew) (l : Nat) : Nat := cBrg + 16 * b2n (isWest b) + 4 * l

/-- The packets that came to die d over bridge b with these bits of their headers inverted, by SRC and TAG: one that fails its CRC is
discarded and counted (R272, R288), one of a reserved type is discarded (R273). -/
def State.discards (s : State) (d : DieId) (b : Ew) (l : List (DieId × BitVec 16 × BitVec 64)) : State :=
  l.foldl (fun s e =>
    match s.air.find? (fun p => p.here == d && p.dir == Ew.flip b && p.src == e.1 && p.tag == e.2.1.toNat) with
    | some p => if p.spoiled e.2.2 then (s.arrive p).count d (cBrg + 0x24) else if p.strange e.2.2 then s.arrive p else s
    | none => s) s

/-- BRIDGE_LANE_CHANGE (R270 to R272, R288, R289): the sync headers received on lane l of bridge b since the last of these events,
oldest first, gain or lose its block lock; a lane that loses lock loses alignment. `damaged`: packets that came with errors. -/
def execBridgeLaneChange (d : DieId) (b : Ew) (lane : Fin 4) (headers : List (BitVec 2))
    (damaged : List (DieId × BitVec 16 × BitVec 64)) (s : State) : Result :=
  .next (if present s.part d && s.running then
    let r := (((s.die d).bridge b).lane lane.val).takes headers
    let s := s.onLink d b (fun v => { v with
      lock := SMap.put {} v.lock lane.val r.1,
      aligned := if r.1.locked || !bit v.aligned lane.val then v.aligned else v.aligned ^^^ 2 ^ lane.val })
    (s.onDie d (fun x => x.count (cHdrInv b lane.val) r.2)).discards d b damaged
  else s)

/-- A sender's lane set at an alignment block: the lanes that may be used, on a DOWN bridge too (R271). With 4 a bridge that is not DOWN
reads UP, with 3 DEGRADED. -/
def State.newSet (s : State) (d : DieId) (b : Ew) : State :=
  let v := (s.die d).bridge b
  let m := (s.die d).usable b
  let st := if v.state = 0 || lanesIn m < 3 then v.state else if lanesIn m = 4 then 1 else 2
  let s := s.onDie d (fun x => x.setBridge b { x.bridge b with set_ := m, state := st })
  if st = v.state then s else s.post d (bridgeSrc b) (if st = 1 then 0x04 else 0x05) m

/-- Time in sc between two periods of alignment blocks (R270, R271): 256 blocks of 66 bits at 25.78125 Gbit/s are 655.36 ns, and so 819.2
sc of 0.8 ns. -/
def alignPeriod : Nat := 819

/-- A period of alignment blocks may end at time t. -/
def Bridge.alignDue (v : Bridge) (t : Nat) : Bool :=
  match v.alignAt with
  | none => true
  | some a => t < a || a + alignPeriod ≤ t

/-- ALIGNMENT_BLOCK (R271): one period of alignment blocks at a bridge, 256 blocks after the one before. The blocks received, each with how
many blocks it came after the first, deskew the lanes with block lock; the die's own lane set follows its lane states. -/
def execAlignmentBlock (d : DieId) (b : Ew) (blocks : List (BitVec 64 × Byte)) (s : State) : Result :=
  .next (if present s.part d && s.running && ((s.die d).bridge b).alignDue (s.ownTime d) then
    (s.onLink d b (fun v =>
      let v := { v with alignAt := some (s.ownTime d) }
      match blocks.find? (fun p => isAlign p.1) with
      | none => v
      | some p => { v with aligned := (List.range 4).foldl (fun m l =>
          if (v.lane l).locked && bit (deskewed blocks) l then m + 2 ^ l else m) 0, rxSet := alignSet p.1 })).newSet d b
  else s)

/-- RING_STATE (R279): the report of a bridge is kept; a change from or to DOWN recomputes the routes for the next boundary. -/
def execRingState (d : DieId) (src : DieId) (tag : BitVec 16) (s : State) : Result :=
  .next (match s.arriving d src tag.toNat 0xA with
    | none => s
    | some p => match p.body with
      | .ringState x w st => s.bcast d p (fun s =>
          let was := s.knownDown d x w
          let s := s.onDie d (fun y =>
            let rest := y.brg.known.filter (fun r => !(r.1 == x && r.2.1 == isWest w))
            { y with brg := { y.brg with known := (x, isWest w, st) :: rest } })
          if was != (st == 0) then s.onDie d Die.failing else s)
      | _ => s)

/-- A die has sent one more packet: its sequence number goes on (R272). -/
def Die.nextPacket (x : Die) : Die := { x with brg := { x.brg with nextTag := (x.brg.nextTag + 1) % 65536 } }

/-- ECHO (R273, R277): one ECHO exchange with the neighbour over bridge b, a request and its reply, gives the link's one-way latency, in
1/8 sc; 16 of them measure the link, as their mean (DESIGN CHOICE, log entry 80). -/
def execEcho (d : DieId) (b : Ew) (latency : Half) (s : State) : Result :=
  .next (if present s.part d && s.running then
    ((s.onDie d Die.nextPacket).onDie (neighbour s.part d b) Die.nextPacket).onDie d (fun x =>
      let v := x.bridge b
      let sum := v.echoSum + latency.toNat
      x.setBridge b (if v.echoes + 1 < 16 then { v with echoes := v.echoes + 1, echoSum := sum }
        else { v with echoes := 0, echoSum := 0, lat := BitVec.ofNat 16 (sum / 16), measured := true }))
  else s)

/-! ### Commands, events and acknowledgements over the ring (R274, R331, R346) -/

/-- CMD_FWD (R331): the command is stored in the inbox of its die, and a receipt answers it. -/
def execCmdFwd (d : DieId) (src : DieId) (tag : BitVec 16) (s : State) : Result :=
  .next (match s.arriving d src tag.toNat 0x3 with
    | none => s
    | some p => match p.body with
      | .cmdFwd k op =>
        s.ordered d p false (fun s => (s.enqueue d k op, some (.cmdRsp k.queue k.entry tag.toNat none)))
      | _ => s)

/-- The queue has given this record's command up: its final record is another (R275, R325). -/
def Queue.gaveUp (q : Queue) (r : Rec) : Bool := q.gone.contains (r.tag, r.entry)

/-- CMD_RSP (R331): a receipt ends the re-sending of its CMD_FWD; a reply record reaches its queue, in the order its die sent them (R328),
and is answered by ACK. One of a command already given up changes nothing. -/
def execCmdRsp (d : DieId) (src : DieId) (tag : BitVec 16) (s : State) : Result :=
  .next (match s.arriving d src tag.toNat 0x4 with
    | none => s
    | some p => match p.body with
      | .cmdRsp _ _ t none => s.routed d p false (fun s => (s.onDie d (fun x => x.answered src t), none))
      | .cmdRsp _ _ _ (some r) => s.ordered d p false (fun s =>
          (if ((s.die d).queue r.queue).gaveUp r then s else s.receive d r, some (.ack tag.toNat)))
      | _ => s)

/-- EVT_FWD (R347, R349, R354): forwarded records, taken in the order their die sent them, are written into the package ring, or wait behind an EPOCH record, and are
acknowledged. -/
def execEvtFwd (d : DieId) (src : DieId) (tag : BitVec 16) (s : State) : Result :=
  .next (match s.arriving d src tag.toNat 0x5 with
    | none => s
    | some p =>
      let s := s.ordered d p false (fun s => (s.ringWrites d p.body.evts, some (.ack tag.toNat)))
      if p.dst = d then s.ringRelease d else s)

/-- ACK (R274, R282): the packet it names is answered; an ACK of an ELECT is counted by the candidate. -/
def execAck (d : DieId) (src : DieId) (tag : BitVec 16) (s : State) : Result :=
  .next (match s.arriving d src tag.toNat 0x6 with
    | none => s
    | some p => match p.body with
      | .ack t => s.routed d p false (fun s =>
          (s.onDie d (fun x =>
            let y := (x.answered src t).release
            if y.brg.elect.isSome && y.brg.electTag == t then { y with brg := { y.brg with acks := y.brg.acks ||| dbit src } } else y),
           none))
      | _ => s)

/-- A die takes part in global commits: not isolated, and not in STROKE_MISMATCH (R37, R40). -/
def Die.inCommits (x : Die) : Bool := !x.brg.isolated && !x.stroke.mismatch

/-- Schedule what a global commit packet carries for target stroke n (R37). The closing of the package root reaches every
die (R472); the boundary T of FW_ACTIVATE is the named dies' (R338). -/
def Die.schedule (x : Die) (d : DieId) (n mask kind : Nat) : Die :=
  if kind = 3 then (if x.inCommits && bit mask d.val then { x with peg := { x.peg with swapAt := some n } } else x)
  else if x.inCommits || kind = 1 then { x with stroke := { x.stroke with gdue := x.stroke.gdue ++ [(n, mask, kind)] } } else x

/-- GCOMMIT (R37): the packet is forwarded, and a die that takes part schedules its groups for the target boundary. One
that comes at or after its target is applied at the next boundary, where GCOMMIT_LATE is posted. -/
def execGcommit (d : DieId) (src : DieId) (tag : BitVec 16) (s : State) : Result :=
  .next (match s.arriving d src tag.toNat 0x8 with
    | none => s
    | some p => match p.body with
      | .gcommit n mask kind => s.bcast d p (fun s => s.onDie d (fun x => x.schedule d n mask kind))
      | _ => s)

/-- ELECT (R275, R282): the packet is accepted, and answered by an ACK to the candidate that carries the ELECT's TAG; a re-sent one, which
goes to the die that has not answered, by the stored ACK (DEDUCED, log entry 106). -/
def execElect (d : DieId) (src : DieId) (tag : BitVec 16) (s : State) : Result :=
  .next (match s.arriving d src tag.toNat 0xB with
    | none => s
    | some p => match p.body with
      | .elect _ cand =>
        let reply : Body := .ack tag.toNat
        if p.bcast then s.bcast d p (fun s =>
          (s.onDie d (fun x => { x with brg := { x.brg with stored := (src, tag.toNat, reply) :: x.brg.stored } })).sendTo d cand reply false)
        else s.routed d p false (fun s => (s, some reply))
      | _ => s)

/-! ### Re-sending and giving up (R275, R308) -/

/-- Re-send a waiting packet with the same TAG. -/
def State.resend (s : State) (d : DieId) (r : Sent) : State :=
  let now := s.stroke d
  let s := s.onDie d (fun x => ({ x with brg := { x.brg with sent := x.brg.sent.map (fun q => if q == r then { q with last := now } else q) } }).count (cBrg + 0x28))
  let f : Flit := { src := d, dst := r.dst, bcast := false, tag := r.tag, ttl := 7, here := r.dst, dir := .east, body := r.body }
  s.leave d (s.way d r.dst) f

/-- PACKET_RESEND (R275): a packet unanswered 4 strokes after it was sent goes again, an ELECT to each die that has not answered. -/
def execPacketResend (d : DieId) (tag : BitVec 16) (s : State) : Result :=
  .next (if s.running && present s.part d then
    ((s.die d).brg.sent.filter (fun r => r.tag == tag.toNat && r.last + 4 ≤ s.stroke d)).foldl (fun s r => s.resend d r) s
  else s)

/-! ### Elections (R282) -/

/-- The other access die's view: a die is unavailable when it is unreachable, or its heartbeats have reported its pegbox
not running for 1,024 consecutive strokes. -/
def State.unavailable (s : State) (a b : DieId) : Bool := !s.reachable a b || 1024 ≤ (s.die b).brg.notRun

/-- A candidate sends ELECT (R282 step 2). Every die it reaches is to answer, and one that does not is sent it again (R274, R275). -/
def State.sendElect (s : State) (c : DieId) : State :=
  let n := s.stroke c
  let tag := (s.die c).brg.nextTag
  let body : Body := .elect n c
  let wait : List Sent := (s.dieList.filter (fun b => b != c && s.reachable c b)).map (fun b =>
    { dst := b, tag := tag, first := n, last := n, body := body })
  let s := s.onDie c (fun x => { x with brg := { x.brg with elect := some n, electTag := tag, acks := 0, sent := x.brg.sent ++ wait } })
  let s := s.post c 378 0x02 c.val
  s.broadcast c body

/-- The candidate may start: no election of its own is open, and its ring failover has ended (R282 step 1). -/
def State.mayElect (s : State) (c : DieId) : Bool :=
  s.running && (s.die c).pegRuns && !(s.die c).brg.failover && (s.die c).brg.elect.isNone && s.lead != some c

/-- DIE0_UNAVAILABLE (R282): the other access die sends ELECT. -/
def execDie0Unavailable (s : State) : Result :=
  let c := otherAccess s.part
  .next (if s.unavailable c 0 && s.mayElect c then s.sendElect c else s)

/-- A bridge of the die is not DOWN: the die is not lost (R280). -/
def Die.linked (x : Die) : Bool := x.brg.east.state != 0 || x.brg.west.state != 0

/-- OTHER_ACCESS_DIE_UNAVAILABLE (R282): die 0, reachable with its pegbox running, takes the lead back at once. -/
def execOtherAccessDieUnavailable (s : State) : Result :=
  let c := otherAccess s.part
  .next (if s.lead == some c && (s.die 0).linked && s.unavailable 0 c && s.mayElect 0 then s.sendElect 0 else s)

/-- LEAD_RETURN (R282): die 0, available for 1,024 consecutive strokes with the lead's stroke count, sends ELECT; where no die leads
(R283) there is no count to compare. -/
def execLeadReturn (s : State) : Result :=
  .next (if 1024 ≤ (s.die 0).brg.run0 && (s.lead.isNone || s.stroke 0 == s.stroke s.leadDie) && s.mayElect 0 then s.sendElect 0 else s)

/-- The dies a die reaches, as a mask. -/
def State.reachMask (s : State) (a : DieId) : Nat := (s.dieList.filter (fun b => s.reachable a b)).foldl (fun m b => m + dbit b) 0

/-- Die d no longer originates markers: it reads LOCKED where it shares the new lead's reference, TRACKING otherwise (R41). -/
def State.stepDown (s : State) (d c : DieId) : State :=
  if (s.die d).stroke.state = 3 && d ≠ c then
    (if s.sameRef d c then s.onDie d (fun x => { x with stroke := { x.stroke with state := 2 } }) else s.toTracking d)
  else s

/-- Die c takes the lead (R41, R282): a die that c reaches and that loses it steps down; LEAD_CHANGED on every die c reaches, an EPOCH
record of KIND 7 on c. A die in another part of a split ring keeps the lead there (R283). -/
def State.takeLead (s : State) (c : DieId) : State :=
  let data := c.val + 256 * (s.die c).stroke.lead.val
  let reach := s.reachMask c
  let s := { s with lead := some c }
  let s := s.onAll (fun s d =>
    if bit reach d.val then
      let s := s.stepDown d c
      let s := s.onDie d (fun x => { x with stroke := { x.stroke with lead := c } })
      let s := if d = c then s.onDie d (fun x => { x with stroke := { x.stroke with state := 3, mloss := false, misses := 0 } }) else s
      s.post d 375 0x08 data
    else s)
  let s := (s.onDie c (fun x => { x with brg := { x.brg with elect := none, acks := 0 } })).realign
  s.epoch c 7 reach

/-- An access die is not available to lead: lost, or its pegbox reported not running for 1,024 strokes (R282). -/
def Die.cannotLead (x : Die) : Bool := x.brg.lost || 1024 ≤ x.brg.notRun

/-- When both access dies are unavailable no die leads, and markers stop; the die that led goes on as a die without markers (R39,
R283). -/
def State.leadless (s : State) : State :=
  if s.lead.isSome && (s.die 0).cannotLead && (s.die (otherAccess s.part)).cannotLead then
    { s with lead := none }.onAll (fun s d =>
      if (s.die d).stroke.state = 3 then s.onDie d (fun x => { x with stroke := { x.stroke with state := 2 } }) else s)
  else s

/-- A candidate's election is over at a boundary after its ELECT: every reachable die has answered, or 4 strokes have passed
(R282 step 3). -/
def State.elected (s : State) (c : DieId) : Bool :=
  match (s.die c).brg.elect with
  | none => false
  | some n => n < s.stroke c && ((s.dieList.all (fun b => b == c || !s.reachable c b || bit (s.die c).brg.acks b.val)) || n + 4 ≤ s.stroke c)

/-- LEAD_CHANGED (R41, R282): the candidate takes the lead, at a boundary. -/
def execLeadChanged (s : State) : Result :=
  .next (if s.running && s.pos = 0 then
    (if s.elected 0 then s.takeLead 0
     else if s.elected (otherAccess s.part) then s.takeLead (otherAccess s.part) else s)
  else s)

end Sys2Proof.Machine
end

