-- ==== Sys2Proof/Machine/Nv.lean ====
section
/-! DEFINITION. The nonvolatile store and the calibration table (R482 to R494). -/

namespace Sys2Proof.Machine

/-! ### The mirrors (R482 to R486) -/

/-- The bytes of a mirror. -/
def nvSize : Nat := 0x200000

/-- The block of a byte offset (R482). -/
def nvBlock (off : Nat) : Nat := off / 4096

/-- The wear limit of a block (R486). -/
def wearLimit : Nat := 1000000000

/-- Access die b is reachable from die a and not lost. -/
def State.mirrorUp (s : State) (a b : DieId) : Bool := s.reaches a b && !(s.die b).brg.lost

/-- The mirror master, the lower-numbered access die that die d reaches (R484). -/
def State.nvMaster (s : State) (d : DieId) : DieId := s.lowAccess d

/-- The other access die. -/
def State.mirrorOf (s : State) (m : DieId) : DieId := if m = 0 then otherAccess s.part else 0

/-- The 64-bit word at a byte offset of die d's mirror. -/
def Die.nvWord (x : Die) (off : Nat) : Nat := Memory.readLE x.nv off 8

/-- Write one word of one mirror: its block wears by one, the write is counted (R486, R493). -/
def Die.nvPut (x : Die) (off v : Nat) : Die :=
  let b := nvBlock off
  ({ x with nv := Memory.writeLE x.nv off 8 v,
            nvs := { x.nvs with wear := SMap.put 0 x.nvs.wear b (SMap.get 0 x.nvs.wear b + 1),
                                gone := x.nvs.gone.filter (fun w => w != off / 8) } }).count (cNvs + 4)

/-- A write to this offset would take its block past the limit (R486). -/
def State.nvWornAt (s : State) (m : DieId) (off : Nat) : Bool := wearLimit ≤ SMap.get 0 (s.die m).nvs.wear (nvBlock off)

/-- The master m writes one word of both mirrors; with the other access die unreachable it marks the block STALE (R484). -/
def State.nvStore (s : State) (m : DieId) (off v : Nat) : State :=
  let o := s.mirrorOf m
  let b := nvBlock off
  let s := s.onDie m (fun x => x.nvPut off v)
  if s.mirrorUp m o then s.onDie o (fun x => x.nvPut off v)
  else if (s.die m).nvs.stale.contains b then s
  else (s.onDie m (fun x => { x with nvs := { x.nvs with stale := x.nvs.stale ++ [b] } })).post m 440 0x03 b

/-- A refused write of a worn block (R486). -/
def State.nvRefuse (s : State) (m : DieId) (off : Nat) : State := (s.count m (cNvs + 0x10)).post m 440 0x05 (nvBlock off)

/-- Store words upward from an offset until one would wear a block out: the state, and the words written. -/
def State.nvStores (s : State) (m : DieId) (off : Nat) : List Nat → State × Nat
  | [] => (s, 0)
  | v :: vs =>
    if s.nvWornAt m off then (s.nvRefuse m off, 0)
    else
      let r := State.nvStores (s.nvStore m off v) m (off + 8) vs
      (r.1, r.2 + 1)

/-! ### NV_READ, NV_WRITE (R487, R488) -/

/-- Read one word of die d's mirror, given what ECC finds in each mirror (R485): the state, and the word unless both
copies are uncorrectable. -/
def State.nvFetch (s : State) (d : DieId) (off : Nat) (own other : EccResult) : State × Option Nat :=
  let o := s.mirrorOf d
  let s := s.count d cNvs
  let w := off / 8
  match own with
  | .clean => (s, some ((s.die d).nvWord off))
  | .corrected =>
    let v := (s.die d).nvWord off
    (((s.onDie d (fun x => x.nvPut off v)).count d (cNvs + 8)).post d 440 0x01 w, some v)
  | .uncorrectable =>
    let s := s.count d (cNvs + 0xC)
    if other == .uncorrectable || !s.mirrorUp d o then (s.post d 440 0x02 (w + 2 ^ 18), none)
    else
      let v := (s.die o).nvWord off
      ((s.onDie d (fun x => x.nvPut off v)).post d 440 0x02 w, some v)

/-- Read words in order. -/
def State.nvFetches (s : State) (d : DieId) (ecc : List EccResult) (n : Nat) (off : Nat) : Nat → State × Option (List Nat)
  | 0 => (s, some [])
  | c + 1 =>
    let i := n - (c + 1)
    let r := s.nvFetch d (off + 8 * i) ((ecc[i]?).getD .clean) ((ecc[n + i]?).getD .clean)
    let t := State.nvFetches r.1 d ecc n off c
    (t.1, match r.2, t.2 with
      | some v, some l => some (v % 4294967296 :: v / 4294967296 :: l)
      | _, _ => none)

/-- NV_READ (R485, R487). `ecc` holds what ECC finds in each word of the named die's mirror and then of the other one. -/
def execNvRead (k : Packet) (ecc : List EccResult) (s : State) : Result :=
  .next (s.command k 0x0801 (fun s =>
    let n := k.w 4
    let off := k.target.toNat
    if !isAccess s.part k.die || off % 8 ≠ 0 then s.refuse k 0x0801 stBadTarget
    else if n = 0 || 30 < n || nvSize < off + 8 * n then s.refuse k 0x0801 stBadParam
    else
      let r := s.nvFetches k.die ecc n off n
      match r.2 with
      | some l => r.1.done k 0x0801 3 l
      | none => r.1.refuse k 0x0801 stIncomplete))

/-- The data words of NV_WRITE. -/
def nvData (k : Packet) (n : Nat) : List Nat := (List.range n).map (fun i => k.w (5 + 2 * i) + k.w (6 + 2 * i) * 4294967296)

/-- The regions NV_WRITE may write: boot port profiles and the user area (R482, R488). -/
def nvWritable (off n : Nat) : Bool := (0x91000 ≤ off && off + 8 * n ≤ 0xA1000) || (0x100000 ≤ off && off + 8 * n ≤ 0x200000)

/-- NV_WRITE's effect (R486, R488). -/
def State.nvWriteCmd (s : State) (k : Packet) : State :=
  let n := k.w 4
  let off := k.target.toNat
  if !isAccess s.part k.die || off % 8 ≠ 0 then s.refuse k 0x0802 stBadTarget
  else if n = 0 || 29 < n || k.length.toNat ≠ 5 + 2 * n then s.refuse k 0x0802 stBadParam
  else if !nvWritable off n then s.refuse k 0x0802 stBadTarget
  else
    let r := s.nvStores (s.nvMaster k.die) off (nvData k n)
    if r.2 = n then r.1.done k 0x0802 1 []
    else r.1.finish k 0x0802 (mkRec k stWorn (if r.2 = 0 then 0 else 2) [])

/-- NV_WRITE (R488). -/
def execNvWrite (k : Packet) (s : State) : Result := .next (s.command k 0x0802 (fun s => s.nvWriteCmd k))

/-- NV_WORN (R486): an NV_WRITE that would pass a block's wear limit; another did not meet this row. -/
def execNvWorn (k : Packet) (s : State) : Result :=
  let off := k.target.toNat
  .next (if (List.range (k.w 4 % 32)).any (fun i => s.nvWornAt (s.nvMaster k.die) (off + 8 * i)) then
    s.command k 0x0802 (fun s => s.nvWriteCmd k)
  else s)

/-- Copy block b from one mirror's bytes to the other's. -/
def copyBlock (src dst : List Host.Cell) (b : Nat) : List Host.Cell :=
  (src.filter (fun p => nvBlock p.1 == b)).foldl (fun m p => Memory.write m p.1 p.2) (dst.filter (fun p => nvBlock p.1 != b))

/-- Resynchronise one block: its 512 words are written to the other mirror (R484, R486). -/
def Die.resyncBlock (x : Die) (src : List Host.Cell) (b : Nat) : Die :=
  ({ x with nv := copyBlock src x.nv b,
            nvs := { x.nvs with wear := SMap.put 0 x.nvs.wear b (SMap.get 0 x.nvs.wear b + 512) } }).count (cNvs + 4) 512

/-- The records kept beside the words of the resynchronised blocks (log entry 48): minimum SECVER in block 0, repairs and retirements,
and the firmware patch. -/
def Nvs.follow (v src : Nvs) (l : List Nat) : Nvs :=
  let sec := l.contains 0
  let rep := l.any (fun b => 0x81 ≤ b && b < 0x91)
  let pat := l.any (fun b => 0xA1 ≤ b && b < 0xD1)
  { v with minSec := if sec then src.minSec else v.minSec, repairs := if rep then src.repairs else v.repairs,
           retire := if rep then src.retire else v.retire, patch := if pat then src.patch else v.patch }

/-- At a boundary a resynchronisation runs on a master whose other access die has returned, while blocks of it are STALE (R484, R492). -/
def State.resyncAt (s : State) (m : DieId) : State :=
  let on := !(s.die m).nvs.stale.isEmpty && s.mirrorUp m (s.mirrorOf m)
  if (s.die m).nvs.resync == on then s else s.onDie m (fun x => { x with nvs := { x.nvs with resync := on } })

/-- MIRROR_RESYNC (R484): the other access die has returned, and the master has copied the STALE blocks to it. -/
def execMirrorResync (s : State) : Result :=
  let go := fun (s : State) (m : DieId) =>
    let o := s.mirrorOf m
    let l := (s.die m).nvs.stale
    if l.isEmpty || !(s.die m).nvs.resync || !s.mirrorUp m o then s
    else
      let src := (s.die m).nv
      let recs := (s.die m).nvs
      let s := s.onDie o (fun x =>
        let y := l.foldl (fun x b => x.resyncBlock src b) x
        { y with nvs := y.nvs.follow recs l })
      let s := s.onDie m (fun x => { x with nvs := { x.nvs with stale := [], resync := false } })
      (s.count m (cNvs + 0x14) l.length).post m 440 0x04 l.length
  .next (if s.running then go (go s 0) (otherAccess s.part) else s)

/-! ### Calibration (R489 to R491) -/

/-- The bytes the device loads from: die 0's mirror where it was readable at BOOT and the die is not lost, else the other access die's
(R18, R444, R463); a word BOOT found uncorrectable in both reads 0, and every word where neither mirror is readable (R443). -/
def State.mirror (s : State) : List Host.Cell :=
  match [(0 : DieId), otherAccess s.part].find? (fun d => !(s.die d).brg.lost && !(s.die d).nvs.dead) with
  | none => []
  | some d => (s.die d).nvs.gone.foldl (fun l w => Memory.writeLE l (8 * w) 8 0) (s.die d).nv

/-- The calibration entry of die d at position n, in the bytes of a mirror. -/
def calEntry (img : List Host.Cell) (d : DieId) (n : Nat) : Nat := Memory.readLE img (0x1000 + d.val * 0x10000 + 4 * n) 4

/-- The key of a calibration position among the loaded trims: 128 × slice + sub-ADC for KIND 0; the CTLE, DAC, sensor and converter
trims follow in the order of their positions (R489). -/
def calKey (p : Nat) : Nat :=
  if p < 4608 then 128 * (p / 64) + p % 64 else if p < 14848 then 128 * (72 + (p - 4608) / 128) + (p - 4608) % 128 else 19456 + (p - 14848)

/-- The trims of die d in the calibration table (R489). -/
def calTrims (img : List Host.Cell) (d : DieId) : SMap Half :=
  let base := 0x1000 + d.val * 0x10000
  let ps := ((img.filter (fun c => base ≤ c.1 && c.1 < base + 4 * 15145)).map (fun c => (c.1 - base) / 4)).dedup
  ps.foldl (fun m p => SMap.put 0 m (calKey p) (BitVec.ofNat 16 (calEntry img d p))) []

/-- A loaded trim of another KIND than the sub-ADCs', by its position (R489). -/
def Die.calAt (x : Die) (p : Nat) : Half := SMap.get 0 x.calLoaded (calKey p)

/-- Load the CAL fields of die d from the mirror in use (R10, R490). -/
def State.loadCal (s : State) (d : DieId) : State :=
  let l := calTrims s.mirror d
  s.onDie d (fun x => { x with calLoaded := l })

/-- Load the CAL fields of one slice, its sub-ADCs' and its CTLE's (R490). -/
def State.loadCalSlice (s : State) (d : DieId) (n : Nat) : State :=
  let own := fun (i : Nat) => i / 128 == n || i == calKey (14848 + n)
  let l := (calTrims s.mirror d).filter (fun p => own p.1)
  s.onDie d (fun x => { x with calLoaded := l.foldl (fun m p => SMap.put 0 m p.1 p.2) (SMap.delIf x.calLoaded own) })

/-- What BOOT finds of a word with ECC errors in the mirrors (R463, R485): a single-bit error is corrected and rewritten, an uncorrectable
word rewritten from the other mirror, and one that is uncorrectable in both reported so. `ok0` and `ok1`: the
mirrors are readable at all. -/
def State.bootWord (s : State) (ok0 ok1 : Bool) (w : Nat) (e0 e1 : EccResult) : State :=
  let o := otherAccess s.part
  let r0 := if ok0 then e0 else .uncorrectable
  let r1 := if ok1 then e1 else .uncorrectable
  let fix := fun (s : State) (d : DieId) (r : EccResult) (other : EccResult) (from_ : DieId) =>
    match r with
    | .clean => s
    | .corrected => ((s.onDie d (fun x => x.nvPut (8 * w) (x.nvWord (8 * w)))).count d (cNvs + 8)).post d 440 0x01 w
    | .uncorrectable =>
      let s := s.count d (cNvs + 0xC)
      if other == .uncorrectable then s.post d 440 0x02 (w + 2 ^ 18)
      else
        let v := (s.die from_).nvWord (8 * w)
        (s.onDie d (fun x => x.nvPut (8 * w) v)).post d 440 0x02 w
  let s := if ok0 then fix s 0 r0 r1 o else s
  if ok1 then fix s o r1 r0 0 else s

/-- CAL_READ (R485, R491). `own` and `other`: what ECC finds of the entry's word in the named die's mirror and in the other one. -/
def execCalRead (k : Packet) (own other : EccResult) (s : State) : Result :=
  .next (s.command k 0x0803 (fun s =>
    match calOffset s.part k.target.toNat with
    | none => s.refuse k 0x0803 stBadTarget
    | some off =>
      if !isAccess s.part k.die then s.refuse k 0x0803 stBadTarget
      else
        let r := s.nvFetch k.die (off / 8 * 8) own other
        match r.2 with
        | some v => r.1.done k 0x0803 3 [if off % 8 = 0 then v % 4294967296 else v / 4294967296]
        | none => r.1.refuse k 0x0803 stIncomplete))

/-- CAL_WRITE (R490, R491): the entry's FACTORY flag clears; the other entry of its word is unchanged. -/
def execCalWrite (k : Packet) (s : State) : Result :=
  .next (s.command k 0x0804 (fun s =>
    match calOffset s.part k.target.toNat with
    | none => s.refuse k 0x0804 stBadTarget
    | some off =>
      if !isAccess s.part k.die then s.refuse k 0x0804 stBadTarget
      else if k.w 4 / 65536 ≠ 0xCA1B then s.refuse k 0x0804 stBadParam
      else
        let m := s.nvMaster k.die
        let word := off / 8 * 8
        let old := Memory.readLE (s.die m).nv off 4
        let v := k.w 4 % 65536
        let both := (s.die m).nvWord word
        let new := if off % 8 = 0 then both / 4294967296 * 4294967296 + v else both % 4294967296 + v * 4294967296
        if s.nvWornAt m word then (s.nvRefuse m word).refuse k 0x0804 stWorn
        else
          let s := (s.nvStore m word new).post m 441 0x01 k.target.toNat
          s.done k 0x0804 1 [old % 131072]))

end Sys2Proof.Machine
end

