-- ==== Sys2Proof/Machine/Ports.lean ====
section
/-! DEFINITION. Ports (R46 to R72): profile validity, state changes, presence, and the port commands. -/

namespace Sys2Proof.Machine

/-! ### Profiles (R47 to R50) -/

/-- The profile registers of a port: PORT_CFGA, PORT_CFGB, PORT_BUDGET, PORT_MAP_LO and PORT_MAP_HI. -/
structure Profile where
  a  : Half
  b  : Half
  bu : Half
  lo : Half
  hi : Half

/-- The active profile of port index i of course c. -/
def Die.profile (x : Die) (c i : Nat) : Profile :=
  ⟨x.act (oCfga c i), x.act (oCfgb c i), x.act (oBudget c i), x.act (oMapLo c i), x.act (oMapHi c i)⟩

/-- Line positions a profile takes: its data positions, and the protection lane with lattice (R50). -/
def Profile.lines (p : Profile) : List Nat := linePos p.a p.lo p.hi ++ (if hasLattice p.a then [8] else [])

/-- The other defined ports of the course (R50 rule 11). -/
def Die.others (x : Die) (c i : Nat) : List Profile :=
  ((List.range 8).filter (fun j => j != i && isDefined (x.act (oCfgb c j)))).map (fun j => x.profile c j)

/-- Two lists of lanes share one. -/
def meet (l m : List Nat) : Bool := l.any (fun a => m.contains a)

/-- The lowest rule of R50 that a profile fails among the other defined ports of its course; 0 when it is valid. -/
def profileRule (p : Profile) (others : List Profile) : Nat :=
  let gb := hasGearbox p.a
  let map := linePos p.a p.lo p.hi
  if hostBase p.a % width p.a ≠ 0 then 1
  else if others.any (fun o => meet (hostPos p.a) (hostPos o.a)) then 2
  else if !gb && map.dedup.length ≠ map.length then 3
  else if others.any (fun o => meet p.lines o.lines) then 4
  else if (gb && (rate p.a ≠ 2 || width p.a < 2 || !isPeer p.b || dpath p.a = 2)) || others.any (fun o => hasGearbox o.a != gb) then 5
  else if hasLattice p.a && (width p.a ≠ 8 || !isPeer p.b || rate p.a = 3) then 6
  else if rate p.a = 3 && (isRh p.a || dpath p.a = 2) then 7
  else if !sdEn p.b && !frameEn p.b then 8
  else if fld p.bu 11 0 < 10 || 4000 < fld p.bu 11 0 then 9
  else if 4 ≤ rate p.a || dpath p.a = 3 || lossAct p.a = 3 then 10
  else if !isDefined p.b then 11
  else 0

/-- The lowest failed rule of a port's active profile. -/
def Die.ruleOf (x : Die) (c i : Nat) : Nat := profileRule (x.profile c i) (x.others c i)

/-- The profile of a port as the next commit of its course's group leaves it: the staged values, but the active ones of a port
that is enabled and stays so (R34, R65, R69). -/
def Die.planned (x : Die) (c i : Nat) : Profile :=
  let v := fun (o : Nat) => if (x.port (8 * c + i)).enabled && bit (x.base (oPctl c i)).toNat 0 then x.act o else x.base o
  ⟨v (oCfga c i), v (oCfgb c i), v (oBudget c i), v (oMapLo c i), v (oMapHi c i)⟩

/-- The other ports of the course that are defined after that commit (R50, R65; log entry 24). -/
def Die.plannedOthers (x : Die) (c i : Nat) : List Profile :=
  ((List.range 8).filter (fun j => j != i)).map (fun j => x.planned c j) |>.filter (fun f => isDefined f.b)

/-- The lowest rule a port's profile fails after that commit. -/
def Die.plannedRule (x : Die) (c i : Nat) : Nat := profileRule (x.planned c i) (x.plannedOthers c i)

/-! ### State changes (R57, R58, R71, R72) -/

/-- The port of key n on die d. -/
def portId (d : DieId) (n : Nat) : PortId :=
  { die := d, course := ⟨n / 8 % 8, Nat.mod_lt _ (by decide)⟩, idx := ⟨n % 8, Nat.mod_lt _ (by decide)⟩ }

/-- Change some fields of a port. -/
def State.onPort (s : State) (p : PortId) (f : Port → Port) : State := s.setPort p (f (s.port p))

/-- A port moves to a state: STATE_CHANGE is posted, the move counted, and its time and reason kept (R58, R67). -/
def State.portMove (s : State) (p : PortId) (new reason : Nat) : State :=
  let v := s.port p
  let now := s.stroke p.die
  let s := s.onPort p (fun v =>
    { v with state := new, lastChg := now, lastWhy := reason, losts := if new = 6 then v.losts + 1 else v.losts })
  let s := s.count p.die (cPort p.course.val p.idx.val)
  let s := if new = 6 then s.count p.die (cPort p.course.val p.idx.val + 4) else s
  s.postPort p 0x01 (v.state + 16 * new + 256 * reason)

/-- PORT_STATE (R70). -/
def Port.stateWord (v : Port) : Nat :=
  v.state + 8 * b2n v.hostPres + 16 * b2n v.linePres + 32 * (if v.linePres then v.kind else 0) + 256 * b2n v.lostSeg + 512 * b2n v.bad + 1024 * v.badRule

/-- PORT_LOCK (R70): the receivers of the port's positions that are locked. The spec does not say what it shows of positions
outside the profile, nor of an undefined or disabled index: 0 outside the profile, and the profile's own positions whatever the
port's state (DESIGN CHOICE, log entry 66). -/
def Die.lockWord (x : Die) (n : Nat) : Nat :=
  let c := n / 8
  let host := ((x.portHost n).filter (fun j => (x.slice (x.serving c .host j)).locked)).foldl (fun m j => m + 2 ^ j) 0
  let line :=
    if hasGearbox (x.cfga n) then
      ((x.portLine n).filter (fun v => (x.slice (x.serving c .line v)).locked)).foldl (fun m v => m + 2 ^ v) 0
    else
      ((x.portHost n).filter (fun j => (x.slice (x.serving c .line (x.lineFor n j))).locked)).foldl (fun m j => m + 2 ^ j) 0
  host + 256 * line

/-! ### Presence (R53, R54) -/

/-- The ports of course c, by key. -/
def coursePorts (c : Nat) : List Nat := (List.range 8).map (fun i => 8 * c + i)

/-- A segment of a port has a lane with signal detect asserted. -/
def Die.segSd (x : Die) (n : Nat) (h : Side) : Bool := (x.segPos n h).any (fun j => (x.slice (x.serving (n / 8) h j)).sd)

/-- Signal detect has been asserted without interruption for k strokes, at sc pos of a stroke (R23). -/
def Slice.sdFor (v : Slice) (pos k : Nat) : Bool := v.sd && 1280 * k + v.sdPos ≤ 1280 * v.sdStrokes + pos

/-- A lane of the segment has had signal detect for k consecutive strokes, at sc pos. -/
def Die.segSdFor (x : Die) (n : Nat) (h : Side) (pos k : Nat) : Bool :=
  (x.segPos n h).any (fun j => (x.slice (x.serving (n / 8) h j)).sdFor pos k)

def Port.pres (v : Port) : Side → Bool
  | .host => v.hostPres
  | .line => v.linePres

def Port.framed (v : Port) : Side → Bool
  | .host => v.hFrame
  | .line => v.lFrame

def Port.quiet (v : Port) : Side → Nat
  | .host => v.hQuiet
  | .line => v.lQuiet

def Port.quietAt (v : Port) : Side → Nat
  | .host => v.hQuietAt
  | .line => v.lQuietAt

/-- At sc pos signal detect or a frame is on the segment: the count of its absence begins anew (R53). -/
def Port.heard (v : Port) (h : Side) (pos : Nat) : Port :=
  match h with
  | .host => { v with hQuiet := 0, hQuietAt := pos }
  | .line => { v with lQuiet := 0, lQuietAt := pos }

/-- Set a segment's presence; LINE_KIND is UNKNOWN from presence until a frame arrives, and none with the segment
absent (R55). -/
def Port.setPres (v : Port) (h : Side) (on : Bool) : Port :=
  match h with
  | .host => { v with hostPres := on }
  | .line => { v with linePres := on, kind := if !on then 0 else if v.kind = 0 then 1 else v.kind }

/-- The presence level lets the line segment be present (R53). -/
def Die.prsAllows (x : Die) (n : Nat) (h : Side) : Bool :=
  h == .host || !prsEn (x.cfgb n) || (x.course (n / 8)).present

/-- A source makes the segment present at sc pos (R53). -/
def Die.seen (x : Die) (n : Nat) (h : Side) (pos : Nat) : Bool :=
  let b := x.cfgb n
  x.prsAllows n h && ((sdEn b && x.segSdFor n h pos 8) || (frameEn b && (x.port n).framed h)
    || (h == .line && prsEn b && !sdEn b && !frameEn b))

/-- The segment is to be absent at sc pos: 64 strokes without signal detect and frames, or the presence level (R53). -/
def Die.unseen (x : Die) (n : Nat) (h : Side) (pos : Nat) : Bool :=
  let v := x.port n
  !x.prsAllows n h || (!x.segSd n h && 1280 * 64 + v.quietAt h ≤ 1280 * v.quiet h + pos)

/-- The sc count of die d now: 1,280 × stroke + position. -/
def State.scNow (s : State) (d : DieId) : Nat := 1280 * s.stroke d + s.pos

/-- PRS_N of a course has kept its level without interruption for k strokes (R54). -/
def State.prsFor (s : State) (d : DieId) (c k : Nat) : Bool := ((s.die d).course c).prsAt + 1280 * k ≤ s.scNow d

/-- PRS_DB of a course in use (R54). -/
def Die.prsDb (x : Die) (c : Nat) : Nat := fld (x.act (oPrs c)) 5 0

/-- PRS_N changes within the stroke that ends (R54): where its level or, by an interruption, only its count begins anew
(log entry 65). -/
def State.prsChange (s : State) (o : PrsObs) : State :=
  let v := (s.die o.die).course o.course.val
  s.setCourse o.die o.course.val { v with prsRaw := o.low, prsAt := 1280 * s.stroke o.die + o.sc.val }

/-- PRS_ASSERTED (R54): PRS_N has been low for PRS_DB × 1,024 strokes, 16 where PRS_DB is 0; the debounced level asserts. -/
def execPrsAsserted (d : DieId) (c : CourseId) (s : State) : Result :=
  let v := (s.die d).course c.val
  let db := (s.die d).prsDb c.val
  .next (if present s.part d && s.running && !v.present && v.prsRaw && s.prsFor d c.val (if db = 0 then 16 else 1024 * db) then
    (s.setCourse d c.val { v with present := true }).postCourse d c.val 0x01 db
  else s)

/-- PRS_DEASSERTED (R54, R53): PRS_N has been high for 16 strokes; the level deasserts, and the line segments it gates are absent
at once. -/
def execPrsDeasserted (d : DieId) (c : CourseId) (s : State) : Result :=
  let v := (s.die d).course c.val
  .next (if present s.part d && s.running && v.present && !v.prsRaw && s.prsFor d c.val 16 then
    let s := (s.setCourse d c.val { v with present := false }).postCourse d c.val 0x02 0
    (coursePorts c.val).foldl (fun s n =>
      if ((s.die d).port n).enabled && prsEn ((s.die d).cfgb n) then s.onPort (portId d n) (fun v => v.setPres .line false) else s) s
  else s)

/-- SEGMENT_PRESENT (R53). -/
def execSegmentPresent (p : PortId) (h : Side) (s : State) : Result :=
  let x := s.die p.die
  .next (if present s.part p.die && s.running && (s.port p).enabled && !(s.port p).pres h && x.seen p.key h s.pos then
    s.onPort p (fun v => v.setPres h true)
  else s)

/-- SEGMENT_ABSENT (R53). -/
def execSegmentAbsent (p : PortId) (h : Side) (s : State) : Result :=
  let x := s.die p.die
  .next (if present s.part p.die && s.running && (s.port p).enabled && (s.port p).pres h && x.unseen p.key h s.pos then
    s.onPort p (fun v => v.setPres h false)
  else s)

/-! ### Port commands (R65 to R68) -/

/-- A port command on a defined port: an undefined one is BAD_TARGET. -/
def State.commandDefined (s : State) (k : Packet) (op : Nat) (body : State → PortId → State) : State :=
  s.commandPort k op (fun s p => if isDefined ((s.die p.die).cfgb p.key) then body s p else s.refuse k op stBadTarget)

/-- The profile PORT_DEFINE gives (R65): DEFINED is set by the device. -/
def Packet.profile (k : Packet) : Profile :=
  ⟨BitVec.ofNat 16 (k.w 4), BitVec.ofNat 16 (bits (k.w 4) 27 16 + 0x8000), BitVec.ofNat 16 (bits (k.w 5) 11 0),
   BitVec.ofNat 16 (bits (k.w 6) 11 0), BitVec.ofNat 16 (bits (k.w 6) 27 16)⟩

/-- PORT_DEFINE (R65). -/
def execPortDefine (k : Packet) (s : State) : Result :=
  .next (s.commandPort k 0x0101 (fun s p =>
    let x := s.die p.die
    let (c, i) := (p.course.val, p.idx.val)
    let f := Packet.profile k
    let rule := profileRule f (x.plannedOthers c i)
    if (s.port p).state ≠ 0 then s.refuse k 0x0101 stInUse
    else if rule ≠ 0 then s.refuse k 0x0101 stBadParam [rule]
    else s.commitAnswer k 0x0101 (8 + c)
      [(oCfga c i, f.a), (oCfgb c i, f.b), (oBudget c i, f.bu), (oMapLo c i, f.lo), (oMapHi c i, f.hi),
       (oPolh c i, BitVec.ofNat 16 (k.w 7)), (oPoll c i, BitVec.ofNat 16 (k.w 7 / 65536))]))

/-- PORT_ENABLE (R66). -/
def execPortEnable (k : Packet) (s : State) : Result :=
  .next (s.commandDefined k 0x0102 (fun s p =>
    let (c, i) := (p.course.val, p.idx.val)
    let rule := (s.die p.die).plannedRule c i
    if (s.port p).enabled then s.done k 0x0102 0 []
    else if rule ≠ 0 then s.refuse k 0x0102 stBadParam [rule]
    else s.commitAnswer k 0x0102 (8 + c) [(oPctl c i, 1)]))

/-- PORT_DISABLE (R66, R64). -/
def execPortDisable (k : Packet) (s : State) : Result :=
  .next (s.commandDefined k 0x0103 (fun s p =>
    let (c, i) := (p.course.val, p.idx.val)
    if !(s.port p).enabled then s.done k 0x0103 0 []
    else s.commitAnswer k 0x0103 (8 + c) [(oPctl c i, 0)]))

/-- PORT_STATUS reply data (R67). -/
def State.portStatus (s : State) (p : PortId) : List Nat :=
  let v := s.port p
  [ pair v.stateWord ((s.die p.die).lockWord p.key), sat32 (s.stroke p.die - v.lastChg),
    v.lastWhy + 256 * (if v.kind = 3 || v.kind = 4 then v.caps else 0) + 65536 * sat16 v.losts ]

/-- PORT_STATUS (R67). -/
def execPortStatus (k : Packet) (s : State) : Result :=
  .next (s.commandDefined k 0x0104 (fun s p => s.done k 0x0104 3 (s.portStatus p)))

/-- PORT_ATTACH_POLICY (R68): ATTACH alone is applied, at the next boundary. -/
def execPortAttachPolicy (k : Packet) (s : State) : Result :=
  .next (s.commandDefined k 0x0105 (fun s p =>
    if 2 ≤ k.w 4 then s.refuse k 0x0105 stBadParam
    else s.await k 0x0105 (s.stroke p.die + 1) (p.key * 2 + k.w 4)))

end Sys2Proof.Machine
end

