-- ==== Sys2Proof/Machine/Slices.lean ====
section
/-! DEFINITION. Receive slices (R73 to R106, R507): roles, adaptation, capo, detection, reacquisition and the slice
commands. Loss of lock and its port side are in Machine/Loss.lean. -/

namespace Sys2Proof.Machine

/-! ### Roles (R74, R104, R133) -/

/-- The self-test that isolates a slice (R420, R421: RX_FULL). -/
def Die.sliceTest (x : Die) (n : Nat) : Option Test := x.bist.tests.find? (fun t => t.isol && t.test == 1 && t.target == n)

/-- The work of one test in strokes (R421); TX_OBSERVE's is requested. -/
def testWork (t : Test) : Nat :=
  match t.test with
  | 1 => 11719
  | 2 => let w := t.packet.w 5; if w = 0 then 1024 else w
  | 3 => 2344
  | 4 => 660
  | 5 => 8789
  | 6 => 489
  | 7 => 196
  | 8 => 1024
  | 9 => 7813
  | _ => 0

/-- The estimated wait of BUSY_SELFTEST: the work remaining (R327, R425). -/
def Test.wait (t : Test) : Nat := testWork t - t.done

/-- RX_STAT.ROLE (R104, R133): 0 live, 1 sympathetic, 2 isolated for self-test, 3 parked. -/
def Die.role (x : Die) (n : Nat) : Nat :=
  if (x.sliceTest n).isSome then 2
  else match x.posOf n with
    | none => if (x.sideOf n).attached then 1 else 3
    | some _ => if (x.slicePort n).isSome then 0 else 3

/-- The slice is parked (R74). -/
def Die.parked (x : Die) (n : Nat) : Bool := x.role n == 3

/-- RX_PIN.PIN (R74, R104). -/
def Die.rxPin (x : Die) (n : Nat) : Nat :=
  match x.posOf n with
  | some j => pinOf (sliceCourse n) (sliceSide n) j
  | none =>
    let r := x.sideOf n
    if (x.sliceTest n).isNone && r.attached && !r.tap then pinOf (sliceCourse n) (sliceSide n) r.pos else 0x7F

/-- The equalisation mode in use: of the port for a live slice, of the attachment for the sympathetic one (R81). -/
def Die.sliceRh (x : Die) (n : Nat) : Bool :=
  match x.posOf n with
  | none => (x.sideOf n).attached && (x.sideOf n).mode
  | some _ => match x.slicePort n with
    | none => false
    | some p => isRh (x.cfga p.1)

/-- FFE taps of a slice (R80). -/
def taps (n : Nat) : Nat := if n < 72 then 48 else 64

/-- SNR_MIN: the lowest SNR_NOW of the last 1,024 strokes (R95). -/
def Slice.snrMin (v : Slice) : Nat := v.snrHist.foldl min v.snrNow

/-- RX_SNRTH.SNR_LOL of slice n in use. -/
def Die.snrLol (x : Die) (n : Nat) : Nat := fld (x.act (oRx n 0x1C)) 7 0

/-! ### Changing a slice -/

/-- Change a slice; CAPO_CHANGE is posted when the set of active capo sources changes (R106). -/
def State.onSlice (s : State) (d : DieId) (n : Nat) (f : Slice → Slice) : State :=
  let v := (s.die d).slice n
  let w := f v
  let s := s.setSlice d n w
  if v.capo = w.capo then s else s.postRx d n 0x09 (v.capo + 16 * w.capo)

/-- A lane's session runs on a pin: a session of its port on that segment, a single-lane session, or a phase session
(R97, R221, R238). -/
def Die.laneInSession (x : Die) (c : Nat) (h : Side) (j : Nat) : Bool :=
  let v := x.course c
  (match x.owner c h j with
    | none => false
    | some n => let p := x.port n; p.sess && (match h with | .host => p.hostRun | .line => p.lineRun))
  || (h == .line && v.lat.sess && v.lat.spos == j)
  || (h == .line && match v.gbx[j]? with | some g => g.phses | none => false)

/-- The slice serves a pin in a session. -/
def Die.inSession (x : Die) (n : Nat) : Bool :=
  match x.posOf n with
  | none => false
  | some j => x.laneInSession (sliceCourse n) (sliceSide n) j

/-- Precoding agreed for the transmitters of a segment (R108). -/
def Port.preTx (v : Port) : Side → Bool
  | .host => v.preTxH
  | .line => v.preTxL

/-- Precoding agreed for the receivers of a segment (R83). -/
def Port.preRx (v : Port) : Side → Bool
  | .host => v.preRxH
  | .line => v.preRxL

/-- RX_STAT.PRECODE (R83, R167): the slice decodes precoding. It does so where its lane carries data, and at a monitor tap where the
transmitter precodes; at N26 there is no precoding (R108). -/
def Die.rxPrecode (x : Die) (n : Nat) : Bool :=
  let c := sliceCourse n
  let h := sliceSide n
  let r := x.sideOf n
  let at_ := fun (j : Nat) (tap : Bool) => match x.owner c h j with
    | none => false
    | some p => let v := x.port p; 4 ≤ v.state && rate (x.cfga p) != 3 && (if tap then v.preTx h && (x.tx (txOf c h j)).mode == 0
                                                  else v.preRx h && !x.laneInSession c h j)
  match x.posOf n with
  | some j => at_ j false
  | none => r.attached && at_ r.pos r.tap

/-- RX_STAT (R104). -/
def Die.rxStat (x : Die) (n : Nat) : Nat :=
  let v := x.slice n
  b2n v.sd + 2 * b2n v.cdrLock + 4 * b2n v.locked + 8 * b2n v.converged + 16 * v.capo + 256 * b2n v.reacq
    + 512 * x.role n + 2048 * b2n (sliceSide n == .line) + 4096 * b2n (x.rxPrecode n) + 8192 * b2n (x.sliceRh n)

/-- The registers of a slice that adaptation and records change return to their committed values, FFE_MAIN of RX_ADAPT among
them (R97, R162). -/
def Die.committedRx (x : Die) (n : Nat) : Die :=
  let l := [oRx n 0x08, oRx n 0x0C, oRx n 0x10] ++ (List.range (taps n)).map (fun k => oFfe n k)
  let x := x.setAct (oRx n 0x14) (mergeMask (x.act (oRx n 0x14)) (x.led (oRx n 0x14)) (fmask 9 6))
  l.foldl (fun x o => x.setAct o (x.led o)) x

/-- A training session starts on the pin slice n serves, or its slice acquires afresh in one: committed register values, MU_ACQ,
CONVERGED cleared, a reacquisition ended (R86, R97, R162). H1 and H2 have no committed registers, and R97 does not say what they start
from: they keep what they hold (DESIGN CHOICE, log entry 71). -/
def State.acquireAfresh (s : State) (d : DieId) (n : Nat) : State :=
  (s.onDie d (fun x => x.committedRx n)).onSlice d n (fun v =>
    { v with acquiring := true, converged := false, convRun := 0, updates := 0, limits := [], limited := [],
             reacq := false, reacqOn := false, reacqFree := false, capoLoss := false, afresh := false })

/-- A slice lost in a session acquires afresh once signal detect is asserted; until then it waits, without a reacquisition (R97). -/
def State.lostInSession (s : State) (d : DieId) (n : Nat) : State :=
  if ((s.die d).slice n).sd then s.acquireAfresh d n
  else s.onSlice d n (fun v => { v with afresh := true, reacq := false, reacqOn := false, reacqFree := false, capoLoss := false })

/-- A training session starts on a pin: its record is invalid (R96), and the slice that serves it acquires afresh. -/
def State.sliceSession (s : State) (d : DieId) (c : Nat) (h : Side) (j : Nat) : State :=
  let s := s.onDie d (fun x => x.setPin (pinKey c h j) { x.pin (pinKey c h j) with valid := false })
  s.acquireAfresh d ((s.die d).serving c h j)

/-! ### Adaptation (R76, R77, R85 to R88) -/

/-- The 32-bit course offset key of a sub-ADC trim: OFFSET [5:0], GAIN [10:6], SKEW [15:11] (R104). -/
def Die.calTrim (x : Die) (n m : Nat) : Half := SMap.get 0 x.calLoaded (128 * n + m)

/-- A trim with a background correction on top of it, each field held in its range (R79). -/
def trimWith (v : Half) (k : AdcCorr) : Half :=
  let f := fun (x : Nat) (hi dl : Int) => (clamp ((x : Int) + dl) 0 hi).toNat
  setFld (setFld (setFld v 5 0 (f (fld v 5 0) 63 k.offset)) 10 6 (f (fld v 10 6) 31 k.gain)) 15 11 (f (fld v 15 11) 31 k.skew)

/-- The trim of sub-ADC m in use: the calibration trim with the background correction on top (R79). -/
def Die.trim (x : Die) (n m : Nat) : Half := trimWith (x.calTrim n m) (SMap.get {} (x.slice n).corr m)

/-- One background correction step over a calibration trim: each field by at most one LSB, the trim in its range (R85). -/
def corrStep (v : Half) (k : AdcCorr) (o g w : Int) : AdcCorr :=
  let f := fun (x : Nat) (hi was dl : Int) => clamp ((x : Int) + was + clamp dl (-1) 1) 0 hi - (x : Int)
  { offset := f (fld v 5 0) 63 k.offset o, gain := f (fld v 10 6) 31 k.gain g, skew := f (fld v 15 11) 31 k.skew w }

/-- The rate of the signal a slice works on, 4 being P425 (R78, R230): of the lane of its pin, or of its attachment's tap. -/
def Die.sliceRate (x : Die) (n : Nat) : Nat :=
  let c := sliceCourse n
  let h := sliceSide n
  let j := match x.posOf n with | some j => j | none => (x.sideOf n).pos
  match x.owner c h j with
  | none => 2
  | some p => if hasGearbox (x.cfga p) && h == .line then 4 else match rate (x.cfga p) with | 0 => 0 | 1 => 1 | 2 => 2 | _ => 3

/-- Active sub-ADCs of a slice at its rate (R78); the rest are powered down. Which of them convert is log entry 62: the first. -/
def Die.activeAdcs (x : Die) (n : Nat) : Nat :=
  match x.sliceRate n with
  | 0 => 16
  | 1 => 32
  | 2 => 64
  | 4 => 128
  | _ => 16

/-- Symbols a slice receives in a stroke at its rate (R51, R78, R202): 1,700 dc of 16, 32, 64 or 128; 26,400 bits at N26. -/
def Die.sliceSymbols (x : Die) (n : Nat) : Nat :=
  match x.sliceRate n with
  | 0 => 27200
  | 1 => 54400
  | 2 => 108800
  | 4 => 217600
  | _ => 26400

/-! ### The received signal (R80, R81, R145) -/

/-- The slice's rate is N26: its symbols are bits (R81). -/
def Die.sliceN26 (x : Die) (n : Nat) : Bool := x.sliceRate n == 3

/-- The FFE coefficients of a slice (R80). -/
def Die.ffeCoefs (x : Die) (n : Nat) : List Int := (List.range (taps n)).map (fun k => signed 12 (fld (x.act (oFfe n k)) 11 0))

/-- The equalised samples of a run of ADC samples, in ADC codes (R80). -/
def Die.equalised (x : Die) (n : Nat) (samples : List Int) : List Int :=
  (List.range samples.length).map (fun i => ffeSum (x.ffeCoefs n) (fld (x.act (oRx n 0x14)) 9 6) samples i / 512)

/-- The levels a slice decides for a run of ADC samples (R81): with the MLSE in RH mode, with slicer and DFE otherwise. -/
def Die.decides (x : Die) (n : Nat) (samples : List Int) : List Nat :=
  let y := x.equalised n samples
  let v := x.slice n
  let cursor := Config.cursor n
  if x.sliceRh n then mlseDecide cursor v.h1.toInt v.h2.toInt y
  else dfeDecide (x.sliceN26 n) cursor (signed 10 (fld (x.act (oRx n 0x10)) 9 0)) 0 y

/-- Four decisions a byte, the first in bits [1:0] (R145). -/
def packDecisions : List Nat → List Byte
  | a :: b :: c :: e :: l => BitVec.ofNat 8 (a + 4 * b + 16 * c + 64 * e) :: packDecisions l
  | _ => []

/-- What a capture records of a slice for a run of ADC samples (R145), which brings `taps n` samples before the first symbol recorded and
15 after the last, the reach of the FFE: CONTENT 0 the samples, 1 the FFE outputs, 2 the decisions. Samples and outputs are two's
complement codes (DESIGN CHOICE, log entry 77). -/
def Die.captured (x : Die) (n content : Nat) (samples : List Byte) : List Byte :=
  let v := samples.map (fun b => b.toInt)
  let part := fun {α : Type} (l : List α) => (l.drop (taps n)).take (samples.length - taps n - 15)
  if content = 0 then part samples
  else if content = 1 then part ((x.equalised n v).map (fun i => BitVec.ofInt 8 (clamp i (-128) 127)))
  else packDecisions (part (x.decides n v))

/-! ### The adaptation steps (R77, R86) -/

/-- VGA GAIN's step for the mean absolute ADC output of the stroke, in codes: towards 96, where it is not within 4 of it (R77). -/
def agcStep (mean : Nat) : Int := if mean < 92 then 1 else if 100 < mean then -1 else 0

/-- The LMS step: the correlation scaled by 2^−(8 + MU), towards 0 (R86). -/
def muStep (mu : Nat) (corr : Int) : Int := Int.tdiv corr (2 ^ (8 + mu))

/-- The MU code in use (R86). -/
def Die.mu (x : Die) (n : Nat) : Nat :=
  let ad := x.act (oRx n 0x14)
  if (x.slice n).acquiring then fld ad 3 2 else fld ad 5 4

/-- One adapted coefficient: an n-bit two's complement field moved by a step and held in its range. -/
def coefStep (n : Nat) (v : Nat) (dl : Int) : Nat :=
  unsigned n (clamp (signed n v + dl) (-(2 ^ (n - 1) : Int)) (2 ^ (n - 1) - 1))

/-- A two's complement coefficient of n bits stands at an end of its range. -/
def atEnd (n v : Nat) : Bool := v == 2 ^ (n - 1) || v == 2 ^ (n - 1) - 1

/-- A coefficient leaves its limit: its count begins anew, and it may be reported again (R87). -/
def Slice.offLimit (v : Slice) (id : Nat) : Slice :=
  { v with limits := SMap.del v.limits id, limited := v.limited.filter (fun i => i != id) }

/-- Note one adapted coefficient's update (R87): `was`, it stood at an end of its range before it, whatever had put it there; `now`, it
stands there after it. The count is that of consecutive updates at the end. -/
def Slice.atLimit (v : Slice) (id : Nat) (was now : Bool) : Slice :=
  let v := if was then v else v.offLimit id
  if now then { v with limits := SMap.put 0 v.limits id (SMap.get 0 v.limits id + 1) } else v.offLimit id

/-- The FFE taps after one update, from tap k on: the new registers, which of them were and are at an end, and the largest move. -/
def Die.ffeUpdate (x : Die) (n : Nat) (held : List Nat) : Nat → List Int → Die × List (Nat × Bool × Bool) × Nat
  | _, [] => (x, [], 0)
  | k, dl :: rest =>
    if taps n ≤ k then (x, [], 0)
    else
      let o := oFfe n k
      let old := fld (x.act o) 11 0
      let new := if held.contains k && atEnd 12 old then old else coefStep 12 old dl
      let r := Die.ffeUpdate (x.setAct o (BitVec.ofNat 16 new)) n held (k + 1) rest
      (r.1, (k, atEnd 12 old, atEnd 12 new) :: r.2.1, max (signed 12 new - signed 12 old).natAbs r.2.2)

/-- The background correction of a slice's active sub-ADCs after one update: three steps each, offset, gain and skew. -/
def Die.trimUpdate (x : Die) (n : Nat) : Nat → List Int → Slice → Slice
  | m, o :: g :: k :: rest, v =>
    if x.activeAdcs n ≤ m then v
    else Die.trimUpdate x n (m + 1) rest { v with corr := SMap.put {} v.corr m (corrStep (x.calTrim n m) (SMap.get {} v.corr m) o g k) }
  | _, _, v => v

/-- The update of a slice that the correlations name no step for: every step 0, the mean ADC output on its target (R77, R85). -/
def SliceUpdate.still : SliceUpdate :=
  { slice := 0, peak := 0, adc := 96, ffe := [], dfe := 0, h1 := 0, h2 := 0, trims := [] }

/-- One update of one slice by the tuning engine (R77, R85 to R87): each enabled parameter of its mode moves as the accumulated
correlations ask, scaled by the LMS step and within the step limits, but one reported by ADAPT_LIMIT is held while it stands at its
limit; the counts of CONVERGED and ADAPT_LIMIT follow. -/
def Die.tune (x : Die) (n : Nat) (u : SliceUpdate) : Die :=
  let v := x.slice n
  let rh := x.sliceRh n
  let ctle := x.act (oRx n 0x08)
  let vga := x.act (oRx n 0x0C)
  let ad := x.act (oRx n 0x14)
  let step := muStep (x.mu n)
  let held := fun (id : Nat) (was : Bool) => was && v.limited.contains id
  -- CTLE PEAK and VGA GAIN
  let peakOn := fld ctle 12 12 == 1
  let peakWas := fld ctle 5 0 == 0 || fld ctle 5 0 == 40
  let peak := if peakOn && 64 ≤ v.peakAge && !held 0x43 peakWas then (clamp ((fld ctle 5 0 : Int) + clamp u.peak (-1) 1) 0 40).toNat else fld ctle 5 0
  let gainOn := fld vga 6 6 == 1
  let gainWas := fld vga 5 0 == 0 || fld vga 5 0 == 63
  let gain := if gainOn && !held 0x44 gainWas then (clamp ((fld vga 5 0 : Int) + agcStep u.adc) 0 63).toNat else fld vga 5 0
  let x := (x.setAct (oRx n 0x08) (setFld ctle 5 0 peak)).setAct (oRx n 0x0C) (setFld vga 5 0 gain)
  let v := if peak = fld ctle 5 0 then v else { v with peakAge := 0 }
  let v := if peakOn then v.atLimit 0x43 peakWas (peak == 0 || peak == 40) else v
  let v := if gainOn then v.atLimit 0x44 gainWas (gain == 0 || gain == 63) else v
  -- FFE
  let ffeOn := fld ad 0 0 == 1
  let f := if ffeOn then x.ffeUpdate n v.limited 0 (u.ffe.map step) else (x, [], 0)
  let x := f.1
  let v := f.2.1.foldl (fun v p => v.atLimit p.1 p.2.1 p.2.2) v
  -- DFE, or H1 and H2
  let dfeOn := fld ad 1 1 == 1
  let old := fld (x.act (oRx n 0x10)) 9 0
  let dfe := if dfeOn && !rh && !held 0x40 (atEnd 10 old) then coefStep 10 old (step u.dfe) else old
  let x := x.setAct (oRx n 0x10) (BitVec.ofNat 16 dfe)
  let v := if dfeOn && !rh then v.atLimit 0x40 (atEnd 10 old) (atEnd 10 dfe) else v
  let (w1, w2) := (atEnd 16 v.h1.toNat, atEnd 16 v.h2.toNat)
  let h1 := if dfeOn && rh && !held 0x41 w1 then coefStep 16 v.h1.toNat (step u.h1) else v.h1.toNat
  let h2 := if dfeOn && rh && !held 0x42 w2 then coefStep 16 v.h2.toNat (step u.h2) else v.h2.toNat
  let v := if dfeOn && rh then (v.atLimit 0x41 w1 (atEnd 16 h1)).atLimit 0x42 w2 (atEnd 16 h2) else v
  let move := max (max f.2.2 (signed 10 dfe - signed 10 old).natAbs)
    (max (signed 16 h1 - v.h1.toInt).natAbs (signed 16 h2 - v.h2.toInt).natAbs)
  let v := x.trimUpdate n 0 u.trims { v with h1 := BitVec.ofNat 16 h1, h2 := BitVec.ofNat 16 h2 }
  -- convergence (R86)
  let still := (Int.natAbs ((v.snrNow : Int) - (v.snrAtUpd : Int)) < 2) && move ≤ 2
  x.setSlice n { v with convRun := if still then v.convRun + 1 else 0, updates := v.updates + 1, snrAtUpd := v.snrNow }

/-- A slice the tuning engine updates: neither parked nor capped, isolated for test or held for an eye scan (R85, R143). -/
def Die.tunable (x : Die) (n : Nat) : Bool :=
  let v := x.slice n
  x.role n < 2 && !v.capped && !v.held && (x.role n == 0 || (x.sideOf n).adapt)

/-- The pin record of the pin slice n serves is written when the slice is healthy, at once where it was never written (R96). R96
gives no time for the slice record: it is written with the pin record (DESIGN CHOICE, log entry 63). -/
def Die.pinRecord (x : Die) (n : Nat) (now : Nat) : Die :=
  match x.posOf n with
  | none => x
  | some j =>
    let v := x.slice n
    let key := pinKey (sliceCourse n) (sliceSide n) j
    if x.role n = 0 && v.locked && v.converged && !v.capped && x.snrWarn n ≤ v.snrNow
        && ((x.pin key).stroke = 0 || (x.pin key).stroke + 1024 ≤ now) then
      let r : PinRec := { valid := true, ctle := x.act (oRx n 0x08), vga := x.act (oRx n 0x0C), dfe := x.act (oRx n 0x10),
                          main := fld (x.act (oRx n 0x14)) 9 6, ffe := (List.range (taps n)).map (fun k => x.act (oFfe n k)),
                          h1 := v.h1, h2 := v.h2, freq := v.freq, snr := v.snrNow, stroke := now }
      (x.setPin key r).setSlice n { v with stored := v.corr }
    else x

/-- The slices of a course side, in ascending number. -/
def sideSlices (c : Nat) (h : Side) : List Nat := (List.range (sidePins h + 1)).map (sliceOf c h)

/-- Commands of op whose argument is a slice of this side: LANE_CAPO waits for the slice's tuning fret (R103). -/
def Await.capoOf (a : Await) (c : Nat) (h : Side) : Bool := a.op == 0x0203 && (sideSlices c h).contains (a.arg / 2)

/-- Answer a short command that waited, with its reply data; it is remembered and its record handed on (R325, R330). -/
def State.answer (s : State) (d : DieId) (a : Await) (status effect : Nat) (data : List Nat) : State :=
  let s := s.onDie d (fun x => { x with peg := { x.peg with awaits := x.peg.awaits.erase a } })
  s.finish a.packet a.op (mkRec a.packet status effect data) (s.stroke d - a.start)

/-- The HOST capo changes that LANE_CAPO commands wait for in this side's fret (R103). -/
def State.laneCapos (s : State) (d : DieId) (c : Nat) (h : Side) : State :=
  if !(s.die d).pegRuns then s
  else ((s.die d).peg.awaits.filter (fun a => a.capoOf c h)).foldl (fun s a =>
    let n := a.arg / 2
    let s := s.onSlice d n (fun v => { v with capoHost := a.arg % 2 == 1 })
    s.answer d a stDone 1 [((s.die d).slice n).capo + 256 * n]) s

/-- The tuning engine of die d runs: not isolated, its gate open (R85, R261, R284). -/
def Die.tuningRuns (x : Die) : Bool := !x.brg.isolated && !x.clk.gTune && !x.clk.gDie && !x.clk.fresh 2 8

/-- The tuning fret of a course side (R24). -/
def tuningFretOf (c : Nat) : Side → Nat
  | .host => 1 + 2 * c
  | .line => 2 + 2 * c

/-- The work order of a course side's fret: the slices left over by the stroke before first, less those that an overrun of this
stroke leaves over (R27). -/
def Die.tuningOrder (x : Die) (c : Nat) (h : Side) : List Nat :=
  let b := x.stroke
  let mine := sideSlices c h
  (mine.filter (fun n => b.left.contains n) ++ mine.filter (fun n => !b.left.contains n)).filter (fun n => !b.cut.contains n)

/-- The engine's work in a course side's fret (R85, R96): each slice of the order that is neither parked nor capped is updated,
one that the correlations name no step for by steps of 0, and the pin records are written. -/
def Die.tuneSide (x : Die) (c : Nat) (h : Side) (upd : List SliceUpdate) : Die :=
  let mine := sideSlices c h
  let now := x.stroke.count
  let x := (x.tuningOrder c h).foldl (fun x n =>
    if x.tunable n then x.tune n ((upd.find? (fun u => u.slice.val == n)).getD SliceUpdate.still) else x) x
  let x := mine.foldl (fun x n => x.pinRecord n now) x
  { x with stroke := { x.stroke with left := x.stroke.left.filter (fun n => !mine.contains n) } }

/-- TUNING_FRET (R26, R85, R96, R103): in the course side's fret, once in a stroke, LANE_CAPO changes take effect and the engine,
where it runs, updates the slices. -/
def execTuningFret (d : DieId) (c : CourseId) (side : Side) (upd : List SliceUpdate) (s : State) : Result :=
  let f := tuningFretOf c.val side
  .next (if present s.part d && s.running && s.fretOpen d f f then
    let s := ((s.toFret f).onDie d (fun x => x.didFret f)).laneCapos d c.val side
    if !(s.die d).tuningRuns then s else s.onDie d (fun x => x.tuneSide c.val side upd)
  else s)

/-- CONVERGED (R86): 256 qualifying updates; MU_TRK is used from then on. -/
def execConverged (d : DieId) (n : SliceId) (s : State) : Result :=
  let v := (s.die d).slice n.val
  .next (if present s.part d && s.running && !(s.die d).parked n.val && !v.converged && 256 ≤ v.convRun then
    (s.onSlice d n.val (fun v => { v with converged := true, acquiring := false })).postRx d n.val 0x04 (pair v.snrNow (sat16 v.updates))
  else s)

/-- ADAPT_LIMIT (R87): a coefficient has stood at its limit for 64 updates; it is held there and reported once. -/
def execAdaptLimit (d : DieId) (n : SliceId) (coef : Fin 69) (s : State) : Result :=
  let v := (s.die d).slice n.val
  .next (if present s.part d && s.running && 64 ≤ SMap.get 0 v.limits coef.val && !v.limited.contains coef.val then
    ((s.onSlice d n.val (fun v => { v with limited := coef.val :: v.limited })).count d (cRx n.val + 0x18)).postRx d n.val 0x06 coef.val
  else s)

/-! ### Detection and reacquisition (R92 to R98) -/

/-- The level that signal detect takes for a differential amplitude, in mVppd, that has held for 256 consecutive dc (R92): asserted
above SD_ASSERT, deasserted below SD_DEASSERT, each in steps of 4 mVppd, and as it was between. -/
def Die.sdLevel (x : Die) (n mv : Nat) : Bool :=
  let th := x.act (oRx n 0x18)
  if (x.slice n).sd then !decide (mv < 4 * fld th 11 6) else decide (4 * fld th 5 0 < mv)

/-- SD_CHANGE (R92): the differential amplitude at the input buffer of a slice that is not parked has been mv mVppd for 256 consecutive
dc, and signal detect changes if that lies beyond its threshold. A lane of a port has had it asserted until now (R53); a slice lost in a
session acquires afresh once it asserts (R97). -/
def execSdChange (d : DieId) (n : SliceId) (mv : BitVec 16) (s : State) : Result :=
  let level := (s.die d).sdLevel n.val mv.toNat
  .next (if present s.part d && s.running && (s.die d).role n.val < 2 && ((s.die d).slice n.val).sd != level then
    let pos := s.pos
    let s := s.onSlice d n.val (fun v =>
      if level then { v with sd := true, sdStrokes := 0, sdPos := pos }
      else { v with sd := false, sdStrokes := 0, cdrLock := false, good := false, sdLost := true })
    let s := if level then s else s.count d (cRx n.val + 4)
    let s := match (s.die d).slicePort n.val with
      | none => s
      | some p => s.onPort (portId d p.1) (fun v => v.heard (sliceSide n.val) pos)
    let s := if level && ((s.die d).slice n.val).afresh then s.acquireAfresh d n.val else s
    s.postRx d n.val 0x03 (b2n level)
  else s)

/-- Put the registers of a pin record into use in slice n: CTLE PEAK, SHAPE and DCGAIN, VGA GAIN, DFE, FFE_MAIN and the FFE
coefficients (R96). The adaptation enables beside them are the slice's own. -/
def Die.putRecord (x : Die) (n : Nat) (r : PinRec) : Die :=
  let x := x.setAct (oRx n 0x08) (mergeMask (x.act (oRx n 0x08)) r.ctle 0x0FFF)
  let x := x.setAct (oRx n 0x0C) (mergeMask (x.act (oRx n 0x0C)) r.vga 0x003F)
  let x := (x.setAct (oRx n 0x10) r.dfe).setAct (oRx n 0x14) (setFld (x.act (oRx n 0x14)) 9 6 r.main)
  ((List.range (taps n)).zip r.ffe).foldl (fun x p => x.setAct (oFfe n p.1) p.2) x

/-- Load what a reacquisition starts from: the pin record when it is valid, else the committed values; and the slice
record (R97 step 2). -/
def Die.loadRecord (x : Die) (n : Nat) : Die :=
  let v := x.slice n
  let r := match x.posOf n with
    | none => ({} : PinRec)
    | some j => x.pin (pinKey (sliceCourse n) (sliceSide n) j)
  if r.valid then
    (x.putRecord n r).setSlice n { v with h1 := r.h1, h2 := r.h2, freq := r.freq, corr := v.stored }
  else (x.committedRx n).setSlice n { v with corr := v.stored }

/-- The pin record of the pin slice n serves is valid. -/
def Die.recordValid (x : Die) (n : Nat) : Bool :=
  match x.posOf n with
  | none => false
  | some j => (x.pin (pinKey (sliceCourse n) (sliceSide n) j)).valid

/-- REACQ_START (R97 step 2, R98): at the side's tuning fret after signal detect returned, or after the window expired; the CDR
acquires from there (step 3). -/
def execReacqStart (d : DieId) (n : SliceId) (s : State) : Result :=
  let x := s.die d
  let v := x.slice n.val
  let f := tuningFretOf (sliceCourse n.val) (sliceSide n.val)
  .next (if present s.part d && s.running && x.role n.val == 0 && v.reacq && v.sd && !v.reacqOn && !x.inSession n.val
      && s.pos < 40 * (f + 1) then
    let s := s.toFret f
    let ok := x.recordValid n.val
    let s := s.onDie d (fun x => x.loadRecord n.val)
    let now := s.stroke d
    s.onSlice d n.val (fun v => { v with reacqOn := true, cdrLock := false, reacqRec := ok, acquiring := !ok || v.reacqFree, reacqFrom := now, updates := 0 })
  else s)

/-- RX_FREQ saturates at ±327.67 ppm (R104). -/
def satFreq (f : Half) : Half := if f = 0x8000 then 0x8001 else f

/-- CDR_LOCKED (R97 step 3): the CDR of a slice with signal detect locks; in a reacquisition, which it cannot precede, the LOSS
source clears. -/
def execCdrLocked (d : DieId) (n : SliceId) (freq : Half) (s : State) : Result :=
  let v := (s.die d).slice n.val
  .next (if present s.part d && s.running && (s.die d).role n.val < 2 && v.sd && !v.cdrLock && (!v.reacq || v.reacqOn) then
    s.onSlice d n.val (fun v =>
      { v with cdrLock := true, freq := satFreq freq, capoLoss := v.capoLoss && !v.reacqOn,
               acquiring := v.acquiring && !(v.reacqOn && v.reacqRec && !v.reacqFree) })
  else s)

/-- REACQ_DONE (R97 step 4). -/
def execReacqDone (d : DieId) (n : SliceId) (s : State) : Result :=
  let v := (s.die d).slice n.val
  .next (if present s.part d && s.running && v.reacq && v.reacqOn && v.locked then
    let s := s.onSlice d n.val (fun v => { v with reacq := false, reacqOn := false, reacqFree := false })
    (s.count d (cRx n.val + 8)).postRx d n.val 0x07 (sat16 (s.stroke d - v.reacqFrom) + 65536 * b2n v.reacqRec)
  else s)

/-- REACQ_FAILED (R98): the window expires; the slice restarts from step 2, which the side's next tuning fret takes, with MU_ACQ
and no time limit. -/
def execReacqFailed (d : DieId) (n : SliceId) (s : State) : Result :=
  let x := s.die d
  let v := x.slice n.val
  let win := fld (x.act (oRx n.val 0x24)) 9 0
  let now := s.stroke d
  .next (if present s.part d && s.running && v.reacq && v.reacqOn && !v.locked && !v.reacqFree && 0 < win
      && v.reacqFrom + win ≤ now then
    let s := s.onSlice d n.val (fun v =>
      { v with reacqFree := true, reacqOn := false, cdrLock := false, good := false, acquiring := true, converged := false, convRun := 0, reacqFrom := now, updates := 0 })
    (s.count d (cRx n.val + 0xC)).postRx d n.val 0x08 win
  else s)

/-- Write RX_CTL.CAPO_HOST (R90). -/
def State.capoHost (s : State) (d : DieId) (n : Nat) (level : Bool) : State := s.onSlice d n (fun v => { v with capoHost := level })

/-- CAPO_HOST_WRITE (R90). -/
def execCapoHostWrite (d : DieId) (n : SliceId) (level : Bool) (s : State) : Result :=
  .next (if present s.part d && s.running then s.capoHost d n.val level else s)

/-! ### Slice commands (R99 to R103) -/

/-- A PRBS check runs in slice n (R126). -/
def Die.checking (x : Die) (n : Nat) : Bool := x.peg.ops.any (fun o => o.opcode == 0x0503 && o.obj == n && o.phase != opOver)

/-- A handover, a sympathetic attachment or a PRBS check is in progress on the slice (R99, R329). -/
def Die.sliceBusy (x : Die) (n : Nat) : Bool :=
  let r := x.sideOf n
  x.checking n || if r.symp = sliceIndex n then r.attached || r.want == 1 || r.phase != 0
  else r.phase != 0 && x.posOf n == some r.wantPos

/-- A slice command (R99, R508): the slice resolved, busy slices and slices under test turned away. -/
def State.commandSlice (s : State) (k : Packet) (op : Nat) (body : State → Nat → State) : State :=
  s.command k op (fun s =>
    let x := s.die k.die
    match x.targetSlice k.target.toNat with
    | none => s.refuse k op stBadTarget
    | some n =>
      match x.sliceTest n with
      | some t => s.refuse k op stBusyTest [t.wait]
      | none => if x.sliceBusy n then s.refuse k op stBusy else body s n)

/-- The values LANE_EQ_SET stages (R100). A coefficient is the low 12 bits of its half-word: R100 names no answer where the upper 4 bits
are not its sign extension (DESIGN CHOICE, log entry 92). -/
def eqStages (k : Packet) (n : Nat) : List (Nat × Half) :=
  let w := k.w 4
  (if bit w 0 then [(oRx n 0x08, BitVec.ofNat 16 (k.w 5))] else [])
    ++ (if bit w 1 then [(oRx n 0x0C, BitVec.ofNat 16 (k.w 5 / 65536))] else [])
    ++ (if bit w 3 then [(oRx n 0x10, BitVec.ofNat 16 (k.w 6 / 65536))] else [])
    ++ (if bit w 4 then [(oRx n 0x14, BitVec.ofNat 16 (k.w 6))] else [])
    ++ (if bit w 2 then (List.range (taps n)).map (fun t =>
          (oFfe n t, BitVec.ofNat 16 ((if t % 2 = 0 then k.w (7 + t / 2) else k.w (7 + t / 2) / 65536) % 4096))) else [])

/-- Slice n carries a lane of a CARRYING or DEGRADED port (R101). -/
def Die.carries (x : Die) (n : Nat) : Bool :=
  match x.slicePort n with
  | none => false
  | some p => (x.port p.1).carrying

/-- LANE_EQ_SET (R100, R101). -/
def execLaneEqSet (k : Packet) (s : State) : Result :=
  .next (s.commandSlice k 0x0201 (fun s n =>
    let w := k.w 4
    let len := if bit w 2 then 7 + taps n / 2 else 7
    let badCode := bit w 0 && (40 < bits (k.w 5) 5 0 || 12 < bits (k.w 5) 11 8)
    if k.length.toNat ≠ len || bits w 7 5 ≠ 0 || 512 ≤ w then s.refuse k 0x0201 stBadParam
    else if (s.die k.die).carries n && !bit w 8 then s.refuse k 0x0201 stInUse
    else if badCode then s.refuse k 0x0201 stBadParam
    else s.commitAnswer k 0x0201 (8 + sliceCourse n) (eqStages k n) n))

/-- LANE_EQ_GET reply data (R102). -/
def Die.eqData (x : Die) (n : Nat) (ffe : Bool) : List Nat :=
  let r := fun o => (x.act (oRx n o)).toNat
  let v := x.slice n
  [ n + 256 * x.role n + 1024 * b2n (sliceSide n == .line) + 2048 * x.rxPin n,
    pair (r 0x08) (r 0x0C), pair (r 0x14) (r 0x10), pair v.snrNow v.snrMin, pair v.freq.toNat (x.rxStat n),
    pair v.h1.toNat v.h2.toNat ]
  ++ (if ffe then (List.range (taps n / 2)).map (fun m =>
        let c := fun t => unsigned 16 (signed 12 (fld (x.act (oFfe n t)) 11 0))
        pair (c (2 * m)) (c (2 * m + 1))) else [])

/-- LANE_EQ_GET (R102). -/
def execLaneEqGet (k : Packet) (s : State) : Result :=
  .next (s.commandSlice k 0x0202 (fun s n =>
    if 2 ≤ k.w 4 then s.refuse k 0x0202 stBadParam
    else
      let s := s.toFret 21
      s.done k 0x0202 3 ((s.die k.die).eqData n (k.w 4 == 1))))

/-- LANE_CAPO (R103): applied at the slice's next tuning fret; a change to what holds already is answered at once. -/
def execLaneCapo (k : Packet) (s : State) : Result :=
  .next (s.commandSlice k 0x0203 (fun s n =>
    let v := (s.die k.die).slice n
    if 2 ≤ k.w 4 then s.refuse k 0x0203 stBadParam
    else if v.capoHost = (k.w 4 == 1) then s.done k 0x0203 0 [v.capo + 256 * n]
    else s.await k 0x0203 (s.stroke k.die) (2 * n + k.w 4)))

end Sys2Proof.Machine
end

