-- ==== Sys2Proof/Machine/Transmit.lean ====
section
/-! DEFINITION. Transmitters (R107 to R130): effective modes, overrides, and PRBS checks. -/

namespace Sys2Proof.Machine

/-! ### Effective mode (R113, R114, R118) -/

/-- TX_CTL.MODE_OVR. -/
def Die.ovr (x : Die) (t : Nat) : Nat := fld (x.act (oTx t 0)) 1 0

/-- A normal session runs on the segment of a transmitter (R113 row 2). -/
def Port.runsOn (v : Port) : Side → Bool
  | .host => v.hostRun
  | .line => v.lineRun

/-- The transmitter sends frames: its port's session runs on its segment, or its lane has a single-lane or phase session
(R113 row 2, R221, R238). R113 row 2 names a TRAINING port only; that the single-lane and phase sessions of a carrying port come
before an override too, which is then held, is DEDUCED from R220 and R238 (log entry 70). -/
def Die.txTrains (x : Die) (t : Nat) : Bool :=
  (x.tx t).single || (match x.txPort t with
    | none => false
    | some n => let v := x.port n; v.state == 3 && v.sess && v.runsOn (txSide t))

/-- The lane of a transmitter is powered down (R113 row 1): in no enabled port, a protection lane that lattice does not
use, a driver disabled with VDDH (R466), or an isolated die. -/
def Die.txDown (x : Die) (t : Nat) : Bool :=
  x.brg.isolated || (match x.txPort t with
    | none => true
    | some n => txSide t == .line && txPos t == 8 && (x.port n).latUnav)

/-- The effective mode of a transmitter, and the row of R113 that decides it. -/
def Die.txMode (x : Die) (off : Bool) (t : Nat) : Nat × Nat :=
  let v := x.tx t
  let st := match x.txPort t with | none => 0 | some n => (x.port n).state
  if off || x.txDown t then (5, 1)
  else if x.txTrains t then (4, 2)
  else if x.ovr t ≠ 0 then ((match x.ovr t with | 1 => 3 | 2 => 2 | _ => 1), 3)
  else if st = 1 || st = 2 || st = 3 then (2, 4)
  else if v.lossAct = 1 then (2, 5)
  else if v.lossAct = 2 then (1, 5)
  else (0, 6)

/-- The receiver slice that feeds a transmitter (R62, R118, R235): the other segment's slice of its lane; of a pair, the first. The
spec names none for the protection lane: it has none, and its TX_FREQ in DATA reads 0 (DESIGN CHOICE, log entry 70). -/
def Die.feeder (x : Die) (t : Nat) : Option Nat :=
  match x.txPort t with
  | none => none
  | some n =>
    match txSide t with
    | .host => some (x.serving (n / 8) .line (x.lineFor n (txPos t)))
    | .line => (x.hostsFor n (txPos t)).head?.map (fun j => x.serving (n / 8) .host j)

/-- TX_FREQ (R118): the feeding CDR's offset in DATA, 0 in PATTERN and TRAIN. In SQUELCH, DRONE and OFF it reads the offset last held
on leaving DATA; R118 says so of a loss action only (DESIGN CHOICE for the others, log entry 70). -/
def Die.txFreq (x : Die) (t : Nat) : Half :=
  match (x.tx t).mode with
  | 0 => (match x.feeder t with | none => 0 | some n => (x.slice n).freq)
  | 3 => 0
  | 4 => 0
  | _ => (x.tx t).freq

/-- Polarity inversion is in use at a transmitter (R108); the protection lane's is LAT_CFG.PROT_TX_INV (R210). -/
def Die.txInv (x : Die) (t : Nat) : Bool :=
  match x.txPort t with
  | none => false
  | some n =>
    match txSide t with
    | .host => bit (x.act (oPolh (n / 8) (n % 8))).toNat (8 + txPos t)
    | .line =>
      if txPos t = 8 then fld (x.act (oLat (n / 8))) 12 12 == 1
      else
        let b := if hasGearbox (x.cfga n) then some (txPos t) else (x.hostsFor n (txPos t)).head?
        match b with
        | none => false
        | some j => bit (x.act (oPoll (n / 8) (n % 8))).toNat (8 + j)

/-- The course side's sympathetic slice listens at the monitor tap of transmitter t (R121, TX_STAT.TAP_OBS). -/
def Die.tapped (x : Die) (t : Nat) : Bool :=
  let r := (x.course (txCourse t)).side (txSide t)
  r.attached && r.tap && r.pos == txPos t

/-- TX_STAT.PRECODE (R108, R117, R167): precoding is in use in DATA only, and never at N26. -/
def Die.txPrecode (x : Die) (t : Nat) : Bool :=
  (x.tx t).mode == 0 && (match x.txPort t with
    | none => false
    | some n => rate (x.cfga n) != 3 && (x.port n).preTx (txSide t))

/-- Polarity inversion is in use at the receive pin of a lane (R83); the protection lane's is LAT_CFG.PROT_RX_INV (R210). -/
def Die.rxInv (x : Die) (c : Nat) (h : Side) (j : Nat) : Bool :=
  match x.owner c h j with
  | none => false
  | some n =>
    match h with
    | .host => bit (x.act (oPolh (n / 8) (n % 8))).toNat j
    | .line =>
      if j = 8 then fld (x.act (oLat c)) 11 11 == 1
      else
        let b := if hasGearbox (x.cfga n) then some j else (x.hostsFor n j).head?
        match b with
        | none => false
        | some i => bit (x.act (oPoll (n / 8) (n % 8))).toNat i

/-- TX_STAT (R128). -/
def Die.txStat (x : Die) (t : Nat) : Nat :=
  let v := x.tx t
  v.mode + 8 * b2n (x.txPrecode t) + 16 * b2n (x.txInv t) + 32 * b2n v.held + 64 * b2n v.ilim + 128 * b2n (x.tapped t)

/-- The transmitter's symbols are bits: its segment runs at N26 (R108). -/
def Die.txN26 (x : Die) (t : Nat) : Bool :=
  match x.txPort t with
  | none => false
  | some n => rate (x.cfga n) == 3

/-- Symbols a transmitter sends in a stroke (R51, R78): 1,700 dc of 16, 32 or 64, at P425 of 128; 26,400 bits at N26. -/
def Die.txSymbols (x : Die) (t : Nat) : Nat :=
  match x.txPort t with
  | none => 0
  | some n =>
    if hasGearbox (x.cfga n) && txSide t == .line then 217600
    else match rate (x.cfga n) with | 0 => 27200 | 1 => 54400 | 2 => 108800 | _ => 26400

/-- PAT_SEL of the pattern a transmitter sends: of TX_CTL in PATTERN, PRBS13Q in DRONE (R117). -/
def Die.patSel (x : Die) (t mode : Nat) : Nat := if mode = 3 then fld (x.act (oTx t 0)) 4 2 else 2

/-- The port's host position of a transmitter, by which DECORR advances its generator (R116): of a line transmitter the host position
whose data it carries; the protection lane carries none. Of the two that a gearbox line transmitter carries R116 names neither: the first
(DESIGN CHOICE, log entry 93). -/
def Die.decorrPos (x : Die) (t : Nat) : Nat :=
  match x.txPort t with
  | none => 0
  | some n => match txSide t with
    | .host => txPos t
    | .line => ((x.hostsFor n (txPos t)).head?).getD 0

/-- Symbols by which a generator starts advanced (R116). -/
def Die.genAdvance (x : Die) (t mode : Nat) : Nat :=
  let w := x.act (oTx t 0)
  let sel := fld w 4 2
  if mode = 3 && fld w 5 5 = 1 && sel < 4 then x.decorrPos t * 1024 % prbsPeriod sel else 0

/-- The level of symbol i that a transmitter's pattern or drone generator sends from its start (R116, R117). -/
def Die.genLevel (x : Die) (t mode i : Nat) : Nat :=
  patternLevel (x.txN26 t) (x.patSel t mode) (x.tx t).genAdv (fld (x.act (oTx t 0)) 10 6)
    ((List.range 8).map (fun m => x.act (oTx t (0x40 + 4 * m)))) i

/-- The level of symbol i that a transmitter in PATTERN or DRONE sends: the generator's, with its polarity (R108, R117). -/
def Die.genSent (x : Die) (t mode i : Nat) : Nat := invert (x.txN26 t) (x.txInv t) (x.genLevel t mode i)

/-- The levels a transmitter in DATA sends for the values that the lane map gives it (R108). -/
def Die.sends (x : Die) (t : Nat) (values : List Nat) : List Nat :=
  sendLevels (x.txN26 t) (x.txPrecode t) (x.txInv t) (x.tx t).prev values

/-- What the line transmitter of a gearbox lane in DATA sends for one word of each of its two host positions (R231). -/
def Die.sendsPair (x : Die) (t : Nat) (even odd : List Nat) : List Nat := x.sends t (interleave even odd)

/-- The output of a transmitter for one symbol, in 1/11,904 mV (R110): its swing and its taps in use; `levels` from the symbol 3 places
later to the one 2 places earlier. -/
def Die.drives (x : Die) (t : Nat) (levels : List Nat) : Int :=
  driveOut (fld (x.act (oTx t 4)) 4 0)
    ((List.range 6).map (fun k => let v := fld (x.act (oTap t k)) 6 0; if k = 3 then (v : Int) else signed 7 v)) levels

/-- The values a slice that serves a pin hands to the lane map for the levels it decided (R83). -/
def Die.hears (x : Die) (n : Nat) (levels : List Nat) : List Nat :=
  let inv := match x.posOf n with | some j => x.rxInv (sliceCourse n) (sliceSide n) j | none => false
  receiveValues (x.sliceN26 n) (x.rxPrecode n) inv (x.slice n).prev levels

/-- The values of a gearbox line word, parted for the two host transmitters of its pair by the lane's symbol phase (R232). -/
def Die.hearsPair (x : Die) (n : Nat) (odd : Bool) (levels : List Nat) : List Nat × List Nat := deinterleave odd (x.hears n levels)

/-- The level that a pattern or drone generator sent last at the boundary that opens stroke `now`. -/
def Die.genLast (x : Die) (t mode now : Nat) : Nat :=
  x.genLevel t mode ((now - (x.tx t).genFrom) * x.txSymbols t - 1)

/-- A transmitter takes the effective mode the table gives (R113, R115): a change is counted and posted. An override under
a session is held (R114); a driver that powers down releases its current limit. A generator starts with its mode (R116), and a
precoder that goes back to DATA from a generator continues from its last level (R167). A commit that changes PAT_SEL or DECORR under a
generator leaves its start and its advance: R116 starts one at its mode's entry only (DESIGN CHOICE, log entry 94). -/
def State.refreshTx (s : State) (d : DieId) (t : Nat) : State :=
  let x := s.die d
  let v := x.tx t
  let m := x.txMode s.vddhOff t
  let now := s.stroke d
  let gen := fun (k : Nat) => k == 1 || k == 3
  let start := gen m.1 && v.mode != m.1
  let pre := match x.txPort t with | none => false | some n => (x.port n).preTx (txSide t)
  let w := { v with mode := m.1, held := m.1 == 4 && x.ovr t != 0, ilim := v.ilim && m.1 != 5, limRun := if m.1 = 5 then 0 else v.limRun,
                    freq := if v.mode = 0 && m.1 ≠ 0 then x.txFreq t else v.freq,
                    genFrom := if start then now else v.genFrom, genAdv := if start then x.genAdvance t m.1 else v.genAdv,
                    prev := if pre && m.1 = 0 && gen v.mode then x.genLast t v.mode now else v.prev }
  let s := s.setTx d t w
  if v.mode = m.1 then s
  else (s.count d (cTx t)).postTx d t 0x01 (v.mode + 16 * m.1 + 256 * m.2)

/-- Every transmitter of a die takes its effective mode. -/
def State.refreshDie (s : State) (d : DieId) : State := (List.range 136).foldl (fun s t => s.refreshTx d t) s

/-- The current limits of a die over the stroke that ended (R122, R128): the strokes each has been engaged, and ILIM of those that
are not engaged any more. -/
def State.limitsAt (s : State) (d : DieId) (on : List Nat) : State :=
  s.onDie d (fun x =>
    let all := (on ++ (x.txs.filter (fun p => p.2.ilim || p.2.limRun != 0)).map (·.1)).dedup
    all.foldl (fun x t =>
      let v := x.tx t
      if on.contains t && v.mode != 5 then x.setTx t { v with limRun := min 16 (v.limRun + 1) }
      else x.setTx t { v with limRun := 0, ilim := false }) x)

/-- DRIVER_LIMIT (R122): the current limit has been engaged for 16 strokes. -/
def execDriverLimit (d : DieId) (t : TxId) (s : State) : Result :=
  let v := (s.die d).tx t.val
  .next (if present s.part d && s.running && !v.ilim && v.mode != 5 && 16 ≤ v.limRun then
    ((s.setTx d t.val { v with ilim := true }).count d (cTx t.val + 0xC)).postTx d t.val 0x04 v.mode
  else s)

/-! ### TX_SET and TX_PATTERN (R111, R123, R124) -/

/-- The taps of TX_SET words 6 and 7, as 8-bit signed values; c(0) unsigned. -/
def setTaps (k : Packet) : List Int :=
  let b := fun w i => bits (k.w w) (8 * i + 7) (8 * i)
  [signed 8 (b 6 0), signed 8 (b 6 1), signed 8 (b 6 2), (b 6 3 : Int), signed 8 (b 7 0), signed 8 (b 7 1)]

/-- A tap set is valid (R111). -/
def tapsValid (l : List Int) : Bool :=
  (l.map Int.natAbs).sum ≤ 64 && (List.range 6).all (fun i =>
    let c := (l[i]?).getD 0
    if i = 3 then 0 ≤ c && c ≤ 64 else -64 ≤ c && c ≤ 63)

/-- The state of the port that owns a transmitter; 0 with none. -/
def Die.txPortState (x : Die) (t : Nat) : Nat := match x.txPort t with | none => 0 | some n => (x.port n).state

/-- TX_SET (R123). -/
def execTxSet (k : Packet) (s : State) : Result :=
  .next (s.command k 0x0204 (fun s =>
    let t := k.target.toNat
    let w := k.w 4
    let st := (s.die k.die).txPortState t
    if 136 ≤ t then s.refuse k 0x0204 stBadTarget
    else if bits w 7 2 ≠ 0 || 512 ≤ w || 32 ≤ k.w 5 || 65536 ≤ k.w 7 then s.refuse k 0x0204 stBadParam
    else if bit w 1 && !tapsValid (setTaps k) then s.refuse k 0x0204 stBadParam
    else if st = 3 then s.refuse k 0x0204 stInUse
    else if 4 ≤ st && !bit w 8 then s.refuse k 0x0204 stInUse
    else s.commitAnswer k 0x0204 (8 + txCourse t)
      ((if bit w 0 then [(oTx t 4, BitVec.ofNat 16 (k.w 5))] else [])
        ++ (if bit w 1 then (List.range 6).map (fun i => (oTap t i, BitVec.ofNat 16 (unsigned 7 (((setTaps k)[i]?).getD 0)))) else []))))

/-- The transmitters of a segment of port n's profile, the protection lane's with the line's (R124). -/
def Die.profileTxs (x : Die) (n : Nat) : Side → List Nat
  | .host => (x.portHost n).map (txOf (n / 8) .host)
  | .line => (x.portLine n).map (txOf (n / 8) .line) ++ (if hasLattice (x.cfga n) then [txOf (n / 8) .line 8] else [])

/-- The transmitters a TX_PATTERN names (R124): none for a bad target. A defined port's are those of its profile, though it is disabled. -/
def patternTargets (s : State) (k : Packet) : Option (List Nat) :=
  let w := k.target.toNat
  let rest := w % 2 ^ 30
  if w / 2 ^ 30 = 0 then (if rest < 136 then some [rest] else none)
  else if w / 2 ^ 30 = 1 then
    match portOf s k rest with
    | none => none
    | some p =>
      let x := s.die k.die
      let host := x.profileTxs p.key .host
      let line := x.profileTxs p.key .line
      if !isDefined (x.cfgb p.key) then some []
      else some (match bits (k.w 4) 12 11 with | 0 => host | 1 => line | _ => host ++ line)
  else none

/-- TX_PATTERN (R124). An undefined port names no transmitter: its release answers DONE and stages nothing. Word 4
[12:11] is for the port form: the transmitter form ignores it (DESIGN CHOICE, log entry 70). -/
def execTxPattern (k : Packet) (s : State) : Result :=
  .next (s.command k 0x0205 (fun s =>
    let x := s.die k.die
    let w := k.w 4
    let pat := bits w 4 2
    let port := k.target.toNat / 2 ^ 30 == 1
    match patternTargets s k with
    | none => s.refuse k 0x0205 stBadTarget
    | some l =>
      if k.length.toNat ≠ (if pat = 5 then 9 else 5) || 2 ^ 14 ≤ w || 6 ≤ pat || (port && bits w 12 11 = 3) then s.refuse k 0x0205 stBadParam
      else if bits w 1 0 ≠ 0 && (l.isEmpty || l.any (fun t => (x.tx t).mode == 5 || (x.txPort t).isNone)) then s.refuse k 0x0205 stNotReady
      else if bits w 1 0 ≠ 0 && !bit w 13 && l.any (fun t => x.txPortState t == 4 || x.txPortState t == 5) then s.refuse k 0x0205 stInUse
      else if l.isEmpty then s.done k 0x0205 0 [5]
      else
        let first := (l.head?).getD 0
        let one := fun t => (oTx t 0, BitVec.ofNat 16 (bits w 10 0)) ::
          (if pat = 5 then (List.range 8).map (fun m => (oTx t (0x40 + 4 * m), BitVec.ofNat 16 (if m % 2 = 0 then k.w (5 + m / 2) else k.w (5 + m / 2) / 65536))) else [])
        s.commitAnswer k 0x0205 (8 + txCourse first) (l.flatMap one) first))

/-! ### PRBS checks (R125 to R127) -/

/-- Attach the sympathetic slice of a side at the next boundary (R141, R148). -/
def State.attachNext (s : State) (d : DieId) (c : Nat) (h : Side) (pos : Nat) (tap mode : Bool) (start owner : Nat) (adapt : Bool) : State :=
  let r := ((s.die d).course c).side h
  s.setSide d c h { r with
    want := 1, wantPos := pos, wantTap := tap, wantMode := mode, wantStart := start, wantOwner := owner, wantAdapt := adapt }

/-- Symbols a lane carries in one stroke: 1,700 words, or 264 bits in 17 dc at N26 (R78, R138, R202). -/
def Die.strokeSymbols (x : Die) (c : Nat) (h : Side) (j : Nat) : Nat :=
  match x.owner c h j with
  | none => 108800
  | some n =>
    if hasGearbox (x.cfga n) && h == .line then 217600
    else match rate (x.cfga n) with | 0 => 27200 | 1 => 54400 | 2 => 108800 | _ => 26400

/-- Park the sympathetic slice of a side at the next boundary (R141, R149). -/
def State.parkNext (s : State) (d : DieId) (c : Nat) (h : Side) : State :=
  let r := ((s.die d).course c).side h
  s.setSide d c h { r with want := 2 }

/-- PRBS_CHECK (R125, R126). -/
def execPrbsCheck (k : Packet) (s : State) : Result :=
  .next (s.command k 0x0503 (fun s =>
    let x := s.die k.die
    let w := k.target.toNat
    let rest := w % 2 ^ 30
    let bad := 4 ≤ k.w 4 || k.w 5 = 0 || 2 ^ 24 ≤ k.w 5
    if w / 2 ^ 30 = 3 then
      let c := txCourse rest
      let h := txSide rest
      let n := x.sympSlice c h
      let r := (x.course c).side h
      if 136 ≤ rest then s.refuse k 0x0503 stBadTarget
      else if bad then s.refuse k 0x0503 stBadParam
      else if (x.tx rest).mode = 5 || (x.slice n).retired then s.refuse k 0x0503 stNotReady
      else match x.sliceTest n with
        | some t => s.refuse k 0x0503 stBusyTest [t.wait]
        | none =>
          if r.attached || r.want = 1 || r.phase ≠ 0 || x.checking n then s.refuse k 0x0503 stBusy
          else s.start k 0x0503 1 n [0] (fun s => s.attachNext k.die c h (txPos rest) true false 0 5 true)
    else match x.targetSlice w with
      | none => s.refuse k 0x0503 stBadTarget
      | some n =>
        if bad then s.refuse k 0x0503 stBadParam
        else match x.sliceTest n with
          | some t => s.refuse k 0x0503 stBusyTest [t.wait]
          | none =>
            if x.parked n then s.refuse k 0x0503 stNotReady
            else if x.checking n then s.refuse k 0x0503 stBusy
            else s.accept k 0x0503 1 n [0]))

/-- The PRBS check that runs in slice n. -/
def Die.check? (x : Die) (n : Nat) : Option Op := x.peg.ops.find? (fun o => o.opcode == 0x0503 && o.obj == n && o.phase != opOver)

/-- PRBS_CHECK_LOCK (R127): the first lock, within 1,024 strokes; counting starts at the next boundary. -/
def execPrbsCheckLock (d : DieId) (n : SliceId) (s : State) : Result :=
  .next (match (s.die d).check? n.val with
    | none => s
    | some o =>
      if s.running && o.phase = 0 && !(s.die d).parked n.val && s.stroke d < o.start + 1024 then
        s.onDie d (fun x => x.mapOps (fun z => z == o) (fun z => { z with phase := 1, from_ := s.stroke d + 1 }))
      else s)

/-- PRBS_CHECK_RELOCK (R127): lock is lost and the checker seeds again. -/
def execPrbsCheckRelock (d : DieId) (n : SliceId) (s : State) : Result :=
  .next (match (s.die d).check? n.val with
    | none => s
    | some o =>
      if s.running && o.phase = 1 then
        s.onDie d (fun x => x.mapOps (fun z => z == o) (fun z => { z with data := [(z.data.head?).getD 0 + 1] }))
      else s)

/-- PRBS_CHECK final reply data (R127). -/
def checkData (o : Op) (symbols bitErrs symErrs : Nat) : List Nat :=
  let relocks := (o.data.head?).getD 0
  let lock := if o.phase = 0 then 0 else if relocks = 0 then 1 else 2
  [ lock + 256 * o.obj + 65536 * sat16 relocks, symbols % 4294967296, symbols / 4294967296,
    bitErrs % 4294967296, bitErrs / 4294967296, symErrs ]

/-- The operation checks a transmitter through its tap (R125). -/
def Op.byTap (o : Op) : Bool := o.packet.target.toNat / 2 ^ 30 == 3

/-- Symbols a check compares in n strokes (R127): every symbol while it is locked, so all of them where it never seeded again;
`seen` with relocks. -/
def Die.checkCompared (x : Die) (o : Op) (n seen : Nat) : Nat :=
  let all := n * x.sliceSymbols o.obj
  if (o.data.head?).getD 0 = 0 then all else min seen all

/-- End a check; one through a monitor tap gives the sympathetic slice back. -/
def State.endCheck (s : State) (d : DieId) (o : Op) (status : Nat) (data : List Nat) : State :=
  let s := if o.byTap then s.parkNext d (sliceCourse o.obj) (sliceSide o.obj) else s
  s.conclude d o status 3 data

/-- A check is cut off (R127): it ends with the counts reached. No row tells how far they have come, so they are free values
within what the lane can have carried (log entry 4). -/
def State.checkCut (s : State) (d : DieId) (o : Op) (status : Nat) : State :=
  if o.phase = 0 then s.endCheck d o status (checkData o 0 0 0)
  else
    let (a, s) := s.takeFree
    let (b, s) := s.takeFree
    let (e, s) := s.takeFree
    let (f, s) := s.takeFree
    let n := (s.die d).checkCompared o (s.stroke d - o.from_) (a.toNat + b.toNat * 4294967296)
    let bad := min e.toNat n
    s.endCheck d o status (checkData o n (bad + min f.toNat bad) bad)

/-- PRBS_CHECK_END (R127): the duration has run, or 1,024 strokes have passed without a first lock. -/
def execPrbsCheckEnd (d : DieId) (n : SliceId) (symbols bitErrs : BitVec 64) (symErrs : Word) (s : State) : Result :=
  .next (match (s.die d).check? n.val with
    | none => s
    | some o =>
      let now := s.stroke d
      if !s.running then s
      else if o.phase = 1 && o.from_ + o.packet.w 5 ≤ now then
        s.endCheck d { o with position := 1000 } stDone (checkData o ((s.die d).checkCompared o (o.packet.w 5) symbols.toNat) bitErrs.toNat symErrs.toNat)
      else if o.phase = 0 && o.start + 1024 ≤ now then s.endCheck d o stTimeout (checkData o 0 0 0)
      else s)

end Sys2Proof.Machine
end

