-- ==== Sys2Proof/Machine/Testing.lean ====
section
/-! DEFINITION. What self-tests share (R420 to R431): parking and re-initialising slices, spares, result records, and the
end of a test. The rows of the chapter are in Machine/Bist.lean. -/

namespace Sys2Proof.Machine

/-! ### Parking and re-initialising a slice (R74, R420) -/

/-- A slice that parks: signal detect, lock detection and the SNR estimator stop; configuration and trims stay (R74). -/
def Slice.park (v : Slice) : Slice :=
  { v with
    sd := false, cdrLock := false, locked := false, converged := false, acquiring := true, capoHo := false,
    capoLoss := false, reacq := false, reacqOn := false, reacqFree := false, sdLost := false, snrNow := 0, snrHist := [],
    warnArmed := false, warnGood := 0, good := false, sdStrokes := 0, sdPos := 0, convRun := 0, updates := 0,
    limits := [], limited := [], held := false, freq := 0, mean := 0 }

/-- Park slice n of die d. -/
def State.parkSlice (s : State) (d : DieId) (n : Nat) : State := s.onSlice d n Slice.park

/-- The configuration registers of a slice. -/
def rxRegs (n : Nat) : List Nat :=
  [0x08, 0x0C, 0x10, 0x14, 0x18, 0x1C, 0x20, 0x24].map (oRx n) ++ (List.range (taps n)).map (oFfe n)

/-- Re-initialise slice n: configuration from the ledger, CAL fields from the calibration table, sub-ADC corrections from
the slice record (R420). -/
def State.reinitSlice (s : State) (d : DieId) (n : Nat) : State :=
  let s := s.loadCalSlice d n
  let s := s.onDie d (fun x => (rxRegs n).foldl (fun x o => x.setAct o (x.led o)) x)
  s.onSlice d n (fun v => { v.park with h1 := 0, h2 := 0, corr := v.stored, capoHost := false })

/-! ### Macros and spares (R430, R431) -/

/-- Spare rows and columns of a macro: 64 KiB macros are pegbox and stored-state ones (R421, R430). -/
def macSpares (m : Nat) : Nat × Nat := if macClass m < 2 then (4, 2) else (1, 1)

/-- Repairs in effect on a macro. -/
def Die.repairs (x : Die) (m : Nat) : List Nat :=
  ((x.bist.fuseMap ++ x.bist.soft).filter (fun p => p.1 == m)).map (·.2) |>.dedup

/-- Spare rows and columns a macro has used. -/
def Die.sparesUsed (x : Die) (m : Nat) : Nat × Nat :=
  let l := x.repairs m
  ((l.filter (fun v => v < 65536)).length, (l.filter (fun v => 65536 ≤ v)).length)

/-- A spare of the kind a row or column needs is free (a column has bit 16 set). -/
def Die.spareFree (x : Die) (m v : Nat) : Bool :=
  (x.repairs m).contains v ||
    (if v < 65536 then (x.sparesUsed m).1 < (macSpares m).1 else (x.sparesUsed m).2 < (macSpares m).2)

/-- Apply a soft repair: counted and posted (R431, R439, R440). `nv`: it is recorded in NV too. -/
def State.softRepair (s : State) (d : DieId) (m v : Nat) (nv : Bool) : State :=
  let s := s.onDie d (fun x =>
    { x with bist := { x.bist with soft := if x.bist.soft.contains (m, v) then x.bist.soft else x.bist.soft ++ [(m, v)] } })
  (s.count d (cBist + 0x14)).post d 425 0x01 (m + (if v < 65536 then 0 else 65536) + 131072 * b2n nv)

/-- The repair records and retirements of die d in both mirrors (R429, R431, R484): one word each in the repair region. -/
def State.nvRepair (s : State) (d : DieId) (r : Option (Nat × Nat)) (ret : Option Nat) : State :=
  let m := s.nvMaster d
  let o := s.mirrorOf m
  let off := 0x81000 + 8 * (((s.die m).nvs.repairs.length + (s.die m).nvs.retire.length) % 8192)
  let word := match r, ret with
    | some p, _ => 2 ^ 63 + d.val * 2 ^ 56 + p.1 * 2 ^ 32 + p.2
    | none, some t => 2 ^ 63 + 2 ^ 62 + d.val * 2 ^ 56 + t
    | none, none => 0
  let keep := fun (v : Nvs) =>
    { v with repairs := v.repairs ++ (match r with | some p => [(d.val * 65536 + p.1, p.2)] | none => []),
             retire := v.retire ++ (match ret with | some t => [d.val * 65536 + t] | none => []) }
  let s := s.nvStore m off word
  let s := s.onDie m (fun x => { x with nvs := keep x.nvs })
  if s.mirrorUp m o then s.onDie o (fun x => { x with nvs := keep x.nvs }) else s

/-! ### Results (R427, R428) -/

/-- Published stuck-at and transition coverage of a test, 0.1 % (R421); 0x3FF is not applicable. -/
def covPublished (t : Nat) : Nat × Nat :=
  match t with
  | 1 => (972, 880)
  | 3 | 4 | 5 => (1000, 1000)
  | 6 => (965, 860)
  | 7 => (950, 840)
  | 8 => (1000, 0x3FF)
  | 9 => (960, 850)
  | _ => (0x3FF, 0x3FF)

/-- The codes of RESULT. -/
def resultCode : TestResult → Nat
  | .pass => 0
  | .fail => 1
  | .incomplete => 2
  | .aborted => 3

/-- Coverage prorated to the work done, rounded down (R427). -/
def prorate (c done all : Nat) : Nat := if c = 0x3FF then c else if all = 0 then c else c * min done all / all

/-- The macro of a test's fault location: word 5 [31:24] is its index in the class the test reaches (R428, R430). -/
def Die.testMacro (x : Die) (t : Test) (loc : Nat) : Nat :=
  let i := loc / 2 ^ 24
  match t.test with
  | 3 => 512 + 7 * (t.target % 8) + (x.course (t.target % 8)).banks.spare
  | 4 => 768 + 6 * (t.target % 8) + (if 256 ≤ t.target then 3 else 0) + i % 3
  | 5 => i
  | _ => 256 + i

/-- A self-test result record (R428). -/
def Die.testRecord (x : Die) (t : Test) (r : TestResult) (sig loc action now : Nat) : List Nat :=
  let c := covPublished t.test
  let all := testWork t
  let ex := if t.test = 2 then sat32 (t.done * x.strokeSymbols (txCourse t.target) (txSide t.target) (txPos t.target)) else (Config.signature t.test t.target).toNat
  let used := if 3 ≤ t.test && t.test ≤ 5 || t.test = 9 then x.sparesUsed (x.testMacro t loc) else (0, 0)
  [ t.test + resultCode r * 256 + t.target * 65536,
    (if t.test = 2 then 1000 * min t.done all / all else prorate c.1 t.done all) + prorate c.2 t.done all * 65536,
    t.done, sig, ex, loc, action + used.1 % 16 * 256 + used.2 % 16 * 4096 + min t.susp 255 * 65536, now % 4294967296 ]

/-- The record of a test that is cut short (R427, R428): its partial signature, of TX_OBSERVE the symbols that disagreed so far, is a free
value (log entry 4). -/
def State.cutRecord (s : State) (d : DieId) (t : Test) (r : TestResult) : State × List Nat :=
  let (v, s) := s.takeFree
  (s, (s.die d).testRecord t r v.toNat 0 0 (s.stroke d))

/-- Write a result record into the ring (R428). -/
def Die.storeResult (x : Die) (l : List Nat) : Die :=
  let b := x.bist
  { x with bist := { b with ring := SMap.put [] b.ring b.wp l, wp := (b.wp + 1) % 64, count := min 64 (b.count + 1) } }

/-- The BIST_RUN or REPAIR_SOFT operation of a test. -/
def Die.testOp (x : Die) (t : Test) : Option Op :=
  x.peg.ops.find? (fun o => (o.opcode == 0x0C01 || o.opcode == 0x0C03) && o.packet == t.packet)

/-- Close a test: its record enters the ring, the result is counted and posted, and the final record of its command
follows unless the device started the test itself (R428, R434, R439, R440). -/
def State.closeTest (s : State) (d : DieId) (t : Test) (r : TestResult) (status : Nat) (rec extra : List Nat) : State :=
  let s := s.onDie d (fun x =>
    let x := { x with bist := { x.bist with tests := x.bist.tests.erase t } }
    x.storeResult rec)
  let s := match r with
    | .pass => s
    | .fail => s.count d (cBist + 4)
    | _ => s.count d (cBist + 8)
  let s := s.post d 424 0x01 (t.test + resultCode r * 256 + t.target * 65536)
  if t.auto_ then s
  else match (s.die d).testOp t with
    | none => s
    | some o => s.conclude d { o with position := if testWork t = 0 then 1000 else min 1000 (t.done * 1000 / testWork t) } status
        (if r == .pass || r == .fail then 1 else if t.done = 0 then 0 else 2) (rec ++ extra)

/-- Replace a test in place. -/
def Die.setTest (x : Die) (t u : Test) : Die :=
  { x with bist := { x.bist with tests := x.bist.tests.map (fun z => if z == t then u else z) } }

end Sys2Proof.Machine
end

