-- ==== Sys2Proof/Machine/Rotation.lean ====
section
/-! DEFINITION. Rotation and sympathetic receivers (R131 to R156): attachment, handover, eye scans, captures and bank
rotation. The boundary's part of them (`State.rotSide`, `State.banksAt`) is called by STROKE_BOUNDARY. -/

namespace Sys2Proof.Machine

/-! ### Sides and their events -/

/-- One side of a course. -/
def Die.rot (x : Die) (c : Nat) (h : Side) : SideRot := (x.course c).side h

/-- Change one side of a course. -/
def State.onSide (s : State) (d : DieId) (c : Nat) (h : Side) (f : SideRot → SideRot) : State :=
  s.setSide d c h (f ((s.die d).rot c h))

/-- The side bit of the rotation events. -/
def Side.code : Side → Nat
  | .host => 0
  | .line => 1

/-- The counter offset of a side: each pair of R155 holds the host's first. -/
def cRot (c : Nat) (h : Side) (o : Nat) : Nat := cCourse c + 0x500 + o + 4 * Side.code h

/-- Object number of a course side. -/
def sideObj (c : Nat) (h : Side) : Nat := 2 * c + Side.code h

/-- The rate of the port that owns a position; 2 (P212) with none. -/
def Die.posRate (x : Die) (c : Nat) (h : Side) (j : Nat) : Nat :=
  match x.owner c h j with
  | none => 2
  | some n => rate (x.cfga n)

/-- Park the sympathetic slice of a side; SYMP_DETACHED gives the reason (R156). Its attachment fields read their reset
values again (log entry 22). -/
def State.detach (s : State) (d : DieId) (c : Nat) (h : Side) (why : Nat) : State :=
  let r := (s.die d).rot c h
  let n := (s.die d).sympSlice c h
  let s := s.parkSlice d n
  let s := s.onSide d c h (fun r =>
    { r with
      state := 0, tap := false, pos := 0, mode := false, aligned := false, owner := 0, d := 0, want := 0, phase := 0,
      winLeft := 0, cfgHit := false, adapt := true, subst := false, substNow := false })
  if r.attached then s.postCourse d c 0x11 (Side.code h + 2 * r.symp + 32 * why) else s

/-- Load the sympathetic slice as START selects (R136): 0 a copy of the live slice's state in use, 1 its own registers,
2 the pin record or its own registers. Sub-ADC corrections always come from its own slice record. -/
def Die.loadStart (x : Die) (c : Nat) (h : Side) (n pos start : Nat) (tap : Bool) : Die :=
  let v := x.slice n
  let x := x.setSlice n { v with corr := v.stored }
  let v := x.slice n
  if start = 0 && !tap then
    let l := x.serving c h pos
    let u := x.slice l
    let a := fun o => x.act (oRx l o)
    let r : PinRec := { valid := true, ctle := a 0x08, vga := a 0x0C, dfe := a 0x10, main := fld (a 0x14) 9 6,
                        ffe := (List.range (taps l)).map (fun k => x.act (oFfe l k)) }
    (x.putRecord n r).setSlice n { v with h1 := u.h1, h2 := u.h2, freq := u.freq }
  else if start = 2 && !tap then
    let r := x.pin (pinKey c h pos)
    if r.valid then (x.putRecord n r).setSlice n { v with h1 := r.h1, h2 := r.h2, freq := r.freq } else x
  else x

/-- Attach the sympathetic slice at a boundary as the side wants it (R131, R136, R148). -/
def State.attach (s : State) (d : DieId) (c : Nat) (h : Side) : State :=
  let r := (s.die d).rot c h
  let n := (s.die d).sympSlice c h
  let now := s.stroke d
  let s := (s.gatesFor d n).parkSlice d n
  let s := s.onDie d (fun x => x.loadStart c h n r.wantPos r.wantStart r.wantTap)
  let s := s.onSide d c h (fun r =>
    { r with
      state := 1, tap := r.wantTap, pos := r.wantPos, mode := r.wantMode, owner := r.wantOwner, adapt := r.wantAdapt,
      aligned := false, d := 0, want := 0, attachAt := now })
  s.postCourse d c 0x10 (Side.code h + 2 * r.symp + 32 * b2n r.wantTap + 64 * r.wantPos + 1024 * b2n r.wantMode)

/-! ### Targets and availability (R141, R148, R429) -/

/-- The sympathetic slice is in use: attached, wanted, in a handover, or under a check (R126, R141). -/
def Die.sympBusy (x : Die) (c : Nat) (h : Side) : Bool :=
  let r := x.rot c h
  r.attached || r.want == 1 || r.phase != 0 || x.checking (x.sympSlice c h)

/-- The half of capture memory of a side. -/
def Course.half (v : Course) : Side → CapHalf
  | .host => v.capH
  | .line => v.capL

def Course.setHalf (v : Course) (h : Side) (k : CapHalf) : Course :=
  match h with
  | .host => { v with capH := k }
  | .line => { v with capL := k }

/-- Why a request for the sympathetic slice is turned away: status and reply data; none when it is free (R141, R425, R429).
`waits`: a handover, which waits for the work slice of a self-test. -/
def Die.sympDenied (x : Die) (c : Nat) (h : Side) (waits : Bool) : Option (Nat × List Nat) :=
  let n := x.sympSlice c h
  if (x.slice n).retired then some (stNotReady, [])
  else if x.sympBusy c h then some (stBusy, [])
  else match x.sliceTest n with
    | some t => if waits then none else some (stBusyTest, [t.wait])
    | none => none

/-- The tap is of no use now: a pin of no enabled port, or a transmitter on a powered-down lane (R148). -/
def Die.tapDead (x : Die) (c : Nat) (h : Side) (pos : Nat) (tap : Bool) : Bool :=
  if tap then (x.tx (txOf c h pos)).mode == 5 else (x.owner c h pos).isNone

/-- The parameter rules of R148: START = 0 with a monitor tap, RH at N26, START = 3. -/
def Die.startBad (x : Die) (c : Nat) (h : Side) (pos : Nat) (tap mode : Bool) (start : Nat) : Bool :=
  (start == 0 && tap) || start == 3 || (mode && x.posRate c h pos == 3)

/-! ### SYMP_ATTACH, SYMP_DETACH (R148, R149) -/

/-- SYMP_ATTACH (R148): attached, and answered, at the next boundary. -/
def execSympAttach (k : Packet) (s : State) : Result :=
  .next (s.command k 0x0401 (fun s =>
    let x := s.die k.die
    let w := k.w 4
    match tapTarget k.target.toNat with
    | none => s.refuse k 0x0401 stBadTarget
    | some (c, h, pos, tap) =>
      if 16 ≤ w || x.startBad c h pos tap (bit w 0) (bits w 3 2) then s.refuse k 0x0401 stBadParam
      else if x.tapDead c h pos tap then s.refuse k 0x0401 stNotReady
      else match x.sympDenied c h false with
        | some r => s.refuse k 0x0401 r.1 r.2
        | none => (s.attachNext k.die c h pos tap (bit w 0) (bits w 3 2) 1 (bit w 1)).await k 0x0401 (s.stroke k.die + 1)
            (x.sympSlice c h + 256 * Side.code h)))

/-- SYMP_DETACH (R149): a slice that the device attached for a substitution (R445) is in no command's use, and parks too. One in use by a
self-test, which R149 does not list, answers BUSY (DESIGN CHOICE, log entry 99). -/
def execSympDetach (k : Packet) (s : State) : Result :=
  .next (s.command k 0x0402 (fun s =>
    let x := s.die k.die
    match sideTarget k.target.toNat with
    | none => s.refuse k 0x0402 stBadTarget
    | some (c, h) =>
      let r := x.rot c h
      match x.sliceTest (x.sympSlice c h) with
      | some t => s.refuse k 0x0402 stBusyTest [t.wait]
      | none =>
        if (r.want = 1 && !r.subst) || r.phase ≠ 0 || (r.attached && 2 ≤ r.owner) || x.checking (x.sympSlice c h) then s.refuse k 0x0402 stBusy
        else if r.attached || r.want = 1 then (s.parkNext k.die c h).await k 0x0402 (s.stroke k.die + 1) 0
        else s.done k 0x0402 0 []))

/-! ### Handover (R136 to R142, R150) -/

/-- A HANDOVER or RETUNE_IN_SERVICE. -/
def Op.isHo (o : Op) : Bool := (o.opcode == 0x0403 || o.opcode == 0x0404) && o.phase != opOver

/-- The handover operation of a side. -/
def Die.hoOp (x : Die) (c : Nat) (h : Side) : Option Op := x.peg.ops.find? (fun o => o.isHo && o.obj == sideObj c h)

/-- The RX_FULL test whose slice the side's handover displaces (R423). -/
def Die.hoTest (x : Die) (n : Nat) : Option Test := x.bist.tests.find? (fun t => t.test == 1 && t.target == n && !t.isol)

/-- The status of a refusal reason (R140). -/
def hoStatus (reason : Nat) : Nat :=
  if reason ≤ 5 then stMismatch else if reason ≤ 9 then stNotReady else if reason = 10 then stTimeout else stAborted

/-- The lattice of the course rebuilds this lane (R141, R216). -/
def Die.rebuilt (x : Die) (c : Nat) (h : Side) (pos : Nat) : Bool :=
  let l := (x.course c).lat
  h == .line && hasLattice (x.cfga (8 * c + l.port)) && l.rebuilding && l.pos == pos

/-- The refusal reason that holds for a handover of position `pos` (R140), 0 with none. `begun`: it has been accepted. R140 does not say
which reason wins where several hold, nor what a pin of no enabled port answers at the command: this order, and reason 7 (DESIGN CHOICE,
log entry 46). -/
def Die.hoReason (x : Die) (c : Nat) (h : Side) (pos : Nat) (begun : Bool) : Nat :=
  let r := x.rot c h
  let v := x.slice (x.sympSlice c h)
  match x.owner c h pos with
  | none => if begun then 11 else 7
  | some n =>
    let p := x.port n
    if p.state = 3 || x.laneInSession c h pos then 6
    else if !p.carrying || !(x.slice (x.serving c h pos)).locked || x.rebuilt c h pos then 7
    else if (x.course c).hold then 8
    else if begun && 3 ≤ r.phase && !(v.sd && v.cdrLock && v.locked) then 9
    else 0

/-- The reasons judged only at the switch: modes, frequencies, commits (R31, R140). -/
def Die.hoSwitchReason (x : Die) (c : Nat) (h : Side) (pos : Nat) : Nat :=
  let r := x.rot c h
  let l := x.serving c h pos
  let df := ((x.slice l).freq.toInt - (x.slice (x.sympSlice c h)).freq.toInt).natAbs
  if r.mode != x.sliceRh l then 2 else if 50 < df then 4 else if r.cfgHit then 5 else 0

/-- Attempts made, kept with the operation. -/
def Op.attempts (o : Op) : Nat := (o.data.head?).getD 0

/-- The final reply data of a handover (R150). -/
def hoData (new old reason attempts stroke : Nat) (r : SideRot) (kept : Bool) : List Nat :=
  [ new + 256 * old + 65536 * reason + 16777216 * min attempts 255, stroke % 4294967296,
    pair (unsigned 16 r.d) r.sympSnr, sat32 r.compared, r.liveSnr + 65536 * b2n kept ]

/-- End what asked for a handover, without a switch: the command's final record, or the end of the test (R140, R423). EFFECT of the DONE
record with KEPT = 1 is 1, though no switch was made (DESIGN CHOICE, log entry 75). -/
def State.hoFail (s : State) (d : DieId) (c : Nat) (h : Side) (r : SideRot) (live reason status : Nat) (kept : Bool) : State :=
  let x := s.die d
  if r.wantOwner = 6 then
    match x.hoTest live with
    | none => s
    | some t =>
      let r : TestResult := if reason = 0 && status = stAborted then .aborted else .incomplete
      let (s, record) := s.cutRecord d t r
      s.closeTest d t r status record [reason]
  else match x.hoOp c h with
    | none => s
    | some o => s.conclude d o status (if kept then 1 else 0) (hoData live live reason o.attempts 0 r kept)

/-- Release the HANDOVER capo source on both slices of a side (R90, R139, R140). -/
def State.uncapHo (s : State) (d : DieId) (live symp : Nat) : State :=
  (s.onSlice d live (fun v => { v with capoHo := false })).onSlice d symp (fun v => { v with capoHo := false })

/-- A handover is refused (R140): the sympathetic slice parks, the lane stays on its live slice. A RETUNE_IN_SERVICE
refused for reasons 1 to 5 starts again from phase 1, up to RETRY times (R142). While the pegbox does not run its final status is
ABORTED_RECOVERY (R141). -/
def State.hoRefuse (s : State) (d : DieId) (c : Nat) (h : Side) (reason : Nat) : State :=
  let x := s.die d
  let r := x.rot c h
  let live := x.serving c h r.wantPos
  let s := s.uncapHo d live (x.sympSlice c h)
  let s := s.detach d c h (if reason = 11 then 3 else 2)
  let s := s.count d (cRot c h 8)
  let s := s.postCourse d c 0x13 (Side.code h + 2 * r.symp + 512 * r.wantPos + 65536 * reason)
  match x.hoOp c h with
  | some o =>
    if o.opcode = 0x0404 && reason ≤ 5 && o.attempts ≤ bits (o.packet.w 4) 21 18 && x.pegRuns then
      s.onSide d c h (fun v => { v with want := 1, phase := 1 })
    else s.hoFail d c h r live reason (if x.pegRuns then hoStatus reason else stAborted) false
  | none => s.hoFail d c h r live reason (hoStatus reason) false

/-- A handover that has not switched is given up: the sympathetic slice parks, the lane keeps its live slice (R141). -/
def State.hoDrop (s : State) (d : DieId) (c : Nat) (h : Side) (status : Nat) : State :=
  let x := s.die d
  let r := x.rot c h
  let live := x.serving c h r.wantPos
  ((s.uncapHo d live (x.sympSlice c h)).detach d c h 1).hoFail d c h r live 0 status false

/-- The switch (R139): the lane's source changes, the displaced slice parks as the sympathetic one, the map and ROT_GEN
change. -/
def State.hoSwitch (s : State) (d : DieId) (c : Nat) (h : Side) : State :=
  let x := s.die d
  let r := x.rot c h
  let old := x.serving c h r.pos
  let new := x.sympSlice c h
  let s := s.uncapHo d old new
  let s := s.onSlice d new (fun v => { v with acquiring := false })
  let s := s.onSide d c h (fun r =>
    { r with
      map := r.map.set r.pos r.symp, symp := sliceIndex old, gen := (r.gen + 1) % 256, state := 0, tap := false, pos := 0,
      mode := false, aligned := false, owner := 0, d := 0, want := 0, phase := 0, cfgHit := false })
  let s := s.parkSlice d old
  let s := s.count d (cRot c h 0)
  let s := s.postCourse d c 0x12 (Side.code h + 2 * r.symp + 32 * sliceIndex old + 512 * r.pos + 65536 * unsigned 16 r.d)
  match x.hoOp c h with
  | some o => s.conclude d { o with position := 3 } stDone 1 (hoData new old 0 o.attempts (s.stroke d) r false)
  | none => s

/-- Note a completed phase of a handover's command (R150). -/
def State.hoProgress (s : State) (d : DieId) (c : Nat) (h : Side) (n : Nat) : State :=
  if !(s.die d).pegRuns then s
  else match (s.die d).hoOp c h with
    | none => s
    | some o => s.progress d o n

/-- The checks that open the compare window, once the aligner has found its offset: the gain of RETUNE_IN_SERVICE, then
both slices capped (R136 phase 4, R142). -/
def State.hoOpen (s : State) (d : DieId) (c : Nat) (h : Side) : State :=
  let x := s.die d
  let r := x.rot c h
  let live := x.serving c h r.pos
  let symp := x.sympSlice c h
  let ls := (x.slice live).snrNow
  let ss := (x.slice symp).snrNow
  let s := s.hoProgress d c h 3
  let s := s.onSide d c h (fun r => { r with liveSnr := ls, sympSnr := ss })
  let gain := match x.hoOp c h with
    | some o => if o.opcode = 0x0404 then bits (o.packet.w 5) 7 0 else 0
    | none => 0
  let retune := match x.hoOp c h with | some o => o.opcode == 0x0404 | none => false
  if retune && ss < ls + gain then
    let r := (s.die d).rot c h
    (s.detach d c h 1).hoFail d c h r live 0 stDone true
  else
    let s := (s.onSlice d live (fun v => { v with capoHo := true })).onSlice d symp (fun v => { v with capoHo := true })
    s.onSide d c h (fun r => { r with state := 2, phase := 4, winLeft := r.win, compared := 0, cfgHit := false })

/-- A handover at a boundary, after the commits of the boundary (R31 step 3, R136): its phase ends, a refusal condition
holds, or the compare window closes with the switch. While the pegbox is halted one whose window is not open is abandoned (R141). -/
def State.hoStep (s : State) (d : DieId) (c : Nat) (h : Side) : State :=
  let x := s.die d
  let r := x.rot c h
  let why := x.hoReason c h r.wantPos true
  if r.phase = 0 || r.phase = 1 then s
  else if r.phase ≠ 4 && !x.pegRuns then s.hoDrop d c h stAborted
  else if why = 11 then s.hoRefuse d c h 11
  else if r.phase = 2 then
    if !(x.slice (x.sympSlice c h)).converged then s
    else if why ≠ 0 then s.hoRefuse d c h why
    else (s.hoProgress d c h 2).onSide d c h (fun r => { r with phase := 3 })
  else if r.phase = 3 then
    if !r.aligned then s
    else if why ≠ 0 then s.hoRefuse d c h why
    else s.hoOpen d c h
  else
    let n := x.strokeSymbols c h r.pos
    let s := s.onSide d c h (fun r => { r with winLeft := r.winLeft - 1, compared := r.compared + n })
    if 1 < r.winLeft then s
    else
      let sw := x.hoSwitchReason c h r.pos
      let bad := if sw = 0 then why else sw
      if bad ≠ 0 then s.hoRefuse d c h bad else s.hoSwitch d c h

/-- The start of a handover on position `pos`: attached at the next boundary (R136 phase 1). -/
def State.hoBegin (s : State) (d : DieId) (c : Nat) (h : Side) (pos start owner win lim : Nat) : State :=
  let x := s.die d
  let cfg := x.act (oHoCfg c)
  let mode := x.sliceRh (x.serving c h pos)
  let s := s.attachNext d c h pos false mode start owner true
  s.onSide d c h (fun r =>
    { r with
      phase := 1, win := if win = 0 then fld cfg 7 0 else win, convLim := if lim = 0 then fld cfg 15 8 else lim,
      liveSnr := 0, sympSnr := 0, compared := 0, winLeft := 0, cfgHit := false })

/-- Answer a handover command refused when it executes (R140): nothing is attached. -/
def State.hoDeny (s : State) (k : Packet) (op c : Nat) (h : Side) (pos reason : Nat) : State :=
  let x := s.die k.die
  let r := x.rot c h
  let live := x.serving c h pos
  let s := s.count k.die (cRot c h 8)
  let s := s.postCourse k.die c 0x13 (Side.code h + 2 * r.symp + 512 * pos + 65536 * reason)
  s.refuse k op (hoStatus reason) [live + 256 * live + 65536 * reason, 0, 0, 0, 0]

/-- HANDOVER and RETUNE_IN_SERVICE (R141, R142, R150). -/
def State.hoCommand (s : State) (k : Packet) (op : Nat) (retune : Bool) : State :=
  let x := s.die k.die
  let w := k.w 4
  match tapTarget k.target.toNat with
  | none => s.refuse k op stBadTarget
  | some (c, h, pos, tap) =>
    if tap then s.refuse k op stBadTarget
    else if 2 ^ 22 ≤ w || bits w 17 16 = 3 || (!retune && bits w 21 18 ≠ 0) || (retune && 256 ≤ k.w 5) then s.refuse k op stBadParam
    else match x.sympDenied c h true with
      | some r => s.refuse k op r.1 r.2
      | none =>
        let live := x.serving c h pos
        if x.checking live then s.refuse k op stBusy
        else
          let why := x.hoReason c h pos false
          if why ≠ 0 then s.hoDeny k op c h pos why
          else s.start k op 4 (sideObj c h) [0] (fun s => s.hoBegin k.die c h pos (bits w 17 16) 2 (bits w 7 0) (bits w 15 8))

/-- HANDOVER (R136, R150). -/
def execHandover (k : Packet) (s : State) : Result := .next (s.command k 0x0403 (fun s => s.hoCommand k 0x0403 false))

/-- RETUNE_IN_SERVICE (R142, R150). -/
def execRetuneInService (k : Packet) (s : State) : Result := .next (s.command k 0x0404 (fun s => s.hoCommand k 0x0404 true))

/-- An aligner measures on this side: phase 3 of a handover, or a capture or TX_OBSERVE that compares with the live slice
or the transmitter (R137, R145, R421). -/
def Die.aligning (x : Die) (c : Nat) (h : Side) : Bool :=
  let r := x.rot c h
  r.phase == 3 || (r.phase == 0 && r.attached && (r.owner == 4 || r.owner == 6))

/-- HANDOVER_ALIGN (R137): the aligner's result over its stroke: an offset from −256 to +255, or none, which refuses a
handover (reason 3). -/
def execHandoverAlign (d : DieId) (c : CourseId) (side : Side) (offset : Option Int) (s : State) : Result :=
  let r := (s.die d).rot c.val side
  .next (if present s.part d && s.running && (s.die d).aligning c.val side && !r.aligned then
    match offset with
    | some n => if -256 ≤ n && n ≤ 255 then s.onSide d c.val side (fun r => { r with aligned := true, d := n })
                else if r.phase = 3 then s.hoRefuse d c.val side 3 else s
    | none => if r.phase = 3 then s.hoRefuse d c.val side 3 else s
  else s)

/-- HANDOVER_DISAGREE (R138): the first disagreement closes the window with refusal reason 1. -/
def execHandoverDisagree (d : DieId) (c : CourseId) (side : Side) (compared : Word) (s : State) : Result :=
  .next (if present s.part d && s.running && ((s.die d).rot c.val side).phase == 4 then
    (s.onSide d c.val side (fun r => { r with compared := compared.toNat })).hoRefuse d c.val side 1
  else s)

/-- HANDOVER_CONV_TIMEOUT (R140 reason 10): CONV_TMO × 1,024 strokes from the attach without CONVERGED. -/
def execHandoverConvTimeout (d : DieId) (c : CourseId) (side : Side) (s : State) : Result :=
  let x := s.die d
  let r := x.rot c.val side
  .next (if present s.part d && s.running && r.phase == 2 && !(x.slice (x.sympSlice c.val side)).converged
      && r.attachAt + r.convLim * 1024 ≤ s.stroke d then s.hoRefuse d c.val side 10
  else s)

/-! ### Capture memory, eye scans, captures (R143 to R145, R151 to R153) -/

/-- The base of a side's half of capture memory in the die's SRAM (R144; its place is log entry 10). -/
def capBase (c : Nat) (h : Side) : Nat := 0x100000 + c * 0x18000 + Side.code h * 0xC000

/-- The scan or capture of a side. -/
def Die.workOp (x : Die) (c : Nat) (h : Side) : Option Op :=
  x.peg.ops.find? (fun o => (o.opcode == 0x0501 || o.opcode == 0x0502) && o.phase != opOver && o.obj == sideObj c h)

/-- The half of a side is being tested or is retired (R425, R429). -/
def Die.halfDenied (x : Die) (c : Nat) (h : Side) : Option (Nat × List Nat) :=
  let v := (x.course c).half h
  if v.retired then some (stNotReady, [])
  else match x.bist.tests.find? (fun t => t.isol && t.test == 4 && t.target == c + 256 * Side.code h) with
    | some t => some (stBusyTest, [t.wait])
    | none => none

/-- Points along the two axes of a scan, and in all (R143, R151). -/
def eyeHn (k : Packet) : Nat := bits (k.w 4) 5 0
def eyeVn (k : Packet) : Nat := bits (k.w 4) 11 6
def eyeStep (k : Packet) : Nat := if bits (k.w 4) 17 12 = 0 then 64 else bits (k.w 4) 17 12
def eyeCode (k : Packet) : Nat := bits (k.w 4) 23 22
def eyePoints (k : Packet) : Nat := (2 * eyeHn k + 1) * (2 * eyeVn k + 1) * (if eyeCode k = 3 then 3 else 1)
def eyeDwell (k : Packet) : Nat := bits (k.w 5) 15 0

/-- The parameter rules of EYE_SCAN itself (R151). -/
def Die.eyeBad (x : Die) (k : Packet) (c : Nat) (h : Side) (pos : Nat) : Bool :=
  2 ^ 26 ≤ k.w 4 || 2 ^ 17 ≤ k.w 5 || eyeDwell k == 0 || bits (k.w 4) 21 18 == 0
    || 64 < eyeHn k * eyeStep k || 127 < eyeVn k * bits (k.w 4) 21 18 || 4000 < (2 * eyeHn k + 1) * (2 * eyeVn k + 1)
    || (eyeCode k != 1 && x.posRate c h pos == 3)

/-- EYE_SCAN (R143, R151). -/
def execEyeScan (k : Packet) (s : State) : Result :=
  .next (s.command k 0x0501 (fun s =>
    let x := s.die k.die
    match tapTarget k.target.toNat with
    | none => s.refuse k 0x0501 stBadTarget
    | some (c, h, pos, tap) =>
      let mode := bit (k.w 5) 16
      let start := bits (k.w 4) 25 24
      if x.eyeBad k c h pos || x.startBad c h pos tap mode start || x.tapDead c h pos tap then s.refuse k 0x0501 stBadParam
      else match x.sympDenied c h false with
        | some r => s.refuse k 0x0501 r.1 r.2
        | none => match x.halfDenied c h with
          | some r => s.refuse k 0x0501 r.1 r.2
          | none => s.start k 0x0501 4 (sideObj c h) [0] (fun s =>
              let v := (s.die k.die).course c
              (s.setCourse k.die c (v.setHalf h { (v.half h) with valid := false })).attachNext k.die c h pos tap mode start 3 true)))

/-- The scan sampler begins (R143 step 2, R144): adaptation holds, and the header of the result is written. -/
def State.eyeBegin (s : State) (d : DieId) (c : Nat) (h : Side) (o : Op) : State :=
  let x := s.die d
  let r := x.rot c h
  let now := s.stroke d
  let k := o.packet
  let s := s.onSlice d (x.sympSlice c h) (fun v => { v with held := true })
  let n := x.strokeSymbols c h r.pos
  let words := [eyeHn k + 256 * eyeVn k + 65536 * eyeStep k + 2 ^ 24 * bits (k.w 4) 21 18 + 2 ^ 28 * eyeCode k,
                eyeDwell k, n, now % 4294967296]
  s.onDie d (fun x =>
    let x := { x with sram := Memory.writeWords x.sram (capBase c h) words }
    x.mapOps (fun z => z == o) (fun z => { z with phase := 1, from_ := now }))

/-- The end of a scan or capture: the slice parks and the final record follows (R151 to R153). -/
def State.workEnd (s : State) (d : DieId) (c : Nat) (h : Side) (o : Op) (why status effect : Nat) (data : List Nat) : State :=
  (s.detach d c h why).conclude d o status effect data

/-- Point i of a scan, counted from 0 (R143): the eye, 0 the lowest, and the point's v and h: eye by eye, v from −VN to +VN, and h from −HN
to +HN within it. -/
def eyePoint (k : Packet) (i : Nat) : Nat × Int × Int :=
  let w := 2 * eyeHn k + 1
  let m := w * (2 * eyeVn k + 1)
  (if eyeCode k = 3 then i / m else eyeCode k, (i % m / w : Nat) - (eyeVn k : Int), (i % w : Nat) - (eyeHn k : Int))

/-- Where the sampler stands at point i (R143): its phase from the CDR's, in 1/128 UI, and its offset from the eye's threshold, in codes. -/
def eyePlace (k : Packet) (i : Nat) : Int × Int :=
  let p := eyePoint k i
  (p.2.2 * eyeStep k, p.2.1 * bits (k.w 4) 21 18)

/-- The nominal threshold of an eye for an outer level of `cursor` codes, in thirds of a code (R81, R143). -/
def eyeThreshold (cursor : Int) (eye : Nat) : Int := 2 * cursor * ((eye : Int) - 1)

/-- The symbols whose decision at point i differs from the slice's own at that threshold (R143). -/
def eyeErrors (k : Packet) (cursor : Int) (i : Nat) (pairs : List (Int × Int)) : Nat :=
  let t := eyeThreshold cursor (eyePoint k i).1
  (pairs.filter (fun p => decide (t < 3 * p.1) != decide (t + 3 * (eyePlace k i).2 < 3 * p.2))).length

/-- What a scan's sampler counted over the stroke that ends, added to the point under way (R143). -/
def State.eyeAt (s : State) (o : EyeObs) : State :=
  let x := s.die o.die
  match x.workOp o.course.val o.side with
  | none => s
  | some w =>
    if w.opcode ≠ 0x0501 || w.phase = 0 then s
    else
      let i := (w.data.head?).getD 0
      let n := eyeErrors w.packet (Config.cursor (x.sympSlice o.course.val o.side)) i o.pairs
      s.onDie o.die (fun x => x.mapOps (fun z => z == w) (fun z => { z with data := [i, (z.data[1]?).getD 0 + n] }))

/-- A scan at a boundary (R143, R153): it starts once CONVERGED, writes the count of each point whose dwell has run, saturating and no more
than the symbols compared, and ends after the last. -/
def State.eyeStepAt (s : State) (d : DieId) (c : Nat) (h : Side) (o : Op) : State :=
  let x := s.die d
  let now := s.stroke d
  let k := o.packet
  if o.phase = 0 then
    if (x.slice (x.sympSlice c h)).converged then s.eyeBegin d c h o else s
  else
    let dw := eyeDwell k
    let gone := now - o.from_
    if dw = 0 || gone = 0 || gone % dw ≠ 0 then s
    else
      let i := gone / dw
      let v := min ((o.data[1]?).getD 0) (min (dw * x.strokeSymbols c h (x.rot c h).pos) 4294967295)
      let s := s.onDie d (fun x => { x with sram := Memory.writeLE x.sram (capBase c h + 16 + 4 * (i - 1)) 4 v })
      let o1 := { o with data := [i], position := i * 1000 / eyePoints k }
      let s := s.onDie d (fun x => x.mapOps (fun z => z == o) (fun _ => o1))
      if eyePoints k ≤ i then
        let s := s.setCourse d c (((s.die d).course c).setHalf h { (((s.die d).course c).half h) with valid := true })
        s.workEnd d c h o1 1 stDone 1 [i]
      else if x.pegRuns then s.progress d o1 o1.position else s

/-- Fields of CAPTURE_SAMPLES (R152). -/
def capContent (k : Packet) : Nat := bits (k.w 4) 3 2
def capTrig (k : Packet) : Nat := bits (k.w 4) 5 4
def capLen (k : Packet) : Nat := bits (k.w 5) 15 0
def capPre (k : Packet) : Nat := k.w 5 / 65536

/-- CAPTURE (R145, R152 FUNC 0). The half holds no valid data until the trigger. The spec gives a capture no START: it attaches with the
slice's own registers, START = 1 (DESIGN CHOICE, log entry 76). -/
def State.captureStart (s : State) (k : Packet) : State :=
  let x := s.die k.die
  let w := k.w 4
  match tapTarget k.target.toNat with
  | none => s.refuse k 0x0502 stBadTarget
  | some (c, h, pos, tap) =>
    if k.length.toNat ≠ 8 || 128 ≤ w || capContent k = 3 || capTrig k = 3 || capLen k = 0 || 768 < capLen k || capLen k < capPre k
        || k.w 6 = 0 || 65536 ≤ k.w 6 || (bit w 6 && x.posRate c h pos == 3) || (capTrig k = 2 && tap) then s.refuse k 0x0502 stBadParam
    else if x.tapDead c h pos tap then s.refuse k 0x0502 stNotReady
    else match x.sympDenied c h false with
      | some r => s.refuse k 0x0502 r.1 r.2
      | none => match x.halfDenied c h with
        | some r => s.refuse k 0x0502 r.1 r.2
        | none =>
          s.start k 0x0502 4 (sideObj c h) [] (fun s =>
            let v := (s.die k.die).course c
            (s.setCourse k.die c (v.setHalf h { (v.half h) with valid := false })).attachNext k.die c h pos tap (bit w 6) 1 4 true)

/-- CAPTURE_READ (R152 FUNC 1): 128 bytes of a half. -/
def State.captureRead (s : State) (k : Packet) : State :=
  let x := s.die k.die
  match sideTarget k.target.toNat with
  | none => s.refuse k 0x0502 stBadTarget
  | some (c, h) =>
    if k.length.toNat ≠ 6 || k.w 4 ≠ 1 || 384 ≤ k.w 5 then s.refuse k 0x0502 stBadParam
    else match x.halfDenied c h with
      | some r => s.refuse k 0x0502 r.1 r.2
      | none =>
        if (x.workOp c h).isSome then s.refuse k 0x0502 stBusy
        else s.done k 0x0502 3 ((Memory.readWords x.sram (capBase c h + 128 * k.w 5) 32).map BitVec.toNat)

/-- CAPTURE_SAMPLES, by FUNC (R152). -/
def State.captureSamples (s : State) (k : Packet) : State :=
  match k.w 4 % 4 with
  | 0 => s.captureStart k
  | 1 => s.captureRead k
  | _ => s.refuse k 0x0502 stBadParam

/-- CAPTURE (R152). -/
def execCapture (k : Packet) (s : State) : Result := .next (s.command k 0x0502 (fun s => s.captureSamples k))

/-- CAPTURE_READ (R152). -/
def execCaptureRead (k : Packet) (s : State) : Result := .next (s.command k 0x0502 (fun s => s.captureSamples k))

/-- The bytes of a capture's units: 64 each, whatever the content (R145). -/
def capBytes (units : Nat) : Nat := units * 64

/-- Symbols in a byte of a capture's content (R145). -/
def capSymbols (content : Nat) : Nat := if content = 2 then 4 else 1

/-- The 16 levels of a capture's pattern, level i in bits [2i+1:2i] of word 7 (R152). -/
def capPattern (k : Packet) : List Nat := (List.range 16).map (fun i => bits (k.w 7) (2 * i + 1) (2 * i))

/-- The trigger condition holds for the samples of a capture's beginning (R145, R152): for the pattern trigger, the 16 symbols that end
where the recording's PRE part ends match it; the disagreement trigger needs the aligner's offset first. -/
def Die.capFires (x : Die) (c : Nat) (h : Side) (k : Packet) (samples : List Byte) : Bool :=
  let n := x.sympSlice c h
  let at_ := taps n + capBytes (capPre k) * capSymbols (capContent k)
  match capTrig k with
  | 0 => true
  | 1 => ((x.decides n (samples.map (fun b => b.toInt))).drop (at_ - 16)).take 16 == capPattern k
  | _ => (x.rot c h).aligned

/-- CAPTURE_TRIGGER (R145, R152, R153): the trigger occurs while the slice is attached; `samples` holds the ADC samples from which bytes
are recorded from byte 0, or, after a trigger whose recording goes on, from where it stands. The operation ends with its last byte. The
immediate trigger falls at the edge of the boundary of the attachment, the next one after the start. -/
def execCaptureTrigger (d : DieId) (c : CourseId) (side : Side) (samples : List Byte) (s : State) : Result :=
  let x := s.die d
  let r := x.rot c.val side
  .next (if present s.part d && s.running && r.attached && r.owner == 4 then
    match x.workOp c.val side with
    | none => s
    | some o =>
      let k := o.packet
      let n := capBytes (capLen k)
      let had := (o.data.head?).getD 0
      if o.data.isEmpty && !x.capFires c.val side k samples then s
      else
        let bytes := (x.captured (x.sympSlice c.val side) (capContent k) samples).take (n - had)
        let now := had + bytes.length
        let tell := if o.data.isEmpty then [now, (if capTrig k = 0 then r.attachAt else s.stroke d) % 4294967296, capBytes (capPre k)] else o.data.set 0 now
        let s := s.onDie d (fun x => { x with sram := Memory.writeList x.sram (capBase c.val side + had) bytes })
        let v := (s.die d).course c.val
        let s := s.setCourse d c.val (v.setHalf side { (v.half side) with valid := true })
        if n ≤ now then s.workEnd d c.val side { o with position := 1000 } 1 stDone 1 tell
        else s.onDie d (fun x => x.mapOps (fun z => z == o) (fun z => { z with data := tell, position := now * 1000 / n }))
  else s)

/-- CAPTURE_TIMEOUT (R152): no trigger before the timeout, counted from the attachment; the immediate trigger always comes. -/
def execCaptureTimeout (d : DieId) (c : CourseId) (side : Side) (s : State) : Result :=
  let x := s.die d
  let r := x.rot c.val side
  .next (if present s.part d && s.running && r.attached && r.owner == 4 then
    match x.workOp c.val side with
    | none => s
    | some o =>
      if o.data.isEmpty && capTrig o.packet ≠ 0 && r.attachAt + o.packet.w 6 ≤ s.stroke d then s.workEnd d c.val side o 1 stTimeout 0 [0, 0, 0] else s
  else s)

/-- A scan or capture ends where it stands (R153, R284, R340): the points whose dwell was complete, or the bytes written with the trigger's
stroke and offset, zeros before a trigger. `why`: the reason of SYMP_DETACHED (R156). -/
def State.workAbort (s : State) (d : DieId) (c : Nat) (h : Side) (o : Op) (why : Nat) : State :=
  s.workEnd d c h o why stAborted 2
    (if o.opcode = 0x0501 then [(o.data.head?).getD 0] else if o.data.isEmpty then [0, 0, 0] else o.data)

/-! ### A course side at a boundary (R31 step 3, R136, R148, R149, R153) -/

/-- The sympathetic slice of one side at a boundary: a wanted attachment or detachment takes place, and a handover, scan
or capture moves on. -/
def State.rotSide (s : State) (d : DieId) (c : Nat) (h : Side) : State :=
  let x := s.die d
  let r := x.rot c h
  if r.want = 2 then s.detach d c h (if r.owner ≤ 1 then 0 else 1)
  else if r.want = 1 then
    if r.phase = 1 && !x.pegRuns then s.hoDrop d c h stAborted
    else if r.phase = 1 && x.hoReason c h r.wantPos true = 11 then s.hoRefuse d c h 11
    else if (x.sliceTest (x.sympSlice c h)).isSome then s
    else if r.phase = 0 && r.wantOwner ≤ 4 && x.tapDead c h r.wantPos r.wantTap then
      match x.workOp c h with
      | some o => s.workAbort d c h o 3
      | none => s.detach d c h 3
    else
      let why := if r.phase = 1 then x.hoReason c h r.wantPos true else 0
      if why ≠ 0 then s.hoRefuse d c h why
      else
        let s := s.attach d c h
        let s := if r.phase = 1 then s.onSide d c h (fun r => { r with phase := 2 }) else s
        let s := s.onDie d (fun x => x.mapOps (fun o => o.isHo && o.obj == sideObj c h) (fun o => { o with data := [o.attempts + 1] }))
        if r.phase = 1 then s.hoProgress d c h 1 else s
  else if r.phase ≠ 0 then s.hoStep d c h
  else match x.workOp c h with
    | some o =>
      if x.tapDead c h r.pos r.tap then s.workAbort d c h o 3
      else if o.opcode = 0x0501 then s.eyeStepAt d c h o else s
    | none => s

/-! ### Bank rotation (R146, R147) -/

/-- BANK_STAT (R154). -/
def Banks.stat (b : Banks) : Nat := b.spare + 8 * b.src + 64 * b2n b.copying + 256 * b.failed

/-- A test of the course's spare bank runs (R425). -/
def Die.bankTest (x : Die) (c : Nat) : Bool := x.bist.tests.any (fun t => t.test == 3 && t.target % 8 == c)

/-- BANK_ROTATION_START (R146 step 1): BANK_PERIOD × 1,024 strokes have passed and no test of the spare runs; the next
logical bank starts to be copied, with dual writes. -/
def execBankRotationStart (d : DieId) (c : CourseId) (s : State) : Result :=
  let x := s.die d
  let v := x.course c.val
  let b := v.banks
  let cfg := x.act (oBank c.val)
  .next (if present s.part d && s.running && !x.brg.isolated && x.bistOn && fld cfg 0 0 == 1 && !b.stopped && !b.copying && b.spare != 7
      && !x.bankTest c.val && b.lastRot + fld cfg 10 1 * 1024 ≤ s.stroke d then
    (if x.gated 2 10 then s.gateOpen d 2 10 else s).setCourse d c.val { v with
      banks := { b with copying := true, src := (b.map[b.nextLog]?).getD 0, logical := b.nextLog,
                        nextLog := (b.nextLog + 1) % 6, copied := 0, lastRot := s.stroke d } }
  else s)

/-- BANK_SWAP (R146 steps 3 and 4, R147): at the edge of a boundary that follows the copy, the first one where the row comes there, the
former spare serves the logical bank; the old bank is the new spare, which the device tests (log entry 108). -/
def execBankSwap (d : DieId) (c : CourseId) (s : State) : Result :=
  let x := s.die d
  let v := x.course c.val
  let b := v.banks
  .next (if present s.part d && s.running && x.bistOn && s.pos = 0 && b.copying && b.copied == bankSize && b.copyEnd < s.stroke d then
    let s := s.setCourse d c.val { v with
      banks := { b with map := b.map.set b.logical b.spare, spare := b.src, src := 7, copying := false, copied := 0 } }
    let s := s.count d (cCourse c.val + 0x518)
    let s := s.postCourse d c.val 0x14 (b.src + 8 * b.spare + 64 * b.logical)
    let k : Packet := { origin := d, queue := 0, tag := BitVec.ofNat 16 (0xFFC0 + c.val), length := 6, die := d, fence := false, noprog := true, irq := false,
                        target := BitVec.ofNat 32 c.val, cookie := 0, words := [3, 0] }
    let t : Test := { tag := k.tag, test := 3, target := c.val, packet := k, isol := true, auto_ := true, paused := !x.bistOn, sliceAt := s.stroke d + 1 }
    let s := s.onDie d (fun x => ({ x with bist := { x.bist with tests := x.bist.tests ++ [t] } }).lowered)
    s.count d cBist
  else s)

end Sys2Proof.Machine
end

