-- ==== Sys2Proof/Machine/Training.lean ====
section
/-! DEFINITION. Link training (R157 to R188): sessions, the lane session, the training engine, frames, and the training
commands. The single-lane sessions of lattice and the phase sessions of gearbox lanes run through the same engine. -/

namespace Sys2Proof.Machine

/-! ### Lanes in a session -/

/-- The three kinds of session a lane can be in (R157, R221, R238). -/
inductive LaneKind where
  | session
  | lattice
  | phase
  deriving DecidableEq, Repr

/-- The session a lane of port n is in. -/
def Die.laneKind (x : Die) (n : Nat) (h : Side) (j : Nat) : Option LaneKind :=
  let v := x.course (n / 8)
  if (x.port n).sess then (if (x.segPos n h).contains j then some .session else none)
  else if h == .line && (x.port n).enabled && v.lat.sess && v.lat.spos == j && hasLattice (x.cfga n) then some .lattice
  else if h == .line && hasGearbox (x.cfga n) && (x.portLine n).contains j && (match v.gbx[j]? with | some g => g.phses | none => false) then some .phase
  else none

/-- Lanes of one segment's session. -/
def Port.lanes (v : Port) : Side → SMap LaneSess
  | .host => v.hlanes
  | .line => v.llanes

def Port.setLanes (v : Port) (h : Side) (l : SMap LaneSess) : Port :=
  match h with
  | .host => { v with hlanes := l }
  | .line => { v with llanes := l }

/-- A gearbox lane of a course. -/
def Course.gbxLane (v : Course) (k : Nat) : Gbx := (v.gbx[k]?).getD {}

/-- A lane's session state. -/
def Die.lane (x : Die) (n : Nat) (h : Side) (j : Nat) (k : LaneKind) : LaneSess :=
  match k with
  | .session => SMap.get {} ((x.port n).lanes h) j
  | .lattice => (x.course (n / 8)).lat.lane
  | .phase => ((x.course (n / 8)).gbxLane j).lane

/-- Write a lane's session state. -/
def State.setLane (s : State) (d : DieId) (n : Nat) (h : Side) (j : Nat) (k : LaneKind) (l : LaneSess) : State :=
  let x := s.die d
  let v := x.course (n / 8)
  match k with
  | .session => s.onPort (portId d n) (fun p => p.setLanes h (SMap.put {} (p.lanes h) j l))
  | .lattice => s.setCourse d (n / 8) { v with lat := { v.lat with lane := l } }
  | .phase => s.setCourse d (n / 8) { v with gbx := v.gbx.setIfInBounds j { (v.gbxLane j) with lane := l } }

/-- The segment runs peer training (R166, R170). -/
def Die.peerSeg (x : Die) (n : Nat) (h : Side) : Bool := h == .line && isPeer (x.cfgb n)

/-- TRN_CFG in use: as it stood when the port's last session started (R186). -/
def Die.trnCfg (x : Die) (n : Nat) : Half := (x.port n).trn

/-- Framers of one segment, by position. -/
def Port.framers (v : Port) : Side → SMap Framer
  | .host => v.hFramers
  | .line => v.lFramers

/-- The framer of a lane. -/
def Port.framer (v : Port) (h : Side) (j : Nat) : Framer := SMap.get {} (v.framers h) j

/-- Write the framer of a lane. -/
def Port.setFramer (v : Port) (h : Side) (j : Nat) (f : Framer) : Port :=
  match h with
  | .host => { v with hFramers := SMap.put {} v.hFramers j f }
  | .line => { v with lFramers := SMap.put {} v.lFramers j f }

/-! ### Transmit taps (R111, R166, R177, R178) -/

/-- The taps in use of transmitter t, c(−3) first. -/
def Die.tapsOf (x : Die) (t : Nat) : List Int :=
  (List.range 6).map (fun k => let v := fld (x.act (oTap t k)) 6 0; if k = 3 then (v : Int) else signed 7 v)

/-- Taps as register values. -/
def tapWords (l : List Int) : List Half := l.map (fun v => BitVec.ofNat 16 (unsigned 7 v))

/-- Put taps into use (R112). -/
def Die.setTaps (x : Die) (t : Nat) (l : List Half) : Die :=
  ((List.range 6).zip l).foldl (fun x p => x.setAct (oTap t p.1) p.2) x

/-- The peer presets (R178). -/
def peerPreset : Nat → List Int
  | 0 => [0, 0, 0, 64, 0, 0]
  | 1 => [0, 0, -4, 60, 0, 0]
  | 2 => [0, 0, -8, 56, 0, 0]
  | 3 => [0, 0, -4, 54, -6, 0]
  | 4 => [0, 2, -8, 50, -4, 0]
  | 5 => [0, 0, -6, 50, -8, 0]
  | 6 => [1, -3, -10, 46, -4, 0]
  | _ => [0, 0, 0, 56, -8, 0]

/-- The standard's preset p of a rate; p = 8 is the default initial condition. c(+2) has its committed value (R166). -/
def Die.standardTaps (x : Die) (t rate p : Nat) : List Half :=
  (List.range 5).map (fun k => (Config.standardPreset rate p k).setWidth 16) ++ [x.led (oTap t 5)]

/-- One tap moved by one unit (R166, R177): TAP_STATUS, and the new taps where they change. -/
def moveTap (l : List Int) (k : Nat) (dl : Int) : Nat × Option (List Int) :=
  let v := (l[k]?).getD 0 + dl
  let lo : Int := if k = 3 then 0 else -64
  let hi : Int := if k = 3 then 64 else 63
  let m := l.set k v
  if v < lo then (2, none) else if hi < v then (3, none)
  else if 64 < (m.map Int.natAbs).sum then (4, none) else (1, some m)

/-- The answer to a partner's request (R166, R177): TAP_STATUS, and the taps that the answer changes. R177 says neither what a preset of
a single tap does (TAP_STATUS 0, no change) nor what a hold of a tap answers (1): DESIGN CHOICE, log entry 95. -/
def Die.answerTo (x : Die) (t rate : Nat) (peer : Bool) (f : Frame) : Nat × Option (List Half) :=
  let op := f.reqOp
  let tap := f.reqTap
  if op = 3 then
    if tap ≠ 7 then (0, none)
    else if peer then (5, some (tapWords (peerPreset f.reqPreset)))
    else (5, some (x.standardTaps t rate f.reqPreset))
  else if 6 ≤ tap then (0, none)
  else if op = 0 then (1, none)
  else if !peer && tap = 5 then (4, none)
  else
    let r := moveTap (x.tapsOf t) tap (if op = 1 then 1 else -1)
    (r.1, r.2.map tapWords)

/-- A frame carries no request (R177). -/
def Frame.noRequest (f : Frame) : Bool := f.reqTap == 6 && f.reqOp == 0

/-! ### Segment words (R161, R183, R185, R186) -/

/-- A segment's state: FAILED overrides, else the lowest among its lanes; IDLE with no session. -/
def segState (l : SMap LaneSess) : Nat :=
  if l.any (fun p => p.2.state == 7) then 7
  else match l with
    | [] => 0
    | p :: m => m.foldl (fun a q => min a q.2.state) p.2.state

/-- TRN_SEG. -/
def Port.trnSeg (v : Port) : Nat :=
  segState v.hlanes + 8 * segState v.llanes + 64 * b2n (v.sess && v.kept.isSome) + 128 * v.modes + 2048 * v.reason

/-- Lanes of a segment that satisfy f, as a mask by position; line data lanes by the host position whose data they carry,
on gearbox ports by line position. -/
def Die.laneMask (x : Die) (n : Nat) (h : Side) (f : Nat → LaneSess → Bool) : Nat :=
  let lanes := (x.port n).lanes h
  let pos := match h with
    | .host => (x.portHost n).map (fun j => (j, j))
    | .line => if hasGearbox (x.cfga n) then (x.portLine n).map (fun j => (j, j))
               else (x.portHost n).map (fun j => (j, x.lineFor n j))
  (pos.filter (fun p => f p.2 (SMap.get {} lanes p.2))).foldl (fun m p => m + 2 ^ p.1) 0

/-- The slice of a lane is CONVERGED. -/
def Die.laneConv (x : Die) (n : Nat) (h : Side) (j : Nat) : Bool := (x.slice (x.serving (n / 8) h j)).converged

/-- The framer of a lane is locked (R174). -/
def Die.lockedFramer (x : Die) (n : Nat) (h : Side) (j : Nat) : Bool := ((x.port n).framer h j).locked

/-- TRN_HLANE and TRN_LLANE. -/
def Die.trnHlane (x : Die) (n : Nat) : Nat :=
  x.laneMask n .host (fun j _ => x.lockedFramer n .host j) + 256 * x.laneMask n .host (fun _ l => l.rrRx)
def Die.trnLlane (x : Die) (n : Nat) : Nat :=
  x.laneMask n .line (fun j _ => x.lockedFramer n .line j) + 256 * b2n (x.lockedFramer n .line 8)

/-! ### The end of sessions (R161, R181, R183) -/

/-- The TRAIN_START of a port. -/
def Die.trainOp (x : Die) (n : Nat) : Option Op :=
  x.peg.ops.find? (fun o => o.opcode == 0x0301 && o.obj == n && o.phase != opOver)

/-- The final record of a port's TRAIN_START (R183). -/
def State.trainEnd (s : State) (p : PortId) (status effect reason seg : Nat) : State :=
  let v := s.port p
  match (s.die p.die).trainOp p.key with
  | none => s
  | some o => s.conclude p.die o status effect [reason + 256 * seg + 512 * v.modes, v.hostReady, v.lineReady]

/-- The final record of a TRAIN_START whose sessions have not begun (R183). -/
def State.startEnd (s : State) (p : PortId) (status reason seg : Nat) : State :=
  match (s.die p.die).trainOp p.key with
  | none => s
  | some o => s.conclude p.die o status 0 [reason + 256 * seg, 0, 0]

/-- The sessions of a port end; their lanes return to IDLE, or show FAILED. -/
def Port.endSess (v : Port) (fail : Bool) : Port :=
  let l := fun (m : SMap LaneSess) => if fail then m.map (fun q => (q.1, { q.2 with state := 7, flock := false })) else []
  { v with sess := false, hostRun := false, lineRun := false, kept := none, ready := false, abort := 0,
           hlanes := l v.hlanes, llanes := l v.llanes, agreed := 0 }

/-- The failing segment (R181): the line for a mismatch, else the one that holds the lane in the lowest state. -/
def Port.failSeg (v : Port) (reason : Nat) : Nat :=
  if reason = 6 then 1 else if segState v.llanes < segState v.hlanes then 1 else 0

/-- The final status of a failed TRAIN_START (R183). -/
def trainStatusOf : Nat → Nat
  | 6 => stMismatch
  | 7 => stCancelled
  | 8 => stNotReady
  | _ => stTimeout

/-- Strokes of the automatic retry (R60). -/
def retryStrokes (n : Nat) : Nat := n * 97657

/-- The sessions of a port fail (R181): DETECTED, TRAIN_FAILED, the retry under AUTO, and the record of TRAIN_START. -/
def State.trainFail (s : State) (p : PortId) (reason : Nat) : State :=
  let v := s.port p
  let now := s.stroke p.die
  let seg := v.failSeg reason
  let a := (s.die p.die).cfga p.key
  let n := trainRetries ((s.die p.die).cfgb p.key)
  let s := s.onPort p (fun v =>
    { (v.endSess true) with
      reason := reason, failed := true, noRetry := false, startAt := none,
      retryAt := if isHold a || n = 0 || v.noRetry then none else some (now + retryStrokes n) })
  let s := s.portMove p 2 5
  let s := s.count p.die (cPort p.course.val p.idx.val + 0xC)
  let s := s.postPort p 0x06 (seg + 256 * reason)
  let c := (s.die p.die).course p.course.val
  let s := if c.lat.state = 1 && hasLattice a then s.setCourse p.die p.course.val { c with lat := { c.lat with state := 0, changed := now } } else s
  s.trainEnd p (trainStatusOf reason) (if reason = 7 then 2 else 1) reason seg

/-! ### Session start (R157, R162, R165) -/

/-- The strokes of a budget (R158). -/
def budgetStrokes (ms : Nat) : Nat := (ms * 9765625 + 9999) / 10000

/-- The budget of a port, in strokes. -/
def Die.budget (x : Die) (n : Nat) : Nat := budgetStrokes (fld (x.act (oBudget (n / 8) (n % 8))) 11 0)

/-- A lane's slice starts a session from its committed values with MU_ACQ; its pin record is invalid (R96, R97, R162). The residual
terms H1 and H2, which no register commits, start from 0 (log entry 71). -/
def State.laneStart (s : State) (d : DieId) (c : Nat) (h : Side) (j : Nat) : State :=
  (s.sliceSession d c h j).onSlice d ((s.die d).serving c h j) (fun v => { v with h1 := 0, h2 := 0 })

/-- The initial taps of a session on a transmitter (R162). -/
def State.tapsStart (s : State) (d : DieId) (n : Nat) (h : Side) (j : Nat) : State :=
  let x := s.die d
  let t := txOf (n / 8) h j
  let l := if x.peerSeg n h then tapWords (peerPreset (fld (x.trnCfg n) 2 0)) else x.standardTaps t (rate (x.cfga n)) 8
  s.onDie d (fun x => x.setTaps t l)

/-- A lane at the start of a session: SEEK, frame-locked where its framer is. -/
def Die.laneSeek (x : Die) (n : Nat) (h : Side) (j own : Nat) (noReq : Bool) : LaneSess :=
  let f := (x.port n).framer h j
  { state := 1, ownId := own, flock := f.locked, arrival := f.arrival, reqDone := noReq }

/-! ### Outgoing peer frames (R173, R175, R176, R179) -/

/-- The measured marker arrivals of a lattice port's line lanes (R212). -/
def Die.arrivals (x : Die) (n : Nat) : List Nat := (x.port n).llanes.map (fun q => q.2.arrival)

/-- Every line lane of the port is frame-locked (R212). -/
def Die.allLocked (x : Die) (n : Nat) : Bool := !(x.port n).llanes.isEmpty && (x.port n).llanes.all (fun q => q.2.flock)

/-- The largest skew between the earliest and latest lanes (R212). -/
def spread (l : List Nat) : Nat := l.foldl max 0 - l.foldl min (l.foldl max 0)

/-- LATTICE_READY is sent (R212). -/
def Die.latReady (x : Die) (n : Nat) : Bool :=
  hasLattice (x.cfga n) && !(x.port n).latUnav && x.allLocked n && spread (x.arrivals n) ≤ 1024

/-- Every lane of a segment of the port's session satisfies f. -/
def Die.allLanes (x : Die) (n : Nat) (h : Side) (f : LaneSess → Bool) : Bool := ((x.port n).lanes h).all (fun q => f q.2)

/-- The grants the engine decides for the line segment (R179): P425, lattice. -/
def Die.grants (x : Die) (n : Nat) : Bool × Bool :=
  let seen := x.allLanes n .line (fun l => l.frame.isSome)
  (hasGearbox (x.cfga n) && x.peerSeg n .line && seen && x.allLanes n .line (fun l => l.cap425 && l.req425),
   hasLattice (x.cfga n) && !(x.port n).latUnav && seen && x.allLanes n .line (fun l => l.capLat && l.reqLat))

/-- Fields of a word: each value with its width in bits, the least significant first. -/
def packFields (l : List (Nat × Nat)) : Nat := (l.foldr (fun p n => p.2 % 2 ^ p.1 + 2 ^ p.1 * n) 0)

/-- The control field of a lane's outgoing peer frames (R175, R179): the request outstanding, if any, the modes asked for, and the
beacon of a retimer that can run lattice, P425 and rotation. -/
def Die.control (x : Die) (n j : Nat) (l : LaneSess) : BitVec 64 :=
  let a := x.cfga n
  let code := if l.reqOpen then l.reqCode else 6
  BitVec.ofNat 64 (packFields
    [(8, code), (4, l.reqSeq), (1, fld (x.trnCfg n) 3 3), (1, b2n (hasGearbox a)), (1, b2n (hasLattice a)), (1, 0), (4, 1), (2, 0),
     (1, 1), (1, 1), (1, 1), (7, 0), (4, j), (4, if hasGearbox a then 4 else rate a), (8, l.ownId)])

/-- The status and mode bits that the engine decides for a lane's frames (R159, R176, R179, R212): bit 0 LATTICE_READY, 1 PHASE_LOCK,
2 PRECODE_ON, 3 P425_GRANT, 4 LATTICE_GRANT. In a single-lane or phase session the modes are those the port has agreed (R221). -/
def Die.laneBits (x : Die) (n : Nat) (k : LaneKind) (l : LaneSess) : Nat :=
  let g := if k = .session then x.grants n else (bit (x.port n).modes 1, bit (x.port n).modes 0)
  b2n (x.latReady n) + 2 * b2n l.flock + 4 * b2n l.reqPre + 8 * b2n g.1 + 16 * b2n g.2

/-- LATTICE_READY is sent on every line lane of the port's session (R212). -/
def Die.latReadySent (x : Die) (n : Nat) : Bool :=
  hasLattice (x.cfga n) && !(x.port n).llanes.isEmpty && (x.port n).llanes.all (fun q => bit q.2.bits 0)

/-- The status field of a lane's outgoing peer frames (R176, R179, R180, R212), with the bits the engine decided last. -/
def Die.status (x : Die) (n j : Nat) (l : LaneSess) : BitVec 64 :=
  let snr := (x.slice (x.serving (n / 8) .line j)).snrNow
  BitVec.ofNat 64 (packFields
    [(3, l.ackTap), (3, l.tapStat), (4, (l.answered).getD 0), (1, b2n l.rrTx), (5, l.bits), (8, min 255 (snr * 2 / 5)), (5, if l.state = 5 && l.count ≤ 16 then l.count else 0),
     (1, b2n (l.state == 6)), (2, 0), (8, match l.frame with | some f => f.session | none => 0)])

/-- A peer frame begins on a lane with these fields (R159, R170). -/
def State.frameBegin (s : State) (d : DieId) (n : Nat) (h : Side) (j : Nat) (k : LaneKind) : State :=
  let x := s.die d
  let l := x.lane n h j k
  if x.peerSeg n h then s.setLane d n h j k { l with sentCtl := x.control n j l, sentSts := x.status n j l } else s

/-- The register of a lane's pattern generator at the start of the frame being sent (R173). -/
def Die.patternReg (x : Die) (n j : Nat) (l : LaneSess) : Nat :=
  prbsSkip (rate (x.cfga n) == 3) 2 (l.frames * patternSymbols) (patternSeed j)

/-- The 8,192 symbols of the peer frame that a lane is sending, before polarity (R170, R171). -/
def Die.frameNow (x : Die) (n j : Nat) (l : LaneSess) : List Nat :=
  if rate (x.cfga n) = 3 then peerFrame26 l.sentCtl l.sentSts (x.patternReg n j l) else peerFrame l.sentCtl l.sentSts (x.patternReg n j l)

/-- The frame as it goes out: with the transmitter's polarity, which applies to every mode (R108, R117, R171). -/
def Die.frameSent (x : Die) (n j : Nat) (l : LaneSess) : List Nat :=
  (x.frameNow n j l).map (invert (rate (x.cfga n) == 3) (x.txInv (txOf (n / 8) .line j)))

/-- The waits of R212 once every line lane is locked; an excessive skew is posted once a session (R213). -/
def State.latMeasure (s : State) (d : DieId) (n : Nat) : State :=
  let x := s.die d
  if !hasLattice (x.cfga n) || (x.port n).latUnav || !x.allLocked n then s
  else
    let c := x.course (n / 8)
    let l := (x.port n).llanes
    let last := (x.arrivals n).foldl max 0
    let skew := spread (x.arrivals n)
    let ofs := Vector.ofFn (n := 9) (fun v => match l.find? (fun q => q.1 == v.val) with | some q => min 1024 (last - q.2.arrival) | none => 0)
    let s := s.setCourse d (n / 8) { c with lat := { c.lat with skew := min skew 2047, ofs := ofs, skewSeen := c.lat.skewSeen || decide (1024 < skew) } }
    if 1024 < skew && !c.lat.skewSeen then s.postPort (portId d n) 0x36 (min skew 2047) else s

/-- The sessions of a port start at a boundary (R157, R162, R165, R188). `keep`: the segment that did not lose its lanes; a
reacquisition on one of its lanes ends there, and the lane acquires afresh (R97). The counts of requests that TRAIN_STATUS gives begin
anew (R185 does not say over what they run: DESIGN CHOICE, log entry 96). Framers that are locked already give the waits (R212). -/
def State.sessStart (s : State) (p : PortId) (keep : Option Side) : State :=
  let d := p.die
  let n := p.key
  let x := s.die d
  let now := s.stroke d
  let own := ((s.port p).ownId + 1) % 256
  let a := x.cfga n
  let s := s.onPort p (fun v => { v with latUnav := false, trn := x.act (oTrn (n / 8) (n % 8)) })
  let seg := fun (s : State) (h : Side) =>
    let pos := (s.die d).segPos n h
    let s := if keep = some h then
        pos.foldl (fun s j =>
          let m := (s.die d).serving (n / 8) h j
          if ((s.die d).slice m).reacq then s.lostInSession d m else s) s
      else pos.foldl (fun s j => s.laneStart d (n / 8) h j) s
    let s := pos.foldl (fun s j => s.tapsStart d n h j) s
    s.onPort p (fun v => v.setLanes h (pos.foldl (fun m j => SMap.put {} m j ((s.die d).laneSeek n h j own (keep = some h))) []))
  let s := seg (seg s .host) .line
  let s := s.onPort p (fun v =>
    { v with
      sess := true, hostRun := true, lineRun := true, kept := keep, begun := now, startAt := none, startOp := false,
      failed := false, retryAt := none, abort := 0, modes := 0, agreed := 0, ready := false, sessions := v.sessions + 2, reqTx := 0,
      reqRx := 0, ownId := own, partnerId := 0, hostReady := 0, lineReady := 0, restartH := none, restartL := none })
  let s := ((s.die d).segPos n .line).foldl (fun s j => s.frameBegin d n .line j .session) s
  let s := s.portMove p 3 0x0B
  let s := s.postPort p 0x10 (b2n (keep != some .host) + 2 * b2n (keep != some .line) + 4 * b2n keep.isSome)
  let s := s.count d (cTrain p.course.val p.idx.val) 2
  let c := (s.die d).course p.course.val
  if hasLattice a then
    (s.setCourse d p.course.val { c with lat := { c.lat with
      state := 1, changed := now, port := p.idx.val, skewSeen := false, pos := 15, txFrames := false, agree := 0 } }).latMeasure d n
  else s

/-! ### Frames and framers (R55, R159, R174, R182) -/

/-- The protocol of a frame is the segment's (R52, R55). -/
def Die.frameFits (x : Die) (n : Nat) (h : Side) (f : Frame) : Bool := f.peer == x.peerSeg n h

/-- LINE_KIND of a first valid frame (R55). -/
def kindOf (fits : Bool) (f : Frame) : Nat :=
  if !fits then 5 else if !f.peer then 2 else if f.ptype = 1 then 4 else 3

/-- The line partner is identified by the first valid frame of the line segment while it is present, or that makes it present
(R53, R55). A mismatch ends a session with
reason 0x06 at the next boundary (R181). -/
def State.identify (s : State) (p : PortId) (f : Frame) : State :=
  let x := s.die p.die
  let fits := x.frameFits p.key .line f
  let here := (s.port p).linePres || (frameEn (x.cfgb p.key) && x.prsAllows p.key .line)
  if 2 ≤ (s.port p).kind || !here then s
  else
    let s := s.onPort p (fun v =>
      { v with kind := kindOf fits f, caps := if f.peer then b2n f.capLattice + 2 * b2n f.capP425 + 4 * b2n f.capRotation else 0,
               abort := if !fits && v.sess then 6 else v.abort })
    if fits then s else s.postPort p 0x09 (b2n f.peer)

/-- The fields of a valid peer frame (R175, R176); the reserved partner types 2 and 3 read as 0. -/
def peerFields (c s : BitVec 64) : Frame :=
  let f := fun (w : BitVec 64) (hi lo : Nat) => bits w.toNat hi lo
  let b := fun (w : BitVec 64) (i : Nat) => w.getLsbD i
  { peer := true, reqTap := f c 2 0, reqOp := f c 4 3, reqPreset := f c 7 5, reqSeq := f c 11 8, reqPrecode := b c 12, reqP425 := b c 13,
    reqLattice := b c 14, beaconVer := f c 19 16, ptype := if f c 21 20 < 2 then f c 21 20 else 0, capLattice := b c 22, capP425 := b c 23,
    capRotation := b c 24, lanePos := f c 35 32, rate := f c 39 36, session := f c 47 40, ackTap := f s 2 0, tapStatus := f s 5 3,
    ackSeq := f s 9 6, rxReady := b s 10, latReady := b s 11, phaseLock := b s 12, precodeOn := b s 13, p425Grant := b s 14,
    latGrant := b s 15, rxSnr := f s 23 16, countdown := f s 28 24, done := b s 29, echo := f s 39 32 }

/-- The fields of a standard frame (R166). -/
def stdFields (f : StdFrame) : Frame :=
  { peer := false, reqTap := f.reqTap.val, reqOp := f.reqOp.val, reqPreset := f.reqPreset.val, reqSeq := f.reqSeq.val,
    reqPrecode := f.reqPrecode, session := f.session.toNat, ackSeq := f.ackSeq.val, rxReady := f.rxReady, precodeOn := f.precodeOn,
    done := f.done }

/-- What a framer reads (R166, R172, R174): the fields of a valid frame, none of a bad one. -/
def readRx : RxFrame → Option Frame
  | .peer l => (readFrame (l.map (·.val))).map (fun w => peerFields w.1 w.2)
  | .standard f => if f.ok then some (stdFields f) else none

/-- A framer counts a frame (R174). -/
def Framer.take (f : Framer) (good : Bool) : Framer :=
  if good then { f with valid := min 3 (f.valid + 1), bad := 0 } else { f with valid := 0, bad := min 4 (f.bad + 1) }

/-- A framer presents the fields of a valid frame to the engine (R159). -/
def LaneSess.present (l : LaneSess) (f : Frame) : LaneSess :=
  { l with
    frame := some f, fresh := true, session := l.session.or (some f.session), rrRx := f.rxReady, latRx := f.latReady,
    doneRx := l.doneRx || f.done, grant425 := f.p425Grant, grantLat := f.latGrant, req425 := f.reqP425, reqLat := f.reqLattice,
    reqPre := f.reqPrecode, capLat := f.capLattice, cap425 := f.capP425, capRot := f.capRotation }

/-- A gearbox lane's symbol phase is fixed by a marker (R236); one that had been lost is restored, and PHASE_RESTORED
posted (R237, R246). `bySession`: by a phase session. -/
def State.phaseBack (s : State) (d : DieId) (n k : Nat) (bySession : Bool) : State :=
  let c := (s.die d).course (n / 8)
  let g := c.gbxLane k
  let s := s.setCourse d (n / 8) { c with gbx := c.gbx.setIfInBounds k { g with phase := true, lostAt := none } }
  match g.lostAt with
  | none => s
  | some t => s.postPort (portId d n) 0x42 (k + 4 * b2n bySession + 65536 * sat16 (s.stroke d - t))

/-- The framers of port n are isolated for self-test (R420, R421: FRAMER): they take no frames. -/
def Die.framerTest (x : Die) (n : Nat) : Bool := x.bist.tests.any (fun t => t.isol && !t.paused && t.test == 6 && t.target % 64 == n)

/-- TRAINING_FRAME (R53, R55, R159, R172, R174, R175): a bad frame is discarded and counted; a valid one makes its segment present,
identifies the line partner, and is presented to the engine on a lane in a session. The framer counts both; a beacon of version 0
is not accepted. In a session of the port, each frame of a locked framer fixes the symbol phase of its gearbox line lane (R236). -/
def execTrainingFrame (p : PortId) (side : Side) (pos : Pos) (f : RxFrame) (s : State) : Result :=
  let d := p.die
  let n := p.key
  let j := pos.val
  .next (if present s.part d && s.running && (s.port p).enabled && ((s.die d).segPos n side).contains j && !(s.die d).framerTest n then
    match readRx f with
    | none =>
      let s := s.onPort p (fun v => v.setFramer side j ((v.framer side j).take false))
      s.count d (cTrain p.course.val p.idx.val + 0xC)
    | some f =>
      let s := s.onPort p (fun v => match side with | .host => { v.heard .host s.pos with hFrame := true } | .line => { v.heard .line s.pos with lFrame := true })
      let fits := (s.die d).frameFits n side f
      let s := s.onPort p (fun v => v.setFramer side j ((v.framer side j).take fits))
      if f.peer && f.beaconVer = 0 then s
      else
        let s := if side == .line then s.identify p f else s
        if !fits then s
        else match (s.die d).laneKind n side j with
          | none => s
          | some k =>
            let l := (s.die d).lane n side j k
            let s := s.setLane d n side j k (l.present f)
            let s := if k = .session && side == .line && hasGearbox ((s.die d).cfga n) && j < 4 && ((s.port p).framer side j).locked
                && !(((s.die d).course (n / 8)).gbxLane j).phase then s.phaseBack d n j false else s
            if f.peer then s.onPort p (fun v => { v with partnerId := f.session }) else s
  else s)

/-- A gearbox lane's symbol phase is lost (R237, R245, R246); the lane stays lost for the port. -/
def State.phaseLost (s : State) (d : DieId) (n k : Nat) : State :=
  let c := (s.die d).course (n / 8)
  let g := c.gbxLane k
  if !g.phase then s
  else
    let s := s.setCourse d (n / 8) { c with gbx := c.gbx.setIfInBounds k { g with phase := false, lostAt := some (s.stroke d) } }
    let s := s.count d (cCourse (n / 8) + 0x1110)
    s.postPort (portId d n) 0x41 k

/-- Valid frames a framer needs to lock: 3 consecutive peer frames (R174); a standard segment's rule is the standard's, of which the
device has seen at least one frame (R166). -/
def Die.lockFrames (x : Die) (n : Nat) (h : Side) : Nat := if x.peerSeg n h then 3 else 1

/-- Bad frames after which a framer loses lock: 4 consecutive ones on a peer segment (R174); on a standard segment at least one. -/
def Die.loseFrames (x : Die) (n : Nat) (h : Side) : Nat := if x.peerSeg n h then 4 else 1

/-- FRAME_LOCK_LOST (R161, R174): the framer loses lock after its bad frames; a lane in ACQUIRE, HOLD or READY returns to SEEK. -/
def execFrameLockLost (p : PortId) (side : Side) (pos : Pos) (s : State) : Result :=
  let d := p.die
  let n := p.key
  let f := (s.port p).framer side pos.val
  .next (if present s.part d && s.running && (s.port p).enabled && f.locked && (s.die d).loseFrames n side ≤ f.bad then
    let s := s.onPort p (fun v => v.setFramer side pos.val { f with locked := false })
    match (s.die d).laneKind n side pos.val with
    | none => s
    | some k =>
      let l := (s.die d).lane n side pos.val k
      if !l.flock then s
      else
        let back := 2 ≤ l.state && l.state ≤ 4
        s.setLane d n side pos.val k
          { l with flock := false, state := if back then 1 else l.state, rrTx := l.rrTx && !back }
  else s)

/-- REQUEST_ABANDONED (R177): a request unanswered for 1,024 strokes is given up, and the device's requests end. -/
def execRequestAbandoned (p : PortId) (side : Side) (pos : Pos) (s : State) : Result :=
  let d := p.die
  .next (if present s.part d && s.running then
    match (s.die d).laneKind p.key side pos.val with
    | none => s
    | some k =>
      let l := (s.die d).lane p.key side pos.val k
      if l.reqOpen && l.reqFrom + 1024 ≤ s.stroke d then s.setLane d p.key side pos.val k { l with reqOpen := false, reqDone := true } else s
  else s)

/-! ### The training engine (R159 to R163, R177 to R179) -/

/-- Answer the partner's latest new request (R160, R177). -/
def State.laneAnswer (s : State) (d : DieId) (n : Nat) (h : Side) (j : Nat) (k : LaneKind) : State :=
  let x := s.die d
  let l := x.lane n h j k
  match l.frame with
  | none => s
  | some f =>
    if !l.fresh || l.state < 2 || 4 < l.state || Frame.noRequest f || l.answered = some f.reqSeq then s
    else
      let r := x.answerTo (txOf (n / 8) h j) (rate (x.cfga n)) f.peer f
      let s := s.setLane d n h j k { l with answered := some f.reqSeq, ackTap := f.reqTap, tapStat := r.1, pendTaps := r.2 }
      let s := s.onPort (portId d n) (fun v => { v with reqRx := v.reqRx + 1 })
      s.count d (cTrain (n / 8) (n % 8) + 8)

/-- Four consecutive answered requests have raised SNR_NOW by less than 0.1 dB in total (R177): newest value first. -/
def requestsFlat (l : List Nat) : Bool :=
  match l with
  | a :: _ :: _ :: _ :: e :: _ => a < e + 1
  | _ => false

/-- The request that a free value stands for (R175, R177): one of the requests that the rules allow, a hold, an increment or a decrement of
one tap, or a preset of all. -/
def requestCode (b : Nat) : Nat := if b / 8 % 4 = 3 then 7 + 8 * 3 + 32 * (b / 32 % 8) else b % 8 % 6 + 8 * (b / 8 % 4)

/-- The device's own requests on a lane in ACQUIRE (R177): the partner's answer to the one outstanding, then the next. Which of the valid
requests it makes is a free value: the spec says only that it is chosen to raise the SNR. -/
def State.laneRequest (s : State) (d : DieId) (n : Nat) (h : Side) (j : Nat) (k : LaneKind) : State :=
  let x := s.die d
  let l := x.lane n h j k
  if l.state ≠ 2 || k = .phase || l.reqDone then s
  else
    let snr := (x.slice (x.serving (n / 8) h j)).snrNow
    let got := l.reqOpen && (match l.frame with | some f => f.ackSeq == l.reqSeq | none => false)
    let refs := if got then (snr :: l.snrRef).take 5 else if l.snrRef.isEmpty then [snr] else l.snrRef
    let l1 := { l with reqOpen := l.reqOpen && !got, snrRef := refs }
    if l1.reqOpen then s.setLane d n h j k l1
    else if requestsFlat refs || fld (x.trnCfg n) 15 8 ≤ l1.reqCount then s.setLane d n h j k { l1 with reqDone := true }
    else
      let code := requestCode (Config.freeRequest s.free).toNat
      let s := { s with free := s.free + 1 }
      let s := s.setLane d n h j k { l1 with
        reqOpen := true, reqSeq := (l1.reqSeq + 1) % 16, reqFrom := s.stroke d, reqCode := code, reqCount := l1.reqCount + 1 }
      let s := s.onPort (portId d n) (fun v => { v with reqTx := v.reqTx + 1 })
      s.count d (cTrain (n / 8) (n % 8) + 4)

/-- The receiver of a lane is ready for its kind of session: CONVERGED, or LOCKED in a phase session (R161, R238). -/
def Die.laneOk (x : Die) (n : Nat) (h : Side) (j : Nat) (k : LaneKind) : Bool :=
  let v := x.slice (x.serving (n / 8) h j)
  if k = .phase then v.locked else v.converged

/-- A gearbox line lane waits in ACQUIRE for P425 agreement (R179). -/
def Die.waits425 (x : Die) (n : Nat) (h : Side) (k : LaneKind) : Bool :=
  k == .session && h == .line && hasGearbox (x.cfga n) && !bit (x.port n).modes 1

/-- Note a partner's new session, seen on a lane in this decision (R188). -/
def Port.noteRestart (v : Port) (h : Side) (id j : Nat) : Port :=
  match h with
  | .host => { v with newH := v.newH ++ [(id, j)] }
  | .line => { v with newL := v.newL ++ [(id, j)] }

/-- A partner's new session on a lane in ACQUIRE, HOLD or READY returns it to ACQUIRE, on a kept segment through it, and clears its RR
(R161, R165, R182). -/
def State.laneRestart (s : State) (d : DieId) (n : Nat) (h : Side) (j : Nat) (k : LaneKind) : State :=
  let l := (s.die d).lane n h j k
  match l.frame with
  | none => s
  | some f =>
    if !l.fresh || l.session = some f.session then s
    else
      let hit := l.session.isSome && 2 ≤ l.state && l.state ≤ 4
      let s := s.setLane d n h j k { l with
        session := some f.session, state := if hit then (if k = .session && (s.port (portId d n)).kept = some h then 3 else 2) else l.state,
        rrTx := l.rrTx && !hit }
      if hit && k = .session then s.onPort (portId d n) (fun v => v.noteRestart h f.session j) else s

/-- Advance a lane's state as far as its own receiver decides (R161, R221), and decide the bits of its frames; a lane whose framer was
locked already leaves SEEK. A HOST capo holds a lane in ACQUIRE (R182). -/
def State.laneMove (s : State) (d : DieId) (n : Nat) (h : Side) (j : Nat) (k : LaneKind) : State :=
  let x := s.die d
  let l := x.lane n h j k
  let ok := x.laneOk n h j k
  let capo := (x.slice (x.serving (n / 8) h j)).capoHost
  let s1 :=
    if l.state = 1 && l.flock then (if k = .session && (x.port n).kept = some h then 3 else 2)
    else if l.state = 2 && ok && !capo && (l.reqDone || k = .phase) && !x.waits425 n h k then 3
    else if (l.state = 3 || l.state = 4) && !ok then 2
    else l.state
  s.setLane d n h j k { l with state := s1, rrTx := l.rrTx && 4 ≤ s1, fresh := false, bits := x.laneBits n k l }

/-- One lane's decision (R159). -/
def State.engineLane (s : State) (d : DieId) (n : Nat) (h : Side) (j : Nat) : State :=
  match (s.die d).laneKind n h j with
  | none => s
  | some k => (((s.laneRestart d n h j k).laneAnswer d n h j k).laneRequest d n h j k).laneMove d n h j k

/-- Precoding for the device's transmitters of a segment stands now (R167, R179): the partner asks for it on every lane, and is granted it. -/
def Die.preTxNow (x : Die) (n : Nat) (h : Side) : Bool :=
  !((x.port n).lanes h).isEmpty && ((x.port n).lanes h).all (fun q => q.2.reqPre)

/-- Precoding for its receivers stands now: the device asks for it, and the partner grants it on every lane. -/
def Die.preRxNow (x : Die) (n : Nat) (h : Side) : Bool :=
  fld (x.trnCfg n) 3 3 == 1 && !((x.port n).lanes h).isEmpty && ((x.port n).lanes h).all (fun q =>
    (match q.2.frame with | some f => f.precodeOn | none => false) && (x.peerSeg n h || x.sliceRh (x.serving (n / 8) h q.1)))

/-- Both sides' precoding requests stand on every lane of a segment (R167, R179). -/
def Die.preAgreed (x : Die) (n : Nat) (h : Side) : Bool := x.preTxNow n h && x.preRxNow n h

/-- Precoding agreed by direction (R179): host transmit and receive, line transmit and receive. -/
def Die.agreedNow (x : Die) (n : Nat) : Nat :=
  b2n (x.preTxNow n .host) + 2 * b2n (x.preRxNow n .host) + 4 * b2n (x.preTxNow n .line) + 8 * b2n (x.preRxNow n .line)

/-- Modes agreed now: lattice, P425, host and line precoding (R179, R183): each with the grants the engine has decided to send and those
received, on every lane. -/
def Die.modesNow (x : Die) (n : Nat) : Nat :=
  let both := fun (i : Nat) (got : LaneSess → Bool) => !(x.port n).llanes.isEmpty && x.allLanes n .line (fun l => bit l.bits i && got l)
  b2n (both 4 (fun l => l.grantLat)) + 2 * b2n (both 3 (fun l => l.grant425))
    + 4 * b2n (x.preAgreed n .host) + 8 * b2n (x.preAgreed n .line)

/-- Lattice is refused (R56, R179): the protection lane's session ends, its lane powers down at the next boundary,
LATTICE_UNAVAILABLE. -/
def State.latRefuse (s : State) (p : PortId) : State :=
  let c := (s.die p.die).course p.course.val
  let s := s.setCourse p.die p.course.val { c with lat := { c.lat with state := 0, changed := s.stroke p.die } }
  (s.onPort p (fun v => { v with latUnav := true, llanes := SMap.del v.llanes 8 })).postPort p 0x0A 0

/-- Agree the modes of a port (R179): what is agreed holds until the session ends. Lattice is refused when the engine, having agreed
what it can, finds every data lane in ACQUIRE or later and lattice not agreed. -/
def State.portModes (s : State) (p : PortId) : State :=
  let x := s.die p.die
  let v := s.port p
  let m := v.modes ||| x.modesNow p.key
  let s := s.onPort p (fun v => { v with agreed := v.agreed ||| x.agreedNow p.key })
  let s := if m = v.modes then s else (s.onPort p (fun v => { v with modes := m })).postPort p 0x12 m
  let data := v.llanes.filter (fun q => q.1 != 8)
  if hasLattice (x.cfga p.key) && !v.latUnav && !bit m 0 && data.all (fun q => 2 ≤ q.2.state) then s.latRefuse p else s

/-- The readiness rule of segment A against the other segment B (R163). -/
def Die.readyRule (x : Die) (n : Nat) (a b : Side) : Bool :=
  ((x.port n).lanes a).all (fun q => x.laneConv n a q.1) && ((x.port n).lanes b).all (fun q => x.laneConv n b q.1)
    && x.allLanes n b (fun l => l.rrRx)

/-- Move the lanes of a segment that the engine decides in HOLD to READY while the rule holds, and back; RR follows the rule to the end of
the session (R161, R163). -/
def Port.applyReady (v : Port) (h : Side) (rule : Bool) (decided : Nat → Bool) : Port :=
  v.setLanes h ((v.lanes h).map (fun q =>
    (q.1, if !decided q.1 then q.2
          else if q.2.state = 3 && rule then { q.2 with state := 4, rrTx := true }
          else if q.2.state = 4 && !rule then { q.2 with state := 3, rrTx := false }
          else if q.2.state = 5 || q.2.state = 6 then { q.2 with rrTx := rule } else q.2)))

/-- A segment's exit condition from READY (R161, R164). -/
def Die.exitHolds (x : Die) (n : Nat) (h : Side) : Bool :=
  x.allLanes n h (fun l => l.state == 4 && l.rrRx)
    && (h == .host || !bit (x.port n).modes 0 || (x.latReadySent n && x.allLanes n h (fun l => l.latRx)))

/-- The countdown a lane has before it: a peer segment's 16 frames follow the frame under way (R180). A standard segment's sequence is the
standard's, which no rule gives: complete at the next end of a frame (DESIGN CHOICE, log entry 97). -/
def endCount (peer : Bool) : Nat := if peer then 17 else 1

/-- PARTNER_RESTART for each segment on which lanes of this decision saw a new partner session that has not been told, with the
lowest of their positions (R188). A line lane's is its line position: R188 does not say which numbering it uses (DESIGN CHOICE, log
entry 98). -/
def State.restartsTold (s : State) (p : PortId) : State :=
  let v := s.port p
  let tell := fun (s : State) (h : Side) (l : List (Nat × Nat)) (told : Option Nat) =>
    match l.filter (fun q => told != some q.1) with
    | [] => s
    | q :: m => s.postPort p 0x13 (Side.code h + 2 * m.foldl (fun a r => min a r.2) q.2)
  let s := tell (tell s .host v.newH v.restartH) .line v.newL v.restartL
  s.onPort p (fun v =>
    { v with newH := [], newL := [], restartH := ((v.newH.head?).map (·.1)).or v.restartH,
             restartL := ((v.newL.head?).map (·.1)).or v.restartL })

/-- A lane is one of those that the engine decided in this stroke: an overrun has not carried it over (R27, R159). -/
def Die.decided (x : Die) (n : Nat) (h : Side) (j : Nat) : Bool := !x.stroke.trainLeft.contains (txOf (n / 8) h j)

/-- A port's part of the engine's work after its lanes (R163, R164, R179, R188): the readiness of the lanes decided; its modes, and its
lanes' common change to ENDING, once none of its lanes is carried over. -/
def State.enginePort (s : State) (p : PortId) : State :=
  let n := p.key
  let x := s.die p.die
  let whole := (x.segPos n .host).all (x.decided n .host) && (x.segPos n .line).all (x.decided n .line)
  let s := s.restartsTold p
  let s := if whole then s.portModes p else s
  let x := s.die p.die
  let rh := x.readyRule n .host .line
  let rl := x.readyRule n .line .host
  let s := s.onPort p (fun v => (v.applyReady .host rh (x.decided n .host)).applyReady .line rl (x.decided n .line))
  let x := s.die p.die
  if whole && x.exitHolds n .host && x.exitHolds n .line then
    let peer := x.peerSeg n .line
    s.onPort p (fun v =>
      { v with hlanes := v.hlanes.map (fun q => (q.1, { q.2 with state := 5, count := endCount false })),
               llanes := v.llanes.map (fun q => (q.1, { q.2 with state := 5, count := endCount peer })) })
  else s

/-- The readiness and exit of a single-lane session (R221, R238): its own receiver sets RR, both RRs end it. -/
def State.engineSingle (s : State) (d : DieId) (n j : Nat) (k : LaneKind) : State :=
  let x := s.die d
  let l := x.lane n .line j k
  let l1 := if l.state = 3 then { l with state := 4, rrTx := true } else if 5 ≤ l.state then { l with rrTx := x.laneOk n .line j k } else l
  let l2 := if l1.state = 4 && l1.rrRx then { l1 with state := 5, count := endCount true } else l1
  s.setLane d n .line j k l2

/-- The die's training engine runs (R261, R284). -/
def Die.trainRuns (x : Die) : Bool := !x.brg.isolated && !x.clk.gTrain && !x.clk.gDie && !x.clk.fresh 2 9

/-- The lane of transmitter number q, where its port's session or its own runs: port, side, position. -/
def Die.engineAt (x : Die) (q : Nat) : Option (Nat × Side × Nat) :=
  match x.owner (txCourse q) (txSide q) (txPos q) with
  | none => none
  | some n => if (x.laneKind n (txSide q) (txPos q)).isSome then some (n, txSide q, txPos q) else none

/-- The lanes the engine decides in this stroke's frets, by transmitter number (R27, R159): the lanes carried over from an overrun
first, then the others in ascending global lane order, the host lanes before the line lanes. -/
def Die.engineOrder (x : Die) : List Nat :=
  let all := (List.range 136).filter (fun q => (x.engineAt q).isSome)
  all.filter (fun q => x.stroke.trainLeft.contains q) ++ all.filter (fun q => !x.stroke.trainLeft.contains q)

/-- TRAINING_ENGINE_FRET (R24, R26, R27, R159): in frets 17 to 20, once in a stroke, the engine decides the lanes in a session; those
that an overrun truncates are carried over. -/
def execTrainingEngineFret (d : DieId) (s : State) : Result :=
  .next (if present s.part d && s.running && (s.die d).trainRuns && s.fretOpen d 17 20 then
    let s := (s.toFret 17).onDie d (fun x => x.didFret 17)
    let order := (s.die d).engineOrder
    let k := order.length - (s.die d).stroke.trainCut
    let s := s.onDie d (fun x => { x with stroke := { x.stroke with trainLeft := order.drop k } })
    let s := (order.take k).foldl (fun s q =>
      match (s.die d).engineAt q with
      | none => s
      | some (n, h, j) => s.engineLane d n h j) s
    (List.range 64).foldl (fun s n =>
      let x := s.die d
      if !(x.port n).enabled then s
      else if (x.port n).sess then s.enginePort (portId d n)
      else ((x.segPos n .line).filter (x.decided n .line)).foldl (fun s j =>
        match (s.die d).laneKind n .line j with
        | none => s
        | some k => s.engineSingle d n j k) s) s
  else s)

/-! ### Outgoing frames (R160, R164, R180, R221, R238) -/

/-- A segment becomes ready when all its lanes are DONE (R164, R188). -/
def State.segReady (s : State) (p : PortId) (h : Side) : State :=
  let v := s.port p
  let had := match h with | .host => v.hostReady | .line => v.lineReady
  let t := sat32 (s.stroke p.die - v.begun)
  if had ≠ 0 || segState (v.lanes h) ≠ 6 then s
  else
    let s := s.onPort p (fun v =>
      let w := match h with | .host => { v with hostReady := max t 1 } | .line => { v with lineReady := max t 1 }
      { w with ready := segState w.hlanes == 6 && segState w.llanes == 6 })
    s.postPort p 0x11 (Side.code h + 256 * min t 16777215)

/-- The level of symbol i of the peer frame that a lane is sending, before polarity (R170, R173). -/
def Die.frameLevel (x : Die) (n j : Nat) (l : LaneSess) (i : Nat) : Nat :=
  if i < headerSymbols then ((x.frameNow n j l)[i]?).getD 0
  else let n26 := rate (x.cfga n) == 3; prbsLevel n26 2 (prbsSkip n26 2 (l.frames * patternSymbols + (i - headerSymbols)) (patternSeed j))

/-- The last symbol of a lane's peer frame, before polarity, is the level its precoder would continue from (R167, R173). -/
def State.frameEnd (s : State) (d : DieId) (n : Nat) (h : Side) (j : Nat) (_ : LaneKind) (l : LaneSess) : State :=
  let x := s.die d
  let t := txOf (n / 8) h j
  if x.peerSeg n h then s.setTx d t { x.tx t with prev := x.frameLevel n j l 8191 } else s

/-- The last symbol a transmitter in a session sends before a boundary (R167): its precoder would continue from it. -/
def State.sentAt (s : State) (o : SentObs) : State :=
  let x := s.die o.die
  let t := o.tx.val
  match x.owner (txCourse t) (txSide t) (txPos t) with
  | none => s
  | some n =>
    match x.laneKind n (txSide t) (txPos t) with
    | none => s
    | some k =>
      let level := if x.peerSeg n (txSide t) then x.frameLevel n (txPos t) (x.lane n (txSide t) (txPos t) k) o.at_.val else o.level.val
      s.setTx o.die t { x.tx t with prev := level }

/-- The decoder of a lane that a single-lane or phase session gives back continues from the last level received (R167). -/
def State.heardLast (s : State) (d : DieId) (n j last : Nat) : State :=
  let m := (s.die d).serving (n / 8) .line j
  s.setSlice d m { (s.die d).slice m with prev := last }

/-- The transmitter of a single-lane session sends frames no longer (R227: TXFRAMES). -/
def State.framesEnd (s : State) (d : DieId) (n : Nat) (k : LaneKind) : State :=
  let v := (s.die d).course (n / 8)
  if k = .lattice then s.setCourse d (n / 8) { v with lat := { v.lat with txFrames := false } } else s

/-- OUTGOING_FRAME_BOUNDARY (R160, R170, R173, R180, R221): a lane's outgoing frame ends. Taps that answered a request take effect,
the countdown advances, and a single-lane or phase session whose DONE is exchanged returns its transmitter to DATA. -/
def execOutgoingFrameBoundary (p : PortId) (side : Side) (pos : Pos) (s : State) : Result :=
  let d := p.die
  let n := p.key
  let j := pos.val
  .next (if present s.part d && s.running then
    match (s.die d).laneKind n side j with
    | none => s
    | some k =>
      let l := (s.die d).lane n side j k
      let t := txOf (n / 8) side j
      let s := match l.pendTaps with | some w => s.onDie d (fun x => x.setTaps t w) | none => s
      let s := s.frameEnd d n side j k l
      let l := { l with pendTaps := none, frames := l.frames + 1 }
      if l.state = 5 then
        if 1 < l.count then (s.setLane d n side j k { l with count := l.count - 1 }).frameBegin d n side j k
        else
          let s := (s.setLane d n side j k { l with count := 0, state := 6 }).frameBegin d n side j k
          if k = .session then s.segReady p side else s
      else if l.state = 6 && k ≠ .session then
        let l := { l with doneTx := true }
        let s := s.setLane d n side j k l
        if l.doneRx && ((s.die d).tx t).single then
          ((s.setTx d t { ((s.die d).tx t) with single := false }).framesEnd d n k).refreshTx d t
        else s.frameBegin d n side j k
      else (s.setLane d n side j k l).frameBegin d n side j k
  else s)

/-- Why the sessions of a port whose budget runs out now fail (R158, R181): the lane in the lowest state gives the reason; 0 where
every lane has reached ENDING. -/
def Die.budgetReason (x : Die) (n : Nat) : Nat :=
  let v := x.port n
  let wait := hasGearbox (x.cfga n) && !bit v.modes 1 && v.llanes.any (fun q => q.2.state == 2)
  match min (segState v.hlanes) (segState v.llanes) with
  | 0 => 1
  | 1 => 1
  | 2 => if wait then 5 else 2
  | 3 => 3
  | 4 => 4
  | _ => 0

/-! ### TRAIN_START, TRAIN_ABORT, TRAIN_STATUS (R183 to R185) -/

/-- A transmitter of the port has an override (R114). -/
def Die.overridden (x : Die) (n : Nat) : Bool :=
  (x.segPos n .host).any (fun j => x.ovr (txOf (n / 8) .host j) != 0) || (x.segPos n .line).any (fun j => x.ovr (txOf (n / 8) .line j) != 0)

/-- The course's lane PLLs hold over. -/
def Die.holds (x : Die) (n : Nat) : Bool := (x.course (n / 8)).hold

/-- TRAIN_START (R183). -/
def execTrainStart (k : Packet) (s : State) : Result :=
  .next (s.commandDefined k 0x0301 (fun s p =>
    let x := s.die p.die
    let v := s.port p
    if v.state = 0 && v.bad then s.refuse k 0x0301 stBadParam [v.badRule]
    else if v.state = 0 || v.state = 1 || v.state = 6 then s.refuse k 0x0301 stNotReady
    else if 3 ≤ v.state then s.refuse k 0x0301 stInUse
    else if x.busy 3 p.key then s.refuse k 0x0301 stBusy
    else if x.overridden p.key then s.refuse k 0x0301 stInUse
    else if x.holds p.key then s.refuse k 0x0301 stNotReady
    else s.start k 0x0301 3 p.key [] (fun s =>
      s.onPort p (fun v => { v with retryAt := none, startAt := some (s.stroke p.die + 1), startOp := true }))))

/-- Stop a start that has not begun (R183, R184). -/
def State.stopStart (s : State) (p : PortId) : State :=
  let s := s.onPort p (fun v => { v with startAt := none, startOp := false, failed := true, retryAt := none })
  s.startEnd p stCancelled 7 0

/-- TRAIN_ABORT (R184). -/
def execTrainAbort (k : Packet) (s : State) : Result :=
  .next (s.commandDefined k 0x0302 (fun s p =>
    let v := s.port p
    let no := k.w 4 == 1
    if 2 ≤ k.w 4 then s.refuse k 0x0302 stBadParam
    else if v.sess then
      (s.onPort p (fun v => { v with abort := 7, noRetry := v.noRetry || no })).await k 0x0302 (s.stroke p.die + 1) p.key
    else if v.startAt.isSome then (s.stopStart p).done k 0x0302 1 []
    else (s.onPort p (fun v => if no then { v with retryAt := none } else v)).done k 0x0302 (b2n (no && v.retryAt.isSome)) []))

/-- TRAIN_STATUS reply data (R185). -/
def State.trainStatus (s : State) (p : PortId) : List Nat :=
  let x := s.die p.die
  let v := s.port p
  let n := p.key
  let quad := fun (h : Side) =>
    x.laneMask n h (fun j _ => x.lockedFramer n h j) + 256 * x.laneMask n h (fun j _ => x.laneConv n h j)
      + 65536 * x.laneMask n h (fun _ l => l.rrTx) + 16777216 * x.laneMask n h (fun _ l => l.rrRx)
  let q := SMap.get ({} : LaneSess) v.llanes 8
  let pr := hasLattice (x.cfga n) && v.enabled
  [ segState v.hlanes + 16 * segState v.llanes + 256 * v.reason + 65536 * sat16 v.sessions,
    if v.sessions = 0 then 0 else sat32 (s.stroke p.die - v.begun), quad .host, quad .line,
    b2n (x.lockedFramer n .line 8) + 2 * b2n (pr && x.laneConv n .line 8) + 4 * b2n q.rrTx + 8 * b2n q.rrRx + 256 * v.modes
      + 4096 * b2n (v.sess && x.latReadySent n) + 8192 * b2n (!v.llanes.isEmpty && x.allLanes n .line (fun l => l.latRx))
      + 16384 * b2n (v.sess && v.kept.isSome),
    pair (sat16 v.reqTx) (sat16 v.reqRx), v.ownId + 256 * v.partnerId ]

/-- TRAIN_STATUS (R185): collected in frets 21 to 24. -/
def execTrainStatus (k : Packet) (s : State) : Result :=
  .next (s.commandDefined k 0x0303 (fun s p =>
    let s := s.toFret 21
    s.done k 0x0303 3 (s.trainStatus p)))

end Sys2Proof.Machine
end

