-- ==== Sys2Proof/Machine/Datapath.lean ====
section
/-! DEFINITION. Datapath modes, FEC engines, 64b/66b monitors and pipeline latency (R189 to R207). -/

namespace Sys2Proof.Machine

/-- One direction of a port's datapath: `host` is H2L, `line` is L2H. -/
def Port.dir (v : Port) : Side → DirSt
  | .host => v.h2l
  | .line => v.l2h

def Port.setDir (v : Port) (h : Side) (x : DirSt) : Port :=
  match h with
  | .host => { v with h2l := x }
  | .line => { v with l2h := x }

/-- Change one direction of a port. -/
def State.onDir (s : State) (p : PortId) (h : Side) (f : DirSt → DirSt) : State :=
  s.onPort p (fun v => v.setDir h (f (v.dir h)))

/-- The FT adder in dc (R192). -/
def ftAdder (a : Half) : Nat := if rate a = 0 && width a = 1 then 233 else 148

/-- The pipeline latency of one direction in dc (R16, R191). -/
def pipeline (a : Half) (h : Side) : Nat :=
  8 + (if isRh a then 4 else 0) + (if rate a = 3 then 1 else 0) + (if dpath a = 2 then ftAdder a else 0)
    + (if hasLattice a then (match h with | .host => 2 | .line => 6) else 0) + (if hasGearbox a then 10 else 0)

/-- DP_LAT (R205). -/
def Die.dpLat (x : Die) (n : Nat) : Nat :=
  if (x.port n).state = 0 then 0 else pipeline (x.cfga n) .host % 256 + 256 * (pipeline (x.cfga n) .line % 256)

/-- DP_STAT (R205). -/
def Port.dpStat (v : Port) : Nat :=
  b2n v.h2l.fecLock + 2 * b2n v.l2h.fecLock + 4 * b2n v.h2l.bypass + 8 * b2n v.l2h.bypass + 16 * b2n v.h2l.deg + 32 * b2n v.l2h.deg

/-- DP_BLOCK and DP_SKEW (R205). -/
def Port.dpBlock (v : Port) : Nat := v.h2l.block + 256 * v.l2h.block
def Port.dpSkew (v : Port) : Nat := v.h2l.skew + 256 * v.l2h.skew

/-- The direction has a FEC engine (R196): FM or FT at a PAM4 rate. -/
def hasFec (a : Half) : Bool := rate a != 3 && (dpath a == 1 || dpath a == 2)

/-- The lanes have 64b/66b monitors (R203): FM at N26. -/
def hasBlocks (a : Half) : Bool := rate a == 3 && dpath a == 1

/-- Add n to a chained pair of counters (R401). -/
def Die.count64 (x : Die) (o n : Nat) : Die :=
  let wraps := (x.counter o + n) / 4294967296
  let y := x.count o n
  if wraps = 0 then y else y.count (o + 4) wraps

/-- FEC_LOCK_CHANGE (R196, R197): an engine of a carrying port gains or loses alignment-marker lock. -/
def execFecLockChange (p : PortId) (dir : Side) (locked : Bool) (skew : Nat) (s : State) : Result :=
  let v := s.port p
  let a := (s.die p.die).cfga p.key
  let o := cDp p.course.val p.idx.val dir
  .next (if present s.part p.die && s.running && v.carrying && hasFec a && (v.dir dir).fecLock != locked then
    if locked then
      let was := (v.dir dir).bypass
      let now := dpath a == 2 && decide (20 < skew)
      let s := s.onDir p dir (fun x => { x with fecLock := true, skew := min skew 255, bypass := now })
      let s := s.postPort p 0x20 (Side.code dir + 256 * min skew 255)
      if was = now then s
      else
        let s := if now then s.count p.die (o + 0x60) else s
        s.postPort p 0x24 (Side.code dir + 256 * min skew 255 + 65536 * b2n now)
    else
      let s := s.onDir p dir (fun x => { x with fecLock := false, fecRan := true, metLow := true })
      (s.count p.die (o + 0x1C)).postPort p 0x21 (Side.code dir)
  else s)

/-- Corrected symbols of a stroke's codewords. -/
def symCorr (l : List Nat) : Nat := ((List.range l.length).zip l).foldl (fun n q => n + q.1 * q.2) 0

/-- The tagging LFSR advances once (R414): x^32 + x^22 + x^2 + x + 1 in Galois form. -/
def lfsrNext (l : Nat) : Nat := (l * 2 % 4294967296) ^^^ (if bit l 31 then 0x00400007 else 0)

/-- It advances n times. -/
def lfsrRun : Nat → Nat → Nat
  | 0, l => l
  | n + 1, l => lfsrRun n (lfsrNext l)

/-! ### What FT forwards (R189, R197) -/

/-- The codeword an FT engine forwards (R197): corrected, its parity recomputed; or exactly as received where it cannot be corrected,
the engine is unlocked, or the codewords pass through for excess skew. -/
def DirSt.ftForwards (v : DirSt) (word : List (BitVec 10)) : List (BitVec 10) :=
  if v.fecLock && !v.bypass then
    match Config.fecData word with
    | some data => data ++ Config.fecParity data
    | none => word
  else word

/-- The codeword a direction of a port delivers to the transmitters, for the one its lanes decided (R189): as decided under PT and FM. -/
def DirSt.delivers (v : DirSt) (a : Half) (word : List (BitVec 10)) : List (BitVec 10) :=
  if dpath a == 2 then v.ftForwards word else word

/-! ### The 64b/66b monitor (R203) -/

/-- A sync header is valid: data or control. -/
def headerOk (h : BitVec 2) : Bool := h == 0b01 || h == 0b10

/-- The headers of a search or of a window since the last change of lock, newest last, end it (R203): 64 valid in succession give
block lock; 16 invalid among at most 64, the last of them the newest, lose it. -/
def lockTurns (locked : Bool) (headers : List (BitVec 2)) : Bool :=
  if locked then headers.length ≤ 64 && (headers.filter (fun h => !headerOk h)).length == 16 && headers.getLast?.any (fun h => !headerOk h)
  else headers.length == 64 && headers.all headerOk

/-- The self-synchronous descrambler 1 + x^39 + x^58 over one payload: its 64 bits descrambled, and the last 58 bits received
(R203). -/
def descramble (hist : Nat) (payload : BitVec 64) : BitVec 64 × Nat :=
  let w := payload.toNat * 2 ^ 58 + hist
  (BitVec.ofNat 64 ((w / 2 ^ 58) ^^^ (w / 2 ^ 19) ^^^ w), w / 2 ^ 64)

/-- Eight idle control characters under block type 0x1E (R203). -/
def idle66 : BitVec 64 := 0x1E

/-- The block types that Clause 49 defines (R203; PRESUMED, log entry 105). -/
def blockTypes : List Nat := [0x1E, 0x2D, 0x33, 0x66, 0x55, 0x78, 0x4B, 0x87, 0x99, 0xAA, 0xB4, 0xCC, 0xD2, 0xE1, 0xFF]

/-- The statistics one block adds to (R203, R206): the offsets of the counters. A payload that lies among the first 58 bits after lock is
discarded: its header alone classes the block. -/
def blockCounters (h : BitVec 2) (plain : Option (BitVec 64)) : List Nat :=
  if h == 0b01 then [0x68]
  else if h == 0b10 then 0x6C :: (match plain with
    | none => []
    | some b => if b == idle66 then [0x70] else if blockTypes.contains (b.toNat % 256) then [] else [0x74])
  else [0x64]

/-- The monitor of position j takes a block: what it keeps, and the counters the block adds to. -/
def DirSt.takeBlock (v : DirSt) (j : Nat) (h : BitVec 2) (payload : BitVec 64) : DirSt × List Nat :=
  let r := descramble (SMap.get 0 v.scr j) payload
  ({ v with scr := SMap.put 0 v.scr j r.2, blind := if bit v.blind j then v.blind ^^^ 2 ^ j else v.blind },
   blockCounters h (if bit v.blind j then none else some r.1))

/-- Count one direction's codewords, or blocks, of the stroke that ends (R198, R203, R206): what the engine or a monitor decoded or
classified while it was locked, though it has lost lock since. -/
def State.fecCount (s : State) (o : FecObs) : State :=
  let p := o.port
  let v := s.port p
  let a := (s.die p.die).cfga p.key
  let b := cDp p.course.val p.idx.val o.dir
  if !present s.part p.die || !v.enabled then s
  else if hasFec a && v.carrying && ((v.dir o.dir).fecLock || (v.dir o.dir).fecRan) then
    let hist := o.corr.take 16
    let sym := symCorr hist
    let s := s.onDie p.die (fun x =>
      let x := x.count64 b (hist.sum + o.uncorr)
      let x := (((((x.count (b + 8) (hist.drop 1).sum).count (b + 0xC) o.uncorr).count (b + 0x10) sym).count (b + 0x14) o.b1to0).count (b + 0x18) o.b0to1)
      ((List.range hist.length).zip hist).foldl (fun x q => x.count (b + 0x20 + 4 * q.1) q.2) x)
    let s := if (v.dir o.dir).tagEn then s.onDir p o.dir (fun x => { x with tagLfsr := lfsrRun (hist.sum + o.uncorr) x.tagLfsr, tagSeen := 0 }) else s
    if fld ((s.die p.die).act (oDp p.course.val p.idx.val)) 5 5 = 1 then
      s.onDir p o.dir (fun x => { x with degCount := x.degCount + sym + 16 * o.uncorr })
    else s
  else if hasBlocks a && ((v.dir o.dir).block ≠ 0 || (v.dir o.dir).blockRan) then
    o.blocks.foldl (fun s k =>
      let r := ((s.port p).dir o.dir).takeBlock k.1.val k.2.1 k.2.2
      (s.onDir p o.dir (fun _ => r.1)).onDie p.die (fun x => r.2.foldl (fun x c => x.count (b + c)) x)) s
  else s

/-- FEC_DEG_WINDOW_END (R199): the end of a 1,024-stroke window sets or clears the degraded flag. -/
def execFecDegWindowEnd (p : PortId) (dir : Side) (s : State) : Result :=
  let v := s.port p
  let x := v.dir dir
  let cfg := (s.die p.die).act (oDp p.course.val p.idx.val)
  let e := fld cfg 4 0
  let now := s.stroke p.die
  .next (if present s.part p.die && s.running && fld cfg 5 5 == 1 && hasFec ((s.die p.die).cfga p.key) && now % 1024 == 0 && now != x.degAt then
    let set_ := x.degWhole && decide (2 ^ e ≤ x.degCount)
    let clr := x.degWhole && decide (2 * x.degCount < 2 ^ e)
    let s := s.onDir p dir (fun y => { y with deg := (y.deg || set_) && !clr, degCount := 0, degWhole := true, degAt := now })
    if set_ && !x.deg then s.postPort p 0x22 (Side.code dir + 256 * min x.degCount 16777215)
    else if clr && x.deg then s.postPort p 0x23 (Side.code dir)
    else s
  else s)

/-- BLOCK_LOCK_CHANGE (R203): a monitor of an N26 FM port gains or loses block lock by the sync headers it has seen; one that loses it
slips one bit and searches again. -/
def execBlockLockChange (p : PortId) (side : Side) (pos : Fin 8) (headers : List (BitVec 2)) (s : State) : Result :=
  let v := s.port p
  let x := v.dir side
  let level := !bit x.block pos.val
  .next (if present s.part p.die && s.running && v.enabled && hasBlocks ((s.die p.die).cfga p.key)
      && ((s.die p.die).portHost p.key).contains pos.val && lockTurns (!level) headers then
    let s := s.onDir p side (fun y => { y with
      blind := if level then y.blind ||| 2 ^ pos.val else y.blind,
      slip := if level then y.slip else SMap.put 0 y.slip pos.val ((SMap.get 0 y.slip pos.val + 1) % 66),
      block := y.block ^^^ 2 ^ pos.val, blockRan := y.blockRan || !level, metLow := y.metLow || !level })
    let s := if level then s else s.count p.die (cDp p.course.val p.idx.val side + 0x78)
    s.postPort p 0x25 (Side.code side + 2 * pos.val + 16 * b2n level)
  else s)

/-- A port that leaves CARRYING and DEGRADED: its engines drop lock and go idle (R196, R200). Pass-through for excess skew is left only at
the next lock of 20 dc or less (R197). -/
def Port.fecIdle (v : Port) : Port :=
  { v with h2l := { v.h2l with fecLock := false, metLow := true }, l2h := { v.l2h with fecLock := false, metLow := true } }

/-- A direction of a disabled port passes nothing: its pass-through, degraded and block-lock bits fall, each with its event (R203, R205,
R207; DEDUCED, log entry 78). -/
def State.dirOff (s : State) (p : PortId) (dir : Side) : State :=
  let x := (s.port p).dir dir
  let s := s.onDir p dir (fun y => { y with fecLock := false, bypass := false, deg := false, degCount := 0, block := 0, fecRan := false, blockRan := false })
  let s := if x.bypass then s.postPort p 0x24 (Side.code dir + 256 * min x.skew 255) else s
  let s := if x.deg then s.postPort p 0x23 (Side.code dir) else s
  ((List.range 8).filter (fun j => bit x.block j)).foldl (fun s j =>
    (s.count p.die (cDp p.course.val p.idx.val dir + 0x78)).postPort p 0x25 (Side.code dir + 2 * j)) s

/-! ### Buffers (R201) -/

/-- Bytes of a course's banks that a port's profile needs (R201): the FT codeword stores of its lanes in both directions, each the
adder of R192 at the lane's bytes a dc; the lattice deskew stores of 1,024 symbols a line lane; the pair FIFOs of 512 symbols a host
position (R234). -/
def storeBytes (a : Half) (hosts lines : Nat) : Nat :=
  let perDc := match rate a with | 0 => 4 | 1 => 8 | 2 => 16 | _ => 2
  (if dpath a = 2 then 2 * hosts * ftAdder a * perDc else 0)
    + (if hasLattice a then (lines + 1) * 256 else 0) + (if hasGearbox a then hosts * 128 else 0)

/-- The stores of a port in its course's banks (R201): allocated at the commit that enables it, freed at its disable. -/
def State.storesSet (s : State) (p : PortId) (on : Bool) : State :=
  let x := s.die p.die
  let v := x.course p.course.val
  let n := storeBytes (x.cfga p.key) (x.portHost p.key).length (x.portLine p.key).length
  s.setCourse p.die p.course.val { v with banks := { v.banks with stores := SMap.put 0 v.banks.stores p.idx.val (if on then n else 0) } }

end Sys2Proof.Machine
end

