-- ==== Sys2Proof/Machine/Lattice.lean ====
section
/-! DEFINITION. Lane loss and lattice protection (R208 to R229). -/

namespace Sys2Proof.Machine

/-- The lattice port of a course, by key: the one whose session set the course's lattice state. -/
def Die.latKey (x : Die) (c : Nat) : Nat := 8 * c + (x.course c).lat.port

/-- The lattice port of a course. -/
def State.latPort (s : State) (d : DieId) (c : Nat) : PortId := portId d ((s.die d).latKey c)

/-- The course has a lattice port in use. -/
def Die.latOn (x : Die) (c : Nat) : Bool := let n := x.latKey c; hasLattice (x.cfga n) && (x.port n).enabled

/-- Change a course's lattice receiver. -/
def State.onLat (s : State) (d : DieId) (c : Nat) (f : Lattice → Lattice) : State :=
  let v := (s.die d).course c
  s.setCourse d c { v with lat := f v.lat }

/-- Move the lattice state, keeping the stroke of the change (R226). -/
def State.latMove (s : State) (d : DieId) (c new : Nat) : State :=
  s.onLat d c (fun l => { l with state := new, changed := s.stroke d })

/-- LAT_STAT (R227). -/
def Lattice.stat (l : Lattice) : Nat := l.state + 8 * l.pos + 128 * l.pos2 + 2048 * l.dreason + 16384 * b2n l.txFrames

/-- The course protects its port's line lanes (R209): ARMED, REBUILDING, READMIT or AGREEING, but not while the protection lane itself
carries frames (R222). -/
def Lattice.protects (l : Lattice) : Bool := 3 ≤ l.state && l.state ≤ 6 && !(l.state == 5 && l.pos == 8)

/-- Line receive lanes of the lattice port, the protection lane included. -/
def Die.latLanes (x : Die) (c : Nat) : List Nat := x.portLine (x.latKey c) ++ [8]

/-- The slice of line position v is LOCKED. -/
def Die.lineLocked (x : Die) (c v : Nat) : Bool := (x.slice (x.serving c .line v)).locked

/-- Counter o of R228. -/
def cLat (c o : Nat) : Nat := cCourse c + 0x1000 + o

/-- Line positions become lost for the port, to be acted on at the next boundary (R62, R208). -/
def State.loseLanes (s : State) (p : PortId) (l : List Nat) : State :=
  s.onPort p (fun v => l.foldl (fun v j =>
    if bit v.lLost j then v else { v with lLost := v.lLost ||| 2 ^ j, lNew := v.lNew ||| 2 ^ j }) v)

/-- Protection is disarmed (R224): rebuilding stops, and every data lane that is not locked, or was being rebuilt or
declared, becomes lost. A single-lane session that runs continues. -/
def State.latDisarm (s : State) (d : DieId) (c reason pos pos2 : Nat) : State :=
  let x := s.die d
  let p := s.latPort d c
  let named := if reason = 3 then [] else [pos, pos2]
  let lost := (x.portLine p.key).filter (fun v => !x.lineLocked c v || named.contains v)
  let s := s.latMove d c 7
  let s := s.onLat d c (fun l => { l with
    dreason := reason, pos := pos, pos2 := pos2, disarm := false, announced := false, agree := 0, noArm := l.noArm || reason == 3 })
  let s := s.loseLanes p lost
  (s.count d (cLat c 0x20)).postPort p 0x35 (reason + 8 * pos + 128 * pos2)

/-- LAT_DET in use (R227). -/
def Die.latDet (x : Die) (c : Nat) : Nat := fld (x.act (oLat c)) 3 0

/-- The parity value of an aligned slot of the course's lattice port (R210, R211): every line data transmitter's share, by its mode;
`values` and `levels` hold what each sends, in ascending position. -/
def Die.parity (x : Die) (c : Nat) (values levels : List Nat) : Nat :=
  parityValue (((x.portLine (x.latKey c)).zip (values.zip levels)).map (fun q => parityShare (x.tx (txOf c .line q.1)).mode q.2.1 q.2.2))

/-- The parity value that the protection lane sends in slot i of copy m of an announcement, a copy a word (R220). -/
def Die.serviceSlot (x : Die) (c m i : Nat) (values levels : List Nat) : Nat :=
  let q := (((x.course c).lat.svcOut)[m]?).getD 0
  Sys2Proof.Machine.serviceSlot (x.parity c values levels) q i

/-- The value the receiver uses for line position v of an aligned slot (R216): rebuilt for the position that fails, else as received.
`values`: the received values in ascending position, the protection lane's last. -/
def Die.slotValue (x : Die) (c v : Nat) (values : List Nat) : Nat :=
  let l := (x.course c).lat
  let i := (x.latLanes c).idxOf v
  if l.rebuilding && l.pos == v then Sys2Proof.Machine.rebuilt values i else (values[i]?).getD 0

/-- A word of the slice of line position v is bad (R215). -/
def Die.wordBad (x : Die) (c v : Nat) (w : List Int) : Bool :=
  !w.isEmpty && badWord (fld (x.act (oLat c)) 9 4) (x.slice (x.serving c .line v)).mean w

/-- The trigger of a declaration holds (R214 to R216): LAT_DET consecutive bad words, the lane's slice without lock, or its framer
locked. -/
def Die.declares (x : Die) (c pos trigger : Nat) (words : List (List Int)) : Bool :=
  match trigger with
  | 0 => x.latDet c ≤ words.length && words.all (x.wordBad c pos)
  | 1 => !x.lineLocked c pos
  | _ => ((x.port (x.latKey c)).framer .line pos).locked

/-- A line lane is declared failed (R216): in ARMED its rebuilding starts; the protection lane, or a second lane, disarms
(R224). Trigger: 0 bad words, 1 loss of lock, 2 framer lock: the partner's announcement was not accepted, and the lane's transmitter
changes to TRAIN (R223). -/
def State.latDeclare (s : State) (d : DieId) (c pos trigger : Nat) : State :=
  let x := s.die d
  let l := (x.course c).lat
  if !(x.latLanes c).contains pos then s
  else if l.state = 3 then
    let s := s.count d (cLat c 4)
    if pos = 8 then (s.latDisarm d c 4 8 15).onLat d c (fun l => { l with announced := trigger == 2, ann := 8, here := false })
    else
      let s := if trigger = 0 then s.count d (cLat c 0xC) (x.latDet c) else s
      let s := s.latMove d c 4
      let s := s.onLat d c (fun l => { l with
        pos := pos, trigger := trigger, failedAt := s.stroke d, byAgree := false, agree := 0, announced := trigger == 2,
        ann := pos, here := false, retryAt := none })
      s.postPort (s.latPort d c) 0x31 (pos + 16 * trigger)
  else if 4 ≤ l.state && l.state ≤ 6 && pos ≠ l.pos then
    let s := if trigger = 0 && pos ≠ 8 then s.count d (cLat c 0xC) (x.latDet c) else s
    (s.count d (cLat c 4)).latDisarm d c 2 l.pos pos
  else s

/-- Nonzero syndromes among the slots of a window that ends in stroke `now` (R214): not those that carry a service word, nor those in
which a lane was being rebuilt. A window lasts less than 3 strokes at every rate: where the state has not changed for 4, all its slots
fall under it. -/
def Lattice.nonzeros (l : Lattice) (now : Nat) (slots : List Slot) : Nat :=
  let out := fun (q : Slot) => if l.changed + 4 ≤ now then l.rebuilding else q.rebuilt
  (slots.filter (fun q => !q.service && !out q && syndrome (q.values.map (·.val)) != 0)).length

/-- SYNDROME_WINDOW_END (R214): a window of 2^16 slots ends. `slots` holds at least those of its slots whose syndrome is not 0. -/
def execSyndromeWindowEnd (d : DieId) (c : CourseId) (slots : List Slot) (s : State) : Result :=
  let x := s.die d
  let l := (x.course c.val).lat
  let nonzero := l.nonzeros (s.stroke d) slots
  .next (if present s.part d && s.running && x.latOn c.val && 2 ≤ l.state then
    let s := (s.count d (cLat c.val 0) nonzero).onLat d c.val (fun l => { l with nonzero := nonzero })
    if l.state = 2 && nonzero ≤ 64 && (x.latLanes c.val).all (x.lineLocked c.val) then
      (s.latMove d c.val 3).postPort (s.latPort d c.val) 0x30 l.skew
    else if l.state = 3 && 8192 < nonzero then s.latDisarm d c.val 3 15 15
    else s
  else s)

/-- LATTICE_REBUILD (R215, R216): a line lane meets a case of R216. `words`: for trigger 0, its consecutive words, each by its equalised
samples in 1/64 of the level spacing. -/
def execLatticeRebuild (d : DieId) (c : CourseId) (pos : Pos) (trigger : Fin 3) (words : List (List Int)) (s : State) : Result :=
  let x := s.die d
  .next (if present s.part d && s.running && x.latOn c.val && x.declares c.val pos.val trigger.val words then
    s.latDeclare d c.val pos.val trigger.val
  else s)

/-- READMIT_BY_AGREEMENT (R219): 2 strokes after a declaration from bad words the lane's slice is LOCKED and has declared no loss; no
session has been announced or run for it since. -/
def execReadmitByAgreement (d : DieId) (c : CourseId) (s : State) : Result :=
  let x := s.die d
  let l := (x.course c.val).lat
  .next (if present s.part d && s.running && l.state == 4 && l.trigger == 0 && !l.announced && !l.txFrames && x.lineLocked c.val l.pos
      && l.failedAt + 2 ≤ s.stroke d then
    (s.latMove d c.val 6).onLat d c.val (fun l => { l with byAgree := true, agree := 0, found := false })
  else s)

/-- Announce a re-admission on the outgoing protection lane: the four copies of the service word, in consecutive aligned words
(R220). -/
def State.latAnnounce (s : State) (d : DieId) (c pos : Nat) : State :=
  (s.onLat d c (fun l => { l with
    announced := true, ann := pos, here := true, svcOut := (List.range 4).map (serviceValue pos) })).count d (cLat c 0x18) 4

/-- A lane waits for its re-admission through a session: REBUILDING, or the protection lane after DREASON 4 (R220, R224). -/
def Lattice.awaits (l : Lattice) : Bool := l.state == 4 || (l.state == 7 && l.dreason == 4 && l.pos == 8)

/-- The lane waits to be re-admitted by agreement alone, or may still be (R219): its slice declared no loss, and 2 strokes have
not passed or it is LOCKED. The protection lane of a disarmed course runs the session (R224: DEDUCED, log 27). -/
def Lattice.byAgreement (l : Lattice) (now : Nat) (locked : Bool) : Bool :=
  l.state == 4 && l.trigger == 0 && !l.txFrames && (decide (now < l.failedAt + 2) || locked)

/-- AUTO_READMIT (R220): 64 strokes of signal detect on the failed lane, which is not re-admitted by agreement alone (R219). -/
def execAutoReadmit (d : DieId) (c : CourseId) (s : State) : Result :=
  let x := s.die d
  let l := (x.course c.val).lat
  let v := x.slice (x.serving c.val .line l.pos)
  let alone := l.byAgreement (s.stroke d) (x.lineLocked c.val l.pos)
  .next (if present s.part d && s.running && x.latOn c.val && !alone && fld (x.act (oLat c.val)) 10 10 == 1 && l.awaits && !l.announced
      && !l.txFrames && v.sdFor s.pos 64 then s.latAnnounce d c.val l.pos
  else s)

/-- Fields of a service value Q (R220). -/
def svcOk (q : Word) : Bool :=
  let n := q.toNat
  bits n 15 0 == 0x5AC3 && bits n 31 24 == 255 - bits n 23 16 && bits n 19 18 == 1
def svcPos (q : Word) : Nat := bits q.toNat 23 20

/-- The position that 3 of the 4 copies agree on, when they are valid (R220). -/
def svcAccept (l : List Word) : Option Nat :=
  let good := (l.take 4).filter svcOk
  (good.map svcPos).find? (fun p => 3 ≤ (good.filter (fun q => svcPos q == p)).length)

/-- SERVICE_WORD (R220): a receiver that is not rebuilding accepts the announcement, which it reads as the syndromes of slots 0 to 15
of four words. -/
def execServiceWord (d : DieId) (c : CourseId) (copies : List (List (Fin 4))) (s : State) : Result :=
  let x := s.die d
  let l := (x.course c.val).lat
  .next (if present s.part d && s.running && x.latOn c.val && (l.state == 2 || l.state == 3 || l.state == 7) && !l.announced && !l.sess then
    match svcAccept (copies.map (fun l => serviceOf (l.map (·.val)))) with
    | none => s
    | some p =>
      if (x.latLanes c.val).contains p then
        (s.onLat d c.val (fun l => { l with announced := true, ann := p, here := false })).count d (cLat c.val 0x1C)
      else s
  else s)

/-- A single-lane session starts at SEEK (R161, R162, R221): as a session of its lane, on the slice and on the transmitter. A course
that stays disarmed keeps its state; the position waits for no agreement then (R224). -/
def State.singleStart (s : State) (d : DieId) (c pos : Nat) : State :=
  let n := (s.die d).latKey c
  let l := ((s.die d).course c).lat
  let own := (((s.die d).port n).ownId + 1) % 256
  let s := if l.state = 7 && !(l.dreason = 4 && pos = 8) && l.txFrames then s
    else (s.latMove d c 5).onLat d c (fun l => { l with pos := pos })
  let s := (s.sliceSession d c .line pos).tapsStart d n .line pos
  let s := s.onLat d c (fun l => { l with
    sess := true, txFrames := true, sessFrom := s.stroke d, singles := l.singles + 1, lane := (s.die d).laneSeek n .line pos own false,
    retryAt := none, announced := false, spos := pos, trigger := 2, found := false })
  let s := s.onPort (portId d n) (fun v => { v with ownId := own })
  s.frameBegin d n .line pos .lattice

/-- READMIT_TRAIN_SWITCH (R220): at W0 + 64 the transmitter of POS changes to TRAIN and the course enters READMIT. -/
def execReadmitTrainSwitch (d : DieId) (c : CourseId) (s : State) : Result :=
  let l := ((s.die d).course c.val).lat
  .next (if present s.part d && s.running && (s.die d).latOn c.val && l.announced then
    let s := s.singleStart d c.val l.ann
    let t := txOf c.val .line l.ann
    let s := (s.setTx d t { ((s.die d).tx t) with single := true }).refreshTx d t
    s.postPort (s.latPort d c.val) 0x32 (l.ann + 16 * b2n l.here)
  else s)

/-- LATTICE_READMIT_DONE (R221, R224): DONE has been sent and received; the transmitter of POS returns to DATA, and the precoders of
the lane continue from the line (R167); `last`: the level last received. The course enters AGREEING; a disarmed one takes the lane's received data again, without
agreement, a gearbox lane with the phase of the last marker (R236). -/
def execLatticeReadmitDone (d : DieId) (c : CourseId) (last : Fin 4) (s : State) : Result :=
  let x := s.die d
  let l := (x.course c.val).lat
  let n := x.latKey c.val
  .next (if present s.part d && s.running && l.sess && l.lane.state == 6 && l.lane.doneTx && l.lane.doneRx then
    let t := txOf c.val .line l.spos
    let s := s.onLat d c.val (fun l => { l with sess := false, txFrames := false })
    let s := ((s.setTx d t { ((s.die d).tx t) with single := false }).refreshTx d t).heardLast d n l.spos last.val
    if l.state = 5 then (s.latMove d c.val 6).onLat d c.val (fun l => { l with byAgree := false, agree := 0, found := false })
    else
      let s := if hasGearbox (x.cfga n) && l.spos < 4 then s.phaseBack d n l.spos false else s
      s.onPort (portId d n) (fun v =>
        if bit v.lLost l.spos && x.lineLocked c.val l.spos then { v with lLost := v.lLost ^^^ 2 ^ l.spos, lNew := v.lNew ||| 2 ^ l.spos } else v)
  else s)

/-- The deskew wait LAT_OFS_v of a course (R227); those of positions 4 to 7 read 0 where the lattice port has the gearbox (R239). -/
def Die.latWait (x : Die) (c v : Nat) : Nat :=
  if hasGearbox (x.cfga (x.latKey c)) && 4 ≤ v && v ≤ 7 then 0 else ((x.course c).lat.ofs[v]?).getD 0

/-- Agreements at which a lane is re-admitted (R222). -/
def agreeGoal : Nat := 1048576

/-- What the receiver in AGREEING compared over a stroke (R222): the search finds a wait from −1,024 to +1,023 symbols of the old one,
even on a gearbox port (R239), and agreement counts from there; any disagreement resets the count. -/
def State.agreeAt (s : State) (o : AgreeObs) : State :=
  let x := s.die o.die
  let c := o.course.val
  let l := (x.course c).lat
  if l.state ≠ 6 then s
  else if l.found then
    s.onLat o.die c (fun l => { l with agree := min agreeGoal (if o.broke then o.run else l.agree + o.run) })
  else
    match o.found with
    | none => s
    | some dw =>
      let new := (((l.ofs[l.pos]?).getD 0 : Nat) : Int) + dw
      let even := !hasGearbox (x.cfga (x.latKey c)) || dw % 2 = 0
      if -1024 ≤ dw && dw ≤ 1023 && 0 ≤ new && even then
        s.onLat o.die c (fun l => { l with found := true, ofs := l.ofs.setIfInBounds l.pos new.toNat, agree := min agreeGoal o.run })
      else s

/-- LATTICE_READMITTED (R222): with the wait found, 2^20 agreements in succession, `agreed` of them in this stroke; received values are
used again. On a gearbox port the lane's phase is restored with it (R239). -/
def execLatticeReadmitted (d : DieId) (c : CourseId) (agreed : Nat) (s : State) : Result :=
  let l := ((s.die d).course c.val).lat
  .next (if present s.part d && s.running && (s.die d).latOn c.val && l.state == 6 && l.found && agreeGoal ≤ l.agree + agreed then
    let s := s.latMove d c.val 3
    let s := s.onLat d c.val (fun l => { l with pos := 15, agree := agreeGoal })
    let n := (s.die d).latKey c.val
    let s := s.count d (cLat c.val 0x10)
    let s := s.postPort (portId d n) 0x33 (l.pos + 16 * b2n l.byAgree + 65536 * (l.ofs[l.pos]?).getD 0)
    if hasGearbox ((s.die d).cfga n) && l.pos < 4 then s.phaseBack d n l.pos false else s
  else s)

/-- The reason of a failed single-lane or phase session (R181, R229, R246). -/
def laneReason (st : Nat) : Nat := if 1 ≤ st && st ≤ 4 then st else 1

/-- LATTICE_READMIT_FAILED (R223): the single-lane session's budget runs out. The lane stays rebuilt, its transmitter in TRAIN at SEEK, and
the session waits for its retry or for LATTICE_ENABLE: for position 8, which is never rebuilt, in DISARMED with DREASON 4, the state in
which R225 takes that command (DEDUCED, log entry 27). -/
def execLatticeReadmitFailed (d : DieId) (c : CourseId) (s : State) : Result :=
  let x := s.die d
  let l := (x.course c.val).lat
  let n := x.latKey c.val
  let k := trainRetries (x.cfgb n)
  .next (if present s.part d && s.running && l.sess && l.lane.state < 5 && l.sessFrom + x.budget n ≤ s.stroke d then
    let s := if l.state ≠ 5 then s
      else if l.pos = 8 then (s.latMove d c.val 7).onLat d c.val (fun l => { l with dreason := 4 })
      else s.latMove d c.val 4
    let s := s.onLat d c.val (fun l => { l with
      sess := false, lane := x.laneSeek n .line l.spos l.lane.ownId false, retryAt := if k = 0 then none else some (s.stroke d + retryStrokes k) })
    let s := s.frameBegin d n .line l.spos .lattice
    (s.count d (cLat c.val 0x14)).postPort (portId d n) 0x34 (l.spos + 256 * laneReason l.lane.state)
  else s)

/-- LATTICE_DISARMED (R224): a case of disarming the table names, unless it has taken place already. `badWords`: the second lane's
declaration came from bad words; those of case 5 always do (R228). -/
def execLatticeDisarmed (d : DieId) (c : CourseId) (reason : Fin 6) (pos pos2 : Option Pos) (badWords : Bool) (s : State) : Result :=
  let l := ((s.die d).course c.val).lat
  let a := match pos with | some p => p.val | none => 15
  let b := match pos2 with | some p => p.val | none => 15
  .next (if present s.part d && s.running && (s.die d).latOn c.val then
    match reason.val with
    | 1 => if l.disarm && l.state != 7 then s.latDisarm d c.val 1 l.pos 15 else s
    | 2 => if 4 ≤ l.state && l.state ≤ 6 && b != 15 && b != l.pos && ((s.die d).latLanes c.val).contains b then
        s.latDeclare d c.val b (if badWords then 0 else 1)
      else s
    | 3 => if l.state == 3 && 8192 < l.nonzero then s.latDisarm d c.val 3 15 15 else s
    | 4 => if l.state == 3 then (s.count d (cLat c.val 4)).latDisarm d c.val 4 8 15 else s
    | 5 => if l.state == 3 && a != 15 && b != 15 && a != b then
        let s := s.count d (cLat c.val 0xC) (([a, b].filter (fun k => k != 8)).length * (s.die d).latDet c.val)
        (s.count d (cLat c.val 4) 2).latDisarm d c.val 5 a b
      else s
    | _ => s
  else s)

/-- A disarmed course re-arms through ARMING (R214, R224). -/
def State.latRearm (s : State) (d : DieId) (c : Nat) : State :=
  (s.latMove d c 2).onLat d c (fun l => { l with pos := 15 })

/-- A disarmed course re-arms by itself once every line lane is LOCKED, with AUTO_READMIT; after DREASON 4 the re-admission of
position 8 re-arms it instead (R224). -/
def State.latAutoArm (s : State) (d : DieId) (c : Nat) : State :=
  let x := s.die d
  let l := (x.course c).lat
  if x.latOn c && (x.port (x.latKey c)).carrying && l.state = 7 && l.dreason ≠ 3 && l.dreason ≠ 4 && !l.sess && !l.txFrames && fld (x.act (oLat c)) 10 10 = 1
      && (x.latLanes c).all (x.lineLocked c) then s.latRearm d c
  else s

/-- A disarmed course, or one that re-arms, rebuilds nothing: a data lane that was named lost while its slice stays LOCKED comes back
at the boundary after that of its loss, unless a session runs on it or a gearbox lane's phase is lost (R58, R94, R224; DEDUCED, log entry
73). -/
def State.latReturn (s : State) (d : DieId) (c : Nat) : State :=
  let x := s.die d
  let l := (x.course c).lat
  let n := x.latKey c
  let v := x.port n
  let back := (x.portLine n).filter (fun j => bit v.lLost j && !bit v.lNew j && x.lineLocked c j && !((l.sess || l.txFrames) && l.spos == j)
    && (!hasGearbox (x.cfga n) || ((x.course c).gbxLane j).phase))
  if x.latOn c && v.carrying && (l.state = 7 || l.state = 2) then
    s.onPort (portId d n) (fun v => back.foldl (fun v j => { v with lLost := v.lLost ^^^ 2 ^ j, lNew := v.lNew ||| 2 ^ j }) v)
  else s

/-- The lattice of every course at a boundary, before its ports (R224). -/
def State.latticesAt (s : State) (d : DieId) : State :=
  courseList.foldl (fun s c => (s.latReturn d c).latAutoArm d c) s

/-- TRAIN_RETRY (R60, R223): the retry of a failed session falls due under AUTO and starts sessions at the next boundary;
that of a failed single-lane session restarts it. -/
def execTrainRetry (p : PortId) (s : State) : Result :=
  let v := s.port p
  let now := s.stroke p.die
  let c := p.course.val
  let l := ((s.die p.die).course c).lat
  let due := fun (t : Option Nat) => match t with | some t => decide (t ≤ now) | none => false
  .next (if present s.part p.die && s.running then
    if v.state = 2 && !isHold ((s.die p.die).cfga p.key) && due v.retryAt then
      s.onPort p (fun v => { v with retryAt := none, failed := false, startAt := some (now + 1) })
    else if (s.die p.die).latKey c = p.key && (l.awaits || l.txFrames) && !l.sess && due l.retryAt then s.singleStart p.die c l.spos
    else s
  else s)

/-- LATTICE_ENABLE (R225). -/
def State.latEnable (s : State) (k : Packet) : State :=
  s.commandDefined k 0x0601 (fun s p =>
    let x := s.die p.die
    let c := p.course.val
    let w := k.w 4
    let act := bits w 1 0
    let pos := bits w 7 4
    let l := (x.course c).lat
    let mine := x.latKey c == p.key
    let reply := fun (s : State) => [((s.die p.die).course c).lat.stat]
    if act = 3 || 256 ≤ w || bits w 3 2 ≠ 0 then s.refuse k 0x0601 stBadParam
    else if !hasLattice (x.cfga p.key) then s.refuse k 0x0601 stNotReady
    else if act = 0 then
      if !mine || l.state < 2 || l.state = 7 then s.done k 0x0601 0 (reply s)
      else (s.onLat p.die c (fun l => { l with disarm := true })).await k 0x0601 (s.stroke p.die + 1) c
    else if act = 1 then
      if (l.state = 7 && l.dreason = 3) || !(s.port p).carrying then s.refuse k 0x0601 stNotReady (reply s)
      else if l.state ≠ 7 then s.done k 0x0601 0 (reply s)
      else let s := s.latRearm p.die c; s.done k 0x0601 1 (reply s)
    else if l.state = 5 || l.state = 6 then s.refuse k 0x0601 stBusy (reply s)
    else if !(l.awaits && l.pos = pos) then s.refuse k 0x0601 stNotReady (reply s)
    else
      let s := if l.announced then s else s.latAnnounce p.die c pos
      s.done k 0x0601 1 (reply s))

/-- LATTICE_DISARM: LATTICE_ENABLE with ACTION 0 (R225). -/
def execLatticeDisarm (k : Packet) (s : State) : Result := .next (s.latEnable k)

/-- LATTICE_ARM: LATTICE_ENABLE with ACTION 1 (R225). -/
def execLatticeArm (k : Packet) (s : State) : Result := .next (s.latEnable k)

/-- LATTICE_READMIT: LATTICE_ENABLE with ACTION 2 (R225). -/
def execLatticeReadmit (k : Packet) (s : State) : Result := .next (s.latEnable k)

/-- LATTICE_STATUS (R226). -/
def execLatticeStatus (k : Packet) (s : State) : Result :=
  .next (s.commandDefined k 0x0602 (fun s p =>
    if !hasLattice ((s.die p.die).cfga p.key) then s.refuse k 0x0602 stNotReady
    else
      let s := s.toFret 21
      let x := s.die p.die
      let l := (x.course p.course.val).lat
      let o := fun v => x.latWait p.course.val v
      s.done k 0x0602 3
        ([pair l.stat l.skew, sat32 (s.stroke p.die - l.changed), pair (l.agree / 1024) (sat16 l.singles), l.nonzero]
          ++ (List.range 5).map (fun m => pair (o (2 * m)) (o (2 * m + 1))))))

end Sys2Proof.Machine
end

