-- ==== Sys2Proof/Machine/Gearbox.lean ====
section
/-! DEFINITION. The 425 line format (R230 to R246): pair FIFOs, symbol phase and phase sessions. -/

namespace Sys2Proof.Machine

/-- The gearbox port that owns line position k of a course. -/
def Die.gbxPort (x : Die) (c k : Nat) : Option Nat :=
  match x.owner c .line k with
  | none => none
  | some n => if hasGearbox (x.cfga n) then some n else none

/-- GBX_LANE_k (R244). -/
def Die.gbxWord (x : Die) (c k : Nat) : Nat :=
  let g := (x.course c).gbxLane k
  (if (x.gbxPort c k).isSome then g.fill else 0) + 512 * b2n g.phase + 1024 * b2n g.phses + 2048 * b2n g.slip

/-- Change a gearbox lane. -/
def State.onGbx (s : State) (d : DieId) (c k : Nat) (f : Gbx → Gbx) : State :=
  let v := (s.die d).course c
  s.setCourse d c { v with gbx := v.gbx.setIfInBounds k (f (v.gbxLane k)) }

/-! ### Framers of carrying lanes (R168, R214, R216, R223, R238) -/

/-- A framer that locks on this carrying line lane is acted on, as an exception to R168: the lane is protected by lattice (R214, R216,
R223), or it is a gearbox line lane without protection whose phase is held (R238). -/
def Die.lockActs (x : Die) (n : Nat) (h : Side) (j : Nat) : Bool :=
  let c := n / 8
  h == .line && (x.port n).carrying &&
    (if x.latOn c && x.latKey c = n && ((x.course c).lat.protects || (x.course c).lat.state = 5) then (x.latLanes c).contains j
     else hasGearbox (x.cfga n) && (x.portLine n).contains j)

/-- What a framer that locks on such a lane brings: lattice declares the lane failed; a gearbox lane is lost with its phase. -/
def State.lockActs (s : State) (d : DieId) (n j : Nat) : State :=
  let c := n / 8
  let x := s.die d
  if x.latOn c && x.latKey c = n && ((x.course c).lat.protects || (x.course c).lat.state = 5) then s.latDeclare d c j 2
  else if ((x.course c).gbxLane j).phase then (s.phaseLost d n j).loseLanes (portId d n) [j]
  else s

/-- FRAME_LOCK (R161, R174, R212, R214, R216, R223, R236, R238): the framer of a lane locks to its partner's frames after 3 valid ones.
In a session the lane leaves SEEK; a readiness lane passes through ACQUIRE. On a carrying line lane outside a session that lattice
protects, or of a gearbox port, it declares the lane lost. -/
def execFrameLock (p : PortId) (side : Side) (pos : Pos) (arrival : Nat) (s : State) : Result :=
  let d := p.die
  let n := p.key
  let j := pos.val
  let f := (s.port p).framer side j
  .next (if present s.part d && s.running && (s.port p).enabled && ((s.die d).segPos n side).contains j && !f.locked
      && (s.die d).lockFrames n side ≤ f.valid then
    let s := s.onPort p (fun v => v.setFramer side j { f with locked := true, arrival := arrival })
    match (s.die d).laneKind n side j with
    | some k =>
      let l := (s.die d).lane n side j k
      if l.state = 0 || l.state = 7 then s
      else
        let to_ := if l.state ≠ 1 then l.state else if k = .session && (s.port p).kept = some side then 3 else 2
        let s := s.setLane d n side j k { l with flock := true, state := to_, arrival := arrival }
        let s := if k = .session && side == .line then s.latMeasure d n else s
        if k = .session && side == .line && hasGearbox ((s.die d).cfga n) && j < 4 then s.phaseBack d n j false else s
    | none => if (s.die d).lockActs n side j then s.lockActs d n j else s
  else s)

/-- FRAMES_IN_SERVICE (R168): a framer locks to frames on a lane of a carrying segment that are not acted on: the lane is counted,
and the event posted once per segment. -/
def execFramesInService (p : PortId) (side : Side) (pos : Pos) (s : State) : Result :=
  let v := s.port p
  let j := pos.val
  let seen := match side with | .host => v.svcH | .line => v.svcL
  .next (if present s.part p.die && s.running && v.carrying && !bit seen j && ((s.die p.die).segPos p.key side).contains j
      && ((s.die p.die).laneKind p.key side j).isNone && !(s.die p.die).lockActs p.key side j
      && (s.die p.die).lockFrames p.key side ≤ (v.framer side j).valid then
    let s := s.onPort p (fun v => match side with | .host => { v with svcH := v.svcH ||| 2 ^ j } | .line => { v with svcL := v.svcL ||| 2 ^ j })
    if seen = 0 then s.postPort p 0x14 (Side.code side + 2 * j) else s
  else s)

/-! ### Pair FIFOs and phase sessions (R234 to R238) -/

/-- PAIR_SLIP (R234): the fill of a pair FIFO reaches 0 or 511; the port acts on it at the next boundary. -/
def execPairSlip (d : DieId) (c : CourseId) (k : Fin 4) (fill : BitVec 9) (s : State) : Result :=
  let x := s.die d
  .next (match x.gbxPort c.val k.val with
    | none => s
    | some n =>
      if present s.part d && s.running && (x.port n).carrying && !((x.course c.val).gbxLane k.val).slip && (fill == 0 || fill == 511) then
        let s := s.onGbx d c.val k.val (fun g => { g with slip := true, fill := fill.toNat })
        (s.count d (cCourse c.val + 0x1100 + 4 * k.val)).postPort (portId d n) 0x40 (k.val + 65536 * fill.toNat)
      else s)

/-- A pair FIFO's fill over a stroke (R234). -/
def State.fillAt (s : State) (o : FillObs) : State :=
  match (s.die o.die).gbxPort o.course.val o.k.val with
  | none => s
  | some n =>
    if ((s.die o.die).port n).carrying && !(((s.die o.die).course o.course.val).gbxLane o.k.val).slip then
      s.onGbx o.die o.course.val o.k.val (fun g => { g with fill := min o.fill 511 })
    else s

/-- PHASE_SESSION (R221, R237, R238): at the boundary after the lane's slice is LOCKED again, or after its framer locked to the
partner's frames, the lane's transmitter changes to TRAIN and a single-lane session starts, as R161, R162 and R97 start one: on the
slice, whose lock stays, and on the transmitter. No service word is sent and no taps are requested. -/
def execPhaseSession (d : DieId) (c : CourseId) (k : Fin 4) (s : State) : Result :=
  let x := s.die d
  .next (match x.gbxPort c.val k.val with
    | none => s
    | some n =>
      let g := (x.course c.val).gbxLane k.val
      let v := x.port n
      if present s.part d && s.running && v.carrying && !g.phase && !g.phses && x.lineLocked c.val k.val
          && !(hasLattice (x.cfga n) && (x.course c.val).lat.protects) then
        let own := (v.ownId + 1) % 256
        let s := s.onPort (portId d n) (fun v => { v with ownId := own })
        let s := (s.sliceSession d c.val .line k.val).tapsStart d n .line k.val
        let s := s.onGbx d c.val k.val (fun g => { g with phses := true, sessAt := s.stroke d, lane := (s.die d).laneSeek n .line k.val own true })
        let t := txOf c.val .line k.val
        ((s.setTx d t { ((s.die d).tx t) with single := true }).frameBegin d n .line k.val .phase).refreshTx d t
      else s)

/-- PHASE_RESTORED (R221, R238): DONE has been sent and received; the phase is taken from the last marker, and the lane returns at this
boundary; its decoder continues from the level last received (R167). -/
def execPhaseRestored (d : DieId) (c : CourseId) (k last : Fin 4) (s : State) : Result :=
  let x := s.die d
  .next (match x.gbxPort c.val k.val with
    | none => s
    | some n =>
      let g := (x.course c.val).gbxLane k.val
      if present s.part d && s.running && g.phses && g.lane.state == 6 && g.lane.doneTx && g.lane.doneRx then
        let s := s.onGbx d c.val k.val (fun g => { g with phses := false })
        let s := s.phaseBack d n k.val true
        let t := txOf c.val .line k.val
        let s := ((s.setTx d t { ((s.die d).tx t) with single := false }).refreshTx d t).heardLast d n k.val last.val
        let s := s.onPort (portId d n) (fun v =>
          if bit v.lLost k.val && x.lineLocked c.val k.val then { v with lLost := v.lLost ^^^ 2 ^ k.val, lNew := v.lNew ||| 2 ^ k.val } else v)
        s.count d (cCourse c.val + 0x1114)
      else s)

/-- PHASE_SESSION_FAILED (R238): the budget runs out, and the session restarts at SEEK at once, with a new SESSION_ID (R175). -/
def execPhaseSessionFailed (d : DieId) (c : CourseId) (k : Fin 4) (s : State) : Result :=
  let x := s.die d
  .next (match x.gbxPort c.val k.val with
    | none => s
    | some n =>
      let g := (x.course c.val).gbxLane k.val
      if present s.part d && s.running && g.phses && g.lane.state < 5 && g.sessAt + x.budget n ≤ s.stroke d then
        let own := ((x.port n).ownId + 1) % 256
        let s := s.onPort (portId d n) (fun v => { v with ownId := own })
        let s := s.onGbx d c.val k.val (fun g => { g with sessAt := s.stroke d, lane := x.laneSeek n .line k.val own true })
        let s := s.frameBegin d n .line k.val .phase
        (s.count d (cCourse c.val + 0x1118)).postPort (portId d n) 0x43 (k.val + 256 * laneReason g.lane.state)
      else s)

/-- Both host slices of a pair are LOCKED (R234). -/
def Die.pairLocked (x : Die) (c k : Nat) : Bool :=
  (x.slice (x.serving c .host (2 * k))).locked && (x.slice (x.serving c .host (2 * k + 1))).locked

/-- The pair FIFOs of a course at a boundary, before its ports (R234): one that slipped, and whose slip the port has acted on, is loaded to
256 again once both host slices are LOCKED; the line transmitter returns to DATA at this boundary's edge (log entry 74). -/
def State.pairsAt (s : State) (d : DieId) (c : Nat) : State :=
  (List.range 4).foldl (fun s k =>
    let x := s.die d
    if ((x.course c).gbxLane k).slip && (x.tx (txOf c .line k)).lossAct ≠ 0 && x.pairLocked c k then s.onGbx d c k (fun g => { g with slip := false, fill := 256 }) else s) s

end Sys2Proof.Machine
end

