-- ==== Sys2Proof/Machine/Loss.lean ====
section
/-! DEFINITION. Loss and return of lock with their port side (R58, R93, R94, R208, R216, R237), and slice substitution
(R445). -/

namespace Sys2Proof.Machine

/-! ### The port's lost lanes -/

/-- The lane that a slice serves loses its symbol phase with the slice's lock, in every state of its port (R236, R237). -/
def State.slicePhase (s : State) (d : DieId) (n : Nat) : State :=
  match (s.die d).slicePort n with
  | none => s
  | some (p, j) => if sliceSide n == .line && hasGearbox ((s.die d).cfga p) && j < 4 then s.phaseLost d p j else s

/-- A serving slice's loss reaches its port (R58, R93, R216): a lane that lattice protects is declared failed, any other data lane is lost
from the next boundary. -/
def State.laneLost (s : State) (d : DieId) (n : Nat) : State :=
  match (s.die d).slicePort n with
  | none => s
  | some (p, j) =>
    let c := sliceCourse n
    let v := (s.die d).port p
    if v.state < 4 then s
    else match sliceSide n with
      | .host => s.onPort (portId d p) (fun v =>
          if bit v.hLost j then v else { v with hLost := v.hLost ||| 2 ^ j, hNew := v.hNew ||| 2 ^ j })
      | .line =>
        let x := s.die d
        let l := (x.course c).lat
        if x.latOn c && x.latKey c = p && (l.protects || l.state = 5) then
          if l.state ≠ 3 && l.pos = j then s.onLat d c (fun l => { l with trigger := 1, agree := 0 })
          else s.latDeclare d c j 1
        else if j = 8 then s else s.loseLanes (portId d p) [j]

/-- A serving slice's lane is locked again (R58, R94, R237): the lane is no longer lost, unless its symbol phase is. -/
def State.laneBack (s : State) (d : DieId) (n : Nat) : State :=
  match (s.die d).slicePort n with
  | none => s
  | some (p, j) =>
    let x := s.die d
    let v := x.port p
    let tell := v.carrying
    let out := fun (lost new : Nat) => if bit lost j then (lost ^^^ 2 ^ j, if tell then new ||| 2 ^ j else new) else (lost, new)
    match sliceSide n with
    | .host => s.onPort (portId d p) (fun v => let r := out v.hLost v.hNew; { v with hLost := r.1, hNew := r.2 })
    | .line =>
      if hasGearbox (x.cfga p) && j < 4 && !((x.course (sliceCourse n)).gbxLane j).phase then s
      else s.onPort (portId d p) (fun v => let r := out v.lLost v.lNew; { v with lLost := r.1, lNew := r.2 })

/-- What a declaration of loss clears in the slice (R93, R507); in a session the slice acquires afresh and keeps no LOSS
source (R97). -/
def Slice.lose (v : Slice) (inSession : Bool) : Slice :=
  let w := { v with locked := false, converged := false, convRun := 0, warnArmed := false, warnGood := 0, good := false, sdLost := false }
  if inSession then { w with acquiring := true, cdrLock := false, updates := 0 }
  else { w with capoLoss := true, reacq := true, reacqOn := false, reacqFree := false, reacqRec := false }

/-- LOCK_LOST (R93, R97): reason 0 signal detect, 1 CDR, 2 SNR; the last two only while LOCKED. A sympathetic slice clears
LOCKED and CONVERGED; a handover takes that up at its next phase boundary (R140 reason 9). -/
def execLockLost (d : DieId) (n : SliceId) (reason : Fin 3) (s : State) : Result :=
  let x := s.die d
  let v := x.slice n.val
  .next (if present s.part d && s.running && (if reason = 0 then v.sdLost else v.locked) then
    if x.role n.val = 1 then
      s.onSlice d n.val (fun v =>
        { v with locked := false, converged := false, convRun := 0, acquiring := true, good := false, sdLost := false,
                 cdrLock := v.cdrLock && reason.val != 1 })
    else if x.role n.val = 0 then
      let sess := x.inSession n.val
      let s := s.onSlice d n.val (fun v => { v.lose sess with cdrLock := (v.lose sess).cdrLock && reason.val != 1 })
      let s := if sess then s.lostInSession d n.val else s
      let s := (s.count d (cRx n.val)).postRx d n.val 0x02 (x.rxPin n.val + 256 * reason.val)
      let s := s.slicePhase d n.val
      if sess then s else s.laneLost d n.val
    else s
  else s)

/-- LOCK_ACQUIRED (R94): signal detect, CDR lock and the SNR margin have held for one full stroke. A disarmed lattice
course may re-arm with it (R224). -/
def execLockAcquired (d : DieId) (n : SliceId) (s : State) : Result :=
  let x := s.die d
  let v := x.slice n.val
  .next (if present s.part d && s.running && x.role n.val < 2 && v.good && !v.locked then
    let s := s.onSlice d n.val (fun v => { v with locked := true })
    let s := s.postRx d n.val 0x01 (x.rxPin n.val + 256 * v.snrNow)
    if x.role n.val = 0 then (s.laneBack d n.val).latAutoArm d (sliceCourse n.val) else s
  else s)

/-! ### Slice substitution (R445) -/

/-- SLICE_SUBSTITUTION (R445 step 1): at REACQ_FAILED the free sympathetic slice of the side attaches to the pin at the next
boundary, with START = 2. -/
def execSliceSubstitution (d : DieId) (n : SliceId) (s : State) : Result :=
  let x := s.die d
  let v := x.slice n.val
  let c := sliceCourse n.val
  let h := sliceSide n.val
  .next (match x.posOf n.val with
    | none => s
    | some j =>
      if present s.part d && s.running && x.role n.val == 0 && v.reacq && v.reacqFree && !v.reacqOn && !v.locked && v.reacqFrom == s.stroke d
          && (x.sympDenied c h false).isNone then
        (s.attachNext d c h j false (x.sliceRh n.val) 2 0 true).onSide d c h (fun r => { r with subst := true })
      else s)

/-- The window of a substitution is still open: RX_REACQ.WIN strokes of the failing slice from the attach, 0 for no limit. -/
def Die.substOpen (x : Die) (c : Nat) (h : Side) (now : Nat) : Bool :=
  let r := x.rot c h
  let win := fld (x.act (oRx (x.serving c h r.pos) 0x24)) 9 0
  win == 0 || now ≤ r.attachAt + win

/-- The self-test the device starts itself on a slice or bank (R146, R445). -/
def autoTest (d : DieId) (tag test target : Nat) : Test :=
  let k : Packet := { origin := d, queue := 0, tag := BitVec.ofNat 16 tag, length := 6, die := d, fence := false,
                      noprog := true, irq := false, target := BitVec.ofNat 32 target, cookie := 0, words := [BitVec.ofNat 32 test, 0] }
  { tag := k.tag, test := test, target := target, packet := k, isol := true, auto_ := true }

/-- Start a self-test of the device's own. -/
def State.startAuto (s : State) (d : DieId) (t : Test) : State :=
  let s := s.onDie d (fun x =>
    ({ x with bist := { x.bist with tests := x.bist.tests ++ [{ t with paused := !x.bistOn, sliceAt := x.stroke.count + 1 }] } }).lowered)
  s.count d cBist

/-- The pin moves to the substitute at a boundary, without a compare window, and RX_FULL runs on the former slice (R135, R445 steps 2 to
5). -/
def State.substitute (s : State) (d : DieId) (c : Nat) (side : Side) : State :=
  let x := s.die d
  let r := x.rot c side
  let new := x.sympSlice c side
  let old := x.serving c side r.pos
  let s := s.onSide d c side (fun r =>
    { r with
      map := r.map.set r.pos r.symp, symp := sliceIndex old, gen := (r.gen + 1) % 256, state := 0, tap := false, pos := 0,
      mode := false, aligned := false, owner := 0, d := 0, want := 0, phase := 0, subst := false, substNow := false, cfgHit := false })
  let s := s.parkSlice d old
  let s := s.postCourse d c 0x16 (Side.code side + 2 * r.symp + 32 * sliceIndex old + 512 * r.pos)
  (s.laneBack d new).startAuto d (autoTest d (0xFFD0 + sideObj c side) 1 old)

/-- SLICE_SUBSTITUTED (R445 step 2): the substitute has reached LOCKED within the window; the pin moves to it at the next boundary. -/
def execSliceSubstituted (d : DieId) (c : CourseId) (side : Side) (s : State) : Result :=
  let x := s.die d
  let r := x.rot c.val side
  .next (if present s.part d && s.running && r.subst && r.attached && (x.slice (x.sympSlice c.val side)).locked
      && !(x.slice (x.serving c.val side r.pos)).locked && x.substOpen c.val side (s.stroke d) then
    s.onSide d c.val side (fun r => { r with substNow := true })
  else s)

/-- A substitution at a boundary (R445): the pin moves to a substitute that has locked; the sympathetic slice parks again when it has not
locked in its window, when the original slice has locked again, or when the pin has left its port. -/
def State.substAt (s : State) (d : DieId) (c : Nat) (h : Side) : State :=
  let x := s.die d
  let r := x.rot c h
  if !r.subst || !r.attached then s
  else if x.tapDead c h r.pos false then s.detach d c h 3
  else if (x.slice (x.serving c h r.pos)).locked then s.detach d c h 1
  else if r.substNow && (x.slice (x.sympSlice c h)).locked then s.substitute d c h
  else if !x.substOpen c h (s.stroke d) then s.detach d c h 1
  else s

end Sys2Proof.Machine
end

