-- ==== Sys2Proof/Machine/Commit.lean ====
section
/-! DEFINITION. Commit strobes (R33 to R37, R304): local, global and discarded. Applying a group is in Machine/Apply.lean. -/

namespace Sys2Proof.Machine

/-- A global strobe cannot be sent now: ring failover is in progress, or the package has left Standby and not every
reachable die reads LOCKED yet (R37, R472). -/
def State.globalHeld (s : State) (d : DieId) : Bool := (s.die d).brg.failover || s.waking

/-- The target boundary of a global strobe that arrives now, by the die's own stroke timer (R36). -/
def State.globalDue (s : State) (d : DieId) : Nat := if s.ownPos d < 640 then s.stroke d + 1 else s.stroke d + 2

/-- Send the global commit packet of a strobe, and schedule it here (R36). Kind 0 is a commit of groups; 1 closes the
package root (R472), 2 takes a counter snapshot (R409). -/
def State.sendGlobal (s : State) (d : DieId) (mask kind : Nat) : State :=
  let n := s.globalDue d
  let s := s.broadcast d (.gcommit n mask kind)
  s.onDie d (fun x => x.schedule d n mask kind)

/-- A global commit strobe arrives at die d: it is sent, or held while a ring failover is in progress (R36, R37). -/
def State.globalStrobe (s : State) (d : DieId) (mask : Nat) : State :=
  if mask = 0 then s
  else if s.globalHeld d then
    (s.onDie d (fun x => { x with stroke := { x.stroke with held := x.stroke.held ||| mask, gcHeld := true } })).post d 375 0x06 mask
  else s.sendGlobal d mask 0

/-- Release the held strobe of die d, timed from now (R37). -/
def State.releaseHeld (s : State) (d : DieId) : State :=
  let b := (s.die d).stroke
  if b.gcHeld && !s.globalHeld d then
    (s.onDie d (fun x => { x with stroke := { x.stroke with held := 0, gcHeld := false } })).sendGlobal d b.held 0
  else s

/-- The groups a DIE_COMMIT write names, as a mask over 16 (R304). -/
def groupMask (half : Bool) (groups : Nat) : Nat := if half then groups * 256 else groups

/-- A local strobe that names no group does nothing (R304). -/
def State.localStrobe (s : State) (d : DieId) (mask : Nat) : State := if mask = 0 then s else s.strobe d mask

/-- Discard the staged values of the named groups at once (R304): with group 2, those of a CLK_SWITCH too. -/
def State.discard (s : State) (d : DieId) (mask : Nat) : State :=
  let s := s.onDie d (fun x => (List.range 16).foldl (fun x g => if bit mask g then x.dropGroup g else x) x)
  if bit mask 2 then s.onDie d (fun x => { x with clk := { x.clk with switching := false } }) else s

/-- DIE_COMMIT holds H, GLOBAL and DISCARD as a strobe has written them (R301, R314). -/
def State.holdCommit (s : State) (d : DieId) (half global discard : Bool) : State :=
  s.onDie d (fun x => { x with prot := { x.prot with commit := BitVec.ofNat 16 (256 * b2n half + 512 * b2n global + 1024 * b2n discard) } })

/-- LOCAL_COMMIT (R33, R304). -/
def execLocalCommit (d : DieId) (half : Bool) (groups : Byte) (s : State) : Result :=
  .next (if present s.part d && s.running then (s.holdCommit d half false false).localStrobe d (groupMask half groups.toNat) else s)

/-- GLOBAL_COMMIT (R36, R304). -/
def execGlobalCommit (d : DieId) (half : Bool) (groups : Byte) (s : State) : Result :=
  .next (if present s.part d && s.running then (s.holdCommit d half true false).globalStrobe d (groupMask half groups.toNat) else s)

/-- COMMIT_DISCARD (R304). -/
def execCommitDiscard (d : DieId) (half : Bool) (groups : Byte) (s : State) : Result :=
  .next (if present s.part d && s.running then (s.holdCommit d half false true).discard d (groupMask half groups.toNat) else s)

end Sys2Proof.Machine
end

