-- ==== Sys2Proof/Machine/Clocks.lean ====
section
/-! DEFINITION. Clocks (R247 to R267): qualification, failover, holdover, switching and gating. -/

namespace Sys2Proof.Machine

/-- A reference is READY. -/
def Clk.ready (v : Clk) (r : Nat) : Bool := if r = 0 then v.aReady else if r = 1 then v.bReady else if r = 2 then v.spReady else false

/-- A reference is in use by either domain (R250). -/
def Clk.inUse (v : Clk) (r : Nat) : Bool := v.sysUse == r || v.laneUse == r

/-- The number of a reference and of a domain. -/
def refNum : Ref → Nat
  | .a => 0
  | .b => 1

/-- CLK_CFG fields. -/
def Die.sysSrc (x : Die) : Nat := fld (x.act oClkCfg) 1 0
def Die.laneSrc (x : Die) : Nat := fld (x.act oClkCfg) 2 2

/-! ### Registers (R265) -/

/-- CLK_STAT. -/
def Clk.stat (v : Clk) : Nat :=
  b2n v.aReady + 2 * b2n v.bReady + 4 * b2n v.spReady + 8 * v.sysUse + 32 * v.laneUse + 128 * b2n v.slowAlt + 256 * b2n v.disagree

/-- A mask of the courses that satisfy f. -/
def Die.courseMask (x : Die) (f : Course → Bool) : Nat := (courseList.filter (fun c => f (x.course c))).foldl (fun m c => m + 2 ^ c) 0

/-- CLK_LPLL. -/
def Die.lpll (x : Die) : Nat := x.courseMask (fun v => v.pllH && v.pllL) + 256 * x.courseMask (fun v => v.hold)

/-- CLK_GATESTAT. -/
def Die.gateStat (x : Die) : Nat :=
  x.courseMask (fun v => v.gate) + 256 * b2n x.clk.gTune + 512 * b2n x.clk.gTrain + 1024 * b2n x.clk.gBist + 2048 * b2n x.clk.gHk

/-! ### Source changes (R252 to R255) -/

/-- SYS runs from another source: SYS_SWITCHED is posted, a forced change counted (R255, R266). A die that falls back to
its soundpost reads TRACKING (R39). -/
def State.sysTo (s : State) (d : DieId) (src : Nat) (forced : Bool) : State :=
  let v := (s.die d).clk
  let s := s.onClk d (fun v => { v with
    sysUse := src, sysPend := none, sysStop := false, forcedSys := forced, failing := false, defer := false,
    spRun := v.spRun || v.failing || v.defer, refSp := if src = 2 then 0 else v.refSp })
  let s := s.onDie d (fun x => x.fall (cClk + 0xC) (2 ≤ v.sysUse) (2 ≤ src))
  let s := if forced then s.count d (cClk + 4) else s
  let s := s.post d 360 0x04 (v.sysUse + 4 * src + 16 * b2n forced)
  (if src = 2 && (s.die d).stroke.state ≠ 3 then s.toTracking d else s).realign

/-- Change every course of a die. -/
def Die.mapCourses (x : Die) (f : Course → Course) : Die := courseList.foldl (fun x c => x.setCourse c (f (x.course c))) x

/-- LANE runs from a reference (R254): PLLs that held over, or had no reference, slew to it and lock again. -/
def State.laneTo (s : State) (d : DieId) (src : Nat) (forced : Bool) : State :=
  let v := (s.die d).clk
  let s := s.onClk d (fun v => { v with laneUse := src, lanePend := none, inHold := false, forcedLane := forced })
  let s := s.onDie d (fun x => x.fall (cClk + 8) v.inHold false)
  let s := if v.laneUse = 3 then s.onDie d (fun x => x.mapCourses (fun c => { c with hold := false, relock := true, pllH := false, pllL := false })) else s
  let s := if forced then s.count d (cClk + 4) else s
  s.post d 360 0x05 (v.laneUse + 4 * src + 16 * b2n forced)

/-- The slices of a die, in ascending number. -/
def sliceList : List Nat := List.range 152

/-- Every lane PLL of the die holds over (R253): HOLDOVER is set on every slice, and the sessions under way fail at the next
boundary (R182). -/
def State.enterHold (s : State) (d : DieId) : State :=
  let now := s.stroke d
  let s := s.onClk d (fun v => { v with laneUse := 3, lanePend := none, inHold := true, holdFrom := now, aged := false })
  let s := s.onDie d (fun x => x.mapCourses (fun c => { c with hold := true, relock := false, pllH := false, pllL := false }))
  let s := sliceList.foldl (fun s n => s.onSlice d n (fun v => { v with capoHold := true })) s
  (List.range 64).foldl (fun s n => if ((s.die d).port n).sess then s.onPort (portId d n) (fun v => { v with abort := 8 }) else s) s

/-- A reference's READY changes (R249, R267). -/
def State.setReady (s : State) (d : DieId) (r : Nat) (on : Bool) : State :=
  let now := s.stroke d
  if (s.die d).clk.ready r = on then s
  else
    (s.onClk d (fun v =>
      if r = 0 then { v with aReady := on, aPass := if on then v.aPass else 0, aSince := now }
      else { v with bReady := on, bPass := if on then v.bPass else 0, bSince := now })).post d (361 + r) 0x01 (b2n on)

/-- SP_READY changes (R267). -/
def State.setSp (s : State) (d : DieId) (on : Bool) : State :=
  if (s.die d).clk.spReady = on then s
  else (s.onClk d (fun v => { v with spReady := on, spPass := 0 })).post d 363 0x02 (b2n on)

/-! ### Qualification (R249, R250) -/

/-- One reference at the end of a window: it passes, fails, or keeps READY through a disagreement. -/
def State.qualify (s : State) (d : DieId) (r : Nat) (good dis : Bool) : State :=
  let v := (s.die d).clk
  let n := if r = 0 then v.aPass else v.bPass
  if good && !dis then
    let s := s.onClk d (fun v => if r = 0 then { v with aPass := n + 1 } else { v with bPass := n + 1 })
    if 4 ≤ n + 1 then s.setReady d r true else s
  else if good && v.ready r && v.inUse r then s
  else
    let s := s.onClk d (fun v => if r = 0 then { v with aPass := 0 } else { v with bPass := 0 })
    (s.setReady d r false).count d (cClk + 0x10 + 4 * r)

/-- The REFMON test that holds the die's reference monitors and PLL input switch isolated (R421): only the duplicate edge check watches. -/
def Die.refTest (x : Die) : Option Test := x.bist.tests.find? (fun t => t.isol && t.test == 7)

/-- QUAL_WINDOW_END (R249, R250, R259): a window of 10 µs of a ready soundpost ends; none does while the monitors are isolated for test
(R420, R421). -/
def execQualWindowEnd (d : DieId) (o : QualObs) (s : State) : Result :=
  .next (if present s.part d && s.phase != 0 && (s.die d).clk.spReady && (s.die d).refTest.isNone then
    let a := o.aToggles && o.aPlaus
    let b := o.bToggles && o.bPlaus
    let dis := a && b && !o.agree
    let s := s.onClk d (fun v => { v with diff := o.diff, refSp := if v.sysUse < 2 then o.refSp else 0, disagree := dis })
    let s := if dis && !(s.die d).clk.told then (s.onClk d (fun v => { v with told := true })).post d 361 0x02 o.diff.toNat
      else if a && b && o.agree then s.onClk d (fun v => { v with told := false }) else s
    let s := (s.qualify d 0 a dis).qualify d 1 b dis
    s.onClk d (fun v =>
      let n := if o.spOk then v.spPass + 1 else 0
      { v with spPass := n, slowAlt := v.slowAlt && n < 4 })
  else s)

/-! ### Failover and holdover (R251 to R259) -/

/-- Data of REF_FAIL (R267). -/
def failData (r : Ref) (sys lane stopped : Bool) : Nat := refNum r + 2 * b2n sys + 4 * b2n lane + 8 * b2n stopped

/-- REF_FAIL (R251 to R253): the monitor of a reference in use trips. SYS changes to the soundpost within 2 strokes, the lane
PLLs hold over at once. A trip of the SYS reference during a soundpost restart is the row of R258; a trip on frequency needs a ready
soundpost, since the windows are suspended without one (R249, R257), and monitors that are not under test (R421). -/
def execRefFail (d : DieId) (r : Ref) (stopped : Bool) (s : State) : Result :=
  let v := (s.die d).clk
  let n := refNum r
  let sys := v.sysUse == n && !v.failing
  let lane := v.laneUse == n
  .next (if present s.part d && s.running && (sys || lane) && !(sys && v.restart) && (stopped || (v.spReady && (s.die d).refTest.isNone)) then
    let s := (s.setReady d n false).count d cClk
    let s := s.post d 360 0x01 (failData r sys lane stopped)
    let s := s.onClk d (fun v => { v with failover := v.failover ||| (b2n sys + 2 * b2n lane) })
    let s := if lane then s.enterHold d else s
    if sys then s.onClk d (fun v => { v with sysPend := some 2, sysStop := stopped, failing := true }) else s
  else s)

/-- REF_FAIL_FALLBACK_DEFERRED (R257, R258): the SYS reference stops while the soundpost restarts, its windows suspended; SYS enters
free-run holdover. -/
def execRefFailFallbackDeferred (d : DieId) (r : Ref) (stopped : Bool) (s : State) : Result :=
  let v := (s.die d).clk
  let n := refNum r
  let lane := v.laneUse == n
  .next (if present s.part d && s.running && v.sysUse == n && !v.failing && v.restart && stopped then
    let s := (s.setReady d n false).count d cClk
    let s := s.post d 360 0x02 (failData r true lane stopped)
    let s := if lane then s.enterHold d else s
    let at_ := s.stamp d
    s.onClk d (fun v => { v with sysUse := 3, sysPend := none, sysStop := stopped, defer := true, deferAt := at_, failover := v.failover ||| (1 + 2 * b2n lane), refSp := 0 })
  else s)

/-- SP_NOT_READY (R258): 100 µs after the trip, 25,000 sub-frets, the switch completes without a ready soundpost. -/
def execSpNotReady (d : DieId) (s : State) : Result :=
  let v := (s.die d).clk
  .next (if present s.part d && s.running && v.defer && !v.spReady && v.deferAt + 25000 ≤ s.stamp d then
    (s.sysTo d 2 v.sysStop).post d 360 0x03 0
  else s)

/-- The soundpost is READY (R250, R257, R258): a restart ends, and a deferred switch completes. -/
def State.spBack (s : State) (d : DieId) : State :=
  let v := (s.die d).clk
  let s := (s.setSp d true).onClk d (fun v => { v with restart := false })
  if v.defer then s.sysTo d (v.sysPend.getD 2) v.sysStop else s

/-- SP_FAIL (R257, R259): the soundpost stops, in a restart too, or leaves ±3 % of its nominal frequency as counted against a READY
reference. -/
def execSpFail (d : DieId) (stopped : Bool) (err : Byte) (s : State) : Result :=
  let v := (s.die d).clk
  .next (if present s.part d && s.running && (if stopped then v.spReady || v.restart else v.spReady && (v.aReady || v.bReady)) then
    let s := s.post d 363 0x01 (b2n stopped + 256 * err.toNat)
    (s.setSp d false).onClk d (fun v => { v with
      slowAlt := v.slowAlt || v.sysUse < 2, restart := false, sysStop := v.sysStop || (stopped && v.sysUse == 2 && v.sysPend.isSome) })
  else s)

/-- HOLDOVER_AGED (R253). -/
def execHoldoverAged (d : DieId) (s : State) : Result :=
  let v := (s.die d).clk
  .next (if present s.part d && s.running && v.inHold && !v.aged && v.holdFrom + 9765625 ≤ s.stroke d then
    (s.onClk d (fun v => { v with aged := true })).post d 360 0x07 0
  else s)

/-- The preferred reference of a domain has been READY for RET_WAIT × 1,024 strokes (R254). -/
def Die.returnDue (x : Die) (r now : Nat) : Bool :=
  let v := x.clk
  v.ready r && (if r = 0 then v.aSince else v.bSince) + fld (x.act oClkCfg) 9 4 * 1024 ≤ now

/-- AUTO_RETURN (R254, R255): SYS returns from the soundpost, once an edge of it has come, LANE leaves holdover, to the preferred
reference. -/
def execAutoReturn (d : DieId) (m : Domain) (s : State) : Result :=
  let x := s.die d
  let now := s.stroke d
  .next (if present s.part d && s.running && fld (x.act oClkCfg) 3 3 == 1 then
    match m with
    | .sys =>
      if x.clk.sysUse = 2 && x.clk.sysPend.isNone && x.sysSrc < 2 && x.returnDue x.sysSrc now then
        s.onClk d (fun v => { v with sysPend := some x.sysSrc })
      else s
    | .lane => if x.clk.laneUse = 3 && x.returnDue x.laneSrc now then s.laneTo d x.laneSrc false else s
  else s)

/-- LANE_PLL_RELOCK (R254): both lane PLLs of a course are locked to the LANE reference. HOLDOVER clears at the next boundary. -/
def execLanePllRelock (d : DieId) (c : CourseId) (s : State) : Result :=
  let v := (s.die d).course c.val
  .next (if present s.part d && s.running && (s.die d).clk.laneUse < 2 && !(v.pllH && v.pllL) then
    s.setCourse d c.val { v with pllH := true, pllL := true }
  else s)

/-- HOLDOVER clears on the slices of a course whose PLLs have locked again (R254). -/
def State.relockAt (s : State) (d : DieId) (c : Nat) : State :=
  let v := (s.die d).course c
  if v.relock && v.pllH && v.pllL then
    let s := (sideSlices c .host ++ sideSlices c .line).foldl (fun s n => s.onSlice d n (fun v => { v with capoHold := false })) s
    s.setCourse d c { ((s.die d).course c) with relock := false }
  else s

/-- LPLL_UNLOCK (R267): a course side's lane PLL unlocks; the CDRs of its slices lose lock with it. -/
def execLpllUnlock (d : DieId) (c : CourseId) (side : Side) (s : State) : Result :=
  let v := (s.die d).course c.val
  let on := match side with | .host => v.pllH | .line => v.pllL
  .next (if present s.part d && s.running && on && !v.hold then
    let s := s.setCourse d c.val (match side with | .host => { v with pllH := false } | .line => { v with pllL := false })
    let s := (sideSlices c.val side).foldl (fun s n => s.onSlice d n (fun v => { v with cdrLock := false })) s
    s.post d (364 + c.val) 0x01 (Side.code side)
  else s)

/-- A changeover that waits for an edge of its source ends (R252, R255): forced by SWITCH_FORCED or away from a stopped
reference, unforced otherwise. -/
def State.switchAt (s : State) (d : DieId) (m : Domain) (forced : Bool) : State :=
  let v := (s.die d).clk
  match m with
  | .sys => match v.sysPend with | none => s | some p => s.sysTo d p (forced || v.sysStop)
  | .lane => match v.lanePend with | none => s | some p => s.laneTo d p forced

/-- SWITCH_FORCED (R255): no edge of the source being left within 16 cycles of the new one. -/
def execSwitchForced (d : DieId) (m : Domain) (s : State) : Result :=
  .next (if present s.part d && s.running then s.switchAt d m true else s)

/-- A CLK_SWITCH stages its change: what fails over from here on takes precedence over it (R260). -/
def Clk.start (v : Clk) : Clk := { v with refused := 0, failover := 0, forcedSys := false, forcedLane := false, switching := true }

/-- A commit of group 2 applied a staged CLK_CFG (R255, R260): each domain changes to the source its field names. One that
is not READY is refused; a domain that failed over while a CLK_SWITCH waited for this commit stays where the failover put it
(R260; for LANE DEDUCED, log 26). Leaving a source waits for its edge. `sysBad`: the commit named SYS_SRC code 3. -/
def State.clkSelect (s : State) (d : DieId) (sysBad : Bool) : State :=
  let x := s.die d
  let p := x.sysSrc
  let q := x.laneSrc
  let hit := if x.clk.switching then x.clk.failover else 0
  let s := s.onClk d (fun v => { v with refused := 0, switching := false })
  let s :=
    if sysBad || x.clk.sysUse = p then s
    else if !x.clk.ready p then (s.onClk d (fun v => { v with refused := 1 })).post d 360 0x06 (2 * p)
    else if x.clk.failing || bit hit 0 then s
    else s.onClk d (fun v => { v with sysPend := some p })
  if x.clk.laneUse = q then s
  else if !x.clk.ready q then (s.onClk d (fun v => { v with refused := v.refused + 2 })).post d 360 0x06 (1 + 2 * q)
  else if bit hit 1 then s
  else if x.clk.laneUse = 3 then s.laneTo d q false
  else s.onClk d (fun v => { v with lanePend := some q })

/-- A commit of CLK_CFG on an isolated die selects nothing; a source it names that is not READY is refused all the same (R255, R284). -/
def State.clkJudge (s : State) (d : DieId) (sysBad : Bool) : State :=
  let x := s.die d
  let p := fld (x.led oClkCfg) 1 0
  let q := fld (x.led oClkCfg) 2 2
  let s := if sysBad || x.clk.sysUse = p || x.clk.ready p then s else s.post d 360 0x06 (2 * p)
  if x.clk.laneUse = q || x.clk.ready q then s else s.post d 360 0x06 (1 + 2 * q)

/-- A committed change of CLK_SPTRIM restarts the soundpost's settling (R257). -/
def State.spRestart (s : State) (d : DieId) : State := (s.setSp d false).onClk d (fun v => { v with restart := true })

/-! ### Commands (R262 to R264) -/

/-- CLK_SWITCH word 4. -/
def swDomain (k : Packet) : Nat := bits (k.w 4) 1 0
def swSrc (k : Packet) : Nat := bits (k.w 4) 3 2
def swGlobal (k : Packet) : Bool := bit (k.w 4) 4

/-- The CLK_CFG value CLK_SWITCH stages: fields that DOMAIN does not name keep their active values. -/
def Die.switchCfg (x : Die) (k : Packet) : Half :=
  let v := x.act oClkCfg
  let v := if swDomain k = 1 then v else setFld v 1 0 (swSrc k)
  if swDomain k = 0 then v else setFld v 2 2 (swSrc k)

/-- CLK_SWITCH (R262): staged and committed on the named die, or on every die with GLOBAL. Answered at the boundary after
which the change has taken effect. -/
def execClkSwitch (k : Packet) (s : State) : Result :=
  .next (s.command0 k 0x0701 (fun s =>
    let x := s.die k.die
    if 32 ≤ k.w 4 || swDomain k = 3 || swSrc k = 3 || (swSrc k = 2 && swDomain k ≠ 0) then s.refuse k 0x0701 stBadParam
    else if x.brg.isolated then s.refuse k 0x0701 stNotReady
    else match x.refTest with
    | some t => s.refuse k 0x0701 stBusyTest [t.wait]
    | none =>
    if x.clk.defer then s.refuse k 0x0701 stBusy
    else
      let s := s.onClk k.die Clk.start
      if swGlobal k then
        let due := s.globalDue k.die
        let s := s.onAll (fun s d => if s.reaches k.die d && !s.isolated d then s.onDie d (fun x => { (x.stage oClkCfg (x.switchCfg k)) with clk := x.clk.start }) else s)
        (s.globalStrobe k.die 4).await k 0x0701 due 0
      else s.commitAnswer k 0x0701 2 [(oClkCfg, x.switchCfg k)]))

/-- A global CLK_SWITCH whose commit has not come: its strobe is held, or sent and not yet due (R36, R37). -/
def Die.switchDue (x : Die) : Bool :=
  x.clk.switching && x.inCommits && ((x.stroke.gcHeld && bit x.stroke.held 2) || x.stroke.gdue.any (fun g => g.2.2 == 0 && bit g.2.1 2))

/-- A die keeps its source in a global CLK_SWITCH (R260, R262): isolated, lost or out of reach, in STROKE_MISMATCH, in free-run, or its
target is not READY. -/
def State.keepsSource (s : State) (a d : DieId) (named : Nat) : Bool :=
  let x := s.die d
  !x.inCommits || x.brg.lost || !s.reaches a d || x.clk.defer || x.clk.refused &&& named != 0

/-- The answer of CLK_SWITCH at or after the boundary that applied it: none while the commit or the change has not taken effect (R37,
R255, R260, R262). A named die in STROKE_MISMATCH takes no global commit and is listed as one that kept its source. -/
def State.clkReply (s : State) (k : Packet) : Option (Nat × List Nat) :=
  let v := (s.die k.die).clk
  let named := if swDomain k = 0 then 1 else if swDomain k = 1 then 2 else 3
  if v.sysPend.isSome || v.lanePend.isSome || (s.die k.die).switchDue then none
  else if v.refused &&& named ≠ 0 then some (stNotReady, [])
  else some (stDone, [v.sysUse + 4 * v.laneUse + 16 * b2n (v.forcedSys || v.forcedLane) + 32 * b2n (v.failover != 0)
      + 256 * (s.dieList.filter (fun d => swGlobal k && s.keepsSource k.die d named)).foldl (fun m d => m + dbit d) 0])

/-- CLK_STATUS (R264). -/
def execClkStatus (k : Packet) (s : State) : Result :=
  .next (s.command0 k 0x0703 (fun s =>
    let s := s.toFret 21
    let x := s.die k.die
    let v := x.clk
    s.done k 0x0703 3 [pair v.stat x.lpll, pair v.diff.toNat v.refSp.toNat, x.gateStat,
      if v.inHold then sat32 (s.stroke k.die - v.holdFrom) else 0]))

/-! ### Gating (R261, R263) -/

/-- A self-test touches course c: a slice, its spare bank or a half of its capture memory. -/
def Die.courseTest (x : Die) (c : Nat) : Bool :=
  x.bist.tests.any (fun t => (t.test == 1 && sliceCourse t.target == c) || ((t.test == 3 || t.test == 4) && t.target % 256 == c))

/-- A port of the course is not DISABLED. -/
def Die.coursePort (x : Die) (c : Nat) : Bool := (coursePorts c).any (fun n => (x.port n).enabled)

/-- Any port of the die is not DISABLED. -/
def Die.anyPort (x : Die) : Bool := courseList.any (fun c => x.coursePort c)

/-- The housekeeping converter is in use: a regular sequence enabled, an injected
conversion pending, or a calibration waiting or running (R261, R383). -/
def Die.hkUse (x : Die) : Bool := fld (x.act (oSeqCfg 0)) 10 10 == 1 || fld (x.act (oSeqCfg 1)) 10 10 == 1 || !x.hk.inj.isEmpty || x.hk.cal != 0

/-- A node of the tree is in use (R261); levels 1 to 4. The rest of the root's conditions are R470's. -/
def State.nodeUse (s : State) (d : DieId) (level node : Nat) : Bool :=
  let x := s.die d
  match level with
  | 1 => !x.brg.isolated || isAccess s.part d
  | 2 =>
    if node < 8 then x.coursePort node || (x.rot node .host).attached || (x.rot node .line).attached || x.courseTest node
    else if node = 8 then sliceList.any (fun n => !x.parked n)
    else if node = 9 then x.anyPort
    else if node = 10 then !x.bist.tests.isEmpty || courseList.any (fun c => (x.course c).banks.copying)
    else x.hkUse
  | 3 => !x.parked node
  | 4 => (x.tx node).mode != 5
  | _ => false

/-- The package root is in use (R261, R470). -/
def State.rootUse (s : State) : Bool :=
  s.dieList.any (fun d => let x := s.die d; x.anyPort || !x.peg.ops.isEmpty || x.peg.staging || !x.bist.tests.isEmpty)

/-- CLK_GATE (R263, R470): the change takes effect at the next boundary. Closing the root is carried to every die as a global
commit is, and enters Standby there. -/
def execClkGate (k : Packet) (s : State) : Result :=
  .next (s.command k 0x0702 (fun s =>
    let w := k.target.toNat
    let level := w / 2 ^ 28
    let node := w % 256
    let close := k.w 4 == 1
    let x := s.die k.die
    if bits w 27 8 ≠ 0 || !(nodeOk k.die level node || (level = 0 && node = 0)) then s.refuse k 0x0702 stBadTarget
    else if 2 ≤ k.w 4 then s.refuse k 0x0702 stBadParam
    else if level = 0 then
      if !close then s.done k 0x0702 0 []
      else if s.rootUse then s.refuse k 0x0702 stInUse
      else (s.sendGlobal k.die 0 1).await k 0x0702 (s.globalDue k.die) 0
    else if !close && (let p := parentOf k.die level node; 1 < level && (x.clk.gDie || x.gated p.1 p.2)) then s.refuse k 0x0702 stNotReady
    else if x.gated level node = close then s.done k 0x0702 0 []
    else if close && s.nodeUse k.die level node then s.refuse k 0x0702 stInUse
    else
      let s := s.onClk k.die (fun v => { v with gWant := v.gWant ++ [(level, node, close)] })
      s.await k 0x0702 (s.stroke k.die + 1) 1))

/-- GATE_CHANGE (R261): the device opens a closed gate that an enable or a command needs; what is below it runs from the next boundary. -/
def execGateChange (d : DieId) (level : Fin 5) (node : Byte) (s : State) : Result :=
  .next (if present s.part d && s.running && nodeOk d level.val node.toNat && (s.die d).gated level.val node.toNat then
    s.gateOpen d level.val node.toNat else s)

/-- The gates of a die at a boundary: commanded changes take effect, and a closed gate over something in use, or about to
be, is opened. -/
def State.gatesAt (s : State) (d : DieId) : State :=
  let want := (s.die d).clk.gWant
  let s := s.onClk d (fun v => { v with gWant := [] })
  let s := want.foldl (fun s g => if g.2.2 && s.nodeUse d g.1 g.2.1 then s else s.gateTo d g.1 g.2.1 g.2.2 false) s
  let s := (List.range 12).foldl (fun s n =>
    let x := s.die d
    let soon := n < 8 && ((x.rot n .host).want == 1 || (x.rot n .line).want == 1)
    if x.gated 2 n && (s.nodeUse d 2 n || soon) then s.gateOpen d 2 n else s) s
  let s := (s.die d).clk.gSlice.foldl (fun s n => if s.nodeUse d 3 n then s.gateOpen d 3 n else s) s
  let s := (s.die d).txs.foldl (fun s p => if p.2.gate && p.2.mode != 5 then s.gateOpen d 4 p.1 else s) s
  let s := if (s.die d).clk.gDie && s.nodeUse d 1 d.val then s.gateOpen d 1 d.val else s
  s.onClk d (fun v => { v with gFresh := [] })

end Sys2Proof.Machine
end

