-- ==== Sys2Proof/Machine/Hkadc.lean ====
section
/-! DEFINITION. The housekeeping converter and the PWM outputs (R377 to R398). -/

namespace Sys2Proof.Machine

/-- The housekeeping block of a die changes. -/
def State.onHk (s : State) (d : DieId) (f : Hk → Hk) : State := s.onDie d (fun x => { x with hk := f x.hk })

/-- One of the two sequences. -/
def Hk.seq (v : Hk) (n : Nat) : Seq := if n = 0 then v.seq0 else v.seq1
def Hk.setSeq (v : Hk) (n : Nat) (q : Seq) : Hk := if n = 0 then { v with seq0 := q } else { v with seq1 := q }

/-- HK_SEQCFG fields. -/
def seqSteps (c : Half) : Nat := fld c 3 0 + 1
def seqTrig (c : Half) : Nat := fld c 5 4
def seqCh (c : Half) : Nat := fld c 8 6
def seqFall (c : Half) : Bool := fld c 9 9 == 1
def seqEn (c : Half) : Bool := fld c 10 10 == 1

/-- The base of a die's result buffer in its SRAM (log entry 10). -/
def hkBase : Nat := 0x40000

/-! ### The converter's work (R380 to R383) -/

/-- A pass starts with the configuration active now (R384). -/
def Die.startPass (x : Die) (n : Nat) : Die :=
  let cfg := x.act (oSeqCfg n)
  let q := x.hk.seq n
  { x with hk := { x.hk.setSeq n { q with state := 2, step := 0, cfg := cfg, steps := (List.range (seqSteps cfg)).map (fun j => fld (x.act (oStep n j)) 4 0) }
                   with conv := 2 + n } }

/-- Suspend the pass under way, if any, or return it to RUNNING (R378). -/
def Hk.suspend (v : Hk) (on : Bool) : Hk :=
  let f := fun (q : Seq) => if q.state = 2 && on then { q with state := 3 } else if q.state = 3 && !on then { q with state := 2 } else q
  { v with seq0 := f v.seq0, seq1 := f v.seq1 }

/-- The converter is free: it takes the next work (R381). -/
def Die.takeWork (x : Die) : Die :=
  let v := x.hk
  if v.conv ≠ 0 || v.cal = 2 || x.clk.gHk || x.clk.gDie || x.clk.fresh 2 11 then x
  else if v.cal = 1 && 0 < v.calAfter && !v.inj.isEmpty then { x with hk := { v.suspend true with conv := 1 } }
  else if v.cal = 1 then { x with hk := { v.suspend true with cal := 2, calRes := [] } }
  else if !v.inj.isEmpty then { x with hk := { v.suspend true with conv := 1 } }
  else if 2 ≤ v.seq0.state then { x with hk := { v.suspend false with conv := 2 } }
  else if 2 ≤ v.seq1.state then { x with hk := { v.suspend false with conv := 3 } }
  else if v.seq0.state = 1 then x.startPass 0
  else if v.seq1.state = 1 then x.startPass 1
  else x

/-- A trigger of sequence n is dropped: counted, and OVERRUN posted at the first drop (R380). -/
def State.hkDrop (s : State) (d : DieId) (n : Nat) : State :=
  let q := (s.die d).hk.seq n
  let s := s.onHk d (fun v => v.setSeq n { q with dropped := true, pendDrop := q.pendDrop || q.pend, told := true })
  let s := s.count d (cHk + 4 + 4 * n)
  if q.told then s else s.post d 408 0x01 n

/-- A trigger reaches sequence n (R380). -/
def State.hkTrigger (s : State) (d : DieId) (n : Nat) (late : Bool) : State :=
  let q := (s.die d).hk.seq n
  if q.state = 0 then (s.onHk d (fun v => v.setSeq n { q with state := 1, late := late, calDel := false, dropped := false })).onDie d Die.takeWork
  else if 2 ≤ q.state && !q.pend then s.onHk d (fun v => v.setSeq n { q with pend := true, pendLate := late, pendDrop := false, pendCal := false })
  else s.hkDrop d n

/-- HK_STROKE_TRIGGER (R379): fret 28 of a stroke whose opening boundary has a number divisible by N; one stroke late after
an overrun of frets 28 and 29 before which it had not been delivered (R26, R27). -/
def execHkStrokeTrigger (d : DieId) (n : Fin 2) (late : Bool) (s : State) : Result :=
  let x := s.die d
  let cfg := x.act (oSeqCfg n.val)
  let div := (x.act (oSeqN n.val)).toNat
  let now := s.stroke d
  let q := x.hk.seq n.val
  let due := if late then x.stroke.hkPrev && (now - 1) % div == 0 && 0 < now && q.trigAt != now && q.lateAt != now + 1
    else !x.stroke.hkOvr && now % div == 0 && q.trigAt != now + 1
  .next (if present s.part d && s.running && seqEn cfg && seqTrig cfg == 1 && div != 0 && due && !x.clk.gHk && s.pos < 1160 then
    let s := s.toFret 28
    let s := s.onHk d (fun v => v.setSeq n.val (if late then { (v.seq n.val) with lateAt := now + 1 } else { (v.seq n.val) with trigAt := now + 1 }))
    let s := if late then s.count d (cHk + 0x14) else s
    s.hkTrigger d n.val late
  else s)

/-- HK_PWM_EDGE (R379): an edge at a PWM pin starts the delay of each sequence that selects it, or is ignored while one runs. -/
def execHkPwmEdge (d : DieId) (p : Fin 8) (rising : Bool) (s : State) : Result :=
  .next (if present s.part d && s.running && !(s.die d).clk.gHk && !(s.die d).clk.gDie then
    [0, 1].foldl (fun s n =>
      let x := s.die d
      let cfg := x.act (oSeqCfg n)
      let q := x.hk.seq n
      if seqEn cfg && seqTrig cfg = 2 && seqCh cfg = p.val && seqFall cfg != rising then
        if q.delay then s.count d (cHk + 0xC + 4 * n)
        else s.onHk d (fun v => v.setSeq n { q with delay := true, delayAt := s.stamp d })
      else s) s
  else s)

/-- HK_DELAY_END (R379): DELAY × 8 ns, two sub-frets each, have passed since the edge. -/
def execHkDelayEnd (d : DieId) (n : Fin 2) (s : State) : Result :=
  let x := s.die d
  let q := x.hk.seq n.val
  .next (if present s.part d && s.running && q.delay && !x.clk.gHk && !x.clk.gDie && q.delayAt + 2 * (x.act (oSeqDly n.val)).toNat ≤ s.stamp d then
    (s.onHk d (fun v => v.setSeq n.val { q with delay := false })).hkTrigger d n.val false
  else s)

/-- OVERRUN (R380): a trigger reaches a sequence that is queued, or runs with its latch set. -/
def execOverrun (d : DieId) (n : Fin 2) (s : State) : Result :=
  let x := s.die d
  let q := x.hk.seq n.val
  .next (if present s.part d && s.running && seqEn (x.act (oSeqCfg n.val)) && (q.state == 1 || (2 ≤ q.state && q.pend)) then
    s.hkDrop d n.val else s)

/-- A pass ends (R378, R380): a latched trigger queues the sequence again. -/
def Seq.passEnd (q : Seq) : Seq :=
  let told := q.told && q.dropped
  { q with state := if q.pend then 1 else 0, step := 0, pass := (q.pass + 1) % 64, late := q.pend && q.pendLate, calDel := q.pend && q.pendCal,
           dropped := q.pend && q.pendDrop, told := told, pend := false, pendLate := false, pendDrop := false, pendCal := false }

/-- Write a result record (R385, R386): a full buffer gives up its oldest record. -/
def State.hkRecord (s : State) (d : DieId) (word0 : Nat) : State :=
  let x := s.die d
  let v := x.hk
  if fld (x.act oHkBuf) 0 0 ≠ 1 then s
  else
    let time := s.stamp d / 8 % 4294967296
    let s := s.onDie d (fun x => { x with sram := Memory.writeWords x.sram (hkBase + 8 * v.wp) [word0, time] })
    let wp := (v.wp + 1) % 8192
    if v.count < 8192 then s.onHk d (fun v => { v with wp := wp, count := v.count + 1 })
    else
      let s := (s.onHk d (fun v => { v with wp := wp, rp := (v.rp + 1) % 8192, owTold := true })).count d (cHk + 0x18)
      if v.owTold then s else s.post d 408 0x03 wp

/-- The final reply of an HK_INJECT (R392). -/
def injReply (l : List (Nat × Bool)) : List Nat :=
  let c := fun i => ((l[i]?).map (·.1)).getD 0
  let f := fun i => b2n (((l[i]?).map (·.2)).getD false)
  [pair (c 0) (c 1), pair (c 2) (c 3), f 0 + 2 * f 1 + 4 * f 2 + 8 * f 3]

/-- The conversions a packet asks for (R392). -/
def injCount (k : Packet) : Nat := k.w 4 % 8

/-- An injected conversion ends: the command that asked for it is answered after its last (R392). -/
def State.injEnd (s : State) (d : DieId) (code : Nat) (input : Nat) (flag : Bool) : State :=
  let s := s.onHk d (fun v => { v with
    inj := v.inj.drop 1, injDone := v.injDone ++ [(code, flag)], calAfter := v.calAfter - 1, last := SMap.put 0 v.last input code })
  let s := s.hkRecord d (code + input * 2 ^ 12 + 2 ^ 21 + b2n flag * 2 ^ 23)
  let v := (s.die d).hk
  match v.injOps with
  | [] => s
  | k :: rest =>
    if v.injDone.length < injCount k.1 then s
    else (s.onHk d (fun v => { v with injOps := rest, injDone := [] })).finishHw k.1 0x0902 (mkRec k.1 stDone 1 (injReply v.injDone)) (s.stroke d - k.2)

/-- A step of a pass ends (R378, R385). -/
def State.stepEnd (s : State) (d : DieId) (n code : Nat) : State :=
  let q := (s.die d).hk.seq n
  let input := (q.steps[q.step]?).getD 0
  let word := code + input * 2 ^ 12 + q.step * 2 ^ 17 + n * 2 ^ 22 + b2n q.calDel * 2 ^ 23 + b2n q.late * 2 ^ 24
    + b2n (seqTrig q.cfg == 2) * 2 ^ 25 + q.pass * 2 ^ 26
  let q1 := if q.step + 1 < seqSteps q.cfg then { q with step := q.step + 1 } else q.passEnd
  (s.onHk d (fun v => { v.setSeq n q1 with last := SMap.put 0 v.last input code })).hkRecord d word

/-- A conversion of a calibration ends (R377, R383): its result is written as every result is. Its record shows no step, pass or flag (log
entry 54). -/
def State.calEnd (s : State) (d : DieId) (code input : Nat) : State :=
  (s.onHk d (fun v => { v with calRes := v.calRes ++ [code], last := SMap.put 0 v.last input code })).hkRecord d (code + input * 2 ^ 12)

/-- Conversions of a calibration: 1,200 slow cycles of 40 ns, at one in 500 ns (R377, R383). -/
def calConversions : Nat := 96

/-- The input that the conversion in progress converts; a calibration converts REF_LO and REF_HI in turn (R383; log entry 54). -/
def Hk.input (v : Hk) : Nat :=
  if v.conv = 0 then 14 + v.calRes.length % 2
  else if v.conv = 1 then (match v.inj with | [] => 0 | i :: _ => i.1)
  else let q := v.seq (v.conv - 2); (q.steps[q.step]?).getD 0

/-- The result of a conversion of an input: the sensor's trim, the converter's trim and the corrections in use applied to the raw code
(R377, R383). -/
def Die.hkResult (x : Die) (input : Nat) (raw : BitVec 12) : Nat :=
  (Config.hkCode raw (if input < 8 then x.calAt (15136 + input) else 0) (x.calAt 15144) x.hk.ofs x.hk.gain).toNat

/-- HK_CONVERSION_END (R377, R381, R383): the conversion in progress, or that of the calibration under way, ends with a raw code, and the
converter takes the next work. -/
def execHkConversionEnd (d : DieId) (raw : BitVec 12) (s : State) : Result :=
  let v := (s.die d).hk
  let code := (s.die d).hkResult v.input raw
  .next (if present s.part d && s.running && (v.conv != 0 || (v.cal == 2 && v.calRes.length < calConversions)) then
    let s := (s.onHk d (fun v => { v with conv := 0 })).count d cHk
    let s :=
      if v.conv = 0 then s.calEnd d code v.input
      else if v.conv = 1 then match v.inj with | [] => s | i :: _ => s.injEnd d code i.1 i.2
      else s.stepEnd d (v.conv - 2) code
    s.onDie d Die.takeWork
  else s)

/-- CAL_DONE (R383, R393): the calibration ends, 1,200 slow cycles after it began, with the corrections that its results give; the reply
holds its last code of each reference. What waited for it is marked. -/
def execCalDone (d : DieId) (s : State) : Result :=
  let v := (s.die d).hk
  let (offset, gain) := Config.hkCorrections v.calRes
  let ref := fun (i : Nat) => SMap.get 0 v.last i
  let mark := fun (q : Seq) => { q with calDel := q.calDel || q.state != 0, pendCal := q.pendCal || q.pend }
  .next (if present s.part d && s.running && v.cal == 2 && v.calRes.length == calConversions then
    let s := s.onHk d (fun v => { v with
      cal := 0, calRes := [], ofs := offset, gain := gain, calOp := none, seq0 := mark v.seq0, seq1 := mark v.seq1,
      inj := v.inj.map (fun p => (p.1, true)) })
    let s := (s.count d (cHk + 0x1C)).post d 408 0x02 (pair offset.toNat gain.toNat)
    let s := match v.calOp with
      | none => s
      | some k => s.finishHw k.1 0x0903 (mkRec k.1 stDone 1 [pair (ref 14) (ref 15), pair offset.toNat gain.toNat]) (s.stroke d - k.2)
    s.onDie d Die.takeWork
  else s)

/-- HK_RP_WRITE (R386): host software consumes records up to the value it writes. -/
def State.hkRp (s : State) (d : DieId) (v : Nat) : State :=
  s.onHk d (fun h =>
    let n := (v + 8192 - h.rp) % 8192
    { h with rp := v, count := if n ≤ h.count then h.count - n else (h.wp + 8192 - v) % 8192, owTold := false })

/-- HK_RP_WRITE (R386). -/
def execHkRpWrite (d : DieId) (rp : BitVec 13) (s : State) : Result :=
  .next (if present s.part d && s.running then s.hkRp d rp.toNat else s)

/-- A commit changes EN of a sequence to 0 (R384): pending and queued triggers are discarded, the delay timer stops. -/
def Hk.disable (v : Hk) (n : Nat) : Hk :=
  let q := v.seq n
  v.setSeq n { q with state := if q.state = 1 then 0 else q.state, pend := false, pendLate := false, pendDrop := false, pendCal := false, delay := false }

/-! ### Critical temperature (R387) -/

/-- TEMP_CRITICAL (R387, R395): a sensor has been above TCRIT for 64 slow cycles; while a trip holds the row tells which sensors are above
now. In Standby the comparators run; the event follows at the wake (R474). -/
def execTempCritical (d : DieId) (above : Byte) (s : State) : Result :=
  .next (if present s.part d && (s.running || s.phase == 3) && (s.die d).hk.trip then s.onHk d (fun v => { v with above := above.toNat })
  else if present s.part d && (s.running || s.phase == 3) && above != 0 then
    let s := s.onHk d (fun v => { v with trip := true, above := above.toNat, owed := !s.running })
    if s.running then s.post d 409 0x01 (above.toNat + 256 * fld ((s.die d).act oTcrit) 7 0) else s
  else s)

/-- TEMP_CRIT_CLEARED (R387). -/
def execTempCritCleared (d : DieId) (s : State) : Result :=
  .next (if present s.part d && (s.running || s.phase == 3) && (s.die d).hk.trip then
    let s := s.onDie d (fun x => { x with hk := { x.hk with trip := false, above := 0 }, tele := (x.fall (cHk + 0x20) true false).tele })
    if s.running then s.post d 409 0x02 0 else s
  else s)

/-! ### Sequence and converter commands (R391 to R393) -/

/-- Reserved bits of the step words of HK_SEQ_DEFINE are 0. -/
def stepsOk (w : Nat) : Bool := w &&& 0xE0E0E0E0 == 0

/-- HK_SEQ_DEFINE (R391). -/
def execHkSeqDefine (k : Packet) (s : State) : Result :=
  .next (s.command k 0x0901 (fun s =>
    let n := k.target.toNat
    let cfg := BitVec.ofNat 16 (k.w 4)
    if 2 ≤ n then s.refuse k 0x0901 stBadTarget
    else if 2048 ≤ k.w 4 || seqTrig cfg = 3 || (seqTrig cfg = 1 && k.w 5 % 65536 = 0) || !(stepsOk (k.w 6) && stepsOk (k.w 7) && stepsOk (k.w 8) && stepsOk (k.w 9)) then
      s.refuse k 0x0901 stBadParam
    else s.commitAnswer k 0x0901 5
      ([(oSeqCfg n, cfg), (oSeqN n, BitVec.ofNat 16 (k.w 5)), (oSeqDly n, BitVec.ofNat 16 (k.w 5 / 65536))]
        ++ (List.range 16).map (fun j => (oStep n j, BitVec.ofNat 16 (bits (k.w (6 + j / 4)) (8 * (j % 4) + 4) (8 * (j % 4))))))))

/-- HK_INJECT (R382, R392): the device opens the housekeeping gate for it. -/
def execHkInject (k : Packet) (s : State) : Result :=
  .next (s.command0 k 0x0902 (fun s =>
    let n := k.w 4
    if n = 0 || 4 < n then s.refuse k 0x0902 stBadParam
    else if 4 < (s.die k.die).hk.inj.length + n then s.refuse k 0x0902 stBusy
    else
      let s := s.gateOpen k.die 2 11
      let ins := (List.range n).map (fun i => (bits (k.w 5) (8 * i + 4) (8 * i), false))
      (s.onHk k.die (fun v => { v with inj := v.inj ++ ins, injOps := v.injOps ++ [(k, s.stroke k.die)] })).onDie k.die Die.takeWork))

/-- HK_CALIBRATE (R383, R393). -/
def execHkCalibrate (k : Packet) (s : State) : Result :=
  .next (s.command0 k 0x0903 (fun s =>
    if (s.die k.die).hk.cal ≠ 0 then s.refuse k 0x0903 stBusy
    else
      let s := s.gateOpen k.die 2 11
      (s.onHk k.die (fun v => { v with cal := 1, calAfter := v.inj.length, calOp := some (k, s.stroke k.die) })).onDie k.die Die.takeWork))

/-- HK_STAT (R395). -/
def Hk.stat (v : Hk) : Nat :=
  v.seq0.state + 4 * v.seq1.state + 16 * b2n v.seq0.pend + 32 * b2n v.seq1.pend + 64 * b2n (v.cal != 0) + 128 * v.inj.length

/-! ### PWM (R388, R389, R394) -/

/-- The reset value of register k of a PWM channel: what an unlisted entry of the counter and load registers reads as. -/
def pwmReset (i : Nat) : Half := if i % 4 = 1 then 0xFFFF else 0

/-- The value channel p counts with: k is 0 CTL, 1 PER, 2 DUTY, 3 PHASE. -/
def Hk.pwmAt (v : Hk) (p k : Nat) : Half := SMap.get (pwmReset (4 * p + k)) v.pwm (4 * p + k)

/-- Channel p runs. -/
def Hk.pwmOn (v : Hk) (p : Nat) : Bool := fld (v.pwmAt p 0) 0 0 == 1

/-- The period of channel p in sc: one count is 0.8 ns (R388). -/
def Hk.pwmPeriod (v : Hk) (p : Nat) : Int := (v.pwmAt p 1).toNat + 1

/-- The count of channel p, 0 to PER (R388). -/
def State.pwmCount (s : State) (d : DieId) (p : Nat) : Int :=
  let v := (s.die d).hk
  ((s.stroke d : Int) * 1280 + s.pos - SMap.get 0 v.pwmZero p) % v.pwmPeriod p

/-- The first wrap of channel p from time t on. -/
def Hk.nextWrap (v : Hk) (p : Nat) (t : Int) : Int := t + (SMap.get 0 v.pwmZero p - t) % v.pwmPeriod p

/-- Channel p takes the values of its load register, and counts from 0 at time t (R389). -/
def Hk.pwmTake (v : Hk) (p : Nat) (t : Int) : Hk :=
  let go := fun (m : SMap Half) k => SMap.put (pwmReset (4 * p + k)) m (4 * p + k) (SMap.get (pwmReset (4 * p + k)) v.load (4 * p + k))
  let pwm := [0, 1, 2, 3].foldl go v.pwm
  let on := fld (SMap.get (pwmReset (4 * p)) pwm (4 * p)) 0 0 == 1
  { v with pwm := pwm, loading := if bit v.loading p then v.loading ^^^ 2 ^ p else v.loading,
           pwmZero := SMap.put 0 v.pwmZero p t, pwmUsed := if on then v.pwmUsed ||| 2 ^ p else v.pwmUsed }

/-- Answer the PWM_SET commands that wait for channel p (R394). -/
def State.pwmAnswer (s : State) (d : DieId) (p : Nat) : State :=
  let v := (s.die d).hk
  let mine := v.waiters.filter (fun w => w.arg == p)
  let s := s.onHk d (fun v => { v with waiters := v.waiters.filter (fun w => w.arg != p) })
  mine.foldl (fun s w => s.finishHw w.packet 0x0904 (mkRec w.packet stDone 1 [SMap.get 0 v.moved p % 65536]) (s.stroke d - w.start)) s

/-- Move a channel's committed values to its load register; a channel that does not run takes them at once, and counts from 0 at the
start of fret 28 (R389). -/
def State.pwmMove (s : State) (d : DieId) (p : Nat) : State :=
  let now := s.stroke d
  let run := (s.die d).hk.pwmOn p
  let s := s.onDie d (fun x =>
    let v := x.hk
    let go := fun (m : SMap Half) k => SMap.put (pwmReset (4 * p + k)) m (4 * p + k) (x.act (oPwm p k))
    { x with hk := { v with load := [0, 1, 2, 3].foldl go v.load, moved := SMap.put 0 v.moved p now, loading := v.loading ||| 2 ^ p } })
  if run then s else (s.onHk d (fun v => v.pwmTake p (now * 1280 + 1120))).pwmAnswer d p

/-- PWM_LOAD (R26, R389): within frets 28 and 29, once in a stroke, unless they overrun, which delays the move by one stroke. -/
def execPwmLoad (d : DieId) (s : State) : Result :=
  let x := s.die d
  .next (if present s.part d && s.running && s.fretOpen d 28 29 && !x.stroke.hkOvr && x.hk.dueLoad != 0 then
    let s := (s.toFret 28).onDie d (fun x => x.didFret 28)
    let due := x.hk.dueLoad
    let s := s.onHk d (fun v => { v with dueLoad := 0 })
    courseList.foldl (fun s p => if bit due p then s.pwmMove d p else s) s
  else s)

/-- PWM_WRAP (R389): a running channel wraps from PER to 0, for the first time since its new values reached the load register in
fret 28, and takes them; in the wrap's own stroke, at the latest at its sc. -/
def execPwmWrap (d : DieId) (p : Fin 8) (s : State) : Result :=
  let v := (s.die d).hk
  let w := v.nextWrap p.val (SMap.get 0 v.moved p.val * 1280 + 1120)
  let here := (w - s.stroke d * 1280).toNat
  .next (if present s.part d && s.running && v.pwmOn p.val && bit v.loading p.val && here < 1280 then
    ((s.advance here).onHk d (fun v => v.pwmTake p.val w)).pwmAnswer d p.val
  else s)

/-- PWM_SET (R394). -/
def execPwmSet (k : Packet) (s : State) : Result :=
  .next (s.command k 0x0904 (fun s =>
    let p := k.target.toNat
    let h := fun n => BitVec.ofNat 16 n
    if 8 ≤ p then s.refuse k 0x0904 stBadTarget
    else if 2 ^ 19 ≤ k.w 5 || k.w 4 % 65536 < k.w 5 % 65536 then s.refuse k 0x0904 stBadParam
    else s.commitAnswer k 0x0904 5
      [(oPwm p 0, h (bits (k.w 5) 18 16)), (oPwm p 1, h (k.w 4)), (oPwm p 2, h (k.w 4 / 65536)), (oPwm p 3, h (k.w 5))] p))

/-- Channel p is forced active (R388): a critical trip or Standby, with CRIT_FULL. -/
def State.pwmForced (s : State) (d : DieId) (p : Nat) : Bool :=
  let v := (s.die d).hk
  (v.trip || s.phase == 3) && fld (v.pwmAt p 0) 2 2 == 1

/-- Channel p's output is at its active level (R388): by count, phase and duty while it runs; a disabled channel and Standby give the
inactive level, except where it is forced. -/
def State.pwmActive (s : State) (d : DieId) (p : Nat) : Bool :=
  let v := (s.die d).hk
  s.pwmForced d p
    || (s.phase == 2 && v.pwmOn p && decide ((s.pwmCount d p - (v.pwmAt p 3).toNat) % v.pwmPeriod p < (v.pwmAt p 2).toNat))

/-- The level of ball PWM[8d + p]: low from power-up until the channel is first enabled (R388). -/
def State.pwmPin (s : State) (d : DieId) (p : Nat) : Bool :=
  let v := (s.die d).hk
  let pol := fld (v.pwmAt p 0) 1 1 == 1
  if bit v.pwmUsed p || s.pwmForced d p then s.pwmActive d p != pol else false

/-- PWM_STAT (R396). -/
def State.pwmStat (s : State) (d : DieId) : Nat :=
  (s.die d).hk.loading + 256 * (courseList.filter (fun p => s.pwmForced d p)).foldl (fun m p => m + 2 ^ p) 0

end Sys2Proof.Machine
end

