-- ==== Sys2Proof/Machine/Telemetry.lean ====
section
/-! DEFINITION. Counters and telemetry (R399 to R419): the live copy, snapshots, bandwidth meters, tagged codewords and
pegbox profiling. -/

namespace Sys2Proof.Machine

/-! ### The live region (R402, R403, R412, R418) -/

/-- The four DW of a bandwidth meter (R412). -/
def DirSt.meterWords (v : DirSt) (carrying : Bool) : List Nat :=
  let w := fun i => (v.metVals[i]?).getD 0
  [w 0, w 1, w 2, w 3 + 4 * b2n (v.metEn && carrying) + 65536 * v.metW]

/-- Base of the bandwidth meter of a port and direction (R412). -/
def cMeter (c i : Nat) (h : Side) : Nat := cCourse c + 0x1200 + i * 0x20 + (match h with | .host => 0 | .line => 0x10)

/-- Write words at rising offsets. -/
def putWords (m : SMap Nat) (o : Nat) : List Nat → SMap Nat
  | [] => m
  | w :: l => putWords (SMap.put 0 m o w) (o + 4) l

/-- The telemetry status DW at 0xA00 (R418). -/
def Tele.status (t : Tele) : Nat := t.profWp + 2 ^ 12 * b2n t.profRun + 2 ^ 16 * t.profM

/-- Everything the live region shows, as it stands now. -/
def Die.liveImage (x : Die) : SMap Nat :=
  let m := SMap.put 0 x.tele.cnt cTele x.tele.status
  let m := (List.range 152).foldl (fun m n => SMap.put 0 m (cRx n + 0x14) (x.lowFrets n)) m
  x.ports.foldl (fun m p =>
    let m := putWords m (cMeter (p.1 / 8) (p.1 % 8) .host) (p.2.h2l.meterWords p.2.carrying)
    putWords m (cMeter (p.1 / 8) (p.1 % 8) .line) (p.2.l2h.meterWords p.2.carrying)) m

/-! ### Snapshots (R407 to R409) -/

/-- FIRST and COUNT of a snapshot, packed as a global packet carries them. -/
def snapRange (k : Packet) : Nat := k.w 4 % 65536 + 65536 * (k.w 5 % 4096)

/-- At the boundary that opens stroke n the die latches the named counters (R407). -/
def Die.takeSnap (x : Die) (n range : Nat) : Die :=
  let first := range % 65536
  let count := range / 65536
  let image := x.liveImage
  { x with tele := { x.tele with
      snapFirst := first, snapCount := count, snapStroke := n, snapValid := false, snapBusy := true, snapLow := x.tele.lowMark,
      lowMark := false,
      snapVals := putWords [] 0 ((List.range count).map (fun i => SMap.get 0 image (4 * (first + i)))) } }

/-- A snapshot of the die waits for its boundary. -/
def Die.snapWaits (x : Die) : Bool :=
  x.tele.snapAt.isSome || x.tele.snapHold.isSome || x.stroke.gdue.any (fun g => g.2.2 == 2)

/-- A global snapshot packet is still on the ring. -/
def State.snapInAir (s : State) : Bool :=
  s.air.any (fun f => match f.body with | .gcommit _ _ 2 => true | _ => false)

/-- The dies of a mask. -/
def State.diesOf (s : State) (mask : Nat) : List DieId := s.dieList.filter (fun d => bit mask d.val)

/-- Answer the snapshot commands of die d that are complete: VALID is 1 on every die concerned (R409). -/
def State.snapAnswer (s : State) (d : DieId) : State :=
  ((s.die d).peg.awaits.filter (fun a => a.op == 0x0B01)).foldl (fun s a =>
    let open_ := a.due = 0 || s.stroke d < a.due || s.snapInAir
      || (s.diesOf a.arg).any (fun b => (s.die b).snapWaits || (s.die b).tele.snapBusy)
    if open_ then s
    else
      let took := ((s.diesOf a.arg).filter (fun b => (s.die b).tele.snapValid && a.due ≤ (s.die b).tele.snapStroke)).foldl (fun m b => m + dbit b) 0
      let s := s.onDie d (fun x => { x with peg := { x.peg with awaits := x.peg.awaits.erase a } })
      s.finishHw a.packet 0x0B01 (mkRec a.packet stDone 1 [a.due % 4294967296, took]) (s.stroke d - a.start)) s

/-- The lead sends a global snapshot, timed from now (R36, R409): the command waits for the dies the lead reaches. -/
def State.snapSend (s : State) (k : Packet) : State :=
  let l := s.leadDie
  let n := s.globalDue l
  let mask := (s.dieList.filter (fun b => s.reachable l b && (s.die b).inCommits)).foldl (fun m b => m + dbit b) 0
  let s := s.onDie k.die (fun x => { x with peg := { x.peg with
    awaits := x.peg.awaits.map (fun a => if a.op == 0x0B01 && a.packet == k then { a with due := n, arg := mask } else a) } })
  s.sendGlobal l (snapRange k) 2

/-- Release the snapshot the lead holds during a ring failover (R37, R409). -/
def State.snapRelease (s : State) (d : DieId) : State :=
  match (s.die d).tele.snapHold with
  | none => s
  | some k =>
    if s.globalHeld d then s
    else (s.onDie d (fun x => { x with tele := { x.tele with snapHold := none } })).snapSend k

/-- CNT_SNAPSHOT (R409). -/
def execCntSnapshot (k : Packet) (s : State) : Result :=
  .next (s.command0 k 0x0B01 (fun s =>
    let d := k.die
    let l := s.leadDie
    let first := k.w 4 % 65536
    let count := k.w 5
    if bits (k.w 4) 30 16 ≠ 0 || count = 0 || 3068 < count || 0xD000 < 4 * (first + count) then s.refuse k 0x0B01 stBadParam
    else if bit (k.w 4) 31 then
      if s.snapInAir || (s.die l).snapWaits || s.dieList.any (fun b => s.reachable l b && (s.die b).snapWaits) then s.refuse k 0x0B01 stBusy
      else
        let s := s.await k 0x0B01 0 0
        if s.globalHeld l then s.onDie l (fun x => { x with tele := { x.tele with snapHold := some k } })
        else s.snapSend k
    else if (s.die d).snapWaits then s.refuse k 0x0B01 stBusy
    else
      let n := s.stroke d + 1
      (s.onDie d (fun x => { x with tele := { x.tele with snapAt := some n, snapReq := (first, count) } })).await k 0x0B01 n (dbit d)))

/-- LIVE_COPY (R403): at the start of fret 21 every counter of the live region is latched, to be readable from the end of
fret 24. After an overrun of frets 21 to 24 the previous copy stays. -/
def execLiveCopy (d : DieId) (s : State) : Result :=
  .next (if present s.part d && s.running && s.fretOpen d 21 24 then
    let s := (s.toFret 21).onDie d (fun x => x.didFret 21)
    let s := if (s.die d).stroke.pegOvr then s
      else s.onDie d (fun x => { x with tele := { x.tele with latch := some x.liveImage } })
    s.snapAnswer d
  else s)

/-! ### Bandwidth meters (R410 to R413) -/

/-- The direction has a bandwidth meter (R410). -/
def hasMeter (a : Half) : Bool := hasFec a || hasBlocks a

/-- An idle block (R203): a control block of block type 0x1E whose eight control characters are all idle. -/
def isIdle (b : Bool × BitVec 64) : Bool := b.1 && b.2 == idle66

/-- What one block adds to NONIDLE and to TOTAL at a rate (R410): the meter of a PAM4 port takes 256b/257b blocks, four blocks each; that
of an N26 port takes the blocks of its monitors. -/
def blockCounts (n26 : Bool) : MBlock → Nat × Nat
  | .data257 => if n26 then (0, 0) else (4, 4)
  | .mixed257 a b c e => if n26 then (0, 0) else (b2n (!isIdle a) + b2n (!isIdle b) + b2n (!isIdle c) + b2n (!isIdle e), 4)
  | .one66 b => if n26 then (b2n (!isIdle b), 1) else (0, 0)

/-- NONIDLE and TOTAL of a window's blocks, each given with how often it came (R410). -/
def meterSum (n26 : Bool) (l : List (MBlock × Word)) : Nat × Nat :=
  l.foldl (fun r b => let c := blockCounts n26 b.1; (r.1 + c.1 * b.2.toNat, r.2 + c.2 * b.2.toNat)) (0, 0)

/-- The window in progress ends as window k: its four DW are written (R412). -/
def DirSt.meterEnd (v : DirSt) (nonidle total k : Nat) (low : Bool) : DirSt :=
  { v with metVals := [nonidle % 4294967296, total % 4294967296, k % 4294967296, 1 + 2 * b2n low], metWin := k + 1 }

/-- Windows that have ended since E_0, at the boundary that opens stroke n. -/
def DirSt.windows (v : DirSt) (n : Nat) : Nat := (n - v.metFrom) / v.metW

/-- The engine, or every monitor, of a direction is locked. -/
def State.dirLocked (s : State) (p : PortId) (dir : Side) : Bool :=
  let x := s.die p.die
  let m := (s.port p).dir dir
  if hasFec (x.cfga p.key) then m.fecLock else (x.portHost p.key).all (fun j => bit m.block j)

/-- METER_WINDOW_END (R410 to R412): at the edge E_(k+1), in the stroke that its boundary opens, the window's values are written, from
the blocks whose arrival cycle lies in it. LOWER_BOUND shows that the engine or a monitor was unlocked in some part of it, or R408. -/
def execMeterWindowEnd (p : PortId) (dir : Side) (blocks : List (MBlock × Word)) (s : State) : Result :=
  let x := s.die p.die
  let v := s.port p
  let m := v.dir dir
  let now := s.stroke p.die
  .next (if present s.part p.die && s.running && m.metEn && v.carrying && (now - m.metFrom) % m.metW == 0 && m.metWin < m.windows now then
    let n := meterSum (rate (x.cfga p.key) == 3) blocks
    let low := m.metLow || !s.dirLocked p dir || now - m.metW < x.tele.lowAt
    let after := !s.dirLocked p dir
    s.onDir p dir (fun m => { m.meterEnd n.1 n.2 (m.windows now - 1) low with metLow := after })
  else s)

/-- A meter is configured, counting from window 0 at the boundary that opens stroke n (R411, R413). -/
def DirSt.meterSet (v : DirSt) (en : Bool) (w n : Nat) (low : Bool) : DirSt :=
  { v with metEn := en, metW := w, metWin := 0, metFrom := n, metLow := low }

/-- The port leaves CARRYING and DEGRADED: the window in progress is written with LOWER_BOUND, and the meter pauses (R413).
The counts of the part of the window are free values (log entry 4). -/
def State.meterPause (s : State) (p : PortId) (dir : Side) : State :=
  if ((s.port p).dir dir).metEn then
    let (a, s) := s.takeFree
    let (b, s) := s.takeFree
    s.onDir p dir (fun m => m.meterEnd a.toNat b.toNat m.metWin true)
  else s

/-- The port is disabled: the meter stops and its configuration clears; the last result stays (R413). -/
def DirSt.meterOff (v : DirSt) : DirSt := { v with metEn := false, metW := 0, metWin := 0, metFrom := 0 }

/-- The port is enabled again: the last result goes (R413). -/
def DirSt.meterClear (v : DirSt) : DirSt := { v with metVals := [] }

/-! ### Tagged codewords (R414 to R416) -/

/-- The interval that SEGMENT selects (R415). -/
def tagInterval (t : TagPoints) (seg : Nat) : Int :=
  if seg = 0 then (t.egress : Int) - t.ingress else if seg = 1 then (t.eqOut : Int) - t.ingress
  else if seg = 2 then (t.fecOut : Int) - t.eqOut else (t.egress : Int) - t.fecOut

/-- BASE in use: 0xFF stands for DP_LAT − 32 of the direction (R419). -/
def tagBaseOf (base lat : Nat) : Int := if base = 0xFF then (lat : Int) - 32 else base

/-- The bin of an interval (R416). -/
def tagBin (l base : Int) : Nat := (clamp (l - base) 0 63).toNat

/-- The nth codeword decoded in the stroke is tagged (R414): the low k bits of the LFSR, advanced once per codeword, are all 0. -/
def DirSt.tags (v : DirSt) (nth : Nat) : Bool := lfsrRun nth v.tagLfsr % 2 ^ v.tagK == 0

/-- TAGGED_SAMPLE (R414 to R416): the nth codeword that the engine decodes in the stroke is tagged, and one interval of it is counted in
its bin, which saturates. -/
def execTaggedSample (p : PortId) (dir : Side) (nth : BitVec 16) (t : TagPoints) (s : State) : Result :=
  let x := s.die p.die
  let v := s.port p
  let m := v.dir dir
  let a := x.cfga p.key
  .next (if present s.part p.die && s.running && m.tagEn && m.fecLock && hasFec a && v.carrying && m.tagSeen < nth.toNat
      && m.tags nth.toNat then
    let b := tagBin (tagInterval t m.tagSeg) (tagBaseOf m.tagBase (pipeline a dir))
    let s := s.onDir p dir (fun m => { m with tagSeen := nth.toNat, hist := SMap.put 0 m.hist b (sat32 (SMap.get 0 m.hist b + 1)) })
    s.count p.die (cTele + 8)
  else s)

/-! ### Pegbox profiling (R417, R418) -/

/-- Time at which the next sample is due from time t on: every 2^m SYS cycles since profiling began (R417). -/
def Tele.nextSample (v : Tele) (t : Nat) : Nat :=
  let base := v.profFrom * 1280
  let t := max t (v.profLast + 1)
  base + (t - base + 2 ^ v.profM - 1) / 2 ^ v.profM * 2 ^ v.profM

/-- PROFILE_SAMPLE (R417, R418): every 2^m SYS cycles, in the cycle's own stroke and at the latest at its sc, the program counter is
written into the ring of 4,096 samples; not while the pegbox restarts or is halted. -/
def execProfileSample (d : DieId) (pc : Word) (s : State) : Result :=
  let x := s.die d
  let t := x.tele
  let at_ := t.nextSample (s.stroke d * 1280 + s.pos)
  let here := at_ - s.stroke d * 1280
  .next (if present s.part d && s.running && t.profRun && x.pegRuns && here < 1280 then
    let s := (s.advance here).onDie d (fun x => { x with tele := { x.tele with profLast := at_ } })
    let w := pc.toNat + 2 ^ 32 * (x.stroke.count % 2 ^ 27 + 2 ^ 27 * s.fret)
    let s := s.onDie d (fun x => { x with tele := { x.tele with
      profBuf := SMap.put 0 x.tele.profBuf t.profWp w, profWp := (t.profWp + 1) % 4096, profFull := t.profFull || t.profWp == 4095 } })
    if t.profFull then s.count d (cTele + 4) else s
  else s)

/-! ### TAG_CONFIG (R419) -/

/-- The fields of word 4 of each FUNC; every other bit is 0. -/
def tagFields : Nat → Nat
  | 0 => 0x00FF0FFF
  | 1 => 0x0000000F
  | _ => 0x000001F7

/-- TAG_CONFIG parameters are in range (R419). -/
def tagParamsOk (f w4 w5 : Nat) : Bool :=
  (w4 ||| tagFields f) == tagFields f
    && (match f with
      | 0 => decide (8 ≤ bits w4 8 4 ∧ bits w4 8 4 ≤ 24) && !(bit w4 2 && w5 == 0)
      | 1 => decide (0 < w5 ∧ w5 < 65536)
      | _ => decide (10 ≤ bits w4 8 4 ∧ bits w4 8 4 ≤ 24) && w5 == 0)

/-- The configuration is applied at the next boundary, which answers it (R419). -/
def State.tagLater (s : State) (k : Packet) : State := s.await k 0x0B02 (s.stroke k.die + 1) 0

/-- TAG_CONFIG of a port: FUNC 0 and 1. A packet with another FUNC is another row's; FUNC = 3 is BAD_PARAM. -/
def State.tagPort (s : State) (k : Packet) (f : Nat) (able : Half → Bool) : State :=
  if k.w 4 % 4 = 3 then s.command k 0x0B02 (fun s => s.refuse k 0x0B02 stBadParam)
  else if k.w 4 % 4 ≠ f then s
  else s.commandDefined k 0x0B02 (fun s p =>
    if !tagParamsOk f (k.w 4) (k.w 5) then s.refuse k 0x0B02 stBadParam
    else if !able ((s.die p.die).cfga p.key) then s.refuse k 0x0B02 stNotReady
    else s.tagLater k)

/-- TAG_TAGGING (R419 FUNC 0). -/
def execTagTagging (k : Packet) (s : State) : Result := .next (s.tagPort k 0 hasFec)

/-- TAG_METER (R419 FUNC 1). -/
def execTagMeter (k : Packet) (s : State) : Result := .next (s.tagPort k 1 hasMeter)

/-- TAG_PROFILING (R419 FUNC 2). -/
def execTagProfiling (k : Packet) (s : State) : Result :=
  .next (if k.w 4 % 4 = 3 then s.command k 0x0B02 (fun s => s.refuse k 0x0B02 stBadParam)
    else if k.w 4 % 4 ≠ 2 then s
    else s.command0 k 0x0B02 (fun s =>
      if tagParamsOk 2 (k.w 4) (k.w 5) then s.tagLater k else s.refuse k 0x0B02 stBadParam))

/-- A TAG_CONFIG takes effect at a boundary (R419). -/
def State.tagApply (s : State) (k : Packet) : State :=
  let w := k.w 4
  let en := bit w 2
  let dir : Side := if bit w 3 then .line else .host
  if w % 4 = 2 then s.onDie k.die (fun x => { x with tele := { x.tele with
    profRun := en, profM := bits w 8 4, profFrom := x.stroke.count, profLast := x.stroke.count * 1280 } })
  else match portOf s k k.target.toNat with
    | none => s
    | some p =>
      if w % 4 = 0 then s.onDir p dir (fun m => { m with
        tagEn := en, tagK := bits w 8 4, tagSeg := bits w 10 9, tagBase := bits w 23 16, tagLfsr := k.w 5,
        hist := if bit w 11 then [] else m.hist })
      else s.onDir p dir (fun m => m.meterSet en (k.w 5) (s.stroke p.die) (!s.dirLocked p dir))

end Sys2Proof.Machine
end

