-- ==== Sys2Proof/Machine/Flags.lean ====
section
/-! DEFINITION. Status words: the registers whose every field is status that the device keeps (R43, R70, R104, R154, R287,
R314, R316, R341, R356, R374, R395, R438, R492), computed from the state. Those of a chapter with its own file of meanings
stand there. -/

namespace Sys2Proof.Machine

/-! ### STROKE (R43) -/

/-- STROKE_POS of die d. -/
def State.posWord (s : State) (d : DieId) : Nat := s.ownTime d % 40 / 5 + 8 * (s.ownTime d % 1280 / 40)

/-- STROKE_ALIGN. -/
def StrokeBlk.alignWord (b : StrokeBlk) : Nat :=
  b.state + 4 * b2n b.gcHeld + 8 * b2n (b.mloss && b.state != 3) + 256 * unsigned 8 b.err

/-! ### Rotation and banks (R154) -/

/-- Four entries of a rotation map, 4 bits each, from entry i on. -/
def mapWord (m : List Nat) (i : Nat) : Nat :=
  let e := fun k => (m[i + k]?).getD 0
  e 0 + 16 * e 1 + 256 * e 2 + 4096 * e 3

/-- ROT_HSYMP and ROT_LSYMP. -/
def SideRot.sympWord (r : SideRot) : Nat :=
  r.symp + 16 * r.state + 64 * b2n r.tap + 128 * r.pos + 2048 * b2n r.mode + 4096 * b2n r.aligned + 8192 * r.owner

/-- The sympathetic slice as the register shows it: isolated for self-test it reads STATE 3 and OWNER 6 (R154, R423). -/
def Die.sympWord (x : Die) (c : Nat) (h : Side) : Nat :=
  let r := x.rot c h
  (if (x.sliceTest (x.sympSlice c h)).isSome then { r with state := 3, owner := 6 } else r).sympWord

/-- BANK_MAP0 and BANK_MAP1: 3 bits each. -/
def bankWord (m : List Nat) (i n : Nat) : Nat :=
  (List.range n).foldl (fun w k => w + ((m[i + k]?).getD 0) * 8 ^ k) 0

/-! ### Bridges (R287) -/

/-- BRG_ESTAT and BRG_WSTAT. -/
def State.bridgeWord (s : State) (d : DieId) (w : Ew) : Nat :=
  let v := (s.die d).bridge w
  v.up + 16 * v.state + 64 * (neighbour s.part d w).val + 512 * b2n v.hb

/-! ### DIE, WMB and CFGPROT (R314 to R316) -/

/-- DIE_ID. -/
def State.dieIdWord (s : State) (d : DieId) : Nat :=
  d.val + 8 * partCode s.part + 32 * b2n (isAccess s.part d) + 256 * Config.stepping.toNat

/-- DIE_ERR_HI. -/
def Prot.errHi (p : Prot) : Nat := bits p.errAddr 24 16 + 512 * p.errBus + 2048 * b2n p.errWr

/-- WMB_STAT. -/
def Wmb.stat (w : Wmb) : Nat := b2n w.valid + 2 * b2n w.err + 4 * b2n w.nostage + 8 * b2n w.wide

/-- CFG_CRC_STAT. -/
def Die.crcStat (x : Die) : Nat := b2n x.prot.mismatch + 2 * b2n x.prot.dirty + 4 * fld (x.act 0x5000) 0 0

/-- CFG_PAR_ADDR_HI. -/
def Prot.parHi (p : Prot) : Nat := bits p.parAddr 19 16 + 16 * b2n p.parStaged + 32 * b2n p.parUnrec

/-- The register of a row holds RWS fields and lies outside CFGPROT (R312). -/
def RegRow.covered (r : RegRow) : Bool := r.rws != 0 && !(0x5000 ≤ r.off && r.off < 0x6000)

/-- The row exists on access dies only (R341, R356, R374, R492). -/
def RegRow.accessOnly (r : RegRow) : Bool :=
  (0x6000 ≤ r.off && r.off < 0x6100) || (0x3000 ≤ r.off && r.off < 0x3080) || (0xA000 ≤ r.off && r.off < 0xA100)
    || (0xB000 ≤ r.off && r.off < 0xC000)

/-- CFG_CRC_NREG: the registers one pass covers (R312, R316): host slices have 48 FFE registers with fields, not 64. -/
def crcNreg (access : Bool) : Nat :=
  ((regRows.filter (fun r => r.covered && (access || !r.accessOnly))).map (fun r => r.na * r.nb)).sum - 72 * 16

/-! ### PEG and EVT (R341, R356) -/

/-- Records wait for CQ space (R321). -/
def Queue.stalled (q : Queue) : Bool :=
  q.waiting.any (fun r => if !q.later r && q.exec.any r.of then q.free == 0 else q.free ≤ q.exec.length)

/-- PEG_QSTAT. -/
def Queue.stat (q : Queue) : Nat := q.inExec + 32 * b2n q.stalled + 64 * b2n q.drain

/-- EVT_STAT. -/
def EvtBlk.stat (v : EvtBlk) : Nat := b2n v.int + 2 * b2n v.nmi + 4 * b2n (decide (v.free < 64))

/-! ### Two-wire (R374) -/

/-- TWI_TSTAT. -/
def Die.twiStat (x : Die) : Nat := x.twi.addr + 128 * b2n x.twi.wbuf.isSome + 256 * b2n x.alert

/-- TWI_MSTAT. -/
def Mc.stat (v : Mc) : Nat :=
  b2n v.scl + 2 * b2n v.sda + 4 * b2n v.active + 8 * b2n v.free + 16 * b2n (v.stuck && !(v.scl && v.sda)) + 32 * v.last

/-- One of the controller ports. -/
def Twi.port (t : Twi) (m : Nat) : Mc := (t.mc[m]?).getD {}

/-! ### BIST and NVS (R438, R492) -/

/-- BIST_STAT. -/
def Bist.stat (v : Bist) : Nat := min v.tests.length 63 + 64 * b2n (v.tests.any (fun t => t.paused)) + 128 * v.wp

/-- The bits of the courses whose slices, or capture halves, are retired (R429). -/
def Die.retiredWord (x : Die) : Nat :=
  let slice := fun c => ((sideSlices c .host) ++ (sideSlices c .line)).any (fun n => (x.slice n).retired)
  (courseList.filter slice).foldl (fun m c => m + 2 ^ c) 0
    + 256 * x.courseMask (fun v => v.capH.retired || v.capL.retired)

/-- NVS_STAT: 0 until BOOT, as reset leaves it (R10). -/
def State.nvsStat (s : State) (d : DieId) : Nat :=
  let v := (s.die d).nvs
  b2n (2 ≤ s.phase && s.nvMaster d == d) + 2 * b2n (!v.stale.isEmpty) + 4 * b2n v.resync + 8 * b2n v.busy

end Sys2Proof.Machine
end

