-- ==== Sys2Proof/Machine/Operands.lean ====
section
/-! DEFINITION. Reading: the value of every register of a die window (R299, R301), its wide value (R305), the observation
window (R402 to R407) and the memory window (R291, R319, R345, R385). A read has no side effect (R296). -/

namespace Sys2Proof.Machine

/-- The register at base-view offset o of die d; none is a reserved location (R306, R341, R356, R374, R492). -/
def State.register (s : State) (d : DieId) (o : Nat) : Option RegSel :=
  match lookup o with
  | none => none
  | some r => if r.row.accessOnly && !isAccess s.part d then none else some r

/-- The register is a doorbell of the queue that a bus does not serve: Q2 is the two-wire bus's, Q0 and Q1 are PCI Express's
(R319). -/
def RegSel.foreign (sel : RegSel) (twi : Bool) : Bool :=
  (sel.row.id == .pegSqTail || sel.row.id == .pegCqHead) && (twi != (sel.inst % 3 == 2))

/-- The register at base-view offset o of die d for an access from a bus: another bus's doorbell is a reserved location
(R306, R319). -/
def State.busRegister (s : State) (twi : Bool) (d : DieId) (o : Nat) : Option RegSel :=
  match s.register d o with
  | none => none
  | some sel => if sel.foreign twi then none else some sel

/-- The NV fields have been loaded: BOOT is over and found a readable mirror (R10, R443). -/
def State.nvLoaded (s : State) (d : DieId) : Bool := 2 ≤ s.phase && !(s.die d).nvs.unread

/-- The value of a register that holds no RWS field (R8, R301). -/
def State.readStatus (s : State) (d : DieId) (sel : RegSel) : Nat :=
  let x := s.die d
  let i := sel.inst
  let j := sel.rep
  match sel.row.id with
  | .strokeNow0 => s.ownTime d / 1280
  | .strokePos => s.posWord d
  | .strokeAlign => x.stroke.alignWord
  | .strokeLead => x.stroke.lead.val
  | .fretOvr0 => x.stroke.ovr
  | .fretOvr1 => x.stroke.ovr / 65536
  | .prsStat => b2n (x.course i).prsRaw + 2 * b2n (x.course i).present
  | .portState => (x.port (8 * i + j)).stateWord
  | .portLock => x.lockWord (8 * i + j)
  | .rxCtl => b2n (x.slice i).capoHost
  | .rxStat => x.rxStat i
  | .rxPin => x.rxPin i
  | .rxSnr => (x.slice i).snrNow
  | .rxSnrmin => (x.slice i).snrMin
  | .rxFreq => (x.slice i).freq.toNat
  | .rxH1 => (x.slice i).h1.toNat
  | .rxH2 => (x.slice i).h2.toNat
  | .rxAdctrim => if i < 72 && 64 ≤ j then 0 else (x.trim i j).toNat
  | .txStat => x.txStat i
  | .txFreq => (x.txFreq i).toNat
  | .rotHmap0 => mapWord (x.course i).host.map 0
  | .rotHmap1 => mapWord (x.course i).host.map 4
  | .rotLmap0 => mapWord (x.course i).line.map 0
  | .rotLmap1 => mapWord (x.course i).line.map 4
  | .rotLmap2 => mapWord (x.course i).line.map 8
  | .rotGen => (x.course i).host.gen + 256 * (x.course i).line.gen
  | .rotHsymp => x.sympWord i .host
  | .rotLsymp => x.sympWord i .line
  | .rotHalign => unsigned 16 (x.course i).host.d
  | .rotLalign => unsigned 16 (x.course i).line.d
  | .bankStat => (x.course i).banks.stat
  | .bankMap0 => bankWord (x.course i).banks.map 0 4
  | .bankMap1 => bankWord (x.course i).banks.map 4 2
  | .trnSeg => (x.port (8 * i + j)).trnSeg
  | .trnHlane => x.trnHlane (8 * i + j)
  | .trnLlane => x.trnLlane (8 * i + j)
  | .dpStat => (x.port (8 * i + j)).dpStat
  | .dpBlock => (x.port (8 * i + j)).dpBlock
  | .dpLat => x.dpLat (8 * i + j)
  | .dpSkew => (x.port (8 * i + j)).dpSkew
  | .latStat => (x.course i).lat.stat
  | .latSkew => (x.course i).lat.skew
  | .latAgree => (x.course i).lat.agree / 1024
  | .latOfs => x.latWait i j
  | .gbxLane => x.gbxWord i j
  | .clkStat => x.clk.stat
  | .clkLpll => x.lpll
  | .clkRefdiff => x.clk.diff.toNat
  | .clkRefsp => x.clk.refSp.toNat
  | .clkGatestat => x.gateStat
  | .brgEstat => s.bridgeWord d .east
  | .brgWstat => s.bridgeWord d .west
  | .brgRing => x.brg.reach + 256 * x.brg.isol
  | .brgRoute => x.brg.route
  | .brgHoplatE => x.brg.east.lat.toNat
  | .brgHoplatW => x.brg.west.lat.toNat
  | .dieId => s.dieIdWord d
  | .dieCommit => x.prot.commit.toNat
  | .dieStagePending => x.pend
  | .dieLastcommit => x.stroke.lastCommit
  | .dieErrLo => x.prot.errAddr
  | .dieErrHi => x.prot.errHi
  | .wmbSelx => ((x.prot.wmb[i]?).getD {}).selx
  | .wmbSel => ((x.prot.wmb[i]?).getD {}).sel
  | .wmbStat => ((x.prot.wmb[i]?).getD {}).stat
  | .wmbD0 => ((x.prot.wmb[i]?).getD {}).data
  | .wmbD1 => ((x.prot.wmb[i]?).getD {}).data / 2 ^ 16
  | .wmbD2 => ((x.prot.wmb[i]?).getD {}).data / 2 ^ 32
  | .wmbD3 => ((x.prot.wmb[i]?).getD {}).data / 2 ^ 48
  | .cfgCrcLastLo => x.prot.crcLast
  | .cfgCrcLastHi => x.prot.crcLast / 65536
  | .cfgCrcStat => x.crcStat
  | .cfgCrcNreg => crcNreg (isAccess s.part d)
  | .cfgParAddrLo => x.prot.parAddr
  | .cfgParAddrHi => x.prot.parHi
  | .pegSqTail => (x.queue ⟨i % 3, Nat.mod_lt _ (by decide)⟩).sqTail
  | .pegSqHead => (x.queue ⟨i % 3, Nat.mod_lt _ (by decide)⟩).sqHead
  | .pegCqHead => (x.queue ⟨i % 3, Nat.mod_lt _ (by decide)⟩).cqHead
  | .pegCqTail => let q := x.queue ⟨i % 3, Nat.mod_lt _ (by decide)⟩; q.cqTail + 64 * b2n q.phase
  | .pegQstat => (x.queue ⟨i % 3, Nat.mod_lt _ (by decide)⟩).stat
  | .pegStat => x.peg.stat
  | .pegFwverA => x.peg.verA.toNat
  | .pegFwverS => x.peg.verS.toNat
  | .evtWp => x.evt.wp + 4096 * b2n x.evt.phase
  | .evtRp => x.evt.rp
  | .evtStat => x.evt.stat
  | .evtLocal => x.evt.local_.length
  | .twiTstat => x.twiStat
  | .twiMstat => (x.twi.port i).stat
  | .hkStat => x.hk.stat
  | .hkWp => x.hk.wp
  | .hkRp => x.hk.rp
  | .hkTstat => x.hk.above + 256 * b2n x.hk.trip
  | .hkLast => SMap.get 0 x.hk.last j
  | .pwmStat => s.pwmStat d
  | .bistStat => x.bist.stat
  | .bistFuse => if s.nvLoaded d then x.bist.fuses else 0
  | .bistRetired => x.retiredWord
  | .nvsStat => s.nvsStat d
  | .nvsWear => if s.nvLoaded d then SMap.get 0 x.nvs.wear j else 0
  | _ => 0

/-- A base-view read of a register: its active value for RWS fields, the status otherwise (R301). DIE_COMMIT reads 0. -/
def State.readReg (s : State) (d : DieId) (sel : RegSel) : Half :=
  if sel.row.rws ≠ 0 then (s.die d).act sel.offset else BitVec.ofNat 16 (s.readStatus d sel)

/-- The wide value of a register, when its map defines one (R29, R305, R314, R316, R341, R492). -/
def State.wideReg (s : State) (d : DieId) (sel : RegSel) : Option Nat :=
  let x := s.die d
  match sel.row.id with
  | .strokeNow0 => some (s.stamp d % 2 ^ 64)
  | .dieLastcommit => some (x.stroke.lastCommit % 2 ^ 56)
  | .cfgCrcLastLo => some x.prot.crcLast
  | .pegFwverA => some x.peg.verA.toNat
  | .pegFwverS => some x.peg.verS.toNat
  | .nvsWear => some (if s.nvLoaded d then SMap.get 0 x.nvs.wear sel.rep % 2 ^ 30 else 0)
  | _ => none

/-! ### The observation window (R402, R405, R407, R416, R418) -/

/-- One DW of a die's snapshot buffer, at offset o from its base (R407). -/
def Tele.snapWord (t : Tele) (o : Nat) : Nat :=
  if o = 0 then t.snapStroke % 4294967296
  else if o = 4 then bits t.snapStroke 55 32 + 2 ^ 24 * b2n t.snapValid + 2 ^ 25 * b2n t.snapLow
  else if o = 8 then t.snapFirst
  else if o = 12 then t.snapCount
  else SMap.get 0 t.snapVals (o - 16)

/-- One DW of die d's observation window; an offset that no table defines reads 0 (R405). -/
def Die.obsRead (x : Die) (o : Nat) : Word :=
  BitVec.ofNat 32 (
    if o < 0xD000 then SMap.get 0 x.tele.live o
    else if o < 0x10000 then x.tele.snapWord (o - 0xD000)
    else if o < 0x18000 then
      let n := (o - 0x10000) / 0x200
      SMap.get 0 ((x.port n).dir (if o % 0x200 < 0x100 then .host else .line)).hist (o % 0x100 / 4)
    else
      let v := SMap.get 0 x.tele.profBuf ((o - 0x18000) / 8)
      if o % 8 = 0 then v else v / 2 ^ 32)

/-! ### The memory window (R291, R319, R345, R385) -/

/-- The die whose housekeeping result buffer lies at BAR4 offset a, if one does (R385). -/
def State.hkWindow (s : State) (a : Nat) : Option DieId :=
  if 0x40000 ≤ a ∧ a < 0xC0000 then
    let d : DieId := ⟨(a - 0x40000) / 0x10000 % 8, Nat.mod_lt _ (by decide)⟩
    if present s.part d then some d else none
  else none

/-- BAR4 offset a lies in the slots of a queue that a bus does not serve (R319). -/
def foreignSlot (twi : Bool) (a : Nat) : Bool :=
  0x10000 ≤ a && a < 0x28000 && (twi != decide (0x20000 ≤ a))

/-- One DW of the memory window of access die d, its own SRAM (the place of each region in it is log entry 10). A BAR4 offset that no
chapter assigns reads the bytes last written there (DESIGN CHOICE, log entry 10). -/
def Die.memRead (x : Die) (a : Nat) : Word :=
  if 0x1000 ≤ a && a < 0x1004 then BitVec.ofNat 32 x.evt.pend
  else if a < 0x200 && a % 16 = 12 then BitVec.ofNat 32 (b2n (bit x.evt.mask (a / 16)))
  else BitVec.ofNat 32 (Memory.readLE x.sram a 4)

end Sys2Proof.Machine
end

