-- ==== Sys2Proof/Machine/RegAccess.lean ====
section
/-! DEFINITION. Register access (R290 to R318): writes through the views, the wide-value mailbox, reserved locations,
cross-die accesses, the PCI Express endpoints, and configuration protection. -/

namespace Sys2Proof.Machine

/-! ### Endpoints and errors (R294, R306, R308) -/

/-- One of the two endpoints. -/
def State.ep (s : State) (e : AccessId) : Endpoint := if e = 0 then s.ep0 else s.ep1
def State.setEp (s : State) (e : AccessId) (v : Endpoint) : State := if e = 0 then { s with ep0 := v } else { s with ep1 := v }

/-- The endpoint of an access die. -/
def epOf (d : DieId) : AccessId := if d = 0 then 0 else 1

/-- The number of a bus in DIE_ERR_HI.BUS and the events (R314, R318). -/
def busCode : Bus → Nat
  | .pcie => 0
  | .twoWire => 1
  | .bridge => 2

/-- A Completer Abort on PCI Express (R294): the status is logged as an advisory non-fatal error with the request's header, that of the
first error until software clears it, and a read completes with the abort. -/
def State.abort (s : State) (e : AccessId) (write : Bool) (t : Tlp) : State :=
  let v := s.ep e
  s.setEp e { v with
    caStatus := true, advisory := true, header := some (v.header.getD t),
    rdata := if write then v.rdata else some (true, []) }

/-- The two-wire frame that made an access on access die d ends with this outcome (R297). -/
def State.twiOutcome (s : State) (d : DieId) (write : Bool) (outcome : Nat) (data : Word) : State :=
  s.onDie d (fun x =>
    if write then { x with twi := { x.twi with wres := outcome } }
    else { x with twi := { x.twi with st := outcome + 16 * x.twi.wres, d := data, wres := 5, read := none, ready := true } })

/-- ACCESS_ERROR (R318). -/
def State.accessError (s : State) (d : DieId) (off bus : Nat) (write : Bool) (space : Nat) : State :=
  s.post d 445 0x01 (off % 2 ^ 25 + 2 ^ 25 * bus + 2 ^ 27 * b2n write + 2 ^ 28 * space)

/-- An access to a reserved location reaches die d (R306): it is recorded and counted, and ACCESS_ERROR is posted. -/
def State.reserved (s : State) (d : DieId) (bus : Bus) (off : Nat) (write : Bool) (space : Nat) : State :=
  let s := s.onDie d (fun x =>
    ({ x with prot := { x.prot with errAddr := off % 2 ^ 25, errBus := busCode bus, errWr := write } }).count cProt)
  s.accessError d off (busCode bus) write space

/-- A request of one DW. -/
def oneDw (win : Window) (off : Nat) (write : Option Word) : Tlp :=
  (win, BitVec.ofNat 25 off, match write with | some w => Request.put w | none => Request.get)

/-- What the bus itself returns for an access it cannot carry out (R294, R297). -/
def State.busFails (s : State) (e : AccessId) (bus : Bus) (write : Bool) (t : Tlp) : State :=
  match bus with
  | .pcie => s.abort e write t
  | .twoWire => s.twiOutcome (accessDie s.part e) write 1 0
  | .bridge => s

/-! ### Writes through the views (R300 to R305) -/

/-- R of R300: the value written over V through a view by the DW w. -/
def viewWrite (view : Nat) (v : Half) (w : Word) : Half :=
  let data := w.setWidth 16
  let mask := (w >>> 16).setWidth 16
  if view = 0 then mergeMask v data mask else if view = 1 then v ||| data else if view = 2 then v &&& ~~~data else v ^^^ data

/-- The bits a write selects (R303). -/
def viewSelects (view : Nat) (w : Word) : Half := if view = 0 then (w >>> 16).setWidth 16 else w.setWidth 16

/-- What WMB instance m of die d reads when WMB_SEL is written with the address bits [15:0] (R305). -/
def State.mailbox (s : State) (d : DieId) (w : Wmb) (low : Nat) : Wmb :=
  let x := s.die d
  let o := (w.selx % 16) * 65536 + low
  let base : Wmb := { w with sel := low, valid := true, err := false, nostage := false, wide := false, data := 0 }
  match s.register d o with
  | none => { base with err := true }
  | some sel =>
    let plain := fun (no : Bool) => match s.wideReg d sel with
      | some v => { base with nostage := no, wide := true, data := v }
      | none => { base with nostage := no, data := (s.readReg d sel).toNat }
    if bit w.selx 4 then match x.stg o with
      | some v => { base with data := v.toNat }
      | none => plain true
    else plain false

/-- A write of WMB_SEL (R305). -/
def State.wmbSelect (s : State) (d : DieId) (m low : Nat) : State :=
  let w := s.mailbox d (((s.die d).prot.wmb[m]?).getD {}) low
  s.onDie d (fun x => { x with prot := { x.prot with wmb := x.prot.wmb.setIfInBounds m w } })

/-- A write of DIE_COMMIT (R304): H, GLOBAL and DISCARD keep what was written (R301, R314). -/
def State.commitWrite (s : State) (d : DieId) (r : Half) : State :=
  let s := s.onDie d (fun x => { x with prot := { x.prot with commit := r &&& 0x700 } })
  let mask := groupMask (fld r 8 8 == 1) (fld r 7 0)
  if fld r 10 10 = 1 then s.discard d mask else if fld r 9 9 = 1 then s.globalStrobe d mask else s.localStrobe d mask

/-- A write to a register with RWI fields acts at once, on the value r it gives them (R300, R301). -/
def State.writeNow (s : State) (d : DieId) (sel : RegSel) (r : Half) : State :=
  let q : QueueId := ⟨sel.inst % 3, Nat.mod_lt _ (by decide)⟩
  match sel.row.id with
  | .dieCommit => s.commitWrite d r
  | .wmbSelx => s.onDie d (fun x =>
      { x with prot := { x.prot with wmb := x.prot.wmb.setIfInBounds sel.inst { ((x.prot.wmb[sel.inst]?).getD {}) with selx := r.toNat } } })
  | .wmbSel => s.wmbSelect d sel.inst r.toNat
  | .evtRp => s.evtRp d r.toNat
  | .pegSqTail => s.sqTail d q r.toNat
  | .pegCqHead => s.cqHead d q r.toNat
  | .hkRp => s.hkRp d r.toNat
  | .rxCtl => s.capoHost d sel.inst (bit r.toNat 0)
  | _ => s

/-- A write of the DW w to the register sel of die d through a view (R300, R301, R303): it reaches the RWS and the RWI bits
only; on RO, RLV and RCN bits it does nothing and raises no error (R9). -/
def State.writeReg (s : State) (d : DieId) (sel : RegSel) (view : Nat) (w : Word) : State :=
  let o := sel.offset
  if sel.rws ≠ 0 then
    if viewSelects view w &&& sel.rws = 0 then s
    else s.onDie d (fun x => x.stage o (viewWrite view (x.base o) w))
  else if sel.row.rwi ≠ 0 then
    s.writeNow d sel (viewWrite view (BitVec.ofNat 16 (s.readStatus d sel)) w &&& sel.row.rwi)
  else s

/-! ### Accesses from a bus (R291, R292, R296, R299, R308) -/

/-- The part's PCI Express Device ID (R290). -/
def deviceId : Part → Nat
  | .q128 => 0x0128
  | .q256 => 0x0256
  | .q512 => 0x0512

/-- The read-only identity of the type 0 configuration header, the same on both endpoints of a part (R290): Vendor ID,
Device ID, Revision ID (DIE_ID.STEP), Subsystem Vendor ID, Subsystem ID, class code. -/
def pciHeader (p : Part) : List Nat :=
  [0x1F5A, deviceId p, Config.stepping.toNat, 0x1F5A, deviceId p, 0x028000]

/-- The capabilities of an endpoint by their PCI-SIG numbers (R290): Power Management, PCI Express, MSI-X; extended: AER, device serial
number. The numbers are PRESUMED (log entry 61). -/
def pciCaps : List Nat := [0x01, 0x10, 0x11]
def pciExtCaps : List Nat := [0x0001, 0x0003]

/-- The sizes of the three windows (R291), by the first of the two registers of their BAR. -/
def barSize (n : Nat) : Nat := if n = 0 then 0x2000000 else 0x100000

/-- The bits of base address register n that software writes: those of the base above the size, and the upper half of a 64-bit base
(R291). -/
def barMask (n : Nat) : Word := if n % 2 = 1 then 0xFFFFFFFF else BitVec.ofNat 32 (2 ^ 32 - barSize n)

/-- The type bits of base address register n: 64-bit memory, BAR2 prefetchable (R291). -/
def barType (n : Nat) : Word := if n % 2 = 1 then 0 else if n = 2 then 0xC else 0x4

/-- Base address register n as it reads, and the base assigned to the window of BAR n (R291). -/
def Endpoint.barRead (v : Endpoint) (n : Nat) : Word := (v.bars[n]?).getD 0 ||| barType n
def Endpoint.base (v : Endpoint) (n : Nat) : Nat := ((v.bars[n]?).getD 0).toNat + ((v.bars[n + 1]?).getD 0).toNat * 2 ^ 32

/-- The AER status of an endpoint as its registers hold it: Completer Abort, Unsupported Request, Poisoned TLP Received, advisory
non-fatal, in that order from bit 0 (the bit places are PRESUMED, log entry 61). -/
def Endpoint.aer (v : Endpoint) : Nat := b2n v.caStatus + 2 * b2n v.unsup + 4 * b2n v.poison + 8 * b2n v.advisory

/-- A read of the configuration space of endpoint e (R290, R291, R293, R294); both endpoints report one package serial number (R12). -/
def State.configRead (s : State) (e : AccessId) (r : ConfigReg) : Word :=
  let v := s.ep e
  match r with
  | .header n => BitVec.ofNat 32 ((pciHeader s.part)[n.val]?.getD 0)
  | .bar n => v.barRead n.val
  | .power => if v.d3 then 3 else 0
  | .msix => BitVec.ofNat 32 (31 * 2 ^ 16 + 2 ^ 30 * b2n (s.die (accessDie s.part e)).evt.fmask + 2 ^ 31)
  | .aer => BitVec.ofNat 32 v.aer
  | .serial => Config.serial.setWidth 32

/-- The die whose window holds a BAR0 offset, the view and the base-view offset (R299). -/
def windowDie (off : Nat) : DieId := ⟨off / 0x400000 % 8, Nat.mod_lt _ (by decide)⟩
def windowView (off : Nat) : Nat := off / 0x100000 % 4
def windowOff (off : Nat) : Nat := off % 0x100000

/-- Start a cross-die access of access die a (R273, R308). Views 4 and 5 of the request are the observation window and the
housekeeping buffer (log entry 12). -/
def State.crossDie (s : State) (a d : DieId) (o view : Nat) (write : Bool) (w : Word) (twi : Bool) : State :=
  s.sendTo a d (.regReq o view write w twi) true

/-- An access over PCI Express is under way across the bridges: the endpoint stalls (R308). -/
def State.stall (s : State) (e : AccessId) : State := s.setEp e { s.ep e with crossings := (s.ep e).crossings + 1 }

/-- A write to a register of the part by access die of endpoint e, over a bus (R299, R306, R308). -/
def State.busWriteReg (s : State) (e : AccessId) (bus : Bus) (off : Nat) (w : Word) : State :=
  let a := accessDie s.part e
  let d := windowDie off
  let o := windowOff off
  let bad := (s.reserved a bus off true 0).busFails e bus true (oneDw .regs off (some w))
  if !present s.part d then bad
  else if d = a then
    match s.busRegister (bus == .twoWire) d o with
    | none => bad
    | some sel =>
      let s := s.writeReg d sel (windowView off) w
      if bus = .twoWire then s.twiOutcome a true 0 0 else s
  else (if bus = .pcie then s.stall e else s).crossDie a d o (windowView off) true w (bus == .twoWire)

/-- The queue and slot of an SQ whose bytes lie at BAR4 offset a (R319). -/
def sqSlotAt (a : Nat) : Option (QueueId × Nat) :=
  if 0x10000 ≤ a ∧ a < 0x28000 ∧ (a - 0x10000) % 0x8000 < 0x4000 then
    some (⟨(a - 0x10000) / 0x8000 % 3, Nat.mod_lt _ (by decide)⟩, (a - 0x10000) % 0x8000 / 0x100)
  else none

/-- A vector may send its pending message (R293). -/
def Die.unmask (x : Die) (mask : Nat) : Die :=
  let x := { x with evt := { x.evt with mask := mask } }
  let go := if x.evt.fmask then [] else (List.range 32).filter (fun v => bit x.evt.pend v && !bit mask v)
  go.foldl (fun x v =>
    let ev := bit x.evt.pendEv v
    let x := { x with evt := { x.evt with pend := x.evt.pend ^^^ 2 ^ v, pendEv := if ev then x.evt.pendEv ^^^ 2 ^ v else x.evt.pendEv } }
    x.msix v ev) x

/-- Bit v of a mask set to b. -/
def withBit (m v : Nat) (b : Bool) : Nat := if bit m v == b then m else m ^^^ 2 ^ v

/-- A write of one DW to the memory window of access die d (R291, R293, R319, R320): a locked SQ slot keeps its contents. -/
def State.memWrite (s : State) (d : DieId) (a : Nat) (w : Word) : State :=
  if a < 0x200 && a % 16 = 12 then s.onDie d (fun x => x.unmask (withBit x.evt.mask (a / 16) (bit w.toNat 0)))
  else if 0x1000 ≤ a && a < 0x1004 then s
  else match sqSlotAt a with
    | some (q, slot) =>
      if ((s.die d).queue q).locked slot then s.queueError d q 2 slot
      else s.onDie d (fun x => { x with sram := Memory.writeLE x.sram a 4 w.toNat })
    | none => s.onDie d (fun x => { x with sram := Memory.writeLE x.sram a 4 w.toNat })

/-- A write of one DW from a bus (R291, R292, R296, R319): BAR2, the housekeeping buffers (R385) and the slots of the other
bus's queues accept no write. -/
def State.busWrite (s : State) (e : AccessId) (bus : Bus) (win : Window) (off : Nat) (w : Word) : State :=
  let a := accessDie s.part e
  match win with
  | .regs => s.busWriteReg e bus off w
  | .obs => (s.reserved a bus off true (if bus = .twoWire then 1 else 0)).busFails e bus true (oneDw .obs off (some w))
  | .mem =>
    let m := off % 0x100000 / 4 * 4
    if (s.hkWindow m).isSome || (bus == .twoWire && m < 0x10000) || foreignSlot (bus == .twoWire) m then
      (s.reserved a bus off true (if bus = .twoWire then 2 else 0)).busFails e bus true (oneDw .mem off (some w))
    else
      let s := s.memWrite a m w
      if bus = .twoWire then s.twiOutcome a true 0 0 else s
  | .config _ => s

/-! #### PCI Express requests (R290 to R294, R308) -/

/-- The byte enables of DW i of n. -/
def beOf (first last : BitVec 4) (n i : Nat) : BitVec 4 := if i = 0 then first else if i + 1 = n then last else 15

/-- The byte enables of a request of n DW are contiguous (R292). -/
def beOk (n : Nat) (first last : BitVec 4) : Bool :=
  if n = 1 then [1, 2, 4, 8, 3, 6, 12, 7, 14, 15].contains first && last == 0
  else [15, 14, 12, 8].contains first && [15, 7, 3, 1].contains last

/-- The bytes of w that are enabled, over those of v. -/
def byEnables (v w : Word) (be : BitVec 4) : Word :=
  let m := (List.range 4).foldl (fun m i => if be.getLsbD i then m + 255 * 256 ^ i else m) 0
  let k : Word := BitVec.ofNat 32 m
  (v &&& ~~~k) ||| (w &&& k)

/-- A request to a reserved location, or of an unsupported form, over PCI Express (R292, R294, R306). -/
def State.unsupported (s : State) (e : AccessId) (t : Tlp) : State :=
  let write := match t.2.2 with | .write _ _ _ => true | .read _ _ _ => false
  (s.reserved (accessDie s.part e) .pcie t.2.1.toNat write 0).abort e write t

/-- The next DW of a read has come (R308). -/
def State.readDw (s : State) (e : AccessId) (v : Word) : State :=
  let p := s.ep e
  match p.rdata with
  | some (true, _) => s
  | r => s.setEp e { p with rdata := some (false, (match r with | some (_, l) => l | none => []) ++ [v]) }

/-- A read completion begins. -/
def State.readStart (s : State) (e : AccessId) : State := s.setEp e { s.ep e with rdata := some (false, []) }

/-- A read of one DW of BAR0 (R292, R299, R306, R308). -/
def State.busReadReg (s : State) (e : AccessId) (off : Nat) : State :=
  let a := accessDie s.part e
  let d := windowDie off
  let bad := s.unsupported e (oneDw .regs off none)
  if !present s.part d then bad
  else if d = a then
    match s.busRegister false d (windowOff off) with
    | none => bad
    | some sel => (s.readStart e).readDw e ((s.readReg d sel).setWidth 32)
  else ((s.readStart e).stall e).crossDie a d (windowOff off) (windowView off) false 0 false

/-- A read of n DW of the observation window of one die, from offset off (R292, R403, R407). -/
def State.busReadObs (s : State) (e : AccessId) (off n : Nat) : State :=
  let a := accessDie s.part e
  let d : DieId := ⟨off / 0x20000 % 8, Nat.mod_lt _ (by decide)⟩
  (List.range n).foldl (fun s i =>
    let o := off % 0x20000 + 4 * i
    if d = a then s.readDw e ((s.die d).obsRead o) else (s.stall e).crossDie a d o 4 false 0 false) (s.readStart e)

/-- A read of n DW of the memory window, from offset m (R291, R319, R385). -/
def State.busReadMem (s : State) (e : AccessId) (m n : Nat) : State :=
  let a := accessDie s.part e
  (List.range n).foldl (fun s i =>
    let m := m + 4 * i
    match s.hkWindow m with
    | none => s.readDw e ((s.die a).memRead m)
    | some d =>
      if d = a then s.readDw e (BitVec.ofNat 32 (Memory.readLE (s.die d).sram (hkBase + m % 0x10000) 4))
      else (s.stall e).crossDie a d (m % 0x10000) 5 false 0 false) (s.readStart e)

/-- A write to the configuration space of endpoint e (R290, R291, R293, R294). -/
def State.configWrite (s : State) (e : AccessId) (r : ConfigReg) (w : Word) : State :=
  let v := s.ep e
  match r with
  | .bar n => s.setEp e { v with bars := v.bars.set n (w &&& barMask n.val) }
  | .power => if w.toNat % 4 = 0 then s.setEp e { v with d3 := false } else if w.toNat % 4 = 3 then s.setEp e { v with d3 := true } else s
  | .msix => s.onDie (accessDie s.part e) (fun x =>
      let x := { x with evt := { x.evt with fmask := bit w.toNat 30 } }
      x.unmask x.evt.mask)
  | .aer =>
    let n := v.aer &&& (15 ^^^ w.toNat % 16)
    s.setEp e { v with
      caStatus := bit n 0, unsup := bit n 1, poison := bit n 2, advisory := bit n 3, header := if n = 0 then none else v.header }
  | _ => s

/-- A request at endpoint e is served (R291 to R294, R308). In D3hot a memory request is not supported (PRESUMED, log entry 61). -/
def State.request (s : State) (e : AccessId) (t : Tlp) : State :=
  let off := t.2.1.toNat
  let a := accessDie s.part e
  match t.1, t.2.2 with
  | .config r, .write (w :: _) _ _ => s.configWrite e r w
  | .config r, .read _ _ _ => (s.readStart e).readDw e (s.configRead e r)
  | .config _, _ => s
  | win, r =>
    if (s.ep e).d3 then
      let write := match r with | .write _ _ _ => true | .read _ _ _ => false
      let v := s.ep e
      s.setEp e { v with unsup := true, advisory := true, header := some (v.header.getD t), rdata := if write then v.rdata else some (true, []) }
    else match win, r with
    | .regs, .write [w] f l => if off % 4 = 0 && f == 15 && l == 0 then s.busWrite e .pcie .regs off w else s.unsupported e t
    | .regs, .read n f l => if off % 4 = 0 && n == 1 && f == 15 && l == 0 then s.busReadReg e off else s.unsupported e t
    | .obs, .read n f l =>
      if fld ((s.die a).act oDieCfg) 0 0 = 1 && off % 4 = 0 && 1 ≤ n.toNat && n.toNat ≤ 32 && beOk n.toNat f l
        then s.busReadObs e (off % 0x100000) n.toNat else s.unsupported e t
    | .mem, .read n _ _ => if foreignSlot false (off % 0x100000) then s.unsupported e t else s.busReadMem e (off % 0x100000 / 4 * 4) n.toNat
    | .mem, .write l f la =>
      (List.range l.length).foldl (fun s i =>
        let be := beOf f la l.length i
        let m := off % 0x100000 / 4 * 4 + 4 * i
        if be = 0 then s else s.busWrite e .pcie .mem m (byEnables ((s.die a).memRead m) ((l[i]?).getD 0) be)) s
    | _, _ => s.unsupported e t

/-- The requests that wait at endpoint e are served in order, until one crosses the bridges (R308). -/
def State.serve (s : State) (e : AccessId) : List Tlp → State
  | [] => s.setEp e { s.ep e with waiting := [] }
  | t :: l =>
    let u := s.request e t
    if (u.ep e).crossings = 0 then u.serve e l else u.setEp e { u.ep e with waiting := l }

/-- The crossings of endpoint e's access may be over: what waits behind it goes on (R308). -/
def State.unstall (s : State) (e : AccessId) : State :=
  if s.running && (s.ep e).crossings = 0 && !(s.ep e).waiting.isEmpty then s.serve e (s.ep e).waiting else s

/-- REGISTER_WRITE (R290 to R294, R300, R308): an access over a bus: a write, or over PCI Express a read, which has no row of its own (log
entry 102). A request behind an access that crosses the bridges waits for it, and one that comes in Standby for SYS (R473). A write from
another die is REG_REQ's. -/
def execRegisterWrite (e : AccessId) (b : Bus) (win : Window) (addr : BitVec 25) (r : Request) (s : State) : Result :=
  let v := s.ep e
  .next (match b with
    | .bridge => s
    | .twoWire => (match r with | .write [w] _ _ => if s.running then s.busWrite e .twoWire win addr.toNat w else s | _ => s)
    | .pcie =>
      if s.phase = 3 || (s.running && v.crossings ≠ 0) then s.setEp e { v with waiting := v.waiting ++ [(win, addr, r)] }
      else if s.running then s.request e (win, addr, r)
      else s)

/-- WMB_SEL (R305): a write of WMB_SEL of instance m of die d. -/
def execWmbSel (d : DieId) (m : Fin 4) (addr : Half) (s : State) : Result :=
  .next (if present s.part d && s.running then s.wmbSelect d m.val addr.toNat else s)

/-- RESERVED_ACCESS (R306): an access to a reserved location, or a request of an unsupported form, is refused on its bus and
recorded; one that crossed a bridge is recorded at the die it names. -/
def execReservedAccess (e : AccessId) (b : Bus) (off : BitVec 25) (write : Bool) (space : Fin 8) (s : State) : Result :=
  let a := accessDie s.part e
  let at_ := if b = .bridge && present s.part (windowDie off.toNat) then windowDie off.toNat else a
  .next (if s.running then
    (s.reserved at_ b off.toNat write (if b = .twoWire then space.val else 0)).busFails e b write
      (oneDw .regs off.toNat (if write then some 0 else none))
  else s)

/-- A read that reached die d by a request: the register, the observation window, or the housekeeping buffer. -/
def State.readView (s : State) (twi : Bool) (d : DieId) (o view : Nat) : Option Word :=
  if view = 4 then some ((s.die d).obsRead (o / 4 * 4))
  else if view = 5 then some (BitVec.ofNat 32 (Memory.readLE (s.die d).sram (hkBase + o % 0x10000 / 4 * 4) 4))
  else (s.busRegister twi d o).map (fun sel => (s.readReg d sel).setWidth 32)

/-- REG_REQ (R273, R302): the access is executed in TAG order at its die and answered; a reserved location is recorded there
with BUS = 2 (R306, R314). -/
def execRegReq (d : DieId) (src : DieId) (tag : BitVec 16) (s : State) : Result :=
  .next (match s.arriving d src tag.toNat 0x1 with
    | none => s
    | some p => match p.body with
      | .regReq o view write w twi =>
        s.ordered d p true (fun s =>
          let off := d.val * 0x400000 + (view % 4) * 0x100000 + o
          let bad := (s.reserved d .bridge off write 0, some (Body.regRsp 0 1 tag.toNat))
          if write then match s.busRegister twi d o with
            | some sel => (s.writeReg d sel view w, some (Body.regRsp 0 0 tag.toNat))
            | none => bad
          else match s.readView twi d o view with
            | some v => (s, some (Body.regRsp v 0 tag.toNat))
            | none => bad)
      | _ => s)

/-- A cross-die access of access die d ends with this status (R294, R297, R308): 0 done, 1 reserved location, 2 die
unavailable. A two-wire read that the target has given up on discards its result (R298, R363): the read in progress knows its request by
the TAG. -/
def State.crossEnd (s : State) (d dst : DieId) (body : Body) (tag status : Nat) (value : Word) : State :=
  match body with
  | .regReq o view write w twi =>
    let off := dst.val * 0x400000 + (view % 4) * 0x100000 + o
    let s := if status = 0 then s else if twi && status = 2 then s else s.accessError d off (b2n twi) write 0
    if twi then
      (if write || ((s.die d).twi.read.map (·.2)) == some tag then
        (s.twiOutcome d write status value).onDie d (fun x => { x with twi := if write then { x.twi with wbuf := none } else x.twi })
      else s)
    else
      let e := epOf d
      if (s.ep e).crossings = 0 then s else
      let s := if status ≠ 0 then s.abort e write (oneDw .regs off (if write then some w else none)) else if write then s else s.readDw e value
      (s.setEp e { s.ep e with crossings := (s.ep e).crossings - 1 }).unstall e
  | _ => s

/-- REG_RSP (R273, R308): the response completes the bus access and is acknowledged. -/
def execRegRsp (d : DieId) (src : DieId) (tag : BitVec 16) (s : State) : Result :=
  .next (match s.arriving d src tag.toNat 0x2 with
    | none => s
    | some p => match p.body with
      | .regRsp v st t => s.routed d p false (fun s =>
          match (s.die d).brg.sent.find? (fun r => r.dst == src && r.tag == t) with
          | none => (s, some (.ack tag.toNat))
          | some r => ((s.onDie d (fun x => x.answered src t)).crossEnd d src r.body t st v, some (.ack tag.toNat)))
      | _ => s)

/-- A command is given up: what its die may still answer is no record of it any more (R275, R325). -/
def State.giveUp (s : State) (d : DieId) (k : Packet) : State :=
  let q := (s.die d).queue k.queue
  s.setQueue d k.queue { q with gone := (k.tag, k.entry) :: q.gone }

/-- An EVT_FWD is unanswered for 16 strokes. Its records are kept until its access die has acknowledged them (R346): where that is
reachable the packet goes again, and the strokes are counted anew; a die cut off from both access dies keeps them for the return of its
path (R355); where only that access die is unreachable they are released (log entry 29). -/
def State.evtAgain (s : State) (d : DieId) (r : Sent) : State :=
  if s.reachable d r.dst then
    let now := s.stroke d
    let s := s.onDie d (fun x => { x with brg := { x.brg with sent := x.brg.sent.map (fun q => if q == r then { q with first := now } else q) } })
    s.resend d { r with first := now }
  else if s.cutOff d then s
  else s.onDie d (fun x => (x.answered r.dst r.tag).release)

/-- PACKET_ABANDONED (R275): 16 strokes after it was first sent a packet is given up. A register access fails with XDIE_FAIL
(R308), a command ends with DIE_UNAVAILABLE (R331); event records are kept (R346). -/
def execPacketAbandoned (d : DieId) (tag : BitVec 16) (s : State) : Result :=
  .next (match (s.die d).brg.sent.find? (fun r => r.tag == tag.toNat) with
    | none => s
    | some r =>
      if s.running && present s.part d && r.first + 16 ≤ s.stroke d then
        let s := match r.body with
          | .evtFwd _ => s.evtAgain d r
          | _ => s.onDie d (fun x => x.answered r.dst r.tag)
        match r.body with
        | .regReq _ _ write _ twi =>
          let s := (s.count d (cProt + 4)).post d 445 0x02 (r.dst.val + 8 * b2n write + 16 * b2n twi)
          s.crossEnd d r.dst r.body r.tag 2 0
        | .cmdFwd k _ => (s.receive d (mkRec k stUnavail 0 [])).giveUp d k
        | _ => s
      else s)

/-! ### PCI Express (R293 to R295) -/

/-- PCIE_LINK (R295): the link of an endpoint enters or leaves L0. -/
def execPcieLink (e : AccessId) (up : Bool) (speed : Fin 5) (width : Fin 3) (s : State) : Result :=
  let v := s.ep e
  .next (if 1 ≤ s.phase && v.l0 != up then
    (s.setEp e { v with l0 := up, speed := speed.val, width := width.val }).post (accessDie s.part e) 445 0x03
      (b2n up + 2 * speed.val + 16 * width.val)
  else s)

/-- The MSI-X table of an access die is reset: every vector masked, no entry programmed, nothing pending (R295; the mask bits
are log entry 6). -/
def Die.msixReset (x : Die) : Die :=
  { x with sram := x.sram.filter (fun c => !(c.1 < 0x200)),
           evt := { x.evt with mask := 0xFFFFFFFF, fmask := false, pend := 0, pendEv := 0 } }

/-- PERST (R295): only the endpoint is reset; a link in L0 leaves it. -/
def execPerst (e : AccessId) (s : State) : Result :=
  let v := s.ep e
  .next (if 1 ≤ s.phase then
    let s := (s.setEp e {}).onDie (accessDie s.part e) Die.msixReset
    if v.l0 then s.post (accessDie s.part e) 445 0x03 (2 * v.speed + 16 * v.width) else s
  else s)

/-- POISONED_TLP (R294): the write is discarded and reported through AER, with ACCESS_ERROR. -/
def execPoisonedTlp (e : AccessId) (off : BitVec 25) (s : State) : Result :=
  .next (if s.running then
    (s.setEp e { s.ep e with poison := true }).accessError (accessDie s.part e) off.toNat 0 true 0
  else s)

/-! ### Configuration protection (R309 to R313) -/

/-- The parity of a value over some bits. -/
def oddBits (v : Half) : Bool := ((List.range 16).filter (fun i => v.getLsbD i)).length % 2 == 1

/-- Record a parity fault (R310, R311, R316) and post CFG_PARITY. -/
def State.parityPost (s : State) (d : DieId) (o : Nat) (staged unrec : Bool) : State :=
  let s := s.onDie d (fun x =>
    ({ x with prot := { x.prot with parAddr := o, parStaged := staged, parUnrec := unrec } }).count (cProt + 8))
  s.post d 444 0x01 (o + 2 ^ 20 * b2n staged + 2 ^ 21 * b2n unrec)

/-- The ledger word of register o proves uncorrectable for a parity fault (R311): it stays faulty, and CFG_PARITY says so. -/
def State.parityLost (s : State) (d : DieId) (o : Nat) : State :=
  ((s.onDie d (fun x => { x with prot := { x.prot with bad := if x.prot.bad.contains o then x.prot.bad else x.prot.bad ++ [o] } })).parityPost
    d o false true).count d (cProt + 0x10)

/-- PARITY_FAULT (R309 to R311): an active value has changed in an odd number of its bits. It is restored from the ledger in
fret 0 of the next boundary, unless its ledger word is uncorrectable: `ecc` is what ECC finds there. -/
def execParityFault (d : DieId) (off : BitVec 20) (faulty : Half) (ecc : EccResult) (s : State) : Result :=
  let o := off.toNat
  let x := s.die d
  .next (match s.register d o with
    | none => s
    | some sel =>
      let new := mergeMask (x.act o) faulty sel.rws
      if present s.part d && s.running && oddBits (x.act o ^^^ new) then
        let bad := x.prot.bad.contains o || ecc == .uncorrectable
        let s := s.onDie d (fun x => x.setAct o new)
        if bad then s.parityLost d o
        else
          let s := s.onDie d (fun x =>
            { x with prot := { x.prot with restore := if x.prot.restore.contains o then x.prot.restore else x.prot.restore ++ [o] } })
          s.parityPost d o false false
      else s)

/-- The group of a register no longer holds staged values when none of its registers does (R303, R314 PEND). -/
def Die.unstage (x : Die) (o : Nat) : Die :=
  let y := { x with staged := x.staged.filter (fun p => p.1 != o) }
  match groupOf o with
  | none => y
  | some g => if y.staged.any (fun p => groupOf p.1 == some g) then y else { y with pend := y.pend &&& (0xFFFF ^^^ 2 ^ g) }

/-- STAGED_PARITY_FAULT (R311): the register's staged value is discarded. -/
def execStagedParityFault (d : DieId) (off : BitVec 20) (s : State) : Result :=
  let o := off.toNat
  .next (if present s.part d && s.running && ((s.die d).stg o).isSome then
    (s.onDie d (fun x => x.unstage o)).parityPost d o true false
  else s)

/-- LEDGER_SCRUB_VISIT (R309 to R311): the scrub reads the ledger word of a register. The index LEDGER_UNCORR reports is a
free value: the spec numbers no ledger word (log entry 4). -/
def execLedgerScrubVisit (d : DieId) (off : BitVec 20) (ecc : EccResult) (s : State) : Result :=
  let o := off.toNat
  .next (match s.register d o with
    | none => s
    | some sel =>
      if present s.part d && s.running && sel.rws != 0 then
        match ecc with
        | .clean => s
        | .corrected => s.count d (cProt + 0xC)
        | .uncorrectable =>
          let (v, s) := s.takeFree
          let s := s.onDie d (fun x =>
            { x with prot := { x.prot with bad := if x.prot.bad.contains o then x.prot.bad else x.prot.bad ++ [o] } })
          (s.count d (cProt + 0x10)).post d 444 0x02 (v.toNat % 65536)
      else s)

/-- The bits of a register that enter the CRC (R312): its RWS bits, less the fields the device itself changes. -/
def crcMask (sel : RegSel) : Half :=
  match sel.row.id with
  | .rxCtle => sel.rws &&& ~~~(fmask 5 0)
  | .rxVga => sel.rws &&& ~~~(fmask 5 0)
  | .rxDfe => sel.rws &&& ~~~(fmask 9 0)
  | .rxFfe => 0
  | .txFfe => 0
  | _ => sel.rws

/-- One bit enters the CRC-32 of R312. -/
def crcBit (crc : Nat) (b : Bool) : Nat := crcStep 32 0x04C11DB7 crc b

/-- The 16 bits of a register, most significant first. -/
def crcHalf (crc : Nat) (v : Half) : Nat := (List.range 16).foldl (fun c i => crcBit c (v.getLsbD (15 - i))) crc

/-- The registers that enter the CRC of a die, in ascending offset order (R312): every register of the base view with RWS fields,
CFGPROT's apart. -/
def crcOffsets (access : Bool) : List Nat :=
  (List.range 0x40000).filterMap (fun i =>
    match lookup (4 * i) with
    | none => none
    | some sel => if sel.rws = 0 || !sel.row.covered || (sel.row.accessOnly && !access) then none else some (4 * i))

/-- Registers enter the CRC one after the other, as active (R312). -/
def Die.crcOver (x : Die) (crc : Nat) (l : List Nat) : Nat :=
  l.foldl (fun c o => match lookup o with | none => c | some sel => crcHalf c (x.act o &&& crcMask sel)) crc

/-- The CRC over the die's committed configuration (R312). -/
def State.crc (s : State) (d : DieId) : Nat := (s.die d).crcOver 0xFFFFFFFF (crcOffsets (isAccess s.part d))

/-- CRC passes run (R313). -/
def Die.crcOn (x : Die) : Bool := fld (x.act 0x5000) 0 0 == 1

/-- Frets 21 to 24 of a stroke are past (R313): the CRC engine has read 4 more registers, unless they were cut short (R27). A pass that
has read all of them ends, and the next one starts. -/
def Die.crcStroke (x : Die) (access : Bool) : Die :=
  let p := x.prot
  if !x.crcOn then { x with prot := { p with passAt := 0, passCrc := 0xFFFFFFFF, passDirty := false } }
  else if x.stroke.pegOvr then x
  else
    let c := x.crcOver p.passCrc (((crcOffsets access).drop p.passAt).take 4)
    if crcNreg access ≤ p.passAt + 4 then
      { x with prot := { p with passAt := 0, passCrc := 0xFFFFFFFF, passDirty := false, passEnd := some (c, p.passDirty) } }
    else { x with prot := { p with passAt := p.passAt + 4, passCrc := c } }

/-- A commit or a parity restore dirties the pass under way (R313). -/
def Die.crcDirty (x : Die) : Die := { x with prot := { x.prot with passDirty := x.crcOn } }

/-- The reference CRC, as active (R313). -/
def Die.crcRef (x : Die) : Nat := pair (x.act 0x5004).toNat (x.act 0x5008).toNat

/-- CRC_PASS_END (R313): a pass has read every register. A dirty pass is not compared; a clean one is. -/
def execCrcPassEnd (d : DieId) (s : State) : Result :=
  let x := s.die d
  .next (if present s.part d && s.running then
    match x.prot.passEnd with
    | none => s
    | some (_, true) => s.onDie d (fun x => { x with prot := { x.prot with passEnd := none, dirty := true } })
    | some (c, false) =>
      let bad := c != x.crcRef
      let s := s.onDie d (fun x => ({ x with prot := { x.prot with passEnd := none, dirty := false, crcLast := c, mismatch := bad } }).count (cProt + 0x14))
      if bad then (s.count d (cProt + 0x18)).post d 444 0x03 c else s
  else s)

end Sys2Proof.Machine
end

