-- ==== Sys2Proof/Machine/TwoWire.lean ====
section
/-! DEFINITION. The two-wire target ports (R296 to R298, R359 to R365) and the controller ports MC0 and MC1 of every die
(R366 to R376). -/

namespace Sys2Proof.Machine

/-! ### The target port (R296 to R298, R362 to R364) -/

/-- The fields of a frame's address X (R296). -/
def frameSpace (x : Word) : Nat := bits x.toNat 31 29
def frameOff (x : Word) : Nat := if frameSpace x = 0 then bits x.toNat 24 0 else bits x.toNat 19 0
/-- [28:25] = 0: the frame has the shape of R296. -/
def frameOk (x : Word) : Bool := bits x.toNat 28 25 == 0

/-- The window a SPACE names. -/
def spaceWindow (n : Nat) : Window := if n = 0 then .regs else if n = 1 then .obs else .mem

/-- The write in the buffer has not completed (R298). -/
def Twi.occupied (t : Twi) : Bool := t.wbuf.isSome && t.wres == 4

/-- A completed write leaves the buffer (R298). -/
def Twi.drain (t : Twi) : Twi := if t.wres = 4 then t else { t with wbuf := none }

/-- A frame begins: what the frame before had to send is past. -/
def Twi.began (t : Twi) : Twi := { t with ready := false }

/-- The two-wire block of a die changes. -/
def State.onTwi (s : State) (d : DieId) (f : Twi → Twi) : State := s.onDie d (fun x => { x with twi := f x.twi })

/-- The SMBus CRC-8 over the bytes of a frame, x^8 + x^2 + x + 1, most significant bit first (R296). -/
def pec (l : List Byte) : Byte :=
  BitVec.ofNat 8 ((l.flatMap (fun b => (List.range 8).map (fun i => b.getLsbD (7 - i)))).foldl (crcStep 8 0x07) 0)

/-- Four bytes, most significant first, as one DW (R296). -/
def bigWord (a b c d : Byte) : Word := a ++ b ++ c ++ d

/-- The address byte of a target port: with the R/W bit (R296, R359). -/
def Twi.addrByte (t : Twi) (read : Bool) : Byte := BitVec.ofNat 8 (2 * t.addr + b2n read)

/-- A write of this bus is accepted into the buffer and executed; one to another die stays there until its response (R298). -/
def State.twiWrite (s : State) (e : AccessId) (x w : Word) : State :=
  let d := accessDie s.part e
  let s := s.onTwi d (fun t => { t.began with wbuf := some (x, w), wres := 4 })
  let s := if frameSpace x < 3 then s.busWrite e .twoWire (spaceWindow (frameSpace x)) (frameOff x) w
    else (s.reserved d .twoWire (frameOff x) true (frameSpace x)).busFails e .twoWire true (oneDw .regs (frameOff x) (some w))
  s.onTwi d Twi.drain

/-- A frame of another shape that is addressed to this port, for writing or reading, is discarded and counted (R296). -/
def State.twiOdd (s : State) (d : DieId) (bytes : List Byte) : State :=
  if bytes.head? = some ((s.die d).twi.addrByte false) || bytes.head? = some ((s.die d).twi.addrByte true) then s.count d (cProt + 0x1C)
  else s

/-- TWI_WRITE_FRAME (R296, R298): the bytes the host has sent from S to P. With a wrong PEC the write is discarded, counted, and
reported in the next status byte; a frame for another address is not this port's. -/
def execTwiWriteFrame (e : AccessId) (bytes : List Byte) (s : State) : Result :=
  let d := accessDie s.part e
  .next (if s.running && !(s.die d).twi.occupied then
    match bytes with
    | [a, x3, x2, x1, x0, d3, d2, d1, d0, p] =>
      if a ≠ (s.die d).twi.addrByte false || !frameOk (bigWord x3 x2 x1 x0) then s.twiOdd d bytes
      else if p ≠ pec [a, x3, x2, x1, x0, d3, d2, d1, d0] then
        (s.onTwi d (fun t => { t.began.drain with wres := 3 })).count d (cProt + 0x1C)
      else s.twiWrite e (bigWord x3 x2 x1 x0) (bigWord d3 d2 d1 d0)
    | _ => s.twiOdd d bytes
  else s)

/-- A read over two-wire: its value here, a reserved location, or a crossing of the bridges that is under way (R297, R298). -/
def State.twiRead (s : State) (e : AccessId) (x : Word) : State :=
  let a := accessDie s.part e
  let off := frameOff x
  let sp := frameSpace x
  let bad := (s.reserved a .twoWire off false sp).busFails e .twoWire false (oneDw .regs off none)
  let here := fun (v : Word) => s.twiOutcome a false 0 v
  let cross := fun (d : DieId) (o view : Nat) =>
    (s.onTwi a (fun t => { t with read := some (x, (s.die a).brg.nextTag) })).crossDie a d o view false 0 true
  if 3 ≤ sp then bad
  else if sp = 0 then
    let d := windowDie off
    if !present s.part d then bad
    else if d ≠ a then cross d (windowOff off) (windowView off)
    else match s.busRegister true d (windowOff off) with
      | none => bad
      | some sel => here ((s.readReg d sel).setWidth 32)
  else if sp = 1 then
    let d : DieId := ⟨off / 0x20000 % 8, Nat.mod_lt _ (by decide)⟩
    if !present s.part d then bad
    else if d = a then here ((s.die d).obsRead (off % 0x20000 / 4 * 4)) else cross d (off % 0x20000) 4
  else
    let m := off / 4 * 4
    if m < 0x10000 || foreignSlot true m then bad
    else match s.hkWindow m with
      | none => here ((s.die a).memRead m)
      | some d =>
        if d = a then here (BitVec.ofNat 32 (Memory.readLE (s.die d).sram (hkBase + m % 0x10000) 4)) else cross d (m % 0x10000) 5

/-- TWI_READ_FRAME (R296, R297): the bytes the host has sent up to A+R; a status byte and the data answer them. -/
def execTwiReadFrame (e : AccessId) (bytes : List Byte) (s : State) : Result :=
  let d := accessDie s.part e
  let t := (s.die d).twi
  .next (if s.running && !t.occupied && t.read.isNone then
    match bytes with
    | [a, x3, x2, x1, x0, b] =>
      if a ≠ t.addrByte false || b ≠ t.addrByte true || !frameOk (bigWord x3 x2 x1 x0) then s.twiOdd d bytes
      else (s.onTwi d (fun t => t.began.drain)).twiRead e (bigWord x3 x2 x1 x0)
    | _ => s.twiOdd d bytes
  else s)

/-- What the target sends in a read frame: ST, D most significant byte first, and the PEC over every byte of the frame (R296,
R297). -/
def Twi.sends (t : Twi) (bytes : List Byte) : List Byte :=
  let l : List Byte := [BitVec.ofNat 8 t.st, BitVec.ofNat 8 (t.d.toNat / 2 ^ 24), BitVec.ofNat 8 (t.d.toNat / 2 ^ 16),
    BitVec.ofNat 8 (t.d.toNat / 2 ^ 8), BitVec.ofNat 8 t.d.toNat]
  l ++ [pec (bytes ++ l)]

/-- The byte a target that drives ALERT_N answers at the alert response address 0x0C: its address, no PEC (R364). -/
def Twi.alertByte (t : Twi) : Byte := t.addrByte false

/-- TWI_WRITE_BUF_EMPTY (R298): the write has completed; the buffer empties and a waiting frame is acknowledged. -/
def execTwiWriteBufEmpty (e : AccessId) (s : State) : Result :=
  .next (if s.running then s.onTwi (accessDie s.part e) Twi.drain else s)

/-- TWI_BUSY_NACK (R298): 10 µs have passed with the buffer occupied. -/
def execTwiBusyNack (e : AccessId) (s : State) : Result :=
  let d := accessDie s.part e
  .next (if s.running && (s.die d).twi.occupied then s.count d (cProt + 0x20) else s)

/-- TWI_READ_NOT_READY (R298): 10 µs have passed; NOT_READY is sent and the result discarded when it comes. -/
def execTwiReadNotReady (e : AccessId) (s : State) : Result :=
  let d := accessDie s.part e
  .next (if s.running && (s.die d).twi.read.isSome then s.twiOutcome d false 3 0 else s)

/-- TWI_START_IN_ACK (R362): the interrupted frame is discarded whole, and counted. -/
def execTwiStartInAck (e : AccessId) (s : State) : Result :=
  .next (if s.running then s.count (accessDie s.part e) (cProt + 0x1C) else s)

/-- TARGET_TIMEOUT (R363): SCL has been low for 35 ms. A frame in progress and a read result not yet sent are discarded; an accepted write
still completes. `frame`: the bus was within a frame; `unsent`: the answer to the last read frame had not been sent. -/
def execTargetTimeout (e : AccessId) (frame unsent : Bool) (s : State) : Result :=
  let d := accessDie s.part e
  let t := (s.die d).twi
  .next (if s.running && fld ((s.die d).act oTcfg) 1 1 == 1 then
    let lost := unsent && t.ready
    let s := (s.onTwi d (fun t => { t with read := none, ready := t.ready && !lost, st := if lost then 0 else t.st, d := if lost then 0 else t.d })).count d cTwi
    s.post d 392 0x01 (b2n (frame || t.read.isSome || lost) + 2 * b2n (t.read.isSome || lost))
  else s)

/-- ALERT_N as the package pin shows what die d drives: released in Standby (R364, R365). -/
def State.alertPin (s : State) (d : DieId) : Bool := s.running && (s.die d).alert

/-- ALERT_RESPONSE (R364): a driving die answers 0x0C; the winner releases ALERT_N after the STOP, a loser keeps it low. -/
def execAlertResponse (e : AccessId) (won : Bool) (s : State) : Result :=
  let d := accessDie s.part e
  .next (if s.running && (s.die d).alert && fld ((s.die d).act oTcfg) 0 0 == 1 then
    if won then
      (s.onDie d (fun x => { x with evt := { x.evt with relAlert := true, relAt := s.stroke d } })).count d (cTwi + 4)
    else s.count d (cTwi + 8)
  else s)

/-- ALERT_REDRIVE (R364): one stroke after the release ALERT_N follows its condition again. -/
def execAlertRedrive (e : AccessId) (s : State) : Result :=
  let d := accessDie s.part e
  .next (if s.running && (s.die d).evt.relAlert && (s.die d).evt.relAt < s.stroke d then
    s.onDie d (fun x => { x with evt := { x.evt with relAlert := false } })
  else s)

/-! ### The controller ports (R366 to R373) -/

/-- Change one controller port. -/
def State.onMc (s : State) (d : DieId) (m : Nat) (f : Mc → Mc) : State := s.onTwi d (fun t => { t with mc := t.mc.setIfInBounds m (f (t.port m)) })

/-- TWI_MCFG fields. -/
def Die.mcEn (x : Die) (m : Nat) : Bool := fld (x.act (oMcfg m)) 0 0 == 1
def Die.mcStretch (x : Die) (m : Nat) : Nat := fld (x.act (oMcfg m)) 9 3

/-- Counters of a port (R375). -/
def cMc (m o : Nat) : Nat := cTwi + 0x20 + m * 0x20 + o

/-- The transfer in progress on a port. -/
def Die.mcOp (x : Die) (m : Nat) : Option Op := x.peg.ops.find? (fun o => o.cls == 5 && o.obj == m && o.phase != opOver)

/-- WLEN, RLEN and the address of a transfer (R371, R373). -/
def twiWlen (k : Packet) : Nat := bits (k.w 5) 7 0
def twiRlen (k : Packet) : Nat := bits (k.w 5) 15 8
def twiAddr (op : Nat) (k : Packet) : Nat :=
  let a := bits (k.w 4) 6 0
  if op = 0x0E02 && a = 0 then 0x50 else a

/-- Retries a transfer may use (R367, R371). -/
def Die.twiRetry (x : Die) (m op : Nat) (k : Packet) : Nat :=
  if op = 0x0E01 && bit (k.w 4) 13 then bits (k.w 4) 12 11 else fld (x.act (oMcfg m)) 11 10

/-- The parameters of a TWI_TRANSFER are in range (R371). -/
def twiParamsOk (k : Packet) : Bool :=
  let a := bits (k.w 4) 6 0
  k.length.toNat == 6 + (twiWlen k + 3) / 4 && 0x08 ≤ a && a ≤ 0x77 && !bit (k.w 4) 7 && k.w 4 < 2 ^ 14 && k.w 5 < 65536
    && twiWlen k ≤ 224 && twiRlen k ≤ 224

/-- The transfer of a port waits for its first START, or for another after lost arbitration. -/
def Op.toStart (o : Op) : Bool := o.phase == 0

/-- A transfer runs on the bus. -/
def Die.mcRuns (x : Die) (m : Nat) : Option Op := (x.mcOp m).filter (fun o => !o.toStart)

/-- A command is accepted on a port: its transfer waits for checked lines and a free bus (R367, R369). -/
def State.twiWait (s : State) (d : DieId) (m : Nat) : State :=
  s.onMc d m (fun v => { v with retries := 0, cleared := false, acked := 0, got := [], low := 0 })

/-- A transfer starts (R366, R369, R372, R375); one that tries again after lost arbitration goes on counting from its first START. -/
def State.twiBegin (s : State) (d : DieId) (m : Nat) (o : Op) : State :=
  let now := s.stroke d
  let s := s.onMc d m (fun v => { v with active := true, free := false, high := 0, check := false, stuck := false, acked := 0, got := [] })
  let s := s.onDie d (fun x => x.mapOps (fun z => z.is o.origin o.queue o.tag) (fun z =>
    { z with phase := 1, from_ := if z.lastProg.isNone then now else z.from_, lastProg := some (z.lastProg.getD now) }))
  if o.lastProg.isNone then s.count d (cMc m 0) else s

/-- A command on a controller port: BAD_TARGET, its parameters, REFUSED_NOT_READY, BUSY (R370, R371). -/
def State.twiCommand (s : State) (k : Packet) (op : Nat) (ok : Bool) : State :=
  let m := k.target.toNat
  if 2 ≤ m then s.refuse k op stBadTarget
  else if !ok then s.refuse k op stBadParam
  else if !(s.die k.die).mcEn m then s.refuse k op stNotReady
  else if (s.die k.die).busy 5 m then s.refuse k op stBusy
  else s.start k op 5 m [] (fun s => s.twiWait k.die m)

/-- TWI_TRANSFER (R371). -/
def execTwiTransfer (k : Packet) (s : State) : Result :=
  .next (s.command k 0x0E01 (fun s => s.twiCommand k 0x0E01 (twiParamsOk k)))

/-- MODULE_IDENTIFY (R373). -/
def execModuleIdentify (k : Packet) (s : State) : Result :=
  .next (s.command k 0x0E02 (fun s => s.twiCommand k 0x0E02 (k.w 4 < 128)))

/-- The bytes a transfer writes, the address byte with W first (R371): with PEC_EN the write ends with its PEC, but one that a repeated
START joins to a read, whose PEC covers both; an address probe has no write. -/
def twiData (k : Packet) : List Byte :=
  (List.range (twiWlen k)).map (fun i => BitVec.ofNat 8 (k.w (6 + i / 4) / 2 ^ (8 * (i % 4))))
def twiPec (k : Packet) : Bool := bit (k.w 4) 8
def twiJoined (k : Packet) : Bool := bit (k.w 4) 9 && twiWlen k ≠ 0 && twiRlen k ≠ 0
def twiAddrByte (k : Packet) (read : Bool) : Byte := BitVec.ofNat 8 (2 * bits (k.w 4) 6 0 + b2n read)
def twiSent (k : Packet) : List Byte :=
  let l := twiAddrByte k false :: twiData k
  if twiPec k && !twiJoined k && twiWlen k ≠ 0 then l ++ [pec l] else l

/-- The PEC byte after the read bytes of a transfer is right (R296, R371): over the read, and the write that is joined to it. -/
def twiPecOk (k : Packet) (got : List Byte) : Bool :=
  let n := twiRlen k
  let l := (if twiJoined k then twiSent k else []) ++ (twiAddrByte k true :: got.take n)
  !twiPec k || n == 0 || got[n]? == some (pec l)

/-- Bytes packed into DW, first byte in bits [7:0] (R371). -/
def packBytes (l : List Byte) : List Nat :=
  (List.range ((l.length + 3) / 4)).map (fun i =>
    let b := fun j => ((l[4 * i + j]?).getD 0).toNat
    b 0 + 256 * b 1 + 65536 * b 2 + 16777216 * b 3)

/-- EFFECT of a transfer (R372). -/
def twiEffect (acked wlen : Nat) : Nat := if acked = 0 then 0 else if acked < wlen then 2 else 1

/-- Status of a result (R372). -/
def twiStatus (result : Nat) : Nat := if result = 0 then stDone else if result = 4 then stTimeout else stIncomplete

/-- The final reply of TWI_TRANSFER (R372). -/
def Mc.reply (v : Mc) (result acked span : Nat) (data : List Byte) : List Nat :=
  [result + 256 * acked + 65536 * data.length + 2 ^ 24 * v.retries + 2 ^ 26 * b2n v.cleared, span] ++ packBytes data

/-- The final reply of MODULE_IDENTIFY (R373): `data` holds bytes 0 to 3, byte 127 and bytes 129 to 189 as far as read. -/
def identifyReply (result : Nat) (data : List Byte) : List Nat :=
  let b := fun i => ((data[i]?).getD 0).toNat
  let up := 66 ≤ data.length
  let at_ := fun n => b (5 + n - 129)
  let word := fun n => at_ n + 256 * at_ (n + 1) + 65536 * at_ (n + 2) + 16777216 * at_ (n + 3)
  [ result + 256 * b 0 + 65536 * b 1 + 2 ^ 24 * (b 2 / 128) + 2 ^ 25 * bits (b 3) 3 1 + 2 ^ 28 * b2n up,
    at_ 145 + 256 * at_ 146 + 65536 * at_ 147, word 129, word 133, word 137, word 141, word 148, word 152, word 156, word 160,
    at_ 164 + 256 * at_ 165, word 166, word 170, word 174, word 178, word 182, word 186 ]

/-- The bytes that MODULE_IDENTIFY reads: upper page 00h only from flat memory or when it is selected (R373). -/
def identifyBytes (data : List Byte) : List Byte :=
  let flat := ((data[2]?).getD 0).toNat / 128 = 1
  if flat || (data[4]?).getD 0 = 0 then data.take 66 else data.take 5

/-- The transfer of a port ends with a result (R372): its final record is posted. `stop`: the port has sent STOP, and the bus is free
(R367); it is not where the port has only let the lines go. -/
def State.twiFinish (s : State) (d : DieId) (m : Nat) (o : Op) (result status : Nat) (acked : Nat) (data : List Byte) (stop : Bool) : State :=
  let v := (s.die d).twi.port m
  let k := o.packet
  let span := if o.lastProg.isSome then s.stroke d - o.from_ else 0
  let s := s.onMc d m (fun v => { v with
    active := false, free := stop || (v.free && !v.active), high := 0, last := result, check := v.check || result == 4 })
  let s := if result = 1 || result = 2 then s.count d (cMc m 4) else s
  if o.opcode = 0x0E01 then
    let a := min acked (twiWlen k)
    let got := data.take (twiRlen k)
    s.conclude d { o with position := a + got.length } status (twiEffect a (twiWlen k)) (v.reply result a span got)
  else
    let got := identifyBytes data
    s.conclude d { o with position := got.length } status 3 (identifyReply result got)

/-- TWI_TRANSFER_END (R371, R372): the final STOP, or a NACK. With PEC_EN the byte after the read bytes is checked: PEC_ERROR where it is
wrong. A cancelled transfer, which sends STOP after the byte in progress, ends with CANCELLED (R370). Arbitration loss, a stretch
timeout and a bus error have rows of their own; a bus that stays stuck ends a transfer in BUS_CLEAR or at a boundary. -/
def execTwiTransferEnd (d : DieId) (m : McId) (result : Fin 8) (acked : Byte) (data : List Byte) (s : State) : Result :=
  .next (if s.running && present s.part d && result.val ∈ [0, 1, 2] then
    match (s.die d).mcRuns m.val with
    | none => s
    | some o =>
      let r := if result.val = 0 && o.opcode = 0x0E01 && !o.cancel && !twiPecOk o.packet data then 7 else result.val
      let s := s.onMc d m.val (fun v => { v with stuck := false, scl := true, sda := true, check := false })
      s.twiFinish d m.val o r (if o.cancel then stCancelled else twiStatus r) acked.toNat data true
  else s)

/-- ARB_LOST (R367): the port lets the bus go; it retries the whole transfer at the next free bus while no data byte had been acknowledged
and retries are left. -/
def execArbLost (d : DieId) (m : McId) (acked : Byte) (data : List Byte) (s : State) : Result :=
  .next (match (s.die d).mcRuns m.val with
    | none => s
    | some o =>
      if s.running && present s.part d then
        let v := (s.die d).twi.port m.val
        let again := acked == 0 && data.isEmpty && decide (v.retries < (s.die d).twiRetry m.val o.opcode o.packet) && !o.cancel
        let s := (s.count d (cMc m.val 8)).post d (393 + m.val) 0x01 (twiAddr o.opcode o.packet + 256 * v.retries + 1024 * b2n again)
        if again then
          (s.onMc d m.val (fun v => { v with retries := v.retries + 1, active := false, free := false, high := 0, acked := 0, got := [] })).onDie d
            (fun x => x.mapOps (fun z => z.is o.origin o.queue o.tag) (fun z => { z with phase := 0 }))
        else s.twiFinish d m.val o 3 (if o.cancel then stCancelled else stIncomplete) acked.toNat data false
      else s)

/-- STRETCH_TIMEOUT (R368): the port releases the bus, resets itself and ends the transfer; SCL is held low still, and the lines are
checked again before the next transfer. -/
def execStretchTimeout (d : DieId) (m : McId) (acked : Byte) (data : List Byte) (s : State) : Result :=
  .next (match (s.die d).mcRuns m.val with
    | none => s
    | some o =>
      if s.running && present s.part d then
        let s := (s.count d (cMc m.val 0xC)).post d (393 + m.val) 0x02 (twiAddr o.opcode o.packet + 256 * (s.die d).mcStretch m.val)
        (s.onMc d m.val (fun v => { v with scl := false })).twiFinish d m.val o 4 stTimeout acked.toNat data false
      else s)

/-- Bus clear is to run on a port (R369): its lines are to be checked, and SDA is low while SCL is high; or the TWI_TRANSFER that waits has
CLEAR = 1 and bus clear has not run for it. -/
def Die.clearDue (x : Die) (m : Nat) : Bool :=
  let v := x.twi.port m
  (v.check && v.scl && !v.sda)
    || (match x.mcOp m with
        | some o => o.toStart && o.opcode == 0x0E01 && bit (o.packet.w 4) 10 && !v.cleared && v.scl
        | none => false)

/-- BUS_CLEAR (R369): up to 9 pulses at an enable, or before a transfer. As soon as SDA is high the port sends STOP; a bus still stuck after
the ninth ends the transfer that waits. -/
def execBusClear (d : DieId) (m : McId) (pulses : Fin 10) (freed : Bool) (s : State) : Result :=
  .next (if s.running && present s.part d && (s.die d).mcEn m.val && (s.die d).clearDue m.val && (freed || pulses.val = 9) then
    let s := s.count d (cMc m.val 0x10)
    if freed then
      (s.onMc d m.val (fun v => { v with sda := true, stuck := false, check := false, cleared := true, free := true })).post
        d (393 + m.val) 0x04 pulses.val
    else
      let s := s.onMc d m.val (fun v => { v with sda := false, stuck := true, check := true, cleared := true })
      let s := (s.count d (cMc m.val 0x14)).post d (393 + m.val) 0x03 1
      match (s.die d).mcOp m.val with
      | none => s
      | some o => s.twiFinish d m.val o 5 stIncomplete 0 [] false
  else s)

/-- BUS_ERROR (R370): a START or STOP in the acknowledge slot aborts the transfer, without a retry. -/
def execBusError (d : DieId) (m : McId) (acked : Byte) (data : List Byte) (s : State) : Result :=
  .next (match (s.die d).mcRuns m.val with
    | none => s
    | some o =>
      if s.running && present s.part d then
        let s := (s.count d (cMc m.val 0x18)).post d (393 + m.val) 0x05 (twiAddr o.opcode o.packet + 256 * acked.toNat)
        s.twiFinish d m.val o 6 stIncomplete acked.toNat data false
      else s)

/-- A transfer is cut off: it ends with this status and what it had written and read (R370). `stop`: the port sends STOP. -/
def State.twiCut (s : State) (d : DieId) (m status : Nat) (stop : Bool) : State :=
  match (s.die d).mcOp m with
  | none => s
  | some o =>
    let v := (s.die d).twi.port m
    s.twiFinish d m o 0 status v.acked v.got (stop && v.active)

/-- OP_CANCEL of a transfer (R370): one that runs completes its byte and sends STOP, where it ends; one that has not begun ends now. -/
def State.twiCancel (s : State) (d : DieId) (m : Nat) (o : Op) : State :=
  if o.toStart then s.twiCut d m stCancelled false
  else s.onDie d (fun x => x.mapOps (fun z => z.is o.origin o.queue o.tag) (fun z => { z with cancel := true }))

/-- A commit of EN = 0 takes effect at its boundary: the port lets both lines go, and a transfer in progress ends with CANCELLED (R370). -/
def State.mcDisable (s : State) (d : DieId) (m : Nat) : State := s.twiCut d m stCancelled false

/-- An enable or re-enable: the lines are checked before the next transfer (R369). -/
def State.mcEnable (s : State) (d : DieId) (m : Nat) : State := s.onMc d m (fun v => { v with check := true, low := 0 })

/-- What a port saw over the stroke that ended (R367): its bus is free after a STOP and the bus-free time, or once both lines have been high
for 50 µs, 49 strokes; a line that falls with no STOP since makes it busy. -/
def Mc.seen (v : Mc) (o : Option TwiObs) : Mc :=
  let quiet := match o with | some o => o.high | none => v.scl && v.sda
  let n := if quiet && !v.active then min (v.high + 1) 49 else 0
  let stop := match o with | some o => o.stop | none => false
  let w := { v with high := n, free := !v.active && (stop || (quiet && (v.free || 49 ≤ n))) }
  match o with
  | none => w
  | some o => { w with scl := o.scl, sda := o.sda, acked := if v.active then o.acked.toNat else v.acked, got := if v.active then o.data else v.got }

/-- The ports of every die take what they saw. -/
def State.twiSeen (s : State) (l : List TwiObs) : State :=
  s.onAll (fun s d => [0, 1].foldl (fun s m => s.onMc d m (fun v => v.seen (l.find? (fun o => o.die == d && o.m.val == m)))) s)

/-- SCL has stayed low for STRETCH_TO while the lines were to be checked (R369): BUS_STUCK, which ends a transfer that waits. -/
def State.sclStuck (s : State) (d : DieId) (m : Nat) : State :=
  let v := (s.die d).twi.port m
  let s := (s.onMc d m (fun v => { v with stuck := true })).post d (393 + m) 0x03 (b2n (!v.sda) + 2)
  match (s.die d).mcOp m with
  | none => s
  | some o => s.twiFinish d m o 5 stIncomplete 0 [] false

/-- The lines of an enabled port that are to be checked, at a boundary: SCL low is waited for up to STRETCH_TO (R369), in strokes of 1.024
µs. -/
def State.checkLines (s : State) (d : DieId) (m : Nat) : State :=
  let v := (s.die d).twi.port m
  if !(s.die d).mcEn m || v.active || !v.check then s
  else if v.scl then s.onMc d m (fun v => { v with low := 0 })
  else
    let limit := (s.die d).mcStretch m * 1000000
    let s := s.onMc d m (fun v => { v with low := v.low + 1 })
    if limit ≤ (v.low + 1) * 1024 && (v.low * 1024 < limit || ((s.die d).mcOp m).isSome) then s.sclStuck d m else s

/-- PROGRESS of a transfer that runs (R371, R373): the data bytes transferred so far. -/
def State.twiProgress (s : State) (d : DieId) (m : Nat) : State :=
  match (s.die d).mcRuns m with
  | none => s
  | some o =>
    let v := (s.die d).twi.port m
    if (s.die d).pegRuns && (match o.lastProg with | none => true | some t => t + 1000 ≤ s.stroke d) then
      s.progress d o (v.acked + v.got.length)
    else s

/-- A controller port at a boundary: its lines are checked, a transfer that waits starts on a free bus, and one that runs tells how far it
has come (R367, R369, R371). -/
def State.mcAt (s : State) (d : DieId) (m : Nat) : State :=
  let s := s.checkLines d m
  let v := (s.die d).twi.port m
  match (s.die d).mcOp m with
  | none => s
  | some o =>
    if o.toStart then
      (if v.free && v.scl && !(s.die d).clearDue m then s.twiBegin d m o else s)
    else s.twiProgress d m

end Sys2Proof.Machine
end

