-- ==== Sys2Proof/Machine/Bist.lean ====
section
/-! DEFINITION. Self-test and repair (R420 to R440). -/

namespace Sys2Proof.Machine

/-! ### BIST_RUN (R421, R423, R425, R434) -/

/-- Tests that do not need the BIST frets (R422). -/
def testFree (n : Nat) : Bool := n == 8 || n == 9

/-- The target is retired (R429, R434). -/
def Die.testRetired (x : Die) (n w : Nat) : Bool :=
  match n with
  | 1 => (x.slice w).retired
  | 3 => (x.course (w % 8)).banks.spare == 7
  | 4 => ((x.course (w % 8)).half (if bit w 8 then .line else .host)).retired
  | _ => false

/-- The side whose sympathetic slice a test needs: that of the slice, or of the transmitter's monitor tap (R423). -/
def testSide (n w : Nat) : Option (Nat × Side) :=
  match n with
  | 1 => some (sliceCourse w, sliceSide w)
  | 2 => some (txCourse w, txSide w)
  | _ => none

/-- A live slice must be displaced before its test (R423). -/
def Die.testLive (x : Die) (n : Nat) : Bool := x.role n == 0

/-- Why a test does not start now, with the reply's data; none when it starts (R423 to R425, R434). -/
def State.testDenied (s : State) (d : DieId) (n w : Nat) : Option (Nat × List Nat) :=
  let x := s.die d
  if n ≠ 9 && n ≠ 8 && (!x.bistOn || x.brg.isolated) then some (stNotReady, [])
  else if x.testRetired n w then some (stNotReady, [])
  else if n = 9 && !x.brg.isolated then some (stNotReady, [])
  else if n = 6 && !(x.port (w % 64)).carrying then some (stNotReady, [])
  else if n = 2 && (x.tx w).mode = 5 then some (stNotReady, [])
  else if x.bist.tests.any (fun t => t.test == n && t.target == w) then some (stBusy, [])
  else match n with
    | 1 | 2 =>
      (match testSide n w with
       | none => none
       | some (c, h) =>
         if n = 1 && !x.testLive w && x.sympSlice c h != w then none
         else if x.checking w && n = 1 then some (stBusy, [])
         else x.sympDenied c h false)
    | 3 => if (x.course (w % 8)).banks.copying then some (stBusy, []) else none
    | 4 => if (x.workOp (w % 8) (if bit w 8 then .line else .host)).isSome then some (stBusy, []) else none
    | 5 => if x.peg.staging || s.gsync.isSome then some (stBusy, []) else none
    | _ => none

/-- A test starts (R420 to R424): a live slice is displaced by a handover at the next boundary, TX_OBSERVE attaches the
sympathetic slice, PEGMEM_MARCH invalidates the standby image, and any other block is isolated at once. One that needs the BIST frets
waits while they are disabled (R25). -/
def State.testStart (s : State) (d : DieId) (t : Test) : State :=
  let x := s.die d
  let w := t.target
  let live := t.test == 1 && x.testLive w
  let isol := t.test != 2 && t.test != 8 && !live
  let t := { t with isol := isol, paused := isol && !x.bistOn && !testFree t.test, sliceAt := s.stroke d + 1 }
  let s := s.onDie d (fun x => ({ x with bist := { x.bist with tests := x.bist.tests ++ [t] } }).lowered)
  let s := s.count d cBist
  if live then s.hoBegin d (sliceCourse w) (sliceSide w) ((x.posOf w).getD 0) 2 6 0 0
  else if t.test = 1 then s.parkSlice d w
  else if t.test = 2 then s.attachNext d (txCourse w) (txSide w) (txPos w) true false 1 6 true
  else if t.test = 5 then s.onDie d (fun x => { x with peg := { x.peg with sbValid := false, romS := false, verS := 0, secS := 0 } })
  else s

/-- BIST_RUN (R434): the device opens the BIST gate for it (R261). -/
def execBistRun (k : Packet) (s : State) : Result :=
  .next (s.command k 0x0C01 (fun s =>
    let n := k.w 4 % 256
    let w := k.target.toNat
    if 1 ≤ n && n ≤ 9 && !s.testTargetOk k n then s.refuse k 0x0C01 stBadTarget
    else if n = 0 || 9 < n || 1024 ≤ k.w 4 || 2 ^ 24 ≤ k.w 5 || (n ≠ 2 && k.w 5 ≠ 0) then s.refuse k 0x0C01 stBadParam
    else match s.testDenied k.die n w with
      | some r => s.refuse k 0x0C01 r.1 r.2
      | none => s.start k 0x0C01 6 (n * 65536 + w) [] (fun s =>
          let s := s.gateOpen k.die 2 10
          s.testStart k.die { tag := k.tag, test := n, target := w, packet := k })))

/-! ### Work slices (R422, R425) -/

/-- The block a test held is re-initialised and serves again (R420); a slice that is not isolated now has been already. -/
def State.testRelease (s : State) (d : DieId) (t : Test) : State :=
  if t.test = 1 then (if t.isol then s.reinitSlice d t.target else s)
  else if t.test = 2 then
    let c := txCourse t.target
    let h := txSide t.target
    if ((s.die d).rot c h).owner = 6 && ((s.die d).rot c h).attached then s.detach d c h 1
    else s.onSide d c h (fun r => if r.want = 1 && r.wantOwner = 6 then { r with want := 0 } else r)
  else if t.test = 4 then
    let v := (s.die d).course (t.target % 8)
    let h : Side := if bit t.target 8 then .line else .host
    s.setCourse d (t.target % 8) (v.setHalf h { (v.half h) with valid := false })
  else if t.test = 6 then s.onPort (portId d (t.target % 64)) (fun v => { v with hFramers := [], lFramers := [] })
  else s

/-- The handover that displaces a slice for its test is under way (R423). -/
def Die.displacing (x : Die) (t : Test) : Bool :=
  let r := x.rot (sliceCourse t.target) (sliceSide t.target)
  t.test == 1 && !t.isol && r.phase != 0 && r.wantOwner == 6

/-- A test ends with part of its work done (R427): OP_CANCEL at a checkpoint, or R426. One whose slice is being displaced ends with that
handover. -/
def State.testCut (s : State) (d : DieId) (t : Test) (r : TestResult) (status : Nat) : State :=
  if (s.die d).displacing t then s.hoDrop d (sliceCourse t.target) (sliceSide t.target) status
  else
    let (s, record) := s.cutRecord d t r
    (s.closeTest d t r status record []).testRelease d t

/-- Replace a test, and show the progress of its operation in per-mille of the work (R434). -/
def State.testProgress (s : State) (d : DieId) (t u : Test) : State :=
  let s := s.onDie d (fun x => x.setTest t u)
  match (s.die d).testOp u with
  | none => s
  | some o => if (s.die d).pegRuns then s.progress d o (min 1000 (u.done * 1000 / testWork u)) else s

/-- The test of a tag. -/
def Die.testOf (x : Die) (tag : BitVec 16) : Option Test := x.bist.tests.find? (fun t => t.tag == tag)

/-- Work that the current slice may hold at its checkpoint in stroke n (R422): at most 250 strokes, the strokes it has run, and the work
that is left; of PEGMEM_MARCH, of the half under test, and none while the firmware copies (R424). -/
def Test.sliceMax (t : Test) (n : Nat) : Nat :=
  let all := if t.test = 5 && !t.half then halfWork else testWork t
  min (min 250 (n + 1 - t.sliceAt)) (all - t.done)

/-- A handover waits for the slice of a test (R141): the test, at a checkpoint, gives it up re-initialised, and goes on later (R422,
R425). -/
def Die.yields (x : Die) (t : Test) : Bool := t.test == 1 && (x.rot (sliceCourse t.target) (sliceSide t.target)).want == 1
def State.yieldTest (s : State) (d : DieId) (t : Test) : State :=
  let s := s.onDie d (fun x => (x.setTest t { t with isol := false, paused := true, susp := t.susp + 1 }).lowered)
  (s.count d (cBist + 0x10)).reinitSlice d t.target

/-- WORK_SLICE_END (R24, R422, R425): the checkpoint, in frets 25 to 27 while they are enabled. A cancelled test ends here; one without its BIST frets waits; a slice
that a waiting handover needs is re-initialised for it. -/
def execWorkSliceEnd (d : DieId) (tag : BitVec 16) (work : Nat) (s : State) : Result :=
  .next (match (s.die d).testOf tag with
    | none => s
    | some t =>
      let x := s.die d
      if present s.part d && s.running && t.isol && !t.paused && !x.clk.fresh 2 10 && !t.copies && work ≤ t.sliceMax (s.stroke d) && (!x.bistOn || s.pos < 1120) then
        let s := if x.bistOn then s.toFret 25 else s
        let t1 := { t with done := t.done + work, sliceAt := s.stroke d + 1 }
        let s := s.onDie d (fun x => x.setTest t t1)
        let cancel := match x.testOp t with | some o => o.cancel | none => false
        if cancel then s.testCut d t1 .incomplete stCancelled
        else
          let s :=
            if x.yields t then s.yieldTest d t1
            else if !x.bistOn && !testFree t.test then s.onDie d (fun x => x.setTest t1 { t1 with paused := true })
            else s
          match (s.die d).testOf tag with
          | none => s
          | some t2 => s.testProgress d t2 t2
      else s)

/-- Training needs the lanes of a port at once: it trains or is about to, or a lane of it does in service (R425). -/
def Die.trainsNow (x : Die) (n : Nat) : Bool :=
  let v := x.port n
  v.sess || v.startAt.isSome || (v.enabled && !v.carrying)
    || x.txs.any (fun q => q.2.single && x.owner (txCourse q.1) (txSide q.1) (txPos q.1) == some n)

/-- A deadline-class request meets the block of a test (R425). -/
def Die.deadline (x : Die) (t : Test) (clock : Bool) : Bool :=
  if clock then t.test == 7 && (x.clk.failing || x.clk.defer)
  else (t.test == 6 && x.trainsNow (t.target % 64))
    || (t.test == 1 && x.ports.any (fun p => p.1 / 8 == sliceCourse t.target && x.trainsNow p.1))

/-- SLICE_ABORTED (R425): a deadline-class request aborts the work slice: training for a slice or a port's framers, a clock
failover for the reference monitors. The work since the last checkpoint is lost. -/
def execSliceAborted (d : DieId) (tag : BitVec 16) (clock : Bool) (s : State) : Result :=
  .next (match (s.die d).testOf tag with
    | none => s
    | some t =>
      let x := s.die d
      if present s.part d && s.running && t.isol && !t.paused && x.deadline t clock then
        let s := s.onDie d (fun x => (x.setTest t { t with isol := false, paused := true, susp := t.susp + 1 }).lowered)
        let s := ((s.count d (cBist + 0xC)).count d (cBist + 0x10)).post d 424 0x02 (t.test + 256 * b2n clock)
        if t.test = 1 then s.reinitSlice d t.target else s
      else s)

/-- A suspended test at a boundary (R422, R425): it goes on once the BIST frets are back, or its block is free again; a
slice that has become live is displaced again first. TX_OBSERVE counts the strokes it compares, LEDGER_SCRUB those of its pass. A cancelled
test that waits, at its checkpoint or for its block, ends (R426). BANK_MARCH works in the BIST frets only:
it stands still in a stroke that begins without them (R25, R421). -/
def State.testAt (s : State) (d : DieId) (t : Test) : State :=
  let x := s.die d
  let w := t.target
  let c := sliceCourse w
  let h := sliceSide w
  let put := fun (u : Test) => s.onDie d (fun x => (x.setTest t { u with sliceAt := s.stroke d }).lowered)
  let cancel := match x.testOp t with | some o => o.cancel | none => false
  if cancel && t.test != 2 && t.test != 8 && (t.paused || !t.isol) then s.testCut d t .incomplete stCancelled
  else if t.test = 2 then
    let r := x.rot (txCourse w) (txSide w)
    if r.attached && r.owner = 6 && r.aligned && x.bistOn && t.done < testWork t then
      (s.onDie d Die.lowered).testProgress d t { t with done := t.done + 1, sliceAt := s.stroke d }
    else s
  else if t.test = 8 then s.testProgress d t { t with done := min (testWork t) (t.done + 1) }
  else if t.isol then
    if t.test = 3 && !x.bistOn then s.onDie d (fun x => x.setTest t { t with sliceAt := t.sliceAt + 1 })
    else if t.paused && x.yields t then s.yieldTest d t
    else if t.paused && (x.bistOn || testFree t.test) then put { t with paused := false } else s
  else if !x.bistOn then s
  else if t.test = 1 then
    let r := x.rot c h
    if r.phase ≠ 0 || r.want ≠ 0 || r.attached then s
    else if x.role w = 3 then (put { t with isol := true, paused := false }).parkSlice d w
    else if x.role w = 0 then s.hoBegin d c h ((x.posOf w).getD 0) 2 6 0 0
    else s
  else if t.test = 6 then (if (x.port (w % 64)).carrying then put { t with isol := true, paused := false } else s)
  else if t.test = 7 then (if x.clk.failing then s else put { t with isol := true, paused := false })
  else s

/-! ### The end of a test (R427 to R431) -/

/-- The row or column that a repair of a fault location maps (R431): its row, or its column when no spare row is left
(DESIGN CHOICE, log entry 41). -/
def Die.repairWhat (x : Die) (m loc : Nat) : Nat :=
  if x.spareFree m (loc % 65536) then loc % 65536 else 65536 + bits loc 23 16

/-- Repair is on for this test, and whether it is recorded in NV (R431). -/
def Die.repairOn (x : Die) (t : Test) : Bool := fld (x.act oBist) 0 0 == 1 || bit (t.packet.w 4) 8
def Die.repairNv (x : Die) (t : Test) : Bool := fld (x.act oBist) 1 1 == 1 || bit (t.packet.w 4) 9

/-- The test reaches memory macros, which have spares (R421, R430). -/
def testHasSpares (n : Nat) : Bool := n == 3 || n == 4 || n == 5 || n == 9

/-- The repair record of a macro enters both NV mirrors, unless its block is worn (R431, R485). -/
def State.repairRecord (s : State) (d : DieId) (m v : Nat) : State × Bool :=
  if s.nvWornAt (s.nvMaster d) 0x81000 then (s.nvRefuse (s.nvMaster d) 0x81000, false)
  else (s.nvRepair d (some (m, v)) none, true)

/-- A failed part that nothing repairs is retired (R146, R429): a slice, a bank, or a capture half. -/
def State.retire (s : State) (d : DieId) (t : Test) (m : Nat) : State :=
  let c := t.target % 8
  match t.test with
  | 1 =>
    let s := s.onSlice d t.target (fun v => { v with retired := true })
    (s.nvRepair d none (some t.target)).post d 424 0x03 t.target
  | 3 =>
    let b := ((s.die d).course c).banks
    let s := s.setCourse d c { (s.die d).course c with
      banks := { b with failed := b.failed ||| 2 ^ b.spare, spare := 7, stopped := true } }
    (s.nvRepair d none (some (0x100 + m))).postCourse d c 0x15 b.spare
  | 4 =>
    let h : Side := if bit t.target 8 then .line else .host
    let v := (s.die d).course c
    let s := s.setCourse d c (v.setHalf h { (v.half h) with retired := true, valid := false })
    let s := s.onDie d (fun x => { x with bist := { x.bist with retMac := x.bist.retMac ++ [m] } })
    (s.nvRepair d none (some (0x100 + m))).post d 424 0x04 m
  | _ => s

/-- What follows a FAIL (R146, R429, R431, R436): the repair action of the record, and whether the repeat passed. A bank or half whose
repeat fails is beyond repair, and retired. -/
def State.afterFail (s : State) (d : DieId) (t : Test) (loc : Nat) (repaired : Bool) : State × Nat × Bool :=
  let x := s.die d
  let m := x.testMacro t loc
  if !testHasSpares t.test then (if t.test = 1 then (s.retire d t m, 4, false) else (s, 0, false))
  else
    let v := x.repairWhat m loc
    if x.spareFree m v then
      if x.repairOn t then
        let (s, nv) := if x.repairNv t then s.repairRecord d m v else (s, false)
        let s := s.softRepair d m v nv
        (if !repaired && (t.test = 3 || t.test = 4) then s.retire d t m else s, if nv then 2 else 1, repaired)
      else (s, 0, false)
    else
      let s := s.post d 425 0x02 m
      if t.test = 3 || t.test = 4 then (s.retire d t m, 4, false) else (s, 3, false)

/-- The result a test ends with (R427): TX_OBSERVE fails above 10^−6, or when the driver's current limit is set. -/
def Die.resultOf (x : Die) (t : Test) (r : TestResult) (sig : Nat) : TestResult :=
  if t.test = 2 && r == .pass then
    let n := t.done * x.strokeSymbols (txCourse t.target) (txSide t.target) (txPos t.target)
    if n < sig * 1000000 || (x.tx t.target).ilim then .fail else .pass
  else r

/-- The test may end so now (R426, R427): PASS with all work done and the expected signature, FAIL with work running,
INCOMPLETE only after OP_CANCEL, ABORTED when the port of a FRAMER or TX_OBSERVE has gone. -/
def Die.mayEnd (x : Die) (t : Test) (r : TestResult) (sig : Nat) : Bool :=
  let on := (t.isol && !t.paused) || t.test == 2 || t.test == 8
  match r with
  | .pass => on && (t.test == 8 || t.done == testWork t) && (t.test == 2 || t.test == 8 || sig == (Config.signature t.test t.target).toNat)
  | .fail => on
  | .incomplete => on && (match x.testOp t with | some o => o.cancel | none => false)
  | .aborted => (t.test == 6 && !(x.port (t.target % 64)).enabled) || (t.test == 2 && (x.tx t.target).mode == 5)

/-- The result record of a test (R428), with a REPAIR_SOFT's action. -/
def Die.finalRecord (x : Die) (t : Test) (r : TestResult) (sig loc action now : Nat) : List Nat :=
  x.testRecord t r sig loc (if t.rep = 0 then action else if t.rep = 2 then 2 else 1) now

/-- TEST_ENDED (R427 to R431): the result is recorded, the block re-initialised, and a fault repaired or retired. `sig` is
the signature, or the disagreeing symbols of TX_OBSERVE; `loc` the fault location; `repaired` the outcome of the repeat
after a repair. -/
def execTestEnded (d : DieId) (tag : BitVec 16) (result : TestResult) (sig loc : Word) (repaired : Bool) (s : State) : Result :=
  .next (match (s.die d).testOf tag with
    | none => s
    | some t =>
      let x := s.die d
      if present s.part d && s.running && x.mayEnd t result sig.toNat then
        let t := if t.test = 8 && result == .pass then { t with done := testWork t } else t
        let s := match x.testOf tag with | some u => s.onDie d (fun x => x.setTest u t) | none => s
        let r0 := x.resultOf t result sig.toNat
        let (s, action, ok) :=
          if r0 != .fail then (s, 0, false)
          else if t.rep = 0 then s.afterFail d t loc.toNat repaired
          else (if t.test = 3 || t.test = 4 then s.retire d t ((s.die d).testMacro t loc.toNat) else s, 0, false)
        let r := if ok then TestResult.pass else r0
        let record := (s.die d).finalRecord t r sig.toNat loc.toNat action (s.stroke d)
        let status := match r with
          | .pass | .fail => if t.rep = 3 then stWorn else stDone
          | .incomplete => stCancelled
          | .aborted => stAborted
        (s.closeTest d t r status record []).testRelease d t
      else s)

/-! ### Commands on results and repairs (R435 to R437) -/

/-- BIST_RESULT (R435). -/
def execBistResult (k : Packet) (s : State) : Result :=
  .next (s.command0 k 0x0C02 (fun s =>
    let b := (s.die k.die).bist
    let i := if k.w 4 = 0x7F then (b.wp + 63) % 64 else k.w 4
    if 128 ≤ k.w 4 then s.refuse k 0x0C02 stBadParam
    else if 64 ≤ k.w 4 && k.w 4 ≠ 0x7F then s.refuse k 0x0C02 stBadParam
    else match SMap.get [] b.ring i with
      | [] => s.refuse k 0x0C02 stNotReady
      | l => s.done k 0x0C02 3 l))

/-- A macro is isolated now (R431, R436). -/
def Die.macroIsolated (x : Die) (m : Nat) : Bool :=
  let i := macIndex m
  x.brg.isolated || (match macClass m with
    | 0 => x.bist.tests.any (fun t => t.test == 5 && t.isol)
    | 2 => (x.course (i / 7)).banks.spare == i % 7 && !(x.course (i / 7)).banks.copying
    | 3 => x.bist.tests.any (fun t => t.test == 4 && t.isol && t.target == i / 6 + (if i % 6 < 3 then 0 else 256))
    | _ => false)

/-- The test that reaches a macro, and its target (R421, R430). -/
def macroTest (m : Nat) : Nat × Nat :=
  let i := macIndex m
  match macClass m with
  | 0 => (5, 0)
  | 2 => (3, i / 7)
  | 3 => (4, i / 6 + (if i % 6 < 3 then 0 else 256))
  | _ => (9, 0)

/-- The row or column REPAIR_SOFT names: word 5, or the fault location of a result record (R436). -/
def Die.softWhat (x : Die) (k : Packet) (m : Nat) : Option Nat :=
  if k.w 4 % 256 = 0xFF then some (k.w 5)
  else match SMap.get [] x.bist.ring (k.w 4 % 256) with
    | [] => none
    | l => some (x.repairWhat m ((l[5]?).getD 0))

/-- REPAIR_SOFT (R436): the repair is applied, and the macro's test repeated; its record is the final reply. -/
def execRepairSoft (k : Packet) (s : State) : Result :=
  .next (s.command k 0x0C03 (fun s =>
    let d := k.die
    let x := s.die d
    let m := k.target.toNat
    if !(m < 65536 && macOk m) then s.refuse k 0x0C03 stBadTarget
    else if 512 ≤ k.w 4 || 2 ^ 17 ≤ k.w 5 || (64 ≤ k.w 4 % 256 && k.w 4 % 256 ≠ 0xFF) then s.refuse k 0x0C03 stBadParam
    else if !x.macroIsolated m then s.refuse k 0x0C03 stInUse
    else match x.softWhat k m with
      | none => s.refuse k 0x0C03 stNotReady
      | some v =>
        if !x.spareFree m v then s.refuse k 0x0C03 stNotReady
        else s.start k 0x0C03 6 (0x1000000 + m) [] (fun s =>
          let want := bit (k.w 4) 8
          let (s, nv) := if want then s.repairRecord d m v else (s, false)
          let s := s.softRepair d m v nv
          let n := macroTest m
          s.testStart d { tag := k.tag, test := n.1, target := n.2, packet := k, rep := if nv then 2 else if want then 3 else 1 })))

/-- The NV repair records of a macro of die d (R432, R437). -/
def State.nvRepairs (s : State) (d : DieId) (m : Nat) : List (Nat × Nat) :=
  ((s.die (s.nvMaster d)).nvs.repairs.filter (fun p => p.1 == d.val * 65536 + m)).map (fun p => (m, p.2))

/-- REPAIR_FUSE (R437). -/
def execRepairFuse (k : Packet) (s : State) : Result :=
  .next (s.command k 0x0C04 (fun s =>
    let d := k.die
    let x := s.die d
    let m := k.target.toNat
    let l := s.nvRepairs d m
    if !(m < 65536 && macOk m) then s.refuse k 0x0C04 stBadTarget
    else if k.w 4 ≠ Config.serial.toNat % 65536 ^^^ 0xA5A5 then s.refuse k 0x0C04 stBadParam
    else if !x.bist.burnOf.isEmpty then s.refuse k 0x0C04 stBusy
    else if l.isEmpty || 1024 < x.bist.fuses + l.length then s.refuse k 0x0C04 stNotReady
    else s.start k 0x0C04 6 (0x2000000 + m) [] (fun s =>
      s.onDie d (fun x => { x with bist := { x.bist with burnOf := l, burnt := 0 } }))))

/-- The REPAIR_FUSE operation of a die. -/
def Die.fuseOp (x : Die) : Option Op := x.peg.ops.find? (fun o => o.opcode == 0x0C04 && o.phase != opOver)

/-- Delete the NV repair records of a macro in both mirrors (R432). -/
def State.nvForget (s : State) (d : DieId) (m : Nat) : State :=
  let drop := fun (x : Die) => { x with nvs := { x.nvs with repairs := x.nvs.repairs.filter (fun p => p.1 != d.val * 65536 + m) } }
  let a := s.nvMaster d
  let b := s.mirrorOf a
  let s := s.onDie a drop
  if s.mirrorUp a b then s.onDie b drop else s

/-- The entry being programmed is complete (R437, R439, R440): the state, and the entries used. -/
def State.fuseEntry (s : State) (d : DieId) (e : Nat × Nat) : State × Nat :=
  let s := s.onDie d (fun x => { x with bist := { x.bist with
    fuses := x.bist.fuses + 1, fuseMap := x.bist.fuseMap ++ [e], burnOf := x.bist.burnOf.drop 1, burnt := x.bist.burnt + 1 } })
  let used := (s.die d).bist.fuses
  ((s.count d (cBist + 0x18)).post d 425 0x03 (e.1 + 65536 * used), used)

/-- FUSE_WRITTEN (R437): 40 strokes of programming complete one entry; after the last the NV records go and the operation
ends. -/
def execFuseWritten (d : DieId) (s : State) : Result :=
  let b := (s.die d).bist
  .next (match b.burnOf, (s.die d).fuseOp with
    | e :: rest, some o =>
      if present s.part d && s.running && o.from_ + 40 * (b.burnt + 1) ≤ s.stroke d then
        let (s, used) := s.fuseEntry d e
        if rest.isEmpty then (s.nvForget d e.1).conclude d o stDone 1 [used] else s
      else s
    | _, _ => s)

end Sys2Proof.Machine
end

