-- ==== Sys2Proof/Machine/Recovery.lean ====
section
/-! DEFINITION. Firmware staging and activation, the watchdog, and the settling of commands after a restart or an image
swap (R334 to R340, R452). -/

namespace Sys2Proof.Machine

/-! ### Cutting long operations short (R141, R284, R340, R426) -/

/-- The course side a rotation operation acts on. -/
def objSide (n : Nat) : Nat × Side := (n / 2, if n % 2 = 1 then .line else .host)

/-- A fuse repair stops after the entry it is programming, which nothing interrupts (R437). -/
def State.fuseCut (s : State) (d : DieId) (o : Op) (status : Nat) : State :=
  let s := match (s.die d).bist.burnOf with
    | [] => s
    | e :: _ => (s.fuseEntry d e).1
  let b := (s.die d).bist
  let s := s.onDie d (fun x => { x with bist := { x.bist with burnOf := [] } })
  s.conclude d o status (if b.burnt = 0 then 0 else 2) [b.fuses]

/-- The package operation that stages or activates firmware is over: nothing is open, and every queue fetches again. -/
def State.fwClear (s : State) : State :=
  let s := { s with gsync := none, fwHeld := false, fwOp := none, fwDone := 0, fwBack := 0 }
  s.onAll (fun s d => s.onDie d (fun x =>
    { x with peg := { x.peg with swapAt := none },
             q0 := { x.q0 with drain := false }, q1 := { x.q1 with drain := false }, q2 := { x.q2 with drain := false } }))

/-- The bytes of a session are discarded; its standby region holds no verified image (R337). -/
def Die.stageClear (x : Die) : Die :=
  { x with peg := { x.peg with staging := false, stBytes := [], stCover := [], sbValid := false, romS := false, verS := 0, secS := 0 } }

/-- A test that a restart of the pegbox ends (R426): the hardware finishes the current work slice first. -/
def State.testFinish (s : State) (d : DieId) (t : Test) (status : Nat) : State :=
  let u := if t.isol && !t.paused && !t.copies then { t with done := t.done + min 250 ((if t.test = 5 && !t.half then halfWork else testWork t) - t.done) } else t
  (s.onDie d (fun x => x.setTest t u)).testCut d u .aborted status

/-- End one long operation of die d with a status, its work stopped where it stands (R141, R153, R183, R340, R370). -/
def State.abortOp (s : State) (d : DieId) (o : Op) (status : Nat) : State :=
  let x := s.die d
  let (c, h) := objSide o.obj
  match o.opcode with
  | 0x0301 => s.conclude d o status (b2n (x.port o.obj).sess) [0, (x.port o.obj).hostReady, (x.port o.obj).lineReady]
  | 0x0403 | 0x0404 => s.hoDrop d c h status
  | 0x0501 | 0x0502 => s.workAbort d c h o 1
  | 0x0503 => s.checkCut d o status
  | 0x0C01 | 0x0C03 =>
    (match x.bist.tests.find? (fun t => !t.auto_ && t.packet == o.packet) with
     | some t => s.testFinish d t status
     | none => s.conclude d o status 0 [])
  | 0x0C04 => s.fuseCut d o status
  | 0x0E01 | 0x0E02 => s.twiCut d o.obj status true
  | 0x0A01 => (s.onDie d Die.stageClear).conclude d o status 2 [0]
  | 0x0A02 =>
    let n := s.fwDone
    s.fwClear.conclude d o status (if n = 0 then 0 else 2) [n + 256 * s.fwBack]
  | 0x0D02 =>
    (s.onDie d (fun x => { x with brg := { x.brg with restoring := false, restStep := 0 } })).conclude d o status
      (if o.position = 0 then 0 else 2) []
  | _ => s.conclude d o status 0 []

/-- End every long operation of die d that satisfies f and has not ended in hardware. -/
def State.abortOps (s : State) (d : DieId) (f : Op → Bool) (status : Nat) : State :=
  ((s.die d).peg.ops.filter (fun o => o.phase != opOver && f o)).foldl (fun s o => s.abortOp d o status) s

/-! ### Settling (R340) -/

/-- Hand over the record of a short command that ended while the pegbox did not run. -/
def State.finishLate (s : State) (d : DieId) (op span : Nat) (r : Rec) : State :=
  let e : Ended := ⟨r.origin, r.queue, r.tag, op, r.status, r.effect, r.progress, span⟩
  let s := s.onDie d (fun x => (x.remember e).count (cPeg + 0x30))
  s.deliver d r

/-- A long operation that runs in hardware and goes on across a restart (R340): TRAIN_START, a handover whose window is
open, a PRBS check after its first lock; and, across an image swap, FW_ACTIVATE, whose record the new image posts (R338). -/
def Die.survives (x : Die) (swap : Bool) (o : Op) : Bool :=
  let (c, h) := objSide o.obj
  o.opcode == 0x0301 || (o.opcode == 0x0A02 && swap) || (o.opcode == 0x0503 && o.phase == 1)
    || ((o.opcode == 0x0403 || o.opcode == 0x0404) && (x.rot c h).phase == 4)

/-- Every command in execution on die d is settled, its pegbox running again after a restart or an image swap (R340). What ended in
hardware meanwhile is recorded first, in the order it ended. A test the device started itself ends too (R426). -/
def State.settle (s : State) (d : DieId) (swap : Bool) : State :=
  let late := (s.die d).peg.late
  let s := s.onDie d (fun x => { x with peg := { x.peg with late := [] } })
  let s := late.foldl (fun s r => s.finishLate d r.1 r.2.1 r.2.2) s
  let past := (s.die d).peg.ops.filter (fun o => o.phase == opOver)
  let s := past.foldl (fun s o => s.endOp d o o.status o.effect o.data) s
  let keep := (s.die d).peg.ops.filter (fun o => (s.die d).survives swap o)
  let s := s.abortOps d (fun o => !keep.contains o) stAborted
  let s := ((s.die d).bist.tests.filter (fun t => t.auto_)).foldl (fun s t => s.testCut d t .aborted stAborted) s
  (s.mcEnable d 0).mcEnable d 1

/-! ### The watchdog (R339) -/

/-- WATCHDOG_EXPIRY (R339): PEG_WDT.TIMEOUT × 1,024 strokes without a restart of the watchdog, so at least that long after the pegbox
started; the pegbox is reset; registers, staged values, queues and the datapath are left alone. When the firmware last completed its
main loop nothing shows: the row tells that the time is over (log entry 104). -/
def execWatchdogExpiry (d : DieId) (s : State) : Result :=
  .next (if present s.part d && s.running && (s.die d).pegRuns && (s.die d).stroke.resumed.isNone
      && (s.die d).peg.startAt + fld ((s.die d).act oWdt) 7 0 * 1024 ≤ s.stroke d then
    let now := s.stroke d
    (s.onDie d (fun x => { x with peg := { x.peg with state := 2, wdtAt := now, restarts := x.peg.restarts + 1 } })).count d (cPeg + 0x34)
  else s)

/-- The pegbox of die d runs its active image from now on. -/
def State.pegStart (s : State) (d : DieId) : State :=
  let now := s.stroke d
  s.onDie d (fun x => { x with peg := { x.peg with state := 1, startAt := now, swapped := none } })

/-- The dies FW_ACTIVATE named. -/
def State.fwMask (s : State) : Nat := match s.gsync with | none => 0 | some g => g.2

/-- The packet that carries T is still on the ring. -/
def State.fwInAir (s : State) : Bool :=
  s.air.any (fun f => match f.body with | .gcommit _ _ 3 => true | _ => false)

/-- The FW_ACTIVATE operation of a die. -/
def Die.actOp (x : Die) : Option Op := x.peg.ops.find? (fun o => o.opcode == 0x0A02 && o.phase != opOver)

/-- The minimum SECVER is raised in both mirrors (R338): the identity block is written. -/
def State.raiseMin (s : State) (d : DieId) (v : Nat) : State :=
  let m := s.nvMaster d
  let o := s.mirrorOf m
  if v ≤ (s.die m).nvs.minSec || s.nvWornAt m 0 then s
  else
    let up := s.mirrorUp m o
    let put := fun (x : Die) => { x with nvs := { x.nvs with minSec := v } }
    let s := (s.nvStore m 0 ((s.die m).nvWord 0)).onDie m put
    if up then s.onDie o put else s

/-- A die FW_ACTIVATE named has still to swap, or its new image has still to run. -/
def State.fwOpen (s : State) : Bool :=
  match s.gsync with
  | none => true
  | some (t, mask) => s.fwHeld || s.stroke s.leadDie < t || s.fwInAir
      || (s.diesOf mask).any (fun d => !bit (s.fwDone ||| s.fwBack) d.val && ((s.die d).peg.swapAt.isSome || (s.die d).peg.swapped.isSome))

/-- FW_ACTIVATE ends once every named die that swapped runs an image: the new one, or the old one again (R338). -/
def State.fwFinish (s : State) : State :=
  match s.fwOp with
  | none => s
  | some k =>
    if s.fwOpen || !(s.die k.die).pegRuns then s
    else match (s.die k.die).actOp with
      | none => s.fwClear
      | some o =>
        let all := s.fwDone = s.fwMask
        let data := s.fwDone + 256 * s.fwBack
        let sec := (s.diesOf s.fwMask).foldl (fun m d => max m (s.die d).peg.secA) 0
        let s := if all && bit (k.w 4) 8 then s.raiseMin k.die sec else s
        s.fwClear.conclude k.die o (if all then stDone else stIncomplete) (if s.fwDone = 0 then 0 else if all then 1 else 2) [data]

/-- PEG_RESTART (R338 to R340): at a boundary, which is the recovery point (R354), the pegbox resumes dispatch. After a watchdog expiry an EPOCH record and PEG_RESTART are
posted; after an image swap the new image reports running, within 1,024 strokes of T. The commands in execution are settled. -/
def execPegRestart (d : DieId) (rom : Bool) (s : State) : Result :=
  let p := (s.die d).peg
  .next (if present s.part d && s.running && s.pos = 0 && p.state == 2 then
    match p.swapped with
    | some t =>
      if t + 1024 < s.stroke d then s
      else
        let s := (s.pegStart d).post d 456 0x04 (65536 * (p.verA.toNat % 65536))
        let s := { s with fwDone := s.fwDone ||| dbit d }
        (s.settle d true).fwFinish
    | none =>
      let s := s.pegStart d
      let s := if rom then s.onDie d (fun x => { x with peg := { x.peg with romImg := true, verA := Config.romVersion, secA := 0 } }) else s
      let s := s.epoch d 1 (dbit d)
      let s := s.post d 456 0x01 (b2n rom + 65536 * sat16 (s.stroke d - p.wdtAt))
      (s.settle d false).fwFinish
  else s)

/-! ### OP_CANCEL (R334) -/

/-- A long operation that its chapter lets OP_CANCEL end now: the state, and whether this command ends it (R127, R141, R183,
R370, R426). A self-test ends at its next checkpoint. -/
def State.cancelOp (s : State) (d : DieId) (o : Op) : State × Bool :=
  let (c, h) := objSide o.obj
  match o.opcode with
  | 0x0301 =>
    let p := portId d o.obj
    if (s.port p).startAt.isSome && (s.port p).startOp then (s.stopStart p, true)
    else if (s.port p).sess then (s.onPort p (fun v => { v with abort := 7 }), true)
    else (s, false)
  | 0x0403 | 0x0404 => (s.hoDrop d c h stCancelled, true)
  | 0x0503 => (s.checkCut d o stCancelled, true)
  | 0x0E01 | 0x0E02 => (s.twiCancel d o.obj o, true)
  | 0x0C01 | 0x0C03 => (s.onDie d (fun x => x.mapOps (fun z => z == o) (fun z => { z with cancel := true })), true)
  | _ => (s, false)

/-- The outcome the named die keeps of a command. -/
def Die.endedOf (x : Die) (w : Nat) : Option Ended := x.peg.ended.find? (fun e => namesCmd w e.origin e.queue e.tag)

/-- OP_CANCEL's reply data (R334): the final status, whether this command ended the operation, whether it was found. -/
def cancelData (status : Nat) (mine found : Bool) : List Nat := [status + 256 * b2n mine + 512 * b2n found]

/-- Answer the OP_CANCEL commands whose operation has posted its final record (R334). An operation that ended with another
status than its cancellation gives was not ended by this command. -/
def State.cancelsAt (s : State) (d : DieId) : State :=
  ((s.die d).peg.awaits.filter (fun a => a.op == 0x0004)).foldl (fun s a =>
    let w := a.packet.w 4
    let x := s.die d
    if x.peg.ops.any (fun o => namesCmd w o.origin o.queue o.tag) then s
    else
      let st := match x.endedOf w with | some e => e.status | none => 0
      let mine := a.arg = 1 && st == stCancelled
      let s := s.onDie d (fun x => { x with peg := { x.peg with awaits := x.peg.awaits.erase a } })
      s.finishHw a.packet 0x0004 (mkRec a.packet stDone (b2n mine) (cancelData st mine true)) (s.stroke d - a.start)) s

/-- OP_CANCEL (R334): ends a long operation where its chapter allows; answered once that has posted its final record. -/
def execOpCancel (k : Packet) (s : State) : Result :=
  .next (s.command0 k 0x0004 (fun s =>
    let w := k.w 4
    let x := s.die k.die
    if 2 ^ 21 ≤ w then s.refuse k 0x0004 stBadParam
    else match x.peg.ops.find? (fun o => namesCmd w o.origin o.queue o.tag) with
      | some o =>
        let r := s.cancelOp k.die o
        (r.1.await k 0x0004 0 (b2n r.2)).cancelsAt k.die
      | none =>
        match x.endedOf w with
        | some e => s.done k 0x0004 0 (cancelData e.status false (isLong e.opcode k || e.opcode == 0x0A01 || e.opcode == 0x0502))
        | none => s.done k 0x0004 0 (cancelData 0 false false)))

/-! ### Staging (R335 to R337) -/

/-- Bytes of an image at most (R335). -/
def fwMax : Nat := 196608

/-- A field of a staged image, least significant byte first (log entry 16). -/
def Peg.imgField (p : Peg) (off n : Nat) : Nat := Memory.readLE p.stBytes off n

/-- The LAST of a session is being verified or copied. -/
def Die.lastOp (x : Die) : Option Op := x.peg.ops.find? (fun o => o.opcode == 0x0A01 && o.phase != opOver)

/-- FW_ACTIVATE runs. -/
def State.activating (s : State) : Bool := s.fwOp.isSome

/-- The access die with an open staging session (R336: one in the package). -/
def State.stager (s : State) : Option DieId := s.dieList.find? (fun d => (s.die d).peg.staging)

/-- The die that closes a session of access die d and posts it: d itself, or where d is out of reach the lead pegbox, the other access
die where d leads (R337). -/
def State.stageCloser (s : State) (d : DieId) : DieId :=
  let other := if d = 0 then otherAccess s.part else 0
  if s.lead = some d && !s.reachable other d then other else
  if s.reachable s.leadDie d && s.lead.isSome then d
  else if s.leadDie ≠ d then s.leadDie else if d = 0 then otherAccess s.part else 0

/-- A session closes without its LAST (R337): FW_REJECTED, reason 5. -/
def State.closeStage (s : State) (d : DieId) : State :=
  if (s.die d).peg.staging then (s.onDie d Die.stageClear).post (s.stageCloser d) 456 0x03 5 else s

/-- The chunk of a packet is copied (R336): its bytes at OFFSET, and the words it covers. -/
def Die.stageChunk (x : Die) (k : Packet) (now : Nat) : Die :=
  let off := bits (k.w 4) 17 0
  let n := k.length.toNat - 6
  let go := fun (p : Peg) (i : Nat) =>
    { p with stBytes := Memory.writeLE p.stBytes (off + 4 * i) 4 (k.w (6 + i)),
             stCover := if p.stCover.contains (off / 4 + i) then p.stCover else (off / 4 + i) :: p.stCover }
  { x with peg := { (List.range n).foldl go x.peg with stLast := now } }

/-- FW_STAGE with ABORT = 1 (R337). -/
def State.stageAbort (s : State) (k : Packet) : State :=
  if bit (k.w 4) 18 || bit (k.w 4) 19 then s.refuse k 0x0A01 stBadParam [3]
  else if k.length.toNat ≠ 6 then s.refuse k 0x0A01 stBadParam
  else if s.activating || s.dieList.any (fun d => (s.die d).lastOp.isSome) then s.refuse k 0x0A01 stBusy
  else match s.stager with
    | none => s.done k 0x0A01 0 []
    | some d => (s.closeStage d).done k 0x0A01 1 []

/-- The half under test holds the standby region (R424): the wait BUSY_SELFTEST gives. -/
def Die.regionTest (x : Die) : Option Test := x.bist.tests.find? (fun t => t.test == 5)

/-- FW_STAGE with ABORT = 0 (R336): the session's own queue and access die alone may use it. -/
def State.stageChunks (s : State) (k : Packet) : State :=
  let d := k.die
  let w := k.w 4
  let off := bits w 17 0
  let p := (s.die d).peg
  let mine := match s.stager with
    | none => true
    | some a => a == d && p.stOrigin == k.origin && p.stQueue == k.queue
  if s.activating || !mine || (s.die d).lastOp.isSome then s.refuse k 0x0A01 stBusy
  else match (s.die d).regionTest with
    | some t => s.refuse k 0x0A01 stBusyTest [t.wait]
    | none =>
      if off % 4 ≠ 0 || bits w 31 22 ≠ 0 || fwMax < off + 4 * (k.length.toNat - 6) || (!bit w 18 && !p.staging) then
        s.refuse k 0x0A01 stBadParam [3]
      else
        let now := s.stroke d
        let s := if bit w 18 then (s.closeStage d).onDie d (fun x =>
            { x.stageClear with peg := { x.stageClear.peg with staging := true, stOrigin := k.origin, stQueue := k.queue } }) else s
        let put := fun (s : State) => s.onDie d (fun x => x.stageChunk k now)
        if bit w 19 then
          (if 64 ≤ (s.die d).peg.ops.length then s.refuse k 0x0A01 stBusy else put (s.accept k 0x0A01 0 0 [0]))
        else (put s).done k 0x0A01 1 []

/-- FW_STAGE's rules, by ABORT (R336, R337). -/
def State.fwStage (s : State) (k : Packet) : State :=
  s.command k 0x0A01 (fun s =>
    if k.target ≠ 0 || !isAccess s.part k.die then s.refuse k 0x0A01 stBadTarget
    else if bit (k.w 4) 21 then s.stageAbort k
    else s.stageChunks k)

/-- FW_STAGE (R336). -/
def execFwStage (k : Packet) (s : State) : Result := .next (s.fwStage k)

/-- FW_STAGE_ABORT (R337): FW_STAGE with ABORT = 1. -/
def execFwStageAbort (k : Packet) (s : State) : Result := .next (s.fwStage k)

/-- The access die of a session is unreachable or lost: from the lead, or, where it leads itself, from the other access die (R337). -/
def State.stagerGone (s : State) (d : DieId) : Bool :=
  !s.reachable s.leadDie d || (s.lead = some d && !s.reachable (if d = 0 then otherAccess s.part else 0) d)

/-- STAGING_SESSION_TIMEOUT (R337): 976,563 strokes without a chunk before its LAST, or at any time its access die unreachable or lost;
a LAST under way ends with it. -/
def execStagingSessionTimeout (s : State) : Result :=
  .next (match s.stager with
    | none => s
    | some d =>
      if s.running && (((s.die d).lastOp.isNone && (s.die d).peg.stLast + 976563 ≤ s.stroke d) || s.stagerGone d) then
        let o := (s.die d).lastOp
        let s := s.closeStage d
        match o with
        | some o => s.abortOp d o stAborted
        | none => s
      else s)

/-- The bytes of an image of `len` code bytes, as received (R335). -/
def Peg.imgBytes (p : Peg) (len : Nat) : List Byte := (List.range (128 + len)).map (fun i => SMap.get 0 p.stBytes i)

/-- Why an image is rejected (R335, R336), 0 when it is good: 3 header or length, 4 bytes missing, 2 SECVER, 1 signature. -/
def Peg.imageFault (p : Peg) (minSec : Nat) : Nat :=
  let len := p.imgField 12 4
  if p.imgField 0 4 ≠ 0x4E4F4C31 || len < 4 || 196480 < len || len % 4 ≠ 0 then 3
  else if (List.range ((128 + len) / 4)).any (fun i => !p.stCover.contains i) then 4
  else if p.imgField 8 1 < minSec then 2
  else if !Config.imageSigned (p.imgBytes len) then 1
  else 0

/-- A verified image enters the standby region of a die (R336). -/
def Die.standby (x : Die) (ver sec : Nat) : Die :=
  { x with peg := { x.peg with sbValid := true, romS := false, verS := BitVec.ofNat 32 ver, secS := sec } }

/-- The image is written to the patch region of both mirrors (R336, R484): the state, and whether every word was written. -/
def State.persist (s : State) (d : DieId) (img : SMap Byte) (len : Nat) : State × Bool :=
  let n := (128 + len + 7) / 8
  let m := s.nvMaster d
  let o := s.mirrorOf m
  let up := s.mirrorUp m o
  let r := s.nvStores m 0xA1000 ((List.range n).map (fun i => Memory.readLE img (8 * i) 8))
  let put := fun (x : Die) => { x with nvs := { x.nvs with patch := r.2 == n } }
  let s := r.1.onDie m put
  (if up then s.onDie o put else s, r.2 == n)

/-- LAST has copied the image: it enters the standby region of every named die it reached, it is written to the mirrors where PERSIST asks,
whatever it reached, and the final record is posted (R336). Where a mirror is worn that is NV_WORN, also if a die was not reached (log
entry 17). -/
def State.stageDone (s : State) (d : DieId) (o : Op) : State :=
  let k := o.packet
  let p := (s.die d).peg
  let ver := p.imgField 4 4
  let mask := k.w 5 % 256
  let named := if mask = 0 then s.reachMask d else mask
  let got := (s.diesOf named).filter (fun b => s.reaches d b)
  let reached := got.foldl (fun m b => m + dbit b) 0
  let s := s.onDie d Die.stageClear
  let s := got.foldl (fun s b => s.onDie b (fun x => x.standby ver (p.imgField 8 1))) s
  let (s, kept) := if bit (k.w 4) 20 then s.persist d p.stBytes (p.imgField 12 4) else (s, true)
  let o := { o with position := 1000 }
  if !kept then s.endOp d o stWorn 2 []
  else if reached ≠ named then s.endOp d o stIncomplete 2 [0, (named &&& (255 ^^^ reached)) % 256]
  else (s.post d 456 0x02 (reached + 65536 * (ver % 65536))).endOp d o stDone 1 []

/-- The LAST of a session at a boundary (R336): the image is checked at the first, which starts the copy; the copy goes on with PROGRESS
in per-mille, for a time the spec does not give (log entry 17). -/
def State.stageLast (s : State) (d : DieId) : State :=
  match (s.die d).lastOp with
  | none => s
  | some o =>
    let p := (s.die d).peg
    let all := Config.copyStrokes (p.imgField 12 4)
    let now := s.stroke d
    if !(s.die d).pegRuns then s
    else if o.phase = 0 then
      let bad := p.imageFault (s.die (s.nvMaster d)).nvs.minSec
      if bad = 0 then s.onDie d (fun x => x.mapOps (fun z => z == o) (fun z => { z with phase := 1, from_ := now }))
      else ((s.onDie d Die.stageClear).post d 456 0x03 bad).endOp d o stBadParam 0 [bad]
    else if now < o.from_ + all then s.progress d o ((now - o.from_) * 1000 / all)
    else s.stageDone d o

/-! ### Activation (R338) -/

/-- The lead pegbox chooses T, the 64th boundary from now (log entry 17), and carries it to the named dies as a global commit is carried
(R36, R338). -/
def State.fwSend (s : State) (mask : Nat) : State :=
  let l := s.leadDie
  let t := s.stroke l + 64
  let s := ({ s with gsync := some (t, mask), fwHeld := false }).broadcast l (.gcommit t mask 3)
  s.onDie l (fun x => x.schedule l t mask 3)

/-- Release the T that the lead holds during a ring failover (R37). -/
def State.fwRelease (s : State) (d : DieId) : State :=
  if s.fwHeld && d == s.leadDie && !s.globalHeld d then s.fwSend s.fwMask else s

/-- FW_ACTIVATE (R338): T is carried to the named dies; every access die stops fetching. -/
def execFwActivate (k : Packet) (s : State) : Result :=
  .next (s.command0 k 0x0A02 (fun s =>
    let w := k.w 4
    let all := (s.dieList.filter (fun d => (s.die d).peg.sbValid && s.reachable k.die d)).foldl (fun m d => m + dbit d) 0
    let mask := if w % 256 = 0 then all else w % 256
    if 512 ≤ w then s.refuse k 0x0A02 stBadParam
    else if s.stager.isSome || s.activating || s.dieList.any (fun d => (s.die d).lastOp.isSome) then s.refuse k 0x0A02 stBusy
    else if mask = 0 || mask &&& all ≠ mask then s.refuse k 0x0A02 stNotReady
    else s.start k 0x0A02 0 0 [] (fun s =>
      let s := { s with fwOp := some k, fwDone := 0, fwBack := 0 }
      let s := if s.globalHeld s.leadDie then { s with gsync := some (0, mask), fwHeld := true } else s.fwSend mask
      let hold := fun (s : State) (d : DieId) => s.onDie d (fun x =>
        { x with q0 := { x.q0 with drain := true }, q1 := { x.q1 with drain := true }, q2 := { x.q2 with drain := true } })
      hold (hold s 0) (otherAccess s.part))))

/-- The regions of a die swap: the standby image becomes active and the active one standby (R338). -/
def Peg.swap (p : Peg) : Peg :=
  { p with region := !p.region, verA := p.verS, verS := p.verA, secA := p.secS, secS := p.secA, sbValid := true, romImg := p.romS, romS := p.romImg }

/-- FW_SWAP (R338): at the boundary T a named die swaps its regions; its pegbox does not run until the new image does. -/
def execFwSwap (d : DieId) (s : State) : Result :=
  .next (match (s.die d).peg.swapAt with
    | none => s
    | some t =>
      if present s.part d && s.running && s.pos = 0 && t ≤ s.stroke d then
        let now := s.stroke d
        let s := s.onDie d (fun x =>
          { x with peg := { x.peg.swap with state := 2, swapAt := none, swapped := some t, wdtAt := now } })
        (s.count d (cPeg + 0x38)).epoch d 2 (dbit d)
      else s)

/-- FW_REVERTED (R338): a new image that does not run within 1,024 strokes of T is swapped back; the old image runs again and
its operations are settled. -/
def execFwReverted (d : DieId) (s : State) : Result :=
  .next (match (s.die d).peg.swapped with
    | none => s
    | some t =>
      if present s.part d && s.running && s.pos = 0 && (s.die d).peg.state == 2 && t + 1024 ≤ s.stroke d then
        let s := s.onDie d (fun x => { x with peg := { x.peg.swap with sbValid := false } })
        let s := (s.count d (cPeg + 0x38)).epoch d 3 (dbit d)
        let s := (s.pegStart d).post d 456 0x05 (65536 * ((s.die d).peg.verA.toNat % 65536))
        let s := { s with fwBack := s.fwBack ||| dbit d }
        (s.settle d true).fwFinish
      else s)

end Sys2Proof.Machine
end

