-- ==== Sys2Proof/Machine/Apply.lean ====
section
/-! DEFINITION. A port leaves and enters service, and the application of commit groups at a boundary with the refusal
rules of the owning chapters (R31, R34, R58, R69, R75, R92, R111, R117, R182, R199, R216, R255, R257, R287, R303, R310,
R322, R384, R387, R389). -/

namespace Sys2Proof.Machine

/-! ### A port out of service and in service (R58) -/

/-- The lattice of a course goes OFF with its port (R209, R227): what a session measured stays readable. -/
def Lattice.off (l : Lattice) (now : Nat) : Lattice :=
  { l with state := 0, changed := now, pos := 15, txFrames := false, agree := 0, found := false, announced := false, svcOut := [],
           sess := false, spos := 15, here := false, retryAt := none, disarm := false, byAgree := false, lane := {} }

/-- A course's lattice port enters service (R212, R226): sessions and measured waits count from its enable, which lets it arm again (R224). -/
def Lattice.fresh (l : Lattice) : Lattice :=
  { l with singles := 0, nonzero := 0, skew := 0, ofs := Vector.replicate 9 0, noArm := false }

/-- The pins of a port, with their sides. -/
def Die.portPins (x : Die) (n : Nat) : List (Side × Nat) :=
  (x.portHost n).map (fun j => (Side.host, j))
    ++ (x.portLine n ++ (if hasLattice (x.cfga n) then [8] else [])).map (fun j => (Side.line, j))

/-- The transmitters of a port. -/
def Die.portTxs (x : Die) (n : Nat) : List Nat := (x.portPins n).map (fun q => txOf (n / 8) q.1 q.2)

/-- A port that carried leaves CARRYING and DEGRADED: engines and meters stop, lattice and gearbox sessions end, and no
loss action is left (R62, R196, R200, R209, R413). -/
def State.leaveService (s : State) (p : PortId) : State :=
  if !(s.port p).carrying then s
  else
    let d := p.die
    let n := p.key
    let c := p.course.val
    let x := s.die d
    let s := (s.meterPause p .host).meterPause p .line
    let s := s.onPort p (fun v => { v.fecIdle with svcH := 0, svcL := 0 })
    let v := x.course c
    let s := if hasLattice (x.cfga n) then s.setCourse d c { v with lat := v.lat.off (s.stroke d) } else s
    let s := if hasGearbox (x.cfga n) then
        (x.portLine n).foldl (fun s k => s.onGbx d c k (fun g => { g with phses := false, lane := {} })) s
      else s
    (x.portTxs n).foldl (fun s t => s.setTx d t { ((s.die d).tx t) with single := false }) s

/-- No transmitter of a port has a loss action, and none is held by a pair slip (R62, R234, R244). -/
def State.clearLoss (s : State) (p : PortId) : State :=
  let s := ((s.die p.die).portTxs p.key).foldl (fun s t => s.setTx p.die t { ((s.die p.die).tx t) with lossAct := 0 }) s
  if hasGearbox ((s.die p.die).cfga p.key) then
    ((s.die p.die).portLine p.key).foldl (fun s k => s.onGbx p.die p.course.val k (fun g => { g with slip := false })) s
  else s

/-- The gearbox lanes of a port that leaves service hold no phase, fill or session (R236, R244: a lane's lock ends with its slice's
park). -/
def State.gbxOff (s : State) (p : PortId) : State :=
  if hasGearbox ((s.die p.die).cfga p.key) then
    ((s.die p.die).portLine p.key).foldl (fun s k => s.onGbx p.die p.course.val k (fun _ => {})) s
  else s

/-- The port whose lane an operation on a slice or course side works on: of its pin, or of the transmitter it taps. -/
def Die.opPort (x : Die) (o : Op) : Option Nat :=
  let q : Option (Nat × Side × Nat × Bool) :=
    if o.opcode = 0x0503 && !o.byTap && (x.posOf o.obj).isSome then none
    else
      let (c, h) := if o.opcode = 0x0503 then (sliceCourse o.obj, sliceSide o.obj) else objSide o.obj
      let r := x.rot c h
      some (if r.want = 1 then (c, h, r.wantPos, r.wantTap) else (c, h, r.pos, r.tap))
  match q with
  | none => (x.slicePort o.obj).map (fun p => p.1)
  | some (c, h, j, _) => x.owner c h j

/-- PRBS checks of a disabled port end with ABORTED_RECOVERY (R64, R127). -/
def State.cutChecks (s : State) (p : PortId) : State :=
  let x := s.die p.die
  (x.peg.ops.filter (fun o => o.opcode == 0x0503 && o.phase != opOver && x.opPort o == some p.key)).foldl
    (fun s o => s.checkCut p.die o stAborted) s

/-- Self-tests of the framers or a transmitter of a disabled port end with ABORTED (R426). -/
def State.cutTests (s : State) (p : PortId) : State :=
  let x := s.die p.die
  (x.bist.tests.filter (fun t => (t.test == 6 && t.target % 64 == p.key) || (t.test == 2 && (x.portTxs p.key).contains t.target))).foldl
    (fun s t => s.testCut p.die t .aborted stAborted) s

/-- A port moves to DISABLED (R46, R58, R64, R74, R96, R413): its operations and sessions end, its pin records are invalid,
its slices park and its lanes power down. -/
def State.portOff (s : State) (p : PortId) (reason : Nat) : State :=
  let d := p.die
  let n := p.key
  let x := s.die d
  let v := s.port p
  let s := if v.sess then s.trainEnd p stCancelled 2 0 0 else s.startEnd p stCancelled 0 0
  let s := (s.cutChecks p).cutTests p
  let s := ((((s.leaveService p).clearLoss p).gbxOff p).dirOff p .host).dirOff p .line
  let s := s.storesSet p false
  let s := (x.portPins n).foldl (fun s q =>
    let m := (s.die d).serving (n / 8) q.1 q.2
    let s := s.onDie d (fun x => x.setPin (pinKey (n / 8) q.1 q.2) { (x.pin (pinKey (n / 8) q.1 q.2)) with valid := false })
    s.parkSlice d m) s
  let s := s.portMove p 0 reason
  s.onPort p (fun v =>
    { (v.endSess false) with
      hostPres := false, linePres := false, kind := 0, startAt := none, startOp := false,
      noRetry := false, failed := false, retryAt := none, latUnav := false, modes := 0, caps := 0,
      hLost := 0, lLost := 0, hNew := 0, lNew := 0, hFrame := false, lFrame := false, hQuiet := 0, lQuiet := 0, hQuietAt := 0, lQuietAt := 0,
      hFramers := [], lFramers := [], h2l := v.h2l.meterOff, l2h := v.l2h.meterOff })

/-- A port with a valid profile enters VACANT (R58): its lanes are powered up and detection starts. -/
def State.portOn (s : State) (p : PortId) (reason : Nat) : State :=
  let d := p.die
  let c := p.course.val
  let x := s.die d
  let s := s.onPort p (fun v =>
    { v with losts := 0, sessions := 0, reason := 0, h2l := v.h2l.meterClear, l2h := v.l2h.meterClear })
  let s := (s.gbxOff p).storesSet p true
  let s := if hasLattice (x.cfga p.key) then s.setCourse d c { x.course c with lat := (x.course c).lat.fresh } else s
  s.portMove p 1 reason

/-! ### The value a commit is judged against (R284, R303, R310) -/

/-- The value in use, or on an isolated die the ledger image (R284). -/
def Die.cur (x : Die) (o : Nat) : Half := if x.brg.isolated then x.led o else x.act o

/-- The value after the commit: the staged one when one is pending. -/
def Die.after (x : Die) (o : Nat) : Half := (x.stg o).getD (x.cur o)

/-- Replace a staged value by what the rules leave of it. -/
def Die.restage (x : Die) (o : Nat) (v : Half) : Die := { x with staged := SMap.ins x.staged o v }

/-- Discard a staged value. -/
def Die.unstage1 (x : Die) (o : Nat) : Die := { x with staged := x.staged.filter (fun p => p.1 != o) }

/-- A committed value is put into use and into the ledger; on an isolated die into the ledger only (R284, R310). -/
def Die.commit (x : Die) (o : Nat) (v : Half) : Die :=
  let y := if x.brg.isolated then x else x.setAct o v
  y.setLed o v

/-- The staged registers of a group, in ascending offset. -/
def Die.stagedOf (x : Die) (g : Nat) : List Nat := (x.staged.filter (fun p => groupOf p.1 == some g)).map (fun p => p.1)

/-! ### Refused values of single registers -/

/-- CTLE codes 41 to 63 and 13 to 15 are reserved (R75): each such field keeps its value. -/
def fixCtle (old new : Half) : Half :=
  let v := if 40 < fld new 5 0 then setFld new 5 0 (fld old 5 0) else new
  if 12 < fld new 11 8 then setFld v 11 8 (fld old 11 8) else v

/-- The fields that a refused commit keeps, by register: the new value, and the event's source, cause and data. BANK_PERIOD = 0 lies
outside R154's range, which names no outcome: the commit is accepted (DESIGN CHOICE, log entry 100). -/
def State.fixReg (s : State) (d : DieId) (sel : RegSel) (old new : Half) : Half × Option (Nat × Nat × Nat) :=
  let x := s.die d
  match sel.row.id with
  | .rxCtle => let v := fixCtle old new; (v, if v = new then none else some (sel.inst, 0x0A, sel.blockOffset))
  | .rxSd => if fld new 5 0 ≤ fld new 11 6 then (old, some (sel.inst, 0x0A, sel.blockOffset)) else (new, none)
  | .txCtl =>
    if 6 ≤ fld new 4 2 then (setFld new 4 2 (fld old 4 2), some (152 + sel.inst, 0x02, sel.blockOffset)) else (new, none)
  | .hoCfg => (if fld new 7 0 = 0 then setFld new 7 0 (fld old 7 0) else new, none)
  | .dpCfg => (if fld new 4 0 = 0 || 25 ≤ fld new 4 0 then setFld new 4 0 (fld old 4 0) else new, none)
  | .latCfg => (if fld new 3 0 < 2 || 8 < fld new 3 0 then setFld new 3 0 (fld old 3 0) else new, none)
  | .clkCfg => if fld new 1 0 = 3 then (setFld new 1 0 (fld old 1 0), some (360, 0x06, 2 * 3)) else (new, none)
  | .brgCfg =>
    let v := if lanesIn (fld new 3 0) < 3 then setFld new 3 0 (fld old 3 0) else new
    (if lanesIn (fld new 7 4) < 3 then setFld v 7 4 (fld old 7 4) else v, none)
  | .pegWdt => (if fld new 7 0 = 0 then old else new, none)
  | .evtVec => (if fld new 4 0 = 0 then old else new, none)
  | .twiMcfg =>
    let v := if fld new 2 1 = 3 then setFld new 2 1 (fld old 2 1) else new
    (if fld new 9 3 = 0 || 100 < fld new 9 3 then setFld v 9 3 (fld old 9 3) else v, none)
  | .hkTcrit => (if fld new 7 0 < 85 || 125 < fld new 7 0 then setFld new 7 0 (fld old 7 0) else new, none)
  | .hkSeqcfg =>
    let t := fld new 5 4
    if t = 3 || (t = 1 && x.stg (oSeqN sel.inst) = none && x.cur (oSeqN sel.inst) = 0) then
      (setFld new 5 4 (fld old 5 4), some (408, 0x04, sel.blockOffset))
    else (new, none)
  | .hkSeqn =>
    let t := fld (x.after (oSeqCfg sel.inst)) 5 4
    if new = 0 && t = 1 then (old, some (408, 0x04, sel.blockOffset)) else (new, none)
  | _ => (new, none)

/-- Hold one staged register against the rules of its own chapter. -/
def State.judgeReg (s : State) (d : DieId) (o : Nat) : State :=
  let x := s.die d
  match x.stg o, lookup o with
  | some v, some sel =>
    let r := s.fixReg d sel (x.cur o) v
    let s := if r.1 = v then s else s.onDie d (fun x => x.restage o r.1)
    match r.2 with
    | some (src, cause, data) => s.post d src cause data
    | none => s
  | _, _ => s

/-- A tap set that is not valid keeps all six TX_FFE registers of its transmitter (R111). -/
def State.judgeTaps (s : State) (d : DieId) (t : Nat) : State :=
  let x := s.die d
  let l := (List.range 6).map (fun k => oTap t k)
  let set_ := (List.range 6).map (fun k =>
    let v := fld (x.after (oTap t k)) 6 0
    if k = 3 then (v : Int) else signed 7 v)
  match l.find? (fun o => (x.stg o).isSome) with
  | none => s
  | some o =>
    if tapsValid set_ then s
    else (s.onDie d (fun x => l.foldl (fun x o => x.unstage1 o) x)).postTx d t 0x02 (o % 0x200)

/-- A PWM channel whose PHASE would exceed PER keeps all its values (R389). -/
def State.judgePwm (s : State) (d : DieId) (p : Nat) : State :=
  let x := s.die d
  let l := (List.range 4).map (fun k => oPwm p k)
  if l.any (fun o => (x.stg o).isSome) && (x.after (oPwm p 1)).toNat < (x.after (oPwm p 3)).toNat then
    (s.onDie d (fun x => l.foldl (fun x o => x.unstage1 o) x)).post d (410 + p) 0x01
      (pair (x.after (oPwm p 3)).toNat (x.after (oPwm p 1)).toNat)
  else s

/-! ### Ports in a commit (R69) -/

/-- The port is enabled in the committed image and not held DISABLED by its profile. -/
def Die.heldOn (x : Die) (c i : Nat) : Bool :=
  fld (x.cur (oPctl c i)) 0 0 == 1 &&
    (if x.brg.isolated then
      let prof := fun j => (⟨x.led (oCfga c j), x.led (oCfgb c j), x.led (oBudget c j), x.led (oMapLo c j), x.led (oMapHi c j)⟩ : Profile)
      profileRule (prof i) (((List.range 8).filter (fun j => j != i && isDefined (x.led (oCfgb c j)))).map prof) == 0
    else (x.port (8 * c + i)).enabled)

/-- The profile and polarity registers of a port. -/
def profileRegs (c i : Nat) : List Nat :=
  [oCfga c i, oCfgb c i, oBudget c i, oMapLo c i, oMapHi c i, oPolh c i, oPoll c i]

/-- The staged value that R69 leaves of a profile register on a port that stays enabled: ATTACH and LOSS_ACT change, LOSS_ACT
not to its reserved code. -/
def keepProfile (cfga : Bool) (old new : Half) : Half :=
  if cfga then
    let v := setFld old 13 13 (fld new 13 13)
    if lossAct new = 3 then v else setFld v 15 14 (fld new 15 14)
  else old

/-- Hold the staged profile of a port that stays enabled against R69: CFG_REJECTED for each register whose discarded value
differed. -/
def State.judgeProfile (s : State) (p : PortId) : State :=
  let (c, i) := (p.course.val, p.idx.val)
  let x := s.die p.die
  if x.heldOn c i && fld (x.after (oPctl c i)) 0 0 = 1 then
    (profileRegs c i).foldl (fun s o =>
      match (s.die p.die).stg o with
      | none => s
      | some v =>
        let w := keepProfile (o == oCfga c i) ((s.die p.die).cur o) v
        let s := s.onDie p.die (fun x => x.restage o w)
        if w = v then s else s.postPort p 0x07 (o % 0x1000)) s
  else s

/-- A port whose EN commits from 1 to 0 is disabled before the commit changes its profile (R69); its key is answered. -/
def State.offBefore (s : State) (p : PortId) : State × List Nat :=
  let x := s.die p.die
  if !x.brg.isolated && (x.port p.key).enabled && fld (x.after (oPctl p.course.val p.idx.val)) 0 0 = 0 then
    (s.portOff p 1, x.portTxs p.key)
  else (s, [])

/-- MODE_OVR of the transmitters of a port that a commit has moved to DISABLED is 0 (R114). -/
def Die.clearOvr (x : Die) (l : List Nat) : Die :=
  l.foldl (fun x t => x.commit (oTx t 0) (setFld (x.cur (oTx t 0)) 1 0 0)) x

/-- PROFILE_BAD and INVALID_RULE of a port show its committed profile (R70). An index that is neither defined nor enabled has
none, and they read their reset value 0 (DESIGN CHOICE, log entry 66). -/
def State.profileAt (s : State) (p : PortId) : State :=
  let (c, i) := (p.course.val, p.idx.val)
  let x := s.die p.die
  let rule := if isDefined (x.act (oCfgb c i)) || fld (x.act (oPctl c i)) 0 0 == 1 then x.ruleOf c i else 0
  s.onPort p (fun v => { v with bad := rule != 0, badRule := rule })

/-- A port after the values of its group are applied (R58, R69): enabled by a valid profile, held DISABLED by an invalid one.
`hit`: the commit carried a value of its profile or of PORT_CTL. -/
def State.onAfter (s : State) (p : PortId) (hit : Bool) : State :=
  let (c, i) := (p.course.val, p.idx.val)
  let x := s.die p.die
  let en := fld (x.cur (oPctl c i)) 0 0 == 1
  if x.brg.isolated then s
  else
    let s := s.profileAt p
    let rule := x.ruleOf c i
    if !en || (x.port p.key).enabled then s
    else if rule = 0 then s.portOn p 1
    else if hit then s.postPort p 0x08 rule
    else s

/-- On an isolated die an invalid profile committed with EN = 1 is reported too (R69, R284). -/
def State.onAfterIsolated (s : State) (p : PortId) (hit : Bool) : State :=
  let (c, i) := (p.course.val, p.idx.val)
  let x := s.die p.die
  if x.brg.isolated && hit && fld (x.led (oPctl c i)) 0 0 == 1 && !x.heldOn c i then
    let prof := fun j => (⟨x.led (oCfga c j), x.led (oCfgb c j), x.led (oBudget c j), x.led (oMapLo c j), x.led (oMapHi c j)⟩ : Profile)
    s.postPort p 0x08 (profileRule (prof i) (((List.range 8).filter (fun j => j != i && isDefined (x.led (oCfgb c j)))).map prof))
  else s

/-! ### Values that stay staged (R182, R257) -/

/-- A staged value that this commit does not apply: the swing and taps of a transmitter in a session, and a changed
soundpost trim while SYS runs from the soundpost. -/
def Die.keptStaged (x : Die) (o : Nat) : Bool :=
  match lookup o with
  | none => false
  | some sel =>
    match sel.row.id with
    | .txSwing => !x.brg.isolated && x.txTrains sel.inst
    | .txFfe => !x.brg.isolated && x.txTrains sel.inst
    | .clkSptrim => x.clk.sysUse == 2 && x.after o != x.cur o
    | _ => false

/-- Apply the staged registers l of group g: each value that is not kept staged is committed; the group's pending bit stays
only for what is kept (R303). -/
def Die.applyRegs (x : Die) (g : Nat) (l : List Nat) : Die :=
  let kept := l.filter (fun o => x.keptStaged o)
  let y := (l.filter (fun o => !kept.contains o)).foldl (fun y o =>
    match y.stg o with
    | none => y
    | some v => (y.commit o v).unstage1 o) x
  { y with pend := if kept.isEmpty then y.pend &&& (0xFFFF ^^^ 2 ^ g) else y.pend }

/-! ### What follows from the applied values -/

/-- A queue is enabled or disabled by its commit (R322): the enable empties its indices; while it is disabled its records are
discarded. -/
def State.queueAt (s : State) (d : DieId) (n : QueueId) : State :=
  let q := (s.die d).queue n
  let en := fld ((s.die d).act (oQcfg n.val)) 0 0 == 1
  if en == q.enabled then s
  else if en then
    s.setQueue d n { q with enabled := true, sqTail := 0, sqHead := 0, cqHead := 0, cqTail := 0, phase := true }
  else
    let lost := q.waiting
    let s := s.setQueue d n { q with enabled := false, waiting := [] }
    let s := lost.foldl (fun s r => s.setQueue d n (((s.die d).queue n).settle r)) s
    s.startHeld d n

/-- The PWM channels with a staged value. -/
def pwmHit (l : List Nat) : List Nat := (List.range 8).filter (fun p => (List.range 4).any (fun k => l.contains (oPwm p k)))

/-- The hardware takes up the registers l that a commit has applied to a die in service. -/
def State.takeUp (s : State) (d : DieId) (g : Nat) (old : Die) (l : List Nat) : State :=
  if g = 2 then
    let s := if l.contains oClkCfg then s.clkSelect d (fld ((old.stg oClkCfg).getD 0) 1 0 == 3) else s
    if l.contains oSptrim && old.act oSptrim != (s.die d).act oSptrim then s.spRestart d else s
  else if g = 4 && isAccess s.part d then ((s.queueAt d 0).queueAt d 1).queueAt d 2
  else if g = 5 then
    let s := [0, 1].foldl (fun s n =>
      if seqEn (old.act (oSeqCfg n)) && !seqEn ((s.die d).act (oSeqCfg n)) then s.onHk d (fun v => v.disable n) else s) s
    s.onHk d (fun v => { v with dueLoad := (pwmHit l).foldl (fun m p => m ||| 2 ^ p) v.dueLoad })
  else if g = 6 then
    [0, 1].foldl (fun s m =>
      if !l.contains (oMcfg m) then s
      else if (s.die d).mcEn m then s.mcEnable d m
      else if old.mcEn m then s.mcDisable d m
      else s) s
  else s

/-- A commit of DP_CFG restarts the count of both directions at the next window (R199). -/
def State.dpRestart (s : State) (d : DieId) (c : Nat) (l : List Nat) : State :=
  (List.range 8).foldl (fun s i =>
    if l.contains (oDp c i) then
      let f := fun (v : DirSt) => { v with degCount := 0, degWhole := false }
      s.onPort (portId d (8 * c + i)) (fun v => { v with h2l := f v.h2l, l2h := f v.l2h })
    else s) s

/-- Which transmitters of course c have a newly committed override that a session holds (R114). -/
def State.heldOverrides (s : State) (d : DieId) (l : List Nat) : State :=
  (l.filter (fun o => 0x50000 ≤ o && (o - 0x50000) % 0x200 = 0)).foldl (fun s o =>
    let t := (o - 0x50000) / 0x200
    let x := s.die d
    if x.ovr t ≠ 0 && x.txTrains t then s.postTx d t 0x03 (x.ovr t) else s) s

/-- An open handover window whose slices a commit changes (R140 reason 5). -/
def State.windowHits (s : State) (d : DieId) (c : Nat) (l : List Nat) : State :=
  let hit := fun (n : Nat) => l.any (fun o => 0x20000 ≤ o && o < 0x50000 && (o - 0x20000) / 0x400 = n)
  [Side.host, Side.line].foldl (fun s h =>
    let x := s.die d
    let r := x.rot c h
    if r.phase = 4 && (hit (x.sympSlice c h) || hit (x.serving c h r.pos)) then
      s.onSide d c h (fun r => { r with cfgHit := true })
    else s) s

/-- ATTACH of a port changes (R60, R64): to AUTO on a DETECTED port starts training at the next boundary; to HOLD cancels what
AUTO had scheduled. -/
def State.attachChange (s : State) (p : PortId) (was : Bool) : State :=
  let v := s.port p
  let on := isHold ((s.die p.die).cfga p.key)
  if was && !on && v.state = 2 && v.startAt.isNone then
    s.onPort p (fun v => { v with startAt := some (s.stroke p.die + 1), failed := false, retryAt := none })
  else if !was && on then
    s.onPort p (fun v => { v with retryAt := none, startAt := if v.startOp then v.startAt else none })
  else s

/-! ### A group (R31 step 2, R303) -/

/-- The port indices of a course. -/
def portIxs : List Nat := [0, 1, 2, 3, 4, 5, 6, 7]

/-- Apply a course group: the ports' rules around the values (R69). -/
def State.applyCourse (s : State) (d : DieId) (c : Nat) : State :=
  let old := s.die d
  let ports := portIxs.map (fun i => portId d (8 * c + i))
  let s := ports.foldl (fun s p => s.judgeProfile p) s
  let hits := ports.filter (fun p =>
    (oPctl c p.idx.val :: profileRegs c p.idx.val).any (fun o => ((s.die d).stg o).isSome))
  let (s, txs) := ports.foldl (fun (r : State × List Nat) p => let q := r.1.offBefore p; (q.1, r.2 ++ q.2)) (s, [])
  let l := (s.die d).stagedOf (8 + c)
  let kept := l.filter (fun o => (s.die d).keptStaged o)
  let now := l.filter (fun o => !kept.contains o)
  let s := s.onDie d (fun x => (x.applyRegs (8 + c) l).clearOvr txs)
  let s := ports.foldl (fun s p => (s.onAfter p (hits.contains p)).onAfterIsolated p (hits.contains p)) s
  let s := ports.foldl (fun s p => s.attachChange p (isHold (old.cfga p.key))) s
  if (s.die d).brg.isolated then s
  else ((s.dpRestart d c now).heldOverrides d now).windowHits d c now

/-- Apply the staged values of group g of die d, subject to the refusal rules (R303). Nothing is staged: nothing happens. -/
def State.applyGroup (s : State) (d : DieId) (g : Nat) : State :=
  if !bit (s.die d).pend g then s
  else
    let old := s.die d
    let s := (old.stagedOf g).foldl (fun s o => s.judgeReg d o) s
    if 8 ≤ g then
      let taps := (((s.die d).stagedOf g).filter (fun o => 0x50000 ≤ o && 0x10 ≤ (o - 0x50000) % 0x200 && (o - 0x50000) % 0x200 < 0x28)).map
        (fun o => (o - 0x50000) / 0x200)
      let s := taps.dedup.foldl (fun s t => if (s.die d).keptStaged (oTap t 0) then s else s.judgeTaps d t) s
      s.applyCourse d (g - 8)
    else
      let s := if g = 5 then (List.range 8).foldl (fun s p => s.judgePwm d p) s else s
      let l := (s.die d).stagedOf g
      let now := l.filter (fun o => !(s.die d).keptStaged o)
      let s := s.onDie d (fun x => x.applyRegs g l)
      if (s.die d).brg.isolated then (if now.contains oClkCfg then s.clkJudge d (fld ((old.stg oClkCfg).getD 0) 1 0 == 3) else s)
      else s.takeUp d g old now

/-- The groups of a mask that hold staged values, by number. -/
def Die.groupsDue (x : Die) (mask : Nat) : List Nat := (List.range 16).filter (fun g => bit mask g && bit x.pend g)

/-- Apply the due groups of a die at a boundary (R31 step 2, R35, R44): local strobes, global ones, and global ones that are
late. A group that is applied leaves the strobes of the other kind that were already received. An isolated die takes its
local commits into its ledger only (R284). -/
def State.applyDue (s : State) (d : DieId) : State :=
  let x := s.die d
  let n := x.stroke.count
  let loc := x.stroke.dueNow
  let mine := x.stroke.gdue.filter (fun g => g.2.2 == 0 && g.1 ≤ n)
  let glob := if x.inCommits then mine.foldl (fun m g => m ||| g.2.1) 0 else 0
  let late := if x.inCommits then mine.filter (fun g => g.1 < n) else []
  let doneL := x.groupsDue loc
  let doneG := x.groupsDue glob
  let bits := fun (l : List Nat) => l.foldl (fun m g => m + 2 ^ g) 0
  let rest := x.stroke.gdue.filter (fun g => !(g.2.2 == 0 && g.1 ≤ n))
  let s := s.onDie d (fun x => { x with stroke := { x.stroke with
    dueNow := x.stroke.dueNext &&& (0xFFFF ^^^ (x.stroke.dueNext &&& bits doneG)), dueNext := 0,
    gdue := rest.map (fun g => if g.2.2 == 0 then (g.1, g.2.1 &&& (0xFFFF ^^^ (g.2.1 &&& bits doneL)), 0) else g) } })
  let all := x.groupsDue (loc ||| glob)
  let s := all.foldl (fun s g => s.applyGroup d g) s
  let s := if all.isEmpty || x.brg.isolated then s
    else s.onDie d (fun y => { y with
      stroke := { y.stroke with lastCommit := n }, prot := { y.prot with passDirty := y.prot.passDirty || x.crcOn } })
  let s := if doneL.isEmpty || x.brg.isolated then s else s.count d 0x088
  let s := if doneG.isEmpty then s else s.count d 0x08C
  late.foldl (fun s g => (s.count d 0x090).post d 375 0x07 (pair g.2.1 (sat16 (n - g.1)))) s

end Sys2Proof.Machine
end

