-- ==== Sys2Proof/Machine/Service.lean ====
section
/-! DEFINITION. A port at a stroke boundary (R58 to R64, R164, R165, R181, R234): its pending transition, the loss actions,
and what its entry into CARRYING brings. -/

namespace Sys2Proof.Machine

/-- The lattice of the port's course rebuilds one of its lanes (R58, R216). -/
def Die.portRebuilds (x : Die) (n : Nat) : Bool :=
  let c := n / 8
  x.latOn c && x.latKey c == n && (x.course c).lat.rebuilding

/-- Line lanes of a gearbox port whose pair FIFO has slipped (R234). -/
def Die.slipped (x : Die) (n : Nat) : List Nat :=
  if hasGearbox (x.cfga n) then (x.portLine n).filter (fun k => ((x.course (n / 8)).gbxLane k).slip) else []

/-- The lost receive lanes of one segment of a port. -/
def Die.lostLanes (x : Die) (n : Nat) : Side → List Nat
  | .host => (x.portHost n).filter (fun j => bit (x.port n).hLost j)
  | .line => (x.portLine n).filter (fun j => bit (x.port n).lLost j)

/-- Every receive lane of a segment is lost (R58). -/
def Die.segLost (x : Die) (n : Nat) (h : Side) : Bool :=
  match h with
  | .host => (x.portHost n).all (fun j => bit (x.port n).hLost j)
  | .line => (x.portLine n).all (fun j => bit (x.port n).lLost j)

/-! ### Loss actions (R62) -/

/-- The transmitters of a port that take its loss action now. -/
def Die.lossTxs (x : Die) (n : Nat) : List Nat :=
  let c := n / 8
  let v := x.port n
  let hostTx := (x.portHost n).map (fun j => txOf c .host j)
  let lineTx := (x.portLine n).map (fun j => txOf c .line j)
  let lostH := x.lostLanes n .host
  let lostL := x.lostLanes n .line
  let slip := x.slipped n
  let mirror := lossAct (x.cfga n) == 2
  if v.state ≠ 5 && v.state ≠ 6 then []
  else
    (if (v.state = 6 && !v.lostSeg) || (mirror && !(lostH.isEmpty && slip.isEmpty)) then lineTx
     else lostH.map (fun j => txOf c .line (x.lineFor n j)) ++ slip.map (fun k => txOf c .line k))
      ++ (if (v.state = 6 && v.lostSeg) || (mirror && !lostL.isEmpty) then hostTx
          else lostL.flatMap (fun k => (x.hostsFor n k).map (fun j => txOf c .host j)))

/-- Every data transmitter of a port takes or leaves the port's loss action (R62). -/
def State.lossActions (s : State) (p : PortId) : State :=
  let d := p.die
  let x := s.die d
  let n := p.key
  let act := if lossAct (x.cfga n) = 1 then 2 else 1
  let hit := x.lossTxs n
  (x.portTxs n).foldl (fun s t =>
    let v := (s.die d).tx t
    let w := if hit.contains t then act else 0
    if v.lossAct = w then s else s.setTx d t { v with lossAct := w }) s

/-! ### Lanes that are newly lost or restored (R58, R71, R72, R234) -/

/-- The position an event gives for a lane of a segment: the host position itself; on the line side, as PORT_LOCK, the host
position it carries, the line lane with gearbox; the protection lane carries none (R70, R72: DEDUCED, log 25). -/
def Die.lanePos (x : Die) (n : Nat) (h : Side) (j : Nat) : List Nat :=
  match h with
  | .host => [j]
  | .line => if j = 8 then [] else if hasGearbox (x.cfga n) then [j] else x.hostsFor n j

/-- LANE_LOST or LANE_RESTORED for one lane of a segment, a loss counted in LANE_LOSS (R71, R72). -/
def State.laneEvent (s : State) (p : PortId) (h : Side) (lost : Bool) (j : Nat) : State :=
  ((s.die p.die).lanePos p.key h j).foldl (fun s q =>
    if lost then (s.count p.die (cPort p.course.val p.idx.val + 8)).postPort p 0x04 (Side.code h + 2 * q)
    else s.postPort p 0x05 (Side.code h + 2 * q)) s

/-- Report the lanes of a segment that were lost or came back since the last boundary. A returned host lane of a gearbox pair
reloads its FIFO. -/
def State.laneEvents (s : State) (p : PortId) (h : Side) : State :=
  let d := p.die
  let v := s.port p
  let (lost, new) := match h with | .host => (v.hLost, v.hNew) | .line => (v.lLost, v.lNew)
  let s := (List.range 9).foldl (fun s j =>
    if !bit new j then s
    else if bit lost j then s.laneEvent p h true j
    else
      let s := s.laneEvent p h false j
      if h = .host && hasGearbox ((s.die d).cfga p.key) && (s.die d).pairLocked p.course.val (j / 2) then
        s.onGbx d p.course.val (j / 2) (fun g => { g with fill := 256 })
      else s) s
  s.onPort p (fun v => match h with | .host => { v with hNew := 0 } | .line => { v with lNew := 0 })

/-! ### Transitions -/

/-- PARTNER_DEPARTED for each absent segment (R58, R72); where both are absent at one boundary, one for each, the host's first
(DESIGN CHOICE, log entry 66). -/
def State.departed (s : State) (p : PortId) : State :=
  let v := s.port p
  let s := if v.hostPres then s else s.postPort p 0x03 0
  if v.linePres then s else s.postPort p 0x03 1

/-- A port whose partner has departed moves to VACANT; a session ends without TRAIN_FAILED, a TRAIN_START with INCOMPLETE
(R58, R60, R182, R183). -/
def State.toVacant (s : State) (p : PortId) : State :=
  let v := s.port p
  let d := p.die
  let s := if v.sess then s.trainEnd p stIncomplete 2 0 (b2n v.hostPres) else s.startEnd p stIncomplete 0 (b2n v.hostPres)
  let c := (s.die d).course p.course.val
  let s := if hasLattice ((s.die d).cfga p.key) && v.sess then s.setCourse d p.course.val { c with lat := c.lat.off (s.stroke d) } else s
  let s := s.onPort p (fun v =>
    { (v.endSess false) with startAt := none, startOp := false, failed := false, retryAt := none, noRetry := false,
                             hLost := 0, lLost := 0, hNew := 0, lNew := 0 })
  let s := s.portMove p 1 3
  (s.departed p).clearLoss p

/-- Both segments are present: DETECTED; AUTO starts sessions at the next boundary (R58). `kept`: the segment that a LOST
port did not lose (R61). -/
def State.toDetected (s : State) (p : PortId) (kept : Option Side) : State :=
  let now := s.stroke p.die
  let v := s.port p
  let s := s.portMove p 2 2
  let s := if v.state = 1 then s.postPort p 0x02 v.kind else s
  let auto := !isHold ((s.die p.die).cfga p.key)
  let s := s.onPort p (fun v =>
    { v with kept := kept, failed := false, startAt := if auto then some (now + 1) else none, startOp := false,
             hLost := 0, lLost := 0, hNew := 0, lNew := 0 })
  s.clearLoss p

/-- Sessions may start: the start is due, no transmitter has an override, the course's lane PLLs do not hold over, and the
line partner's kind fits (R55, R114, R182). -/
def Die.startReady (x : Die) (n now : Nat) : Bool :=
  let v := x.port n
  (match v.startAt with | some t => decide (t ≤ now) | none => false) && v.kind != 5 && !x.overridden n && !x.holds n

/-- The precoding that the session agreed takes effect with DATA, from the levels last sent and received (R83, R108, R167, R179). -/
def Port.precodes (v : Port) : Port :=
  { v with preTxH := bit v.agreed 0, preRxH := bit v.agreed 1, preTxL := bit v.agreed 2, preRxL := bit v.agreed 3 }

/-- Positions as a mask. -/
def maskOf (l : List Nat) : Nat := l.foldl (fun m j => m ||| 2 ^ j) 0

/-- The lanes of a port that stay lost as it enters CARRYING (R161, R237): those whose slice has lost lock since they reached ENDING, and
line lanes without a symbol phase. -/
def Die.lostInEnd (x : Die) (n : Nat) : Side → List Nat
  | .host => (x.portHost n).filter (fun j => !(x.slice (x.serving (n / 8) .host j)).locked)
  | .line => (x.portLine n).filter (fun j => !x.lineLocked (n / 8) j || (hasGearbox (x.cfga n) && !((x.course (n / 8)).gbxLane j).phase))

/-- Both segments are ready: CARRYING (R58, R164, R179, R214, R234, R413). A lane that was lost after it reached ENDING is a lane loss of
the carrying port (R161). After DREASON 3 lattice stays disarmed until a disable (R224). -/
def State.toCarrying (s : State) (p : PortId) : State :=
  let d := p.die
  let n := p.key
  let c := p.course.val
  let now := s.stroke d
  let v := s.port p
  let (lh, ll) := (maskOf ((s.die d).lostInEnd n .host), maskOf ((s.die d).lostInEnd n .line))
  let s := s.onPort p Port.precodes
  let s := s.portMove p 4 4
  let s := s.trainEnd p stDone 1 0 0
  let mt := fun (m : DirSt) => m.meterSet m.metEn m.metW now (hasFec ((s.die d).cfga n) || !((s.die d).portHost n).all (fun j => bit m.block j))
  let s := s.onPort p (fun v =>
    { (v.endSess false) with hLost := lh, lLost := ll, hNew := lh, lNew := ll, svcH := 0, svcL := 0, noRetry := false,
                             h2l := mt v.h2l, l2h := mt v.l2h })
  let x := s.die d
  let s := if hasGearbox (x.cfga n) then
      (x.portLine n).foldl (fun s k => s.onGbx d c k (fun g => { g with fill := 256, slip := false })) s
    else s
  let lat := ((s.die d).course c).lat
  let s := if hasLattice (x.cfga n) && lat.port = p.idx.val then s.latMove d c (if bit v.modes 0 then (if lat.noArm then 7 else 2) else 0) else s
  s.clearLoss p

/-- A segment is lost (R58, R62): the port is LOST and leaves service. -/
def State.toLost (s : State) (p : PortId) (line : Bool) : State :=
  let s := s.leaveService p
  let s := s.onPort p (fun v => { v with lostSeg := line, hNew := 0, lNew := 0 })
  s.portMove p 6 8

/-- The line segment is absent through PRS_N (R58). -/
def Die.prsGone (x : Die) (n : Nat) : Bool := prsEn (x.cfgb n) && !(x.course (n / 8)).present && !(x.port n).linePres

/-- The pending transition of a port at a boundary (R58, R59, R61, R64, R181). A start that an override holds off follows at
the first boundary after the one whose commit releases the override (R58, R114); a TRAIN_START at a partner known as MISMATCH
ends without a session, for reason 0x06 (R55, R183). Where the presence level has deasserted, the segment lost is the line's, as
R64 needs; where both segments are lost in one stroke, LOST_SEG is the host's (DESIGN CHOICE, log entry 66). The return of a
signal or a frame makes the lost segment present, whatever its sources are (R58). At the boundary at which a budget runs out both
sessions fail where a lane has not reached ENDING (R158). -/
def State.portAt (s : State) (p : PortId) : State :=
  let d := p.die
  let n := p.key
  let x := s.die d
  let v := x.port n
  let both := v.hostPres && v.linePres
  let now := s.stroke d
  match v.state with
  | 1 => if both then s.toDetected p none else s
  | 2 =>
    if !both then s.toVacant p
    else if x.startReady n now then s.sessStart p v.kept
    else if v.kind = 5 && v.startOp && (match v.startAt with | some t => decide (t ≤ now) | none => false) then
      (s.onPort p (fun v => { v with startAt := none, startOp := false, failed := true, retryAt := none })).startEnd p stMismatch 6 1
    else if x.overridden n && (match v.startAt with | some t => decide (t ≤ now) | none => false) then
      s.onPort p (fun v => { v with startAt := some (now + 2) })
    else s
  | 3 =>
    if !both then s.toVacant p
    else if v.abort ≠ 0 then s.trainFail p v.abort
    else if v.ready then s.toCarrying p
    else if v.begun + x.budget n ≤ now && x.budgetReason n != 0 then s.trainFail p (x.budgetReason n)
    else s
  | 4 | 5 =>
    let s := (s.laneEvents p .host).laneEvents p .line
    if x.prsGone n then s.toLost p true
    else if x.segLost n .host then s.toLost p false
    else if x.segLost n .line then s.toLost p true
    else
      let hurt := !(x.lostLanes n .host).isEmpty || !(x.lostLanes n .line).isEmpty || !(x.slipped n).isEmpty || x.portRebuilds n
      if hurt && v.state = 4 then s.portMove p 5 6
      else if !hurt && v.state = 5 then s.portMove p 4 7
      else s
  | 6 =>
    let seg : Side := if v.lostSeg then .line else .host
    let other : Side := if v.lostSeg then .host else .line
    let s := s.onPort p (fun v => { v with hNew := 0, lNew := 0 })
    if v.lostSeg && x.prsGone n then s.toVacant p
    else if v.framed seg || x.segSdFor n seg s.pos 8 then
      (s.onPort p (fun v => v.setPres seg true)).toDetected p (if x.segLost n other then none else some other)
    else s
  | _ => s

/-- A port's segments at a boundary: one with signal detect is heard, one without has passed one boundary more (R53); an absent
line segment has no partner kind (R55). -/
def Die.portQuiet (x : Die) (n : Nat) : Die :=
  let v := x.port n
  if !v.enabled then x
  else
    let q := fun (v : Port) (h : Side) => if x.segSd n h then v.heard h 0 else
      match h with
      | .host => { v with hQuiet := v.hQuiet + 1 }
      | .line => { v with lQuiet := v.lQuiet + 1 }
    x.setPort n { q (q v .host) .line with
      hFrame := false, lFrame := false, kind := if v.linePres then v.kind else 0,
      h2l := { v.h2l with fecRan := false, blockRan := false }, l2h := { v.l2h with fecRan := false, blockRan := false } }

/-- A port at a boundary: its transition, then its loss actions. -/
def State.portBoundary (s : State) (p : PortId) : State :=
  let s := s.portAt p
  let s := s.onDie p.die (fun x => x.portQuiet p.key)
  if (s.port p).carrying || (s.port p).state = 6 then s.lossActions p else s

end Sys2Proof.Machine
end

