-- ==== Sys2Proof/Machine/DieOps.lean ====
section
/-! DEFINITION. Isolating, restoring and losing dies (R280, R284 to R286). -/

namespace Sys2Proof.Machine

/-! ### Isolation (R280, R284, R285) -/

/-- The die that reports a die isolated or lost: the lead, or the election candidate when the lead is the die lost (R280). -/
def State.herald (s : State) (d : DieId) (lost : Bool) : Option DieId :=
  match s.lead with
  | none => none
  | some l => if lost && l = d then some (if d = 0 then otherAccess s.part else 0) else some l

/-- Mark die d in BRG_RING.ISOL of every die that die a reaches, or clear the mark (R280, R287). -/
def State.markIsol (s : State) (a d : DieId) (on : Bool) : State :=
  s.onAll (fun s b =>
    if b = d || s.reaches a b then
      s.onDie b (fun x => { x with brg := { x.brg with
        isol := if on then x.brg.isol ||| dbit d else x.brg.isol &&& (255 ^^^ dbit d) } })
    else s)

/-- DIE_ISOLATED and the EPOCH record of an isolated or lost die, and the mark on every reachable die (R280, R285, R354). -/
def State.tellIsolated (s : State) (d : DieId) (lost : Bool) : State :=
  let s := s.onDie d Die.lowered
  match s.herald d lost with
  | none => s.markIsol d d true
  | some a => ((s.markIsol a d true).post a 379 0x01 (d.val + 8 * b2n lost)).epoch a 8 (dbit d)

/-- The work of a die stops as it is isolated (R284): its long operations and tests end, its ports read DISABLED, its
slices park, its transmitters are OFF and its course gates close. -/
def State.stopDie (s : State) (d : DieId) : State :=
  let s := courseList.foldl (fun s c => [Side.host, Side.line].foldl (fun s h =>
    match (s.die d).workOp c h with
    | some o => s.workAbort d c h o 3
    | none => s) s) s
  let s := s.abortOps d (fun _ => true) stAborted
  let s := (s.die d).bist.tests.foldl (fun s t => s.testCut d t .aborted stAborted) s
  let s := (List.range 64).foldl (fun s n =>
    let p := portId d n
    if (s.port p).enabled then s.portOff p 9 else s) s
  let s := courseList.foldl (fun s c => [Side.host, Side.line].foldl (fun s h =>
    let r := (s.die d).rot c h
    if r.attached || r.want ≠ 0 then s.detach d c h 1 else s) s) s
  let s := sliceList.foldl (fun s n => s.parkSlice d n) s
  let s := s.onDie d (fun x =>
    let x := x.mapCourses (fun v => { v with banks := { v.banks with copying := false, copied := 0, src := 7 } })
    { x with brg := { x.brg with isolated := true, isolNext := false, restoring := false, restStep := 0 } })
  let s := courseList.foldl (fun s c => s.gateTo d 2 c true true) s
  s.refreshDie d

/-- A die is isolated by command at a boundary (R284, R285). -/
def State.isolateAt (s : State) (d : DieId) : State :=
  if (s.die d).brg.isolNext then (s.stopDie d).tellIsolated d false else s

/-- A die whose bridges are both DOWN is lost (R280). -/
def State.lostAt (s : State) (d : DieId) : State :=
  let b := (s.die d).brg
  if b.east.state = 0 && b.west.state = 0 && !b.lost then
    (s.onDie d (fun x => { x with brg := { x.brg with lost := true } })).tellIsolated d true
  else s

/-- DIE_ISOLATE (R285). -/
def execDieIsolate (k : Packet) (s : State) : Result :=
  .next (s.command0 k 0x0D01 (fun s =>
    let x := s.die k.die
    if 2 ≤ k.w 4 then s.refuse k 0x0D01 stBadParam
    else if x.brg.restoring then s.refuse k 0x0D01 stBusy
    else if x.brg.isolated then s.done k 0x0D01 0 []
    else if x.anyPort && k.w 4 = 0 then s.refuse k 0x0D01 stInUse
    else (s.onDie k.die (fun x => { x with brg := { x.brg with isolNext := true } })).await k 0x0D01 (s.stroke k.die + 1) 0))

/-- DIE_REACHABLE_AGAIN (R286): at a boundary a lost die is reachable again, and is treated as an isolated die. -/
def execDieReachableAgain (d : DieId) (s : State) : Result :=
  let b := (s.die d).brg
  .next (if present s.part d && s.running && s.pos = 0 && b.lost && (b.east.state ≠ 0 || b.west.state ≠ 0) then
    (s.onDie d (fun x => { x with brg := { x.brg with lost := false } })).stopDie d
  else s)

/-! ### Restore (R134, R286) -/

/-- The restore of a die. -/
def Die.restOp (x : Die) : Option Op := x.peg.ops.find? (fun o => o.opcode == 0x0D02 && o.phase != opOver)

/-- DIE_RESTORE (R286). A pegbox that does not run answers nothing: the queue logic answers DIE_UNAVAILABLE. -/
def execDieRestore (k : Packet) (s : State) : Result :=
  let x := s.die k.die
  .next (if isAccess s.part k.origin && headerLenOk k.length.toNat && present s.part k.die && !x.pegRuns then
    (s.takeInbox k 0x0D02).headerError k stUnavail 0
  else s.command0 k 0x0D02 (fun s =>
    let x := s.die k.die
    if !x.brg.isolated && !x.stroke.mismatch then s.done k 0x0D02 0 []
    else if !x.brg.isolated then s.refuse k 0x0D02 stInUse
    else if x.brg.restoring then s.refuse k 0x0D02 stBusy
    else s.start k 0x0D02 0 0 [] (fun s =>
      s.onDie k.die (fun x => { x with brg := { x.brg with restoring := true, restStep := 0, restFrom := x.stroke.count, restSpent := 0 } }))))

/-- The rotation map of a side of n positions at a reset (R134): a retired slice is never assigned a pin. -/
def resetMap (n : Nat) (retired : Option Nat) : SideRot :=
  match retired with
  | none => { map := List.range n, symp := n }
  | some r => { map := (List.range n).map (fun j => if j < r then j else j + 1), symp := r }

/-- The retired slice index of a course side, if any. -/
def Die.retiredIx (x : Die) (c : Nat) (h : Side) : Option Nat :=
  (List.range (sidePins h + 1)).find? (fun i => (x.slice (sliceOf c h i)).retired)

/-- The rotation maps of a die as a reset sets them (R134). -/
def Die.resetMaps (x : Die) : Die :=
  courseList.foldl (fun x c =>
    let v := x.course c
    x.setCourse c { v with host := resetMap 8 (x.retiredIx c .host), line := resetMap 9 (x.retiredIx c .line) }) x

/-- Re-initialise every datapath block of a die (R286 step 1). What no datapath block holds stays: presence, lane PLL and
gate states, the slice records, retirements, and the rotation maps, which step 2 resets (R134). -/
def Die.reinit (x : Die) : Die :=
  { x with
    active := SMap.delIf x.active (fun o => 0x10000 ≤ o),
    slices := x.slices.foldl (fun m q =>
      SMap.put {} m q.1 { ({} : Slice) with stored := q.2.stored, corr := q.2.stored, retired := q.2.retired, capoHold := q.2.capoHold }) [],
    pins := [],
    txs := x.txs.foldl (fun m q => SMap.put {} m q.1 { ({} : Tx) with gate := q.2.gate }) [],
    ports := [],
    courses := x.courses.foldl (fun m q =>
      let v := q.2
      SMap.put {} m q.1 { ({} : Course) with
        host := v.host, line := v.line, prsRaw := v.prsRaw, prsAt := v.prsAt, present := v.present, pllH := v.pllH, pllL := v.pllL, hold := v.hold, relock := v.relock, gate := v.gate,
        banks := if v.banks.stopped then v.banks else { lastRot := x.stroke.count },
        capH := { retired := v.capH.retired }, capL := { retired := v.capL.retired } }) [] }

/-- The ledger image is in use (R286). What it asks of the blocks outside the datapath is taken up as at a commit. -/
def State.useLedger (s : State) (d : DieId) : State :=
  let old := s.die d
  let s := s.onDie d (fun x => { x with active := x.ledger })
  let x := s.die d
  let s := if isAccess s.part d then ((s.queueAt d 0).queueAt d 1).queueAt d 2 else s
  let s := [0, 1].foldl (fun s n =>
    if seqEn (old.act (oSeqCfg n)) && !seqEn (x.act (oSeqCfg n)) then s.onHk d (fun v => v.disable n) else s) s
  let moved := (List.range 8).filter (fun p => [0, 1, 2, 3].any (fun r => old.act (oPwm p r) != x.act (oPwm p r)))
  let s := s.onHk d (fun v => { v with dueLoad := moved.foldl (fun m p => m ||| 2 ^ p) v.dueLoad })
  let s := [0, 1].foldl (fun s m =>
    if x.mcEn m then s.mcEnable d m
    else if old.mcEn m then s.mcDisable d m
    else s) s
  if old.act oClkCfg != x.act oClkCfg then s.clkSelect d false else s

/-- The die loads the ledger image (R286 step 2): staged values are gone, the rotation maps are reset (R134). -/
def State.loadLedger (s : State) (d : DieId) : State :=
  (s.onDie d (fun x => ({ x with staged := [], pend := 0 }).resetMaps)).useLedger d

/-- The die adopts the lead's stroke count (R40). The strokes that its restore has taken stay counted. -/
def State.adoptCount (s : State) (d : DieId) : State :=
  let n := s.stroke s.leadDie
  let spent := s.stroke d - (s.die d).brg.restFrom
  s.onDie d (fun x => { x with
    brg := { x.brg with restSpent := x.brg.restSpent + spent, restFrom := n },
    peg := { x.peg with ops := x.peg.ops.map (fun o => { o with start := n - (x.stroke.count - o.start) }) },
    stroke := { x.stroke with count := n, mismatch := false, mloss := false, misses := 0, lead := s.leadDie } })

/-- Isolation is cleared at a boundary (R286 step 4). What local commits have put into the ledger since step 2 is in use too (R284). -/
def State.rejoin (s : State) (d : DieId) (o : Op) : State :=
  let took := sat16 ((s.die d).brg.restSpent + (s.stroke d - (s.die d).brg.restFrom))
  let s := (s.useLedger d).onDie d (fun x => { x with brg := { x.brg with isolated := false, restoring := false, restStep := 0 } })
  let s := s.markIsol d d false
  let s := (List.range 64).foldl (fun s n =>
    let p := portId d n
    let s := s.profileAt p
    let x := s.die d
    if fld (x.act (oPctl p.course.val p.idx.val)) 0 0 = 1 && x.ruleOf p.course.val p.idx.val == 0 then s.portOn p 0x0A else s) s
  let s := s.post d 379 0x02 (d.val + 65536 * took)
  let s := s.epoch d 9 (dbit d)
  s.endOp d { o with position := 4 } stDone 1 []

/-- A restore at a boundary: one step (R286). A ring failover delays the step. -/
def State.restoreAt (s : State) (d : DieId) : State :=
  let x := s.die d
  match x.restOp with
  | none => s
  | some o =>
    if !x.brg.restoring || x.brg.failover || !x.pegRuns then s
    else
      let step := fun (s : State) (n : Nat) =>
        (s.onDie d (fun x => { x with brg := { x.brg with restStep := n } })).progress d o n
      match x.brg.restStep with
      | 0 =>
        let s := sliceList.foldl (fun s n => s.onSlice d n (fun v => { v with capoHost := false })) s
        step ((s.onDie d Die.reinit).loadCal d) 1
      | 1 =>
        if x.prot.bad.isEmpty then step (s.loadLedger d) 2
        else (s.onDie d (fun x => { x with brg := { x.brg with restoring := false, restStep := 0 } })).endOp d o stIncomplete 2 []
      | 2 =>
        if s.lead.isSome && s.reaches d s.leadDie then
          let s := s.adoptCount d
          if 2 ≤ (s.die d).stroke.state then step s 3 else s
        else s
      | _ => s.rejoin d o

end Sys2Proof.Machine
end

