-- ==== Sys2Proof/Machine/Boundary.lean ====
section
/-! DEFINITION. The stroke boundary (R31) and fret overruns (R26 to R28): fret 0 of every die, in order. -/

namespace Sys2Proof.Machine

/-! ### What the stroke that ended measured (R94, R95, R507) -/

/-- A slice's estimator at the boundary (R94, R95, R507). A slice that `o` does not name measured what it did before. -/
def State.sliceAt (s : State) (d : DieId) (n : Nat) (o : Option SliceObs) : State :=
  let x := s.die d
  let v := x.slice n
  if x.parked n then s
  else
    let locked := v.sd && v.cdrLock && (match o with | some o => o.locked | none => true)
    let snr := if locked then (match o with | some o => min o.snr 500 | none => v.snrNow) else 0
    let freq := match o with | some o => if locked then satFreq o.freq else v.freq | none => v.freq
    let warn := x.snrWarn n
    let low := v.warnArmed && v.locked && locked && snr < warn
    let run := if v.warnGood = 0 then 0 else if warn + 10 ≤ snr then v.warnGood + 1 else 1
    let arm := v.warnArmed || (v.locked && v.warnGood = 0 && warn ≤ snr) || 64 < run
    let s := s.onDie d (fun x => x.setSlice n { v with
      snrNow := snr, freq := freq, mean := (match o with | some o => o.mean | none => v.mean), snrHist := (snr :: v.snrHist).take 1024,
      prev := (match o with | some o => o.last.val | none => v.prev),
      good := locked && x.snrLol n + 10 ≤ snr && (!v.reacq || v.reacqOn), sdStrokes := if v.sd then v.sdStrokes + 1 else 0,
      peakAge := min 64 (v.peakAge + 1), warnArmed := arm && !low, warnGood := if low then 1 else if 64 < run then 0 else run })
    if low then s.postRx d n 5 snr else s

/-- The results of the stroke that ended, on every die. -/
def State.measure (s : State) (obs : BoundaryObs) : State :=
  let s := obs.fills.foldl (fun s o => s.fillAt o) (obs.fec.foldl (fun s o => s.fecCount o) s)
  let s := (s.twiSeen obs.twi)
  let s := obs.eyes.foldl (fun s o => s.eyeAt o) (obs.sent.foldl (fun s o => s.sentAt o) s)
  let s := obs.agree.foldl (fun s o => s.agreeAt o) (obs.prs.foldl (fun s o => s.prsChange o) s)
  let s := s.onAll (fun s d => s.limitsAt d ((obs.limits.filter (fun l => l.1 == d)).map (fun l => l.2.val)))
  s.onAll (fun s d => sliceList.foldl (fun s n =>
    s.sliceAt d n (obs.slices.find? (fun o => o.die == d && o.slice.val == n))) s)

/-! ### The new stroke -/

/-- A bridge's heartbeats over the stroke that ended (R271, R279). `mon`: monitoring is not held after Standby (R472). -/
def Bridge.tick (v : Bridge) (mon : Bool) : Bridge :=
  { v with
    seen := false, hb := if mon then v.seen else v.hb,
    misses := if v.seen || !mon then 0 else v.misses + 1,
    good := if v.state = 0 && 3 ≤ lanesIn v.up && !v.dip && v.seen then v.good + 1 else 0,
    dip := lanesIn v.up < 3 }

/-- A die enters the new stroke (R21, R22): its count, its marker, and what is kept per stroke. `back`: die 0 is available
to the die that leads in its place (R282). -/
def Die.newStroke (x : Die) (back : Bool) : Die :=
  let mon := x.stroke.resumed.isNone
  let b := x.stroke
  { x with
    stroke := { b with
      count := b.count + 1, marker := b.markerNext, markerNext := false, hkPrev := b.hkOvr, hkOvr := false, pegOvr := false,
      ran := 0, left := b.left ++ b.cut, cut := [], trainCut := 0, bistCut := 0, evtCut := 0 },
    evt := { x.evt with stroke := [] },
    tele := { x.tele with lowMarks := [] },
    brg := { x.brg with
      east := x.brg.east.tick mon, west := x.brg.west.tick mon,
      notRun := if mon then x.brg.notRun else 0, run0 := if back && mon then x.brg.run0 + 1 else 0 } }

/-- Snapshots of counters, in fret 0 before anything is applied (R31 step 1, R407). -/
def State.snapsAt (s : State) (d : DieId) : State :=
  let n := s.stroke d
  let t := (s.die d).tele
  let s := match t.snapAt with
    | some k => if k ≤ n then s.onDie d (fun x =>
        let y := x.takeSnap n (t.snapReq.1 + 65536 * t.snapReq.2)
        { y with tele := { y.tele with snapAt := none } }) else s
    | none => s
  let due := (s.die d).stroke.gdue.filter (fun g => g.2.2 == 2 && g.1 ≤ n)
  let s := due.foldl (fun s g => s.onDie d (fun x => x.takeSnap n g.2.1)) s
  s.onDie d (fun x => { x with stroke := { x.stroke with gdue := x.stroke.gdue.filter (fun g => !due.contains g) } })

/-! ### The ring (R269, R275, R278 to R280) -/

/-- A die applies its new routes: RING_CHANGED, and each waiting packet whose route changed goes again (R275, R279). -/
def State.routesAt (s : State) (d : DieId) : State :=
  let x := s.die d
  if !x.brg.changed then s
  else
    let (reach, west) := s.routes d
    let moved := x.brg.sent.filter (fun r =>
      bit reach r.dst.val && (bit x.brg.reach r.dst.val != bit reach r.dst.val || bit x.brg.route r.dst.val != bit west r.dst.val))
    let s := s.onDie d (fun x => { x with brg := { x.brg with reach := reach, route := west, changed := false, failover := false } })
    let s := (s.count d (cBrg + 0x30)).post d 378 0x01 (reach + 256 * west)
    moved.foldl (fun s r => s.resend d r) s

/-- The ring at a boundary: new routes, lost dies, the EPOCH record of the failover, and what was held for its end. -/
def State.ringAt (s : State) : State :=
  let was := s.dieList.filter (fun d => (s.die d).brg.changed)
  let s := s.onAll (fun s d => s.routesAt d)
  let s := ((s.onAll (fun s d => s.lostAt d)).onAll (fun s d => s.dropUnreached d)).leadless
  let teller := match s.lead with
    | none => none
    | some l => s.herald l (s.die l).brg.lost
  let s := match teller with
    | some a => if was.contains a then s.epoch a 6 (s.die a).brg.reach else s
    | none => s
  s.onAll (fun s d => ((s.releaseHeld d).snapRelease d).fwRelease d)

/-- Registers with a parity fault are restored from the ledger (R310, R311): after the snapshot, before the commits. One whose ledger word
the scrub has meanwhile found uncorrectable keeps its faulty value. -/
def State.parityAt (s : State) (d : DieId) : State :=
  let p := (s.die d).prot
  let l := p.restore.filter (fun o => !p.bad.contains o)
  let s := s.onDie d (fun x => { x with prot := { x.prot with restore := [] } })
  let s := (p.restore.filter p.bad.contains).foldl (fun s o => s.parityLost d o) s
  if l.isEmpty then s
  else
    (s.onDie d (fun x =>
      let y := l.foldl (fun x o => x.setAct o (x.led o)) x
      y.crcDirty)).epoch d 4 (dbit d)

/-! ### Answers of commands that waited for a boundary -/

/-- PORT_ATTACH_POLICY takes effect (R64, R68): ATTACH alone, in the active and the staged value and in the ledger. -/
def State.attachPolicy (s : State) (d : DieId) (key : Nat) (hold : Bool) : State :=
  let p := portId d key
  let o := oCfga p.course.val p.idx.val
  let x := s.die d
  let was := isHold (x.cfga key)
  let put := fun (v : Half) => setFld v 13 13 (b2n hold)
  let s := s.onDie d (fun x =>
    let y := (if x.brg.isolated then x else x.setAct o (put (x.act o))).setLed o (put (x.led o))
    match x.stg o with
    | none => y
    | some v => { y with staged := SMap.ins y.staged o (put v) })
  if x.brg.isolated then s else s.attachChange p was

/-- The awaits of a die that this boundary answers. Others answer OP_CANCEL, LANE_CAPO and CNT_SNAPSHOT. -/
def Await.timed (a : Await) (n : Nat) : Bool := a.due ≤ n && a.op != 0x0004 && a.op != 0x0203 && a.op != 0x0B01

/-- Answer one command that waited for this boundary (R65, R66, R68, R100, R123, R124, R148, R149, R184, R225, R262, R263,
R285, R391, R394, R419). -/
def State.answerAt (s : State) (d : DieId) (a : Await) : State :=
  let k := a.packet
  let x := s.die d
  let drop := fun (s : State) => s.onDie d (fun x => { x with peg := { x.peg with awaits := x.peg.awaits.erase a } })
  let fin := fun (s : State) (st e : Nat) (data : List Nat) => (drop s).finishHw k a.op (mkRec k st e data) (s.stroke d - a.start)
  match a.op with
  | 0x0102 =>
    let v := match portOf s k k.target.toNat with | some p => s.port p | none => {}
    if v.bad && !v.enabled then fin s stBadParam 0 [v.badRule] else fin s stDone 1 []
  | 0x0201 => fin s stDone 1 [a.arg]
  | 0x0205 => fin s stDone 1 [(x.tx a.arg).mode]
  | 0x0401 =>
    (match tapTarget k.target.toNat with
     | some (c, h, _, _) => if (x.rot c h).attached then fin s stDone 1 [a.arg] else fin s stNotReady 0 []
     | none => fin s stDone 1 [a.arg])
  | 0x0601 => fin s stDone 1 [((x.course a.arg).lat).stat]
  | 0x0701 =>
    (match s.clkReply k with
     | none => s
     | some r => fin s r.1 (b2n (r.1 == stDone)) r.2)
  | 0x0702 =>
    let w := k.target.toNat
    if x.gated (w / 2 ^ 28) (w % 256) == (k.w 4 == 1) then fin s stDone 1 [] else fin s stInUse 0 []
  | 0x0904 =>
    if bit x.hk.dueLoad a.arg then (drop s).onHk d (fun v => { v with waiters := v.waiters ++ [a] })
    else fin s stDone 1 [SMap.get 0 x.hk.moved a.arg % 65536]
  | 0x0B02 => fin (s.tagApply k) stDone 1 []
  | _ => fin s stDone 1 []

/-- The commands of a die that this boundary answers, once every die has done its work: a global commit's answer tells of all
(R262). -/
def State.answersAt (s : State) (d : DieId) : State :=
  ((s.die d).peg.awaits.filter (fun a => a.timed (s.stroke d))).foldl (fun s a => s.answerAt d a) s

/-- The attach policies that this boundary applies. -/
def State.policiesAt (s : State) (d : DieId) : State :=
  ((s.die d).peg.awaits.filter (fun a => a.op == 0x0105 && a.due ≤ s.stroke d)).foldl (fun s a =>
    s.attachPolicy d (a.arg / 2) (a.arg % 2 == 1)) s

/-- Disarming that LATTICE_DISARM asked for (R224, R225). -/
def State.disarmsAt (s : State) (d : DieId) : State :=
  courseList.foldl (fun s c =>
    let l := ((s.die d).course c).lat
    if l.disarm then (s.onLat d c (fun l => { l with disarm := false })).latDisarm d c 1 l.pos 15 else s) s

/-- The position of the operations that time moves: PRBS_CHECK over its duration, TRAIN_START over its budget (R127, R183). -/
def State.timesAt (s : State) (d : DieId) : State :=
  let now := s.stroke d
  ((s.die d).peg.ops.filter (fun o => o.phase != opOver && (o.opcode == 0x0503 || o.opcode == 0x0301))).foldl (fun s o =>
    let x := s.die d
    let v := x.port o.obj
    let from_ := if o.opcode = 0x0301 then v.begun else o.from_
    let all := if o.opcode = 0x0301 then x.budget o.obj else o.packet.w 5
    let runs := if o.opcode = 0x0301 then v.sess else o.phase == 1
    let pos := min 1000 ((now - from_) * 1000 / max 1 all)
    if !runs || now ≤ from_ then s
    else if x.pegRuns && from_ + 1000 ≤ now then s.progress d o pos
    else s.onDie d (fun x => x.mapOps (fun z => z == o) (fun z => { z with position := pos }))) s

/-- A sympathetic slice that a command attached, whose tap is of no use any more, parks (R148, R156). -/
def State.tapsAt (s : State) (d : DieId) (c : Nat) (h : Side) : State :=
  let x := s.die d
  let r := x.rot c h
  if r.attached && r.owner = 1 && r.want = 0 && x.tapDead c h r.pos r.tap then s.detach d c h 3 else s

/-! ### The boundary -/

/-- The two sides of every course, with their courses. -/
def sideList : List (Nat × Side) := courseList.flatMap (fun c => [(c, Side.host), (c, Side.line)])

/-- Fret 0 of one die after the ring's and the restore work (R31 steps 2 and 3): changeovers that found their edge, attach
policies and commits, the ports, and the sympathetic slices. -/
def State.dieAt (s : State) (d : DieId) : State :=
  let s := (s.switchAt d .sys false).switchAt d .lane false
  let s := (((s.policiesAt d).applyDue d).latticesAt d).disarmsAt d
  let s := courseList.foldl (fun s c => s.pairsAt d c) s
  let s := (List.range 64).foldl (fun s n => s.portBoundary (portId d n)) s
  let s := courseList.foldl (fun s c => s.relockAt d c) s
  let s := (((s.refreshDie d).gatesAt d).refreshDie d).onDie d Die.takeWork
  let s := (s.die d).bist.tests.foldl (fun s t => s.testAt d t) s
  let s := sideList.foldl (fun s q => ((s.tapsAt d q.1 q.2).rotSide d q.1 q.2).substAt d q.1 q.2) s
  let s := (s.refreshDie d).onClk d (fun v => { v with gFresh := [] })
  let s := if (s.die d).clk.spRun then (s.onClk d (fun v => { v with spRun := false })).epoch d 5 (dbit d) else s
  let s := ((s.timesAt d).mcAt d 0).mcAt d 1
  (s.cancelsAt d).stageLast d

/-- The package root closes at this boundary unless it is in use by now (R261, R470): the CLK_GATE that asked is answered,
and STANDBY_ENTRY follows. -/
def State.rootAt (s : State) : State :=
  if !s.dieList.any (fun d => (s.die d).stroke.gdue.any (fun g => g.2.2 == 1 && g.1 ≤ s.stroke d)) then s
  else
    let s := s.onAll (fun s d => s.onDie d (fun x => { x with stroke := { x.stroke with gdue := x.stroke.gdue.filter (fun g => g.2.2 != 1) } }))
    let used := s.rootUse
    let s := s.onAll (fun s d =>
      ((s.die d).peg.awaits.filter (fun a => a.op == 0x0702 && a.arg == 0)).foldl (fun s a =>
        let s := s.onDie d (fun x => { x with peg := { x.peg with awaits := x.peg.awaits.erase a } })
        s.finishHw a.packet a.op (mkRec a.packet (if used then stInUse else stDone) (b2n !used) []) (s.stroke d - a.start)) s)
    if used then s else { s with rootOff := true }

/-- A die resumes counting after Standby (R472): its pegbox runs, its monitoring is held; one that does not lead adopts the stroke number
its first marker named. -/
def State.resume (s : State) (d : DieId) : State :=
  let lead := s.leaders.contains d
  let n := if lead then s.stroke d else (s.die d).stroke.wakeTo.getD (s.stroke d)
  let s := s.onDie d (fun x =>
    { x with
      peg := if x.peg.state = 3 then { x.peg with state := 1 } else x.peg,
      stroke := { x.stroke with asleep := false, wakeTo := none, marker := true, count := if x.stroke.mismatch then x.stroke.count else n, resumed := some n } })
  let s := if lead then s else s.toTracking d
  if (s.die d).hk.owed then
    (s.onHk d (fun v => { v with owed := false })).post d 409 0x01 ((s.die d).hk.above + 256 * fld ((s.die d).act oTcrit) 7 0)
  else s

/-- The dies that the boundary just passed lets resume: the first marker to reach them has named it, or one before it (R472). -/
def State.resumesAt (s : State) : State :=
  s.onAll (fun s d =>
    match (s.die d).stroke.wakeTo with
    | some n => if (s.die d).stroke.asleep && n ≤ s.stroke (s.die d).stroke.lead then s.resume d else s
    | none => s)

/-- The boundary that ends a stroke, on every die whose stroke count runs (R31, R472). -/
def State.boundary (s : State) (obs : BoundaryObs) : State :=
  let s := ((s.advance 1279).onAwake (fun s d => s.onDie d (fun x => x.frets 1))).measure obs
  let back := s.lead != some 0 && (s.lead.isNone || s.reachable s.leadDie 0) && !(s.die 0).brg.lost && (s.die 0).brg.notRun < 1024
  let s := s.onAwake (fun s d => s.onDie d (fun x => (x.crcStroke (isAccess s.part d)).newStroke (back && d = 0)))
  let s := { s with pos := 0 }.resumesAt
  let s := (s.onAwake (fun s d => s.snapsAt d)).ringAt
  let s := s.rootAt
  let s := s.onAwake (fun s d => ((s.parityAt d).isolateAt d).restoreAt d)
  let s := ((s.onAwake (fun s d => s.dieAt d)).onAwake (fun s d => s.answersAt d)).fwFinish
  (s.onAll (fun s d => s.snapAnswer d)).onAwake (fun s d => if isAccess s.part d then (s.ringRelease d).resyncAt d else s)

/-- TRAIN_BUDGET_EXPIRED (R158, R181): the boundary at which a port's budget runs out with a lane that has not reached ENDING: both its
sessions fail there, and the boundary does its other work. What was measured is what the stroke before measured. -/
def execTrainBudgetExpired (p : PortId) (s : State) : Result :=
  let v := s.port p
  let x := s.die p.die
  .next (if present s.part p.die && s.running && v.sess && v.begun + x.budget p.key ≤ s.stroke p.die + 1 && x.budgetReason p.key != 0 then
    s.boundary { slices := [], fec := [], fills := [], prs := [], agree := [], limits := [], sent := [], eyes := [], twi := [] }
  else s)

/-- STROKE_BOUNDARY (R31): the stroke ends with what it measured, and the boundary opens the next. -/
def execStrokeBoundary (obs : BoundaryObs) (s : State) : Result := .next (if s.running then s.boundary obs else s)

/-! ### Fret overruns (R26 to R28) -/

/-- The course side whose tuning fret is f (R24). -/
def fretSide (f : Nat) : Nat × Side := ((f - 1) / 2, if f % 2 = 1 then .host else .line)

/-- The slices that an overrun of tuning fret f leaves over: the last of its work order that the stroke before did not leave
over already, so that no slice is passed over in two consecutive strokes (R27). -/
def Die.tuningCut (x : Die) (f left : Nat) : List Nat :=
  let q := fretSide f
  ((sideSlices q.1 q.2).filter (fun n => !x.stroke.left.contains n)).reverse.take left

/-- What an overrun of fret f with `left` items truncated leaves of a stroke's work, by owner (R27): tuning frets 1 to 16,
training frets 17 to 20, BIST frets 25 to 27, housekeeping frets 28 and 29, fret 30. The copies of frets 21 to 24 are dropped. -/
def Die.overrun (x : Die) (f left : Nat) : Die :=
  let b := x.stroke
  let peg := 21 ≤ f && f ≤ 24
  { x with
    stroke := { b with
      ovr := b.ovr ||| 2 ^ f, ovrAt := SMap.put 0 b.ovrAt f b.count,
      cut := if f ≤ 16 then b.cut ++ x.tuningCut f left else b.cut,
      trainCut := if 17 ≤ f && f ≤ 20 then max b.trainCut left else b.trainCut,
      pegOvr := b.pegOvr || peg,
      bistCut := if 25 ≤ f && f ≤ 27 then b.bistCut + left else b.bistCut,
      hkOvr := b.hkOvr || f = 28 || f = 29,
      evtCut := if f = 30 then left else b.evtCut },
    tele := if peg then { x.tele with latch := none } else x.tele }

/-- FRET_OVERRUN (R26 to R28): the work of a fret does not fit and is cut at the fret's end, its last sc. `left` is the number
of items truncated. Frets 0 and 31 cannot overrun, a fret that has ended has not, and the idle BIST frets do no work (R25). -/
def execFretOverrun (d : DieId) (fret : Fin 32) (left : BitVec 16) (s : State) : Result :=
  let f := fret.val
  let idle := 25 ≤ f && f ≤ 27 && !(s.die d).bistOn
  .next (if present s.part d && s.running && 1 ≤ f && f ≤ 30 && s.pos < 40 * (f + 1) && !idle then
    let s := s.advance (40 * f + 39)
    let up := !bit (s.die d).stroke.ovr f
    let s := (s.onDie d (fun x => x.overrun f left.toNat)).count d (4 * f)
    if up then s.post d 375 0x01 (pair f left.toNat) else s
  else s)

/-- FRET_OVR_CLEAR (R28): 1,024 strokes have passed without an overrun of the fret. -/
def execFretOvrClear (d : DieId) (fret : Fin 32) (s : State) : Result :=
  let b := (s.die d).stroke
  .next (if present s.part d && s.running && bit b.ovr fret.val && SMap.get 0 b.ovrAt fret.val + 1024 ≤ b.count then
    s.onDie d (fun x => { x with stroke := { b with ovr := b.ovr ^^^ 2 ^ fret.val } })
  else s)

end Sys2Proof.Machine
end

