-- ==== Sys2Proof/Machine/Supplies.lean ====
section
/-! DEFINITION. Resets and start-up (R456 to R468), Standby (R470 to R474) and boundary scan (R480, R481). -/

namespace Sys2Proof.Machine

/-! ### Resets (R458, R462, R467, R468) -/

/-- What every reset keeps of a die: MRAM with its wear, and the fuses (R467). The boundary-scan register belongs to its own
reset. The STALE marks of the other mirror are taken to lie in MRAM and are kept too (DESIGN CHOICE, log entry 82). -/
def Die.kept (x : Die) : Die :=
  { nv := x.nv, nvs := { x.nvs with resync := false, busy := false, unread := false, dead := false, gone := [] }, ir := x.ir, irCap := x.irCap,
    bist := { fuses := x.bist.fuses, fuseMap := x.bist.fuseMap } }

/-- What RESET_N keeps besides: the always-on domain, with the soundpost, SLOW, the presence levels and the temperature
comparators (R462, R467). -/
def Die.keptOn (x : Die) : Die :=
  { x.kept with
    clk := { spReady := x.clk.spReady, spPass := x.clk.spPass },
    hk := { trip := x.hk.trip, above := x.hk.above },
    courses := (List.range 8).foldl (fun m c =>
      SMap.put {} m c { ({} : Course) with prsRaw := (x.course c).prsRaw, present := (x.course c).present }) [] }

/-- The package after a reset, its dies as `f` leaves them. -/
def State.resetTo (s : State) (phase : Nat) (f : Die → Die) : State :=
  { State.reset with
    part := s.part, phase := phase, free := s.free, vddhOff := s.vddhOff && phase == 1, dies := s.dies.map f, pending := s.pending }

/-- POWER_ON_RESET (R462, R467): the whole package is reset. -/
def execPowerOnReset (s : State) : Result := .next (s.resetTo 0 Die.kept)

/-- Brownout thresholds of the rails in mV (R456): VDD_AON, VDDC, VDDA, VDDH, VDDIO. `io33`: VDDIO is nominally 3.3 V, else 1.8 V. -/
def railMin (rail : Fin 5) (io33 : Bool) : Nat :=
  match rail.val with
  | 0 => 720
  | 1 => 680
  | 2 => 810
  | 3 => 1080
  | _ => if io33 then 2970 else 1620

/-- A level against a limit that the device meets to within an error: below `lo` yes, from `hi` on no, and a free value between (log entry
52). -/
def State.between (s : State) (v lo hi : Nat) : Bool × State :=
  if v < lo then (true, s) else if hi ≤ v then (false, s)
  else let r := s.takeFree; (r.1.getLsbD 0, r.2)

/-- BROWNOUT (R456, R458, R503): a rail that stays below its threshold, which holds to within 10 mV, at any die for 1 µs puts the whole
package into power-on reset. `mv`: the highest the rail was, `ns`: for how long. -/
def execBrownout (d : DieId) (rail : Fin 5) (io33 : Bool) (mv : BitVec 16) (ns : Word) (s : State) : Result :=
  .next (if present s.part d && 1000 ≤ ns.toNat then
    let r := s.between mv.toNat (railMin rail io33 - 10) (railMin rail io33 + 10)
    if r.1 then r.2.resetTo 0 Die.kept else r.2
  else s)

/-- RESET_N (R467, R468, R503): low for at least 10 µs, everything except the always-on domain is reset, and RESET_N is deasserted again.
A pulse under 1 µs is ignored; one between the two resets the package or has no effect at all. -/
def execResetN (ns : Word) (s : State) : Result :=
  let r := s.between ns.toNat 1000 10000
  .next (if ns.toNat < 1000 then s else if r.1 || 10000 ≤ ns.toNat then r.2.resetTo 1 Die.keptOn else r.2)

/-- SOUNDPOST_READY (R250, R257, R462): the soundpost of a die is READY, after power-on or after a restart. -/
def execSoundpostReady (d : DieId) (s : State) : Result :=
  .next (if present s.part d && !(s.die d).clk.spReady then
    (if s.running then s.spBack d else s.onClk d (fun v => { v with spReady := true, restart := false }))
  else s)

/-- VDDH_POWER_DOWN (R466): every driver is disabled. -/
def execVddhPowerDown (s : State) : Result :=
  .next (if s.vddhOff then s else { s with vddhOff := true }.onAll (fun s d => s.refreshDie d))

/-! ### Boot (R433, R463) -/

/-- One NV repair record of a die is applied, or discarded when its spare is taken by a fuse entry (R433). -/
def Die.bootRepair (x : Die) (r : Nat × Nat) : Die :=
  if x.bist.fuseMap.contains r || !x.spareFree r.1 r.2 then { x with bist := { x.bist with conflicts := x.bist.conflicts ++ [r.1] } }
  else { x with bist := { x.bist with soft := x.bist.soft ++ [r] } }

/-- One retirement of a die is in effect from boot (R429): a slice, a bank, or a half of a capture memory. -/
def Die.bootRetire (x : Die) (t : Nat) : Die :=
  if t < 256 then { x with slices := SMap.put {} x.slices t { x.slice t with retired := true } }
  else
    let m := t - 256
    let i := macIndex m
    if macClass m = 2 then
      let v := x.course (i / 7)
      let b := i % 7
      x.setCourse (i / 7) { v with banks := { v.banks with map := v.banks.map.map (fun k => if k = b then 6 else k), spare := 7, failed := 2 ^ b, stopped := true } }
    else
      let v := x.course (i / 6)
      let h : Side := if i % 6 < 3 then .host else .line
      let y := x.setCourse (i / 6) (v.setHalf h { (v.half h) with retired := true })
      { y with bist := { y.bist with retMac := y.bist.retMac ++ [m] } }

/-- The NV records of a die, from the mirror m that the device loads (R433, R463). -/
def State.bootRecords (s : State) (m d : DieId) : State :=
  let v := (s.die m).nvs
  let mine := v.repairs.filter (fun r => r.1 / 65536 == d.val)
  let gone := v.retire.filter (fun t => t / 65536 == d.val)
  s.onDie d (fun x =>
    let x := mine.foldl (fun x r => x.bootRepair (r.1 % 65536, r.2)) x
    gone.foldl (fun x t => x.bootRetire (t % 65536)) x)

/-- The boot port profiles of a die enter its staged values (R463). -/
def State.bootProfiles (s : State) (img : List Host.Cell) (d : DieId) : State :=
  let region := (img.filter (fun c => 0x91000 ≤ c.1 && c.1 < 0xA1000))
  s.onDie d (fun x => (List.range 64).foldl (fun x n =>
    match Config.bootProfile d.val n region with
    | none => x
    | some l => ((profileRegs (n / 8) (n % 8)).zip l).foldl (fun x q => x.stage q.1 q.2) x) x)

/-- The pegbox of a die starts from its ROM image, or from the firmware patch region where the mirror in use holds an image
(R463). -/
def State.bootPeg (s : State) (from_ : Option DieId) (img : List Host.Cell) (d : DieId) : State :=
  let patch := (match from_ with | some m => (s.die m).nvs.patch | none => false)
  let ver := BitVec.ofNat 32 (Memory.readLE img 0xA1004 4)
  s.onDie d (fun x => { x with peg := { x.peg with
    state := 1, romImg := !patch, verA := if patch then ver else Config.romVersion,
    secA := if patch then Memory.readLE img 0xA1008 1 else 0, startAt := 0 } })

/-- A bridge comes up with every lane, its latency measured: a free value (R271, R277). -/
def State.bootBridge (s : State) (d : DieId) (w : Ew) : State :=
  let (v, s) := s.takeFree
  s.onDie d (fun x => x.setBridge w
    { lock := [0, 1, 2, 3].map (fun l => (l, { locked := true })), aligned := 15, rxSet := 15,
      state := 1, hb := true, set_ := 15, peer := 15, lat := BitVec.setWidth 16 v, measured := true })

/-- The repair records, CAL fields and boot profiles of a die, from the mirror that reads correctly; with none the die boots without NV
values, and its CAL and NV fields read 0 (R443, R463 steps 1 and 2). -/
def State.bootNv (s : State) (from_ : Option DieId) (img : List Host.Cell) (d : DieId) : State :=
  match from_ with
  | some m => ((s.bootRecords m d).onDie d (fun x => { x.resetMaps with calLoaded := calTrims img d })).bootProfiles img d
  | none => s.onDie d (fun x => { x.resetMaps with nvs := { x.nvs with unread := true } })

/-- One die boots (R463 steps 1 to 3), and its bridges come up. -/
def State.bootDie (s : State) (from_ : Option DieId) (img : List Host.Cell) (d : DieId) : State :=
  let s := (s.bootNv from_ img d).bootPeg from_ img d
  (s.bootBridge d .east).bootBridge d .west

/-- The ring is up: a die takes its routes and, the lead apart, adopts the lead's stroke count (R39, R40, R463 step 4). -/
def State.bootRing (s : State) (d : DieId) : State :=
  let r := s.routes d
  let n := s.stroke 0
  let s := s.onDie d (fun x =>
    { x with
      brg := { x.brg with reach := r.1, route := r.2 },
      stroke := { x.stroke with marker := true, state := if d = 0 then 3 else x.stroke.state, count := n } })
  let s := if d = 0 then s else s.toTracking d
  (s.die d).bist.conflicts.foldl (fun s m => s.post d 425 0x04 m) s

/-- The mirror that boot loads from: the lower-numbered access die's where it reads correctly, else the other's (R18, R463). Bits of
`readable`: 0 die 0's mirror, 1 the other access die's. -/
def State.bootMirror (s : State) (readable : Fin 4) : Option DieId :=
  if bit readable.val 0 then some 0 else if bit readable.val 1 then some (otherAccess s.part) else none

/-- The words that ECC finds uncorrectable in every readable mirror (R443). -/
def bootGone (readable : Fin 4) (ecc : List (BitVec 18 × EccResult × EccResult)) : List Nat :=
  (ecc.filter (fun e => (e.2.1 == .uncorrectable || !bit readable.val 0) && (e.2.2 == .uncorrectable || !bit readable.val 1))).map (·.1.toNat)

/-- What BOOT finds of the mirror of access die d is kept for later loads: whether it is readable, and the words no mirror holds (R443,
R463). -/
def State.bootSeen (s : State) (readable : Fin 4) (ecc : List (BitVec 18 × EccResult × EccResult)) (d : DieId) : State :=
  s.onDie d (fun x => { x with nvs := { x.nvs with
    dead := isAccess s.part d && !bit readable.val (if d = 0 then 0 else 1), gone := bootGone readable ecc } })

/-- BOOT (R18, R359, R443, R463, R485): RESET_N is deasserted with the soundposts running. `straps`: ADDR1 and ADDR0; `readable`: the NV
mirrors that read correctly; `ecc`: the words in which ECC finds an error, with what it finds in either mirror. -/
def execBoot (straps : Fin 4) (readable : Fin 4) (ecc : List (BitVec 18 × EccResult × EccResult)) (s : State) : Result :=
  .next (if s.phase ≤ 1 && s.dieList.all (fun d => (s.die d).clk.spReady) then
    let s := ecc.foldl (fun s e => s.bootWord (bit readable.val 0) (bit readable.val 1) e.1.toNat e.2.1 e.2.2) s
    let m := s.bootMirror readable
    let s := s.onAll (fun s d => s.bootSeen readable ecc d)
    let img := s.mirror
    let s := s.onAll (fun s d => s.bootDie m img d)
    let s := { s with phase := 2, pos := 0, lead := some 0 }
    let s := s.onAll (fun s d => s.bootRing d)
    s.onAll (fun s d => if isAccess s.part d then s.onDie d (fun x => { x with twi := { x.twi with addr := 0x4C + straps.val } }) else s)
  else s)

/-! ### Standby (R470 to R474) -/

/-- STANDBY_ENTRY (R470): the pegboxes halt, and SYS is gated on every die. -/
def execStandbyEntry (s : State) : Result :=
  .next (if s.running && s.rootOff then
    let s := s.onAll (fun s d => s.onDie d (fun x => if x.pegRuns then { x with peg := { x.peg with state := 3 } } else x))
    { s with phase := 3, pos := 0, rootOff := false }
  else s)

/-- The requests that came over PCI Express in Standby go on, as SYS runs (R308, R473). -/
def State.unstalls (s : State) : State := (s.unstall 0).unstall 1

/-- STANDBY_WAKE (R472 to R474, R503): WAKE_N low for `ns`, 1 µs or more, an endpoint's link leaving L1, or a critical-temperature trip.
SYS runs on every die; the leading dies resume counting, every other die once a marker has reached it. -/
def execStandbyWake (source : Fin 4) (ns : Word) (s : State) : Result :=
  let r := if source = 0 then s.between ns.toNat 501 1000 else (false, s)
  .next (if s.phase = 3 && !r.1 && (source.val != 3 || s.dieList.any (fun d => (s.die d).hk.owed)) then
    let s := { r.2 with phase := 2, pos := 0, wake := source.val, waking := true }
    let l := s.leaders
    State.unstalls <| s.onAll (fun s d =>
      if l.contains d || l.isEmpty then s.resume d
      else s.onDie d (fun x => { x with stroke := { x.stroke with asleep := true, wakeTo := none } }))
  else if s.phase = 3 then r.2 else s)

/-- STANDBY_EXIT (R472, R474): every die the lead reaches reads LOCKED. -/
def execStandbyExit (s : State) : Result :=
  .next (match s.lead with
    | none => s
    | some l =>
      if s.running && s.waking && s.dieList.all (fun d => !s.reachable l d || (2 ≤ (s.die d).stroke.state && !(s.die d).stroke.asleep)) then
        { s with waking := false }.post l 456 0x20 (pair s.wake (s.stroke l))
      else s)

/-- STANDBY_MONITOR_RESTART (R472): 1,954 strokes after a die has resumed counting its monitoring restarts. -/
def execStandbyMonitorRestart (d : DieId) (s : State) : Result :=
  let b := (s.die d).stroke
  .next (match b.resumed with
    | none => s
    | some n =>
      if present s.part d && s.running && n + 1954 ≤ b.count then s.onDie d (fun x => { x with stroke := { b with resumed := none } }) else s)

/-! ### Boundary scan (R480, R481) -/

/-- What IDCODE reads (R480). -/
def idcode (p : Part) : Nat := 2 ^ 28 * Config.stepping.toNat + 4096 * partCode p + 2 * 0x2D9 + 1

/-- The instructions a boundary-scan code selects: every other code is BYPASS (R480). -/
def scanCode (code : Nat) : Nat := if [0x00, 0x01, 0x02, 0x04, 0x05, 0x08, 0x09].contains code then code else 0xFF

/-- A port of the package is not DISABLED, or a long operation runs (R481). -/
def State.inService (s : State) : Bool := s.dieList.any (fun d => (s.die d).anyPort || !(s.die d).peg.ops.isEmpty)

/-- JTAG_INSTRUCTION (R480, R481): a die loads an instruction; a disturbing one selects BYPASS in service. -/
def execJtagInstruction (d : DieId) (code : Byte) (s : State) : Result :=
  let c := scanCode code.toNat
  let held := [0x00, 0x04, 0x05, 0x08, 0x09].contains c && s.inService
  .next (if present s.part d then s.onDie d (fun x => { x with ir := if held then 0xFF else c, irCap := if held then 5 else 1 }) else s)

end Sys2Proof.Machine
end

