-- ==== Sys2Proof/Machine/Dispatch.lean ====
section
/-! DEFINITION. The dispatch: one arm per row of the table, each a direct call of that row's meaning. -/

namespace Sys2Proof.Machine

/-- The effect of a command or event on everything but the queue. -/
def exec (i : Instr) (s : State) : Host.Outcome State Fault Refusal :=
  match i with
  | .powerOnReset => Sys2Proof.Machine.execPowerOnReset s
  | .brownout d rail io33 mv ns => Sys2Proof.Machine.execBrownout d rail io33 mv ns s
  | .resetN ns => Sys2Proof.Machine.execResetN ns s
  | .boot straps readable ecc => Sys2Proof.Machine.execBoot straps readable ecc s
  | .perst e => Sys2Proof.Machine.execPerst e s
  | .pcieLink e up speed width => Sys2Proof.Machine.execPcieLink e up speed width s
  | .poisonedTlp e off => Sys2Proof.Machine.execPoisonedTlp e off s
  | .vddhPowerDown => Sys2Proof.Machine.execVddhPowerDown s
  | .soundpostReady d => Sys2Proof.Machine.execSoundpostReady d s
  | .strokeBoundary obs => Sys2Proof.Machine.execStrokeBoundary obs s
  | .fretOverrun d fret left => Sys2Proof.Machine.execFretOverrun d fret left s
  | .fretOvrClear d fret => Sys2Proof.Machine.execFretOvrClear d fret s
  | .tuningFret d c side upd => Sys2Proof.Machine.execTuningFret d c side upd s
  | .converged d n => Sys2Proof.Machine.execConverged d n s
  | .adaptLimit d n coef => Sys2Proof.Machine.execAdaptLimit d n coef s
  | .sdChange d n mv => Sys2Proof.Machine.execSdChange d n mv s
  | .lockLost d n reason => Sys2Proof.Machine.execLockLost d n reason s
  | .lockAcquired d n => Sys2Proof.Machine.execLockAcquired d n s
  | .reacqStart d n => Sys2Proof.Machine.execReacqStart d n s
  | .reacqDone d n => Sys2Proof.Machine.execReacqDone d n s
  | .reacqFailed d n => Sys2Proof.Machine.execReacqFailed d n s
  | .sliceSubstitution d n => Sys2Proof.Machine.execSliceSubstitution d n s
  | .sliceSubstituted d c side => Sys2Proof.Machine.execSliceSubstituted d c side s
  | .capoHostWrite d n level => Sys2Proof.Machine.execCapoHostWrite d n level s
  | .prsAsserted d c => Sys2Proof.Machine.execPrsAsserted d c s
  | .prsDeasserted d c => Sys2Proof.Machine.execPrsDeasserted d c s
  | .segmentPresent p side => Sys2Proof.Machine.execSegmentPresent p side s
  | .segmentAbsent p side => Sys2Proof.Machine.execSegmentAbsent p side s
  | .trainRetry p => Sys2Proof.Machine.execTrainRetry p s
  | .portDefine k => Sys2Proof.Machine.execPortDefine k s
  | .portEnable k => Sys2Proof.Machine.execPortEnable k s
  | .portDisable k => Sys2Proof.Machine.execPortDisable k s
  | .portStatus k => Sys2Proof.Machine.execPortStatus k s
  | .portAttachPolicy k => Sys2Proof.Machine.execPortAttachPolicy k s
  | .laneEqSet k => Sys2Proof.Machine.execLaneEqSet k s
  | .laneEqGet k => Sys2Proof.Machine.execLaneEqGet k s
  | .laneCapo k => Sys2Proof.Machine.execLaneCapo k s
  | .txSet k => Sys2Proof.Machine.execTxSet k s
  | .txPattern k => Sys2Proof.Machine.execTxPattern k s
  | .driverLimit d t => Sys2Proof.Machine.execDriverLimit d t s
  | .prbsCheck k => Sys2Proof.Machine.execPrbsCheck k s
  | .prbsCheckLock d n => Sys2Proof.Machine.execPrbsCheckLock d n s
  | .prbsCheckRelock d n => Sys2Proof.Machine.execPrbsCheckRelock d n s
  | .prbsCheckEnd d n symbols bitErrs symErrs => Sys2Proof.Machine.execPrbsCheckEnd d n symbols bitErrs symErrs s
  | .sympAttach k => Sys2Proof.Machine.execSympAttach k s
  | .sympDetach k => Sys2Proof.Machine.execSympDetach k s
  | .handover k => Sys2Proof.Machine.execHandover k s
  | .handoverAlign d c side offset => Sys2Proof.Machine.execHandoverAlign d c side offset s
  | .handoverDisagree d c side compared => Sys2Proof.Machine.execHandoverDisagree d c side compared s
  | .handoverConvTimeout d c side => Sys2Proof.Machine.execHandoverConvTimeout d c side s
  | .retuneInService k => Sys2Proof.Machine.execRetuneInService k s
  | .eyeScan k => Sys2Proof.Machine.execEyeScan k s
  | .capture k => Sys2Proof.Machine.execCapture k s
  | .captureTrigger d c side samples => Sys2Proof.Machine.execCaptureTrigger d c side samples s
  | .captureTimeout d c side => Sys2Proof.Machine.execCaptureTimeout d c side s
  | .captureRead k => Sys2Proof.Machine.execCaptureRead k s
  | .bankRotationStart d c => Sys2Proof.Machine.execBankRotationStart d c s
  | .bankSwap d c => Sys2Proof.Machine.execBankSwap d c s
  | .trainingEngineFret d => Sys2Proof.Machine.execTrainingEngineFret d s
  | .trainingFrame p side pos f => Sys2Proof.Machine.execTrainingFrame p side pos f s
  | .frameLock p side pos arrival => Sys2Proof.Machine.execFrameLock p side pos arrival s
  | .frameLockLost p side pos => Sys2Proof.Machine.execFrameLockLost p side pos s
  | .requestAbandoned p side pos => Sys2Proof.Machine.execRequestAbandoned p side pos s
  | .trainBudgetExpired p => Sys2Proof.Machine.execTrainBudgetExpired p s
  | .framesInService p side pos => Sys2Proof.Machine.execFramesInService p side pos s
  | .trainStart k => Sys2Proof.Machine.execTrainStart k s
  | .trainAbort k => Sys2Proof.Machine.execTrainAbort k s
  | .trainStatus k => Sys2Proof.Machine.execTrainStatus k s
  | .fecLockChange p dir locked skew => Sys2Proof.Machine.execFecLockChange p dir locked skew s
  | .fecDegWindowEnd p dir => Sys2Proof.Machine.execFecDegWindowEnd p dir s
  | .blockLockChange p side pos headers => Sys2Proof.Machine.execBlockLockChange p side pos headers s
  | .syndromeWindowEnd d c slots => Sys2Proof.Machine.execSyndromeWindowEnd d c slots s
  | .latticeRebuild d c pos trigger words => Sys2Proof.Machine.execLatticeRebuild d c pos trigger words s
  | .readmitByAgreement d c => Sys2Proof.Machine.execReadmitByAgreement d c s
  | .autoReadmit d c => Sys2Proof.Machine.execAutoReadmit d c s
  | .serviceWord d c copies => Sys2Proof.Machine.execServiceWord d c copies s
  | .readmitTrainSwitch d c => Sys2Proof.Machine.execReadmitTrainSwitch d c s
  | .latticeReadmitDone d c last => Sys2Proof.Machine.execLatticeReadmitDone d c last s
  | .latticeReadmitted d c agreed => Sys2Proof.Machine.execLatticeReadmitted d c agreed s
  | .latticeReadmitFailed d c => Sys2Proof.Machine.execLatticeReadmitFailed d c s
  | .latticeDisarmed d c reason pos pos2 badWords => Sys2Proof.Machine.execLatticeDisarmed d c reason pos pos2 badWords s
  | .latticeDisarm k => Sys2Proof.Machine.execLatticeDisarm k s
  | .latticeArm k => Sys2Proof.Machine.execLatticeArm k s
  | .latticeReadmit k => Sys2Proof.Machine.execLatticeReadmit k s
  | .latticeStatus k => Sys2Proof.Machine.execLatticeStatus k s
  | .pairSlip d c k fill => Sys2Proof.Machine.execPairSlip d c k fill s
  | .phaseSession d c k => Sys2Proof.Machine.execPhaseSession d c k s
  | .phaseRestored d c k last => Sys2Proof.Machine.execPhaseRestored d c k last s
  | .phaseSessionFailed d c k => Sys2Proof.Machine.execPhaseSessionFailed d c k s
  | .qualWindowEnd d o => Sys2Proof.Machine.execQualWindowEnd d o s
  | .refFail d r stopped => Sys2Proof.Machine.execRefFail d r stopped s
  | .holdoverAged d => Sys2Proof.Machine.execHoldoverAged d s
  | .autoReturn d m => Sys2Proof.Machine.execAutoReturn d m s
  | .lanePllRelock d c => Sys2Proof.Machine.execLanePllRelock d c s
  | .switchForced d m => Sys2Proof.Machine.execSwitchForced d m s
  | .refFailFallbackDeferred d r stopped => Sys2Proof.Machine.execRefFailFallbackDeferred d r stopped s
  | .spNotReady d => Sys2Proof.Machine.execSpNotReady d s
  | .spFail d stopped err => Sys2Proof.Machine.execSpFail d stopped err s
  | .lpllUnlock d c side => Sys2Proof.Machine.execLpllUnlock d c side s
  | .clkSwitch k => Sys2Proof.Machine.execClkSwitch k s
  | .clkGate k => Sys2Proof.Machine.execClkGate k s
  | .clkStatus k => Sys2Proof.Machine.execClkStatus k s
  | .gateChange d level node => Sys2Proof.Machine.execGateChange d level node s
  | .standbyEntry => Sys2Proof.Machine.execStandbyEntry s
  | .standbyWake source ns => Sys2Proof.Machine.execStandbyWake source ns s
  | .standbyExit => Sys2Proof.Machine.execStandbyExit s
  | .standbyMonitorRestart d => Sys2Proof.Machine.execStandbyMonitorRestart d s
  | .sync d src tag arrival residence => Sys2Proof.Machine.execSync d src tag arrival residence s
  | .syncSend => Sys2Proof.Machine.execSyncSend s
  | .markerMissing d => Sys2Proof.Machine.execMarkerMissing d s
  | .heartbeatSend d => Sys2Proof.Machine.execHeartbeatSend d s
  | .heartbeat d b => Sys2Proof.Machine.execHeartbeat d b s
  | .bridgeDown d b => Sys2Proof.Machine.execBridgeDown d b s
  | .bridgeUp d b => Sys2Proof.Machine.execBridgeUp d b s
  | .bridgeLaneChange d b lane headers damaged => Sys2Proof.Machine.execBridgeLaneChange d b lane headers damaged s
  | .alignmentBlock d b blocks => Sys2Proof.Machine.execAlignmentBlock d b blocks s
  | .ringState d src tag => Sys2Proof.Machine.execRingState d src tag s
  | .echo d b latency => Sys2Proof.Machine.execEcho d b latency s
  | .regReq d src tag => Sys2Proof.Machine.execRegReq d src tag s
  | .regRsp d src tag => Sys2Proof.Machine.execRegRsp d src tag s
  | .cmdFwd d src tag => Sys2Proof.Machine.execCmdFwd d src tag s
  | .cmdRsp d src tag => Sys2Proof.Machine.execCmdRsp d src tag s
  | .evtFwd d src tag => Sys2Proof.Machine.execEvtFwd d src tag s
  | .ack d src tag => Sys2Proof.Machine.execAck d src tag s
  | .gcommit d src tag => Sys2Proof.Machine.execGcommit d src tag s
  | .elect d src tag => Sys2Proof.Machine.execElect d src tag s
  | .packetResend d tag => Sys2Proof.Machine.execPacketResend d tag s
  | .packetAbandoned d tag => Sys2Proof.Machine.execPacketAbandoned d tag s
  | .die0Unavailable => Sys2Proof.Machine.execDie0Unavailable s
  | .leadChanged => Sys2Proof.Machine.execLeadChanged s
  | .leadReturn => Sys2Proof.Machine.execLeadReturn s
  | .dieIsolate k => Sys2Proof.Machine.execDieIsolate k s
  | .dieRestore k => Sys2Proof.Machine.execDieRestore k s
  | .dieReachableAgain d => Sys2Proof.Machine.execDieReachableAgain d s
  | .registerWrite e b win addr r => Sys2Proof.Machine.execRegisterWrite e b win addr r s
  | .localCommit d half groups => Sys2Proof.Machine.execLocalCommit d half groups s
  | .globalCommit d half groups => Sys2Proof.Machine.execGlobalCommit d half groups s
  | .commitDiscard d half groups => Sys2Proof.Machine.execCommitDiscard d half groups s
  | .wmbSel d m addr => Sys2Proof.Machine.execWmbSel d m addr s
  | .reservedAccess e b off write space => Sys2Proof.Machine.execReservedAccess e b off write space s
  | .twiWriteFrame e bytes => Sys2Proof.Machine.execTwiWriteFrame e bytes s
  | .twiReadFrame e bytes => Sys2Proof.Machine.execTwiReadFrame e bytes s
  | .twiWriteBufEmpty e => Sys2Proof.Machine.execTwiWriteBufEmpty e s
  | .twiBusyNack e => Sys2Proof.Machine.execTwiBusyNack e s
  | .twiReadNotReady e => Sys2Proof.Machine.execTwiReadNotReady e s
  | .twiStartInAck e => Sys2Proof.Machine.execTwiStartInAck e s
  | .targetTimeout e frame unsent => Sys2Proof.Machine.execTargetTimeout e frame unsent s
  | .alertResponse e won => Sys2Proof.Machine.execAlertResponse e won s
  | .alertRedrive e => Sys2Proof.Machine.execAlertRedrive e s
  | .parityFault d off faulty ecc => Sys2Proof.Machine.execParityFault d off faulty ecc s
  | .stagedParityFault d off => Sys2Proof.Machine.execStagedParityFault d off s
  | .ledgerScrubVisit d off ecc => Sys2Proof.Machine.execLedgerScrubVisit d off ecc s
  | .crcPassEnd d => Sys2Proof.Machine.execCrcPassEnd d s
  | .sqDoorbell e q tail => Sys2Proof.Machine.execSqDoorbell e q tail s
  | .cqDoorbell e q head => Sys2Proof.Machine.execCqDoorbell e q head s
  | .lockedSlotWrite e q slot => Sys2Proof.Machine.execLockedSlotWrite e q slot s
  | .commandFetch e q => Sys2Proof.Machine.execCommandFetch e q s
  | .recordPost e q => Sys2Proof.Machine.execRecordPost e q s
  | .inboxTimeout d => Sys2Proof.Machine.execInboxTimeout d s
  | .nop k => Sys2Proof.Machine.execNop k s
  | .getInfo k => Sys2Proof.Machine.execGetInfo k s
  | .opStatus k => Sys2Proof.Machine.execOpStatus k s
  | .opCancel k => Sys2Proof.Machine.execOpCancel k s
  | .fwStage k => Sys2Proof.Machine.execFwStage k s
  | .fwStageAbort k => Sys2Proof.Machine.execFwStageAbort k s
  | .stagingSessionTimeout => Sys2Proof.Machine.execStagingSessionTimeout s
  | .fwActivate k => Sys2Proof.Machine.execFwActivate k s
  | .fwSwap d => Sys2Proof.Machine.execFwSwap d s
  | .fwReverted d => Sys2Proof.Machine.execFwReverted d s
  | .watchdogExpiry d => Sys2Proof.Machine.execWatchdogExpiry d s
  | .pegRestart d rom => Sys2Proof.Machine.execPegRestart d rom s
  | .eventCause d source cause data => Sys2Proof.Machine.execEventCause d source cause data s
  | .eventForward d => Sys2Proof.Machine.execEventForward d s
  | .evtRpWrite e rp => Sys2Proof.Machine.execEvtRpWrite e rp s
  | .msixEvent e => Sys2Proof.Machine.execMsixEvent e s
  | .twiTransfer k => Sys2Proof.Machine.execTwiTransfer k s
  | .moduleIdentify k => Sys2Proof.Machine.execModuleIdentify k s
  | .arbLost d m acked data => Sys2Proof.Machine.execArbLost d m acked data s
  | .stretchTimeout d m acked data => Sys2Proof.Machine.execStretchTimeout d m acked data s
  | .busClear d m pulses freed => Sys2Proof.Machine.execBusClear d m pulses freed s
  | .busError d m acked data => Sys2Proof.Machine.execBusError d m acked data s
  | .hkConversionEnd d raw => Sys2Proof.Machine.execHkConversionEnd d raw s
  | .hkStrokeTrigger d n late => Sys2Proof.Machine.execHkStrokeTrigger d n late s
  | .hkPwmEdge d p rising => Sys2Proof.Machine.execHkPwmEdge d p rising s
  | .hkDelayEnd d n => Sys2Proof.Machine.execHkDelayEnd d n s
  | .overrun d n => Sys2Proof.Machine.execOverrun d n s
  | .hkSeqDefine k => Sys2Proof.Machine.execHkSeqDefine k s
  | .hkInject k => Sys2Proof.Machine.execHkInject k s
  | .hkCalibrate k => Sys2Proof.Machine.execHkCalibrate k s
  | .calDone d => Sys2Proof.Machine.execCalDone d s
  | .hkRpWrite d rp => Sys2Proof.Machine.execHkRpWrite d rp s
  | .tempCritical d above => Sys2Proof.Machine.execTempCritical d above s
  | .tempCritCleared d => Sys2Proof.Machine.execTempCritCleared d s
  | .pwmLoad d => Sys2Proof.Machine.execPwmLoad d s
  | .pwmWrap d p => Sys2Proof.Machine.execPwmWrap d p s
  | .pwmSet k => Sys2Proof.Machine.execPwmSet k s
  | .liveCopy d => Sys2Proof.Machine.execLiveCopy d s
  | .cntSnapshot k => Sys2Proof.Machine.execCntSnapshot k s
  | .meterWindowEnd p dir blocks => Sys2Proof.Machine.execMeterWindowEnd p dir blocks s
  | .taggedSample p dir nth t => Sys2Proof.Machine.execTaggedSample p dir nth t s
  | .profileSample d pc => Sys2Proof.Machine.execProfileSample d pc s
  | .tagTagging k => Sys2Proof.Machine.execTagTagging k s
  | .tagMeter k => Sys2Proof.Machine.execTagMeter k s
  | .tagProfiling k => Sys2Proof.Machine.execTagProfiling k s
  | .bistRun k => Sys2Proof.Machine.execBistRun k s
  | .workSliceEnd d tag work => Sys2Proof.Machine.execWorkSliceEnd d tag work s
  | .sliceAborted d tag clock => Sys2Proof.Machine.execSliceAborted d tag clock s
  | .testEnded d tag result sig loc repaired => Sys2Proof.Machine.execTestEnded d tag result sig loc repaired s
  | .bistResult k => Sys2Proof.Machine.execBistResult k s
  | .repairSoft k => Sys2Proof.Machine.execRepairSoft k s
  | .repairFuse k => Sys2Proof.Machine.execRepairFuse k s
  | .fuseWritten d => Sys2Proof.Machine.execFuseWritten d s
  | .nvRead k ecc => Sys2Proof.Machine.execNvRead k ecc s
  | .nvWrite k => Sys2Proof.Machine.execNvWrite k s
  | .nvWorn k => Sys2Proof.Machine.execNvWorn k s
  | .mirrorResync => Sys2Proof.Machine.execMirrorResync s
  | .calRead k own other => Sys2Proof.Machine.execCalRead k own other s
  | .calWrite k => Sys2Proof.Machine.execCalWrite k s
  | .jtagInstruction d code => Sys2Proof.Machine.execJtagInstruction d code s
  | .cdrLocked d n freq => Sys2Proof.Machine.execCdrLocked d n freq s
  | .outgoingFrameBoundary p side pos => Sys2Proof.Machine.execOutgoingFrameBoundary p side pos s
  | .twiTransferEnd d m result acked data => Sys2Proof.Machine.execTwiTransferEnd d m result acked data s
  | .msixUnmask e vector => Sys2Proof.Machine.execMsixUnmask e vector s
  | .otherAccessDieUnavailable => Sys2Proof.Machine.execOtherAccessDieUnavailable s

end Sys2Proof.Machine
end

