-- ==== Sys2Proof/Machine/Step.lean ====
section
/-! DEFINITION. The step: the command at the front of the queue, or, with an empty queue, one system cycle of idling. -/

namespace Sys2Proof.Machine

/-- One system cycle passes with nothing commanded (R22): the position in the stroke moves by one sc and stops at the
last one, since the stroke boundary is a row of its own (log entry 3). Before the package runs nothing moves. -/
def State.tick (s : State) : State := if s.pos < 1279 then s.advance (s.pos + 1) else s

/-- One step (R31 and the row's own rule): take the command at the front of the queue and run it with the queue's rest;
idle for one system cycle on an empty queue. -/
def step (s : State) : Host.Outcome State Fault Refusal :=
  match s.pending with
  | [] => .next s.tick
  | c :: rest => exec c { s with pending := rest }

/-- s with the command that a table word spells put at the front of its queue; s itself where the word spells none
(log entry 1). -/
def State.withFetchWord (s : State) (nbits w : Nat) : State :=
  match decodeTableWord nbits w with
  | none => s
  | some c => { s with pending := c :: s.pending }

end Sys2Proof.Machine
end

