-- ==== Sys2Proof/Safety.lean ====
section
/-! DEFINITION. The terms the statements are made in: completing, posting, answering; what a command packet must meet to be
taken up; the rows that may change each kind of state; and the invariants of the machine. No meaning of this block ends in a
fault or a refusal, so a safe run is any run: what is stated is what each row does and what it leaves alone. -/

namespace Sys2Proof.Machine

/-! ### Completing -/

/-- Row c run on s answers a next state, of which P holds. -/
def Completes (c : Instr) (s : State) (P : State → Prop) : Prop := ∃ t, exec c s = .next t ∧ P t

/-- Row c completes, and the last thing it does is that this cause occurs at a source of die d (R346); P holds of the state
it has reached by then. -/
def Posts (c : Instr) (s : State) (d : DieId) (src cause data : Nat) (P : State → Prop) : Prop :=
  Completes c s (fun t => ∃ u, t = u.post d src cause data ∧ P u)

/-- Command row c of packet k completes, and its die ends it with this completion record (R325, R330); P holds of the state
its work has reached by then. -/
def Answers (c : Instr) (s : State) (k : Packet) (op status effect : Nat) (data : List Nat) (P : State → Prop) : Prop :=
  Completes c s (fun t => ∃ u, t = u.finish k op (mkRec k status effect data) ∧ P u)

/-- A command packet reaches its pegbox and its turn has come (R326, R329, R331): an access die submitted it, its header's length
is 4 to 64, its die is on the part, its pegbox runs and no earlier command holds it back, the frets for it have not passed where it
collects its reply in frets 21 to 24 (R24), and it waits in that die's inbox or reaches it with a tag that is free. -/
def comes (s : State) (k : Packet) (op : Nat) : Bool :=
  isAccess s.part k.origin && headerLenOk k.length.toNat && present s.part k.die
    && ((s.die k.die).pegRuns && !(s.die k.die).waitsTurn k op && !s.collectLate k.die op)
    && ((s.die k.die).peg.inbox.any (fun w => w.is k op)
      || (!(s.die k.die).peg.ops.any (fun o => o.is k.origin k.queue k.tag) && s.reachable k.origin k.die))

/-- A command packet that its die takes up: it reaches its pegbox, and its length is one of the opcode's. -/
def ready (s : State) (k : Packet) (op : Nat) : Bool := comes s k op && lenOk op k.length.toNat

/-- The die of packet k takes it up in state s; u is s with the packet taken out of the inbox. -/
def takes (s u : State) (k : Packet) (op : Nat) : Bool := ready s k op && u == s.takeInbox k op

/-- The same for a command whose TARGET is to be 0 (R508). -/
def takes0 (s u : State) (k : Packet) (op : Nat) : Bool := takes s u k op && k.target == 0

/-- The same for a command on a port: TARGET names port p, and p is defined (R5, R508). -/
def takesPort (s u : State) (k : Packet) (op : Nat) (p : PortId) : Bool :=
  takes s u k op && portOf u k k.target.toNat == some p && isDefined ((u.die p.die).cfgb p.key)

/-- A row about die d can happen: the die is on the part and the package runs. -/
def up (s : State) (d : DieId) : Bool := present s.part d && s.running

/-- What a command that stages values, strobes commit group g and answers at the boundary that applies them makes of s
(R33, R65, R303): each value of l is staged at its offset through the register's RWS bits with the group's pending bit set,
the strobe is due at the boundary R33 gives, the answer waits for that boundary, and no active value has changed. -/
def StagesAndWaits (s t : State) (k : Packet) (op g : Nat) (l : List (Nat × Half)) (arg : Nat) : Prop :=
  (∀ p ∈ l, ∃ sel, lookup p.1 = some sel ∧
      (t.die k.die).stg p.1 = some (mergeMask ((s.die k.die).base p.1) p.2 sel.rws) ∧ bit (t.die k.die).pend g = true) ∧
  (s.ownPos k.die < 960 → bit (t.die k.die).stroke.dueNow g = true) ∧
  (960 ≤ s.ownPos k.die → bit (t.die k.die).stroke.dueNext g = true) ∧
  ⟨k, op, s.strobeDue k.die, arg, s.stroke k.die⟩ ∈ (t.die k.die).peg.awaits ∧ (∀ e : DieId, (t.die e).active = (s.die e).active)

/-- The DW at BAR4 offset m of an access die lies in a locked slot of a submission queue (R320). -/
def lockedAt (x : Die) (m : Nat) : Bool :=
  match sqSlotAt m with
  | some (q, slot) => (x.queue q).locked slot
  | none => false

/-- A packet of die a for die b as it leaves over bridge w (R272). -/
def sentOver (s : State) (a b : DieId) (bcast : Bool) (tag : Nat) (w : Ew) (body : Body) : Flit :=
  { src := a, dst := b, bcast := bcast, tag := tag, ttl := 7, here := neighbour s.part a w, dir := w, body := body }

/-- t holds the long operation of packet k: opcode, object class and object (R329, R330). -/
def runsOp (t : State) (k : Packet) (op cls obj : Nat) : Bool :=
  (t.die k.die).peg.ops.any (fun o => o.is k.origin k.queue k.tag && o.opcode == op && o.cls == cls && o.obj == obj)

/-! ### What a row may change -/

/-- The rows after which an active value of a configuration register may differ (R8, R31, R310). -/
def writesActive : Instr → Bool
  | .powerOnReset | .brownout .. | .resetN .. | .strokeBoundary .. | .tuningFret .. | .sdChange .. | .lockLost ..
  | .reacqStart .. | .trainRetry .. | .trainBudgetExpired .. | .readmitTrainSwitch .. | .phaseSession .. | .dieReachableAgain ..
  | .parityFault .. | .stagingSessionTimeout | .fwReverted .. | .pegRestart .. | .workSliceEnd .. | .sliceAborted ..
  | .testEnded .. | .outgoingFrameBoundary .. => true
  | _ => false

/-- The rows after which a staged value or a pending bit may differ (R301, R303). -/
def writesStaged : Instr → Bool
  | .powerOnReset | .brownout .. | .resetN .. | .boot .. | .strokeBoundary .. | .portDefine .. | .portEnable ..
  | .portDisable .. | .laneEqSet .. | .txSet .. | .txPattern .. | .trainBudgetExpired .. | .clkSwitch .. | .standbyWake ..
  | .regReq .. | .regRsp .. | .packetAbandoned .. | .registerWrite .. | .commitDiscard .. | .twiWriteFrame ..
  | .stagedParityFault .. | .hkSeqDefine .. | .pwmSet .. => true
  | _ => false

/-- The rows after which the configuration ledger may differ (R310). -/
def writesLedger : Instr → Bool
  | .powerOnReset | .brownout .. | .resetN .. | .strokeBoundary .. | .trainBudgetExpired .. => true
  | _ => false

/-- The rows that may store to the SRAM of a die (R13). -/
def writesSram : Instr → Bool
  | .powerOnReset | .brownout .. | .resetN .. | .perst .. | .strokeBoundary .. | .captureTrigger .. | .trainBudgetExpired ..
  | .standbyWake .. | .regRsp .. | .evtFwd .. | .packetAbandoned .. | .registerWrite .. | .twiWriteFrame .. | .recordPost ..
  | .eventForward .. | .hkConversionEnd .. => true
  | _ => false

/-- The rows that may write the nonvolatile store, or what it keeps of itself (R482 to R491). -/
def writesNv : Instr → Bool
  | .powerOnReset | .brownout .. | .resetN .. | .boot .. | .strokeBoundary .. | .trainBudgetExpired .. | .fwReverted ..
  | .pegRestart .. | .testEnded .. | .repairSoft .. | .fuseWritten .. | .nvRead .. | .nvWrite .. | .nvWorn .. | .mirrorResync
  | .calRead .. | .calWrite .. => true
  | _ => false

/-- The rows after which a receive slice may differ (R73 to R106). -/
def writesSlices : Instr → Bool
  | .powerOnReset | .brownout .. | .resetN .. | .boot .. | .strokeBoundary .. | .tuningFret .. | .converged .. | .adaptLimit ..
  | .sdChange .. | .lockLost .. | .lockAcquired .. | .reacqStart .. | .reacqDone .. | .reacqFailed .. | .capoHostWrite ..
  | .trainRetry .. | .handoverAlign .. | .handoverDisagree .. | .handoverConvTimeout .. | .captureTrigger ..
  | .captureTimeout .. | .trainBudgetExpired .. | .readmitTrainSwitch .. | .latticeReadmitDone .. | .phaseSession ..
  | .phaseRestored .. | .refFail .. | .refFailFallbackDeferred .. | .lpllUnlock .. | .standbyWake .. | .regReq .. | .regRsp ..
  | .packetAbandoned .. | .dieReachableAgain .. | .registerWrite .. | .twiWriteFrame .. | .opCancel .. | .stagingSessionTimeout
  | .fwReverted .. | .pegRestart .. | .bistRun .. | .workSliceEnd .. | .sliceAborted .. | .testEnded .. | .repairSoft ..
  | .cdrLocked .. => true
  | _ => false

/-- The rows after which a transmitter may differ (R107 to R127). -/
def writesTxs : Instr → Bool
  | .powerOnReset | .brownout .. | .resetN .. | .vddhPowerDown | .strokeBoundary .. | .driverLimit .. | .bankRotationStart ..
  | .trainBudgetExpired .. | .readmitTrainSwitch .. | .latticeReadmitDone .. | .phaseSession .. | .phaseRestored ..
  | .gateChange .. | .dieReachableAgain .. | .hkInject .. | .hkCalibrate .. | .bistRun .. | .outgoingFrameBoundary .. => true
  | _ => false

/-- The rows after which a port may differ (R45 to R72, R157 to R204). -/
def writesPorts : Instr → Bool
  | .powerOnReset | .brownout .. | .resetN .. | .strokeBoundary .. | .sdChange .. | .lockLost .. | .lockAcquired ..
  | .prsDeasserted .. | .segmentPresent .. | .segmentAbsent .. | .trainRetry .. | .trainingEngineFret .. | .trainingFrame ..
  | .frameLock .. | .frameLockLost .. | .requestAbandoned .. | .trainBudgetExpired .. | .framesInService .. | .trainStart ..
  | .trainAbort .. | .fecLockChange .. | .fecDegWindowEnd .. | .blockLockChange .. | .syndromeWindowEnd .. | .latticeRebuild ..
  | .readmitTrainSwitch .. | .latticeReadmitDone .. | .latticeReadmitFailed .. | .latticeDisarmed .. | .phaseSession ..
  | .phaseRestored .. | .phaseSessionFailed .. | .refFail .. | .refFailFallbackDeferred .. | .dieReachableAgain ..
  | .opCancel .. | .stagingSessionTimeout | .fwReverted .. | .pegRestart .. | .meterWindowEnd .. | .taggedSample ..
  | .workSliceEnd .. | .testEnded .. | .outgoingFrameBoundary .. => true
  | _ => false

/-- The rows after which a course may differ: its rotation, banks, lattice and gearbox (R128 to R156, R205 to R238). -/
def writesCourses : Instr → Bool
  | .powerOnReset | .brownout .. | .resetN .. | .boot .. | .strokeBoundary .. | .fretOverrun .. | .tuningFret .. | .lockLost ..
  | .lockAcquired .. | .reacqStart .. | .sliceSubstitution .. | .sliceSubstituted .. | .prsAsserted .. | .prsDeasserted ..
  | .trainRetry .. | .laneEqGet .. | .prbsCheck .. | .prbsCheckEnd .. | .sympAttach .. | .sympDetach .. | .handover ..
  | .handoverAlign .. | .handoverDisagree .. | .handoverConvTimeout .. | .retuneInService .. | .eyeScan .. | .capture ..
  | .captureTrigger .. | .captureTimeout .. | .captureRead .. | .bankRotationStart .. | .bankSwap .. | .trainingEngineFret ..
  | .trainingFrame .. | .frameLock .. | .frameLockLost .. | .requestAbandoned .. | .trainBudgetExpired .. | .trainStatus ..
  | .syndromeWindowEnd .. | .latticeRebuild .. | .readmitByAgreement .. | .autoReadmit .. | .serviceWord ..
  | .readmitTrainSwitch .. | .latticeReadmitDone .. | .latticeReadmitted .. | .latticeReadmitFailed .. | .latticeDisarmed ..
  | .latticeDisarm .. | .latticeArm .. | .latticeReadmit .. | .latticeStatus .. | .pairSlip .. | .phaseSession ..
  | .phaseRestored .. | .phaseSessionFailed .. | .refFail .. | .autoReturn .. | .lanePllRelock .. | .switchForced ..
  | .refFailFallbackDeferred .. | .lpllUnlock .. | .clkStatus .. | .gateChange .. | .syncSend | .heartbeatSend ..
  | .dieReachableAgain .. | .opCancel .. | .stagingSessionTimeout | .fwReverted .. | .pegRestart .. | .eventForward ..
  | .msixEvent .. | .hkStrokeTrigger .. | .hkInject .. | .hkCalibrate .. | .pwmLoad .. | .pwmWrap .. | .liveCopy ..
  | .profileSample .. | .bistRun .. | .workSliceEnd .. | .testEnded .. | .repairSoft .. | .outgoingFrameBoundary .. => true
  | _ => false

/-- The rows after which the history of a pin may differ (R85, R97). -/
def writesPins : Instr → Bool
  | .powerOnReset | .brownout .. | .resetN .. | .strokeBoundary .. | .tuningFret .. | .trainRetry .. | .trainBudgetExpired ..
  | .readmitTrainSwitch .. | .phaseSession .. | .dieReachableAgain .. => true
  | _ => false

/-- The rows after which the clock block of a die may differ (R239 to R267). -/
def writesClk : Instr → Bool
  | .powerOnReset | .brownout .. | .resetN .. | .soundpostReady .. | .strokeBoundary .. | .bankRotationStart ..
  | .trainBudgetExpired .. | .qualWindowEnd .. | .refFail .. | .holdoverAged .. | .autoReturn .. | .switchForced ..
  | .refFailFallbackDeferred .. | .spNotReady .. | .spFail .. | .clkSwitch .. | .clkGate .. | .gateChange .. | .standbyWake ..
  | .regReq .. | .regRsp .. | .packetAbandoned .. | .dieReachableAgain .. | .registerWrite .. | .commitDiscard ..
  | .twiWriteFrame .. | .hkInject .. | .hkCalibrate .. | .bistRun .. => true
  | _ => false

/-- The rows after which housekeeping or PWM may differ (R377 to R398). -/
def writesHk : Instr → Bool
  | .powerOnReset | .brownout .. | .resetN .. | .strokeBoundary .. | .trainBudgetExpired .. | .standbyWake .. | .regReq ..
  | .regRsp .. | .packetAbandoned .. | .registerWrite .. | .twiWriteFrame .. | .hkConversionEnd .. | .hkStrokeTrigger ..
  | .hkPwmEdge .. | .hkDelayEnd .. | .overrun .. | .hkInject .. | .hkCalibrate .. | .calDone .. | .hkRpWrite ..
  | .tempCritical .. | .tempCritCleared .. | .pwmLoad .. | .pwmWrap .. => true
  | _ => false

/-- The rows after which a two-wire port may differ (R296 to R298, R359 to R376). -/
def writesTwi : Instr → Bool
  | .powerOnReset | .brownout .. | .resetN .. | .boot .. | .strokeBoundary .. | .trainBudgetExpired .. | .standbyWake ..
  | .regRsp .. | .packetAbandoned .. | .dieReachableAgain .. | .registerWrite .. | .reservedAccess .. | .twiWriteFrame ..
  | .twiReadFrame .. | .twiWriteBufEmpty .. | .twiReadNotReady .. | .targetTimeout .. | .opCancel .. | .stagingSessionTimeout
  | .fwReverted .. | .pegRestart .. | .twiTransfer .. | .moduleIdentify .. | .arbLost .. | .stretchTimeout .. | .busClear ..
  | .busError .. | .twiTransferEnd .. => true
  | _ => false

/-- The rows after which self-test and repair state may differ (R420 to R440). -/
def writesBist : Instr → Bool
  | .powerOnReset | .brownout .. | .resetN .. | .boot .. | .strokeBoundary .. | .fretOverrun .. | .tuningFret ..
  | .reacqStart .. | .laneEqGet .. | .handoverAlign .. | .handoverDisagree .. | .handoverConvTimeout .. | .bankSwap ..
  | .trainingEngineFret .. | .trainBudgetExpired .. | .trainStatus .. | .latticeStatus .. | .clkStatus .. | .syncSend
  | .heartbeatSend .. | .dieReachableAgain .. | .opCancel .. | .stagingSessionTimeout | .fwReverted .. | .pegRestart ..
  | .eventForward .. | .msixEvent .. | .hkStrokeTrigger .. | .pwmLoad .. | .pwmWrap .. | .liveCopy .. | .profileSample ..
  | .bistRun .. | .workSliceEnd .. | .sliceAborted .. | .testEnded .. | .repairSoft .. | .repairFuse .. | .fuseWritten .. => true
  | _ => false

/-- The rows after which register protection may differ (R305 to R314). -/
def writesProt : Instr → Bool
  | .powerOnReset | .brownout .. | .resetN .. | .strokeBoundary .. | .trainBudgetExpired .. | .standbyWake .. | .regReq ..
  | .regRsp .. | .packetAbandoned .. | .registerWrite .. | .localCommit .. | .globalCommit .. | .commitDiscard .. | .wmbSel ..
  | .reservedAccess .. | .twiWriteFrame .. | .twiReadFrame .. | .parityFault .. | .stagedParityFault .. | .ledgerScrubVisit ..
  | .crcPassEnd .. => true
  | _ => false

/-- The rows after which the boundary-scan registers may differ (R480). -/
def writesScan : Instr → Bool
  | .powerOnReset | .brownout .. | .resetN .. | .jtagInstruction .. => true
  | _ => false

/-- The rows after which stroke count, strobes or markers of a die may differ (R21 to R44). -/
def writesStroke : Instr → Bool
  | .powerOnReset | .brownout .. | .resetN .. | .boot .. | .soundpostReady .. | .strokeBoundary .. | .fretOverrun ..
  | .fretOvrClear .. | .tuningFret .. | .reacqStart .. | .portDefine .. | .portEnable .. | .portDisable .. | .laneEqSet ..
  | .laneEqGet .. | .txSet .. | .txPattern .. | .trainingEngineFret .. | .trainBudgetExpired .. | .trainStatus ..
  | .latticeStatus .. | .switchForced .. | .spNotReady .. | .clkSwitch .. | .clkGate .. | .clkStatus .. | .standbyWake ..
  | .standbyMonitorRestart .. | .sync .. | .syncSend | .markerMissing .. | .heartbeatSend .. | .regReq .. | .regRsp ..
  | .gcommit .. | .packetAbandoned .. | .leadChanged | .registerWrite .. | .localCommit .. | .globalCommit ..
  | .twiWriteFrame .. | .fwActivate .. | .eventForward .. | .msixEvent .. | .hkStrokeTrigger .. | .hkSeqDefine .. | .pwmLoad ..
  | .pwmWrap .. | .pwmSet .. | .liveCopy .. | .cntSnapshot .. | .profileSample .. | .workSliceEnd .. => true
  | _ => false

/-- The rows after which a command queue may differ (R320 to R323). -/
def writesQueues : Instr → Bool
  | .powerOnReset | .brownout .. | .resetN .. | .strokeBoundary .. | .tuningFret .. | .portDefine .. | .portEnable ..
  | .portDisable .. | .portStatus .. | .portAttachPolicy .. | .laneEqSet .. | .laneEqGet .. | .laneCapo .. | .txSet ..
  | .txPattern .. | .prbsCheck .. | .prbsCheckEnd .. | .sympAttach .. | .sympDetach .. | .handover .. | .handoverAlign ..
  | .handoverDisagree .. | .handoverConvTimeout .. | .retuneInService .. | .eyeScan .. | .capture .. | .captureTrigger ..
  | .captureTimeout .. | .captureRead .. | .trainBudgetExpired .. | .trainStart .. | .trainAbort .. | .trainStatus ..
  | .latticeDisarm .. | .latticeArm .. | .latticeReadmit .. | .latticeStatus .. | .clkSwitch .. | .clkGate .. | .clkStatus ..
  | .standbyWake .. | .regReq .. | .regRsp .. | .cmdRsp .. | .packetAbandoned .. | .dieIsolate .. | .dieRestore ..
  | .dieReachableAgain .. | .registerWrite .. | .twiWriteFrame .. | .sqDoorbell .. | .cqDoorbell .. | .commandFetch ..
  | .recordPost .. | .inboxTimeout .. | .nop .. | .getInfo .. | .opStatus .. | .opCancel .. | .fwStage .. | .fwStageAbort ..
  | .stagingSessionTimeout | .fwActivate .. | .fwReverted .. | .pegRestart .. | .twiTransfer .. | .moduleIdentify ..
  | .arbLost .. | .stretchTimeout .. | .busClear .. | .busError .. | .hkConversionEnd .. | .hkSeqDefine .. | .hkInject ..
  | .hkCalibrate .. | .calDone .. | .pwmLoad .. | .pwmWrap .. | .pwmSet .. | .liveCopy .. | .cntSnapshot .. | .tagTagging ..
  | .tagMeter .. | .tagProfiling .. | .bistRun .. | .workSliceEnd .. | .testEnded .. | .bistResult .. | .repairSoft ..
  | .repairFuse .. | .fuseWritten .. | .nvRead .. | .nvWrite .. | .nvWorn .. | .calRead .. | .calWrite .. | .twiTransferEnd .. => true
  | _ => false

/-- The rows after which a pegbox may differ: inbox, operations and images (R324 to R340). -/
def writesPeg : Instr → Bool
  | .powerOnReset | .brownout .. | .resetN .. | .boot .. | .strokeBoundary .. | .fretOverrun .. | .tuningFret ..
  | .reacqStart .. | .portDefine .. | .portEnable .. | .portDisable .. | .portStatus .. | .portAttachPolicy .. | .laneEqSet ..
  | .laneEqGet .. | .laneCapo .. | .txSet .. | .txPattern .. | .prbsCheck .. | .prbsCheckLock .. | .prbsCheckRelock ..
  | .prbsCheckEnd .. | .sympAttach .. | .sympDetach .. | .handover .. | .handoverAlign .. | .handoverDisagree ..
  | .handoverConvTimeout .. | .retuneInService .. | .eyeScan .. | .capture .. | .captureTrigger .. | .captureTimeout ..
  | .captureRead .. | .trainingEngineFret .. | .trainBudgetExpired .. | .trainStart .. | .trainAbort .. | .trainStatus ..
  | .latticeDisarm .. | .latticeArm .. | .latticeReadmit .. | .latticeStatus .. | .clkSwitch .. | .clkGate .. | .clkStatus ..
  | .standbyEntry | .standbyWake .. | .syncSend | .heartbeatSend .. | .regReq .. | .regRsp .. | .cmdFwd .. | .cmdRsp ..
  | .gcommit .. | .packetAbandoned .. | .dieIsolate .. | .dieRestore .. | .dieReachableAgain .. | .registerWrite ..
  | .globalCommit .. | .twiWriteFrame .. | .commandFetch .. | .recordPost .. | .inboxTimeout .. | .nop .. | .getInfo ..
  | .opStatus .. | .opCancel .. | .fwStage .. | .fwStageAbort .. | .stagingSessionTimeout | .fwActivate .. | .fwSwap ..
  | .fwReverted .. | .watchdogExpiry .. | .pegRestart .. | .eventForward .. | .msixEvent .. | .twiTransfer ..
  | .moduleIdentify .. | .arbLost .. | .stretchTimeout .. | .busClear .. | .busError .. | .hkConversionEnd ..
  | .hkStrokeTrigger .. | .hkSeqDefine .. | .hkInject .. | .hkCalibrate .. | .calDone .. | .pwmLoad .. | .pwmWrap ..
  | .pwmSet .. | .liveCopy .. | .cntSnapshot .. | .profileSample .. | .tagTagging .. | .tagMeter .. | .tagProfiling ..
  | .bistRun .. | .workSliceEnd .. | .testEnded .. | .bistResult .. | .repairSoft .. | .repairFuse .. | .fuseWritten ..
  | .nvRead .. | .nvWrite .. | .nvWorn .. | .calRead .. | .calWrite .. | .twiTransferEnd .. => true
  | _ => false

/-- The rows after which the lead die, the phase of the package or its wake may differ (R15, R462 to R474). -/
def writesMode : Instr → Bool
  | .powerOnReset | .brownout .. | .resetN .. | .boot .. | .vddhPowerDown | .strokeBoundary .. | .trainBudgetExpired ..
  | .standbyEntry | .standbyWake .. | .standbyExit | .leadChanged => true
  | _ => false

/-- The rows after which a PCI Express endpoint may differ (R290 to R295). -/
def writesEndpoints : Instr → Bool
  | .powerOnReset | .brownout .. | .resetN .. | .perst .. | .pcieLink .. | .poisonedTlp .. | .standbyWake .. | .regRsp ..
  | .packetAbandoned .. | .registerWrite .. | .reservedAccess .. | .twiWriteFrame .. | .twiReadFrame .. => true
  | _ => false

/-- The rows after which a firmware activation of the package may differ (R338 to R340). -/
def writesImages : Instr → Bool
  | .powerOnReset | .brownout .. | .resetN .. | .strokeBoundary .. | .trainBudgetExpired .. | .dieReachableAgain ..
  | .stagingSessionTimeout | .fwActivate .. | .fwReverted .. | .pegRestart .. => true
  | _ => false

/-- The rows that may move the position in the stroke (R22, R26). -/
def movesPos : Instr → Bool
  | .powerOnReset | .brownout .. | .resetN .. | .boot .. | .strokeBoundary .. | .fretOverrun .. | .tuningFret ..
  | .reacqStart .. | .laneEqGet .. | .trainingEngineFret .. | .trainBudgetExpired .. | .trainStatus .. | .latticeStatus ..
  | .clkStatus .. | .standbyEntry | .standbyWake .. | .syncSend | .heartbeatSend .. | .eventForward .. | .msixEvent ..
  | .hkStrokeTrigger .. | .pwmLoad .. | .pwmWrap .. | .liveCopy .. | .profileSample .. | .workSliceEnd .. => true
  | _ => false

/-- The rows that may use up a free value (log entry 4). -/
def takesFree : Instr → Bool
  | .powerOnReset | .brownout .. | .resetN .. | .boot .. | .strokeBoundary .. | .handoverAlign .. | .handoverDisagree ..
  | .handoverConvTimeout .. | .trainingEngineFret .. | .trainBudgetExpired .. | .standbyWake .. | .dieReachableAgain ..
  | .ledgerScrubVisit .. | .opCancel .. | .stagingSessionTimeout | .fwReverted .. | .pegRestart .. | .workSliceEnd .. => true
  | _ => false

/-- The rows after which no event buffer, ring or mask differs: no cause occurs in them (R346). -/
def postsNothing : Instr → Bool
  | .fretOvrClear .. | .sliceSubstitution .. | .sliceSubstituted .. | .segmentPresent .. | .segmentAbsent .. | .prbsCheckLock ..
  | .prbsCheckRelock .. | .frameLockLost .. | .requestAbandoned .. | .readmitByAgreement .. | .autoReadmit .. | .serviceWord ..
  | .lanePllRelock .. | .standbyEntry | .standbyMonitorRestart .. | .syncSend | .heartbeatSend .. | .ringState .. | .echo ..
  | .cmdFwd .. | .gcommit .. | .elect .. | .packetResend .. | .localCommit .. | .commitDiscard .. | .wmbSel ..
  | .twiWriteBufEmpty .. | .twiBusyNack .. | .twiReadNotReady .. | .twiStartInAck .. | .watchdogExpiry .. | .hkPwmEdge ..
  | .hkRpWrite .. | .meterWindowEnd .. | .taggedSample .. | .profileSample .. | .jtagInstruction .. => true
  | _ => false

/-- The die whose hardware alone a row acts on: its die, the die of its port, the access die of its endpoint. None for a row
that reaches other dies too, and for a command packet. -/
def homeDie (p : Part) : Instr → Option DieId
  | .fretOvrClear d _ | .converged d _ | .adaptLimit d _ _ | .sdChange d _ _ | .lockLost d _ _ | .lockAcquired d _
  | .reacqDone d _ | .reacqFailed d _ | .sliceSubstitution d _ | .sliceSubstituted d _ _ | .capoHostWrite d _ _
  | .prsAsserted d _ | .prsDeasserted d _ | .driverLimit d _ | .prbsCheckLock d _ | .prbsCheckRelock d _
  | .prbsCheckEnd d _ _ _ _ | .handoverAlign d _ _ _ | .handoverDisagree d _ _ _ | .handoverConvTimeout d _ _
  | .captureTrigger d _ _ _ | .captureTimeout d _ _ | .bankRotationStart d _ | .bankSwap d _ | .syndromeWindowEnd d _ _
  | .latticeRebuild d _ _ _ _ | .readmitByAgreement d _ | .autoReadmit d _ | .serviceWord d _ _ | .readmitTrainSwitch d _
  | .latticeReadmitDone d _ _ | .latticeReadmitted d _ _ | .latticeReadmitFailed d _ | .latticeDisarmed d _ _ _ _ _
  | .pairSlip d _ _ _ | .phaseSession d _ _ | .phaseRestored d _ _ _ | .phaseSessionFailed d _ _ | .qualWindowEnd d _
  | .refFail d _ _ | .holdoverAged d | .autoReturn d _ | .lanePllRelock d _ | .refFailFallbackDeferred d _ _ | .spFail d _ _
  | .lpllUnlock d _ _ | .gateChange d _ _ | .standbyMonitorRestart d | .sync d _ _ _ _ | .markerMissing d | .heartbeat d _
  | .bridgeDown d _ | .bridgeUp d _ | .bridgeLaneChange d _ _ _ _ | .alignmentBlock d _ _ | .ringState d _ _ | .echo d _ _
  | .regReq d _ _ | .regRsp d _ _ | .cmdFwd d _ _ | .cmdRsp d _ _ | .evtFwd d _ _ | .ack d _ _ | .gcommit d _ _ | .elect d _ _
  | .packetResend d _ | .packetAbandoned d _ | .localCommit d _ _ | .globalCommit d _ _ | .commitDiscard d _ _ | .wmbSel d _ _
  | .parityFault d _ _ _ | .stagedParityFault d _ | .ledgerScrubVisit d _ _ | .crcPassEnd d | .fwSwap d | .watchdogExpiry d
  | .eventCause d _ _ _ | .arbLost d _ _ _ | .stretchTimeout d _ _ _ | .busClear d _ _ _ | .busError d _ _ _ | .hkPwmEdge d _ _
  | .hkDelayEnd d _ | .overrun d _ | .hkRpWrite d _ | .tempCritical d _ | .tempCritCleared d | .sliceAborted d _ _
  | .jtagInstruction d _ | .cdrLocked d _ _ | .twiTransferEnd d _ _ _ _ => some d
  | .segmentPresent q _ | .segmentAbsent q _ | .trainRetry q | .trainingFrame q _ _ _ | .frameLock q _ _ _
  | .frameLockLost q _ _ | .requestAbandoned q _ _ | .framesInService q _ _ | .fecLockChange q _ _ _ | .fecDegWindowEnd q _
  | .blockLockChange q _ _ _ | .meterWindowEnd q _ _ | .taggedSample q _ _ _ | .outgoingFrameBoundary q _ _ => some q.die
  | .perst e | .pcieLink e _ _ _ | .poisonedTlp e _ | .registerWrite e _ _ _ _ | .twiWriteFrame e _ | .twiReadFrame e _
  | .twiWriteBufEmpty e | .twiBusyNack e | .twiReadNotReady e | .twiStartInAck e | .targetTimeout e _ _ | .alertResponse e _
  | .alertRedrive e | .sqDoorbell e _ _ | .cqDoorbell e _ _ | .lockedSlotWrite e _ _ | .commandFetch e _ | .recordPost e _
  | .evtRpWrite e _ | .msixUnmask e _ => some (accessDie p e)
  | _ => none

/-- The packet and the opcode of a command row whose row is chosen by the opcode alone. -/
def commandOf : Instr → Option (Packet × Nat)
  | .portDefine k => some (k, 0x0101)
  | .portEnable k => some (k, 0x0102)
  | .portDisable k => some (k, 0x0103)
  | .portStatus k => some (k, 0x0104)
  | .portAttachPolicy k => some (k, 0x0105)
  | .laneEqSet k => some (k, 0x0201)
  | .laneEqGet k => some (k, 0x0202)
  | .laneCapo k => some (k, 0x0203)
  | .txSet k => some (k, 0x0204)
  | .txPattern k => some (k, 0x0205)
  | .prbsCheck k => some (k, 0x0503)
  | .sympAttach k => some (k, 0x0401)
  | .sympDetach k => some (k, 0x0402)
  | .handover k => some (k, 0x0403)
  | .retuneInService k => some (k, 0x0404)
  | .eyeScan k => some (k, 0x0501)
  | .capture k => some (k, 0x0502)
  | .captureRead k => some (k, 0x0502)
  | .trainStart k => some (k, 0x0301)
  | .trainAbort k => some (k, 0x0302)
  | .trainStatus k => some (k, 0x0303)
  | .latticeStatus k => some (k, 0x0602)
  | .clkSwitch k => some (k, 0x0701)
  | .clkGate k => some (k, 0x0702)
  | .clkStatus k => some (k, 0x0703)
  | .dieIsolate k => some (k, 0x0D01)
  | .nop k => some (k, 0x0001)
  | .getInfo k => some (k, 0x0002)
  | .opStatus k => some (k, 0x0003)
  | .opCancel k => some (k, 0x0004)
  | .fwActivate k => some (k, 0x0A02)
  | .twiTransfer k => some (k, 0x0E01)
  | .moduleIdentify k => some (k, 0x0E02)
  | .hkSeqDefine k => some (k, 0x0901)
  | .hkInject k => some (k, 0x0902)
  | .hkCalibrate k => some (k, 0x0903)
  | .pwmSet k => some (k, 0x0904)
  | .cntSnapshot k => some (k, 0x0B01)
  | .bistRun k => some (k, 0x0C01)
  | .bistResult k => some (k, 0x0C02)
  | .repairSoft k => some (k, 0x0C03)
  | .repairFuse k => some (k, 0x0C04)
  | .nvRead k _ => some (k, 0x0801)
  | .nvWrite k => some (k, 0x0802)
  | .calRead k _ _ => some (k, 0x0803)
  | .calWrite k => some (k, 0x0804)
  | _ => none

/-- The packet of a command that acts on no die but the one it names and, where that die answers a packet that never reached
it, the one that submitted it. -/
def nearCommand : Instr → Option Packet
  | .portDefine k | .portEnable k | .portDisable k | .portStatus k | .portAttachPolicy k | .laneEqSet k | .laneCapo k | .txSet k
  | .txPattern k | .prbsCheck k | .sympAttach k | .sympDetach k | .handover k | .retuneInService k | .eyeScan k | .capture k
  | .captureRead k | .trainStart k | .trainAbort k | .latticeDisarm k | .latticeArm k | .latticeReadmit k | .clkGate k
  | .dieIsolate k | .dieRestore k | .nop k | .getInfo k | .opStatus k | .twiTransfer k | .moduleIdentify k | .hkSeqDefine k
  | .hkInject k | .hkCalibrate k | .pwmSet k | .tagTagging k | .tagMeter k | .tagProfiling k | .bistRun k | .bistResult k
  | .repairFuse k | .nvRead k _ | .calRead k _ _ => some k
  | _ => none

/-! ### Invariants -/

/-- The memories of every die stand in their one canonical form. -/
def State.memoriesOk (s : State) : Prop :=
  ∀ d : DieId, Memory.wf (s.die d).sram = true ∧ Memory.wf (s.die d).nv = true

/-- The lead die, once chosen, is an access die of the part (R15, R282); the phase of the package is one of the four; and its
position lies within the stroke (R22). -/
def State.packageOk (s : State) : Prop :=
  (∀ d : DieId, s.lead = some d → isAccess s.part d = true) ∧ s.phase ≤ 3 ∧ s.pos ≤ 1279

end Sys2Proof.Machine
end

