-- ==== Sys2Proof/Certificates/Slice0/Obligations.lean ====
section
/-! DEFINITION. The statements. Each is a conjunction of clauses, one for each row or form of a row; what a row completes with
is said by Completes, Posts and Answers (Safety.lean), which say that exec answers a next state. -/

open Sys2Proof Sys2Proof.Machine

/-- For every command c and every state s, the step of s with c at the front of its queue is exec of c on s with the queue's
rest. With an empty queue the step is one system cycle: the position in the stroke moves by one sc and stops at the last
one, and no register, memory, port or lane differs (the model's choice, log entry 3). (R22) -/
def Obligations.StepRunsTheFront : Prop :=
  (∀ (s : State) (c : Instr) (rest : List Instr),
      step { s with pending := c :: rest } = exec c { s with pending := rest }) ∧
  (∀ (s : State),
      s.pending = [] →
      ∃ t : State, step s = .next t ∧ t.pos = (if s.running = true ∧ s.pos < 1279 then s.pos + 1 else s.pos) ∧ t.pending = [] ∧
        t.phase = s.phase ∧ t.lead = s.lead ∧ t.air = s.air ∧ ∀ d : DieId, (t.die d).active = (s.die d).active ∧ (t.die d).staged = (s.die d).staged ∧
          (t.die d).sram = (s.die d).sram ∧ (t.die d).nv = (s.die d).nv ∧ (t.die d).slices = (s.die d).slices ∧ (t.die d).ports = (s.die d).ports)

/-- For every row and every state exec answers a next state: nothing that can be commanded or that can happen ends in a fault or
a refusal. The queue of waiting commands and the part are as they were. (R326, R19) -/
def Obligations.EveryRowCompletes : Prop :=
  (∀ (c : Instr) (s : State),
      ∃ t : State, exec c s = .next t ∧ t.pending = s.pending ∧ t.part = s.part)

/-- After reset the package is held in reset with no lead die, no packet on the ring and an empty queue. Every configuration
register of every die holds its reset value in use and in the ledger, with nothing staged; memories list nothing; every
counter and the stroke count are 0; every port is DISABLED, every transmitter is OFF, every command queue is disabled, and
the boundary-scan register selects IDCODE. (R10, R399, R462, R467, R480) -/
def Obligations.ResetLeaves : Prop :=
  State.reset.phase = 0 ∧ State.reset.lead = none ∧ State.reset.air = [] ∧ State.reset.pending = [] ∧ ∀ d : DieId,
  (∀ o : Nat, (State.reset.die d).act o = rwsReset o ∧ (State.reset.die d).led o = rwsReset o ∧ (State.reset.die d).stg o = none) ∧
  (State.reset.die d).sram = [] ∧ (State.reset.die d).nv = [] ∧ State.reset.stroke d = 0 ∧ (∀ o : Nat, (State.reset.die d).counter o = 0) ∧
  (∀ n : Nat, ((State.reset.die d).port n).state = 0 ∧ ((State.reset.die d).tx n).mode = 5) ∧
  (∀ q : QueueId, ((State.reset.die d).queue q).enabled = false) ∧ (State.reset.die d).ir = 1

/-- Right after reset the memories of every die stand in their canonical form, no lead die has been chosen, the phase is one of
the four, and the position lies within the stroke. (R13, R15, R22, R482) -/
def Obligations.ResetMeetsTheInvariants : Prop :=
  State.reset.memoriesOk ∧ State.reset.packageOk

/-- From every state in which the SRAM and the nonvolatile store of every die stand in their canonical form (addresses strictly
rising, no byte that an unlisted address reads as), every step that answers a next state leaves them so. (R13, R320, R345,
R482) -/
def Obligations.StepKeepsMemoriesCanonical : Prop :=
  (∀ (s t : State),
      s.memoriesOk →
      step s = .next t →
      t.memoriesOk)

/-- From every state in which the lead die, if one is chosen, is an access die of the part, the phase is one of the four and the
position lies within the stroke, every step that answers a next state leaves them so. (R15, R22, R282, R470) -/
def Obligations.StepKeepsTheLeadAndPosition : Prop :=
  (∀ (s t : State),
      s.packageOk →
      step s = .next t →
      t.packageOk)

/-- Active values change in the rows of writesActive alone: the boundary, resets, restores, and the hardware's own adaptation
and repair. Staged values and pending bits change in the rows of writesStaged alone, and the ledger at a boundary or a reset
alone. Every other row leaves every configuration register of every die as it was. (R8, R31, R301, R303, R310) -/
def Obligations.ConfigurationFrame : Prop :=
  (∀ (c : Instr) (s t : State),
      exec c s = .next t →
      (writesActive c = false → ∀ d : DieId, (t.die d).active = (s.die d).active) ∧
        (writesStaged c = false → ∀ d : DieId, (t.die d).staged = (s.die d).staged ∧ (t.die d).pend = (s.die d).pend) ∧
        (writesLedger c = false → ∀ d : DieId, (t.die d).ledger = (s.die d).ledger))

/-- The SRAM of every die is unchanged, every byte of it, by every row but those of writesSram, and the nonvolatile store with
its records by every row but those of writesNv. (R13, R482, R484) -/
def Obligations.MemoryFrame : Prop :=
  (∀ (c : Instr) (s t : State),
      exec c s = .next t →
      (writesSram c = false → ∀ d : DieId, (t.die d).sram = (s.die d).sram) ∧
        (writesNv c = false → ∀ d : DieId, (t.die d).nv = (s.die d).nv ∧ (t.die d).nvs = (s.die d).nvs))

/-- Receive slices, transmitters, ports, courses and the history of pins are unchanged, on every die, by every row but those the
five predicates list. (R58, R74, R94, R114, R139) -/
def Obligations.LaneFrame : Prop :=
  (∀ (c : Instr) (s t : State),
      exec c s = .next t →
      (writesSlices c = false → ∀ d : DieId, (t.die d).slices = (s.die d).slices) ∧
        (writesTxs c = false → ∀ d : DieId, (t.die d).txs = (s.die d).txs) ∧
        (writesPorts c = false → ∀ d : DieId, (t.die d).ports = (s.die d).ports) ∧
        (writesCourses c = false → ∀ d : DieId, (t.die d).courses = (s.die d).courses) ∧
        (writesPins c = false → ∀ d : DieId, (t.die d).pins = (s.die d).pins))

/-- The clock block, housekeeping and PWM, the two-wire ports, self-test and repair, register protection and the boundary-scan
registers of every die are unchanged by every row but those the six predicates list. (R249, R296, R305, R377, R420, R480) -/
def Obligations.BlockFrame : Prop :=
  (∀ (c : Instr) (s t : State),
      exec c s = .next t →
      (writesClk c = false → ∀ d : DieId, (t.die d).clk = (s.die d).clk) ∧
        (writesHk c = false → ∀ d : DieId, (t.die d).hk = (s.die d).hk) ∧
        (writesTwi c = false → ∀ d : DieId, (t.die d).twi = (s.die d).twi) ∧
        (writesBist c = false → ∀ d : DieId, (t.die d).bist = (s.die d).bist) ∧
        (writesProt c = false → ∀ d : DieId, (t.die d).prot = (s.die d).prot) ∧
        (writesScan c = false → ∀ d : DieId, (t.die d).ir = (s.die d).ir ∧ (t.die d).irCap = (s.die d).irCap))

/-- The command queues, the pegbox and the stroke block of every die are unchanged by every row but those the predicates list,
and a row in which no cause occurs leaves the event state of every die as it was. (R21, R320, R325, R346) -/
def Obligations.PegboxFrame : Prop :=
  (∀ (c : Instr) (s t : State),
      exec c s = .next t →
      (writesQueues c = false → ∀ d : DieId, (t.die d).q0 = (s.die d).q0 ∧ (t.die d).q1 = (s.die d).q1 ∧ (t.die d).q2 = (s.die d).q2) ∧
        (writesPeg c = false → ∀ d : DieId, (t.die d).peg = (s.die d).peg) ∧
        (writesStroke c = false → ∀ d : DieId, (t.die d).stroke = (s.die d).stroke) ∧
        (postsNothing c = true → ∀ d : DieId, (t.die d).evt = (s.die d).evt))

/-- The phase, the lead die, the state of a Standby, the endpoints, a firmware activation in progress, the position in the
stroke and the index of the free values are unchanged by every row but those the predicates list. (R15, R22, R290, R338,
R470) -/
def Obligations.PackageFrame : Prop :=
  (∀ (c : Instr) (s t : State),
      exec c s = .next t →
      (writesMode c = false → t.lead = s.lead ∧ t.phase = s.phase ∧ t.wake = s.wake ∧ t.waking = s.waking ∧ t.rootOff = s.rootOff ∧ t.vddhOff = s.vddhOff) ∧
        (writesEndpoints c = false → t.ep0 = s.ep0 ∧ t.ep1 = s.ep1) ∧
        (writesImages c = false → t.gsync = s.gsync ∧ t.fwHeld = s.fwHeld ∧ t.fwOp = s.fwOp ∧ t.fwDone = s.fwDone ∧ t.fwBack = s.fwBack) ∧
        (movesPos c = false → t.pos = s.pos) ∧
        (takesFree c = false → t.free = s.free))

/-- A row about one die leaves every other die of the package exactly as it was, registers, memories, queues and events. A
command packet that acts on the die it names leaves every die alone but that one and the one that submitted it. (R272, R331,
R441) -/
def Obligations.RowsStayOnTheirDie : Prop :=
  (∀ (c : Instr) (s t : State) (d : DieId),
      homeDie s.part c = some d →
      exec c s = .next t →
      ∀ e : DieId, e ≠ d → t.die e = s.die e) ∧
  (∀ (c : Instr) (s t : State) (k : Packet),
      nearCommand c = some k →
      exec c s = .next t →
      ∀ e : DieId, e ≠ k.die → e ≠ k.origin → t.die e = s.die e)

/-- A packet whose length is not 4 to 64 words is answered BAD_PARAM with header error 1, one with a length its opcode cannot
have BAD_PARAM or, when its TARGET has no shape the opcode allows, BAD_TARGET, one to a die the part has not BAD_TARGET, one
whose tag is in execution BAD_PARAM, one to a die out of reach DIE_UNAVAILABLE; a packet whose pegbox does not run, or whose
turn has not come (a command of its queue, or one that shares an object with it, waits there before it, or a started one
that shares an object is not answered), waits in the inbox of its die, and one that waits there already stays. In none of
these does anything of the command take effect. (R326, R329, R331) -/
def Obligations.CommandChecks : Prop :=
  (∀ (c : Instr) (s : State) (k : Packet) (op : Nat),
      commandOf c = some (k, op) →
      isAccess s.part k.origin = true →
      (s.die k.die).peg.inbox.any (fun w => w.is k op) = false →
      headerLenOk k.length.toNat = false →
      Completes c s (fun t => t = s.headerError k stBadParam 1)) ∧
  (∀ (c : Instr) (s : State) (k : Packet) (op : Nat),
      commandOf c = some (k, op) →
      isAccess s.part k.origin = true →
      comes s k op = true →
      lenOk op k.length.toNat = false →
      Completes c s (fun t => t = (s.takeInbox k op).refuse k op (if (s.takeInbox k op).targetShape k op then stBadParam else stBadTarget))) ∧
  (∀ (c : Instr) (s : State) (k : Packet) (op : Nat),
      commandOf c = some (k, op) →
      isAccess s.part k.origin = true →
      (s.die k.die).peg.inbox.any (fun w => w.is k op) = false →
      headerLenOk k.length.toNat = true →
      present s.part k.die = false →
      Completes c s (fun t => t = s.headerError k stBadTarget 4)) ∧
  (∀ (c : Instr) (s : State) (k : Packet) (op : Nat),
      commandOf c = some (k, op) →
      isAccess s.part k.origin = true →
      headerLenOk k.length.toNat = true →
      present s.part k.die = true →
      (s.die k.die).peg.inbox.any (fun w => w.is k op) = false →
      (s.die k.die).peg.ops.any (fun o => o.is k.origin k.queue k.tag) = true →
      Completes c s (fun t => t = s.headerError k stBadParam 3)) ∧
  (∀ (c : Instr) (s : State) (k : Packet) (op : Nat),
      commandOf c = some (k, op) →
      isAccess s.part k.origin = true →
      headerLenOk k.length.toNat = true →
      present s.part k.die = true →
      (s.die k.die).peg.inbox.any (fun w => w.is k op) = false →
      (s.die k.die).peg.ops.any (fun o => o.is k.origin k.queue k.tag) = false →
      s.reachable k.origin k.die = false →
      Completes c s (fun t => t = s.headerError k stUnavail 0)) ∧
  (∀ (c : Instr) (s : State) (k : Packet) (op : Nat),
      commandOf c = some (k, op) →
      isAccess s.part k.origin = true →
      headerLenOk k.length.toNat = true →
      present s.part k.die = true →
      (s.die k.die).peg.inbox.any (fun w => w.is k op) = false →
      (s.die k.die).peg.ops.any (fun o => o.is k.origin k.queue k.tag) = false →
      s.reachable k.origin k.die = true →
      (s.die k.die).pegRuns = false →
      Completes c s (fun t => t = s.enqueue k.die k op)) ∧
  (∀ (c : Instr) (s : State) (k : Packet) (op : Nat),
      commandOf c = some (k, op) →
      isAccess s.part k.origin = true →
      headerLenOk k.length.toNat = true →
      present s.part k.die = true →
      (s.die k.die).peg.inbox.any (fun w => w.is k op) = true →
      (s.die k.die).pegRuns = false →
      Completes c s (fun t => t = s)) ∧
  (∀ (c : Instr) (s : State) (k : Packet) (op : Nat),
      commandOf c = some (k, op) →
      isAccess s.part k.origin = true →
      headerLenOk k.length.toNat = true →
      present s.part k.die = true →
      (s.die k.die).peg.inbox.any (fun w => w.is k op) = false →
      (s.die k.die).peg.ops.any (fun o => o.is k.origin k.queue k.tag) = false →
      s.reachable k.origin k.die = true →
      (s.die k.die).waitsTurn k op = true →
      Completes c s (fun t => t = s.enqueue k.die k op)) ∧
  (∀ (c : Instr) (s : State) (k : Packet) (op : Nat),
      commandOf c = some (k, op) →
      isAccess s.part k.origin = true →
      headerLenOk k.length.toNat = true →
      present s.part k.die = true →
      (s.die k.die).peg.inbox.any (fun w => w.is k op) = true →
      (s.die k.die).waitsTurn k op = true →
      Completes c s (fun t => t = s))

/-- A record handed over at the die of its queue joins the records that wait for that queue while it is enabled; from another
die it travels as a reply that stays unanswered until it is acknowledged. A cause that occurs advances the sequence number
of its source and places a record with the die's time in the local buffer, unless the source has placed four in this stroke;
a non-maskable cause is placed whatever its source has placed. EPOCH records of one instant stand in the order of their
KIND; at an access die an EPOCH record waits for the earlier records of its dies, holds back every record with a later
cause, and is written with INCOMPLETE = 1 when its own two strokes end first. EVENT_CAUSE, EVENT_FORWARD, EVT_RP_WRITE,
MSIX_EVENT and MSIX_UNMASK, the doorbells, a write to a locked slot, COMMAND_FETCH, RECORD_POST and INBOX_TIMEOUT complete,
and leave every register, slice and port as it was. (R320, R325, R326, R328, R331, R346, R350, R351, R354, R355) -/
def Obligations.RecordsAndEvents : Prop :=
  (∀ (s : State) (d : DieId) (r : Rec),
      r.origin = d →
      ((s.die d).queue r.queue).enabled = true →
      r.status ≠ 2 →
      ((s.deliver d r).die d).queue r.queue = { (s.die d).queue r.queue with waiting := ((s.die d).queue r.queue).waiting ++ [r] } ∧
        (∀ q : QueueId, q ≠ r.queue → ((s.deliver d r).die d).queue q = (s.die d).queue q) ∧ ∀ e : DieId, e ≠ d → (s.deliver d r).die e = s.die e) ∧
  (∀ (s : State) (d : DieId) (r : Rec),
      r.origin ≠ d →
      ((s.deliver d r).die d).brg.sent = (s.die d).brg.sent ++ [⟨r.origin, (s.die d).brg.nextTag, s.stroke d, s.stroke d, .cmdRsp r.queue r.entry r.tag.toNat (some r)⟩] ∧
        ∀ e : DieId, ∀ q : QueueId, ((s.deliver d r).die e).queue q = (s.die e).queue q) ∧
  (∀ (s : State) (d : DieId) (src cause data : Nat),
      isNmi src cause = false →
      (src ≠ 456 ∨ cause ≠ 0x10) →
      SMap.get 0 (s.die d).evt.stroke src < 4 →
      (s.die d).evt.local_.length < 4096 →
      ((s.post d src cause data).die d).evt.local_ = (s.die d).evt.local_ ++ [{ time := s.stamp d, source := d.val * 512 + src, cause := cause, nmi := false, late := false, seq := (SMap.get 0 (s.die d).evt.seq src + 1) % 256, data := data % 2 ^ 32 }] ∧
        SMap.get 0 ((s.post d src cause data).die d).evt.seq src = (SMap.get 0 (s.die d).evt.seq src + 1) % 256 ∧
        SMap.get 0 ((s.post d src cause data).die d).evt.stroke src = SMap.get 0 (s.die d).evt.stroke src + 1 ∧
        ∀ e : DieId, e ≠ d → (s.post d src cause data).die e = s.die e) ∧
  (∀ (s : State) (d : DieId) (r : Evt),
      r.isEpoch = true →
      s.earlierOut d r = true →
      s.stamp d < r.time + 512 →
      s.ringTake d r = s.onDie d (fun x => { x with evt := { x.evt with held := x.evt.held ++ [r] } })) ∧
  (∀ (s : State) (d : DieId) (r : Evt),
      (s.die d).evt.held.any (fun e => e.isEpoch && decide (e.time < r.time)) = true →
      s.ringTake d r = s.onDie d (fun x => { x with evt := { x.evt with held := x.evt.held ++ [r] } })) ∧
  (∀ (s : State) (d : DieId) (r : Evt),
      r.isEpoch = true →
      s.earlierOut d r = true →
      r.time + 512 ≤ s.stamp d →
      (s.die d).evt.held = [] →
      s.ringTake d r = s.ringWrite d { r with data := r.data ||| 65536 }) ∧
  (∀ (s : State) (d : DieId) (j k a b : Nat),
      j < k →
      k < 256 →
      a < 256 →
      b < 256 →
      (s.die d).evt.local_.length + 2 ≤ 4096 →
      (∀ e ∈ (s.die d).evt.local_, e.isEpoch = false) →
      (((s.epoch d k a).epoch d j b).die d).evt.local_.map (fun e => e.data) = (s.die d).evt.local_.map (fun e => e.data) ++
          [j + b * 256 + ((s.die d).evt.epochs + 1) % 256 * 16777216, k + a * 256 + ((s.die d).evt.epochs + 2) % 256 * 16777216]) ∧
  (∀ (s : State) (d : DieId) (src cause data : Nat),
      isNmi src cause = false →
      (src ≠ 456 ∨ cause ≠ 0x10) →
      4 ≤ SMap.get 0 (s.die d).evt.stroke src →
      ((s.post d src cause data).die d).evt.local_ = (s.die d).evt.local_ ∧
        SMap.get 0 ((s.post d src cause data).die d).evt.seq src = (SMap.get 0 (s.die d).evt.seq src + 1) % 256) ∧
  (∀ (s : State) (d : DieId) (src cause data : Nat),
      isNmi src cause = true →
      (s.die d).evt.local_.length < 4096 →
      ((s.post d src cause data).die d).evt.local_ = (s.die d).evt.local_ ++ [{ time := s.stamp d, source := d.val * 512 + src, cause := cause, nmi := true, late := false, seq := (SMap.get 0 (s.die d).evt.seq src + 1) % 256, data := data % 2 ^ 32 }]) ∧
  (∀ (s : State) (d : DieId) (src : Fin 512) (c : Byte) (v : Word),
      up s d = true →
      reservedSource src.val = false →
      isNmi src.val c.toNat = false →
      (src.val ≠ 456 ∨ c ≠ 0x10) →
      SMap.get 0 (s.die d).evt.stroke src.val < 4 →
      (s.die d).evt.local_.length < 4096 →
      Completes (.eventCause d src c v) s (fun t => (t.die d).evt.local_.length = (s.die d).evt.local_.length + 1 ∧ (∀ e : DieId, e ≠ d → t.die e = s.die e) ∧ ∀ e : DieId, (t.die e).active = (s.die e).active ∧ (t.die e).staged = (s.die e).staged ∧ (t.die e).slices = (s.die e).slices ∧ (t.die e).ports = (s.die e).ports)) ∧
  (∀ (s : State) (d : DieId),
      up s d = true →
      s.fretOpen d 30 30 = true →
      Completes (.eventForward d) s (fun t => 1200 ≤ t.pos ∧ bit (t.die d).stroke.ran 30 = true ∧ ∀ e : DieId, (t.die e).active = (s.die e).active ∧ (t.die e).staged = (s.die e).staged ∧ (t.die e).slices = (s.die e).slices ∧ (t.die e).ports = (s.die e).ports)) ∧
  (∀ (s : State) (e : AccessId) (v : BitVec 12),
      s.running = true →
      Completes (.evtRpWrite e v) s (fun t => (t.die (accessDie s.part e)).evt.wp = (s.die (accessDie s.part e)).evt.wp ∧ (∀ d : DieId, d ≠ accessDie s.part e → t.die d = s.die d) ∧ ∀ e : DieId, (t.die e).active = (s.die e).active ∧ (t.die e).staged = (s.die e).staged ∧ (t.die e).slices = (s.die e).slices ∧ (t.die e).ports = (s.die e).ports)) ∧
  (∀ (s : State) (e : AccessId),
      s.running = true →
      s.pos ≤ 1240 →
      bit (s.die (accessDie s.part e)).stroke.ran 31 = false →
      Completes (.msixEvent e) s (fun t => (t.die (accessDie s.part e)).evt.groups = 0 ∧ (t.die (accessDie s.part e)).evt.mask = (s.die (accessDie s.part e)).evt.mask ∧ ∀ e : DieId, (t.die e).active = (s.die e).active ∧ (t.die e).staged = (s.die e).staged ∧ (t.die e).slices = (s.die e).slices ∧ (t.die e).ports = (s.die e).ports)) ∧
  (∀ (s : State) (e : AccessId) (v : Option (Fin 32)),
      Completes (.msixUnmask e v) s (fun t => (∀ n : Fin 32, v = some n → bit (t.die (accessDie s.part e)).evt.mask n.val = false) ∧ (∀ d : DieId, d ≠ accessDie s.part e → t.die d = s.die d) ∧ ∀ e : DieId, (t.die e).active = (s.die e).active ∧ (t.die e).staged = (s.die e).staged ∧ (t.die e).slices = (s.die e).slices ∧ (t.die e).ports = (s.die e).ports)) ∧
  (∀ (s : State) (e : AccessId) (n : QueueId) (v : BitVec 6),
      s.running = true →
      ((s.die (accessDie s.part e)).queue n).unfetched ≤ (v.toNat + 64 - ((s.die (accessDie s.part e)).queue n).sqHead) % 64 →
      Completes (.sqDoorbell e n v) s (fun t => ((t.die (accessDie s.part e)).queue n).sqTail = v.toNat ∧ ∀ b : DieId, (t.die b).active = (s.die b).active ∧ (t.die b).staged = (s.die b).staged ∧ (t.die b).slices = (s.die b).slices ∧ (t.die b).ports = (s.die b).ports)) ∧
  (∀ (s : State) (e : AccessId) (n : QueueId) (v : BitVec 6),
      s.running = true →
      (v.toNat + 64 - ((s.die (accessDie s.part e)).queue n).cqHead) % 64 ≤ ((s.die (accessDie s.part e)).queue n).used →
      Completes (.cqDoorbell e n v) s (fun t => ((t.die (accessDie s.part e)).queue n).cqHead = v.toNat ∧ ∀ b : DieId, (t.die b).active = (s.die b).active ∧ (t.die b).staged = (s.die b).staged ∧ (t.die b).slices = (s.die b).slices ∧ (t.die b).ports = (s.die b).ports)) ∧
  (∀ (s : State) (e : AccessId) (n : QueueId) (v : BitVec 6),
      s.running = true →
      ((s.die (accessDie s.part e)).queue n).locked v.toNat = true →
      Completes (.lockedSlotWrite e n v) s (fun t => (t.die (accessDie s.part e)).sram = (s.die (accessDie s.part e)).sram ∧ ∀ b : DieId, (t.die b).active = (s.die b).active ∧ (t.die b).staged = (s.die b).staged ∧ (t.die b).slices = (s.die b).slices ∧ (t.die b).ports = (s.die b).ports)) ∧
  (∀ (s : State) (e : AccessId) (n : QueueId) (x : Packet × Nat),
      s.running = true →
      (s.die (accessDie s.part e)).pegRuns = true →
      ((s.die (accessDie s.part e)).queue n).mayFetch = true →
      readPacket (s.die (accessDie s.part e)) (accessDie s.part e) n ((s.die (accessDie s.part e)).queue n).sqHead = x →
      s.checkHeader (accessDie s.part e) ((s.die (accessDie s.part e)).queue n) x.1 x.2 (readFlags (s.die (accessDie s.part e)) n ((s.die (accessDie s.part e)).queue n).sqHead) = none →
      Completes (.commandFetch e n) s (fun t => ((t.die (accessDie s.part e)).queue n).sqHead = (((s.die (accessDie s.part e)).queue n).sqHead + 1) % 64 ∧ ∀ b : DieId, (t.die b).active = (s.die b).active ∧ (t.die b).staged = (s.die b).staged ∧ (t.die b).slices = (s.die b).slices ∧ (t.die b).ports = (s.die b).ports)) ∧
  (∀ (s : State) (e : AccessId) (n : QueueId) (r : Rec),
      ((s.die (accessDie s.part e)).queue n).waiting.find? ((s.die (accessDie s.part e)).queue n).mayPost = some r →
      r.irq = false →
      Completes (.recordPost e n) s (fun t => ((t.die (accessDie s.part e)).queue n).cqTail = (((s.die (accessDie s.part e)).queue n).cqTail + 1) % 64 ∧ ∀ b : DieId, (t.die b).active = (s.die b).active ∧ (t.die b).staged = (s.die b).staged ∧ (t.die b).slices = (s.die b).slices ∧ (t.die b).ports = (s.die b).ports)) ∧
  (∀ (s : State) (d : DieId) (w : Waiting),
      up s d = true →
      (s.die d).pegRuns = false →
      (s.die d).peg.inbox.find? (fun w => w.arrived + 1024 ≤ s.stroke d) = some w →
      w.packet.die = d →
      Completes (.inboxTimeout d) s (fun t => (t.die d).peg.inbox = ((s.takeInbox w.packet w.op).die d).peg.inbox ∧ ∀ e : DieId, (t.die e).active = (s.die e).active ∧ (t.die e).staged = (s.die e).staged ∧ (t.die e).slices = (s.die e).slices ∧ (t.die e).ports = (s.die e).ports))

/-- A group that is applied puts each of its staged values that is not kept back into use and into the ledger, clears the
staging, and leaves every other register alone; on an isolated die only the ledger takes the value. At a boundary at which
no strobe of a die is due for a group with staged values, no active and no staged value of any die differs. STROKE_BOUNDARY
begins a stroke at sc 0 in which no fret has run; FRET_OVERRUN and FRET_OVR_CLEAR, which set and clear the bit of their
fret, leave active values, staged values and ledger alone. (R22, R28, R31, R284, R303, R310) -/
def Obligations.CommitsAtTheBoundary : Prop :=
  (∀ (x : Die) (g o : Nat) (l : List Nat) (v : Half),
      o ∈ l →
      x.stg o = some v →
      x.keptStaged o = false →
      x.brg.isolated = false →
      (x.applyRegs g l).act o = v ∧ (x.applyRegs g l).led o = v ∧ (x.applyRegs g l).stg o = none) ∧
  (∀ (x : Die) (g o : Nat) (l : List Nat) (v : Half),
      o ∈ l →
      x.stg o = some v →
      x.keptStaged o = false →
      x.brg.isolated = true →
      (x.applyRegs g l).act o = x.act o ∧ (x.applyRegs g l).led o = v ∧ (x.applyRegs g l).stg o = none) ∧
  (∀ (x : Die) (g o : Nat) (l : List Nat),
      (o ∉ l ∨ x.keptStaged o = true) →
      (x.applyRegs g l).act o = x.act o ∧ (x.applyRegs g l).led o = x.led o ∧ (x.applyRegs g l).stg o = x.stg o) ∧
  (∀ (s : State) (d : DieId),
      (s.die d).groupsDue (s.die d).stroke.dueNow = [] →
      (∀ q ∈ (s.die d).stroke.gdue, q.2.2 = 0 → (s.die d).stroke.count < q.1) →
      ∀ e : DieId, ((s.applyDue d).die e).active = (s.die e).active ∧ ((s.applyDue d).die e).staged = (s.die e).staged ∧
        ((s.applyDue d).die e).ledger = (s.die e).ledger) ∧
  (∀ (s : State) (obs : BoundaryObs),
      s.running = true →
      Completes (.strokeBoundary obs) s (fun t => t.pos = 0 ∧ t.running = true ∧ ∀ d : DieId, present s.part d = true → (s.die d).stroke.asleep = false → (t.die d).stroke.ran = 0)) ∧
  (∀ (s : State) (d : DieId) (fret : Fin 32) (left : BitVec 16),
      up s d = true →
      1 ≤ fret.val →
      fret.val ≤ 30 →
      s.pos < 40 * (fret.val + 1) →
      ((25 ≤ fret.val ∧ fret.val ≤ 27) → (s.die d).bistOn = true) →
      Completes (.fretOverrun d fret left) s (fun t => bit (t.die d).stroke.ovr fret.val = true ∧ ∀ e : DieId, (t.die e).active = (s.die e).active ∧ (t.die e).staged = (s.die e).staged ∧ (t.die e).ledger = (s.die e).ledger)) ∧
  (∀ (s : State) (d : DieId) (fret : Fin 32),
      up s d = true →
      bit (s.die d).stroke.ovr fret.val = true →
      SMap.get 0 (s.die d).stroke.ovrAt fret.val + 1024 ≤ (s.die d).stroke.count →
      Completes (.fretOvrClear d fret) s (fun t => bit (t.die d).stroke.ovr fret.val = false ∧ t.pos = s.pos ∧ ∀ e : DieId, (t.die e).active = (s.die e).active ∧ (t.die e).staged = (s.die e).staged ∧ (t.die e).ledger = (s.die e).ledger))

/-- POWER_ON_RESET completes in every state, BROWNOUT of a die of the part when the rail was below its threshold by 10 mV or
more for 1 us or longer, and RESET_N after a low pulse of 10 us or longer. After the first two every field of the package is
as State.reset has it (the part, the queue of waiting commands and the index of the free values apart), and every die is a
die at reset that has kept its MRAM with its wear and records, its fuses and its boundary-scan register. After RESET_N the
package starts up (phase 1), and each die has kept besides the soundpost with its passing windows, the temperature
comparators, and the level of PRS_N of each course; vddhOff stands. A rail 10 mV or more above its threshold, a dip shorter
than 1 us and a RESET_N pulse shorter than 1 us leave the state as it was. Between the limits the device resets or does
nothing: a free value says which (log entry 52). (R456, R458, R462, R467, R468, R503) -/
def Obligations.PowerResets : Prop :=
  (∀ (s : State),
      Completes .powerOnReset s (fun t => t = { State.reset with part := s.part, free := s.free, dies := t.dies, pending := s.pending } ∧
        ∀ d : DieId, t.die d = { ({} : Die) with
          nv := (s.die d).nv, nvs := { (s.die d).nvs with resync := false, busy := false, unread := false, dead := false, gone := [] }, ir := (s.die d).ir, irCap := (s.die d).irCap,
          bist := { fuses := (s.die d).bist.fuses, fuseMap := (s.die d).bist.fuseMap } })) ∧
  (∀ (s : State) (x : DieId) (rail : Fin 5) (io33 : Bool) (mv : BitVec 16) (ns : Word),
      present s.part x = true →
      1000 ≤ ns.toNat →
      mv.toNat + 10 < railMin rail io33 →
      Completes (.brownout x rail io33 mv ns) s (fun t => t = { State.reset with part := s.part, free := s.free, dies := t.dies, pending := s.pending } ∧
        ∀ d : DieId, t.die d = { ({} : Die) with
          nv := (s.die d).nv, nvs := { (s.die d).nvs with resync := false, busy := false, unread := false, dead := false, gone := [] }, ir := (s.die d).ir, irCap := (s.die d).irCap,
          bist := { fuses := (s.die d).bist.fuses, fuseMap := (s.die d).bist.fuseMap } })) ∧
  (∀ (s : State) (x : DieId) (rail : Fin 5) (io33 : Bool) (mv : BitVec 16) (ns : Word),
      (ns.toNat < 1000 ∨ railMin rail io33 + 10 ≤ mv.toNat) →
      Completes (.brownout x rail io33 mv ns) s (fun t => t = s)) ∧
  (∀ (s : State) (ns : Word),
      10000 ≤ ns.toNat →
      Completes (.resetN ns) s (fun t =>
        t = { State.reset with part := s.part, phase := 1, free := s.free, vddhOff := s.vddhOff, dies := t.dies, pending := s.pending } ∧
        ∀ d : DieId, t.die d = { ({} : Die) with
          nv := (s.die d).nv, nvs := { (s.die d).nvs with resync := false, busy := false, unread := false, dead := false, gone := [] }, ir := (s.die d).ir, irCap := (s.die d).irCap,
          bist := { fuses := (s.die d).bist.fuses, fuseMap := (s.die d).bist.fuseMap },
          clk := { spReady := (s.die d).clk.spReady, spPass := (s.die d).clk.spPass }, hk := { trip := (s.die d).hk.trip, above := (s.die d).hk.above },
          courses := (t.die d).courses } ∧
        ∀ c : CourseId, (t.die d).course c.val =
          { ({} : Course) with prsRaw := ((s.die d).course c.val).prsRaw, present := ((s.die d).course c.val).present })) ∧
  (∀ (s : State) (ns : Word),
      ns.toNat < 1000 →
      Completes (.resetN ns) s (fun t => t = s)) ∧
  (∀ (s : State) (ns : Word),
      1000 ≤ ns.toNat →
      ns.toNat < 10000 →
      Completes (.resetN ns) s (fun t =>
        t.free = s.free + 1 ∧ (t = { s with free := s.free + 1 } ∨ Completes (.resetN 10000) { s with free := s.free + 1 } (fun u => t = u))))

/-- SOUNDPOST_READY before the package runs makes the soundpost of that die READY. BOOT with every soundpost READY and RESET_N
deasserted leaves the package running at sc 0 with die 0 leading, every pegbox of the part RUNNING, every stroke count equal
to that of die 0, the two-wire addresses of the access dies taken from the straps, and, when neither NV mirror reads
correctly, no calibration loaded and the NV fields of every die reading 0. VDDH_POWER_DOWN disables every driver: each
transmitter of the part is OFF. POWER_ON_RESET, BROWNOUT and RESET_N, where they reset, leave no lead die, no packet on the
ring, every register at its reset value in use and in the ledger with nothing staged, and every counter 0. (R462, R463,
R466, R359, R40, R443) -/
def Obligations.StartUp : Prop :=
  (∀ (s : State) (d : DieId),
      present s.part d = true →
      s.running = false →
      (s.die d).clk.spReady = false →
      Completes (.soundpostReady d) s (fun t => (t.die d).clk.spReady = true ∧ (t.die d).clk.restart = false ∧
        ∀ e : DieId, e ≠ d → t.die e = s.die e)) ∧
  (∀ (s : State) (d : DieId),
      up s d = true →
      (s.die d).clk.spReady = false →
      Completes (.soundpostReady d) s (fun t => (t.die d).clk.spReady = true ∧ ∀ e : DieId, e ≠ d → t.die e = s.die e)) ∧
  (∀ (s : State) (straps readable : Fin 4) (ecc : List (BitVec 18 × EccResult × EccResult)),
      s.phase ≤ 1 →
      (∀ d : DieId, present s.part d = true → (s.die d).clk.spReady = true) →
      Completes (.boot straps readable ecc) s (fun t => t.phase = 2 ∧ t.pos = 0 ∧ t.lead = some 0 ∧ t.part = s.part ∧
        ∀ d : DieId, present s.part d = true → (t.die d).peg.state = 1 ∧ (t.die d).stroke.count = (s.die 0).stroke.count ∧
          (isAccess s.part d = true → (t.die d).twi.addr = 0x4C + straps.val) ∧
          (readable = 0 → (t.die d).calLoaded = (s.die d).calLoaded ∧ (t.die d).nvs.unread = true ∧ (t.die d).peg.romImg = true))) ∧
  (∀ (s : State),
      Completes .powerOnReset s (fun t => t.phase = 0 ∧ t.lead = none ∧ t.air = [] ∧ ∀ d : DieId, ∀ o : Nat, (t.die d).act o = rwsReset o ∧ (t.die d).led o = rwsReset o ∧ (t.die d).stg o = none ∧ (t.die d).counter o = 0)) ∧
  (∀ (s : State) (x : DieId) (rail : Fin 5) (io33 : Bool) (mv : BitVec 16) (ns : Word),
      present s.part x = true →
      1000 ≤ ns.toNat →
      mv.toNat + 10 < railMin rail io33 →
      Completes (.brownout x rail io33 mv ns) s (fun t => t.phase = 0 ∧ t.lead = none ∧ t.air = [] ∧ ∀ d : DieId, ∀ o : Nat, (t.die d).act o = rwsReset o ∧ (t.die d).led o = rwsReset o ∧ (t.die d).stg o = none ∧ (t.die d).counter o = 0)) ∧
  (∀ (s : State) (ns : Word),
      10000 ≤ ns.toNat →
      Completes (.resetN ns) s (fun t => t.phase = 1 ∧ t.lead = none ∧ t.air = [] ∧ ∀ d : DieId, ∀ o : Nat, (t.die d).act o = rwsReset o ∧ (t.die d).led o = rwsReset o ∧ (t.die d).stg o = none ∧ (t.die d).counter o = 0)) ∧
  (∀ (s : State),
      s.vddhOff = false →
      Completes .vddhPowerDown s (fun t => t.vddhOff = true ∧
        ∀ d : DieId, present s.part d = true → ∀ n : TxId, ((t.die d).tx n.val).mode = 5))

/-- PERST returns its endpoint to its reset values and masks every MSI-X vector of its access die with nothing pending.
PCIE_LINK takes the new link state, speed and width, and posts LINK while the package runs. POISONED_TLP records the error
in the endpoint and posts ACCESS_ERROR with the address, as a write. (R294, R295, R293, R316) -/
def Obligations.LinkEvents : Prop :=
  (∀ (s : State) (e : AccessId),
      1 ≤ s.phase →
      Completes (.perst e) s (fun t => (t.ep e) = {} ∧ (t.die (accessDie s.part e)).evt.mask = 0xFFFFFFFF ∧
        (t.die (accessDie s.part e)).evt.pend = 0 ∧ (t.die (accessDie s.part e)).evt.fmask = false ∧
        ∀ a : Nat, 0x200 ≤ a → Memory.read (t.die (accessDie s.part e)).sram a = Memory.read (s.die (accessDie s.part e)).sram a)) ∧
  (∀ (s : State) (e : AccessId) (up : Bool) (speed : Fin 5) (width : Fin 3),
      s.running = true →
      (s.ep e).l0 ≠ up →
      Posts (.pcieLink e up speed width) s (accessDie s.part e) 445 0x03 (b2n up + 2 * speed.val + 16 * width.val) (fun u =>
        (u.ep e).l0 = up ∧ (u.ep e).speed = speed.val ∧ (u.ep e).width = width.val ∧ u.dies = s.dies)) ∧
  (∀ (s : State) (e : AccessId) (off : BitVec 25),
      s.running = true →
      Posts (.poisonedTlp e off) s (accessDie s.part e) 445 0x01 (off.toNat % 2 ^ 25 + 2 ^ 25 * 0 + 2 ^ 27 * b2n true + 2 ^ 28 * 0) (fun u =>
        (u.ep e).poison = true ∧ u.dies = s.dies))

/-- STANDBY_ENTRY after the root has closed halts every running pegbox and keeps registers, staged values and memory.
STANDBY_WAKE, when WAKE_N was low for 1 us or longer or on a wake that is not WAKE_N, runs the package again from sc 0: each
leading die resumes its own count with its pegbox running, and, where there is a leading die, every other die of the part
sleeps on until a marker names a stroke, its count unchanged. A WAKE_N pulse of 500 ns or less wakes nothing. A temperature
trip owed by a leading die is no longer owed after the wake. STANDBY_EXIT is posted by the lead once every die it reaches
reads LOCKED and counts. STANDBY_MONITOR_RESTART ends the hold on monitoring 1,954 strokes after a die resumed. (R470, R471,
R472, R473, R474) -/
def Obligations.Standby : Prop :=
  (∀ (s : State),
      s.running = true →
      s.rootOff = true →
      Completes .standbyEntry s (fun t => t.phase = 3 ∧ t.rootOff = false ∧
        ∀ d : DieId, present s.part d = true → ((s.die d).pegRuns = true → (t.die d).peg.state = 3) ∧ (t.die d).active = (s.die d).active ∧
          (t.die d).staged = (s.die d).staged ∧ (t.die d).sram = (s.die d).sram ∧ (t.die d).stroke = (s.die d).stroke)) ∧
  (∀ (s : State) (source : Fin 4) (ns : Word),
      s.phase = 3 →
      source.val ≠ 3 →
      (source.val = 0 → 1000 ≤ ns.toNat) →
      Completes (.standbyWake source ns) s (fun t => t.phase = 2 ∧ t.pos = 0 ∧ t.wake = source.val ∧ t.waking = true ∧ t.lead = s.lead ∧
        ∀ d : DieId, present s.part d = true → t.stroke d = s.stroke d ∧
          (s.leaders.contains d = true → ((s.die d).peg.state = 3 → (t.die d).peg.state = 1) ∧ (t.die d).stroke.resumed = some (s.stroke d) ∧
            (t.die d).stroke.asleep = false) ∧
          (s.leaders ≠ [] → s.leaders.contains d = false → (t.die d).stroke.asleep = true ∧ (t.die d).stroke.wakeTo = none ∧ (t.die d).peg = (s.die d).peg))) ∧
  (∀ (s : State) (ns : Word),
      ns.toNat ≤ 500 →
      Completes (.standbyWake 0 ns) s (fun t => t = s)) ∧
  (∀ (s : State) (d : DieId) (ns : Word),
      s.phase = 3 →
      present s.part d = true →
      s.leaders.contains d = true →
      (s.die d).hk.owed = true →
      Completes (.standbyWake 3 ns) s (fun t => t.phase = 2 ∧ t.wake = 3 ∧ (t.die d).hk.owed = false)) ∧
  (∀ (s : State) (l : DieId),
      s.running = true →
      s.lead = some l →
      s.waking = true →
      (∀ d : DieId, present s.part d = true → s.reachable l d = true → 2 ≤ (s.die d).stroke.state ∧ (s.die d).stroke.asleep = false) →
      Posts .standbyExit s l 456 0x20 (pair s.wake (s.stroke l)) (fun u => u = { s with waking := false })) ∧
  (∀ (s : State) (d : DieId) (n : Nat),
      up s d = true →
      (s.die d).stroke.resumed = some n →
      n + 1954 ≤ (s.die d).stroke.count →
      Completes (.standbyMonitorRestart d) s (fun t => (t.die d).stroke = { (s.die d).stroke with resumed := none } ∧
        ∀ e : DieId, e ≠ d → t.die e = s.die e))

/-- STROKE_BOUNDARY of a running package opens the next stroke at sc 0 with the same lead die, or none when no access die can
lead, and every die of the part that is neither being restored nor asleep after a Standby counts one stroke more.
FRET_OVERRUN of a fret 1 to 30 that has not ended (of the BIST frets only while they are enabled) moves to the last sc of
that fret, sets its FRET_OVR bit, keeps the stroke of the overrun, counts it, posts FRET_OVERRUN when the bit was clear, and
leaves every register and memory as they were; fret 0, fret 31, a fret that has ended and an idle BIST fret cannot overrun.
FRET_OVR_CLEAR clears the bit 1,024 strokes after the last overrun. (R21, R22, R26, R28, R31) -/
def Obligations.Strokes : Prop :=
  (∀ (s : State) (obs : BoundaryObs),
      s.running = true →
      Completes (.strokeBoundary obs) s (fun t => t.pos = 0 ∧ t.phase = 2 ∧ (t.lead = s.lead ∨ t.lead = none) ∧
        ∀ d : DieId, present s.part d = true → (s.die d).brg.restoring = false → (s.die d).stroke.asleep = false → t.stroke d = s.stroke d + 1)) ∧
  (∀ (s : State) (d : DieId) (fret : Fin 32) (left : BitVec 16),
      up s d = true →
      1 ≤ fret.val →
      fret.val ≤ 30 →
      s.pos < 40 * (fret.val + 1) →
      ((25 ≤ fret.val ∧ fret.val ≤ 27) → (s.die d).bistOn = true) →
      Completes (.fretOverrun d fret left) s (fun t => bit (t.die d).stroke.ovr fret.val = true ∧
        SMap.get 0 (t.die d).stroke.ovrAt fret.val = (s.die d).stroke.count ∧ t.pos = 40 * fret.val + 39 ∧
        (t.die d).stroke.ovr = (s.die d).stroke.ovr ||| 2 ^ fret.val ∧ (t.die d).counter (4 * fret.val) = ((s.die d).counter (4 * fret.val) + 1) % 2 ^ 32 ∧
        ∀ e : DieId, (t.die e).active = (s.die e).active ∧ (t.die e).staged = (s.die e).staged ∧ (t.die e).sram = (s.die e).sram)) ∧
  (∀ (s : State) (d : DieId) (fret : Fin 32) (left : BitVec 16),
      up s d = true →
      1 ≤ fret.val →
      fret.val ≤ 30 →
      s.pos < 40 * (fret.val + 1) →
      ((25 ≤ fret.val ∧ fret.val ≤ 27) → (s.die d).bistOn = true) →
      bit (s.die d).stroke.ovr fret.val = false →
      Posts (.fretOverrun d fret left) s d 375 0x01 (pair fret.val left.toNat) (fun u => bit (u.die d).stroke.ovr fret.val = true)) ∧
  (∀ (s : State) (d : DieId) (fret : Fin 32) (left : BitVec 16),
      (fret = 0 ∨ fret = 31 ∨ 40 * (fret.val + 1) ≤ s.pos ∨ ((25 ≤ fret.val ∧ fret.val ≤ 27) ∧ (s.die d).bistOn = false)) →
      Completes (.fretOverrun d fret left) s (fun t => t = s)) ∧
  (∀ (s : State) (d : DieId) (fret : Fin 32),
      up s d = true →
      bit (s.die d).stroke.ovr fret.val = true →
      SMap.get 0 (s.die d).stroke.ovrAt fret.val + 1024 ≤ (s.die d).stroke.count →
      Completes (.fretOvrClear d fret) s (fun t => (t.die d).stroke = { (s.die d).stroke with ovr := (s.die d).stroke.ovr ^^^ 2 ^ fret.val } ∧
        bit (t.die d).stroke.ovr fret.val = false ∧ ∀ e : DieId, e ≠ d → t.die e = s.die e))

/-- TUNING_FRET whose fret has neither ended nor run in this stroke, with no LANE_CAPO waiting, runs the engine of the course
side: the position is at least the start of the side's fret, and every slice of the side that the engine may update and that
no overrun of this stroke leaves over counts one update more, with the SNR it saw. Once its fret has run, a second
TUNING_FRET of the stroke changes nothing. CONVERGED and ADAPT_LIMIT set what they name in the slice and post it.
CAPO_HOST_WRITE sets the HOST capo source and nothing else of the slice. (R24, R85, R86, R87, R90) -/
def Obligations.SliceAdaptation : Prop :=
  (∀ (s : State) (d : DieId) (c : CourseId) (side : Side) (upd : List SliceUpdate),
      up s d = true →
      (s.die d).tuningRuns = true →
      (s.die d).peg.awaits = [] →
      s.fretOpen d (tuningFretOf c.val side) (tuningFretOf c.val side) = true →
      Completes (.tuningFret d c side upd) s (fun t => t.pos = max s.pos (40 * tuningFretOf c.val side) ∧
        bit (t.die d).stroke.ran (tuningFretOf c.val side) = true ∧
        ∀ n ∈ sideSlices c.val side, (s.die d).stroke.cut.contains n = false → (s.die d).tunable n = true →
          ((t.die d).slice n).updates = ((s.die d).slice n).updates + 1 ∧ ((t.die d).slice n).snrAtUpd = ((s.die d).slice n).snrNow)) ∧
  (∀ (s : State) (d : DieId) (c : CourseId) (side : Side) (upd : List SliceUpdate),
      bit (s.die d).stroke.ran (tuningFretOf c.val side) = true →
      Completes (.tuningFret d c side upd) s (fun t => t = s)) ∧
  (∀ (s : State) (d : DieId) (n : SliceId),
      up s d = true →
      (s.die d).parked n.val = false →
      ((s.die d).slice n.val).converged = false →
      256 ≤ ((s.die d).slice n.val).convRun →
      Posts (.converged d n) s d n.val 0x04 (pair ((s.die d).slice n.val).snrNow (sat16 ((s.die d).slice n.val).updates)) (fun u =>
        (u.die d).slice n.val = { (s.die d).slice n.val with converged := true, acquiring := false })) ∧
  (∀ (s : State) (d : DieId) (n : SliceId) (coef : Fin 69),
      up s d = true →
      64 ≤ SMap.get 0 ((s.die d).slice n.val).limits coef.val →
      ((s.die d).slice n.val).limited.contains coef.val = false →
      Posts (.adaptLimit d n coef) s d n.val 0x06 coef.val (fun u =>
        (u.die d).slice n.val = { (s.die d).slice n.val with limited := coef.val :: ((s.die d).slice n.val).limited })) ∧
  (∀ (s : State) (d : DieId) (n : SliceId) (level : Bool),
      up s d = true →
      Completes (.capoHostWrite d n level) s (fun t =>
        (t.die d).slice n.val = { (s.die d).slice n.val with capoHost := level } ∧
        ∀ m : SliceId, m ≠ n → (t.die d).slice m.val = (s.die d).slice m.val))

/-- SD_CHANGE of a slice that is not parked asserts its signal detect for an amplitude above SD_ASSERT and deasserts it below
SD_DEASSERT, in steps of 4 mVppd, drops the CDR with a falling one, and posts the level; any other amplitude changes
nothing. CDR_LOCKED sets CDR_LOCK and the frequency, saturated, of a slice that is not about to reacquire. LOCK_LOST clears
LOCKED and CONVERGED of a live or sympathetic slice, and outside a session a live one takes the LOSS capo source and starts
to reacquire. LOCK_ACQUIRED sets LOCKED, and for a sympathetic slice ends with its event. (R92, R93, R94, R97) -/
def Obligations.SliceDetection : Prop :=
  (∀ (s : State) (d : DieId) (n : SliceId) (mv : BitVec 16),
      up s d = true →
      (s.die d).role n.val < 2 →
      ((s.die d).slice n.val).sd = false →
      4 * fld ((s.die d).act (oRx n.val 0x18)) 5 0 < mv.toNat →
      Posts (.sdChange d n mv) s d n.val 0x03 1 (fun u => ((u.die d).slice n.val).sd = true ∧
        ((u.die d).slice n.val).sdStrokes = 0 ∧ ((u.die d).slice n.val).cdrLock = ((s.die d).slice n.val).cdrLock ∧
        ((u.die d).slice n.val).locked = ((s.die d).slice n.val).locked)) ∧
  (∀ (s : State) (d : DieId) (n : SliceId) (mv : BitVec 16),
      up s d = true →
      (s.die d).role n.val < 2 →
      ((s.die d).slice n.val).sd = true →
      mv.toNat < 4 * fld ((s.die d).act (oRx n.val 0x18)) 11 6 →
      Posts (.sdChange d n mv) s d n.val 0x03 0 (fun u => ((u.die d).slice n.val).sd = false ∧
        ((u.die d).slice n.val).sdStrokes = 0 ∧ ((u.die d).slice n.val).cdrLock = false ∧ ((u.die d).slice n.val).sdLost = true ∧
        ((u.die d).slice n.val).locked = ((s.die d).slice n.val).locked)) ∧
  (∀ (s : State) (d : DieId) (n : SliceId) (mv : BitVec 16),
      (if ((s.die d).slice n.val).sd then 4 * fld ((s.die d).act (oRx n.val 0x18)) 11 6 ≤ mv.toNat else mv.toNat ≤ 4 * fld ((s.die d).act (oRx n.val 0x18)) 5 0) →
      Completes (.sdChange d n mv) s (fun t => t = s)) ∧
  (∀ (s : State) (d : DieId) (n : SliceId) (freq : Half),
      up s d = true →
      (s.die d).role n.val < 2 →
      ((s.die d).slice n.val).sd = true →
      ((s.die d).slice n.val).cdrLock = false →
      (((s.die d).slice n.val).reacq = true → ((s.die d).slice n.val).reacqOn = true) →
      Completes (.cdrLocked d n freq) s (fun t => ((t.die d).slice n.val).cdrLock = true ∧ ((t.die d).slice n.val).freq = satFreq freq ∧
        (((s.die d).slice n.val).reacqOn = true → ((t.die d).slice n.val).capoLoss = false))) ∧
  (∀ (s : State) (d : DieId) (n : SliceId) (reason : Fin 3),
      up s d = true →
      (if reason = 0 then ((s.die d).slice n.val).sdLost else ((s.die d).slice n.val).locked) = true →
      (s.die d).role n.val < 2 →
      Completes (.lockLost d n reason) s (fun t => ((t.die d).slice n.val).locked = false ∧ ((t.die d).slice n.val).converged = false ∧
        ((t.die d).slice n.val).sdLost = false ∧ ((s.die d).role n.val = 0 → (s.die d).inSession n.val = false →
          ((t.die d).slice n.val).capoLoss = true ∧ ((t.die d).slice n.val).reacq = true))) ∧
  (∀ (s : State) (d : DieId) (n : SliceId),
      up s d = true →
      (s.die d).role n.val < 2 →
      ((s.die d).slice n.val).good = true →
      ((s.die d).slice n.val).locked = false →
      Completes (.lockAcquired d n) s (fun t => ((t.die d).slice n.val) = { (s.die d).slice n.val with locked := true })) ∧
  (∀ (s : State) (d : DieId) (n : SliceId),
      up s d = true →
      (s.die d).role n.val = 1 →
      ((s.die d).slice n.val).good = true →
      ((s.die d).slice n.val).locked = false →
      Posts (.lockAcquired d n) s d n.val 0x01 ((s.die d).rxPin n.val + 256 * ((s.die d).slice n.val).snrNow) (fun u =>
        (u.die d).slice n.val = { (s.die d).slice n.val with locked := true }))

/-- REACQ_START in the side's tuning fret opens the window of a live slice outside a session, from its pin and slice records.
REACQ_DONE ends it and posts the strokes it took. REACQ_FAILED sends the slice back to its next tuning fret with no time
limit and posts the window. SLICE_SUBSTITUTION orders the free sympathetic slice to the pin at the next boundary;
SLICE_SUBSTITUTED, once it is LOCKED within its window and the failing slice is not, orders the move; the next boundary,
where both still hold and the pin is a port's, moves the pin to it, makes the former slice the sympathetic one, advances
MAP_GEN and starts the test of the former slice. (R96, R97, R98, R445, R106) -/
def Obligations.Reacquisition : Prop :=
  (∀ (s : State) (d : DieId) (n : SliceId),
      up s d = true →
      (s.die d).role n.val = 0 →
      ((s.die d).slice n.val).reacq = true →
      ((s.die d).slice n.val).sd = true →
      ((s.die d).slice n.val).reacqOn = false →
      (s.die d).inSession n.val = false →
      s.pos < 40 * (tuningFretOf (sliceCourse n.val) (sliceSide n.val) + 1) →
      Completes (.reacqStart d n) s (fun t => ((t.die d).slice n.val).reacqOn = true ∧
        t.pos = max s.pos (40 * tuningFretOf (sliceCourse n.val) (sliceSide n.val)) ∧ ((t.die d).slice n.val).cdrLock = false ∧ ((t.die d).slice n.val).reacqFrom = s.stroke d ∧
        ((t.die d).slice n.val).reacqRec = (s.die d).recordValid n.val ∧ ((t.die d).slice n.val).acquiring = (!((s.die d).recordValid n.val) || ((s.die d).slice n.val).reacqFree) ∧
        ((t.die d).slice n.val).corr = ((s.die d).slice n.val).stored)) ∧
  (∀ (s : State) (d : DieId) (n : SliceId),
      up s d = true →
      ((s.die d).slice n.val).reacq = true →
      ((s.die d).slice n.val).reacqOn = true →
      ((s.die d).slice n.val).locked = true →
      Posts (.reacqDone d n) s d n.val 0x07
        (sat16 (s.stroke d - ((s.die d).slice n.val).reacqFrom) + 65536 * b2n ((s.die d).slice n.val).reacqRec) (fun u =>
          (u.die d).slice n.val = { (s.die d).slice n.val with reacq := false, reacqOn := false, reacqFree := false })) ∧
  (∀ (s : State) (d : DieId) (n : SliceId),
      up s d = true →
      ((s.die d).slice n.val).reacq = true →
      ((s.die d).slice n.val).reacqOn = true →
      ((s.die d).slice n.val).locked = false →
      ((s.die d).slice n.val).reacqFree = false →
      0 < fld ((s.die d).act (oRx n.val 0x24)) 9 0 →
      ((s.die d).slice n.val).reacqFrom + fld ((s.die d).act (oRx n.val 0x24)) 9 0 ≤ s.stroke d →
      Posts (.reacqFailed d n) s d n.val 0x08 (fld ((s.die d).act (oRx n.val 0x24)) 9 0) (fun u =>
          ((u.die d).slice n.val).reacqFree = true ∧ ((u.die d).slice n.val).reacqOn = false ∧ ((u.die d).slice n.val).acquiring = true ∧ ((u.die d).slice n.val).converged = false ∧
          ((u.die d).slice n.val).reacqFrom = s.stroke d)) ∧
  (∀ (s : State) (d : DieId) (n : SliceId) (j : Nat),
      up s d = true →
      (s.die d).posOf n.val = some j →
      (s.die d).role n.val = 0 →
      ((s.die d).slice n.val).reacq = true →
      ((s.die d).slice n.val).reacqFree = true →
      ((s.die d).slice n.val).reacqOn = false →
      ((s.die d).slice n.val).locked = false →
      ((s.die d).slice n.val).reacqFrom = s.stroke d →
      ((s.die d).sympDenied (sliceCourse n.val) (sliceSide n.val) false).isNone = true →
      Completes (.sliceSubstitution d n) s (fun t =>
          ((t.die d).rot (sliceCourse n.val) (sliceSide n.val)).want = 1 ∧ ((t.die d).rot (sliceCourse n.val) (sliceSide n.val)).wantPos = j ∧
          ((t.die d).rot (sliceCourse n.val) (sliceSide n.val)).wantStart = 2 ∧ ((t.die d).rot (sliceCourse n.val) (sliceSide n.val)).subst = true ∧
          t.stroke d = s.stroke d)) ∧
  (∀ (s : State) (d : DieId) (c : CourseId) (side : Side),
      up s d = true →
      ((s.die d).rot c.val side).subst = true →
      ((s.die d).rot c.val side).attached = true →
      ((s.die d).slice ((s.die d).sympSlice c.val side)).locked = true →
      ((s.die d).slice ((s.die d).serving c.val side ((s.die d).rot c.val side).pos)).locked = false →
      (s.die d).substOpen c.val side (s.stroke d) = true →
      Completes (.sliceSubstituted d c side) s (fun t => t = s.onSide d c.val side (fun r => { r with substNow := true }))) ∧
  (∀ (s : State) (d : DieId) (c : CourseId) (side : Side),
      ((s.die d).rot c.val side).subst = true →
      ((s.die d).rot c.val side).substNow = true →
      ((s.die d).rot c.val side).attached = true →
      (s.die d).tapDead c.val side ((s.die d).rot c.val side).pos false = false →
      ((s.die d).slice ((s.die d).sympSlice c.val side)).locked = true →
      ((s.die d).slice ((s.die d).serving c.val side ((s.die d).rot c.val side).pos)).locked = false →
      (
          (((s.substAt d c.val side).die d).rot c.val side).map = ((s.die d).rot c.val side).map.set ((s.die d).rot c.val side).pos ((s.die d).rot c.val side).symp ∧
          (((s.substAt d c.val side).die d).rot c.val side).symp = sliceIndex ((s.die d).serving c.val side ((s.die d).rot c.val side).pos) ∧
          (((s.substAt d c.val side).die d).rot c.val side).gen = (((s.die d).rot c.val side).gen + 1) % 256 ∧ (((s.substAt d c.val side).die d).rot c.val side).state = 0 ∧
          ((s.substAt d c.val side).die d).bist.tests.length = (s.die d).bist.tests.length + 1))

/-- PRS_ASSERTED after PRS_N has been low without interruption for PRS_DB times 1,024 strokes (16 strokes when PRS_DB is 0), and
PRS_DEASSERTED after it has been high for 16 strokes, move the debounced level; a falling level makes every line segment it
gates absent at once. SEGMENT_PRESENT and SEGMENT_ABSENT move the presence of a segment of an enabled port. TRAIN_RETRY
starts the sessions of a DETECTED port at the next boundary, or the next single-lane session of a rebuilt lattice lane, on
the position of the failed one. (R53, R54, R55, R60, R221) -/
def Obligations.Presence : Prop :=
  (∀ (s : State) (d : DieId) (c : CourseId),
      up s d = true →
      ((s.die d).course c.val).present = false →
      ((s.die d).course c.val).prsRaw = true →
      s.prsFor d c.val (if (s.die d).prsDb c.val = 0 then 16 else 1024 * (s.die d).prsDb c.val) = true →
      Posts (.prsAsserted d c) s d (288 + c.val) 0x01 (fld ((s.die d).act (oPrs c.val)) 5 0) (fun u =>
        ((u.die d).course c.val).present = true ∧ ((u.die d).course c.val).prsRaw = true ∧ (u.die d).ports = (s.die d).ports)) ∧
  (∀ (s : State) (d : DieId) (c : CourseId),
      up s d = true →
      ((s.die d).course c.val).present = true →
      ((s.die d).course c.val).prsRaw = false →
      s.prsFor d c.val 16 = true →
      Completes (.prsDeasserted d c) s (fun t => ((t.die d).course c.val).present = false ∧
        ∀ n ∈ coursePorts c.val, ((s.die d).port n).enabled = true → prsEn ((s.die d).cfgb n) = true →
          ((t.die d).port n).linePres = false ∧ ((t.die d).port n).kind = 0)) ∧
  (∀ (s : State) (p : PortId) (h : Side),
      up s p.die = true →
      (s.port p).enabled = true →
      (s.port p).pres h = false →
      (s.die p.die).seen p.key h s.pos = true →
      Completes (.segmentPresent p h) s (fun t => t.port p = (s.port p).setPres h true ∧ (t.port p).pres h = true ∧
        ∀ q : PortId, q ≠ p → t.port q = s.port q)) ∧
  (∀ (s : State) (p : PortId) (h : Side),
      up s p.die = true →
      (s.port p).enabled = true →
      (s.port p).pres h = true →
      (s.die p.die).unseen p.key h s.pos = true →
      Completes (.segmentAbsent p h) s (fun t => t.port p = (s.port p).setPres h false ∧ (t.port p).pres h = false ∧
        ∀ q : PortId, q ≠ p → t.port q = s.port q)) ∧
  (∀ (s : State) (p : PortId) (t0 : Nat),
      up s p.die = true →
      (s.port p).state = 2 →
      isHold ((s.die p.die).cfga p.key) = false →
      (s.port p).retryAt = some t0 →
      t0 ≤ s.stroke p.die →
      Completes (.trainRetry p) s (fun t => t.port p = { s.port p with retryAt := none, failed := false, startAt := some (s.stroke p.die + 1) })) ∧
  (∀ (s : State) (p : PortId) (t0 : Nat),
      up s p.die = true →
      (s.port p).state ≠ 2 →
      (s.die p.die).latKey p.course.val = p.key →
      ((s.die p.die).course p.course.val).lat.state = 4 →
      ((s.die p.die).course p.course.val).lat.sess = false →
      ((s.die p.die).course p.course.val).lat.retryAt = some t0 →
      t0 ≤ s.stroke p.die →
      Completes (.trainRetry p) s (fun t => ((t.die p.die).course p.course.val).lat.state = 5 ∧
        ((t.die p.die).course p.course.val).lat.sess = true ∧ ((t.die p.die).course p.course.val).lat.retryAt = none ∧
        ((t.die p.die).course p.course.val).lat.pos = ((s.die p.die).course p.course.val).lat.spos))

/-- PORT_DEFINE with a valid profile for a DISABLED port stages the seven profile registers; PORT_ENABLE of a defined disabled
port with a valid profile stages PORT_CTL = 1, and PORT_DISABLE of an enabled one PORT_CTL = 0; each strobes the course's
group and answers at the boundary that applies it. Enabling an enabled port and disabling a disabled one are answered DONE
at once with EFFECT 0. PORT_STATUS is answered DONE with the port's status and changes nothing else. PORT_ATTACH_POLICY
waits for the next boundary. (R65, R66, R67, R68, R64) -/
def Obligations.PortCommands : Prop :=
  (∀ (s u : State) (k : Packet) (p : PortId),
      takes s u k 0x0101 = true →
      portOf u k k.target.toNat = some p →
      (u.port p).state = 0 →
      profileRule (Packet.profile k) ((u.die p.die).plannedOthers p.course.val p.idx.val) = 0 →
      Completes (.portDefine k) s (fun t => StagesAndWaits u t k 0x0101 (8 + p.course.val)
        [(oCfga p.course.val p.idx.val, BitVec.ofNat 16 (k.w 4)),
         (oCfgb p.course.val p.idx.val, BitVec.ofNat 16 (bits (k.w 4) 27 16 + 0x8000)),
         (oBudget p.course.val p.idx.val, BitVec.ofNat 16 (bits (k.w 5) 11 0)),
         (oMapLo p.course.val p.idx.val, BitVec.ofNat 16 (bits (k.w 6) 11 0)),
         (oMapHi p.course.val p.idx.val, BitVec.ofNat 16 (bits (k.w 6) 27 16)),
         (oPolh p.course.val p.idx.val, BitVec.ofNat 16 (k.w 7)), (oPoll p.course.val p.idx.val, BitVec.ofNat 16 (k.w 7 / 65536))] 0)) ∧
  (∀ (s u : State) (k : Packet) (p : PortId),
      takesPort s u k 0x0102 p = true →
      (u.port p).enabled = false →
      (u.die p.die).plannedRule p.course.val p.idx.val = 0 →
      Completes (.portEnable k) s (fun t => StagesAndWaits u t k 0x0102 (8 + p.course.val) [(oPctl p.course.val p.idx.val, 1)] 0)) ∧
  (∀ (s u : State) (k : Packet) (p : PortId),
      takesPort s u k 0x0102 p = true →
      (u.port p).enabled = true →
      Answers (.portEnable k) s k 0x0102 stDone 0 [] (fun w => w = u)) ∧
  (∀ (s u : State) (k : Packet) (p : PortId),
      takesPort s u k 0x0103 p = true →
      (u.port p).enabled = true →
      Completes (.portDisable k) s (fun t => StagesAndWaits u t k 0x0103 (8 + p.course.val) [(oPctl p.course.val p.idx.val, 0)] 0)) ∧
  (∀ (s u : State) (k : Packet) (p : PortId),
      takesPort s u k 0x0103 p = true →
      (u.port p).enabled = false →
      Answers (.portDisable k) s k 0x0103 stDone 0 [] (fun w => w = u)) ∧
  (∀ (s u : State) (k : Packet) (p : PortId),
      takesPort s u k 0x0104 p = true →
      Answers (.portStatus k) s k 0x0104 stDone 3 (u.portStatus p) (fun w => w = u)) ∧
  (∀ (s u : State) (k : Packet) (p : PortId),
      takesPort s u k 0x0105 p = true →
      k.w 4 ≤ 1 →
      Completes (.portAttachPolicy k) s (fun t =>
        t = u.await k 0x0105 (u.stroke p.die + 1) (p.key * 2 + k.w 4)))

/-- LANE_EQ_SET stages what its parameters name for the slice, TX_SET and TX_PATTERN for their transmitters, and each answers at
the boundary that applies it. LANE_EQ_GET is answered DONE in fret 21 or later with the slice's equalisation of then, and
changes nothing else. LANE_CAPO that changes the source waits for the slice's tuning fret, and is answered DONE with EFFECT
0 when it changes nothing. DRIVER_LIMIT, when the current limit has been engaged for 16 strokes, sets ILIM, counts and posts
it. (R99, R100, R101, R102, R103, R122, R123, R124) -/
def Obligations.LaneCommands : Prop :=
  (∀ (s u : State) (k : Packet) (n : Nat),
      takes s u k 0x0201 = true →
      (u.die k.die).targetSlice k.target.toNat = some n →
      (u.die k.die).sliceTest n = none →
      (u.die k.die).sliceBusy n = false →
      k.length.toNat = (if bit (k.w 4) 2 then 7 + taps n / 2 else 7) →
      bits (k.w 4) 7 5 = 0 →
      k.w 4 < 512 →
      ((u.die k.die).carries n = false ∨ bit (k.w 4) 8 = true) →
      (bit (k.w 4) 0 = true → bits (k.w 5) 5 0 ≤ 40 ∧ bits (k.w 5) 11 8 ≤ 12) →
      Completes (.laneEqSet k) s (fun t => StagesAndWaits u t k 0x0201 (8 + sliceCourse n) (eqStages k n) n)) ∧
  (∀ (s u : State) (k : Packet) (n : Nat),
      takes s u k 0x0202 = true →
      (u.die k.die).targetSlice k.target.toNat = some n →
      (u.die k.die).sliceTest n = none →
      (u.die k.die).sliceBusy n = false →
      k.w 4 ≤ 1 →
      Answers (.laneEqGet k) s k 0x0202 stDone 3 (((u.toFret 21).die k.die).eqData n (k.w 4 == 1)) (fun w => w = u.toFret 21)) ∧
  (∀ (s u : State) (k : Packet) (n : Nat),
      takes s u k 0x0203 = true →
      (u.die k.die).targetSlice k.target.toNat = some n →
      (u.die k.die).sliceTest n = none →
      (u.die k.die).sliceBusy n = false →
      k.w 4 ≤ 1 →
      ((u.die k.die).slice n).capoHost = !(k.w 4 == 1) →
      Completes (.laneCapo k) s (fun t => t = u.await k 0x0203 (u.stroke k.die) (2 * n + k.w 4))) ∧
  (∀ (s u : State) (k : Packet) (n : Nat),
      takes s u k 0x0203 = true →
      (u.die k.die).targetSlice k.target.toNat = some n →
      (u.die k.die).sliceTest n = none →
      (u.die k.die).sliceBusy n = false →
      k.w 4 ≤ 1 →
      ((u.die k.die).slice n).capoHost = (k.w 4 == 1) →
      Answers (.laneCapo k) s k 0x0203 stDone 0 [((u.die k.die).slice n).capo + 256 * n] (fun w => w = u)) ∧
  (∀ (s u : State) (k : Packet),
      takes s u k 0x0204 = true →
      k.target.toNat < 136 →
      bits (k.w 4) 7 2 = 0 →
      k.w 4 < 512 →
      k.w 5 < 32 →
      k.w 7 < 65536 →
      (bit (k.w 4) 1 = true → tapsValid (setTaps k) = true) →
      ((u.die k.die).txPortState k.target.toNat < 3 ∨ (4 ≤ (u.die k.die).txPortState k.target.toNat ∧ bit (k.w 4) 8 = true)) →
      Completes (.txSet k) s (fun t => StagesAndWaits u t k 0x0204 (8 + txCourse k.target.toNat)
        ((if bit (k.w 4) 0 then [(oTx k.target.toNat 4, BitVec.ofNat 16 (k.w 5))] else [])
          ++ (if bit (k.w 4) 1 then (List.range 6).map (fun i => (oTap k.target.toNat i, BitVec.ofNat 16 (unsigned 7 (((setTaps k)[i]?).getD 0)))) else [])) 0)) ∧
  (∀ (s u : State) (k : Packet) (n : Nat),
      takes s u k 0x0205 = true →
      k.target.toNat = n →
      n < 136 →
      k.length.toNat = 5 →
      k.w 4 < 2 ^ 14 →
      bits (k.w 4) 4 2 < 5 →
      (bits (k.w 4) 1 0 = 0 ∨ (((u.die k.die).tx n).mode ≠ 5 ∧ ((u.die k.die).txPort n).isSome = true ∧ (bit (k.w 4) 13 = true ∨ ((u.die k.die).txPortState n ≠ 4 ∧ (u.die k.die).txPortState n ≠ 5)))) →
      Completes (.txPattern k) s (fun t => StagesAndWaits u t k 0x0205 (8 + txCourse n) [(oTx n 0, BitVec.ofNat 16 (bits (k.w 4) 10 0))] n)) ∧
  (∀ (s : State) (d : DieId) (n : TxId),
      up s d = true →
      ((s.die d).tx n.val).ilim = false →
      ((s.die d).tx n.val).mode ≠ 5 →
      16 ≤ ((s.die d).tx n.val).limRun →
      Posts (.driverLimit d n) s d (152 + n.val) 0x04 ((s.die d).tx n.val).mode (fun u =>
        (u.die d).tx n.val = { (s.die d).tx n.val with ilim := true } ∧
        (u.die d).counter (cTx n.val + 0xC) = (((s.die d).setTx n.val { (s.die d).tx n.val with ilim := true }).counter (cTx n.val + 0xC) + 1) % 2 ^ 32))

/-- PRBS_CHECK of a slice that is not parked, under test or being checked enters a long operation on it. PRBS_CHECK_LOCK starts
its count at the next boundary; PRBS_CHECK_RELOCK counts a relock; PRBS_CHECK_END after the duration ends it DONE with the
counts (every symbol of the duration is compared where the check never locked again), and without a first lock in 1,024
strokes TIMEOUT with none. (R125, R126, R127) -/
def Obligations.PatternChecks : Prop :=
  (∀ (s u : State) (k : Packet) (n : Nat),
      takes s u k 0x0503 = true →
      k.target.toNat / 2 ^ 30 ≠ 3 →
      (u.die k.die).targetSlice k.target.toNat = some n →
      k.w 4 < 4 →
      0 < k.w 5 →
      k.w 5 < 2 ^ 24 →
      (u.die k.die).sliceTest n = none →
      (u.die k.die).parked n = false →
      (u.die k.die).checking n = false →
      (u.die k.die).peg.ops.length < 64 →
      Completes (.prbsCheck k) s (fun t => runsOp t k 0x0503 1 n = true ∧ (t.die k.die).slices = (u.die k.die).slices)) ∧
  (∀ (s : State) (d : DieId) (n : SliceId) (o : Op),
      s.running = true →
      (s.die d).check? n.val = some o →
      o.phase = 0 →
      (s.die d).parked n.val = false →
      s.stroke d < o.start + 1024 →
      Completes (.prbsCheckLock d n) s (fun t => { o with phase := 1, from_ := s.stroke d + 1 } ∈ (t.die d).peg.ops)) ∧
  (∀ (s : State) (d : DieId) (n : SliceId) (o : Op),
      s.running = true →
      (s.die d).check? n.val = some o →
      o.phase = 1 →
      Completes (.prbsCheckRelock d n) s (fun t => { o with data := [(o.data.head?).getD 0 + 1] } ∈ (t.die d).peg.ops)) ∧
  (∀ (s : State) (d : DieId) (n : SliceId) (o : Op) (symbols bitErrs : BitVec 64) (symErrs : Word),
      s.running = true →
      (s.die d).check? n.val = some o →
      o.byTap = false →
      o.phase = 1 →
      o.from_ + o.packet.w 5 ≤ s.stroke d →
      (s.die d).pegRuns = true →
      Completes (.prbsCheckEnd d n symbols bitErrs symErrs) s (fun t =>
        t = s.endOp d { o with position := 1000 } stDone 3 (checkData o (if (o.data.head?).getD 0 = 0 then o.packet.w 5 * (s.die d).sliceSymbols o.obj
          else min symbols.toNat (o.packet.w 5 * (s.die d).sliceSymbols o.obj)) bitErrs.toNat symErrs.toNat))) ∧
  (∀ (s : State) (d : DieId) (n : SliceId) (o : Op) (symbols bitErrs : BitVec 64) (symErrs : Word),
      s.running = true →
      (s.die d).check? n.val = some o →
      o.byTap = false →
      o.phase = 0 →
      o.start + 1024 ≤ s.stroke d →
      (s.die d).pegRuns = true →
      Completes (.prbsCheckEnd d n symbols bitErrs symErrs) s (fun t => t = s.endOp d o stTimeout 3 (checkData o 0 0 0)))

/-- SYMP_ATTACH with a free sympathetic slice orders it to the tap at the next boundary, which answers the command. SYMP_DETACH
of a slice a command attached orders it parked at the next boundary, and is answered DONE with EFFECT 0 when nothing is
attached. HANDOVER and RETUNE_IN_SERVICE of a lane that may be handed over enter a long operation and begin phase 1.
EYE_SCAN and CAPTURE_SAMPLES enter a long operation, invalidate their half of the capture memory and order the slice.
CAPTURE_SAMPLES function 1 is answered DONE with 128 bytes of that half. (R136, R141, R143, R144, R145, R148, R149, R150,
R151, R152) -/
def Obligations.RotationCommands : Prop :=
  (∀ (s u : State) (k : Packet) (c : Nat) (h : Side) (pos : Nat) (tap : Bool),
      takes s u k 0x0401 = true →
      tapTarget k.target.toNat = some (c, h, pos, tap) →
      k.w 4 < 16 →
      (u.die k.die).startBad c h pos tap (bit (k.w 4) 0) (bits (k.w 4) 3 2) = false →
      (u.die k.die).tapDead c h pos tap = false →
      (u.die k.die).sympDenied c h false = none →
      Completes (.sympAttach k) s (fun t => ((t.die k.die).rot c h).want = 1 ∧ ((t.die k.die).rot c h).wantPos = pos ∧
        ((t.die k.die).rot c h).wantTap = tap ∧ ((t.die k.die).rot c h).wantMode = bit (k.w 4) 0 ∧ ((t.die k.die).rot c h).wantAdapt = bit (k.w 4) 1 ∧
        ((t.die k.die).rot c h).wantOwner = 1 ∧
        ⟨k, 0x0401, u.stroke k.die + 1, (u.die k.die).sympSlice c h + 256 * Side.code h, u.stroke k.die⟩ ∈ (t.die k.die).peg.awaits)) ∧
  (∀ (s u : State) (k : Packet) (c : Nat) (h : Side),
      takes s u k 0x0402 = true →
      sideTarget k.target.toNat = some (c, h) →
      (u.die k.die).sliceTest ((u.die k.die).sympSlice c h) = none →
      ((u.die k.die).rot c h).want ≠ 1 →
      ((u.die k.die).rot c h).phase = 0 →
      ((u.die k.die).rot c h).attached = true →
      ((u.die k.die).rot c h).owner = 1 →
      Completes (.sympDetach k) s (fun t => ((t.die k.die).rot c h).want = 2 ∧
        ⟨k, 0x0402, u.stroke k.die + 1, 0, u.stroke k.die⟩ ∈ (t.die k.die).peg.awaits)) ∧
  (∀ (s u : State) (k : Packet) (c : Nat) (h : Side),
      takes s u k 0x0402 = true →
      sideTarget k.target.toNat = some (c, h) →
      (u.die k.die).sliceTest ((u.die k.die).sympSlice c h) = none →
      ((u.die k.die).rot c h).want ≠ 1 →
      ((u.die k.die).rot c h).phase = 0 →
      ((u.die k.die).rot c h).attached = false →
      Answers (.sympDetach k) s k 0x0402 stDone 0 [] (fun w => w = u)) ∧
  (∀ (s u : State) (k : Packet) (c : Nat) (h : Side) (pos : Nat),
      takes s u k 0x0403 = true →
      tapTarget k.target.toNat = some (c, h, pos, false) →
      k.w 4 < 2 ^ 22 →
      bits (k.w 4) 17 16 ≠ 3 →
      bits (k.w 4) 21 18 = 0 →
      (u.die k.die).sympDenied c h true = none →
      (u.die k.die).checking ((u.die k.die).serving c h pos) = false →
      (u.die k.die).hoReason c h pos false = 0 →
      (u.die k.die).peg.ops.length < 64 →
      Completes (.handover k) s (fun t => runsOp t k 0x0403 4 (sideObj c h) = true ∧ ((t.die k.die).rot c h).phase = 1 ∧
        ((t.die k.die).rot c h).want = 1 ∧ ((t.die k.die).rot c h).wantPos = pos ∧ ((t.die k.die).rot c h).wantTap = false ∧
        ((t.die k.die).rot c h).wantStart = bits (k.w 4) 17 16 ∧ ((t.die k.die).rot c h).wantOwner = 2)) ∧
  (∀ (s u : State) (k : Packet) (c : Nat) (h : Side) (pos : Nat),
      takes s u k 0x0404 = true →
      tapTarget k.target.toNat = some (c, h, pos, false) →
      k.w 4 < 2 ^ 22 →
      bits (k.w 4) 17 16 ≠ 3 →
      k.w 5 < 256 →
      (u.die k.die).sympDenied c h true = none →
      (u.die k.die).checking ((u.die k.die).serving c h pos) = false →
      (u.die k.die).hoReason c h pos false = 0 →
      (u.die k.die).peg.ops.length < 64 →
      Completes (.retuneInService k) s (fun t => runsOp t k 0x0404 4 (sideObj c h) = true ∧ ((t.die k.die).rot c h).phase = 1 ∧
        ((t.die k.die).rot c h).want = 1 ∧ ((t.die k.die).rot c h).wantPos = pos ∧ ((t.die k.die).rot c h).wantTap = false ∧
        ((t.die k.die).rot c h).wantStart = bits (k.w 4) 17 16 ∧ ((t.die k.die).rot c h).wantOwner = 2)) ∧
  (∀ (s u : State) (k : Packet) (c : Nat) (h : Side) (pos : Nat) (tap : Bool),
      takes s u k 0x0501 = true →
      tapTarget k.target.toNat = some (c, h, pos, tap) →
      (u.die k.die).eyeBad k c h pos = false →
      (u.die k.die).startBad c h pos tap (bit (k.w 5) 16) (bits (k.w 4) 25 24) = false →
      (u.die k.die).tapDead c h pos tap = false →
      (u.die k.die).sympDenied c h false = none →
      (u.die k.die).halfDenied c h = none →
      (u.die k.die).peg.ops.length < 64 →
      Completes (.eyeScan k) s (fun t => runsOp t k 0x0501 4 (sideObj c h) = true ∧ (((t.die k.die).course c).half h).valid = false ∧
        ((t.die k.die).rot c h).want = 1 ∧ ((t.die k.die).rot c h).wantPos = pos ∧ ((t.die k.die).rot c h).wantTap = tap ∧ ((t.die k.die).rot c h).wantOwner = 3)) ∧
  (∀ (s u : State) (k : Packet) (c : Nat) (h : Side) (pos : Nat) (tap : Bool),
      takes s u k 0x0502 = true →
      k.w 4 % 4 = 0 →
      tapTarget k.target.toNat = some (c, h, pos, tap) →
      k.length.toNat = 8 →
      k.w 4 < 128 →
      capContent k ≠ 3 →
      capTrig k < 2 →
      0 < capLen k →
      capLen k ≤ 768 →
      capPre k ≤ capLen k →
      0 < k.w 6 →
      k.w 6 < 65536 →
      bit (k.w 4) 6 = false →
      (u.die k.die).tapDead c h pos tap = false →
      (u.die k.die).sympDenied c h false = none →
      (u.die k.die).halfDenied c h = none →
      (u.die k.die).peg.ops.length < 64 →
      Completes (.capture k) s (fun t => runsOp t k 0x0502 4 (sideObj c h) = true ∧ (((t.die k.die).course c).half h).valid = false ∧
        ((t.die k.die).rot c h).want = 1 ∧ ((t.die k.die).rot c h).wantPos = pos ∧ ((t.die k.die).rot c h).wantTap = tap ∧ ((t.die k.die).rot c h).wantOwner = 4)) ∧
  (∀ (s u : State) (k : Packet) (c : Nat) (h : Side),
      takes s u k 0x0502 = true →
      k.w 4 = 1 →
      sideTarget k.target.toNat = some (c, h) →
      k.length.toNat = 6 →
      k.w 5 < 384 →
      (u.die k.die).halfDenied c h = none →
      (u.die k.die).workOp c h = none →
      Answers (.captureRead k) s k 0x0502 stDone 3
        ((Memory.readWords (u.die k.die).sram (capBase c h + 128 * k.w 5) 32).map BitVec.toNat) (fun w => w = u))

/-- HANDOVER_ALIGN with an offset in range aligns the sympathetic slice; HANDOVER_DISAGREE and HANDOVER_CONV_TIMEOUT refuse the
handover and park the slice; CAPTURE_TRIGGER stores what the capture records of the samples (with content 0 the samples
themselves, after the FFE's reach) from the half's base once they meet its trigger, ends the operation with its last byte or
says how far it has come, and leaves every other byte alone; CAPTURE_TIMEOUT of a capture that waits for its trigger ends it
TIMEOUT and parks the slice; BANK_ROTATION_START, while the BIST frets are enabled, starts a copy, and BANK_SWAP, at a
boundary after the stroke that ended it, moves the banks of a course. (R136, R138, R140, R144, R146, R150) -/
def Obligations.RotationEvents : Prop :=
  (∀ (s : State) (d : DieId) (c : CourseId) (side : Side) (n : Int),
      up s d = true →
      (s.die d).aligning c.val side = true →
      ((s.die d).rot c.val side).aligned = false →
      -256 ≤ n →
      n ≤ 255 →
      Completes (.handoverAlign d c side (some n)) s (fun t => ((t.die d).rot c.val side) = { ((s.die d).rot c.val side) with aligned := true, d := n } ∧
        (t.die d).slices = (s.die d).slices)) ∧
  (∀ (s : State) (d : DieId) (c : CourseId) (side : Side) (compared : Word),
      up s d = true →
      ((s.die d).rot c.val side).phase = 4 →
      Completes (.handoverDisagree d c side compared) s (fun t => ((t.die d).rot c.val side).attached = false ∧
        ((t.die d).rot c.val side).compared = compared.toNat ∧ ((t.die d).rot c.val side).map = ((s.die d).rot c.val side).map ∧
        ((t.die d).rot c.val side).symp = ((s.die d).rot c.val side).symp)) ∧
  (∀ (s : State) (d : DieId) (c : CourseId) (side : Side),
      up s d = true →
      ((s.die d).rot c.val side).phase = 2 →
      ((s.die d).slice ((s.die d).sympSlice c.val side)).converged = false →
      ((s.die d).rot c.val side).attachAt + ((s.die d).rot c.val side).convLim * 1024 ≤ s.stroke d →
      Completes (.handoverConvTimeout d c side) s (fun t => ((t.die d).rot c.val side).attached = false ∧
        ((t.die d).rot c.val side).map = ((s.die d).rot c.val side).map ∧ ((t.die d).rot c.val side).symp = ((s.die d).rot c.val side).symp)) ∧
  (∀ (s : State) (d : DieId) (c : CourseId) (side : Side) (samples : List Byte) (o : Op),
      up s d = true →
      ((s.die d).rot c.val side).attached = true →
      ((s.die d).rot c.val side).owner = 4 →
      (s.die d).workOp c.val side = some o →
      o.data = [] →
      (s.die d).capFires c.val side o.packet samples = true →
      capBytes (capLen o.packet) ≤ ((s.die d).captured ((s.die d).sympSlice c.val side) (capContent o.packet) samples).length →
      Completes (.captureTrigger d c side samples) s (fun t => (((t.die d).course c.val).half side).valid = true ∧ ((t.die d).rot c.val side).attached = false ∧
        (∀ i : Nat, i < capBytes (capLen o.packet) → Memory.read (t.die d).sram (capBase c.val side + i) = (((s.die d).captured ((s.die d).sympSlice c.val side) (capContent o.packet) samples)[i]?).getD 0) ∧
        (∀ a : Nat, a < capBase c.val side ∨ capBase c.val side + capBytes (capLen o.packet) ≤ a →
          Memory.read (t.die d).sram a = Memory.read (s.die d).sram a))) ∧
  (∀ (s : State) (d : DieId) (c : CourseId) (side : Side) (samples : List Byte) (o : Op),
      up s d = true →
      ((s.die d).rot c.val side).attached = true →
      ((s.die d).rot c.val side).owner = 4 →
      (s.die d).workOp c.val side = some o →
      o.data = [] →
      (s.die d).capFires c.val side o.packet samples = true →
      ((s.die d).captured ((s.die d).sympSlice c.val side) (capContent o.packet) samples).length < capBytes (capLen o.packet) →
      Completes (.captureTrigger d c side samples) s (fun t => (((t.die d).course c.val).half side).valid = true ∧ ((t.die d).rot c.val side).attached = true ∧
        (∀ i : Nat, i < ((s.die d).captured ((s.die d).sympSlice c.val side) (capContent o.packet) samples).length → Memory.read (t.die d).sram (capBase c.val side + i) = (((s.die d).captured ((s.die d).sympSlice c.val side) (capContent o.packet) samples)[i]?).getD 0) ∧
        (∀ a : Nat, a < capBase c.val side ∨ capBase c.val side + ((s.die d).captured ((s.die d).sympSlice c.val side) (capContent o.packet) samples).length ≤ a →
          Memory.read (t.die d).sram a = Memory.read (s.die d).sram a) ∧
        { o with data := [((s.die d).captured ((s.die d).sympSlice c.val side) (capContent o.packet) samples).length, (if capTrig o.packet = 0 then ((s.die d).rot c.val side).attachAt else s.stroke d) % 4294967296, capBytes (capPre o.packet)],
                 position := ((s.die d).captured ((s.die d).sympSlice c.val side) (capContent o.packet) samples).length * 1000 / capBytes (capLen o.packet) } ∈ (t.die d).peg.ops)) ∧
  (∀ (x : Die) (n : SliceId) (samples : List Byte) (i : Nat),
      taps n.val + i + 15 < samples.length →
      (x.captured n.val 0 samples)[i]? = samples[taps n.val + i]?) ∧
  (∀ (s : State) (d : DieId) (c : CourseId) (side : Side) (o : Op),
      up s d = true →
      ((s.die d).rot c.val side).attached = true →
      ((s.die d).rot c.val side).owner = 4 →
      (s.die d).workOp c.val side = some o →
      o.data = [] →
      capTrig o.packet ≠ 0 →
      ((s.die d).rot c.val side).attachAt + o.packet.w 6 ≤ s.stroke d →
      Completes (.captureTimeout d c side) s (fun t => ((t.die d).rot c.val side).attached = false ∧ (t.die d).sram = (s.die d).sram ∧
        t = (s.detach d c.val side 1).conclude d o stTimeout 0 [0, 0, 0])) ∧
  (∀ (s : State) (d : DieId) (c : CourseId),
      up s d = true →
      (s.die d).brg.isolated = false →
      (s.die d).bistOn = true →
      fld ((s.die d).act (oBank c.val)) 0 0 = 1 →
      ((s.die d).course c.val).banks.stopped = false →
      ((s.die d).course c.val).banks.copying = false →
      ((s.die d).course c.val).banks.spare ≠ 7 →
      (s.die d).bankTest c.val = false →
      ((s.die d).course c.val).banks.lastRot + fld ((s.die d).act (oBank c.val)) 10 1 * 1024 ≤ s.stroke d →
      Completes (.bankRotationStart d c) s (fun t => ((t.die d).course c.val).banks = { ((s.die d).course c.val).banks with
          copying := true, src := (((s.die d).course c.val).banks.map[((s.die d).course c.val).banks.nextLog]?).getD 0,
          logical := ((s.die d).course c.val).banks.nextLog, nextLog := (((s.die d).course c.val).banks.nextLog + 1) % 6, copied := 0, lastRot := s.stroke d })) ∧
  (∀ (s : State) (d : DieId) (c : CourseId),
      up s d = true →
      (s.die d).bistOn = true →
      s.pos = 0 →
      ((s.die d).course c.val).banks.copying = true →
      ((s.die d).course c.val).banks.copyEnd < s.stroke d →
      ((s.die d).course c.val).banks.copied = bankSize →
      Completes (.bankSwap d c) s (fun t => ((t.die d).course c.val).banks = { ((s.die d).course c.val).banks with
          map := ((s.die d).course c.val).banks.map.set ((s.die d).course c.val).banks.logical ((s.die d).course c.val).banks.spare,
          spare := ((s.die d).course c.val).banks.src, src := 7, copying := false, copied := 0 } ∧
        (t.die d).bist.tests.length = (s.die d).bist.tests.length + 1))

/-- While no self-test has the engine of the port, a bad training frame is discarded and counted by the framer and the port; a
valid one of the segment's protocol makes its segment present and its fields are presented to the engine of a lane in a
session. FRAME_LOCK, after 3 valid frames in succession on a peer segment (1 at least on a standard one), takes a lane in
SEEK to ACQUIRE, or HOLD on the segment that kept its lanes, and on a carrying gearbox lane loses its phase;
FRAME_LOCK_LOST, after 4 bad frames on a peer segment (1 at least on a standard one), takes a lane in ACQUIRE, HOLD or READY
back to SEEK. REQUEST_ABANDONED ends the device's requests after 1,024 strokes. Each end of an outgoing frame counts a
lane's countdown down, and the last makes it DONE; the next peer frame carries the control and status fields of that moment.
FRAMES_IN_SERVICE notes each lane and is posted once a segment. (R159, R160, R161, R164, R168, R174, R175, R176, R177, R180,
R236, R237) -/
def Obligations.TrainingEvents : Prop :=
  (∀ (s : State) (p : PortId) (h : Side) (j : Pos) (f : StdFrame) (k : LaneKind),
      up s p.die = true →
      (s.port p).enabled = true →
      ((s.die p.die).segPos p.key h).contains j.val = true →
      (s.die p.die).framerTest p.key = false →
      f.ok = true →
      (s.die p.die).peerSeg p.key h = false →
      (s.die p.die).laneKind p.key h j.val = some k →
      Completes (.trainingFrame p h j (.standard f)) s (fun t =>
        (t.die p.die).lane p.key h j.val k = ((s.die p.die).lane p.key h j.val k).present (stdFields f) ∧
        (t.port p).framer h j.val = ((s.port p).framer h j.val).take true ∧
        (t.port p).framed h = true ∧ (t.die p.die).slices = (s.die p.die).slices)) ∧
  (∀ (s : State) (p : PortId) (h : Side) (j : Pos) (l : List (Fin 4)) (c w : BitVec 64) (k : LaneKind),
      up s p.die = true →
      (s.port p).enabled = true →
      ((s.die p.die).segPos p.key h).contains j.val = true →
      (s.die p.die).framerTest p.key = false →
      readFrame (l.map (·.val)) = some (c, w) →
      (peerFields c w).beaconVer ≠ 0 →
      (s.die p.die).peerSeg p.key h = true →
      (s.die p.die).laneKind p.key h j.val = some k →
      Completes (.trainingFrame p h j (.peer l)) s (fun t =>
        (t.die p.die).lane p.key h j.val k = ((s.die p.die).lane p.key h j.val k).present (peerFields c w) ∧
        (t.port p).framer h j.val = ((s.port p).framer h j.val).take true ∧ (t.port p).partnerId = (peerFields c w).session ∧
        (t.port p).lFrame = true ∧ (t.die p.die).slices = (s.die p.die).slices)) ∧
  (∀ (s : State) (p : PortId) (h : Side) (j : Pos) (f : RxFrame),
      up s p.die = true →
      (s.port p).enabled = true →
      ((s.die p.die).segPos p.key h).contains j.val = true →
      (s.die p.die).framerTest p.key = false →
      readRx f = none →
      Completes (.trainingFrame p h j f) s (fun t =>
        t = (s.onPort p (fun v => v.setFramer h j.val ((v.framer h j.val).take false))).count p.die (cTrain p.course.val p.idx.val + 0xC))) ∧
  (∀ (s : State) (p : PortId) (h : Side) (j : Pos) (a : Nat) (k : LaneKind),
      up s p.die = true →
      (s.port p).enabled = true →
      ((s.die p.die).segPos p.key h).contains j.val = true →
      ((s.port p).framer h j.val).locked = false →
      (if (s.die p.die).peerSeg p.key h then 3 else 1) ≤ ((s.port p).framer h j.val).valid →
      (s.die p.die).laneKind p.key h j.val = some k →
      ((s.die p.die).lane p.key h j.val k).state = 1 →
      Completes (.frameLock p h j a) s (fun t =>
        (t.port p).framer h j.val = { ((s.port p).framer h j.val) with locked := true, arrival := a } ∧
        (t.die p.die).lane p.key h j.val k = { (s.die p.die).lane p.key h j.val k with
          flock := true, arrival := a, state := if k = .session ∧ (s.port p).kept = some h then 3 else 2 })) ∧
  (∀ (s : State) (p : PortId) (j : Pos) (a : Nat),
      up s p.die = true →
      (s.port p).carrying = true →
      ((s.die p.die).segPos p.key .line).contains j.val = true →
      ((s.port p).framer .line j.val).locked = false →
      (if (s.die p.die).peerSeg p.key .line then 3 else 1) ≤ ((s.port p).framer .line j.val).valid →
      (s.die p.die).laneKind p.key .line j.val = none →
      hasGearbox ((s.die p.die).cfga p.key) = true →
      hasLattice ((s.die p.die).cfga p.key) = false →
      ((s.die p.die).portLine p.key).contains j.val = true →
      (((s.die p.die).course p.course.val).gbxLane j.val).phase = true →
      Completes (.frameLock p .line j a) s (fun t =>
        (((t.die p.die).course p.course.val).gbxLane j.val).phase = false ∧ bit (t.port p).lLost j.val = true)) ∧
  (∀ (s : State) (p : PortId) (h : Side) (j : Pos) (k : LaneKind),
      up s p.die = true →
      (s.port p).enabled = true →
      ((s.port p).framer h j.val).locked = true →
      (if (s.die p.die).peerSeg p.key h then 4 else 1) ≤ ((s.port p).framer h j.val).bad →
      (s.die p.die).laneKind p.key h j.val = some k →
      ((s.die p.die).lane p.key h j.val k).flock = true →
      2 ≤ ((s.die p.die).lane p.key h j.val k).state →
      ((s.die p.die).lane p.key h j.val k).state ≤ 4 →
      Completes (.frameLockLost p h j) s (fun t => ((t.port p).framer h j.val).locked = false ∧
        (t.die p.die).lane p.key h j.val k = { (s.die p.die).lane p.key h j.val k with flock := false, state := 1, rrTx := false })) ∧
  (∀ (s : State) (p : PortId) (h : Side) (j : Pos) (k : LaneKind),
      up s p.die = true →
      (s.die p.die).laneKind p.key h j.val = some k →
      ((s.die p.die).lane p.key h j.val k).reqOpen = true →
      ((s.die p.die).lane p.key h j.val k).reqFrom + 1024 ≤ s.stroke p.die →
      Completes (.requestAbandoned p h j) s (fun t =>
        (t.die p.die).lane p.key h j.val k = { (s.die p.die).lane p.key h j.val k with reqOpen := false, reqDone := true })) ∧
  (∀ (s : State) (p : PortId) (h : Side) (j : Pos),
      up s p.die = true →
      (s.port p).carrying = true →
      ((s.die p.die).segPos p.key h).contains j.val = true →
      (s.die p.die).laneKind p.key h j.val = none →
      (s.die p.die).lockActs p.key h j.val = false →
      (if (s.die p.die).peerSeg p.key h then 3 else 1) ≤ ((s.port p).framer h j.val).valid →
      (match h with | .host => (s.port p).svcH | .line => (s.port p).svcL) = 0 →
      Posts (.framesInService p h j) s p.die (296 + p.key) 0x14 (Side.code h + 2 * j.val) (fun u =>
        (match h with | .host => (u.port p).svcH | .line => (u.port p).svcL) = 2 ^ j.val ∧ (u.port p).state = (s.port p).state)) ∧
  (∀ (s : State) (p : PortId) (h : Side) (j : Pos),
      up s p.die = true →
      (s.port p).carrying = true →
      ((s.die p.die).segPos p.key h).contains j.val = true →
      (s.die p.die).laneKind p.key h j.val = none →
      (s.die p.die).lockActs p.key h j.val = false →
      (if (s.die p.die).peerSeg p.key h then 3 else 1) ≤ ((s.port p).framer h j.val).valid →
      (match h with | .host => (s.port p).svcH | .line => (s.port p).svcL) ≠ 0 →
      bit (match h with | .host => (s.port p).svcH | .line => (s.port p).svcL) j.val = false →
      Completes (.framesInService p h j) s (fun t =>
        (match h with | .host => (t.port p).svcH | .line => (t.port p).svcL) = (match h with | .host => (s.port p).svcH | .line => (s.port p).svcL) ||| 2 ^ j.val ∧ (t.port p).state = (s.port p).state ∧ ∀ d : DieId, (t.die d).evt = (s.die d).evt)) ∧
  (∀ (s : State) (p : PortId) (h : Side) (j : Pos) (k : LaneKind),
      up s p.die = true →
      (s.die p.die).laneKind p.key h j.val = some k →
      ((s.die p.die).lane p.key h j.val k).state = 5 →
      1 < ((s.die p.die).lane p.key h j.val k).count →
      Completes (.outgoingFrameBoundary p h j) s (fun t =>
        (t.die p.die).lane p.key h j.val k = { (s.die p.die).lane p.key h j.val k with
          pendTaps := none, frames := ((s.die p.die).lane p.key h j.val k).frames + 1, count := ((s.die p.die).lane p.key h j.val k).count - 1,
          sentCtl := ((t.die p.die).lane p.key h j.val k).sentCtl, sentSts := ((t.die p.die).lane p.key h j.val k).sentSts } ∧
        ((s.die p.die).peerSeg p.key h = true →
          ((t.die p.die).lane p.key h j.val k).sentCtl = (t.die p.die).control p.key j.val ((t.die p.die).lane p.key h j.val k) ∧
          ((t.die p.die).lane p.key h j.val k).sentSts = (t.die p.die).status p.key j.val ((t.die p.die).lane p.key h j.val k)))) ∧
  (∀ (s : State) (p : PortId) (h : Side) (j : Pos) (k : LaneKind),
      up s p.die = true →
      (s.die p.die).laneKind p.key h j.val = some k →
      ((s.die p.die).lane p.key h j.val k).state = 5 →
      ((s.die p.die).lane p.key h j.val k).count ≤ 1 →
      Completes (.outgoingFrameBoundary p h j) s (fun t =>
        (t.die p.die).lane p.key h j.val k = { (s.die p.die).lane p.key h j.val k with
          pendTaps := none, frames := ((s.die p.die).lane p.key h j.val k).frames + 1, count := 0, state := 6,
          sentCtl := ((t.die p.die).lane p.key h j.val k).sentCtl, sentSts := ((t.die p.die).lane p.key h j.val k).sentSts } ∧
        ((s.die p.die).peerSeg p.key h = true →
          ((t.die p.die).lane p.key h j.val k).sentCtl = (t.die p.die).control p.key j.val ((t.die p.die).lane p.key h j.val k) ∧
          ((t.die p.die).lane p.key h j.val k).sentSts = (t.die p.die).status p.key j.val ((t.die p.die).lane p.key h j.val k))))

/-- In its fret the engine moves a port one lane wide on each segment, both lanes in HOLD, converged and told ready by their
partners, to EXIT with its countdowns, and on a die with no enabled port and no lane in a session only its fret is done.
TRAIN_BUDGET_EXPIRED, when the budget runs out at the next boundary with a lane that has not reached ENDING, is that
boundary, at which what was measured stands; and at a boundary at which the budget has run out the port in TRAINING is
DETECTED again, its session ended, with the reason that its lanes then give. TRAIN_START of a DETECTED port enters a long
operation and starts the sessions at the next boundary; TRAIN_ABORT of running sessions ends them there with reason 7;
TRAIN_STATUS is answered DONE in fret 21 or later with the status of then, and changes nothing else. (R158, R159, R163,
R164, R181, R183, R184, R185) -/
def Obligations.TrainingSessions : Prop :=
  (∀ (s : State) (d : DieId),
      up s d = true →
      (s.die d).trainRuns = true →
      s.fretOpen d 17 20 = true →
      (s.die d).engineOrder = [] →
      (∀ i : PortIx, ∀ c : CourseId, ((s.die d).port (8 * c.val + i.val)).enabled = false) →
      Completes (.trainingEngineFret d) s (fun t =>
        t = (s.toFret 17).onDie d (fun x => { x with stroke := { x.stroke with ran := x.stroke.ran ||| 2 ^ 17, trainLeft := [] } }))) ∧
  (∀ (s : State) (p : PortId) (i j : Nat) (a b : LaneSess),
      up s p.die = true →
      (s.die p.die).trainRuns = true →
      s.fretOpen p.die 17 20 = true →
      (s.die p.die).stroke.trainCut = 0 →
      (s.port p).enabled = true →
      (s.port p).sess = true →
      (∀ i : PortIx, ∀ c : CourseId, 8 * c.val + i.val ≠ p.key → ((s.die p.die).port (8 * c.val + i.val)).enabled = false) →
      (s.die p.die).segPos p.key .host = [i] →
      (s.die p.die).segPos p.key .line = [j] →
      (s.port p).hlanes = [(i, a)] →
      (s.port p).llanes = [(j, b)] →
      hasLattice ((s.die p.die).cfga p.key) = false →
      hasGearbox ((s.die p.die).cfga p.key) = false →
      fld ((s.die p.die).trnCfg p.key) 3 3 = 0 →
      bit (s.port p).modes 0 = false →
      (a.state = 3 ∧ a.rrRx = true ∧ a.fresh = false) →
      (b.state = 3 ∧ b.rrRx = true ∧ b.fresh = false) →
      (s.die p.die).laneConv p.key .host i = true →
      (s.die p.die).laneConv p.key .line j = true →
      Completes (.trainingEngineFret p.die) s (fun t =>
        (t.port p).hlanes = [(i, { a with state := 5, rrTx := true, count := endCount false, bits := 2 * b2n a.flock + 4 * b2n a.reqPre })] ∧
        (t.port p).llanes = [(j, { b with state := 5, rrTx := true, count := endCount ((s.die p.die).peerSeg p.key .line), bits := 2 * b2n b.flock + 4 * b2n b.reqPre })])) ∧
  (∀ (s : State) (p : PortId),
      up s p.die = true →
      (s.port p).sess = true →
      (s.port p).begun + (s.die p.die).budget p.key ≤ s.stroke p.die + 1 →
      (s.die p.die).budgetReason p.key ≠ 0 →
      Completes (.trainBudgetExpired p) s (fun t => exec (.strokeBoundary { slices := [], fec := [], fills := [], prs := [], agree := [], limits := [], sent := [], eyes := [], twi := [] }) s = .next t ∧ t.pos = 0 ∧ t.phase = 2 ∧
        ∀ d : DieId, present s.part d = true → (s.die d).brg.restoring = false → (s.die d).stroke.asleep = false → t.stroke d = s.stroke d + 1)) ∧
  (∀ (s : State) (p : PortId),
      (s.port p).state = 3 →
      ((s.port p).hostPres = true ∧ (s.port p).linePres = true) →
      ((s.port p).abort = 0 ∧ (s.port p).ready = false) →
      (s.port p).begun + (s.die p.die).budget p.key ≤ s.stroke p.die →
      (s.die p.die).budgetReason p.key ≠ 0 →
      ((s.portAt p).port p).state = 2 ∧ ((s.portAt p).port p).sess = false ∧ ((s.portAt p).port p).failed = true ∧
        ((s.portAt p).port p).reason = (s.die p.die).budgetReason p.key ∧ ((s.portAt p).port p).startAt = none ∧
        (min (segState (s.port p).hlanes) (segState (s.port p).llanes) = 1 → ((s.portAt p).port p).reason = 1)) ∧
  (∀ (s u : State) (k : Packet) (p : PortId),
      takesPort s u k 0x0301 p = true →
      (u.port p).state = 2 →
      (u.die p.die).busy 3 p.key = false →
      (u.die p.die).overridden p.key = false →
      (u.die p.die).holds p.key = false →
      (u.die k.die).peg.ops.length < 64 →
      Completes (.trainStart k) s (fun t => runsOp t k 0x0301 3 p.key = true ∧
        t.port p = { u.port p with retryAt := none, startAt := some (u.stroke p.die + 1), startOp := true })) ∧
  (∀ (s u : State) (k : Packet) (p : PortId),
      takesPort s u k 0x0301 p = true →
      3 ≤ (u.port p).state →
      (u.port p).state < 6 →
      Answers (.trainStart k) s k 0x0301 stInUse 0 [] (fun w => w = u)) ∧
  (∀ (s u : State) (k : Packet) (p : PortId),
      takesPort s u k 0x0302 p = true →
      k.w 4 ≤ 1 →
      (u.port p).sess = true →
      Completes (.trainAbort k) s (fun t =>
        t = (u.setPort p { u.port p with abort := 7, noRetry := (u.port p).noRetry || k.w 4 == 1 }).await k 0x0302 (u.stroke p.die + 1) p.key)) ∧
  (∀ (s u : State) (k : Packet) (p : PortId),
      takesPort s u k 0x0303 p = true →
      Answers (.trainStatus k) s k 0x0303 stDone 3 ((u.toFret 21).trainStatus p) (fun w => w = u.toFret 21))

/-- FEC_LOCK_CHANGE moves an engine's lock and its skew and posts it; the end of a degraded window sets the flag from 2^E
corrected symbols on, counted afresh; BLOCK_LOCK_CHANGE gains one monitor's lock with 64 valid sync headers in succession
and loses it, slipping by a bit, with the sixteenth invalid one among at most 64. PAIR_SLIP sets a gearbox lane's slip and
posts its fill; PHASE_SESSION starts a phase session at SEEK in TRAIN; PHASE_RESTORED ends it with the lane in phase;
PHASE_SESSION_FAILED starts it over at its budget with the port's next session identifier and posts the reason. (R196, R197,
R199, R203, R234, R235, R237, R238, R246) -/
def Obligations.Datapath : Prop :=
  (∀ (s : State) (p : PortId) (h : Side) (skew : Nat),
      up s p.die = true →
      (s.port p).carrying = true →
      hasFec ((s.die p.die).cfga p.key) = true →
      ((s.port p).dir h).fecLock = false →
      ((s.port p).dir h).bypass = (dpath ((s.die p.die).cfga p.key) == 2 && decide (20 < skew)) →
      Posts (.fecLockChange p h true skew) s p.die (296 + p.key) 0x20 (Side.code h + 256 * min skew 255) (fun u =>
        (u.port p).dir h = { (s.port p).dir h with fecLock := true, skew := min skew 255 })) ∧
  (∀ (s : State) (p : PortId) (h : Side) (skew : Nat),
      up s p.die = true →
      (s.port p).carrying = true →
      hasFec ((s.die p.die).cfga p.key) = true →
      ((s.port p).dir h).fecLock = false →
      ((s.port p).dir h).bypass = false →
      dpath ((s.die p.die).cfga p.key) = 2 →
      20 < skew →
      Posts (.fecLockChange p h true skew) s p.die (296 + p.key) 0x24 (Side.code h + 256 * min skew 255 + 65536) (fun u =>
        (u.port p).dir h = { (s.port p).dir h with fecLock := true, skew := min skew 255, bypass := true })) ∧
  (∀ (s : State) (p : PortId) (h : Side) (skew : Nat),
      up s p.die = true →
      (s.port p).carrying = true →
      hasFec ((s.die p.die).cfga p.key) = true →
      ((s.port p).dir h).fecLock = true →
      Posts (.fecLockChange p h false skew) s p.die (296 + p.key) 0x21 (Side.code h) (fun u =>
        (u.port p).dir h = { (s.port p).dir h with fecLock := false, fecRan := true, metLow := true })) ∧
  (∀ (s : State) (p : PortId) (h : Side) (e : Nat),
      up s p.die = true →
      fld ((s.die p.die).act (oDp p.course.val p.idx.val)) 5 5 = 1 →
      fld ((s.die p.die).act (oDp p.course.val p.idx.val)) 4 0 = e →
      hasFec ((s.die p.die).cfga p.key) = true →
      s.stroke p.die % 1024 = 0 →
      s.stroke p.die ≠ ((s.port p).dir h).degAt →
      ((s.port p).dir h).degWhole = true →
      ((s.port p).dir h).deg = false →
      2 ^ e ≤ ((s.port p).dir h).degCount →
      Posts (.fecDegWindowEnd p h) s p.die (296 + p.key) 0x22 (Side.code h + 256 * min ((s.port p).dir h).degCount 16777215) (fun u =>
        (u.port p).dir h = { (s.port p).dir h with deg := true, degCount := 0, degWhole := true, degAt := s.stroke p.die })) ∧
  (∀ (s : State) (p : PortId) (h : Side) (j : Fin 8) (headers : List (BitVec 2)),
      up s p.die = true →
      (s.port p).enabled = true →
      hasBlocks ((s.die p.die).cfga p.key) = true →
      ((s.die p.die).portHost p.key).contains j.val = true →
      bit ((s.port p).dir h).block j.val = false →
      headers.length = 64 →
      (∀ q ∈ headers, q = 1 ∨ q = 2) →
      Posts (.blockLockChange p h j headers) s p.die (296 + p.key) 0x25 (Side.code h + 2 * j.val + 16) (fun u =>
        (u.port p).dir h = { (s.port p).dir h with block := ((s.port p).dir h).block ^^^ 2 ^ j.val, blind := ((s.port p).dir h).blind ||| 2 ^ j.val })) ∧
  (∀ (s : State) (p : PortId) (h : Side) (j : Fin 8) (headers : List (BitVec 2)),
      up s p.die = true →
      (s.port p).enabled = true →
      hasBlocks ((s.die p.die).cfga p.key) = true →
      ((s.die p.die).portHost p.key).contains j.val = true →
      bit ((s.port p).dir h).block j.val = true →
      headers.length ≤ 64 →
      (headers.filter (fun q => q == 0 || q == 3)).length = 16 →
      (headers.getLast? = some 0 ∨ headers.getLast? = some 3) →
      Posts (.blockLockChange p h j headers) s p.die (296 + p.key) 0x25 (Side.code h + 2 * j.val) (fun u =>
        ((u.port p).dir h).block = ((s.port p).dir h).block ^^^ 2 ^ j.val ∧ ((u.port p).dir h).blockRan = true ∧ ((u.port p).dir h).metLow = true ∧
        SMap.get 0 ((u.port p).dir h).slip j.val = (SMap.get 0 ((s.port p).dir h).slip j.val + 1) % 66)) ∧
  (∀ (s : State) (d : DieId) (c : CourseId) (k : Fin 4) (fill : BitVec 9) (n : Nat),
      up s d = true →
      (s.die d).gbxPort c.val k.val = some n →
      ((s.die d).port n).carrying = true →
      (((s.die d).course c.val).gbxLane k.val).slip = false →
      (fill = 0 ∨ fill = 511) →
      Posts (.pairSlip d c k fill) s d (296 + n) 0x40 (k.val + 65536 * fill.toNat) (fun u =>
        ((u.die d).course c.val).gbxLane k.val = { ((s.die d).course c.val).gbxLane k.val with slip := true, fill := fill.toNat } ∧
        ∀ j : Fin 4, j ≠ k → ((u.die d).course c.val).gbxLane j.val = ((s.die d).course c.val).gbxLane j.val)) ∧
  (∀ (s : State) (d : DieId) (c : CourseId) (k : Fin 4) (n : Nat),
      up s d = true →
      (s.die d).gbxPort c.val k.val = some n →
      ((s.die d).port n).carrying = true →
      (((s.die d).course c.val).gbxLane k.val).phase = false →
      (((s.die d).course c.val).gbxLane k.val).phses = false →
      (s.die d).lineLocked c.val k.val = true →
      (hasLattice ((s.die d).cfga n) = false ∨ ((s.die d).course c.val).lat.protects = false) →
      Completes (.phaseSession d c k) s (fun t =>
        ((t.die d).course c.val).gbxLane k.val = { ((s.die d).course c.val).gbxLane k.val with
          phses := true, sessAt := s.stroke d, lane := { (s.die d).laneSeek n .line k.val ((((s.die d).port n).ownId + 1) % 256) true with
            sentCtl := (((t.die d).course c.val).gbxLane k.val).lane.sentCtl, sentSts := (((t.die d).course c.val).gbxLane k.val).lane.sentSts } } ∧
        ((t.die d).slice ((s.die d).serving c.val .line k.val)).converged = false ∧
        ((t.die d).slice ((s.die d).serving c.val .line k.val)).locked = ((s.die d).slice ((s.die d).serving c.val .line k.val)).locked ∧
        ((t.die d).tx (txOf c.val .line k.val)).single = true)) ∧
  (∀ (s : State) (d : DieId) (c : CourseId) (k last : Fin 4) (n : Nat),
      up s d = true →
      (s.die d).gbxPort c.val k.val = some n →
      (((s.die d).course c.val).gbxLane k.val).phses = true →
      (((s.die d).course c.val).gbxLane k.val).lane.state = 6 →
      (((s.die d).course c.val).gbxLane k.val).lane.doneTx = true →
      (((s.die d).course c.val).gbxLane k.val).lane.doneRx = true →
      Completes (.phaseRestored d c k last) s (fun t =>
        ((t.die d).course c.val).gbxLane k.val = { ((s.die d).course c.val).gbxLane k.val with phses := false, phase := true, lostAt := none } ∧
        ((t.die d).tx (txOf c.val .line k.val)).single = false)) ∧
  (∀ (s : State) (d : DieId) (c : CourseId) (k : Fin 4) (n : Nat),
      up s d = true →
      (s.die d).gbxPort c.val k.val = some n →
      (((s.die d).course c.val).gbxLane k.val).phses = true →
      (((s.die d).course c.val).gbxLane k.val).lane.state < 5 →
      (((s.die d).course c.val).gbxLane k.val).sessAt + (s.die d).budget n ≤ s.stroke d →
      Posts (.phaseSessionFailed d c k) s d (296 + n) 0x43
        (k.val + 256 * laneReason (((s.die d).course c.val).gbxLane k.val).lane.state) (fun u =>
        ((u.die d).course c.val).gbxLane k.val = { ((s.die d).course c.val).gbxLane k.val with
          sessAt := s.stroke d, lane := { (s.die d).laneSeek n .line k.val ((((s.die d).port n).ownId + 1) % 256) true with
            sentCtl := (((u.die d).course c.val).gbxLane k.val).lane.sentCtl, sentSts := (((u.die d).course c.val).gbxLane k.val).lane.sentSts } }))

/-- A syndrome window of at most 64 non-zero syndromes (of slots without a service word, and, in a window in which rebuilding
began or ended, in which no lane was being rebuilt) arms a course in ARMING with every line lane locked; one above 8,192
disarms an armed one with reason 3. The declaration of a data lane in ARMED starts its rebuilding; a second disarms with
reason 2. A declaration rests on LAT_DET consecutive bad words, on loss of lock, or on frame lock. A rebuilt lane is
re-admitted by agreement, or through an announcement (whose four copies a receiver accepts as sent, at any parity), the
switch to TRAIN, a single-lane session, and agreement: the search finds a wait within -1,024 to +1,023 of the old one, even
on a gearbox port, any disagreement starts the count again, and at 2^20 agreements LATTICE_READMITTED makes the course ARMED
again. A failed single-lane session returns it to REBUILDING. (R214, R215, R216, R219, R220, R221, R222, R223, R224, R239) -/
def Obligations.LatticeEvents : Prop :=
  (∀ (s : State) (d : DieId) (c : CourseId) (slots : List Slot),
      up s d = true →
      (s.die d).latOn c.val = true →
      ((s.die d).course c.val).lat.state = 2 →
      (slots.filter (fun q => !q.service && (decide (((s.die d).course c.val).lat.changed + 4 ≤ s.stroke d) || !q.rebuilt) && xorValues (q.values.map (·.val)) != 0)).length ≤ 64 →
      ((s.die d).latLanes c.val).all ((s.die d).lineLocked c.val) = true →
      Posts (.syndromeWindowEnd d c slots) s d (296 + (s.latPort d c.val).key) 0x30 ((s.die d).course c.val).lat.skew (fun u =>
        ((u.die d).course c.val).lat = { ((s.die d).course c.val).lat with state := 3, changed := s.stroke d, nonzero := (slots.filter (fun q => !q.service && (decide (((s.die d).course c.val).lat.changed + 4 ≤ s.stroke d) || !q.rebuilt) && xorValues (q.values.map (·.val)) != 0)).length })) ∧
  (∀ (s : State) (d : DieId) (c : CourseId) (slots : List Slot),
      up s d = true →
      (s.die d).latOn c.val = true →
      ((s.die d).course c.val).lat.state = 3 →
      8192 < (slots.filter (fun q => !q.service && (decide (((s.die d).course c.val).lat.changed + 4 ≤ s.stroke d) || !q.rebuilt) && xorValues (q.values.map (·.val)) != 0)).length →
      Completes (.syndromeWindowEnd d c slots) s (fun t =>
        ((t.die d).course c.val).lat = { ((s.die d).course c.val).lat with state := 7, changed := s.stroke d, nonzero := (slots.filter (fun q => !q.service && (decide (((s.die d).course c.val).lat.changed + 4 ≤ s.stroke d) || !q.rebuilt) && xorValues (q.values.map (·.val)) != 0)).length, dreason := 3, pos := 15, pos2 := 15, disarm := false, announced := false, agree := 0, noArm := true })) ∧
  (∀ (s : State) (d : DieId) (c : CourseId) (slots : List Slot),
      up s d = true →
      (s.die d).latOn c.val = true →
      ((s.die d).course c.val).lat.state = 3 →
      (slots.filter (fun q => !q.service && (decide (((s.die d).course c.val).lat.changed + 4 ≤ s.stroke d) || !q.rebuilt) && xorValues (q.values.map (·.val)) != 0)).length ≤ 8192 →
      Completes (.syndromeWindowEnd d c slots) s (fun t => ((t.die d).course c.val).lat = { ((s.die d).course c.val).lat with nonzero := (slots.filter (fun q => !q.service && (decide (((s.die d).course c.val).lat.changed + 4 ≤ s.stroke d) || !q.rebuilt) && xorValues (q.values.map (·.val)) != 0)).length })) ∧
  (∀ (s : State) (d : DieId) (c : CourseId) (j : Pos) (tr : Fin 3) (words : List (List Int)),
      up s d = true →
      (s.die d).latOn c.val = true →
      ((s.die d).latLanes c.val).contains j.val = true →
      (tr = 0 → (s.die d).latDet c.val ≤ words.length ∧ ∀ w ∈ words, w ≠ [] ∧ badWord (fld ((s.die d).act (oLat c.val)) 9 4) ((s.die d).slice ((s.die d).serving c.val .line j.val)).mean w = true) →
      (tr = 1 → (s.die d).lineLocked c.val j.val = false) →
      (tr = 2 → (((s.die d).port ((s.die d).latKey c.val)).framer .line j.val).locked = true) →
      j.val ≠ 8 →
      ((s.die d).course c.val).lat.state = 3 →
      Posts (.latticeRebuild d c j tr words) s d (296 + (s.latPort d c.val).key) 0x31 (j.val + 16 * tr.val) (fun u =>
        ((u.die d).course c.val).lat.state = 4 ∧ ((u.die d).course c.val).lat.pos = j.val ∧ ((u.die d).course c.val).lat.trigger = tr.val ∧ ((u.die d).course c.val).lat.failedAt = s.stroke d ∧ ((u.die d).course c.val).lat.announced = (tr.val == 2))) ∧
  (∀ (s : State) (d : DieId) (c : CourseId) (j : Pos) (tr : Fin 3) (words : List (List Int)),
      up s d = true →
      (s.die d).latOn c.val = true →
      ((s.die d).latLanes c.val).contains j.val = true →
      (tr = 0 → (s.die d).latDet c.val ≤ words.length ∧ ∀ w ∈ words, w ≠ [] ∧ badWord (fld ((s.die d).act (oLat c.val)) 9 4) ((s.die d).slice ((s.die d).serving c.val .line j.val)).mean w = true) →
      (tr = 1 → (s.die d).lineLocked c.val j.val = false) →
      (tr = 2 → (((s.die d).port ((s.die d).latKey c.val)).framer .line j.val).locked = true) →
      4 ≤ ((s.die d).course c.val).lat.state →
      ((s.die d).course c.val).lat.state ≤ 6 →
      j.val ≠ ((s.die d).course c.val).lat.pos →
      Completes (.latticeRebuild d c j tr words) s (fun t => ((t.die d).course c.val).lat.state = 7 ∧ ((t.die d).course c.val).lat.dreason = 2 ∧ ((t.die d).course c.val).lat.pos = ((s.die d).course c.val).lat.pos ∧ ((t.die d).course c.val).lat.pos2 = j.val)) ∧
  (∀ (s : State) (d : DieId) (c : CourseId) (tr : Fin 3) (words : List (List Int)),
      up s d = true →
      (s.die d).latOn c.val = true →
      (tr = 0 → (s.die d).latDet c.val ≤ words.length ∧ ∀ w ∈ words, w ≠ [] ∧ badWord (fld ((s.die d).act (oLat c.val)) 9 4) ((s.die d).slice ((s.die d).serving c.val .line 8)).mean w = true) →
      (tr = 1 → (s.die d).lineLocked c.val 8 = false) →
      (tr = 2 → (((s.die d).port ((s.die d).latKey c.val)).framer .line 8).locked = true) →
      ((s.die d).course c.val).lat.state = 3 →
      Completes (.latticeRebuild d c 8 tr words) s (fun t => ((t.die d).course c.val).lat.state = 7 ∧ ((t.die d).course c.val).lat.dreason = 4 ∧ ((t.die d).course c.val).lat.pos = 8 ∧ ((t.die d).course c.val).lat.pos2 = 15)) ∧
  (∀ (s : State) (d : DieId) (c : CourseId),
      up s d = true →
      ((s.die d).course c.val).lat.state = 4 →
      ((s.die d).course c.val).lat.trigger = 0 →
      ((s.die d).course c.val).lat.announced = false →
      ((s.die d).course c.val).lat.txFrames = false →
      (s.die d).lineLocked c.val ((s.die d).course c.val).lat.pos = true →
      ((s.die d).course c.val).lat.failedAt + 2 ≤ s.stroke d →
      Completes (.readmitByAgreement d c) s (fun t =>
        ((t.die d).course c.val).lat = { ((s.die d).course c.val).lat with state := 6, changed := s.stroke d, byAgree := true, agree := 0, found := false } ∧ (t.die d).ports = (s.die d).ports)) ∧
  (∀ (s : State) (d : DieId) (c : CourseId),
      up s d = true →
      (s.die d).latOn c.val = true →
      fld ((s.die d).act (oLat c.val)) 10 10 = 1 →
      ((s.die d).course c.val).lat.awaits = true →
      ((s.die d).course c.val).lat.announced = false →
      ((s.die d).course c.val).lat.txFrames = false →
      ((s.die d).course c.val).lat.byAgreement (s.stroke d) ((s.die d).lineLocked c.val ((s.die d).course c.val).lat.pos) = false →
      ((s.die d).slice ((s.die d).serving c.val .line ((s.die d).course c.val).lat.pos)).sd = true →
      64 ≤ ((s.die d).slice ((s.die d).serving c.val .line ((s.die d).course c.val).lat.pos)).sdStrokes →
      Completes (.autoReadmit d c) s (fun t =>
        ((t.die d).course c.val).lat = { ((s.die d).course c.val).lat with announced := true, ann := ((s.die d).course c.val).lat.pos, here := true, svcOut := (List.range 4).map (serviceValue ((s.die d).course c.val).lat.pos) } ∧ (t.die d).counter (cLat c.val 0x18) = ((s.die d).counter (cLat c.val 0x18) + 4) % 2 ^ 32)) ∧
  (∀ (s : State) (d : DieId) (c : CourseId) (l : List (List (Fin 4))) (j : Nat),
      up s d = true →
      (s.die d).latOn c.val = true →
      (((s.die d).course c.val).lat.state = 2 ∨ ((s.die d).course c.val).lat.state = 3 ∨ ((s.die d).course c.val).lat.state = 7) →
      ((s.die d).course c.val).lat.announced = false →
      ((s.die d).course c.val).lat.sess = false →
      svcAccept (l.map (fun q => serviceOf (q.map (·.val)))) = some j →
      ((s.die d).latLanes c.val).contains j = true →
      Completes (.serviceWord d c l) s (fun t => ((t.die d).course c.val).lat = { ((s.die d).course c.val).lat with announced := true, ann := j, here := false })) ∧
  (∀ (j : Fin 16) (parity : Fin 4),
      svcAccept ((List.range 4).map (fun m => serviceOf ((List.range 16).map (fun i =>
          parity.val ^^^ serviceSlot parity.val (serviceValue j.val m) i)))) = some j.val) ∧
  (∀ (s : State) (d : DieId) (c : CourseId),
      up s d = true →
      (s.die d).latOn c.val = true →
      ((s.die d).course c.val).lat.announced = true →
      Posts (.readmitTrainSwitch d c) s d (296 + (s.latPort d c.val).key) 0x32 (((s.die d).course c.val).lat.ann + 16 * b2n ((s.die d).course c.val).lat.here) (fun u =>
        ((u.die d).course c.val).lat.state = 5 ∧ ((u.die d).course c.val).lat.sess = true ∧ ((u.die d).course c.val).lat.txFrames = true ∧ ((u.die d).course c.val).lat.pos = ((s.die d).course c.val).lat.ann ∧ ((u.die d).course c.val).lat.spos = ((s.die d).course c.val).lat.ann ∧ ((u.die d).course c.val).lat.sessFrom = s.stroke d ∧ ((u.die d).course c.val).lat.announced = false ∧
        ((u.die d).tx (txOf c.val .line ((s.die d).course c.val).lat.ann)).single = true)) ∧
  (∀ (s : State) (d : DieId) (c : CourseId) (last : Fin 4),
      up s d = true →
      ((s.die d).course c.val).lat.sess = true →
      ((s.die d).course c.val).lat.lane.state = 6 →
      ((s.die d).course c.val).lat.lane.doneTx = true →
      ((s.die d).course c.val).lat.lane.doneRx = true →
      ((s.die d).course c.val).lat.state = 5 →
      Completes (.latticeReadmitDone d c last) s (fun t =>
        ((t.die d).course c.val).lat = { ((s.die d).course c.val).lat with sess := false, txFrames := false, state := 6, changed := s.stroke d, byAgree := false, agree := 0, found := false } ∧
        ((t.die d).tx (txOf c.val .line ((s.die d).course c.val).lat.spos)).single = false)) ∧
  (∀ (s : State) (d : DieId) (c : CourseId) (n : Nat),
      up s d = true →
      (s.die d).latOn c.val = true →
      ((s.die d).course c.val).lat.state = 6 →
      ((s.die d).course c.val).lat.found = true →
      2 ^ 20 ≤ ((s.die d).course c.val).lat.agree + n →
      Completes (.latticeReadmitted d c n) s (fun t =>
        ((t.die d).course c.val).lat = { ((s.die d).course c.val).lat with state := 3, changed := s.stroke d, pos := 15, agree := 2 ^ 20 })) ∧
  (∀ (s : State) (o : AgreeObs) (n : Int),
      ((s.die o.die).course o.course.val).lat.state = 6 →
      ((s.die o.die).course o.course.val).lat.found = false →
      o.found = some n →
      (-1024 ≤ n ∧ n ≤ 1023) →
      (hasGearbox ((s.die o.die).cfga ((s.die o.die).latKey o.course.val)) = true → n % 2 = 0) →
      0 ≤ (((((s.die o.die).course o.course.val).lat.ofs[((s.die o.die).course o.course.val).lat.pos]?).getD 0 : Nat) : Int) + n →
      (((s.agreeAt o).die o.die).course o.course.val).lat = { ((s.die o.die).course o.course.val).lat with found := true, agree := min (2 ^ 20) o.run, ofs := ((s.die o.die).course o.course.val).lat.ofs.setIfInBounds ((s.die o.die).course o.course.val).lat.pos ((((((s.die o.die).course o.course.val).lat.ofs[((s.die o.die).course o.course.val).lat.pos]?).getD 0 : Nat) : Int) + n).toNat }) ∧
  (∀ (s : State) (o : AgreeObs),
      ((s.die o.die).course o.course.val).lat.state = 6 →
      ((s.die o.die).course o.course.val).lat.found = true →
      o.broke = true →
      (((s.agreeAt o).die o.die).course o.course.val).lat = { ((s.die o.die).course o.course.val).lat with agree := min (2 ^ 20) o.run }) ∧
  (∀ (s : State) (d : DieId) (c : CourseId),
      up s d = true →
      ((s.die d).course c.val).lat.sess = true →
      ((s.die d).course c.val).lat.lane.state < 5 →
      ((s.die d).course c.val).lat.state = 5 →
      ((s.die d).course c.val).lat.sessFrom + (s.die d).budget ((s.die d).latKey c.val) ≤ s.stroke d →
      Posts (.latticeReadmitFailed d c) s d (296 + (s.latPort d c.val).key) 0x34 (((s.die d).course c.val).lat.spos + 256 * laneReason ((s.die d).course c.val).lat.lane.state) (fun u =>
        ((u.die d).course c.val).lat.state = (if ((s.die d).course c.val).lat.pos = 8 then 7 else 4) ∧ ((u.die d).course c.val).lat.sess = false ∧ ((u.die d).course c.val).lat.txFrames = ((s.die d).course c.val).lat.txFrames ∧ ((u.die d).course c.val).lat.pos = ((s.die d).course c.val).lat.pos ∧ ((u.die d).course c.val).lat.spos = ((s.die d).course c.val).lat.spos)) ∧
  (∀ (s : State) (d : DieId) (c : CourseId) (a b : Pos) (bad : Bool),
      up s d = true →
      (s.die d).latOn c.val = true →
      ((s.die d).course c.val).lat.state = 3 →
      a ≠ b →
      Completes (.latticeDisarmed d c 5 (some a) (some b) bad) s (fun t => ((t.die d).course c.val).lat.state = 7 ∧ ((t.die d).course c.val).lat.dreason = 5 ∧ ((t.die d).course c.val).lat.pos = a.val ∧ ((t.die d).course c.val).lat.pos2 = b.val)) ∧
  (∀ (s : State) (d : DieId) (c : CourseId) (bad : Bool),
      up s d = true →
      (s.die d).latOn c.val = true →
      ((s.die d).course c.val).lat.disarm = true →
      ((s.die d).course c.val).lat.state ≠ 7 →
      Completes (.latticeDisarmed d c 1 none none bad) s (fun t => ((t.die d).course c.val).lat.state = 7 ∧ ((t.die d).course c.val).lat.dreason = 1 ∧ ((t.die d).course c.val).lat.pos = ((s.die d).course c.val).lat.pos ∧ ((t.die d).course c.val).lat.disarm = false))

/-- ACTION 0 on a course that is not disarmed asks for the disarm and answers at the next boundary; ACTION 1 on a disarmed one
of a carrying port re-arms it through ARMING; ACTION 2 of the lane that waits for its re-admission announces it.
LATTICE_STATUS is answered DONE in fret 21 or later with the lattice's words of then, and changes nothing else; a port
without lattice is NOT_READY. (R225, R226) -/
def Obligations.LatticeCommands : Prop :=
  (∀ (s u : State) (k : Packet) (p : PortId),
      takesPort s u k 0x0601 p = true →
      k.w 4 = 0 →
      hasLattice ((u.die p.die).cfga p.key) = true →
      (u.die p.die).latKey p.course.val = p.key →
      2 ≤ ((u.die p.die).course p.course.val).lat.state →
      ((u.die p.die).course p.course.val).lat.state ≠ 7 →
      Completes (.latticeDisarm k) s (fun t =>
        t = (u.onLat p.die p.course.val (fun l => { l with disarm := true })).await k 0x0601 (u.stroke p.die + 1) p.course.val)) ∧
  (∀ (s u : State) (k : Packet) (p : PortId),
      takesPort s u k 0x0601 p = true →
      k.w 4 = 1 →
      hasLattice ((u.die p.die).cfga p.key) = true →
      (u.port p).carrying = true →
      ((u.die p.die).course p.course.val).lat.state = 7 →
      ((u.die p.die).course p.course.val).lat.dreason ≠ 3 →
      Answers (.latticeArm k) s k 0x0601 stDone 1 [{ ((u.die p.die).course p.course.val).lat with state := 2, pos := 15 }.stat] (fun w => w = u.latRearm p.die p.course.val)) ∧
  (∀ (s u : State) (k : Packet) (p : PortId),
      takesPort s u k 0x0601 p = true →
      k.w 4 = 2 + 16 * ((u.die p.die).course p.course.val).lat.pos →
      hasLattice ((u.die p.die).cfga p.key) = true →
      ((u.die p.die).course p.course.val).lat.pos < 16 →
      ((u.die p.die).course p.course.val).lat.awaits = true →
      ((u.die p.die).course p.course.val).lat.announced = false →
      Answers (.latticeReadmit k) s k 0x0601 stDone 1 [((u.die p.die).course p.course.val).lat.stat] (fun w => w = u.latAnnounce p.die p.course.val ((u.die p.die).course p.course.val).lat.pos)) ∧
  (∀ (s u : State) (k : Packet) (p : PortId),
      takesPort s u k 0x0602 p = true →
      hasLattice ((u.die p.die).cfga p.key) = true →
      Answers (.latticeStatus k) s k 0x0602 stDone 3
        ([pair ((u.die p.die).course p.course.val).lat.stat ((u.die p.die).course p.course.val).lat.skew, sat32 (u.stroke p.die - ((u.die p.die).course p.course.val).lat.changed), pair (((u.die p.die).course p.course.val).lat.agree / 1024) (sat16 ((u.die p.die).course p.course.val).lat.singles), ((u.die p.die).course p.course.val).lat.nonzero]
          ++ (List.range 5).map (fun m => pair ((u.die p.die).latWait p.course.val (2 * m)) ((u.die p.die).latWait p.course.val (2 * m + 1)))) (fun w => w = u.toFret 21)) ∧
  (∀ (s u : State) (k : Packet) (p : PortId),
      takesPort s u k 0x0602 p = true →
      hasLattice ((u.die p.die).cfga p.key) = false →
      Answers (.latticeStatus k) s k 0x0602 stNotReady 0 [] (fun w => w = u))

/-- While the reference monitors are not under test, a window in which both references toggle, are plausible and agree counts a
pass for each, and four in a row make a reference READY; one in which they disagree sets REF_DISAGREE. A trip of the LANE
reference makes every lane PLL hold over at once; a trip of the SYS reference starts the change to the soundpost, or
free-run holdover while the soundpost restarts, which ends on it after 100 microseconds. SP_FAIL takes the soundpost's READY
away. (R249, R250, R251, R252, R253, R258, R259) -/
def Obligations.Qualification : Prop :=
  (∀ (s : State) (d : DieId) (o : QualObs),
      present s.part d = true →
      s.phase ≠ 0 →
      (s.die d).clk.spReady = true →
      (s.die d).refTest = none →
      (o.aToggles = true ∧ o.aPlaus = true) →
      (o.bToggles = true ∧ o.bPlaus = true) →
      o.agree = true →
      Completes (.qualWindowEnd d o) s (fun t => (t.die d).clk.aPass = (s.die d).clk.aPass + 1 ∧ (t.die d).clk.bPass = (s.die d).clk.bPass + 1 ∧
        (t.die d).clk.aReady = ((s.die d).clk.aReady || decide (4 ≤ (s.die d).clk.aPass + 1)) ∧ (t.die d).clk.bReady = ((s.die d).clk.bReady || decide (4 ≤ (s.die d).clk.bPass + 1)) ∧
        (t.die d).clk.disagree = false ∧ (t.die d).clk.diff = o.diff ∧ (t.die d).clk.spPass = (if o.spOk then (s.die d).clk.spPass + 1 else 0))) ∧
  (∀ (s : State) (d : DieId) (o : QualObs),
      present s.part d = true →
      s.phase ≠ 0 →
      (s.die d).clk.spReady = true →
      (s.die d).refTest = none →
      (o.aToggles = true ∧ o.aPlaus = true) →
      (o.bToggles = true ∧ o.bPlaus = true) →
      o.agree = false →
      (s.die d).clk.inUse 0 = true →
      (s.die d).clk.aReady = true →
      Completes (.qualWindowEnd d o) s (fun t => (t.die d).clk.disagree = true ∧ (t.die d).clk.told = true ∧ (t.die d).clk.aReady = true ∧ (t.die d).clk.aPass = (s.die d).clk.aPass ∧
        ((s.die d).clk.inUse 1 = false → (t.die d).clk.bReady = false ∧ (t.die d).clk.bPass = 0))) ∧
  (∀ (s : State) (d : DieId) (r : Ref) (stopped : Bool),
      up s d = true →
      (s.die d).clk.laneUse = refNum r →
      (s.die d).clk.sysUse ≠ refNum r →
      (stopped = true ∨ ((s.die d).clk.spReady = true ∧ (s.die d).refTest = none)) →
      Completes (.refFail d r stopped) s (fun t => (t.die d).clk.laneUse = 3 ∧ (t.die d).clk.failover = ((s.die d).clk.failover ||| 2) ∧ (t.die d).clk.inHold = true ∧ (t.die d).clk.holdFrom = s.stroke d ∧ (t.die d).clk.aged = false ∧
        (t.die d).clk.ready (refNum r) = false ∧ (t.die d).clk.sysUse = (s.die d).clk.sysUse ∧ (∀ n : SliceId, ((t.die d).slice n.val).capoHold = true) ∧
        ∀ c : CourseId, ((t.die d).course c.val).hold = true ∧ ((t.die d).course c.val).pllH = false ∧ ((t.die d).course c.val).pllL = false)) ∧
  (∀ (s : State) (d : DieId) (r : Ref) (stopped : Bool),
      up s d = true →
      (s.die d).clk.sysUse = refNum r →
      (s.die d).clk.laneUse ≠ refNum r →
      (s.die d).clk.failing = false →
      (s.die d).clk.restart = false →
      (stopped = true ∨ ((s.die d).clk.spReady = true ∧ (s.die d).refTest = none)) →
      Completes (.refFail d r stopped) s (fun t => (t.die d).clk.sysPend = some 2 ∧ (t.die d).clk.sysStop = stopped ∧ (t.die d).clk.failing = true ∧ (t.die d).clk.failover = ((s.die d).clk.failover ||| 1) ∧
        (t.die d).clk.ready (refNum r) = false ∧ (t.die d).clk.sysUse = (s.die d).clk.sysUse ∧ (t.die d).clk.laneUse = (s.die d).clk.laneUse ∧ (t.die d).slices = (s.die d).slices)) ∧
  (∀ (s : State) (d : DieId) (r : Ref) (stopped : Bool),
      up s d = true →
      (s.die d).clk.sysUse = refNum r →
      (s.die d).clk.failing = false →
      (s.die d).clk.restart = true →
      stopped = true →
      Completes (.refFailFallbackDeferred d r stopped) s (fun t => (t.die d).clk.sysUse = 3 ∧ (t.die d).clk.defer = true ∧ (t.die d).clk.deferAt = s.stamp d ∧
        (t.die d).clk.sysPend = none ∧ (t.die d).clk.sysStop = stopped ∧ (t.die d).clk.refSp = 0 ∧ (t.die d).clk.ready (refNum r) = false ∧
        ((s.die d).clk.laneUse = refNum r → (t.die d).clk.laneUse = 3) ∧ ((s.die d).clk.laneUse ≠ refNum r → (t.die d).clk.laneUse = (s.die d).clk.laneUse))) ∧
  (∀ (s : State) (d : DieId),
      up s d = true →
      (s.die d).clk.defer = true →
      (s.die d).clk.spReady = false →
      (s.die d).clk.deferAt + 25000 ≤ s.stamp d →
      Posts (.spNotReady d) s d 360 0x03 0 (fun u => (u.die d).clk.sysUse = 2 ∧ (u.die d).clk.defer = false ∧ (u.die d).clk.forcedSys = (s.die d).clk.sysStop ∧ (u.die d).clk.spReady = false)) ∧
  (∀ (s : State) (d : DieId) (stopped : Bool) (e : Byte),
      up s d = true →
      (s.die d).clk.spReady = true →
      (stopped = true ∨ (s.die d).clk.aReady = true ∨ (s.die d).clk.bReady = true) →
      Completes (.spFail d stopped e) s (fun t => (t.die d).clk = { (s.die d).clk with
        spReady := false, spPass := 0, slowAlt := (s.die d).clk.slowAlt || decide ((s.die d).clk.sysUse < 2), restart := false,
        sysStop := (s.die d).clk.sysStop || (stopped && (s.die d).clk.sysUse == 2 && (s.die d).clk.sysPend.isSome) })) ∧
  (∀ (s : State) (d : DieId) (e : Byte),
      up s d = true →
      (s.die d).clk.spReady = false →
      (s.die d).clk.restart = true →
      Completes (.spFail d true e) s (fun t => (t.die d).clk = { (s.die d).clk with
        slowAlt := (s.die d).clk.slowAlt || decide ((s.die d).clk.sysUse < 2), restart := false, sysStop := (s.die d).clk.sysStop || ((s.die d).clk.sysUse == 2 && (s.die d).clk.sysPend.isSome) }))

/-- HOLDOVER_AGED is posted after 1 s of holdover. AUTO_RETURN starts the change of SYS from the soundpost, which waits for an
edge of it, and moves LANE from holdover, to the preferred reference once it has been READY long enough; SWITCH_FORCED ends
a change that waits for an edge. LPLL_UNLOCK unlocks a course side's PLL and the CDRs of its slices; LANE_PLL_RELOCK locks
both PLLs of a course. GATE_CHANGE opens a gate the device needs. (R253, R254, R255, R261, R267) -/
def Obligations.ClockChanges : Prop :=
  (∀ (s : State) (d : DieId),
      up s d = true →
      (s.die d).clk.inHold = true →
      (s.die d).clk.aged = false →
      (s.die d).clk.holdFrom + 9765625 ≤ s.stroke d →
      Posts (.holdoverAged d) s d 360 0x07 0 (fun u => u = s.onClk d (fun v => { v with aged := true }))) ∧
  (∀ (s : State) (d : DieId),
      up s d = true →
      fld ((s.die d).act oClkCfg) 3 3 = 1 →
      (s.die d).clk.sysUse = 2 →
      (s.die d).clk.sysPend = none →
      (s.die d).sysSrc < 2 →
      (s.die d).returnDue (s.die d).sysSrc (s.stroke d) = true →
      Completes (.autoReturn d .sys) s (fun t =>
        t = s.onClk d (fun v => { v with sysPend := some (s.die d).sysSrc }))) ∧
  (∀ (s : State) (d : DieId),
      up s d = true →
      fld ((s.die d).act oClkCfg) 3 3 = 1 →
      (s.die d).clk.laneUse = 3 →
      (s.die d).returnDue (s.die d).laneSrc (s.stroke d) = true →
      Posts (.autoReturn d .lane) s d 360 0x05 (3 + 4 * (s.die d).laneSrc) (fun u =>
        (u.die d).clk.laneUse = (s.die d).laneSrc ∧ (u.die d).clk.inHold = false ∧ (u.die d).clk.sysUse = (s.die d).clk.sysUse ∧
        ∀ c : CourseId, ((u.die d).course c.val).hold = false ∧ ((u.die d).course c.val).relock = true ∧ ((u.die d).course c.val).pllH = false)) ∧
  (∀ (s : State) (d : DieId) (r : Nat),
      up s d = true →
      (s.die d).clk.sysPend = some r →
      r < 2 →
      Posts (.switchForced d .sys) s d 360 0x04 ((s.die d).clk.sysUse + 4 * r + 16) (fun u => (u.die d).clk.sysUse = r ∧ (u.die d).clk.sysPend = none ∧ (u.die d).clk.forcedSys = true)) ∧
  (∀ (s : State) (d : DieId) (r : Nat),
      up s d = true →
      (s.die d).clk.lanePend = some r →
      Posts (.switchForced d .lane) s d 360 0x05 ((s.die d).clk.laneUse + 4 * r + 16) (fun u => (u.die d).clk.laneUse = r ∧ (u.die d).clk.lanePend = none ∧ (u.die d).clk.forcedLane = true)) ∧
  (∀ (s : State) (d : DieId) (c : CourseId),
      up s d = true →
      (s.die d).clk.laneUse < 2 →
      (((s.die d).course c.val).pllH = false ∨ ((s.die d).course c.val).pllL = false) →
      Completes (.lanePllRelock d c) s (fun t =>
        t = s.setCourse d c.val { (s.die d).course c.val with pllH := true, pllL := true })) ∧
  (∀ (s : State) (d : DieId) (c : CourseId) (h : Side),
      up s d = true →
      ((s.die d).course c.val).hold = false →
      (match h with | .host => ((s.die d).course c.val).pllH | .line => ((s.die d).course c.val).pllL) = true →
      Posts (.lpllUnlock d c h) s d (364 + c.val) 0x01 (Side.code h) (fun u =>
        (match h with | .host => ((u.die d).course c.val).pllH | .line => ((u.die d).course c.val).pllL) = false ∧
        ∀ n ∈ sideSlices c.val h, ((u.die d).slice n).cdrLock = false)) ∧
  (∀ (s : State) (d : DieId) (l : Fin 5) (n : Byte),
      up s d = true →
      nodeOk d l.val n.toNat = true →
      (s.die d).gated l.val n.toNat = true →
      Completes (.gateChange d l n) s (fun t => (t.die d).gated l.val n.toNat = false))

/-- CLK_SWITCH stages CLK_CFG with the fields its DOMAIN names and answers at the boundary that applies it; with GLOBAL it
stages it on every reachable die that is not isolated; while the monitors are under test it answers BUSY_TEST. CLK_GATE
queues the change of a node that is not in use for the next boundary; a closed root is carried to every die; a change that
changes nothing is answered DONE at once. CLK_STATUS is answered DONE in fret 21 with the clock words and changes nothing
else. (R261, R262, R263, R264, R470) -/
def Obligations.ClockCommands : Prop :=
  (∀ (s u : State) (k : Packet),
      takes0 s u k 0x0701 = true →
      k.w 4 < 16 →
      swDomain k ≠ 3 →
      swSrc k ≠ 3 →
      (swSrc k = 2 → swDomain k = 0) →
      (u.die k.die).brg.isolated = false →
      (u.die k.die).refTest = none →
      (u.die k.die).clk.defer = false →
      Completes (.clkSwitch k) s (fun t => StagesAndWaits u t k 0x0701 2 [(oClkCfg, (u.die k.die).switchCfg k)] 0 ∧
        (t.die k.die).clk = (u.die k.die).clk.start)) ∧
  (∀ (s u : State) (k : Packet),
      takes0 s u k 0x0701 = true →
      16 ≤ k.w 4 →
      k.w 4 < 32 →
      swDomain k ≠ 3 →
      swSrc k ≠ 3 →
      (swSrc k = 2 → swDomain k = 0) →
      (u.die k.die).brg.isolated = false →
      (u.die k.die).refTest = none →
      (u.die k.die).clk.defer = false →
      Completes (.clkSwitch k) s (fun t => ⟨k, 0x0701, u.globalDue k.die, 0, u.stroke k.die⟩ ∈ (t.die k.die).peg.awaits ∧
        ∀ d : DieId, present u.part d = true → u.reaches k.die d = true → u.isolated d = false →
          bit (t.die d).pend 2 = true ∧ ((t.die d).stg oClkCfg).isSome = true)) ∧
  (∀ (s u : State) (k : Packet) (b : Test),
      takes0 s u k 0x0701 = true →
      k.w 4 < 32 →
      swDomain k ≠ 3 →
      swSrc k ≠ 3 →
      (swSrc k = 2 → swDomain k = 0) →
      (u.die k.die).brg.isolated = false →
      (u.die k.die).refTest = some b →
      Answers (.clkSwitch k) s k 0x0701 stBusyTest 0 [b.wait] (fun w => w = u)) ∧
  (∀ (s u : State) (k : Packet) (l n : Nat),
      takes s u k 0x0702 = true →
      bits k.target.toNat 27 8 = 0 →
      k.target.toNat / 2 ^ 28 = l →
      k.target.toNat % 256 = n →
      l ≠ 0 →
      nodeOk k.die l n = true →
      k.w 4 = 1 →
      (u.die k.die).gated l n = false →
      u.nodeUse k.die l n = false →
      Completes (.clkGate k) s (fun t =>
        t = (u.onClk k.die (fun v => { v with gWant := v.gWant ++ [(l, n, true)] })).await k 0x0702 (u.stroke k.die + 1) 1)) ∧
  (∀ (s u : State) (k : Packet) (l n : Nat),
      takes s u k 0x0702 = true →
      bits k.target.toNat 27 8 = 0 →
      k.target.toNat / 2 ^ 28 = l →
      k.target.toNat % 256 = n →
      l ≠ 0 →
      nodeOk k.die l n = true →
      k.w 4 ≤ 1 →
      (u.die k.die).gated l n = (k.w 4 == 1) →
      (1 < l → (u.die k.die).clk.gDie = false ∧ (u.die k.die).gated (parentOf k.die l n).1 (parentOf k.die l n).2 = false) →
      Answers (.clkGate k) s k 0x0702 stDone 0 [] (fun w => w = u)) ∧
  (∀ (s u : State) (k : Packet) (l n : Nat),
      takes s u k 0x0702 = true →
      bits k.target.toNat 27 8 = 0 →
      k.target.toNat / 2 ^ 28 = l →
      k.target.toNat % 256 = n →
      1 < l →
      nodeOk k.die l n = true →
      k.w 4 = 0 →
      (u.die k.die).gated (parentOf k.die l n).1 (parentOf k.die l n).2 = true →
      Answers (.clkGate k) s k 0x0702 stNotReady 0 [] (fun w => w = u)) ∧
  (∀ (s u : State) (k : Packet),
      takes0 s u k 0x0702 = true →
      k.w 4 = 1 →
      u.rootUse = false →
      Completes (.clkGate k) s (fun t => t = (u.sendGlobal k.die 0 1).await k 0x0702 (u.globalDue k.die) 0)) ∧
  (∀ (s u : State) (k : Packet),
      takes0 s u k 0x0703 = true →
      Answers (.clkStatus k) s k 0x0703 stDone 3
        [pair (u.die k.die).clk.stat (u.die k.die).lpll, pair (u.die k.die).clk.diff.toNat (u.die k.die).clk.refSp.toNat, (u.die k.die).gateStat,
         if (u.die k.die).clk.inHold then sat32 (u.stroke k.die - (u.die k.die).clk.holdFrom) else 0] (fun w => w = u.toFret 21))

/-- A packet that has been accepted before does its work no second time. A SYNC steers the die's boundary by its arrival less
the latencies of its path and its ACC, where it is the first copy or has come fewer hops, ends a missing-marker condition,
and goes on with the residence time added to ACC; a first GCOMMIT schedules its groups on a die that takes part; a first
RING_STATE is kept; a first ELECT, broadcast or sent again to one die, is answered by an ACK to the candidate. A CMD_FWD is
stored in the inbox and answered by a receipt; it waits while one of its source with an earlier TAG is on its way, and is
discarded where one with a later TAG has run; a receipt or an ACK ends the waiting of the packet it names; a reply record
joins its queue's records, unless its command was given up, and is answered by an ACK, as an EVT_FWD is. (R39, R37, R272,
R274, R275, R277, R279, R282, R331, R347) -/
def Obligations.RingPackets : Prop :=
  (∀ (s : State) (d src : DieId) (tag : BitVec 16) (p : Flit) (arrival : Int) (res : BitVec 24) (n acc path : Nat) (lead : DieId) (e : Int),
      s.arriving d src tag.toNat 0x7 = some p →
      p.body = .sync n lead acc path →
      e = arrival - ((acc + (path + s.linkLat d p)) / 8 : Nat) →
      (s.die d).stroke.asleep = false →
      (s.die d).hasSeen p.src p.tag = false →
      Completes (.sync d src tag arrival res) s (fun t => (t.die d).stroke.lead = lead ∧ (t.die d).stroke.misses = 0 ∧
        (t.die d).stroke.mloss = false ∧ (t.die d).stroke.err = clamp e (-128) 127 ∧ (t.die d).hasSeen p.src p.tag = true ∧
        (n = (s.die d).stroke.count → (t.die d).stroke.marker = true) ∧
        (n = (s.die d).stroke.count + 1 → 640 ≤ s.pos → (t.die d).stroke.markerNext = true) ∧
        ((s.die d).stroke.state = 2 ∨ (clamp e (-128) 127).natAbs ≤ 2 → (t.die d).stroke.phase = 0) ∧
        ((s.die d).stroke.state = 1 → (clamp e (-128) 127).natAbs ≤ 2 → (t.die d).stroke.state = 2))) ∧
  (∀ (s : State) (d src : DieId) (tag : BitVec 16) (p : Flit) (arrival : Int) (res : BitVec 24) (n acc path : Nat) (lead : DieId),
      s.arriving d src tag.toNat 0x7 = some p →
      p.body = .sync n lead acc path →
      p.bcast = true →
      p.ttl ≠ 0 →
      neighbour s.part d p.dir ≠ p.src →
      ((s.die d).bridge p.dir).state ≠ 0 →
      (s.die d).hasSeen p.src p.tag = false →
      Completes (.sync d src tag arrival res) s (fun t =>
        ({ p with ttl := p.ttl - 1, here := neighbour s.part d p.dir, body := .sync n lead ((acc + res.toNat) % 2 ^ 24) (path + s.linkLat d p) } : Flit) ∈ t.air)) ∧
  (∀ (s : State) (d src : DieId) (tag : BitVec 16) (p : Flit) (arrival : Int) (res : BitVec 24) (n acc path : Nat) (lead : DieId),
      s.arriving d src tag.toNat 0x7 = some p →
      p.body = .sync n lead acc path →
      (s.die d).hasSeen p.src p.tag = true →
      (s.die d).steersBy p = false →
      p.bcast = true →
      p.ttl ≠ 0 →
      neighbour s.part d p.dir = p.src →
      Completes (.sync d src tag arrival res) s (fun t => t = { s with air := s.air.erase p })) ∧
  (∀ (s : State) (d src : DieId) (tag : BitVec 16) (p : Flit) (arrival : Int) (res : BitVec 24) (n acc path : Nat) (lead : DieId) (h : Nat),
      s.arriving d src tag.toNat 0x7 = some p →
      p.body = .sync n lead acc path →
      (s.die d).hasSeen p.src p.tag = true →
      (s.die d).stroke.sync = some (p.tag, h) →
      p.hops < h →
      (s.die d).stroke.asleep = false →
      Completes (.sync d src tag arrival res) s (fun t =>
        (t.die d).stroke.err = clamp (arrival - ((acc + (path + s.linkLat d p)) / 8 : Nat)) (-128) 127 ∧ (t.die d).stroke.sync = some (p.tag, p.hops))) ∧
  (∀ (s : State) (d src : DieId) (tag : BitVec 16) (p : Flit) (n mask kind : Nat),
      s.arriving d src tag.toNat 0x8 = some p →
      p.body = .gcommit n mask kind →
      (s.die d).inCommits = true →
      (s.die d).hasSeen p.src p.tag = false →
      Completes (.gcommit d src tag) s (fun t => (t.die d).stroke.gdue = (s.die d).stroke.gdue ++ [(n, mask, kind)] ∧
        (t.die d).hasSeen p.src p.tag = true ∧ (t.die d).active = (s.die d).active)) ∧
  (∀ (s : State) (d src : DieId) (tag : BitVec 16) (p : Flit) (x : DieId) (w : Ew) (st : Nat),
      s.arriving d src tag.toNat 0xA = some p →
      p.body = .ringState x w st →
      (s.die d).hasSeen p.src p.tag = false →
      Completes (.ringState d src tag) s (fun t => (t.die d).brg.known.head? = some (x, isWest w, st) ∧
        ((s.knownDown d x w != (st == 0)) = true → (t.die d).brg.failover = true ∧ (t.die d).brg.changed = true))) ∧
  (∀ (s : State) (d src : DieId) (tag : BitVec 16) (p : Flit) (n : Nat) (cand : DieId),
      s.arriving d src tag.toNat 0xB = some p →
      p.body = .elect n cand →
      p.bcast = true →
      ((s.die d).bridge (s.way d cand)).state ≠ 0 →
      (s.die d).hasSeen p.src p.tag = false →
      Completes (.elect d src tag) s (fun t => (t.die d).hasSeen p.src p.tag = true ∧
        t.air.getLast? = some (sentOver s d cand false (s.die d).brg.nextTag (s.way d cand) (.ack tag.toNat)))) ∧
  (∀ (s : State) (d src : DieId) (tag : BitVec 16) (p : Flit) (n : Nat) (cand : DieId),
      s.arriving d src tag.toNat 0xB = some p →
      p.body = .elect n cand →
      p.bcast = false →
      p.dst = d →
      ((s.die d).bridge (s.way d p.src)).state ≠ 0 →
      (s.die d).hasSeen p.src p.tag = false →
      Completes (.elect d src tag) s (fun t => (t.die d).hasSeen p.src p.tag = true ∧
        t.air.getLast? = some (sentOver s d p.src false (s.die d).brg.nextTag (s.way d p.src) (.ack tag.toNat)))) ∧
  (∀ (s : State) (d src : DieId) (tag : BitVec 16) (p : Flit) (k : Packet) (op : Nat),
      s.arriving d src tag.toNat 0x3 = some p →
      p.body = .cmdFwd k op →
      p.dst = d →
      s.earlier p.src d p = false →
      (s.die d).passed p.src p.tag = false →
      (s.die d).hasSeen p.src p.tag = false →
      Completes (.cmdFwd d src tag) s (fun t => (t.die d).peg.inbox = (s.die d).peg.inbox ++ [⟨k, op, s.stroke d⟩] ∧
        (t.die d).reply? p.src p.tag = some (.cmdRsp k.queue k.entry tag.toNat none))) ∧
  (∀ (s : State) (d src : DieId) (tag : BitVec 16) (p : Flit) (k : Packet) (op : Nat),
      s.arriving d src tag.toNat 0x3 = some p →
      p.body = .cmdFwd k op →
      p.dst = d →
      s.earlier p.src d p = true →
      (s.die d).hasSeen p.src p.tag = false →
      Completes (.cmdFwd d src tag) s (fun t => t.air = s.air.map (fun q => if q == p then { q with held := true } else q) ∧ t.dies = s.dies)) ∧
  (∀ (s : State) (d src : DieId) (tag : BitVec 16) (p : Flit) (k : Packet) (op : Nat),
      s.arriving d src tag.toNat 0x3 = some p →
      p.body = .cmdFwd k op →
      p.dst = d →
      s.earlier p.src d p = false →
      (s.die d).passed p.src p.tag = true →
      (s.die d).hasSeen p.src p.tag = false →
      Completes (.cmdFwd d src tag) s (fun t => t = { s with air := s.air.erase p })) ∧
  (∀ (s : State) (d src : DieId) (tag : BitVec 16) (p : Flit) (k : Packet) (op : Nat),
      s.arriving d src tag.toNat 0x3 = some p →
      p.body = .cmdFwd k op →
      p.dst = d →
      (s.die d).hasSeen p.src p.tag = true →
      Completes (.cmdFwd d src tag) s (fun t => (t.die d).peg.inbox = (s.die d).peg.inbox ∧
        (t.die d).counter (cBrg + 0x2C) = ((s.die d).counter (cBrg + 0x2C) + 1) % 2 ^ 32)) ∧
  (∀ (s : State) (d src : DieId) (tag : BitVec 16) (p : Flit) (n : Nat) (q : QueueId) (e : BitVec 6),
      s.arriving d src tag.toNat 0x4 = some p →
      p.body = .cmdRsp q e n none →
      p.dst = d →
      (s.die d).hasSeen p.src p.tag = false →
      Completes (.cmdRsp d src tag) s (fun t => (t.die d).brg.sent = (s.die d).brg.sent.filter (fun r => !(r.dst == src && r.tag == n)))) ∧
  (∀ (s : State) (d src : DieId) (tag : BitVec 16) (p : Flit) (n : Nat) (r : Rec) (q : QueueId) (e : BitVec 6),
      s.arriving d src tag.toNat 0x4 = some p →
      p.body = .cmdRsp q e n (some r) →
      p.dst = d →
      s.earlier p.src d p = false →
      ((s.die d).queue r.queue).gaveUp r = false →
      ((s.die d).queue r.queue).enabled = true →
      r.status ≠ 0x02 →
      (s.die d).hasSeen p.src p.tag = false →
      Completes (.cmdRsp d src tag) s (fun t => ((t.die d).queue r.queue).waiting = ((s.die d).queue r.queue).waiting ++ [r] ∧
        (t.die d).reply? p.src p.tag = some (.ack tag.toNat))) ∧
  (∀ (s : State) (d src : DieId) (tag : BitVec 16) (p : Flit) (n : Nat) (r : Rec) (q : QueueId) (e : BitVec 6),
      s.arriving d src tag.toNat 0x4 = some p →
      p.body = .cmdRsp q e n (some r) →
      p.dst = d →
      s.earlier p.src d p = false →
      ((s.die d).queue r.queue).gaveUp r = true →
      (s.die d).hasSeen p.src p.tag = false →
      Completes (.cmdRsp d src tag) s (fun t => (t.die d).queue r.queue = (s.die d).queue r.queue ∧
        (t.die d).reply? p.src p.tag = some (.ack tag.toNat))) ∧
  (∀ (s : State) (d src : DieId) (tag : BitVec 16) (p : Flit),
      s.arriving d src tag.toNat 0x5 = some p →
      p.dst = d →
      s.earlier p.src d p = false →
      p.body.evts.length = 1 →
      (∀ r ∈ p.body.evts, r.isEpoch = false) →
      (s.die d).evt.held = [] →
      64 ≤ (s.die d).evt.free →
      (s.die d).hasSeen p.src p.tag = false →
      Completes (.evtFwd d src tag) s (fun t => (t.die d).evt.wp = ((s.die d).evt.wp + 1) % 4096 ∧
        (t.die d).reply? p.src p.tag = some (.ack tag.toNat) ∧
        ∀ a, (a < 0x30000 + (s.die d).evt.wp * 16 ∨ 0x30000 + (s.die d).evt.wp * 16 + 16 ≤ a) →
          Memory.read (t.die d).sram a = Memory.read (s.die d).sram a)) ∧
  (∀ (s : State) (d src : DieId) (tag : BitVec 16) (p : Flit) (n : Nat),
      s.arriving d src tag.toNat 0x6 = some p →
      p.body = .ack n →
      p.dst = d →
      (s.die d).hasSeen p.src p.tag = false →
      Completes (.ack d src tag) s (fun t => (t.die d).brg.sent = (s.die d).brg.sent.filter (fun r => !(r.dst == src && r.tag == n)) ∧
        ((s.die d).brg.elect.isSome = true → (s.die d).brg.electTag = n → bit (t.die d).brg.acks src.val = true))) ∧
  (∀ (s : State) (d src : DieId) (tag : BitVec 16) (p : Flit) (n : Nat),
      s.arriving d src tag.toNat 0x6 = some p →
      p.body = .ack n →
      p.dst ≠ d →
      p.ttl ≠ 0 →
      ((s.die d).bridge (s.way d p.dst)).state ≠ 0 →
      Completes (.ack d src tag) s (fun t => t = { s with air := s.air.erase p ++
        [{ sentOver s d p.dst p.bcast p.tag (s.way d p.dst) p.body with src := p.src, ttl := p.ttl - 1 }] }))

/-- A REG_REQ that writes a register of its die stages the value through the view and is answered done; one that reads is
answered with the value and changes no register; one to a reserved location is recorded with BUS 2 and answered with status
1. REG_RSP completes the access that waits for it. A packet unanswered for 4 strokes is sent again with the same TAG, and
after 16 strokes it is given up: a command then ends DIE_UNAVAILABLE, an access fails; event records are kept and go again.
A write over PCI Express to another die goes out as a REG_REQ and its endpoint waits; a write of WMB_SEL fills its mailbox
and no other; a reserved access that crossed a bridge is recorded at the die it names. (R273, R275, R300, R302, R303, R305,
R306, R308, R331) -/
def Obligations.CrossDieAccess : Prop :=
  (∀ (s : State) (d src : DieId) (tag : BitVec 16) (p : Flit) (o view : Nat) (w : Word) (twi : Bool) (sel : RegSel),
      s.arriving d src tag.toNat 0x1 = some p →
      p.body = .regReq o view true w twi →
      p.dst = d →
      s.earlier p.src d p = false →
      (s.die d).passed p.src p.tag = false →
      (s.die d).hasSeen p.src p.tag = false →
      s.busRegister twi d o = some sel →
      sel.rws ≠ 0 →
      viewSelects view w &&& sel.rws ≠ 0 →
      Completes (.regReq d src tag) s (fun t =>
        (t.die d).stg sel.offset = some (mergeMask ((s.die d).base sel.offset) (viewWrite view ((s.die d).base sel.offset) w) sel.rws) ∧
        (t.die d).active = (s.die d).active ∧ (t.die d).reply? p.src p.tag = some (.regRsp 0 0 tag.toNat))) ∧
  (∀ (s : State) (d src : DieId) (tag : BitVec 16) (p : Flit) (o view : Nat) (w v : Word) (twi : Bool),
      s.arriving d src tag.toNat 0x1 = some p →
      p.body = .regReq o view false w twi →
      p.dst = d →
      s.earlier p.src d p = false →
      (s.die d).passed p.src p.tag = false →
      (s.die d).hasSeen p.src p.tag = false →
      s.readView twi d o view = some v →
      Completes (.regReq d src tag) s (fun t => (t.die d).reply? p.src p.tag = some (.regRsp v 0 tag.toNat) ∧
        (t.die d).active = (s.die d).active ∧ (t.die d).staged = (s.die d).staged)) ∧
  (∀ (s : State) (d src : DieId) (tag : BitVec 16) (p : Flit) (o view : Nat) (w : Word) (twi : Bool),
      s.arriving d src tag.toNat 0x1 = some p →
      p.body = .regReq o view true w twi →
      p.dst = d →
      s.earlier p.src d p = false →
      (s.die d).passed p.src p.tag = false →
      (s.die d).hasSeen p.src p.tag = false →
      s.busRegister twi d o = none →
      Completes (.regReq d src tag) s (fun t => (t.die d).reply? p.src p.tag = some (.regRsp 0 1 tag.toNat) ∧
        (t.die d).prot.errBus = 2 ∧ (t.die d).prot.errWr = true ∧
        (t.die d).prot.errAddr = (d.val * 0x400000 + view % 4 * 0x100000 + o) % 2 ^ 25 ∧ (t.die d).active = (s.die d).active)) ∧
  (∀ (s : State) (d src : DieId) (tag : BitVec 16) (p : Flit) (o view n : Nat) (w v : Word) (r : Sent) (l : List Word),
      s.arriving d src tag.toNat 0x2 = some p →
      p.body = .regRsp v 0 n →
      p.dst = d →
      (s.die d).hasSeen p.src p.tag = false →
      (s.die d).brg.sent.find? (fun r => r.dst == src && r.tag == n) = some r →
      r.body = .regReq o view false w false →
      (s.ep (epOf d)).crossings = 1 →
      (s.ep (epOf d)).waiting = [] →
      (s.ep (epOf d)).rdata = some (false, l) →
      Completes (.regRsp d src tag) s (fun t =>
        t.ep (epOf d) = { s.ep (epOf d) with rdata := some (false, l ++ [v]), crossings := 0 } ∧
        (t.die d).brg.sent = (s.die d).brg.sent.filter (fun r => !(r.dst == src && r.tag == n)))) ∧
  (∀ (s : State) (d : DieId) (tag : BitVec 16) (r : Sent),
      up s d = true →
      (s.die d).brg.sent.filter (fun q => q.tag == tag.toNat && decide (q.last + 4 ≤ s.stroke d)) = [r] →
      ((s.die d).bridge (s.way d r.dst)).state ≠ 0 →
      Completes (.packetResend d tag) s (fun t =>
        (t.die d).brg.sent = (s.die d).brg.sent.map (fun q => if q == r then { q with last := s.stroke d } else q) ∧
        t.air = s.air ++ [sentOver s d r.dst false r.tag (s.way d r.dst) r.body])) ∧
  (∀ (s : State) (d : DieId) (tag : BitVec 16) (r : Sent) (k : Packet) (op : Nat),
      up s d = true →
      (s.die d).brg.sent.find? (fun q => q.tag == tag.toNat) = some r →
      r.first + 16 ≤ s.stroke d →
      r.body = .cmdFwd k op →
      Completes (.packetAbandoned d tag) s (fun t =>
        t = ((s.onDie d (fun x => x.answered r.dst r.tag)).receive d (mkRec k stUnavail 0 [])).giveUp d k)) ∧
  (∀ (s : State) (d : DieId) (tag : BitVec 16) (r : Sent) (l : List Evt),
      up s d = true →
      (s.die d).brg.sent.find? (fun q => q.tag == tag.toNat) = some r →
      r.first + 16 ≤ s.stroke d →
      r.body = .evtFwd l →
      s.reachable d r.dst = true →
      Completes (.packetAbandoned d tag) s (fun t => t.dies.toList.map (·.evt) = s.dies.toList.map (·.evt) ∧
        (t.die d).brg.sent = (s.die d).brg.sent.map (fun q => if q == r then { q with first := s.stroke d, last := s.stroke d } else q))) ∧
  (∀ (s : State) (d : DieId) (tag : BitVec 16) (r : Sent) (o view : Nat) (w : Word),
      up s d = true →
      (s.die d).brg.sent.find? (fun q => q.tag == tag.toNat) = some r →
      r.first + 16 ≤ s.stroke d →
      r.body = .regReq o view false w false →
      (s.ep (epOf d)).crossings = 1 →
      (s.ep (epOf d)).waiting = [] →
      Completes (.packetAbandoned d tag) s (fun t => (t.ep (epOf d)).caStatus = true ∧ (t.ep (epOf d)).rdata = some (true, []) ∧
        (t.ep (epOf d)).crossings = 0 ∧
        (t.die d).brg.sent = (s.die d).brg.sent.filter (fun q => !(q.dst == r.dst && q.tag == r.tag)))) ∧
  (∀ (s : State) (e : AccessId) (off : BitVec 25) (w : Word),
      s.running = true →
      (s.ep e).crossings = 0 →
      (s.ep e).d3 = false →
      off.toNat % 4 = 0 →
      windowDie off.toNat ≠ (accessDie s.part e) →
      present s.part (windowDie off.toNat) = true →
      Completes (.registerWrite e .pcie .regs off (.put w)) s (fun t => (t.ep e).crossings = 1 ∧
        (t.die (accessDie s.part e)).brg.sent = (s.die (accessDie s.part e)).brg.sent ++ [⟨windowDie off.toNat, (s.die (accessDie s.part e)).brg.nextTag, s.stroke (accessDie s.part e), s.stroke (accessDie s.part e),
          .regReq (windowOff off.toNat) (windowView off.toNat) true w false⟩] ∧ ∀ d : DieId, (t.die d).active = (s.die d).active ∧ (t.die d).staged = (s.die d).staged)) ∧
  (∀ (s : State) (d : DieId) (m : Fin 4) (a : Half),
      up s d = true →
      Completes (.wmbSel d m a) s (fun t => ((t.die d).prot.wmb[m.val]).sel = a.toNat ∧ ((t.die d).prot.wmb[m.val]).valid = true ∧ (∀ n : Fin 4, n ≠ m → (t.die d).prot.wmb[n.val] = (s.die d).prot.wmb[n.val]) ∧ (t.die d).staged = (s.die d).staged ∧ ∀ e : DieId, e ≠ d → t.die e = s.die e)) ∧
  (∀ (s : State) (e : AccessId) (off : BitVec 25) (wr : Bool) (sp : Fin 8),
      s.running = true →
      present s.part (windowDie off.toNat) = true →
      Completes (.reservedAccess e .bridge off wr sp) s (fun t => (t.die (windowDie off.toNat)).prot.errAddr = off.toNat ∧
        (t.die (windowDie off.toNat)).prot.errBus = 2 ∧ (t.die (windowDie off.toNat)).prot.errWr = wr ∧ t.ep e = s.ep e ∧
        ∀ d : DieId, (t.die d).active = (s.die d).active ∧ (t.die d).staged = (s.die d).staged ∧ (t.die d).sram = (s.die d).sram))

/-- In fret 30 the lead sends the marker of the next stroke, ahead of every other packet queued but the one in transmission, and
every die its heartbeat, on both bridges. Four strokes without a marker set MARKER_LOSS and leave LOCKED only to a die on
the lead's reference. A heartbeat clears the misses of its bridge; a bridge with fewer than three lanes or four misses goes
DOWN, one with 64 good strokes and a measured latency comes back with its lanes, and each starts a ring failover. A lane
locks after 64 valid sync headers and loses lock at 16 invalid ones of 64; the alignment blocks of a period, 256 blocks
after the one before, deskew the locked lanes and move the lane set. Sixteen ECHO exchanges measure the link. (R38, R39,
R270, R271, R274, R276, R277, R278, R279) -/
def Obligations.Bridges : Prop :=
  (∀ (s : State) (l : DieId),
      s.running = true →
      s.pos < 1240 →
      s.leaders = [l] →
      bit (s.die l).stroke.ran 33 = false →
      ((s.die l).bridge .east).state ≠ 0 →
      ((s.die l).bridge .west).state ≠ 0 →
      Completes .syncSend s (fun t => t.air =
        putQueue (sentOver s l l true (s.die l).brg.nextTag .west (.sync (s.stroke l + 1) l 0 0)) false
         (putQueue (sentOver s l l true (s.die l).brg.nextTag .east (.sync (s.stroke l + 1) l 0 0)) false s.air))) ∧
  (∀ (s : State) (l : DieId) (f a : Flit) (u w : List Flit),
      s.running = true →
      s.pos < 1240 →
      s.leaders = [l] →
      bit (s.die l).stroke.ran 33 = false →
      ((s.die l).bridge .east).state ≠ 0 →
      f = sentOver s l l true (s.die l).brg.nextTag .east (.sync (s.stroke l + 1) l 0 0) →
      s.air.filter (fun q => f.sameHop q) = a :: (u ++ w) →
      (∀ q ∈ u, q.body.urgent = true) →
      (∀ q ∈ w, q.body.urgent = false) →
      Completes .syncSend s (fun t => t.air.filter (fun q => f.sameHop q) = a :: (u ++ f :: w))) ∧
  (∀ (s : State) (d : DieId),
      up s d = true →
      s.pos < 1240 →
      bit (s.die d).stroke.ran 32 = false →
      (s.die d).stroke.asleep = false →
      Completes (.heartbeatSend d) s (fun t => t.air = s.air ++
        [sentOver s d (neighbour s.part d .east) false (s.die d).brg.nextTag .east
           (.heartbeat (s.stroke d) (s.die d).pegRuns (s.die d).brg.isolated (s.leadState d) ((s.die d).bridge .east).rx),
         sentOver s d (neighbour s.part d .west) false (s.die d).brg.nextTag .west
           (.heartbeat (s.stroke d) (s.die d).pegRuns (s.die d).brg.isolated (s.leadState d) ((s.die d).bridge .west).rx)] ∧
        (t.die d).brg.nextTag = ((s.die d).brg.nextTag + 1) % 2 ^ 16)) ∧
  (∀ (s : State) (d : DieId),
      up s d = true →
      4 ≤ (s.die d).stroke.misses →
      (s.die d).stroke.mloss = false →
      (s.die d).stroke.state ≠ 3 →
      Completes (.markerMissing d) s (fun t => (t.die d).stroke.mloss = true ∧
        (t.die d).stroke.state = if s.sameRef d (s.die d).stroke.lead then (s.die d).stroke.state else 1)) ∧
  (∀ (s : State) (d : DieId) (b : Ew) (p : Flit) (n l m : Nat) (r i : Bool),
      up s d = true →
      (((s.die d).bridge b).state = 0 ∨ s.ahead p = false) →
      s.air.find? (fun q => q.here == d && q.dir == Ew.flip b && q.body.type == 0x9) = some p →
      p.body = .heartbeat n r i l m →
      Completes (.heartbeat d b) s (fun t => t.air = s.air.erase p ∧
        (t.die d).bridge b = { (s.die d).bridge b with seen := true, hb := true, misses := 0, peer := m })) ∧
  (∀ (s : State) (d : DieId) (b : Ew),
      up s d = true →
      ((s.die d).bridge b).state ≠ 0 →
      (lanesIn ((s.die d).usable b) < 3 ∨ 4 ≤ ((s.die d).bridge b).misses) →
      Completes (.bridgeDown d b) s (fun t =>
        (t.die d).bridge b = { (s.die d).bridge b with state := 0, measured := false, echoes := 0, echoSum := 0, good := 0 } ∧
        (t.die d).brg.failover = true ∧ (t.die d).brg.changed = true ∧ (t.die d).bridge (Ew.flip b) = (s.die d).bridge (Ew.flip b))) ∧
  (∀ (s : State) (d : DieId) (b : Ew),
      up s d = true →
      ((s.die d).bridge b).state = 0 →
      64 ≤ ((s.die d).bridge b).good →
      3 ≤ lanesIn ((s.die d).usable b) →
      3 ≤ lanesIn ((s.die d).bridge b).set_ →
      ((s.die d).bridge b).measured = true →
      Completes (.bridgeUp d b) s (fun t =>
        (t.die d).bridge b = { (s.die d).bridge b with state := if lanesIn ((s.die d).bridge b).set_ = 4 then 1 else 2 } ∧
        (t.die d).brg.failover = true ∧ (t.die d).brg.changed = true)) ∧
  (∀ (s : State) (d : DieId) (b : Ew) (l : Fin 4) (hs : List (BitVec 2)),
      up s d = true →
      (((s.die d).bridge b).lane l.val).locked = false →
      (((s.die d).bridge b).lane l.val).run < 64 →
      64 ≤ (((s.die d).bridge b).lane l.val).run + hs.length →
      (∀ h ∈ hs, goodHeader h = true) →
      Completes (.bridgeLaneChange d b l hs []) s (fun t => (((t.die d).bridge b).lane l.val).locked = true ∧
        (t.die d).counter (cHdrInv b l.val) = (s.die d).counter (cHdrInv b l.val) ∧
        (∀ m : Fin 4, m ≠ l → ((t.die d).bridge b).lane m.val = ((s.die d).bridge b).lane m.val) ∧ ((t.die d).bridge b).aligned = ((s.die d).bridge b).aligned)) ∧
  (∀ (s : State) (d : DieId) (b : Ew) (l : Fin 4) (hs : List (BitVec 2)),
      up s d = true →
      (((s.die d).bridge b).lane l.val).locked = false →
      (((s.die d).bridge b).lane l.val).run + hs.length < 64 →
      Completes (.bridgeLaneChange d b l hs []) s (fun t => (((t.die d).bridge b).lane l.val).locked = false)) ∧
  (∀ (s : State) (d : DieId) (b : Ew) (l : Fin 4) (hs : List (BitVec 2)),
      up s d = true →
      (((s.die d).bridge b).lane l.val).locked = true →
      (((s.die d).bridge b).lane l.val).recent.any id = false →
      hs.length = 16 →
      (∀ h ∈ hs, goodHeader h = false) →
      Completes (.bridgeLaneChange d b l hs []) s (fun t => (((t.die d).bridge b).lane l.val).locked = false ∧
        bit ((t.die d).bridge b).aligned l.val = false ∧ (∀ m : Fin 4, m ≠ l → bit ((t.die d).bridge b).aligned m.val = bit ((s.die d).bridge b).aligned m.val) ∧
        (t.die d).counter (cHdrInv b l.val) = ((s.die d).counter (cHdrInv b l.val) + 16) % 2 ^ 32 ∧
        (bit ((s.die d).bridge b).up l.val = true → (t.die d).counter (cBrg + 0x20) = ((s.die d).counter (cBrg + 0x20) + 1) % 2 ^ 32))) ∧
  (∀ (s : State) (d : DieId) (b : Ew) (l : List (BitVec 64 × Byte)) (p : BitVec 64 × Byte),
      up s d = true →
      ((s.die d).bridge b).alignDue (s.ownTime d) = true →
      l.find? (fun q => isAlign q.1) = some p →
      Completes (.alignmentBlock d b l) s (fun t => ((t.die d).bridge b).rxSet = alignSet p.1 ∧
        (∀ m : Fin 4, bit ((t.die d).bridge b).aligned m.val = ((((s.die d).bridge b).lane m.val).locked &&
          l.any (fun q => isAlign q.1 && alignLane q.1 == m.val && decide (q.2.toNat ≤ 32)))) ∧
        ((t.die d).bridge b).set_ = (t.die d).usable b ∧ ((t.die d).bridge b).alignAt = some (s.ownTime d) ∧
        (((s.die d).bridge b).state ≠ 0 → 3 ≤ lanesIn ((t.die d).usable b) → ((t.die d).bridge b).state = if lanesIn ((t.die d).usable b) = 4 then 1 else 2) ∧
        (((s.die d).bridge b).state = 0 ∨ lanesIn ((t.die d).usable b) < 3 → ((t.die d).bridge b).state = ((s.die d).bridge b).state))) ∧
  (∀ (s : State) (d : DieId) (b : Ew) (v : Half),
      up s d = true →
      ((s.die d).bridge b).echoes = 15 →
      Completes (.echo d b v) s (fun t => (t.die d).bridge b = { (s.die d).bridge b with echoes := 0, echoSum := 0, lat := BitVec.ofNat 16 ((((s.die d).bridge b).echoSum + v.toNat) / 16), measured := true } ∧ ∀ e, e ≠ d → e ≠ neighbour s.part d b → t.die e = s.die e)) ∧
  (∀ (s : State) (d : DieId) (b : Ew) (v : Half),
      up s d = true →
      ((s.die d).bridge b).echoes < 15 →
      Completes (.echo d b v) s (fun t => (t.die d).bridge b = { (s.die d).bridge b with echoes := ((s.die d).bridge b).echoes + 1, echoSum := ((s.die d).bridge b).echoSum + v.toNat }))

/-- A candidate whose election is due sends ELECT and counts its answers afresh; once every reachable die has answered, or four
strokes have passed, it is the lead, LOCKED to itself, and every die it reaches follows it. DIE_ISOLATE of a die without
enabled ports, or with FORCE, isolates it at the next boundary; one that is isolated is DONE at once. DIE_RESTORE of an
isolated die enters a long operation. A lost die that is reached again is isolated. (R41, R280, R282, R284, R285, R286) -/
def Obligations.Elections : Prop :=
  (∀ (s : State),
      s.unavailable (otherAccess s.part) 0 = true →
      s.mayElect (otherAccess s.part) = true →
      Completes (.die0Unavailable) s (fun t => (t.die (otherAccess s.part)).brg.elect = some (s.stroke (otherAccess s.part)) ∧
        (t.die (otherAccess s.part)).brg.electTag = (s.die (otherAccess s.part)).brg.nextTag ∧ (t.die (otherAccess s.part)).brg.acks = 0 ∧ t.lead = s.lead)) ∧
  (∀ (s : State),
      s.lead = some (otherAccess s.part) →
      (s.die 0).linked = true →
      s.unavailable 0 (otherAccess s.part) = true →
      s.mayElect 0 = true →
      Completes (.otherAccessDieUnavailable) s (fun t => (t.die (0)).brg.elect = some (s.stroke (0)) ∧
        (t.die (0)).brg.electTag = (s.die (0)).brg.nextTag ∧ (t.die (0)).brg.acks = 0 ∧ t.lead = s.lead)) ∧
  (∀ (s : State),
      1024 ≤ (s.die 0).brg.run0 →
      s.stroke 0 = s.stroke s.leadDie →
      s.lead.isSome = true →
      s.mayElect 0 = true →
      Completes (.leadReturn) s (fun t => (t.die (0)).brg.elect = some (s.stroke (0)) ∧
        (t.die (0)).brg.electTag = (s.die (0)).brg.nextTag ∧ (t.die (0)).brg.acks = 0 ∧ t.lead = s.lead)) ∧
  (∀ (s : State) (c : DieId),
      s.running = true →
      s.pos = 0 →
      ((s.elected 0 = true ∧ c = 0) ∨ (s.elected 0 = false ∧ s.elected (otherAccess s.part) = true ∧ c = otherAccess s.part)) →
      present s.part c = true →
      bit (s.reachMask c) c.val = true →
      Completes .leadChanged s (fun t => t.lead = some c ∧ (t.die c).stroke.state = 3 ∧ (t.die c).stroke.mloss = false ∧
        (t.die c).brg.elect = none ∧ ∀ d : DieId, present s.part d = true → bit (s.reachMask c) d.val = true → (t.die d).stroke.lead = c)) ∧
  (∀ (s u : State) (k : Packet),
      takes0 s u k 0x0D01 = true →
      k.w 4 ≤ 1 →
      (u.die k.die).brg.restoring = false →
      (u.die k.die).brg.isolated = false →
      ((u.die k.die).anyPort = false ∨ k.w 4 = 1) →
      Completes (.dieIsolate k) s (fun t =>
        t = (u.onDie k.die (fun x => { x with brg := { x.brg with isolNext := true } })).await k 0x0D01 (u.stroke k.die + 1) 0)) ∧
  (∀ (s u : State) (k : Packet),
      takes0 s u k 0x0D01 = true →
      k.w 4 ≤ 1 →
      (u.die k.die).brg.restoring = false →
      (u.die k.die).brg.isolated = true →
      Answers (.dieIsolate k) s k 0x0D01 stDone 0 [] (fun w => w = u)) ∧
  (∀ (s u : State) (k : Packet),
      takes0 s u k 0x0D02 = true →
      (u.die k.die).brg.isolated = true →
      (u.die k.die).brg.restoring = false →
      (u.die k.die).peg.ops.length < 64 →
      Completes (.dieRestore k) s (fun t => runsOp t k 0x0D02 0 0 = true ∧ (t.die k.die).brg.restoring = true ∧
        (t.die k.die).brg.restStep = 0 ∧ (t.die k.die).brg.isolated = true)) ∧
  (∀ (s : State) (d : DieId),
      up s d = true →
      s.pos = 0 →
      (s.die d).brg.lost = true →
      ((s.die d).brg.east.state ≠ 0 ∨ (s.die d).brg.west.state ≠ 0) →
      Completes (.dieReachableAgain d) s (fun t => (t.die d).brg.lost = false ∧ (t.die d).brg.isolated = true ∧
        (t.die d).brg.restoring = false ∧ (∀ c : CourseId, ((t.die d).course c.val).banks.copying = false)))

/-- REGISTER_WRITE to a register with staged fields stages the value through its view and leaves every active value; one to the
memory window stores four bytes and no other, and nothing in a locked slot; one to a die the part has not, or to the
doorbells or slots of the two-wire queue, is reserved. WMB_SEL fills its mailbox. A write that finds an access of its
endpoint crossing the bridges waits behind it; a read of a register of the access die returns its value; a write that is not
one aligned whole DW is reserved. A reserved access is recorded with its address, bus and direction, and on PCI Express
aborts. (R292, R294, R299, R300, R301, R303, R305, R306, R308, R319, R320) -/
def Obligations.RegisterAccess : Prop :=
  (∀ (s : State) (e : AccessId) (off : BitVec 25) (w : Word) (sel : RegSel),
      s.running = true →
      (s.ep e).crossings = 0 →
      (s.ep e).d3 = false →
      off.toNat % 4 = 0 →
      windowDie off.toNat = (accessDie s.part e) →
      present s.part (accessDie s.part e) = true →
      s.busRegister false (accessDie s.part e) (windowOff off.toNat) = some sel →
      sel.rws ≠ 0 →
      viewSelects (windowView off.toNat) w &&& sel.rws ≠ 0 →
      Completes (.registerWrite e .pcie .regs off (.put w)) s (fun t =>
        (t.die (accessDie s.part e)).stg sel.offset = some (mergeMask ((s.die (accessDie s.part e)).base sel.offset)
          (viewWrite (windowView off.toNat) ((s.die (accessDie s.part e)).base sel.offset) w) sel.rws) ∧
        (t.die (accessDie s.part e)).active = (s.die (accessDie s.part e)).active ∧ ∀ d, d ≠ (accessDie s.part e) → t.die d = s.die d)) ∧
  (∀ (s : State) (e : AccessId) (off : BitVec 25) (w : Word) (m : Nat),
      s.running = true →
      (s.ep e).crossings = 0 →
      (s.ep e).d3 = false →
      m = off.toNat % 0x100000 / 4 * 4 →
      0x1004 ≤ m →
      foreignSlot false m = false →
      s.hkWindow m = none →
      lockedAt (s.die (accessDie s.part e)) m = false →
      Completes (.registerWrite e .pcie .mem off (.put w)) s (fun t =>
        (t.die (accessDie s.part e)).sram = Memory.writeLE (s.die (accessDie s.part e)).sram m 4 w.toNat ∧ Memory.readLE (t.die (accessDie s.part e)).sram m 4 = w.toNat ∧
        (∀ a, a < m ∨ m + 4 ≤ a → Memory.read (t.die (accessDie s.part e)).sram a = Memory.read (s.die (accessDie s.part e)).sram a) ∧ ∀ d, d ≠ (accessDie s.part e) → t.die d = s.die d)) ∧
  (∀ (s : State) (e : AccessId) (off : BitVec 25) (w : Word) (sel : RegSel),
      s.running = true →
      (s.ep e).crossings = 0 →
      (s.ep e).d3 = false →
      off.toNat % 4 = 0 →
      windowDie off.toNat = (accessDie s.part e) →
      present s.part (accessDie s.part e) = true →
      s.register (accessDie s.part e) (windowOff off.toNat) = some sel →
      sel.foreign false = true →
      Completes (.registerWrite e .pcie .regs off (.put w)) s (fun t =>
        (t.die (accessDie s.part e)).prot.errAddr = off.toNat ∧ (t.die (accessDie s.part e)).prot.errBus = 0 ∧ (t.die (accessDie s.part e)).prot.errWr = true ∧ (t.ep e).caStatus = true ∧
        (∀ d : DieId, (t.die d).active = (s.die d).active ∧ (t.die d).staged = (s.die d).staged ∧ (t.die d).q2 = (s.die d).q2))) ∧
  (∀ (s : State) (e : AccessId) (off : BitVec 25) (w : Word) (m : Nat),
      s.running = true →
      (s.ep e).crossings = 0 →
      (s.ep e).d3 = false →
      m = off.toNat % 0x100000 / 4 * 4 →
      foreignSlot false m = true →
      Completes (.registerWrite e .pcie .mem off (.put w)) s (fun t =>
        (t.die (accessDie s.part e)).prot.errAddr = m ∧ (t.die (accessDie s.part e)).prot.errBus = 0 ∧ (t.die (accessDie s.part e)).prot.errWr = true ∧ (t.ep e).caStatus = true ∧
        ∀ d : DieId, (t.die d).sram = (s.die d).sram)) ∧
  (∀ (s : State) (e : AccessId) (off : BitVec 25) (w : Word),
      s.running = true →
      (s.ep e).crossings = 0 →
      (s.ep e).d3 = false →
      off.toNat % 4 = 0 →
      present s.part (windowDie off.toNat) = false →
      Completes (.registerWrite e .pcie .regs off (.put w)) s (fun t =>
        (t.die (accessDie s.part e)).prot.errAddr = off.toNat ∧ (t.die (accessDie s.part e)).prot.errBus = 0 ∧ (t.die (accessDie s.part e)).prot.errWr = true ∧ (t.ep e).caStatus = true ∧
        (∀ d : DieId, (t.die d).active = (s.die d).active ∧ (t.die d).staged = (s.die d).staged ∧ (t.die d).sram = (s.die d).sram))) ∧
  (∀ (s : State) (e : AccessId) (win : Window) (off : BitVec 25) (r : Request),
      s.running = true →
      (s.ep e).crossings ≠ 0 →
      Completes (.registerWrite e .pcie win off r) s (fun t =>
        t = s.setEp e { s.ep e with waiting := (s.ep e).waiting ++ [(win, off, r)] })) ∧
  (∀ (s : State) (e : AccessId) (off : BitVec 25) (sel : RegSel),
      s.running = true →
      (s.ep e).crossings = 0 →
      (s.ep e).d3 = false →
      off.toNat % 4 = 0 →
      windowDie off.toNat = (accessDie s.part e) →
      present s.part (accessDie s.part e) = true →
      s.busRegister false (accessDie s.part e) (windowOff off.toNat) = some sel →
      Completes (.registerWrite e .pcie .regs off .get) s (fun t =>
        t = s.setEp e { s.ep e with rdata := some (false, [(s.readReg (accessDie s.part e) sel).setWidth 32]) })) ∧
  (∀ (s : State) (e : AccessId) (off : BitVec 25) (l : List Word) (f la : BitVec 4),
      s.running = true →
      (s.ep e).crossings = 0 →
      (s.ep e).d3 = false →
      (off.toNat % 4 ≠ 0 ∨ l.length ≠ 1 ∨ f ≠ 15 ∨ la ≠ 0) →
      Completes (.registerWrite e .pcie .regs off (.write l f la)) s (fun t =>
        (t.die (accessDie s.part e)).prot.errAddr = off.toNat ∧ (t.die (accessDie s.part e)).prot.errBus = 0 ∧ (t.die (accessDie s.part e)).prot.errWr = true ∧ (t.ep e).caStatus = true ∧
        (∀ d : DieId, (t.die d).active = (s.die d).active ∧ (t.die d).staged = (s.die d).staged ∧ (t.die d).sram = (s.die d).sram))) ∧
  (∀ (s : State) (d : DieId) (m : Fin 4) (a : Half),
      up s d = true →
      Completes (.wmbSel d m a) s (fun t =>
        (t.die d).prot.wmb = (s.die d).prot.wmb.set m.val (s.mailbox d (s.die d).prot.wmb[m.val] a.toNat) ∧ (t.die d).active = (s.die d).active)) ∧
  (∀ (s : State) (e : AccessId) (off : BitVec 25) (wr : Bool) (sp : Fin 8),
      s.running = true →
      Completes (.reservedAccess e .pcie off wr sp) s (fun t =>
        (t.die (accessDie s.part e)).prot.errAddr = off.toNat ∧ (t.die (accessDie s.part e)).prot.errBus = 0 ∧ (t.die (accessDie s.part e)).prot.errWr = wr ∧ (t.ep e).caStatus = true ∧
        (wr = false → (t.ep e).rdata = some (true, [])) ∧ (t.die (accessDie s.part e)).active = (s.die (accessDie s.part e)).active)) ∧
  (∀ (s : State) (e : AccessId) (off : BitVec 25) (sp : Fin 8),
      s.running = true →
      Completes (.reservedAccess e .twoWire off true sp) s (fun t =>
        (t.die (accessDie s.part e)).prot.errAddr = off.toNat ∧ (t.die (accessDie s.part e)).prot.errBus = 1 ∧ (t.die (accessDie s.part e)).twi.wres = 1 ∧ t.ep e = s.ep e))

/-- LOCAL_COMMIT strobes its groups for the next boundary before fret 24 and for the one after from then on; GLOBAL_COMMIT sends
them to every die, or is held during a ring failover; COMMIT_DISCARD drops the staged values of its groups at once. No
strobe changes an active value. A parity fault leaves the faulty value and marks it for restoration at the next boundary,
or, where ECC finds its ledger word uncorrectable, leaves it faulty; a staged one discards the staged value. A clean CRC
pass keeps its CRC and compares it with the reference. (R33, R36, R37, R304, R309, R310, R311, R313) -/
def Obligations.CommitsAndProtection : Prop :=
  (∀ (s : State) (d : DieId) (h : Bool) (m : Byte),
      up s d = true →
      m ≠ 0 →
      Completes (.localCommit d h m) s (fun t => (t.die d).active = (s.die d).active ∧ (t.die d).staged = (s.die d).staged ∧
        (s.ownPos d < 960 → (t.die d).stroke.dueNow = (s.die d).stroke.dueNow ||| groupMask h m.toNat ∧ (t.die d).stroke.dueNext = (s.die d).stroke.dueNext) ∧
        (960 ≤ s.ownPos d → (t.die d).stroke.dueNext = (s.die d).stroke.dueNext ||| groupMask h m.toNat ∧ (t.die d).stroke.dueNow = (s.die d).stroke.dueNow))) ∧
  (∀ (s : State) (d : DieId) (h : Bool),
      up s d = true →
      Completes (.localCommit d h 0) s (fun t => t = s.holdCommit d h false false)) ∧
  (∀ (s : State) (d : DieId) (h : Bool) (m : Byte),
      up s d = true →
      m ≠ 0 →
      s.globalHeld d = false →
      (s.die d).inCommits = true →
      Completes (.globalCommit d h m) s (fun t => t = (s.holdCommit d h true false).sendGlobal d (groupMask h m.toNat) 0 ∧
        (t.die d).stroke.gdue = (s.die d).stroke.gdue ++ [(s.globalDue d, groupMask h m.toNat, 0)])) ∧
  (∀ (s : State) (d : DieId) (h : Bool) (m : Byte),
      up s d = true →
      m ≠ 0 →
      s.globalHeld d = true →
      Posts (.globalCommit d h m) s d 375 0x06 (groupMask h m.toNat) (fun u =>
        (u.die d).stroke.held = (s.die d).stroke.held ||| groupMask h m.toNat ∧ (u.die d).stroke.gcHeld = true ∧ u.air = s.air)) ∧
  (∀ (s : State) (d : DieId) (h : Bool) (m : Byte),
      up s d = true →
      Completes (.commitDiscard d h m) s (fun t => (t.die d).active = (s.die d).active ∧ (t.die d).ledger = (s.die d).ledger ∧
        ∀ n, n < 16 → bit (groupMask h m.toNat) n = true → bit (t.die d).pend n = false ∧ ∀ o, groupOf o = some n → (t.die d).stg o = none)) ∧
  (∀ (s : State) (d : DieId) (o : BitVec 20) (v : Half) (sel : RegSel) (c : EccResult),
      up s d = true →
      s.register d o.toNat = some sel →
      oddBits ((s.die d).act o.toNat ^^^ mergeMask ((s.die d).act o.toNat) v sel.rws) = true →
      (s.die d).prot.bad.contains o.toNat = false →
      c ≠ .uncorrectable →
      Completes (.parityFault d o v c) s (fun t =>
        (t.die d).act o.toNat = mergeMask ((s.die d).act o.toNat) v sel.rws ∧ (t.die d).prot.restore.contains o.toNat = true ∧
        (t.die d).prot.parAddr = o.toNat ∧ (t.die d).prot.parStaged = false ∧ (t.die d).prot.parUnrec = false ∧ (t.die d).ledger = (s.die d).ledger)) ∧
  (∀ (s : State) (d : DieId) (o : BitVec 20) (v : Half) (sel : RegSel),
      up s d = true →
      s.register d o.toNat = some sel →
      oddBits ((s.die d).act o.toNat ^^^ mergeMask ((s.die d).act o.toNat) v sel.rws) = true →
      Completes (.parityFault d o v .uncorrectable) s (fun t =>
        (t.die d).act o.toNat = mergeMask ((s.die d).act o.toNat) v sel.rws ∧ (t.die d).prot.restore = (s.die d).prot.restore ∧
        (t.die d).prot.bad.contains o.toNat = true ∧ (t.die d).prot.parAddr = o.toNat ∧ (t.die d).prot.parUnrec = true ∧ (t.die d).ledger = (s.die d).ledger)) ∧
  (∀ (s : State) (d : DieId) (o : BitVec 20),
      up s d = true →
      ((s.die d).stg o.toNat).isSome = true →
      Posts (.stagedParityFault d o) s d 444 0x01 (o.toNat + 2 ^ 20) (fun u =>
        (u.die d).stg o.toNat = none ∧ (u.die d).active = (s.die d).active ∧ (u.die d).prot.parStaged = true ∧ (u.die d).prot.parAddr = o.toNat)) ∧
  (∀ (s : State) (d : DieId) (o : BitVec 20) (sel : RegSel),
      up s d = true →
      s.register d o.toNat = some sel →
      sel.rws ≠ 0 →
      Completes (.ledgerScrubVisit d o .corrected) s (fun t => t = s.count d (cProt + 0xC))) ∧
  (∀ (s : State) (d : DieId) (o : BitVec 20) (sel : RegSel),
      up s d = true →
      s.register d o.toNat = some sel →
      sel.rws ≠ 0 →
      Completes (.ledgerScrubVisit d o .uncorrectable) s (fun t => (t.die d).prot.bad.contains o.toNat = true ∧
        (t.die d).active = (s.die d).active ∧ (t.die d).ledger = (s.die d).ledger)) ∧
  (∀ (s : State) (d : DieId) (v : Nat),
      up s d = true →
      (s.die d).prot.passEnd = some (v, false) →
      Completes (.crcPassEnd d) s (fun t => (t.die d).prot = { (s.die d).prot with passEnd := none, dirty := false, crcLast := v, mismatch := v != (s.die d).crcRef } ∧
        (v = (s.die d).crcRef → t = s.onDie d (fun x => ({ x with prot := { x.prot with passEnd := none, dirty := false, crcLast := v, mismatch := false } }).count (cProt + 0x14))))) ∧
  (∀ (s : State) (d : DieId) (v : Nat),
      up s d = true →
      (s.die d).prot.passEnd = some (v, true) →
      Completes (.crcPassEnd d) s (fun t =>
        t = s.onDie d (fun x => { x with prot := { x.prot with passEnd := none, dirty := true } })))

/-- A write frame with a good PEC to a register of the access die is executed and leaves the buffer with outcome 0; one to
another die stays in the buffer until its response; one with a wrong PEC is discarded with outcome 3 and counted, and a
frame of another shape, its reserved address bits set or its length another, is counted. A read frame of a register of the
access die answers its value with the status byte. A frame that finds the buffer occupied for 10 microseconds is counted; a
read not ready answers 3. A time-out discards a read in progress and a result not yet sent, and posts what it has discarded;
the die that wins an alert response releases ALERT_N and drives it again one stroke later. Each row of a controller port
completes on a die that is up, and leaves every register and the other controller port of the die as they were. (R296, R297,
R298, R362, R363, R364) -/
def Obligations.TwoWireTarget : Prop :=
  (∀ (s : State) (e : AccessId) (l : List Byte) (x w : Word) (sel : RegSel),
      l = [(s.die (accessDie s.part e)).twi.addrByte false, x.extractLsb' 24 8, x.extractLsb' 16 8, x.extractLsb' 8 8, x.extractLsb' 0 8, w.extractLsb' 24 8, w.extractLsb' 16 8, w.extractLsb' 8 8, w.extractLsb' 0 8] →
      s.running = true →
      (s.die (accessDie s.part e)).twi.occupied = false →
      frameOk x = true →
      frameSpace x = 0 →
      windowDie (frameOff x) = (accessDie s.part e) →
      present s.part (accessDie s.part e) = true →
      s.busRegister true (accessDie s.part e) (windowOff (frameOff x)) = some sel →
      sel.rws ≠ 0 →
      viewSelects (windowView (frameOff x)) w &&& sel.rws ≠ 0 →
      Completes (.twiWriteFrame e (l ++ [pec l])) s (fun t => (t.die (accessDie s.part e)).twi.wres = 0 ∧ (t.die (accessDie s.part e)).twi.wbuf = none ∧
        (t.die (accessDie s.part e)).stg sel.offset = some (mergeMask ((s.die (accessDie s.part e)).base sel.offset) (viewWrite (windowView (frameOff x)) ((s.die (accessDie s.part e)).base sel.offset) w) sel.rws) ∧
        (t.die (accessDie s.part e)).active = (s.die (accessDie s.part e)).active)) ∧
  (∀ (s : State) (e : AccessId) (l : List Byte) (x w : Word),
      l = [(s.die (accessDie s.part e)).twi.addrByte false, x.extractLsb' 24 8, x.extractLsb' 16 8, x.extractLsb' 8 8, x.extractLsb' 0 8, w.extractLsb' 24 8, w.extractLsb' 16 8, w.extractLsb' 8 8, w.extractLsb' 0 8] →
      s.running = true →
      (s.die (accessDie s.part e)).twi.occupied = false →
      frameOk x = true →
      frameSpace x = 0 →
      windowDie (frameOff x) ≠ (accessDie s.part e) →
      present s.part (windowDie (frameOff x)) = true →
      Completes (.twiWriteFrame e (l ++ [pec l])) s (fun t => (t.die (accessDie s.part e)).twi.wbuf = some (x, w) ∧ (t.die (accessDie s.part e)).twi.occupied = true ∧
        (t.die (accessDie s.part e)).brg.sent = (s.die (accessDie s.part e)).brg.sent ++ [⟨windowDie (frameOff x), (s.die (accessDie s.part e)).brg.nextTag, s.stroke (accessDie s.part e), s.stroke (accessDie s.part e),
          .regReq (windowOff (frameOff x)) (windowView (frameOff x)) true w true⟩])) ∧
  (∀ (s : State) (e : AccessId) (l : List Byte) (x w : Word) (p : Byte),
      l = [(s.die (accessDie s.part e)).twi.addrByte false, x.extractLsb' 24 8, x.extractLsb' 16 8, x.extractLsb' 8 8, x.extractLsb' 0 8, w.extractLsb' 24 8, w.extractLsb' 16 8, w.extractLsb' 8 8, w.extractLsb' 0 8] →
      s.running = true →
      (s.die (accessDie s.part e)).twi.occupied = false →
      p ≠ pec l →
      Completes (.twiWriteFrame e (l ++ [p])) s (fun t => (t.die (accessDie s.part e)).twi.wres = 3 ∧ (t.die (accessDie s.part e)).staged = (s.die (accessDie s.part e)).staged ∧
        (t.die (accessDie s.part e)).sram = (s.die (accessDie s.part e)).sram ∧ (t.die (accessDie s.part e)).counter (cProt + 0x1C) = ((s.die (accessDie s.part e)).counter (cProt + 0x1C) + 1) % 2 ^ 32)) ∧
  (∀ (s : State) (e : AccessId) (l : List Byte),
      s.running = true →
      (s.die (accessDie s.part e)).twi.occupied = false →
      l.head? = some ((s.die (accessDie s.part e)).twi.addrByte false) →
      l.length ≠ 10 →
      Completes (.twiWriteFrame e l) s (fun t => t = s.count (accessDie s.part e) (cProt + 0x1C))) ∧
  (∀ (s : State) (e : AccessId) (l : List Byte) (x w : Word),
      l = [(s.die (accessDie s.part e)).twi.addrByte false, x.extractLsb' 24 8, x.extractLsb' 16 8, x.extractLsb' 8 8, x.extractLsb' 0 8, w.extractLsb' 24 8, w.extractLsb' 16 8, w.extractLsb' 8 8, w.extractLsb' 0 8] →
      s.running = true →
      (s.die (accessDie s.part e)).twi.occupied = false →
      frameOk x = false →
      Completes (.twiWriteFrame e (l ++ [pec l])) s (fun t => t = s.count (accessDie s.part e) (cProt + 0x1C))) ∧
  (∀ (s : State) (e : AccessId) (l : List Byte) (x : Word) (sel : RegSel),
      l = [(s.die (accessDie s.part e)).twi.addrByte false, x.extractLsb' 24 8, x.extractLsb' 16 8, x.extractLsb' 8 8, x.extractLsb' 0 8, (s.die (accessDie s.part e)).twi.addrByte true] →
      s.running = true →
      (s.die (accessDie s.part e)).twi.occupied = false →
      (s.die (accessDie s.part e)).twi.read = none →
      frameOk x = true →
      frameSpace x = 0 →
      windowDie (frameOff x) = (accessDie s.part e) →
      present s.part (accessDie s.part e) = true →
      s.busRegister true (accessDie s.part e) (windowOff (frameOff x)) = some sel →
      Completes (.twiReadFrame e l) s (fun t => (t.die (accessDie s.part e)).twi.d = (s.readReg (accessDie s.part e) sel).setWidth 32 ∧
        (t.die (accessDie s.part e)).twi.st = 16 * (s.die (accessDie s.part e)).twi.wres ∧ (t.die (accessDie s.part e)).twi.wres = 5 ∧ (t.die (accessDie s.part e)).active = (s.die (accessDie s.part e)).active ∧ (t.die (accessDie s.part e)).staged = (s.die (accessDie s.part e)).staged)) ∧
  (∀ (s : State) (e : AccessId) (l : List Byte),
      s.running = true →
      (s.die (accessDie s.part e)).twi.occupied = false →
      (s.die (accessDie s.part e)).twi.read = none →
      (l.head? = some ((s.die (accessDie s.part e)).twi.addrByte false) ∨ l.head? = some ((s.die (accessDie s.part e)).twi.addrByte true)) →
      l.length ≠ 6 →
      Completes (.twiReadFrame e l) s (fun t => t = s.count (accessDie s.part e) (cProt + 0x1C))) ∧
  (∀ (s : State) (e : AccessId),
      s.running = true →
      (s.die (accessDie s.part e)).twi.wres ≠ 4 →
      Completes (.twiWriteBufEmpty e) s (fun t => t = s.onTwi (accessDie s.part e) (fun v => { v with wbuf := none }))) ∧
  (∀ (s : State) (e : AccessId),
      s.running = true →
      (s.die (accessDie s.part e)).twi.occupied = true →
      Completes (.twiBusyNack e) s (fun t => t = s.count (accessDie s.part e) (cProt + 0x20))) ∧
  (∀ (s : State) (e : AccessId),
      s.running = true →
      (s.die (accessDie s.part e)).twi.read.isSome = true →
      Completes (.twiReadNotReady e) s (fun t =>
        t = s.onTwi (accessDie s.part e) (fun v => { v with st := 3 + 16 * v.wres, d := 0, wres := 5, read := none, ready := true }))) ∧
  (∀ (s : State) (e : AccessId),
      s.running = true →
      Completes (.twiStartInAck e) s (fun t => t = s.count (accessDie s.part e) (cProt + 0x1C))) ∧
  (∀ (s : State) (e : AccessId) (frame : Bool),
      s.running = true →
      fld ((s.die (accessDie s.part e)).act oTcfg) 1 1 = 1 →
      (s.die (accessDie s.part e)).twi.ready = true →
      Posts (.targetTimeout e frame true) s (accessDie s.part e) 392 0x01 3 (fun u =>
        (u.die (accessDie s.part e)).twi = { (s.die (accessDie s.part e)).twi with read := none, ready := false, st := 0, d := 0 })) ∧
  (∀ (s : State) (e : AccessId) (frame unsent : Bool),
      s.running = true →
      fld ((s.die (accessDie s.part e)).act oTcfg) 1 1 = 1 →
      (s.die (accessDie s.part e)).twi.read = none →
      ((s.die (accessDie s.part e)).twi.ready = false ∨ unsent = false) →
      Posts (.targetTimeout e frame unsent) s (accessDie s.part e) 392 0x01 (b2n frame) (fun u => (u.die (accessDie s.part e)).twi = (s.die (accessDie s.part e)).twi)) ∧
  (∀ (s : State) (e : AccessId) (frame : Bool),
      s.running = true →
      fld ((s.die (accessDie s.part e)).act oTcfg) 1 1 = 1 →
      (s.die (accessDie s.part e)).twi.read.isSome = true →
      Posts (.targetTimeout e frame false) s (accessDie s.part e) 392 0x01 3 (fun u => (u.die (accessDie s.part e)).twi = { (s.die (accessDie s.part e)).twi with read := none } ∧
        (u.die (accessDie s.part e)).counter cTwi = ((s.die (accessDie s.part e)).counter cTwi + 1) % 2 ^ 32)) ∧
  (∀ (s : State) (e : AccessId),
      s.running = true →
      (s.die (accessDie s.part e)).alert = true →
      fld ((s.die (accessDie s.part e)).act oTcfg) 0 0 = 1 →
      Completes (.alertResponse e true) s (fun t => (t.die (accessDie s.part e)).evt.relAlert = true ∧ (t.die (accessDie s.part e)).evt.relAt = s.stroke (accessDie s.part e) ∧ (t.die (accessDie s.part e)).alert = false)) ∧
  (∀ (s : State) (e : AccessId),
      s.running = true →
      (s.die (accessDie s.part e)).alert = true →
      fld ((s.die (accessDie s.part e)).act oTcfg) 0 0 = 1 →
      Completes (.alertResponse e false) s (fun t => t = s.count (accessDie s.part e) (cTwi + 8))) ∧
  (∀ (s : State) (e : AccessId),
      s.running = true →
      (s.die (accessDie s.part e)).evt.relAlert = true →
      (s.die (accessDie s.part e)).evt.relAt < s.stroke (accessDie s.part e) →
      Completes (.alertRedrive e) s (fun t => t = s.onDie (accessDie s.part e) (fun x => { x with evt := { x.evt with relAlert := false } }))) ∧
  (∀ (s : State) (d : DieId) (m : McId) (r : Fin 8) (acked : Byte) (data : List Byte),
      up s d = true →
      ((s.die d).mcRuns m.val).isSome = true →
      r.val ≤ 2 →
      Completes (.twiTransferEnd d m r acked data) s (fun t => (t.die d).active = (s.die d).active ∧ (t.die d).staged = (s.die d).staged ∧ (t.die d).slices = (s.die d).slices ∧ ∀ n : McId, n ≠ m → (t.die d).twi.port n.val = (s.die d).twi.port n.val)) ∧
  (∀ (s : State) (d : DieId) (m : McId) (acked : Byte) (data : List Byte),
      up s d = true →
      ((s.die d).mcRuns m.val).isSome = true →
      Completes (.arbLost d m acked data) s (fun t => (t.die d).active = (s.die d).active ∧ (t.die d).staged = (s.die d).staged ∧ (t.die d).slices = (s.die d).slices ∧ ∀ n : McId, n ≠ m → (t.die d).twi.port n.val = (s.die d).twi.port n.val)) ∧
  (∀ (s : State) (d : DieId) (m : McId) (acked : Byte) (data : List Byte),
      up s d = true →
      ((s.die d).mcRuns m.val).isSome = true →
      Completes (.stretchTimeout d m acked data) s (fun t => (t.die d).active = (s.die d).active ∧ (t.die d).staged = (s.die d).staged ∧ (t.die d).slices = (s.die d).slices ∧ ∀ n : McId, n ≠ m → (t.die d).twi.port n.val = (s.die d).twi.port n.val)) ∧
  (∀ (s : State) (d : DieId) (m : McId) (acked : Byte) (data : List Byte),
      up s d = true →
      ((s.die d).mcRuns m.val).isSome = true →
      Completes (.busError d m acked data) s (fun t => (t.die d).active = (s.die d).active ∧ (t.die d).staged = (s.die d).staged ∧ (t.die d).slices = (s.die d).slices ∧ ∀ n : McId, n ≠ m → (t.die d).twi.port n.val = (s.die d).twi.port n.val)) ∧
  (∀ (s : State) (d : DieId) (m : McId) (pulses : Fin 10) (freed : Bool),
      up s d = true →
      (s.die d).mcEn m.val = true →
      (s.die d).clearDue m.val = true →
      (freed = true ∨ pulses = 9) →
      Completes (.busClear d m pulses freed) s (fun t => (t.die d).active = (s.die d).active ∧ (t.die d).staged = (s.die d).staged ∧ (t.die d).slices = (s.die d).slices ∧ ∀ n : McId, n ≠ m → (t.die d).twi.port n.val = (s.die d).twi.port n.val)) ∧
  (∀ (s u : State) (k : Packet) (m : McId),
      takes s u k 0x0E01 = true →
      k.target.toNat = m.val →
      (u.die k.die).mcEn m.val = true →
      (u.die k.die).busy 5 m.val = false →
      (u.die k.die).peg.ops.length < 64 →
      twiParamsOk k = true →
      Completes (.twiTransfer k) s (fun t => (t.die k.die).active = (u.die k.die).active ∧ (t.die k.die).staged = (u.die k.die).staged ∧ ∀ n : McId, n ≠ m → (t.die k.die).twi.port n.val = (u.die k.die).twi.port n.val)) ∧
  (∀ (s u : State) (k : Packet) (m : McId),
      takes s u k 0x0E02 = true →
      k.target.toNat = m.val →
      (u.die k.die).mcEn m.val = true →
      (u.die k.die).busy 5 m.val = false →
      (u.die k.die).peg.ops.length < 64 →
      k.w 4 < 128 →
      Completes (.moduleIdentify k) s (fun t => (t.die k.die).active = (u.die k.die).active ∧ (t.die k.die).staged = (u.die k.die).staged ∧ ∀ n : McId, n ≠ m → (t.die k.die).twi.port n.val = (u.die k.die).twi.port n.val))

/-- A doorbell moves its pointer unless it would take back entries or leave the posted span, where it is ignored and QUEUE_ERROR
posted; a write to a locked slot is discarded. COMMAND_FETCH takes the command in the next slot while its pegbox runs: a
good header enters the commands in execution, a bad one is answered. RECORD_POST writes the next record at the completion
queue's tail, with the queue's phase, and no other byte. A command that waited 1,024 strokes for a pegbox ends
DIE_UNAVAILABLE. NOP, GET_INFO, OP_STATUS and OP_CANCEL count one command at their die, and change neither registers nor
operations. (R320, R321, R323, R325, R326, R331, R332, R334, R342, R343) -/
def Obligations.Queues : Prop :=
  (∀ (s : State) (e : AccessId) (n : QueueId) (v : BitVec 6),
      s.running = true →
      ((s.die (accessDie s.part e)).queue n).unfetched ≤ (v.toNat + 64 - ((s.die (accessDie s.part e)).queue n).sqHead) % 64 →
      Completes (.sqDoorbell e n v) s (fun t => ((t.die (accessDie s.part e)).queue n) = { ((s.die (accessDie s.part e)).queue n) with sqTail := v.toNat } ∧ (t.die (accessDie s.part e)).sram = (s.die (accessDie s.part e)).sram ∧
        ∀ m, m ≠ n → (t.die (accessDie s.part e)).queue m = (s.die (accessDie s.part e)).queue m)) ∧
  (∀ (s : State) (e : AccessId) (n : QueueId) (v : BitVec 6),
      s.running = true →
      (v.toNat + 64 - ((s.die (accessDie s.part e)).queue n).sqHead) % 64 < ((s.die (accessDie s.part e)).queue n).unfetched →
      Posts (.sqDoorbell e n v) s (accessDie s.part e) (457 + n.val) 0x01 (256 * v.toNat) (fun u => u = s)) ∧
  (∀ (s : State) (e : AccessId) (n : QueueId) (v : BitVec 6),
      s.running = true →
      (v.toNat + 64 - ((s.die (accessDie s.part e)).queue n).cqHead) % 64 ≤ ((s.die (accessDie s.part e)).queue n).used →
      Completes (.cqDoorbell e n v) s (fun t => ((t.die (accessDie s.part e)).queue n) = { ((s.die (accessDie s.part e)).queue n) with cqHead := v.toNat })) ∧
  (∀ (s : State) (e : AccessId) (n : QueueId) (v : BitVec 6),
      s.running = true →
      ((s.die (accessDie s.part e)).queue n).used < (v.toNat + 64 - ((s.die (accessDie s.part e)).queue n).cqHead) % 64 →
      Posts (.cqDoorbell e n v) s (accessDie s.part e) (457 + n.val) 0x01 (1 + 256 * v.toNat) (fun u => u = s)) ∧
  (∀ (s : State) (e : AccessId) (n : QueueId) (v : BitVec 6),
      s.running = true →
      ((s.die (accessDie s.part e)).queue n).locked v.toNat = true →
      Posts (.lockedSlotWrite e n v) s (accessDie s.part e) (457 + n.val) 0x01 (2 + 256 * v.toNat) (fun u => u = s)) ∧
  (∀ (s : State) (e : AccessId) (n : QueueId) (x : Packet × Nat),
      s.running = true →
      (s.die (accessDie s.part e)).pegRuns = true →
      ((s.die (accessDie s.part e)).queue n).mayFetch = true →
      readPacket (s.die (accessDie s.part e)) (accessDie s.part e) n ((s.die (accessDie s.part e)).queue n).sqHead = x →
      s.checkHeader (accessDie s.part e) ((s.die (accessDie s.part e)).queue n) x.1 x.2 (readFlags (s.die (accessDie s.part e)) n ((s.die (accessDie s.part e)).queue n).sqHead) = none →
      Completes (.commandFetch e n) s (fun t => ((t.die (accessDie s.part e)).queue n).sqHead = (((s.die (accessDie s.part e)).queue n).sqHead + 1) % 64 ∧ ((t.die (accessDie s.part e)).queue n).sqTail = ((s.die (accessDie s.part e)).queue n).sqTail ∧ ((t.die (accessDie s.part e)).queue n).exec = ((s.die (accessDie s.part e)).queue n).exec ++ [x] ∧
        (t.die (accessDie s.part e)).sram = (s.die (accessDie s.part e)).sram)) ∧
  (∀ (s : State) (e : AccessId) (n : QueueId) (x : Packet × Nat) (st herr : Nat),
      s.running = true →
      (s.die (accessDie s.part e)).pegRuns = true →
      ((s.die (accessDie s.part e)).queue n).mayFetch = true →
      readPacket (s.die (accessDie s.part e)) (accessDie s.part e) n ((s.die (accessDie s.part e)).queue n).sqHead = x →
      s.checkHeader (accessDie s.part e) ((s.die (accessDie s.part e)).queue n) x.1 x.2 (readFlags (s.die (accessDie s.part e)) n ((s.die (accessDie s.part e)).queue n).sqHead) = some (st, herr) →
      st ≠ 0x02 →
      Completes (.commandFetch e n) s (fun t => ((t.die (accessDie s.part e)).queue n).sqHead = (((s.die (accessDie s.part e)).queue n).sqHead + 1) % 64 ∧ ((t.die (accessDie s.part e)).queue n).exec = ((s.die (accessDie s.part e)).queue n).exec ++ [x] ∧
        ((t.die (accessDie s.part e)).queue n).waiting = ((s.die (accessDie s.part e)).queue n).waiting ++ [{ mkRec x.1 st 0 [] with herr := herr }])) ∧
  (∀ (s : State) (e : AccessId) (n : QueueId),
      (s.die (accessDie s.part e)).pegRuns = false →
      Completes (.commandFetch e n) s (fun t => t = s)) ∧
  (∀ (s : State) (e : AccessId) (n : QueueId) (r : Rec),
      ((s.die (accessDie s.part e)).queue n).waiting.find? ((s.die (accessDie s.part e)).queue n).mayPost = some r →
      r.irq = false →
      Completes (.recordPost e n) s (fun t => (t.die (accessDie s.part e)).sram = Memory.writeWords (s.die (accessDie s.part e)).sram (cqBase n + ((s.die (accessDie s.part e)).queue n).cqTail * 0x100) (r.words ((s.die (accessDie s.part e)).queue n).phase) ∧
        (∀ a, (a < cqBase n + ((s.die (accessDie s.part e)).queue n).cqTail * 0x100 ∨ cqBase n + ((s.die (accessDie s.part e)).queue n).cqTail * 0x100 + 4 * (r.words ((s.die (accessDie s.part e)).queue n).phase).length ≤ a) →
          Memory.read (t.die (accessDie s.part e)).sram a = Memory.read (s.die (accessDie s.part e)).sram a) ∧
        ((t.die (accessDie s.part e)).queue n).cqTail = (((s.die (accessDie s.part e)).queue n).cqTail + 1) % 64 ∧ ((t.die (accessDie s.part e)).queue n).phase = (if ((s.die (accessDie s.part e)).queue n).cqTail = 63 then !((s.die (accessDie s.part e)).queue n).phase else ((s.die (accessDie s.part e)).queue n).phase) ∧ ((t.die (accessDie s.part e)).queue n).cqHead = ((s.die (accessDie s.part e)).queue n).cqHead)) ∧
  (∀ (s : State) (d : DieId) (w : Waiting),
      up s d = true →
      (s.die d).pegRuns = false →
      (s.die d).peg.inbox.find? (fun w => w.arrived + 1024 ≤ s.stroke d) = some w →
      w.packet.die = d →
      Completes (.inboxTimeout d) s (fun t =>
        t = ((s.takeInbox w.packet w.op).onDie d (fun x => x.remember ⟨w.packet.origin, w.packet.queue, w.packet.tag, w.op, stUnavail, 0, 0, 0⟩)).deliver d
          (mkRec w.packet stUnavail 0 []) ∧ (t.die d).peg.inbox = ((s.takeInbox w.packet w.op).die d).peg.inbox ∧ (t.die d).active = (s.die d).active)) ∧
  (∀ (s u : State) (k : Packet),
      takes0 s u k 0x0001 = true →
      Completes (.nop k) s (fun t => (t.die k.die).counter (cPeg + 0x30) = ((u.die k.die).counter (cPeg + 0x30) + 1) % 2 ^ 32 ∧ (t.die k.die).active = (u.die k.die).active ∧ (t.die k.die).staged = (u.die k.die).staged ∧ (t.die k.die).peg.ops = (u.die k.die).peg.ops)) ∧
  (∀ (s u : State) (k : Packet),
      takes0 s u k 0x0002 = true →
      k.w 4 ≤ 1 →
      Completes (.getInfo k) s (fun t => (t.die k.die).counter (cPeg + 0x30) = ((u.die k.die).counter (cPeg + 0x30) + 1) % 2 ^ 32 ∧ (t.die k.die).active = (u.die k.die).active ∧ (t.die k.die).staged = (u.die k.die).staged ∧ (t.die k.die).peg.ops = (u.die k.die).peg.ops)) ∧
  (∀ (s u : State) (k : Packet),
      takes0 s u k 0x0003 = true →
      k.w 4 < 2 ^ 21 →
      Completes (.opStatus k) s (fun t => (t.die k.die).counter (cPeg + 0x30) = ((u.die k.die).counter (cPeg + 0x30) + 1) % 2 ^ 32 ∧ (t.die k.die).active = (u.die k.die).active ∧ (t.die k.die).staged = (u.die k.die).staged ∧ (t.die k.die).peg.ops = (u.die k.die).peg.ops)) ∧
  (∀ (s u : State) (k : Packet),
      takes0 s u k 0x0004 = true →
      k.w 4 < 2 ^ 21 →
      (u.die k.die).peg.ops.find? (fun o => namesCmd (k.w 4) o.origin o.queue o.tag) = none →
      (u.die k.die).endedOf (k.w 4) = none →
      Completes (.opCancel k) s (fun t => (t.die k.die).counter (cPeg + 0x30) = ((u.die k.die).counter (cPeg + 0x30) + 1) % 2 ^ 32 ∧ (t.die k.die).active = (u.die k.die).active ∧ (t.die k.die).staged = (u.die k.die).staged ∧ (t.die k.die).peg.ops = (u.die k.die).peg.ops))

/-- Each row completes. EVENT_CAUSE of a source that is not reserved posts its record, and of a reserved one nothing.
EVENT_FORWARD hands over, in fret 30, every record added since the last one, in an EVT_FWD to die 0 and to the other access
die; where an overrun leaves some over, they wait. A write of EVT_RP inside the unread span frees its slots; one outside is
ignored and posted. At the end of fret 30 each group with a new unmasked record sends its vector; unmasking a vector sends
the message that waited for it, and no other. LIVE_COPY, CNT_SNAPSHOT, the end of a meter's window, a tagged codeword, a
profiling sample and TAG_CONFIG do what they name, and leave the events of the die and its registers alone. (R293, R346,
R348, R350, R352) -/
def Obligations.Events : Prop :=
  (∀ (s : State) (d : DieId) (src : Fin 512) (c : Byte) (v : Word),
      up s d = true →
      reservedSource src.val = false →
      Completes (.eventCause d src c v) s (fun t => t = s.post d src.val c.toNat v.toNat ∧
        SMap.get 0 (t.die d).evt.seq src.val = (SMap.get 0 (s.die d).evt.seq src.val + 1) % 256 ∧ (t.die d).active = (s.die d).active)) ∧
  (∀ (s : State) (d : DieId) (src : Fin 512) (c : Byte) (v : Word),
      reservedSource src.val = true →
      Completes (.eventCause d src c v) s (fun t => t = s)) ∧
  (∀ (s : State) (d : DieId),
      up s d = true →
      s.fretOpen d 30 30 = true →
      (s.die d).stroke.evtCut = 0 →
      (s.reachable d 0 = true ∨ s.reachable d (otherAccess s.part) = true) →
      Completes (.eventForward d) s (fun t => (t.die d).evt.fresh = 0 ∧ (t.die d).active = (s.die d).active ∧
        (∀ a, a < 0x30000 ∨ 0x40000 ≤ a → Memory.read (t.die d).sram a = Memory.read (s.die d).sram a) ∧ ∀ b, b ≠ d → (t.die b).sram = (s.die b).sram)) ∧
  (∀ (s : State) (d : DieId) (l : List Evt),
      up s d = true →
      s.fretOpen d 30 30 = true →
      (s.die d).stroke.evtCut = 0 →
      d ≠ 0 →
      s.reachable d 0 = true →
      ((s.die d).bridge (s.way d 0)).state ≠ 0 →
      l = (s.die d).evt.local_.drop ((s.die d).evt.local_.length - (s.die d).evt.fresh) →
      l ≠ [] →
      l.length ≤ 16 →
      Completes (.eventForward d) s (fun t => sentOver s d 0 false (s.die d).brg.nextTag (s.way d 0) (.evtFwd l) ∈ t.air)) ∧
  (∀ (s : State) (e : AccessId) (v : BitVec 12),
      s.running = true →
      (v.toNat + 4096 - (s.die (accessDie s.part e)).evt.rp) % 4096 ≤ (s.die (accessDie s.part e)).evt.unread →
      (s.die (accessDie s.part e)).evt.dropped = 0 →
      Completes (.evtRpWrite e v) s (fun t => (t.die (accessDie s.part e)).evt.rp = v.toNat ∧ (t.die (accessDie s.part e)).evt.wp = (s.die (accessDie s.part e)).evt.wp ∧
        (t.die (accessDie s.part e)).evt.unmasked = (s.die (accessDie s.part e)).evt.unmasked.filter (fun n => !((n + 4096 - (s.die (accessDie s.part e)).evt.rp) % 4096 < (v.toNat + 4096 - (s.die (accessDie s.part e)).evt.rp) % 4096)) ∧
        (t.die (accessDie s.part e)).sram = (s.die (accessDie s.part e)).sram)) ∧
  (∀ (s : State) (e : AccessId) (v : BitVec 12),
      s.running = true →
      (s.die (accessDie s.part e)).evt.unread < (v.toNat + 4096 - (s.die (accessDie s.part e)).evt.rp) % 4096 →
      Posts (.evtRpWrite e v) s (accessDie s.part e) 456 0x12 v.toNat (fun u => u = s)) ∧
  (∀ (s : State) (e : AccessId) (v : Nat),
      s.running = true →
      s.pos ≤ 1240 →
      bit (s.die (accessDie s.part e)).stroke.ran 31 = false →
      v ∈ (s.die (accessDie s.part e)).groupVectors →
      (s.die (accessDie s.part e)).evt.fmask = false →
      bit (s.die (accessDie s.part e)).evt.mask v = false →
      Completes (.msixEvent e) s (fun t => v ∈ (t.die (accessDie s.part e)).evt.vecs ∧ (t.die (accessDie s.part e)).evt.groups = 0)) ∧
  (∀ (s : State) (e : AccessId) (v : Fin 32),
      (s.die (accessDie s.part e)).evt.fmask = false →
      bit (s.die (accessDie s.part e)).evt.pend v.val = true →
      bit (s.die (accessDie s.part e)).evt.mask v.val = true →
      (∀ w : Fin 32, w ≠ v → bit (s.die (accessDie s.part e)).evt.pend w.val = true → bit (s.die (accessDie s.part e)).evt.mask w.val = true) →
      Completes (.msixUnmask e (some v)) s (fun t =>
        (t.die (accessDie s.part e)).evt.vecs = v.val :: (s.die (accessDie s.part e)).evt.vecs ∧ bit (t.die (accessDie s.part e)).evt.pend v.val = false ∧ bit (t.die (accessDie s.part e)).evt.mask v.val = false)) ∧
  (∀ (s : State) (d : DieId),
      up s d = true →
      s.fretOpen d 21 24 = true →
      (s.die d).stroke.pegOvr = false →
      Completes (.liveCopy d) s (fun t => (t.die d).tele.latch.isSome = true ∧ (t.die d).evt = (s.die d).evt ∧ (t.die d).active = (s.die d).active)) ∧
  (∀ (s u : State) (k : Packet),
      takes0 s u k 0x0B01 = true →
      k.w 4 < 65536 →
      1 ≤ k.w 5 →
      k.w 5 ≤ 3068 →
      4 * (k.w 4 + k.w 5) ≤ 0xD000 →
      (u.die k.die).snapWaits = false →
      Completes (.cntSnapshot k) s (fun t => (t.die k.die).tele.snapAt = some (u.stroke k.die + 1) ∧ (t.die k.die).evt = (u.die k.die).evt ∧ (t.die k.die).active = (u.die k.die).active)) ∧
  (∀ (s : State) (p : PortId) (dir : Side) (k : Nat) (l : List (MBlock × Word)),
      up s p.die = true →
      ((s.port p).dir dir).metEn = true →
      (s.port p).carrying = true →
      ((s.port p).dir dir).metW ≠ 0 →
      (s.stroke p.die - ((s.port p).dir dir).metFrom) % ((s.port p).dir dir).metW = 0 →
      k < (s.stroke p.die - ((s.port p).dir dir).metFrom) / ((s.port p).dir dir).metW →
      k + 1 = (s.stroke p.die - ((s.port p).dir dir).metFrom) / ((s.port p).dir dir).metW →
      ((s.port p).dir dir).metWin ≤ k →
      Completes (.meterWindowEnd p dir l) s (fun t => ((t.port p).dir dir).metWin = k + 1 ∧ (t.die p.die).evt = (s.die p.die).evt ∧ (t.die p.die).active = (s.die p.die).active)) ∧
  (∀ (s : State) (p : PortId) (dir : Side) (n : BitVec 16) (tp : TagPoints),
      up s p.die = true →
      ((s.port p).dir dir).tagEn = true →
      ((s.port p).dir dir).fecLock = true →
      ((s.port p).dir dir).tagSeen < n.toNat →
      ((s.port p).dir dir).tags n.toNat = true →
      hasFec ((s.die p.die).cfga p.key) = true →
      (s.port p).carrying = true →
      Completes (.taggedSample p dir n tp) s (fun t => ((t.port p).dir dir).tagSeen = n.toNat ∧ (t.die p.die).evt = (s.die p.die).evt ∧ (t.die p.die).active = (s.die p.die).active)) ∧
  (∀ (s : State) (d : DieId) (pc : Word) (n : Nat),
      up s d = true →
      (s.die d).tele.profRun = true →
      (s.die d).pegRuns = true →
      n = (s.die d).tele.nextSample (s.stroke d * 1280 + s.pos) →
      s.stroke d * 1280 + s.pos ≤ n →
      n < (s.stroke d + 1) * 1280 →
      Completes (.profileSample d pc) s (fun t => (t.die d).tele.profLast = n ∧ (t.die d).evt = (s.die d).evt ∧ (t.die d).active = (s.die d).active)) ∧
  (∀ (s u : State) (k : Packet) (p : PortId),
      takesPort s u k 0x0B02 p = true →
      k.w 4 % 4 = 0 →
      tagParamsOk 0 (k.w 4) (k.w 5) = true →
      hasFec ((u.die p.die).cfga p.key) = true →
      Completes (.tagTagging k) s (fun t => (t.die k.die).peg.awaits = (u.die k.die).peg.awaits ++ [⟨k, 0x0B02, u.stroke k.die + 1, 0, u.stroke k.die⟩] ∧ (t.die k.die).evt = (u.die k.die).evt ∧ (t.die k.die).active = (u.die k.die).active)) ∧
  (∀ (s u : State) (k : Packet) (p : PortId),
      takesPort s u k 0x0B02 p = true →
      k.w 4 % 4 = 1 →
      tagParamsOk 1 (k.w 4) (k.w 5) = true →
      hasMeter ((u.die p.die).cfga p.key) = true →
      Completes (.tagMeter k) s (fun t => (t.die k.die).peg.awaits = (u.die k.die).peg.awaits ++ [⟨k, 0x0B02, u.stroke k.die + 1, 0, u.stroke k.die⟩] ∧ (t.die k.die).evt = (u.die k.die).evt ∧ (t.die k.die).active = (u.die k.die).active)) ∧
  (∀ (s u : State) (k : Packet),
      takes0 s u k 0x0B02 = true →
      k.w 4 % 4 = 2 →
      tagParamsOk 2 (k.w 4) (k.w 5) = true →
      Completes (.tagProfiling k) s (fun t => (t.die k.die).peg.awaits = (u.die k.die).peg.awaits ++ [⟨k, 0x0B02, u.stroke k.die + 1, 0, u.stroke k.die⟩] ∧ (t.die k.die).evt = (u.die k.die).evt ∧ (t.die k.die).active = (u.die k.die).active))

/-- GET_INFO is answered with the package's words or the named die's; OP_STATUS with the state of the command it names. None of
them changes anything else. OP_CANCEL of a training that has not begun ends it CANCELLED; of a command the die does not know
it is answered DONE with found 0. The rows that stage, activate, swap and restart a pegbox's images, and its watchdog, say
by PEG_STAT whether it runs, and leave active values, transmitters and, but where a pegbox settles its commands, slices and
ports as they were. (R333, R334, R336, R337, R338, R339) -/
def Obligations.PackageCommands : Prop :=
  (∀ (s u : State) (k : Packet),
      takes0 s u k 0x0002 = true →
      k.w 4 ≤ 1 →
      Answers (.getInfo k) s k 0x0002 stDone 3 (if k.w 4 = 0 then u.packageInfo k else u.dieInfo k.die) (fun w => w = u)) ∧
  (∀ (s u : State) (k : Packet),
      takes0 s u k 0x0002 = true →
      2 ≤ k.w 4 →
      Answers (.getInfo k) s k 0x0002 stBadParam 0 [] (fun w => w = u)) ∧
  (∀ (s u : State) (k : Packet),
      takes0 s u k 0x0003 = true →
      k.w 4 < 2 ^ 21 →
      Answers (.opStatus k) s k 0x0003 stDone 3 (u.opStatus k.die (k.w 4)) (fun w => w = u)) ∧
  (∀ (s u : State) (k : Packet),
      takes0 s u k 0x0004 = true →
      k.w 4 < 2 ^ 21 →
      (u.die k.die).peg.ops.find? (fun o => namesCmd (k.w 4) o.origin o.queue o.tag) = none →
      (u.die k.die).endedOf (k.w 4) = none →
      Answers (.opCancel k) s k 0x0004 stDone 0 [0] (fun w => w = u)) ∧
  (∀ (s u : State) (k : Packet) (o : Op) (p : PortId),
      takes0 s u k 0x0004 = true →
      k.w 4 < 2 ^ 21 →
      (u.die k.die).peg.ops.find? (fun o => namesCmd (k.w 4) o.origin o.queue o.tag) = some o →
      o.opcode = 0x0301 →
      portId k.die o.obj = p →
      (u.port p).startAt = none →
      (u.port p).sess = true →
      (u.die k.die).peg.awaits = [] →
      Completes (.opCancel k) s (fun t => t = (u.onPort p (fun v => { v with abort := 7 })).await k 0x0004 0 1)) ∧
  (∀ (s u : State) (k : Packet),
      takes0 s u k 0x0A01 = true →
      isAccess u.part k.die = true →
      bit (k.w 4) 21 = false →
      bits (k.w 4) 31 22 = 0 →
      bit (k.w 4) 18 = false →
      bit (k.w 4) 19 = false →
      bits (k.w 4) 17 0 % 4 = 0 →
      bits (k.w 4) 17 0 + 4 * (k.length.toNat - 6) ≤ fwMax →
      u.activating = false →
      u.stager = some k.die →
      (u.die k.die).peg.stOrigin = k.origin →
      (u.die k.die).peg.stQueue = k.queue →
      (u.die k.die).lastOp = none →
      (u.die k.die).regionTest = none →
      Completes (.fwStage k) s (fun t => (t.die k.die).peg.stLast = u.stroke k.die ∧ (t.die k.die).active = (u.die k.die).active ∧ (t.die k.die).staged = (u.die k.die).staged ∧ (t.die k.die).ports = (u.die k.die).ports)) ∧
  (∀ (s u : State) (k : Packet) (d : DieId),
      takes0 s u k 0x0A01 = true →
      isAccess u.part k.die = true →
      bit (k.w 4) 21 = true →
      bit (k.w 4) 18 = false →
      bit (k.w 4) 19 = false →
      k.length.toNat = 6 →
      u.activating = false →
      u.dieList.any (fun d => (u.die d).lastOp.isSome) = false →
      u.stager = some d →
      Completes (.fwStageAbort k) s (fun t => (t.die d).peg.staging = false ∧ (t.die k.die).active = (u.die k.die).active ∧ (t.die k.die).staged = (u.die k.die).staged ∧ (t.die k.die).ports = (u.die k.die).ports)) ∧
  (∀ (s : State) (d : DieId),
      s.running = true →
      s.stager = some d →
      (s.die d).peg.staging = true →
      (s.die d).lastOp = none →
      (s.die d).peg.stLast + 976563 ≤ s.stroke d →
      Completes (.stagingSessionTimeout) s (fun t => (t.die d).peg.staging = false ∧ (t.die d).active = (s.die d).active ∧ (t.die d).slices = (s.die d).slices ∧ (t.die d).txs = (s.die d).txs ∧ (t.die d).ports = (s.die d).ports)) ∧
  (∀ (s u : State) (k : Packet) (m : Nat),
      takes0 s u k 0x0A02 = true →
      k.w 4 < 512 →
      k.w 4 % 256 = m →
      m ≠ 0 →
      u.stager = none →
      u.activating = false →
      u.dieList.any (fun d => (u.die d).lastOp.isSome) = false →
      (∀ d : DieId, bit m d.val = true → present u.part d = true ∧ (u.die d).peg.sbValid = true ∧ u.reachable k.die d = true) →
      (u.die k.die).peg.ops.length < 64 →
      u.globalHeld u.leadDie = false →
      Completes (.fwActivate k) s (fun t => t.activating = true ∧ (t.die k.die).active = (u.die k.die).active ∧ (t.die k.die).staged = (u.die k.die).staged ∧ (t.die k.die).ports = (u.die k.die).ports)) ∧
  (∀ (s : State) (d : DieId) (n : Nat),
      up s d = true →
      s.pos = 0 →
      (s.die d).peg.swapAt = some n →
      n ≤ s.stroke d →
      Completes (.fwSwap d) s (fun t => (t.die d).pegRuns = false ∧ (t.die d).peg.region = !(s.die d).peg.region ∧ (t.die d).slices = (s.die d).slices ∧ (t.die d).txs = (s.die d).txs ∧ (t.die d).ports = (s.die d).ports)) ∧
  (∀ (s : State) (d : DieId) (n : Nat),
      up s d = true →
      s.pos = 0 →
      (s.die d).peg.swapped = some n →
      (s.die d).peg.state = 2 →
      n + 1024 ≤ s.stroke d →
      Completes (.fwReverted d) s (fun t => (t.die d).pegRuns = true ∧ (t.die d).active = (s.die d).active ∧ (t.die d).txs = (s.die d).txs)) ∧
  (∀ (s : State) (d : DieId),
      up s d = true →
      (s.die d).pegRuns = true →
      (s.die d).stroke.resumed = none →
      (s.die d).peg.startAt + fld ((s.die d).act oWdt) 7 0 * 1024 ≤ s.stroke d →
      Completes (.watchdogExpiry d) s (fun t => (t.die d).pegRuns = false ∧ (t.die d).slices = (s.die d).slices ∧ (t.die d).txs = (s.die d).txs ∧ (t.die d).ports = (s.die d).ports)) ∧
  (∀ (s : State) (d : DieId) (rom : Bool),
      up s d = true →
      s.pos = 0 →
      (s.die d).peg.state = 2 →
      (s.die d).peg.swapped = none →
      Completes (.pegRestart d rom) s (fun t => (t.die d).pegRuns = true ∧ (t.die d).active = (s.die d).active ∧ (t.die d).txs = (s.die d).txs))

/-- A chunk of an open session is copied and answered DONE; FW_STAGE_ABORT closes the session. A session without a chunk for
976,563 strokes, or whose access die is out of reach, its LAST too, closes with FW_REJECTED, reason 5. FW_ACTIVATE of dies
with a verified image sets their swap for 64 strokes later, on the lead at once and elsewhere by a global commit, or holds
it while global commits are held, and stops both access dies' fetching. FW_SWAP swaps a die's regions and leaves its pegbox
not running until it restarts; an image that does not run within 1,024 strokes is swapped back. A watchdog expiry, TIMEOUT
or more after the pegbox started, stops the pegbox and leaves registers, slices and queues alone. (R336, R337, R338, R339,
R340) -/
def Obligations.Firmware : Prop :=
  (∀ (s u : State) (k : Packet),
      takes0 s u k 0x0A01 = true →
      isAccess u.part k.die = true →
      bit (k.w 4) 21 = false →
      bits (k.w 4) 31 22 = 0 →
      bit (k.w 4) 18 = false →
      bit (k.w 4) 19 = false →
      bits (k.w 4) 17 0 % 4 = 0 →
      bits (k.w 4) 17 0 + 4 * (k.length.toNat - 6) ≤ fwMax →
      u.activating = false →
      u.stager = some k.die →
      (u.die k.die).peg.stOrigin = k.origin →
      (u.die k.die).peg.stQueue = k.queue →
      (u.die k.die).lastOp = none →
      (u.die k.die).regionTest = none →
      Answers (.fwStage k) s k 0x0A01 stDone 1 [] (fun w => w = u.onDie k.die (fun x => x.stageChunk k (u.stroke k.die)))) ∧
  (∀ (s u : State) (k : Packet) (d : DieId),
      takes0 s u k 0x0A01 = true →
      isAccess u.part k.die = true →
      bit (k.w 4) 21 = true →
      bit (k.w 4) 18 = false →
      bit (k.w 4) 19 = false →
      k.length.toNat = 6 →
      u.activating = false →
      u.dieList.any (fun d => (u.die d).lastOp.isSome) = false →
      u.stager = some d →
      Answers (.fwStageAbort k) s k 0x0A01 stDone 1 [] (fun w => w = u.closeStage d ∧ (w.die d).peg.staging = false ∧ (w.die d).peg.stBytes = [])) ∧
  (∀ (s : State) (d : DieId),
      s.running = true →
      s.stager = some d →
      (s.die d).peg.staging = true →
      (s.die d).lastOp = none →
      (s.die d).peg.stLast + 976563 ≤ s.stroke d →
      Posts .stagingSessionTimeout s (s.stageCloser d) 456 0x03 5 (fun u => u = s.onDie d Die.stageClear)) ∧
  (∀ (s : State) (d : DieId) (o : Op),
      s.running = true →
      s.stager = some d →
      (s.die d).lastOp = some o →
      s.stagerGone d = true →
      Completes .stagingSessionTimeout s (fun t => t = (s.closeStage d).abortOp d o stAborted)) ∧
  (∀ (s u : State) (k : Packet) (m : Nat),
      takes0 s u k 0x0A02 = true →
      k.w 4 < 512 →
      k.w 4 % 256 = m →
      m ≠ 0 →
      u.stager = none →
      u.activating = false →
      u.dieList.any (fun d => (u.die d).lastOp.isSome) = false →
      (∀ d : DieId, bit m d.val = true → present u.part d = true ∧ (u.die d).peg.sbValid = true ∧ u.reachable k.die d = true) →
      (u.die k.die).peg.ops.length < 64 →
      u.globalHeld u.leadDie = false →
      Completes (.fwActivate k) s (fun t => runsOp t k 0x0A02 0 0 = true ∧ t.gsync = some (u.stroke u.leadDie + 64, m) ∧ t.fwOp = some k ∧ t.fwHeld = false ∧
        (∀ d : DieId, (t.die d).peg.swapAt = if d = u.leadDie ∧ (u.die d).inCommits = true ∧ bit m d.val = true then some (u.stroke u.leadDie + 64) else (u.die d).peg.swapAt) ∧
        (t.die 0).q0.drain = true ∧ (t.die (otherAccess t.part)).q2.drain = true)) ∧
  (∀ (s u : State) (k : Packet) (m : Nat),
      takes0 s u k 0x0A02 = true →
      k.w 4 < 512 →
      k.w 4 % 256 = m →
      m ≠ 0 →
      u.stager = none →
      u.activating = false →
      u.dieList.any (fun d => (u.die d).lastOp.isSome) = false →
      (∀ d : DieId, bit m d.val = true → present u.part d = true ∧ (u.die d).peg.sbValid = true ∧ u.reachable k.die d = true) →
      (u.die k.die).peg.ops.length < 64 →
      u.globalHeld u.leadDie = true →
      Completes (.fwActivate k) s (fun t => runsOp t k 0x0A02 0 0 = true ∧ t.gsync = some (0, m) ∧ t.fwOp = some k ∧ t.fwHeld = true ∧
        (∀ d : DieId, (t.die d).peg.swapAt = (u.die d).peg.swapAt) ∧ (t.die 0).q0.drain = true ∧ (t.die (otherAccess t.part)).q2.drain = true)) ∧
  (∀ (s : State) (d : DieId) (n : Nat),
      up s d = true →
      s.pos = 0 →
      (s.die d).peg.swapAt = some n →
      n ≤ s.stroke d →
      Completes (.fwSwap d) s (fun t =>
        (t.die d).peg = { (s.die d).peg.swap with state := 2, swapAt := none, swapped := some n, wdtAt := s.stroke d } ∧ (t.die d).active = (s.die d).active ∧
        (t.die d).slices = (s.die d).slices)) ∧
  (∀ (s : State) (d : DieId) (n : Nat),
      up s d = true →
      s.pos = 0 →
      (s.die d).peg.swapped = some n →
      (s.die d).peg.state = 2 →
      n + 1024 ≤ s.stroke d →
      Completes (.fwReverted d) s (fun t => (t.die d).peg.state = 1 ∧ (t.die d).peg.swapped = none ∧ (t.die d).peg.region = !(s.die d).peg.region ∧
        (t.die d).peg.verA = (s.die d).peg.verS ∧ (t.die d).peg.sbValid = false)) ∧
  (∀ (s : State) (d : DieId),
      up s d = true →
      (s.die d).pegRuns = true →
      (s.die d).stroke.resumed = none →
      (s.die d).peg.startAt + fld ((s.die d).act oWdt) 7 0 * 1024 ≤ s.stroke d →
      Completes (.watchdogExpiry d) s (fun t => (t.die d).peg = { (s.die d).peg with state := 2, wdtAt := s.stroke d, restarts := (s.die d).peg.restarts + 1 } ∧
        (t.die d).active = (s.die d).active ∧ (t.die d).staged = (s.die d).staged ∧ (t.die d).slices = (s.die d).slices ∧
        (t.die d).q0 = (s.die d).q0 ∧ (t.die d).q1 = (s.die d).q1 ∧ (t.die d).q2 = (s.die d).q2)) ∧
  (∀ (s : State) (d : DieId) (rom : Bool),
      up s d = true →
      s.pos = 0 →
      (s.die d).peg.state = 2 →
      (s.die d).peg.swapped = none →
      Completes (.pegRestart d rom) s (fun t => (t.die d).peg.state = 1 ∧ (t.die d).peg.startAt = s.stroke d ∧
        (rom = true → (t.die d).peg.romImg = true ∧ (t.die d).peg.verA = Config.romVersion))) ∧
  (∀ (s : State) (d : DieId) (rom : Bool) (n : Nat),
      up s d = true →
      s.pos = 0 →
      (s.die d).peg.state = 2 →
      (s.die d).peg.swapped = some n →
      s.stroke d ≤ n + 1024 →
      Completes (.pegRestart d rom) s (fun t => (t.die d).peg.state = 1 ∧ (t.die d).peg.swapped = none ∧ (t.die d).peg.region = (s.die d).peg.region ∧
        (t.die d).peg.verA = (s.die d).peg.verA))

/-- The end of a step writes its record, the raw code corrected by the trims, its input and step, at the buffer's write index,
and no other byte, and moves the pass on; the end of an injected conversion keeps its result for the command that asked. A
stroke trigger, or the end of an edge's delay, queues an idle sequence; a trigger that finds the sequence taken is dropped,
counted and posted. A conversion of a calibration adds its result, of REF_LO and REF_HI in turn, to those of the calibration
and to HK_LAST; after the 96th CAL_DONE puts the offset and gain that they give into use. A write of HK_RP frees the records
it passes. A critical temperature trips and is posted. PWM channels, HK_SEQ_DEFINE, HK_INJECT, HK_CALIBRATE and PWM_SET
leave the record buffer alone. (R377, R378, R379, R380, R382, R383, R385, R386, R387) -/
def Obligations.Housekeeping : Prop :=
  (∀ (s : State) (d : DieId) (code : BitVec 12) (n : Fin 2) (q : Seq),
      up s d = true →
      (s.die d).hk.conv = 2 + n.val →
      (s.die d).hk.seq n.val = q →
      q.state = 2 →
      q.step + 1 < seqSteps q.cfg →
      fld ((s.die d).act oHkBuf) 0 0 = 1 →
      (s.die d).hk.count < 8192 →
      Completes (.hkConversionEnd d code) s (fun t => ((t.die d).hk.seq n.val).step = q.step + 1 ∧ (t.die d).hk.wp = ((s.die d).hk.wp + 1) % 8192 ∧ (t.die d).hk.count = (s.die d).hk.count + 1 ∧
        (t.die d).sram = Memory.writeWords (s.die d).sram (hkBase + 8 * (s.die d).hk.wp)
          [(s.die d).hkResult ((q.steps[q.step]?).getD 0) code + ((q.steps[q.step]?).getD 0) * 2 ^ 12 + q.step * 2 ^ 17 + n.val * 2 ^ 22 + b2n q.calDel * 2 ^ 23 + b2n q.late * 2 ^ 24
             + b2n (seqTrig q.cfg == 2) * 2 ^ 25 + q.pass * 2 ^ 26,
           s.stamp d / 8 % 4294967296] ∧
        ∀ a, (a < hkBase + 8 * (s.die d).hk.wp ∨ hkBase + 8 * (s.die d).hk.wp + 8 ≤ a) → Memory.read (t.die d).sram a = Memory.read (s.die d).sram a)) ∧
  (∀ (s : State) (d : DieId) (code : BitVec 12) (i : Nat) (f : Bool) (l : List (Nat × Bool)) (k : Packet × Nat) (m : List (Packet × Nat)),
      up s d = true →
      (s.die d).hk.conv = 1 →
      (s.die d).hk.inj = (i, f) :: l →
      (s.die d).hk.injOps = k :: m →
      (s.die d).hk.injDone.length + 1 < injCount k.1 →
      Completes (.hkConversionEnd d code) s (fun t => (t.die d).hk.inj = l ∧ (t.die d).hk.injDone = (s.die d).hk.injDone ++ [((s.die d).hkResult i code, f)] ∧ (t.die d).hk.injOps = k :: m ∧
        SMap.get 0 (t.die d).hk.last i = (s.die d).hkResult i code)) ∧
  (∀ (s : State) (d : DieId) (code : BitVec 12),
      up s d = true →
      (s.die d).hk.conv = 0 →
      (s.die d).hk.cal = 2 →
      (s.die d).hk.calRes.length < 96 →
      Completes (.hkConversionEnd d code) s (fun t => (t.die d).hk.calRes = (s.die d).hk.calRes ++ [(s.die d).hkResult (14 + (s.die d).hk.calRes.length % 2) code] ∧
        SMap.get 0 (t.die d).hk.last (14 + (s.die d).hk.calRes.length % 2) = (s.die d).hkResult (14 + (s.die d).hk.calRes.length % 2) code ∧ (t.die d).hk.cal = 2)) ∧
  (∀ (s : State) (d : DieId) (n : Fin 2),
      up s d = true →
      s.pos < 1160 →
      seqEn ((s.die d).act (oSeqCfg n.val)) = true →
      seqTrig ((s.die d).act (oSeqCfg n.val)) = 1 →
      ((s.die d).act (oSeqN n.val)).toNat ≠ 0 →
      s.stroke d % ((s.die d).act (oSeqN n.val)).toNat = 0 →
      (s.die d).stroke.hkOvr = false →
      (s.die d).clk.gHk = false →
      ((s.die d).hk.seq n.val).state = 0 →
      ((s.die d).hk.seq n.val).trigAt ≠ s.stroke d + 1 →
      Completes (.hkStrokeTrigger d n false) s (fun t => ((t.die d).hk.seq n.val).trigAt = s.stroke d + 1 ∧ 1 ≤ ((t.die d).hk.seq n.val).state ∧ ((t.die d).hk.seq n.val).late = false)) ∧
  (∀ (s : State) (d : DieId) (c : Fin 8) (rising : Bool) (n : Fin 2),
      up s d = true →
      seqEn ((s.die d).act (oSeqCfg n.val)) = true →
      seqTrig ((s.die d).act (oSeqCfg n.val)) = 2 →
      seqCh ((s.die d).act (oSeqCfg n.val)) = c.val →
      seqFall ((s.die d).act (oSeqCfg n.val)) ≠ rising →
      ((s.die d).clk.gHk = false ∧ (s.die d).clk.gDie = false) →
      ((s.die d).hk.seq n.val).delay = false →
      Completes (.hkPwmEdge d c rising) s (fun t => (t.die d).hk.seq n.val = { (s.die d).hk.seq n.val with delay := true, delayAt := s.stamp d })) ∧
  (∀ (s : State) (d : DieId) (n : Fin 2),
      up s d = true →
      ((s.die d).hk.seq n.val).delay = true →
      ((s.die d).clk.gHk = false ∧ (s.die d).clk.gDie = false) →
      ((s.die d).hk.seq n.val).delayAt + 2 * ((s.die d).act (oSeqDly n.val)).toNat ≤ s.stamp d →
      ((s.die d).hk.seq n.val).state = 0 →
      Completes (.hkDelayEnd d n) s (fun t => ((t.die d).hk.seq n.val).delay = false ∧ 1 ≤ ((t.die d).hk.seq n.val).state)) ∧
  (∀ (s : State) (d : DieId) (n : Fin 2),
      up s d = true →
      seqEn ((s.die d).act (oSeqCfg n.val)) = true →
      (((s.die d).hk.seq n.val).state = 1 ∨ (2 ≤ ((s.die d).hk.seq n.val).state ∧ ((s.die d).hk.seq n.val).pend = true)) →
      ((s.die d).hk.seq n.val).told = false →
      Posts (.overrun d n) s d 408 0x01 n.val (fun u =>
        (u.die d).hk.seq n.val = { (s.die d).hk.seq n.val with dropped := true, pendDrop := ((s.die d).hk.seq n.val).pendDrop || ((s.die d).hk.seq n.val).pend, told := true } ∧
        (u.die d).counter (cHk + 4 + 4 * n.val) = ((s.die d).counter (cHk + 4 + 4 * n.val) + 1) % 2 ^ 32)) ∧
  (∀ (s : State) (d : DieId),
      up s d = true →
      (s.die d).hk.cal = 2 →
      (s.die d).hk.calRes.length = 96 →
      Completes (.calDone d) s (fun t => (t.die d).hk.cal = 0 ∧ (t.die d).hk.calRes = [] ∧ (t.die d).hk.ofs = (Config.hkCorrections (s.die d).hk.calRes).1 ∧
        (t.die d).hk.gain = (Config.hkCorrections (s.die d).hk.calRes).2 ∧ (t.die d).hk.calOp = none ∧ (t.die d).hk.inj = (s.die d).hk.inj.map (fun p => (p.1, true)))) ∧
  (∀ (s : State) (d : DieId) (rp : BitVec 13),
      up s d = true →
      (rp.toNat + 8192 - (s.die d).hk.rp) % 8192 ≤ (s.die d).hk.count →
      Completes (.hkRpWrite d rp) s (fun t => t = s.onHk d (fun h => { h with rp := rp.toNat, count := h.count - (rp.toNat + 8192 - h.rp) % 8192, owTold := false }))) ∧
  (∀ (s : State) (d : DieId) (m : Byte),
      up s d = true →
      (s.die d).hk.trip = false →
      m ≠ 0 →
      Posts (.tempCritical d m) s d 409 0x01 (m.toNat + 256 * fld ((s.die d).act oTcrit) 7 0) (fun u =>
        (u.die d).hk = { (s.die d).hk with trip := true, above := m.toNat, owed := false })) ∧
  (∀ (s : State) (d : DieId),
      up s d = true →
      (s.die d).hk.trip = true →
      Posts (.tempCritCleared d) s d 409 0x02 0 (fun u => (u.die d).hk = { (s.die d).hk with trip := false, above := 0 })) ∧
  (∀ (s : State) (d : DieId),
      up s d = true →
      s.fretOpen d 28 29 = true →
      (s.die d).stroke.hkOvr = false →
      (s.die d).hk.dueLoad ≠ 0 →
      Completes (.pwmLoad d) s (fun t => (t.die d).hk.dueLoad = 0 ∧ (t.die d).hk.count = (s.die d).hk.count ∧ (t.die d).hk.rp = (s.die d).hk.rp ∧ (t.die d).sram = (s.die d).sram ∧ (t.die d).active = (s.die d).active)) ∧
  (∀ (s : State) (d : DieId) (p : Fin 8) (w : Int),
      up s d = true →
      (s.die d).hk.pwmOn p.val = true →
      bit (s.die d).hk.loading p.val = true →
      w = (s.die d).hk.nextWrap p.val (SMap.get 0 (s.die d).hk.moved p.val * 1280 + 1120) →
      w < (s.stroke d + 1) * 1280 →
      Completes (.pwmWrap d p) s (fun t => bit (t.die d).hk.loading p.val = false ∧ (t.die d).hk.count = (s.die d).hk.count ∧ (t.die d).hk.rp = (s.die d).hk.rp ∧ (t.die d).sram = (s.die d).sram ∧ (t.die d).active = (s.die d).active)) ∧
  (∀ (s u : State) (k : Packet),
      takes s u k 0x0901 = true →
      k.target.toNat < 2 →
      k.w 4 < 2048 →
      seqTrig (BitVec.ofNat 16 (k.w 4)) ≠ 3 →
      (seqTrig (BitVec.ofNat 16 (k.w 4)) = 1 → k.w 5 % 65536 ≠ 0) →
      (stepsOk (k.w 6) = true ∧ stepsOk (k.w 7) = true) →
      (stepsOk (k.w 8) = true ∧ stepsOk (k.w 9) = true) →
      Completes (.hkSeqDefine k) s (fun t => ⟨k, 0x0901, u.strobeDue k.die, 0, u.stroke k.die⟩ ∈ (t.die k.die).peg.awaits ∧ (t.die k.die).hk.count = (u.die k.die).hk.count ∧ (t.die k.die).hk.rp = (u.die k.die).hk.rp ∧ (t.die k.die).sram = (u.die k.die).sram ∧ (t.die k.die).active = (u.die k.die).active)) ∧
  (∀ (s u : State) (k : Packet),
      takes0 s u k 0x0902 = true →
      1 ≤ k.w 4 →
      k.w 4 ≤ 4 →
      (u.die k.die).hk.inj.length + k.w 4 ≤ 4 →
      (u.die k.die).clk.gHk = false →
      (u.die k.die).clk.gDie = false →
      Completes (.hkInject k) s (fun t => (t.die k.die).hk.inj.length = (u.die k.die).hk.inj.length + k.w 4 ∧ (t.die k.die).hk.count = (u.die k.die).hk.count ∧ (t.die k.die).hk.rp = (u.die k.die).hk.rp ∧ (t.die k.die).sram = (u.die k.die).sram ∧ (t.die k.die).active = (u.die k.die).active)) ∧
  (∀ (s u : State) (k : Packet),
      takes0 s u k 0x0903 = true →
      (u.die k.die).hk.cal = 0 →
      (u.die k.die).clk.gHk = false →
      (u.die k.die).clk.gDie = false →
      Completes (.hkCalibrate k) s (fun t => (t.die k.die).hk.cal ≠ 0 ∧ (t.die k.die).hk.count = (u.die k.die).hk.count ∧ (t.die k.die).hk.rp = (u.die k.die).hk.rp ∧ (t.die k.die).sram = (u.die k.die).sram ∧ (t.die k.die).active = (u.die k.die).active)) ∧
  (∀ (s u : State) (k : Packet),
      takes s u k 0x0904 = true →
      k.target.toNat < 8 →
      k.w 5 < 2 ^ 19 →
      k.w 5 % 65536 ≤ k.w 4 % 65536 →
      Completes (.pwmSet k) s (fun t => ⟨k, 0x0904, u.strobeDue k.die, k.target.toNat, u.stroke k.die⟩ ∈ (t.die k.die).peg.awaits ∧ (t.die k.die).hk.count = (u.die k.die).hk.count ∧ (t.die k.die).hk.rp = (u.die k.die).hk.rp ∧ (t.die k.die).sram = (u.die k.die).sram ∧ (t.die k.die).active = (u.die k.die).active))

/-- PWM_LOAD moves the committed values of its channels to their load registers; a running channel takes them at its first wrap
from then on, and counts from there. HK_SEQ_DEFINE stages a sequence's configuration and PWM_SET a channel's, each answered
at the boundary that applies it. HK_INJECT queues its conversions behind those pending; HK_CALIBRATE asks for a calibration
behind them. The rows of the converter, its triggers and its sensors leave the PWM channels alone. (R382, R383, R389, R391,
R392, R393, R394) -/
def Obligations.PwmAndHkCommands : Prop :=
  (∀ (s : State) (d : DieId),
      up s d = true →
      s.fretOpen d 28 29 = true →
      (s.die d).stroke.hkOvr = false →
      (s.die d).hk.dueLoad ≠ 0 →
      Completes (.pwmLoad d) s (fun t => (t.die d).hk.dueLoad = 0 ∧ ∀ p : Fin 8, bit (s.die d).hk.dueLoad p.val = true →
        ∀ j : Fin 4, SMap.get (pwmReset (4 * p.val + j.val)) (t.die d).hk.load (4 * p.val + j.val) = (s.die d).act (oPwm p.val j.val))) ∧
  (∀ (s : State) (d : DieId) (p : Fin 8) (w : Int),
      up s d = true →
      (s.die d).hk.pwmOn p.val = true →
      bit (s.die d).hk.loading p.val = true →
      w = (s.die d).hk.nextWrap p.val (SMap.get 0 (s.die d).hk.moved p.val * 1280 + 1120) →
      w < (s.stroke d + 1) * 1280 →
      Completes (.pwmWrap d p) s (fun t => bit (t.die d).hk.loading p.val = false ∧ SMap.get 0 (t.die d).hk.pwmZero p.val = w ∧
        ∀ j : Fin 4, (t.die d).hk.pwmAt p.val j.val = SMap.get (pwmReset (4 * p.val + j.val)) (s.die d).hk.load (4 * p.val + j.val))) ∧
  (∀ (s u : State) (k : Packet),
      takes s u k 0x0901 = true →
      k.target.toNat < 2 →
      k.w 4 < 2048 →
      seqTrig (BitVec.ofNat 16 (k.w 4)) ≠ 3 →
      (seqTrig (BitVec.ofNat 16 (k.w 4)) = 1 → k.w 5 % 65536 ≠ 0) →
      (stepsOk (k.w 6) = true ∧ stepsOk (k.w 7) = true) →
      (stepsOk (k.w 8) = true ∧ stepsOk (k.w 9) = true) →
      Completes (.hkSeqDefine k) s (fun t => StagesAndWaits u t k 0x0901 5
        ([(oSeqCfg k.target.toNat, BitVec.ofNat 16 (k.w 4)), (oSeqN k.target.toNat, BitVec.ofNat 16 (k.w 5)),
          (oSeqDly k.target.toNat, BitVec.ofNat 16 (k.w 5 / 65536))]
         ++ (List.range 16).map (fun j => (oStep k.target.toNat j, BitVec.ofNat 16 (bits (k.w (6 + j / 4)) (8 * (j % 4) + 4) (8 * (j % 4)))))) 0)) ∧
  (∀ (s u : State) (k : Packet),
      takes0 s u k 0x0902 = true →
      1 ≤ k.w 4 →
      k.w 4 ≤ 4 →
      (u.die k.die).hk.inj.length + k.w 4 ≤ 4 →
      (u.die k.die).clk.gHk = false →
      (u.die k.die).clk.gDie = false →
      Completes (.hkInject k) s (fun t => (t.die k.die).hk.injOps = (u.die k.die).hk.injOps ++ [(k, u.stroke k.die)] ∧
        (t.die k.die).hk.inj = (u.die k.die).hk.inj ++ (List.range (k.w 4)).map (fun i => (bits (k.w 5) (8 * i + 4) (8 * i), false)) ∧ (t.die k.die).active = (u.die k.die).active)) ∧
  (∀ (s u : State) (k : Packet),
      takes0 s u k 0x0903 = true →
      (u.die k.die).hk.cal = 0 →
      (u.die k.die).clk.gHk = false →
      (u.die k.die).clk.gDie = false →
      Completes (.hkCalibrate k) s (fun t => (t.die k.die).hk.calOp = some (k, u.stroke k.die) ∧ (t.die k.die).hk.calAfter = (u.die k.die).hk.inj.length ∧ (t.die k.die).hk.cal ≠ 0)) ∧
  (∀ (s u : State) (k : Packet),
      takes0 s u k 0x0903 = true →
      (u.die k.die).hk.cal ≠ 0 →
      Answers (.hkCalibrate k) s k 0x0903 stBusy 0 [] (fun w => w = u)) ∧
  (∀ (s u : State) (k : Packet),
      takes s u k 0x0904 = true →
      k.target.toNat < 8 →
      k.w 5 < 2 ^ 19 →
      k.w 5 % 65536 ≤ k.w 4 % 65536 →
      Completes (.pwmSet k) s (fun t => StagesAndWaits u t k 0x0904 5
        [(oPwm k.target.toNat 0, BitVec.ofNat 16 (bits (k.w 5) 18 16)), (oPwm k.target.toNat 1, BitVec.ofNat 16 (k.w 4)),
         (oPwm k.target.toNat 2, BitVec.ofNat 16 (k.w 4 / 65536)), (oPwm k.target.toNat 3, BitVec.ofNat 16 (k.w 5))] k.target.toNat)) ∧
  (∀ (s : State) (d : DieId) (code : BitVec 12) (i : Nat) (f : Bool) (l : List (Nat × Bool)) (k : Packet × Nat) (m : List (Packet × Nat)),
      up s d = true →
      (s.die d).hk.conv = 1 →
      (s.die d).hk.inj = (i, f) :: l →
      (s.die d).hk.injOps = k :: m →
      (s.die d).hk.injDone.length + 1 < injCount k.1 →
      Completes (.hkConversionEnd d code) s (fun t => (t.die d).hk.inj = l ∧ (t.die d).hk.pwm = (s.die d).hk.pwm ∧ (t.die d).hk.load = (s.die d).hk.load ∧ (t.die d).active = (s.die d).active ∧ (t.die d).staged = (s.die d).staged)) ∧
  (∀ (s : State) (d : DieId) (n : Fin 2),
      up s d = true →
      s.pos < 1160 →
      seqEn ((s.die d).act (oSeqCfg n.val)) = true →
      seqTrig ((s.die d).act (oSeqCfg n.val)) = 1 →
      ((s.die d).act (oSeqN n.val)).toNat ≠ 0 →
      s.stroke d % ((s.die d).act (oSeqN n.val)).toNat = 0 →
      (s.die d).stroke.hkOvr = false →
      (s.die d).clk.gHk = false →
      ((s.die d).hk.seq n.val).state = 0 →
      ((s.die d).hk.seq n.val).trigAt ≠ s.stroke d + 1 →
      Completes (.hkStrokeTrigger d n false) s (fun t => ((t.die d).hk.seq n.val).trigAt = s.stroke d + 1 ∧ (t.die d).hk.pwm = (s.die d).hk.pwm ∧ (t.die d).hk.load = (s.die d).hk.load ∧ (t.die d).active = (s.die d).active ∧ (t.die d).staged = (s.die d).staged)) ∧
  (∀ (s : State) (d : DieId) (c : Fin 8) (rising : Bool) (n : Fin 2),
      up s d = true →
      seqEn ((s.die d).act (oSeqCfg n.val)) = true →
      seqTrig ((s.die d).act (oSeqCfg n.val)) = 2 →
      seqCh ((s.die d).act (oSeqCfg n.val)) = c.val →
      seqFall ((s.die d).act (oSeqCfg n.val)) ≠ rising →
      ((s.die d).clk.gHk = false ∧ (s.die d).clk.gDie = false) →
      ((s.die d).hk.seq n.val).delay = false →
      Completes (.hkPwmEdge d c rising) s (fun t => ((t.die d).hk.seq n.val).delay = true ∧ (t.die d).hk.pwm = (s.die d).hk.pwm ∧ (t.die d).hk.load = (s.die d).hk.load ∧ (t.die d).active = (s.die d).active ∧ (t.die d).staged = (s.die d).staged)) ∧
  (∀ (s : State) (d : DieId) (n : Fin 2),
      up s d = true →
      ((s.die d).hk.seq n.val).delay = true →
      ((s.die d).clk.gHk = false ∧ (s.die d).clk.gDie = false) →
      ((s.die d).hk.seq n.val).delayAt + 2 * ((s.die d).act (oSeqDly n.val)).toNat ≤ s.stamp d →
      ((s.die d).hk.seq n.val).state = 0 →
      Completes (.hkDelayEnd d n) s (fun t => ((t.die d).hk.seq n.val).delay = false ∧ (t.die d).hk.pwm = (s.die d).hk.pwm ∧ (t.die d).hk.load = (s.die d).hk.load ∧ (t.die d).active = (s.die d).active ∧ (t.die d).staged = (s.die d).staged)) ∧
  (∀ (s : State) (d : DieId) (n : Fin 2),
      up s d = true →
      seqEn ((s.die d).act (oSeqCfg n.val)) = true →
      (((s.die d).hk.seq n.val).state = 1 ∨ (2 ≤ ((s.die d).hk.seq n.val).state ∧ ((s.die d).hk.seq n.val).pend = true)) →
      ((s.die d).hk.seq n.val).told = false →
      Completes (.overrun d n) s (fun t => ((t.die d).hk.seq n.val).dropped = true ∧ (t.die d).hk.pwm = (s.die d).hk.pwm ∧ (t.die d).hk.load = (s.die d).hk.load ∧ (t.die d).active = (s.die d).active ∧ (t.die d).staged = (s.die d).staged)) ∧
  (∀ (s : State) (d : DieId),
      up s d = true →
      (s.die d).hk.cal = 2 →
      (s.die d).hk.calRes.length = 96 →
      Completes (.calDone d) s (fun t => (t.die d).hk.cal = 0 ∧ (t.die d).hk.pwm = (s.die d).hk.pwm ∧ (t.die d).hk.load = (s.die d).hk.load ∧ (t.die d).active = (s.die d).active ∧ (t.die d).staged = (s.die d).staged)) ∧
  (∀ (s : State) (d : DieId) (rp : BitVec 13),
      up s d = true →
      (rp.toNat + 8192 - (s.die d).hk.rp) % 8192 ≤ (s.die d).hk.count →
      Completes (.hkRpWrite d rp) s (fun t => (t.die d).hk.rp = rp.toNat ∧ (t.die d).hk.pwm = (s.die d).hk.pwm ∧ (t.die d).hk.load = (s.die d).hk.load ∧ (t.die d).active = (s.die d).active ∧ (t.die d).staged = (s.die d).staged)) ∧
  (∀ (s : State) (d : DieId) (m : Byte),
      up s d = true →
      (s.die d).hk.trip = false →
      m ≠ 0 →
      Completes (.tempCritical d m) s (fun t => (t.die d).hk.trip = true ∧ (t.die d).hk.pwm = (s.die d).hk.pwm ∧ (t.die d).hk.load = (s.die d).hk.load ∧ (t.die d).active = (s.die d).active ∧ (t.die d).staged = (s.die d).staged)) ∧
  (∀ (s : State) (d : DieId),
      up s d = true →
      (s.die d).hk.trip = true →
      Completes (.tempCritCleared d) s (fun t => (t.die d).hk.trip = false ∧ (t.die d).hk.pwm = (s.die d).hk.pwm ∧ (t.die d).hk.load = (s.die d).hk.load ∧ (t.die d).active = (s.die d).active ∧ (t.die d).staged = (s.die d).staged))

/-- Each row completes. TWI_TRANSFER and MODULE_IDENTIFY take their port, wait for a free bus, and run until it ends them; a
port that has a transfer answers BUSY, one that is disabled REFUSED_NOT_READY. A lost arbitration is posted, and retried at
the next free bus while retries are left and no data byte was acknowledged; a bus clear that is due is posted with its
pulses, and one that fails leaves the bus stuck. A long stretch, a bus error and the final STOP end the transfer, and the
port keeps the result, PEC_ERROR after a wrong PEC byte; its bus is free only after the STOP. The rows of a target port do
what they name and leave the controller ports of the die alone. (R367, R368, R369, R370, R371, R372, R373) -/
def Obligations.ControllerPorts : Prop :=
  (∀ (s u : State) (k : Packet),
      takes s u k 0x0E01 = true →
      k.target.toNat < 2 →
      twiParamsOk k = true →
      (u.die k.die).mcEn k.target.toNat = true →
      (u.die k.die).busy 5 k.target.toNat = false →
      (u.die k.die).peg.ops.length < 64 →
      Completes (.twiTransfer k) s (fun t => runsOp t k 0x0E01 5 k.target.toNat = true ∧
        (t.die k.die).twi.port k.target.toNat = { (u.die k.die).twi.port k.target.toNat with retries := 0, cleared := false, acked := 0, got := [], low := 0 })) ∧
  (∀ (s u : State) (k : Packet),
      takes s u k 0x0E01 = true →
      k.target.toNat < 2 →
      twiParamsOk k = true →
      (u.die k.die).mcEn k.target.toNat = true →
      (u.die k.die).busy 5 k.target.toNat = true →
      Answers (.twiTransfer k) s k 0x0E01 stBusy 0 [] (fun w => w = u)) ∧
  (∀ (s u : State) (k : Packet),
      takes s u k 0x0E01 = true →
      k.target.toNat < 2 →
      twiParamsOk k = true →
      (u.die k.die).mcEn k.target.toNat = false →
      Answers (.twiTransfer k) s k 0x0E01 stNotReady 0 [] (fun w => w = u)) ∧
  (∀ (s u : State) (k : Packet),
      takes s u k 0x0E02 = true →
      k.target.toNat < 2 →
      k.w 4 < 128 →
      (u.die k.die).mcEn k.target.toNat = true →
      (u.die k.die).busy 5 k.target.toNat = false →
      (u.die k.die).peg.ops.length < 64 →
      Completes (.moduleIdentify k) s (fun t => runsOp t k 0x0E02 5 k.target.toNat = true ∧
        (t.die k.die).twi.port k.target.toNat = { (u.die k.die).twi.port k.target.toNat with retries := 0, cleared := false, acked := 0, got := [], low := 0 })) ∧
  (∀ (s : State) (d : DieId) (m : McId) (acked : Byte) (o : Op),
      up s d = true →
      (s.die d).mcRuns m.val = some o →
      (acked = 0 ∧ o.cancel = false) →
      ((s.die d).twi.port m.val).retries < (s.die d).twiRetry m.val o.opcode o.packet →
      Completes (.arbLost d m acked []) s (fun t => ((t.die d).twi.port m.val) = { ((s.die d).twi.port m.val) with retries := ((s.die d).twi.port m.val).retries + 1, active := false, free := false, high := 0, acked := 0, got := [] } ∧
        t = (((s.count d (cMc m.val 8)).post d (393 + m.val) 0x01 (twiAddr o.opcode o.packet + 256 * ((s.die d).twi.port m.val).retries + 1024)).onMc d m.val
          (fun v => { v with retries := v.retries + 1, active := false, free := false, high := 0, acked := 0, got := [] })).onDie d
          (fun x => x.mapOps (fun z => z.is o.origin o.queue o.tag) (fun z => { z with phase := 0 })))) ∧
  (∀ (s : State) (d : DieId) (m : McId) (acked : Byte) (data : List Byte) (o : Op),
      up s d = true →
      (s.die d).mcRuns m.val = some o →
      ((s.die d).twi.port m.val).active = true →
      Completes (.stretchTimeout d m acked data) s (fun t =>
        t = (((s.count d (cMc m.val 0xC)).post d (393 + m.val) 0x02 (twiAddr o.opcode o.packet + 256 * (s.die d).mcStretch m.val)).onMc d m.val (fun v => { v with scl := false })).twiFinish d m.val o 4 stTimeout acked.toNat data false ∧
        ((t.die d).twi.port m.val).active = false ∧ ((t.die d).twi.port m.val).free = false ∧ ((t.die d).twi.port m.val).scl = false ∧ ((t.die d).twi.port m.val).last = 4 ∧ ((t.die d).twi.port m.val).check = true)) ∧
  (∀ (s : State) (d : DieId) (m : McId) (pulses : Fin 10),
      up s d = true →
      (s.die d).mcEn m.val = true →
      (s.die d).clearDue m.val = true →
      Posts (.busClear d m pulses true) s d (393 + m.val) 0x04 pulses.val (fun u =>
        ((u.die d).twi.port m.val) = { ((s.die d).twi.port m.val) with sda := true, stuck := false, check := false, cleared := true, free := true })) ∧
  (∀ (s : State) (d : DieId) (m : McId),
      up s d = true →
      (s.die d).mcEn m.val = true →
      (s.die d).clearDue m.val = true →
      (s.die d).mcOp m.val = none →
      Posts (.busClear d m 9 false) s d (393 + m.val) 0x03 1 (fun u => ((u.die d).twi.port m.val).stuck = true ∧ ((u.die d).twi.port m.val).sda = false)) ∧
  (∀ (s : State) (d : DieId) (m : McId) (acked : Byte) (data : List Byte) (o : Op),
      up s d = true →
      (s.die d).mcRuns m.val = some o →
      ((s.die d).twi.port m.val).active = true →
      Completes (.busError d m acked data) s (fun t =>
        t = ((s.count d (cMc m.val 0x18)).post d (393 + m.val) 0x05 (twiAddr o.opcode o.packet + 256 * acked.toNat)).twiFinish d m.val o 6 stIncomplete acked.toNat data false ∧
        ((t.die d).twi.port m.val).active = false ∧ ((t.die d).twi.port m.val).free = false ∧ ((t.die d).twi.port m.val).last = 6)) ∧
  (∀ (s : State) (d : DieId) (m : McId) (acked : Byte) (data : List Byte) (o : Op),
      up s d = true →
      (s.die d).mcRuns m.val = some o →
      o.cancel = false →
      (s.die d).pegRuns = true →
      o.lastProg.isSome = true →
      o.opcode = 0x0E01 →
      acked.toNat = twiWlen o.packet →
      twiRlen o.packet ≤ data.length →
      twiPecOk o.packet data = true →
      Completes (.twiTransferEnd d m 0 acked data) s (fun t => ((t.die d).twi.port m.val).active = false ∧ ((t.die d).twi.port m.val).free = true ∧ ((t.die d).twi.port m.val).last = 0 ∧ ((t.die d).twi.port m.val).stuck = false ∧
        t = (s.onMc d m.val (fun v => { v with stuck := false, scl := true, sda := true, check := false, active := false, free := true, high := 0, last := 0 })).endOp d
          { o with position := acked.toNat + twiRlen o.packet } stDone (if acked = 0 then 0 else 1)
          ([256 * acked.toNat + 65536 * twiRlen o.packet + 2 ^ 24 * ((s.die d).twi.port m.val).retries + 2 ^ 26 * b2n ((s.die d).twi.port m.val).cleared, s.stroke d - o.from_]
            ++ packBytes (data.take (twiRlen o.packet))))) ∧
  (∀ (s : State) (d : DieId) (m : McId) (acked : Byte) (data : List Byte) (o : Op),
      up s d = true →
      (s.die d).mcRuns m.val = some o →
      o.cancel = false →
      o.opcode = 0x0E01 →
      twiPecOk o.packet data = false →
      Completes (.twiTransferEnd d m 0 acked data) s (fun t => ((t.die d).twi.port m.val).active = false ∧ ((t.die d).twi.port m.val).free = true ∧ ((t.die d).twi.port m.val).last = 7)) ∧
  (∀ (s : State) (d : DieId) (m : McId) (result : Fin 8) (acked : Byte) (data : List Byte),
      (s.die d).mcRuns m.val = none →
      Completes (.twiTransferEnd d m result acked data) s (fun t => t = s)) ∧
  (∀ (s : State) (e : AccessId) (l : List Byte) (x w : Word),
      l = [(s.die (accessDie s.part e)).twi.addrByte false, x.extractLsb' 24 8, x.extractLsb' 16 8, x.extractLsb' 8 8, x.extractLsb' 0 8, w.extractLsb' 24 8, w.extractLsb' 16 8, w.extractLsb' 8 8, w.extractLsb' 0 8] →
      s.running = true →
      (s.die (accessDie s.part e)).twi.occupied = false →
      frameOk x = true →
      frameSpace x = 0 →
      windowDie (frameOff x) ≠ (accessDie s.part e) →
      present s.part (windowDie (frameOff x)) = true →
      Completes (.twiWriteFrame e (l ++ [pec l])) s (fun t => (t.die (accessDie s.part e)).twi.occupied = true ∧ (∀ m : McId, (t.die (accessDie s.part e)).twi.port m.val = (s.die (accessDie s.part e)).twi.port m.val) ∧ (t.die (accessDie s.part e)).active = (s.die (accessDie s.part e)).active ∧ (t.die (accessDie s.part e)).twi.addr = (s.die (accessDie s.part e)).twi.addr)) ∧
  (∀ (s : State) (e : AccessId) (l : List Byte) (x : Word) (sel : RegSel),
      l = [(s.die (accessDie s.part e)).twi.addrByte false, x.extractLsb' 24 8, x.extractLsb' 16 8, x.extractLsb' 8 8, x.extractLsb' 0 8, (s.die (accessDie s.part e)).twi.addrByte true] →
      s.running = true →
      (s.die (accessDie s.part e)).twi.occupied = false →
      (s.die (accessDie s.part e)).twi.read = none →
      frameOk x = true →
      frameSpace x = 0 →
      windowDie (frameOff x) = (accessDie s.part e) →
      present s.part (accessDie s.part e) = true →
      s.busRegister true (accessDie s.part e) (windowOff (frameOff x)) = some sel →
      Completes (.twiReadFrame e l) s (fun t => (t.die (accessDie s.part e)).twi.ready = true ∧ (∀ m : McId, (t.die (accessDie s.part e)).twi.port m.val = (s.die (accessDie s.part e)).twi.port m.val) ∧ (t.die (accessDie s.part e)).active = (s.die (accessDie s.part e)).active ∧ (t.die (accessDie s.part e)).twi.addr = (s.die (accessDie s.part e)).twi.addr)) ∧
  (∀ (s : State) (e : AccessId),
      s.running = true →
      (s.die (accessDie s.part e)).twi.wres ≠ 4 →
      Completes (.twiWriteBufEmpty e) s (fun t => (t.die (accessDie s.part e)).twi.wbuf = none ∧ (∀ m : McId, (t.die (accessDie s.part e)).twi.port m.val = (s.die (accessDie s.part e)).twi.port m.val) ∧ (t.die (accessDie s.part e)).active = (s.die (accessDie s.part e)).active ∧ (t.die (accessDie s.part e)).twi.addr = (s.die (accessDie s.part e)).twi.addr)) ∧
  (∀ (s : State) (e : AccessId),
      s.running = true →
      (s.die (accessDie s.part e)).twi.occupied = true →
      Completes (.twiBusyNack e) s (fun t => (t.die (accessDie s.part e)).twi = (s.die (accessDie s.part e)).twi ∧ (∀ m : McId, (t.die (accessDie s.part e)).twi.port m.val = (s.die (accessDie s.part e)).twi.port m.val) ∧ (t.die (accessDie s.part e)).active = (s.die (accessDie s.part e)).active ∧ (t.die (accessDie s.part e)).twi.addr = (s.die (accessDie s.part e)).twi.addr)) ∧
  (∀ (s : State) (e : AccessId),
      s.running = true →
      (s.die (accessDie s.part e)).twi.read.isSome = true →
      Completes (.twiReadNotReady e) s (fun t => (t.die (accessDie s.part e)).twi.read = none ∧ (∀ m : McId, (t.die (accessDie s.part e)).twi.port m.val = (s.die (accessDie s.part e)).twi.port m.val) ∧ (t.die (accessDie s.part e)).active = (s.die (accessDie s.part e)).active ∧ (t.die (accessDie s.part e)).twi.addr = (s.die (accessDie s.part e)).twi.addr)) ∧
  (∀ (s : State) (e : AccessId),
      s.running = true →
      Completes (.twiStartInAck e) s (fun t => (t.die (accessDie s.part e)).twi = (s.die (accessDie s.part e)).twi ∧ (∀ m : McId, (t.die (accessDie s.part e)).twi.port m.val = (s.die (accessDie s.part e)).twi.port m.val) ∧ (t.die (accessDie s.part e)).active = (s.die (accessDie s.part e)).active ∧ (t.die (accessDie s.part e)).twi.addr = (s.die (accessDie s.part e)).twi.addr)) ∧
  (∀ (s : State) (e : AccessId) (frame : Bool),
      s.running = true →
      fld ((s.die (accessDie s.part e)).act oTcfg) 1 1 = 1 →
      (s.die (accessDie s.part e)).twi.read.isSome = true →
      Completes (.targetTimeout e frame false) s (fun t => (t.die (accessDie s.part e)).twi.read = none ∧ (∀ m : McId, (t.die (accessDie s.part e)).twi.port m.val = (s.die (accessDie s.part e)).twi.port m.val) ∧ (t.die (accessDie s.part e)).active = (s.die (accessDie s.part e)).active ∧ (t.die (accessDie s.part e)).twi.addr = (s.die (accessDie s.part e)).twi.addr)) ∧
  (∀ (s : State) (e : AccessId),
      s.running = true →
      (s.die (accessDie s.part e)).alert = true →
      fld ((s.die (accessDie s.part e)).act oTcfg) 0 0 = 1 →
      Completes (.alertResponse e true) s (fun t => (t.die (accessDie s.part e)).alert = false ∧ (∀ m : McId, (t.die (accessDie s.part e)).twi.port m.val = (s.die (accessDie s.part e)).twi.port m.val) ∧ (t.die (accessDie s.part e)).active = (s.die (accessDie s.part e)).active ∧ (t.die (accessDie s.part e)).twi.addr = (s.die (accessDie s.part e)).twi.addr)) ∧
  (∀ (s : State) (e : AccessId),
      s.running = true →
      (s.die (accessDie s.part e)).evt.relAlert = true →
      (s.die (accessDie s.part e)).evt.relAt < s.stroke (accessDie s.part e) →
      Completes (.alertRedrive e) s (fun t => (t.die (accessDie s.part e)).evt.relAlert = false ∧ (∀ m : McId, (t.die (accessDie s.part e)).twi.port m.val = (s.die (accessDie s.part e)).twi.port m.val) ∧ (t.die (accessDie s.part e)).active = (s.die (accessDie s.part e)).active ∧ (t.die (accessDie s.part e)).twi.addr = (s.die (accessDie s.part e)).twi.addr))

/-- LIVE_COPY latches every counter of the live region. CNT_SNAPSHOT fixes its range and the boundary that takes it. The end of
a meter's window writes its four words, from the blocks that came, and starts the next; a tagged codeword adds one to its
bin, which saturates, another nothing; a profiling sample, every 2^m cycles since profiling began, goes to the ring of 4,096
and moves its pointer on. A TAG_CONFIG with its fields in range, on a port that has what it configures or on a die for
profiling, waits for the next boundary; a port without FEC or blocks is REFUSED_NOT_READY, and fields out of range are
BAD_PARAM. (R403, R407, R409, R410, R411, R412, R414, R415, R416, R418, R419) -/
def Obligations.Telemetry : Prop :=
  (∀ (s : State) (d : DieId),
      up s d = true →
      s.fretOpen d 21 24 = true →
      (s.die d).stroke.pegOvr = false →
      Completes (.liveCopy d) s (fun t => (t.die d).tele.latch = some ((s.toFret 21).die d).liveImage)) ∧
  (∀ (s : State) (d : DieId),
      up s d = true →
      s.fretOpen d 21 24 = true →
      (s.die d).stroke.pegOvr = true →
      Completes (.liveCopy d) s (fun t => (t.die d).tele.latch = (s.die d).tele.latch)) ∧
  (∀ (s u : State) (k : Packet),
      takes0 s u k 0x0B01 = true →
      k.w 4 < 65536 →
      1 ≤ k.w 5 →
      k.w 5 ≤ 3068 →
      4 * (k.w 4 + k.w 5) ≤ 0xD000 →
      (u.die k.die).snapWaits = false →
      Completes (.cntSnapshot k) s (fun t => (t.die k.die).tele.snapAt = some (u.stroke k.die + 1) ∧ (t.die k.die).tele.snapReq = (k.w 4, k.w 5) ∧
        ⟨k, 0x0B01, u.stroke k.die + 1, 2 ^ k.die.val, u.stroke k.die⟩ ∈ (t.die k.die).peg.awaits ∧ (t.die k.die).tele.snapVals = (u.die k.die).tele.snapVals)) ∧
  (∀ (s u : State) (k : Packet),
      takes0 s u k 0x0B01 = true →
      (0xD000 < 4 * (k.w 4 % 65536 + k.w 5) ∨ k.w 5 = 0) →
      Answers (.cntSnapshot k) s k 0x0B01 stBadParam 0 [] (fun w => w = u)) ∧
  (∀ (s : State) (p : PortId) (dir : Side) (k : Nat) (l : List (MBlock × Word)),
      up s p.die = true →
      ((s.port p).dir dir).metEn = true →
      (s.port p).carrying = true →
      ((s.port p).dir dir).metW ≠ 0 →
      (s.stroke p.die - ((s.port p).dir dir).metFrom) % ((s.port p).dir dir).metW = 0 →
      k < (s.stroke p.die - ((s.port p).dir dir).metFrom) / ((s.port p).dir dir).metW →
      k + 1 = (s.stroke p.die - ((s.port p).dir dir).metFrom) / ((s.port p).dir dir).metW →
      ((s.port p).dir dir).metWin ≤ k →
      Completes (.meterWindowEnd p dir l) s (fun t =>
        ((t.port p).dir dir).metVals = [(meterSum (rate ((s.die p.die).cfga p.key) == 3) l).1 % 2 ^ 32, (meterSum (rate ((s.die p.die).cfga p.key) == 3) l).2 % 2 ^ 32, k % 2 ^ 32, 1 + 2 * b2n (((s.port p).dir dir).metLow || !s.dirLocked p dir || decide (s.stroke p.die - ((s.port p).dir dir).metW < (s.die p.die).tele.lowAt))] ∧
        ((t.port p).dir dir).metWin = k + 1 ∧ ((t.port p).dir dir).metLow = !s.dirLocked p dir)) ∧
  (∀ (s : State) (p : PortId) (dir : Side) (k : Nat) (a b : Word) (x y : Bool × BitVec 64),
      up s p.die = true →
      ((s.port p).dir dir).metEn = true →
      (s.port p).carrying = true →
      ((s.port p).dir dir).metW ≠ 0 →
      (s.stroke p.die - ((s.port p).dir dir).metFrom) % ((s.port p).dir dir).metW = 0 →
      k < (s.stroke p.die - ((s.port p).dir dir).metFrom) / ((s.port p).dir dir).metW →
      k + 1 = (s.stroke p.die - ((s.port p).dir dir).metFrom) / ((s.port p).dir dir).metW →
      ((s.port p).dir dir).metWin ≤ k →
      rate ((s.die p.die).cfga p.key) ≠ 3 →
      isIdle x = true →
      isIdle y = false →
      Completes (.meterWindowEnd p dir [(.data257, a), (.mixed257 x y x y, b)]) s (fun t =>
        ((t.port p).dir dir).metVals = [(4 * a.toNat + 2 * b.toNat) % 2 ^ 32, (4 * a.toNat + 4 * b.toNat) % 2 ^ 32, k % 2 ^ 32, 1 + 2 * b2n (((s.port p).dir dir).metLow || !s.dirLocked p dir || decide (s.stroke p.die - ((s.port p).dir dir).metW < (s.die p.die).tele.lowAt))])) ∧
  (∀ (s : State) (p : PortId) (dir : Side) (n : BitVec 16) (tp : TagPoints),
      up s p.die = true →
      ((s.port p).dir dir).tagEn = true →
      ((s.port p).dir dir).fecLock = true →
      ((s.port p).dir dir).tagSeen < n.toNat →
      ((s.port p).dir dir).tags n.toNat = true →
      hasFec ((s.die p.die).cfga p.key) = true →
      (s.port p).carrying = true →
      Completes (.taggedSample p dir n tp) s (fun t =>
        let b := tagBin (tagInterval tp ((s.port p).dir dir).tagSeg) (tagBaseOf ((s.port p).dir dir).tagBase (pipeline ((s.die p.die).cfga p.key) dir))
        SMap.get 0 ((t.port p).dir dir).hist b = min (SMap.get 0 ((s.port p).dir dir).hist b + 1) 0xFFFFFFFF ∧ (∀ i, i ≠ b → SMap.get 0 ((t.port p).dir dir).hist i = SMap.get 0 ((s.port p).dir dir).hist i) ∧ ((t.port p).dir dir).tagSeen = n.toNat)) ∧
  (∀ (s : State) (p : PortId) (dir : Side) (n : BitVec 16) (tp : TagPoints),
      ((s.port p).dir dir).tags n.toNat = false →
      Completes (.taggedSample p dir n tp) s (fun t => t = s)) ∧
  (∀ (s : State) (d : DieId) (pc : Word) (n : Nat),
      up s d = true →
      (s.die d).tele.profRun = true →
      (s.die d).pegRuns = true →
      n = (s.die d).tele.nextSample (s.stroke d * 1280 + s.pos) →
      s.stroke d * 1280 + s.pos ≤ n →
      n < (s.stroke d + 1) * 1280 →
      Completes (.profileSample d pc) s (fun t => (t.die d).tele.profWp = ((s.die d).tele.profWp + 1) % 4096 ∧ (t.die d).tele.profLast = n ∧
        SMap.get 0 (t.die d).tele.profBuf (s.die d).tele.profWp = pc.toNat + 2 ^ 32 * (s.stroke d % 2 ^ 27 + 2 ^ 27 * ((n - s.stroke d * 1280) / 40)) ∧
        ∀ i, i ≠ (s.die d).tele.profWp → SMap.get 0 (t.die d).tele.profBuf i = SMap.get 0 (s.die d).tele.profBuf i)) ∧
  (∀ (s u : State) (k : Packet) (p : PortId),
      takesPort s u k 0x0B02 p = true →
      k.w 4 % 4 = 0 →
      tagParamsOk 0 (k.w 4) (k.w 5) = true →
      hasFec ((u.die p.die).cfga p.key) = true →
      Completes (.tagTagging k) s (fun t => ⟨k, 0x0B02, u.stroke k.die + 1, 0, u.stroke k.die⟩ ∈ (t.die k.die).peg.awaits ∧ (∀ q : PortId, t.port q = u.port q) ∧ (t.die k.die).tele = (u.die k.die).tele)) ∧
  (∀ (s u : State) (k : Packet) (p : PortId),
      takesPort s u k 0x0B02 p = true →
      k.w 4 % 4 = 0 →
      tagParamsOk 0 (k.w 4) (k.w 5) = true →
      hasFec ((u.die p.die).cfga p.key) = false →
      Answers (.tagTagging k) s k 0x0B02 stNotReady 0 [] (fun w => w = u)) ∧
  (∀ (s u : State) (k : Packet) (p : PortId),
      takesPort s u k 0x0B02 p = true →
      k.w 4 % 4 = 0 →
      bit (k.w 4) 2 = true →
      k.w 5 = 0 →
      Answers (.tagTagging k) s k 0x0B02 stBadParam 0 [] (fun w => w = u)) ∧
  (∀ (s u : State) (k : Packet) (p : PortId),
      takesPort s u k 0x0B02 p = true →
      k.w 4 % 4 = 1 →
      tagParamsOk 1 (k.w 4) (k.w 5) = true →
      hasMeter ((u.die p.die).cfga p.key) = true →
      Completes (.tagMeter k) s (fun t => ⟨k, 0x0B02, u.stroke k.die + 1, 0, u.stroke k.die⟩ ∈ (t.die k.die).peg.awaits ∧ (∀ q : PortId, t.port q = u.port q) ∧ (t.die k.die).tele = (u.die k.die).tele)) ∧
  (∀ (s u : State) (k : Packet),
      takes0 s u k 0x0B02 = true →
      k.w 4 % 4 = 2 →
      tagParamsOk 2 (k.w 4) (k.w 5) = true →
      Completes (.tagProfiling k) s (fun t => ⟨k, 0x0B02, u.stroke k.die + 1, 0, u.stroke k.die⟩ ∈ (t.die k.die).peg.awaits ∧ (∀ q : PortId, t.port q = u.port q) ∧ (t.die k.die).tele = (u.die k.die).tele))

/-- BIST_RUN starts its test: a live slice is displaced by a handover first, any other target is isolated at once and tested. A
checkpoint, in frets 25 to 27 while they are enabled, adds the work of its slice, at most what a slice may hold; a cancelled
test ends there with part of its work done, one without its frets waits, and a slice that a handover waits for is given up.
A deadline-class request aborts the slice in progress, which is posted. A test that ends writes its result into the ring of
64 and serves again; a failed slice is retired. REPAIR_SOFT, REPAIR_FUSE and the programming of a fuse write no result.
(R420, R421, R422, R423, R425, R427, R428, R429, R434) -/
def Obligations.SelfTests : Prop :=
  (∀ (s u : State) (k : Packet) (n : Nat),
      takes s u k 0x0C01 = true →
      n = k.w 4 % 256 →
      1 ≤ n →
      n ≤ 9 →
      k.w 4 < 1024 →
      k.w 5 < 2 ^ 24 →
      (n ≠ 2 → k.w 5 = 0) →
      u.testTargetOk k n = true →
      u.testDenied k.die n k.target.toNat = none →
      (u.die k.die).peg.ops.length < 64 →
      (n = 1 → (u.die k.die).testLive k.target.toNat = false) →
      Completes (.bistRun k) s (fun t => runsOp t k 0x0C01 6 (n * 65536 + k.target.toNat) = true ∧
        ({ tag := k.tag, test := n, target := k.target.toNat, packet := k, isol := n != 2 && n != 8, sliceAt := u.stroke k.die + 1 } : Test) ∈ (t.die k.die).bist.tests)) ∧
  (∀ (s u : State) (k : Packet) (pos : Nat),
      takes s u k 0x0C01 = true →
      k.w 4 % 256 = 1 →
      k.w 4 < 1024 →
      k.w 5 = 0 →
      u.testTargetOk k 1 = true →
      u.testDenied k.die 1 k.target.toNat = none →
      (u.die k.die).peg.ops.length < 64 →
      (u.die k.die).testLive k.target.toNat = true →
      (u.die k.die).posOf k.target.toNat = some pos →
      Completes (.bistRun k) s (fun t => runsOp t k 0x0C01 6 (65536 + k.target.toNat) = true ∧
        ({ tag := k.tag, test := 1, target := k.target.toNat, packet := k, isol := false, sliceAt := u.stroke k.die + 1 } : Test) ∈ (t.die k.die).bist.tests ∧
        let r := (t.die k.die).rot (sliceCourse k.target.toNat) (sliceSide k.target.toNat)
        r.want = 1 ∧ r.wantOwner = 6 ∧ r.wantPos = pos ∧ r.phase = 1)) ∧
  (∀ (s u : State) (k : Packet),
      takes s u k 0x0C01 = true →
      (k.w 4 % 256 = 0 ∨ 9 < k.w 4 % 256) →
      Answers (.bistRun k) s k 0x0C01 stBadParam 0 [] (fun w => w = u)) ∧
  (∀ (s : State) (d : DieId) (b : Test) (work : Nat),
      up s d = true →
      (s.die d).testOf b.tag = some b →
      b.isol = true →
      b.paused = false →
      (s.die d).clk.fresh 2 10 = false →
      b.copies = false →
      work ≤ b.sliceMax (s.stroke d) →
      ((s.die d).bistOn = true → s.pos < 1120) →
      (s.die d).testOp b = none →
      (b.test ≠ 1 ∧ b.test ≠ 5) →
      ((s.die d).bistOn = true ∨ testFree b.test = true) →
      Completes (.workSliceEnd d b.tag work) s (fun t => { b with done := b.done + work, sliceAt := s.stroke d + 1 } ∈ (t.die d).bist.tests ∧ (t.die d).bist.ring = (s.die d).bist.ring)) ∧
  (∀ (s : State) (d : DieId) (b : Test) (work : Nat),
      b.sliceMax (s.stroke d) < work →
      (s.die d).testOf b.tag = some b →
      Completes (.workSliceEnd d b.tag work) s (fun t => t = s)) ∧
  (∀ (s : State) (d : DieId) (b : Test) (work : Nat),
      up s d = true →
      (s.die d).testOf b.tag = some b →
      b.isol = true →
      b.paused = false →
      (s.die d).clk.fresh 2 10 = false →
      b.copies = false →
      work ≤ b.sliceMax (s.stroke d) →
      ((s.die d).bistOn = true → s.pos < 1120) →
      (s.die d).testOp b = none →
      b.test = 1 →
      ((s.die d).rot (sliceCourse b.target) (sliceSide b.target)).want = 1 →
      Completes (.workSliceEnd d b.tag work) s (fun t =>
        { b with done := b.done + work, sliceAt := s.stroke d + 1, isol := false, paused := true, susp := b.susp + 1 } ∈ (t.die d).bist.tests)) ∧
  (∀ (s : State) (d : DieId) (b : Test) (work : Nat) (o : Op),
      up s d = true →
      (s.die d).testOf b.tag = some b →
      b.isol = true →
      b.paused = false →
      (s.die d).clk.fresh 2 10 = false →
      b.copies = false →
      work ≤ b.sliceMax (s.stroke d) →
      ((s.die d).bistOn = true → s.pos < 1120) →
      (s.die d).testOp b = some o →
      o.cancel = true →
      Completes (.workSliceEnd d b.tag work) s (fun t => (SMap.get [] (t.die d).bist.ring (s.die d).bist.wp)[0]? = some (b.test + 512 + b.target * 65536) ∧
        (SMap.get [] (t.die d).bist.ring (s.die d).bist.wp)[2]? = some (b.done + work) ∧ (t.die d).bist.wp = ((s.die d).bist.wp + 1) % 64)) ∧
  (∀ (s : State) (d : DieId) (b : Test) (work : Nat),
      up s d = true →
      (s.die d).testOf b.tag = some b →
      b.isol = true →
      b.paused = false →
      (s.die d).clk.fresh 2 10 = false →
      b.copies = false →
      work ≤ b.sliceMax (s.stroke d) →
      ((s.die d).bistOn = true → s.pos < 1120) →
      (s.die d).testOp b = none →
      b.test ≠ 1 →
      ((s.die d).bistOn = false ∧ testFree b.test = false) →
      Completes (.workSliceEnd d b.tag work) s (fun t => { b with done := b.done + work, sliceAt := s.stroke d + 1, paused := true } ∈ (t.die d).bist.tests)) ∧
  (∀ (s : State) (d : DieId) (b : Test) (clock : Bool),
      up s d = true →
      (s.die d).testOf b.tag = some b →
      b.isol = true →
      b.paused = false →
      (clock = true → b.test = 7 ∧ ((s.die d).clk.failing = true ∨ (s.die d).clk.defer = true)) →
      (clock = false → b.test = 6 ∧ (s.die d).trainsNow (b.target % 64) = true) →
      Posts (.sliceAborted d b.tag clock) s d 424 0x02 (b.test + 256 * b2n clock) (fun u =>
        { b with isol := false, paused := true, susp := b.susp + 1 } ∈ (u.die d).bist.tests)) ∧
  (∀ (s : State) (d : DieId) (b : Test),
      up s d = true →
      (s.die d).testOf b.tag = some b →
      b.isol = true →
      b.paused = false →
      b.test = 1 →
      b.target < 152 →
      (s.die d).ports.any (fun p => p.1 / 8 == sliceCourse b.target && (s.die d).trainsNow p.1) = true →
      Completes (.sliceAborted d b.tag false) s (fun t => { b with isol := false, paused := true, susp := b.susp + 1 } ∈ (t.die d).bist.tests ∧
        ((t.die d).slice b.target).sd = false ∧ ((t.die d).slice b.target).corr = ((s.die d).slice b.target).stored)) ∧
  (∀ (s : State) (d : DieId) (b : Test) (sig loc : Word) (rep : Bool),
      up s d = true →
      (s.die d).testOf b.tag = some b →
      (s.die d).mayEnd b .pass sig.toNat = true →
      (b.test ≠ 2 ∧ b.test ≠ 8) →
      Completes (.testEnded d b.tag .pass sig loc rep) s (fun t => (SMap.get [] (t.die d).bist.ring (s.die d).bist.wp)[0]? = some (b.test + b.target * 65536) ∧
        (SMap.get [] (t.die d).bist.ring (s.die d).bist.wp)[2]? = some (testWork b) ∧ (SMap.get [] (t.die d).bist.ring (s.die d).bist.wp)[3]? = some sig.toNat ∧
        (t.die d).bist.wp = ((s.die d).bist.wp + 1) % 64 ∧ (t.die d).bist.count = min 64 ((s.die d).bist.count + 1) ∧ (t.die d).bist.retMac = (s.die d).bist.retMac)) ∧
  (∀ (s : State) (d : DieId) (b : Test) (sig loc : Word) (rep : Bool),
      up s d = true →
      (s.die d).testOf b.tag = some b →
      (s.die d).mayEnd b .fail sig.toNat = true →
      b.test = 1 →
      b.rep = 0 →
      b.target < 152 →
      Completes (.testEnded d b.tag .fail sig loc rep) s (fun t => ((t.die d).slice b.target).retired = true ∧
        (SMap.get [] (t.die d).bist.ring (s.die d).bist.wp)[0]? = some (1 + 256 + b.target * 65536) ∧ (t.die d).bist.wp = ((s.die d).bist.wp + 1) % 64)) ∧
  (∀ (s u : State) (k : Packet),
      takes s u k 0x0C03 = true →
      k.target.toNat < 65536 →
      macOk k.target.toNat = true →
      k.w 4 = 0xFF →
      k.w 5 < 2 ^ 17 →
      (u.die k.die).macroIsolated k.target.toNat = true →
      (u.die k.die).spareFree k.target.toNat (k.w 5) = true →
      (u.die k.die).peg.ops.length < 64 →
      Completes (.repairSoft k) s (fun t => (k.target.toNat, k.w 5) ∈ (t.die k.die).bist.soft ∧ (t.die k.die).bist.ring = (u.die k.die).bist.ring ∧ (t.die k.die).active = (u.die k.die).active)) ∧
  (∀ (s u : State) (k : Packet),
      takes s u k 0x0C04 = true →
      k.target.toNat < 65536 →
      macOk k.target.toNat = true →
      k.w 4 = Config.serial.toNat % 65536 ^^^ 0xA5A5 →
      (u.die k.die).bist.burnOf = [] →
      u.nvRepairs k.die k.target.toNat ≠ [] →
      (u.die k.die).bist.fuses + (u.nvRepairs k.die k.target.toNat).length ≤ 1024 →
      (u.die k.die).peg.ops.length < 64 →
      Completes (.repairFuse k) s (fun t => (t.die k.die).bist.burnOf = u.nvRepairs k.die k.target.toNat ∧ (t.die k.die).bist.ring = (u.die k.die).bist.ring ∧ (t.die k.die).active = (u.die k.die).active)) ∧
  (∀ (s : State) (d : DieId) (e : Nat × Nat) (l : List (Nat × Nat)) (o : Op),
      up s d = true →
      (s.die d).bist.burnOf = e :: l →
      (s.die d).fuseOp = some o →
      o.from_ + 40 * ((s.die d).bist.burnt + 1) ≤ s.stroke d →
      l ≠ [] →
      Completes (.fuseWritten d) s (fun t => (t.die d).bist.fuses = (s.die d).bist.fuses + 1 ∧ (t.die d).bist.ring = (s.die d).bist.ring ∧ (t.die d).active = (s.die d).active))

/-- REPAIR_SOFT maps the row or column of an isolated macro to a spare and repeats the macro's test; a macro in use is
REFUSED_IN_USE. REPAIR_FUSE programs the NV repair records of a macro, one entry every 40 strokes, and then deletes them; a
wrong key programs nothing. A FAIL whose macro has a spare is repaired by itself where repair is on. BIST_RUN, a checkpoint,
an aborted slice and BIST_RESULT leave the repairs as they were, and the commands of the nonvolatile store leave self-test
and repair as they were. (R430, R431, R432, R436, R437) -/
def Obligations.Repairs : Prop :=
  (∀ (s u : State) (k : Packet),
      takes s u k 0x0C03 = true →
      k.target.toNat < 65536 →
      macOk k.target.toNat = true →
      k.w 4 = 0xFF →
      k.w 5 < 2 ^ 17 →
      (u.die k.die).macroIsolated k.target.toNat = true →
      (u.die k.die).spareFree k.target.toNat (k.w 5) = true →
      (u.die k.die).peg.ops.length < 64 →
      Completes (.repairSoft k) s (fun t => runsOp t k 0x0C03 6 (0x1000000 + k.target.toNat) = true ∧ (k.target.toNat, k.w 5) ∈ (t.die k.die).bist.soft ∧
        ({ tag := k.tag, test := (macroTest k.target.toNat).1, target := (macroTest k.target.toNat).2, packet := k, rep := 1, isol := true, sliceAt := u.stroke k.die + 1 } : Test) ∈ (t.die k.die).bist.tests)) ∧
  (∀ (s u : State) (k : Packet),
      takes s u k 0x0C03 = true →
      k.target.toNat < 65536 →
      macOk k.target.toNat = true →
      k.w 4 = 0xFF →
      k.w 5 < 2 ^ 17 →
      (u.die k.die).macroIsolated k.target.toNat = false →
      Answers (.repairSoft k) s k 0x0C03 stInUse 0 [] (fun w => w = u)) ∧
  (∀ (s u : State) (k : Packet),
      takes s u k 0x0C04 = true →
      k.target.toNat < 65536 →
      macOk k.target.toNat = true →
      k.w 4 = Config.serial.toNat % 65536 ^^^ 0xA5A5 →
      (u.die k.die).bist.burnOf = [] →
      u.nvRepairs k.die k.target.toNat ≠ [] →
      (u.die k.die).bist.fuses + (u.nvRepairs k.die k.target.toNat).length ≤ 1024 →
      (u.die k.die).peg.ops.length < 64 →
      Completes (.repairFuse k) s (fun t => runsOp t k 0x0C04 6 (0x2000000 + k.target.toNat) = true ∧
        (t.die k.die).bist = { (u.die k.die).bist with burnOf := u.nvRepairs k.die k.target.toNat, burnt := 0 })) ∧
  (∀ (s u : State) (k : Packet),
      takes s u k 0x0C04 = true →
      k.target.toNat < 65536 →
      macOk k.target.toNat = true →
      k.w 4 ≠ Config.serial.toNat % 65536 ^^^ 0xA5A5 →
      Answers (.repairFuse k) s k 0x0C04 stBadParam 0 [] (fun w => w = u)) ∧
  (∀ (s : State) (d : DieId) (e : Nat × Nat) (l : List (Nat × Nat)) (o : Op),
      up s d = true →
      (s.die d).bist.burnOf = e :: l →
      (s.die d).fuseOp = some o →
      o.from_ + 40 * ((s.die d).bist.burnt + 1) ≤ s.stroke d →
      l ≠ [] →
      Posts (.fuseWritten d) s d 425 0x03 (e.1 + 65536 * ((s.die d).bist.fuses + 1)) (fun u =>
        (u.die d).bist = { (s.die d).bist with fuses := (s.die d).bist.fuses + 1, fuseMap := (s.die d).bist.fuseMap ++ [e], burnOf := l, burnt := (s.die d).bist.burnt + 1 })) ∧
  (∀ (s : State) (d : DieId) (e : Nat × Nat) (o : Op),
      up s d = true →
      (s.die d).bist.burnOf = e :: [] →
      (s.die d).fuseOp = some o →
      o.from_ + 40 * ((s.die d).bist.burnt + 1) ≤ s.stroke d →
      Completes (.fuseWritten d) s (fun t => (t.die d).bist.burnOf = [] ∧ (t.die d).bist.fuses = (s.die d).bist.fuses + 1 ∧ t.nvRepairs d e.1 = [] ∧
        t = ((((s.onDie d (fun x => { x with bist := { x.bist with fuses := x.bist.fuses + 1, fuseMap := x.bist.fuseMap ++ [e], burnOf := [], burnt := x.bist.burnt + 1 } })).count d
          (cBist + 0x18)).post d 425 0x03 (e.1 + 65536 * ((s.die d).bist.fuses + 1))).nvForget d e.1).conclude d o stDone 1 [(s.die d).bist.fuses + 1])) ∧
  (∀ (s : State) (d : DieId) (b : Test) (sig loc : Word),
      up s d = true →
      (s.die d).testOf b.tag = some b →
      (s.die d).mayEnd b .fail sig.toNat = true →
      testHasSpares b.test = true →
      b.rep = 0 →
      (s.die d).repairOn b = true →
      (s.die d).repairNv b = false →
      (s.die d).spareFree ((s.die d).testMacro b loc.toNat) ((s.die d).repairWhat ((s.die d).testMacro b loc.toNat) loc.toNat) = true →
      Completes (.testEnded d b.tag .fail sig loc true) s (fun t => ((s.die d).testMacro b loc.toNat, (s.die d).repairWhat ((s.die d).testMacro b loc.toNat) loc.toNat) ∈ (t.die d).bist.soft ∧
        (SMap.get [] (t.die d).bist.ring (s.die d).bist.wp)[0]? = some (b.test + b.target * 65536))) ∧
  (∀ (s u : State) (k : Packet) (n : Nat),
      takes s u k 0x0C01 = true →
      n = k.w 4 % 256 →
      1 ≤ n →
      n ≤ 9 →
      k.w 4 < 1024 →
      k.w 5 < 2 ^ 24 →
      (n ≠ 2 → k.w 5 = 0) →
      u.testTargetOk k n = true →
      u.testDenied k.die n k.target.toNat = none →
      (u.die k.die).peg.ops.length < 64 →
      (n = 1 → (u.die k.die).testLive k.target.toNat = false) →
      Completes (.bistRun k) s (fun t => runsOp t k 0x0C01 6 (n * 65536 + k.target.toNat) = true ∧ (t.die k.die).bist.soft = (u.die k.die).bist.soft ∧ (t.die k.die).bist.fuseMap = (u.die k.die).bist.fuseMap ∧ (t.die k.die).active = (u.die k.die).active)) ∧
  (∀ (s : State) (d : DieId) (b : Test) (work : Nat),
      up s d = true →
      (s.die d).testOf b.tag = some b →
      b.isol = true →
      b.paused = false →
      (s.die d).clk.fresh 2 10 = false →
      b.copies = false →
      work ≤ b.sliceMax (s.stroke d) →
      ((s.die d).bistOn = true → s.pos < 1120) →
      (s.die d).testOp b = none →
      (b.test ≠ 1 ∧ b.test ≠ 5) →
      ((s.die d).bistOn = true ∨ testFree b.test = true) →
      Completes (.workSliceEnd d b.tag work) s (fun t => (t.die d).bist.ring = (s.die d).bist.ring ∧ (t.die d).bist.soft = (s.die d).bist.soft ∧ (t.die d).bist.fuseMap = (s.die d).bist.fuseMap ∧ (t.die d).active = (s.die d).active)) ∧
  (∀ (s : State) (d : DieId) (b : Test) (clock : Bool),
      up s d = true →
      (s.die d).testOf b.tag = some b →
      b.isol = true →
      b.paused = false →
      (clock = true → b.test = 7 ∧ ((s.die d).clk.failing = true ∨ (s.die d).clk.defer = true)) →
      (clock = false → b.test = 6 ∧ (s.die d).trainsNow (b.target % 64) = true) →
      Completes (.sliceAborted d b.tag clock) s (fun t => (t.die d).bist.ring = (s.die d).bist.ring ∧ (t.die d).bist.soft = (s.die d).bist.soft ∧ (t.die d).bist.fuseMap = (s.die d).bist.fuseMap ∧ (t.die d).active = (s.die d).active)) ∧
  (∀ (s u : State) (k : Packet) (l : List Nat),
      takes0 s u k 0x0C02 = true →
      (k.w 4 < 64 ∨ k.w 4 = 0x7F) →
      l = SMap.get [] (u.die k.die).bist.ring (if k.w 4 = 0x7F then ((u.die k.die).bist.wp + 63) % 64 else k.w 4) →
      l ≠ [] →
      Completes (.bistResult k) s (fun t => (t.die k.die).bist.ring = (u.die k.die).bist.ring ∧ (t.die k.die).bist.soft = (u.die k.die).bist.soft ∧ (t.die k.die).bist.fuseMap = (u.die k.die).bist.fuseMap ∧ (t.die k.die).active = (u.die k.die).active)) ∧
  (∀ (s u : State) (k : Packet) (ecc : List EccResult),
      takes s u k 0x0801 = true →
      isAccess u.part k.die = true →
      k.target.toNat % 8 = 0 →
      1 ≤ k.w 4 →
      k.w 4 ≤ 30 →
      k.target.toNat + 8 * k.w 4 ≤ 0x200000 →
      ecc.all (fun e => e == .clean) = true →
      Completes (.nvRead k ecc) s (fun t => (t.die k.die).nv = (u.die k.die).nv ∧ (t.die k.die).bist = (u.die k.die).bist ∧ (t.die k.die).active = (u.die k.die).active)) ∧
  (∀ (s u : State) (k : Packet) (m : DieId),
      takes s u k 0x0802 = true →
      isAccess u.part k.die = true →
      k.target.toNat % 8 = 0 →
      1 ≤ k.w 4 →
      k.w 4 ≤ 29 →
      k.length.toNat = 5 + 2 * k.w 4 →
      nvWritable k.target.toNat (k.w 4) = true →
      m = u.nvMaster k.die →
      (List.range (k.w 4)).all (fun i => SMap.get 0 (u.die m).nvs.wear (nvBlock (k.target.toNat + 8 * i)) + k.w 4 ≤ wearLimit) = true →
      u.mirrorUp m (u.mirrorOf m) = true →
      Completes (.nvWrite k) s (fun t => (t.die m).nvWord k.target.toNat = k.w 5 + 2 ^ 32 * k.w 6 ∧ (t.die k.die).bist = (u.die k.die).bist ∧ (t.die k.die).active = (u.die k.die).active)) ∧
  (∀ (s u : State) (k : Packet) (m : DieId),
      takes s u k 0x0802 = true →
      isAccess u.part k.die = true →
      k.target.toNat % 8 = 0 →
      1 ≤ k.w 4 →
      k.w 4 ≤ 29 →
      k.length.toNat = 5 + 2 * k.w 4 →
      nvWritable k.target.toNat (k.w 4) = true →
      m = u.nvMaster k.die →
      s.nvWornAt (s.nvMaster k.die) k.target.toNat = true →
      u.nvWornAt m k.target.toNat = true →
      Completes (.nvWorn k) s (fun t => (t.die m).nv = (u.die m).nv ∧ (t.die k.die).bist = (u.die k.die).bist ∧ (t.die k.die).active = (u.die k.die).active)) ∧
  (∀ (s : State) (l : List Nat),
      s.running = true →
      l = (s.die 0).nvs.stale →
      l ≠ [] →
      (s.die 0).nvs.resync = true →
      s.mirrorUp 0 (otherAccess s.part) = true →
      (s.die (otherAccess s.part)).nvs.stale = [] →
      Memory.wf (s.die 0).nv = true →
      Completes (.mirrorResync) s (fun t => (t.die 0).nvs.stale = [] ∧ (t.die 0).bist = (s.die 0).bist ∧ (t.die 0).active = (s.die 0).active)) ∧
  (∀ (s u : State) (k : Packet) (off : Nat) (other : EccResult),
      takes s u k 0x0803 = true →
      calOffset u.part k.target.toNat = some off →
      isAccess u.part k.die = true →
      Completes (.calRead k .clean other) s (fun t => (t.die k.die).nv = (u.die k.die).nv ∧ (t.die k.die).bist = (u.die k.die).bist ∧ (t.die k.die).active = (u.die k.die).active)) ∧
  (∀ (s u : State) (k : Packet) (off : Nat) (m : DieId),
      takes s u k 0x0804 = true →
      calOffset u.part k.target.toNat = some off →
      isAccess u.part k.die = true →
      k.w 4 / 65536 = 0xCA1B →
      m = u.nvMaster k.die →
      u.nvWornAt m (off / 8 * 8) = false →
      Completes (.calWrite k) s (fun t => Memory.readLE (t.die m).nv off 4 = k.w 4 % 65536 ∧ (t.die k.die).bist = (u.die k.die).bist ∧ (t.die k.die).active = (u.die k.die).active))

/-- NV_READ answers the words it names; a corrected word is written back and posted, and a word lost in both mirrors makes the
command INCOMPLETE. NV_WRITE writes its words in both mirrors and no other byte; with the other mirror out of reach its
block is STALE, and MIRROR_RESYNC copies it later. A worn block is not written: NV_WORN. CAL_READ answers an entry, from the
other mirror when its own word is lost, and is INCOMPLETE when both are; CAL_WRITE replaces it and posts CAL_OVERWRITTEN,
the other entry of the word unchanged. JTAG_INSTRUCTION leaves the store alone. (R484, R485, R486, R487, R488, R490, R491) -/
def Obligations.NonvolatileStore : Prop :=
  (∀ (s u : State) (k : Packet) (ecc : List EccResult),
      takes s u k 0x0801 = true →
      isAccess u.part k.die = true →
      k.target.toNat % 8 = 0 →
      1 ≤ k.w 4 →
      k.w 4 ≤ 30 →
      k.target.toNat + 8 * k.w 4 ≤ 0x200000 →
      ecc.all (fun e => e == .clean) = true →
      Answers (.nvRead k ecc) s k 0x0801 stDone 3
        ((List.range (k.w 4)).flatMap (fun i => [(u.die k.die).nvWord (k.target.toNat + 8 * i) % 2 ^ 32, (u.die k.die).nvWord (k.target.toNat + 8 * i) / 2 ^ 32]))
        (fun w => ∀ e : DieId, (w.die e).nv = (u.die e).nv)) ∧
  (∀ (s u : State) (k : Packet) (ecc : List EccResult),
      takes s u k 0x0801 = true →
      isAccess u.part k.die = true →
      k.target.toNat % 8 = 0 →
      k.w 4 = 1 →
      k.target.toNat < 0x200000 →
      ecc[0]? = some .corrected →
      Answers (.nvRead k ecc) s k 0x0801 stDone 3 [(u.die k.die).nvWord k.target.toNat % 2 ^ 32, (u.die k.die).nvWord k.target.toNat / 2 ^ 32]
        (fun w => (∀ e : DieId, ∀ a, Memory.read (w.die e).nv a = Memory.read (u.die e).nv a) ∧ ∃ v : State, w = v.post k.die 440 0x01 (k.target.toNat / 8))) ∧
  (∀ (s u : State) (k : Packet) (ecc : List EccResult),
      takes s u k 0x0801 = true →
      isAccess u.part k.die = true →
      k.target.toNat % 8 = 0 →
      k.w 4 = 1 →
      k.target.toNat < 0x200000 →
      ecc[0]? = some .uncorrectable →
      ecc[1]? = some .uncorrectable →
      Answers (.nvRead k ecc) s k 0x0801 stIncomplete 0 [] (fun w => (∀ e : DieId, (w.die e).nv = (u.die e).nv) ∧
        ∃ v : State, w = v.post k.die 440 0x02 (k.target.toNat / 8 + 2 ^ 18))) ∧
  (∀ (s u : State) (k : Packet) (m : DieId),
      takes s u k 0x0802 = true →
      isAccess u.part k.die = true →
      k.target.toNat % 8 = 0 →
      1 ≤ k.w 4 →
      k.w 4 ≤ 29 →
      k.length.toNat = 5 + 2 * k.w 4 →
      nvWritable k.target.toNat (k.w 4) = true →
      m = u.nvMaster k.die →
      (List.range (k.w 4)).all (fun i => SMap.get 0 (u.die m).nvs.wear (nvBlock (k.target.toNat + 8 * i)) + k.w 4 ≤ wearLimit) = true →
      u.mirrorUp m (u.mirrorOf m) = true →
      Answers (.nvWrite k) s k 0x0802 stDone 1 [] (fun w => ∀ e : DieId, e = m ∨ e = u.mirrorOf m →
        (∀ i, i < k.w 4 → (w.die e).nvWord (k.target.toNat + 8 * i) = k.w (5 + 2 * i) + 2 ^ 32 * k.w (6 + 2 * i)) ∧
        ∀ a, (a < k.target.toNat ∨ k.target.toNat + 8 * k.w 4 ≤ a) → Memory.read (w.die e).nv a = Memory.read (u.die e).nv a)) ∧
  (∀ (s u : State) (k : Packet) (m : DieId),
      takes s u k 0x0802 = true →
      isAccess u.part k.die = true →
      k.target.toNat % 8 = 0 →
      1 ≤ k.w 4 →
      k.w 4 ≤ 29 →
      k.length.toNat = 5 + 2 * k.w 4 →
      nvWritable k.target.toNat (k.w 4) = true →
      m = u.nvMaster k.die →
      (List.range (k.w 4)).all (fun i => SMap.get 0 (u.die m).nvs.wear (nvBlock (k.target.toNat + 8 * i)) + k.w 4 ≤ wearLimit) = true →
      u.mirrorUp m (u.mirrorOf m) = false →
      Answers (.nvWrite k) s k 0x0802 stDone 1 [] (fun w => nvBlock k.target.toNat ∈ (w.die m).nvs.stale ∧
        (∀ i, i < k.w 4 → (w.die m).nvWord (k.target.toNat + 8 * i) = k.w (5 + 2 * i) + 2 ^ 32 * k.w (6 + 2 * i)) ∧
        ∀ e : DieId, e ≠ m → (w.die e).nv = (u.die e).nv)) ∧
  (∀ (s u : State) (k : Packet),
      takes s u k 0x0802 = true →
      isAccess u.part k.die = true →
      k.target.toNat % 8 = 0 →
      1 ≤ k.w 4 →
      k.w 4 ≤ 29 →
      k.length.toNat = 5 + 2 * k.w 4 →
      nvWritable k.target.toNat (k.w 4) = false →
      Answers (.nvWrite k) s k 0x0802 stBadTarget 0 [] (fun w => w = u)) ∧
  (∀ (s u : State) (k : Packet) (m : DieId),
      takes s u k 0x0802 = true →
      isAccess u.part k.die = true →
      k.target.toNat % 8 = 0 →
      1 ≤ k.w 4 →
      k.w 4 ≤ 29 →
      k.length.toNat = 5 + 2 * k.w 4 →
      nvWritable k.target.toNat (k.w 4) = true →
      m = u.nvMaster k.die →
      s.nvWornAt (s.nvMaster k.die) k.target.toNat = true →
      u.nvWornAt m k.target.toNat = true →
      Answers (.nvWorn k) s k 0x0802 stWorn 0 [] (fun w => (∀ e : DieId, (w.die e).nv = (u.die e).nv) ∧
        ∃ v : State, w = v.post m 440 0x05 (nvBlock k.target.toNat))) ∧
  (∀ (s : State) (l : List Nat),
      s.running = true →
      l = (s.die 0).nvs.stale →
      l ≠ [] →
      (s.die 0).nvs.resync = true →
      s.mirrorUp 0 (otherAccess s.part) = true →
      (s.die (otherAccess s.part)).nvs.stale = [] →
      Memory.wf (s.die 0).nv = true →
      Completes (.mirrorResync) s (fun t => (t.die 0).nvs.stale = [] ∧ (t.die 0).nvs.resync = false ∧ (∃ u : State, t = u.post 0 440 0x04 l.length) ∧
        ∀ a, Memory.read (t.die (otherAccess s.part)).nv a = if nvBlock a ∈ l then Memory.read (s.die 0).nv a else Memory.read (s.die (otherAccess s.part)).nv a)) ∧
  (∀ (s u : State) (k : Packet) (off : Nat) (other : EccResult),
      takes s u k 0x0803 = true →
      calOffset u.part k.target.toNat = some off →
      isAccess u.part k.die = true →
      Answers (.calRead k .clean other) s k 0x0803 stDone 3 [Memory.readLE (u.die k.die).nv off 4] (fun w => ∀ e : DieId, (w.die e).nv = (u.die e).nv)) ∧
  (∀ (s u : State) (k : Packet) (off : Nat),
      takes s u k 0x0803 = true →
      calOffset u.part k.target.toNat = some off →
      isAccess u.part k.die = true →
      u.mirrorUp k.die (u.mirrorOf k.die) = true →
      Answers (.calRead k .uncorrectable .clean) s k 0x0803 stDone 3 [Memory.readLE (u.die (u.mirrorOf k.die)).nv off 4]
        (fun w => (w.die k.die).nvWord (off / 8 * 8) = (u.die (u.mirrorOf k.die)).nvWord (off / 8 * 8))) ∧
  (∀ (s u : State) (k : Packet) (off : Nat),
      takes s u k 0x0803 = true →
      calOffset u.part k.target.toNat = some off →
      isAccess u.part k.die = true →
      Answers (.calRead k .uncorrectable .uncorrectable) s k 0x0803 stIncomplete 0 [] (fun w => ∀ e : DieId, (w.die e).nv = (u.die e).nv)) ∧
  (∀ (s u : State) (k : Packet) (off : Nat) (m : DieId),
      takes s u k 0x0804 = true →
      calOffset u.part k.target.toNat = some off →
      isAccess u.part k.die = true →
      k.w 4 / 65536 = 0xCA1B →
      m = u.nvMaster k.die →
      u.nvWornAt m (off / 8 * 8) = false →
      Answers (.calWrite k) s k 0x0804 stDone 1 [Memory.readLE (u.die m).nv off 4 % 2 ^ 17] (fun w =>
        Memory.readLE (w.die m).nv off 4 = k.w 4 % 65536 ∧ (∀ a, (a < off ∨ off + 4 ≤ a) → Memory.read (w.die m).nv a = Memory.read (u.die m).nv a) ∧
        ∃ v : State, w = v.post m 441 0x01 k.target.toNat)) ∧
  (∀ (s u : State) (k : Packet) (off : Nat),
      takes s u k 0x0804 = true →
      calOffset u.part k.target.toNat = some off →
      isAccess u.part k.die = true →
      k.w 4 / 65536 ≠ 0xCA1B →
      Answers (.calWrite k) s k 0x0804 stBadParam 0 [] (fun w => w = u)) ∧
  (∀ (s u : State) (k : Packet) (own other : EccResult),
      takes s u k 0x0803 = true →
      calOffset u.part k.target.toNat = none →
      Answers (.calRead k own other) s k 0x0803 stBadTarget 0 [] (fun w => w = u)) ∧
  (∀ (s : State) (d : DieId) (code : Byte),
      present s.part d = true →
      ([0x00, 0x04, 0x05, 0x08, 0x09].contains code.toNat = false ∨ (∀ e : DieId, present s.part e = true → (s.die e).anyPort = false ∧ (s.die e).peg.ops = [])) →
      Completes (.jtagInstruction d code) s (fun t => (t.die d).irCap = 1 ∧ (∀ e : DieId, (t.die e).nv = (s.die e).nv ∧ (t.die e).nvs = (s.die e).nvs ∧ (t.die e).active = (s.die e).active)))

/-- A die that loads EXTEST, CLAMP, HIGHZ, EXTEST_PULSE or EXTEST_TRAIN while any port of the package is not DISABLED, or while
any long operation runs, selects BYPASS instead and captures 0b0000_0101 at its next Capture-IR. Any other code, and any
code out of service, selects its own instruction, BYPASS for a code that has none; and nothing else of the machine changes.
(R481) -/
def Obligations.BoundaryScan : Prop :=
  (∀ (s : State) (d : DieId) (code : Byte),
      present s.part d = true →
      [0x00, 0x04, 0x05, 0x08, 0x09].contains code.toNat = true →
      ((∃ e : DieId, present s.part e = true ∧ ((s.die e).anyPort = true ∨ (s.die e).peg.ops ≠ []))) →
      Completes (.jtagInstruction d code) s (fun t => t = s.onDie d (fun x => { x with ir := 0xFF, irCap := 5 }))) ∧
  (∀ (s : State) (d : DieId) (code : Byte),
      present s.part d = true →
      ([0x00, 0x04, 0x05, 0x08, 0x09].contains code.toNat = false ∨ (∀ e : DieId, present s.part e = true → (s.die e).anyPort = false ∧ (s.die e).peg.ops = [])) →
      Completes (.jtagInstruction d code) s (fun t => t = s.onDie d (fun x => { x with irCap := 1, ir := if [0x00, 0x01, 0x02, 0x04, 0x05, 0x08, 0x09].contains code.toNat then code.toNat else 0xFF })))

/-- A NOP of four words with TARGET = 0 that its die takes up is answered DONE with no data, and nothing else changes. One whose
TARGET is not 0 is answered BAD_TARGET, and one with TARGET = 0 whose length is not four words is answered BAD_PARAM. (R332) -/
def Obligations.NopAnswers : Prop :=
  (∀ (s u : State) (k : Packet),
      takes0 s u k 0x0001 = true →
      Answers (.nop k) s k 0x0001 stDone 3 [] (fun w => w = u)) ∧
  (∀ (s u : State) (k : Packet),
      takes s u k 0x0001 = true →
      k.target ≠ 0 →
      Answers (.nop k) s k 0x0001 stBadTarget 0 [] (fun w => w = u)) ∧
  (∀ (s : State) (k : Packet),
      comes s k 0x0001 = true →
      k.length ≠ 4 →
      k.target = 0 →
      Answers (.nop k) s k 0x0001 stBadParam 0 [] (fun w => w = s.takeInbox k 0x0001))

/-- A BIST_RESULT with TARGET = 0 is answered DONE with the record its ring index names, 0 to 63, or with the latest record for
0x7F. An index that holds no record is answered REFUSED_NOT_READY, and a packet with TARGET = 0 that is not five words long
is answered BAD_PARAM. (R435) -/
def Obligations.BistResults : Prop :=
  (∀ (s u : State) (k : Packet) (l : List Nat),
      takes0 s u k 0x0C02 = true →
      (k.w 4 < 64 ∨ k.w 4 = 0x7F) →
      l = SMap.get [] (u.die k.die).bist.ring (if k.w 4 = 0x7F then ((u.die k.die).bist.wp + 63) % 64 else k.w 4) →
      l ≠ [] →
      Answers (.bistResult k) s k 0x0C02 stDone 3 l (fun w => w = u)) ∧
  (∀ (s u : State) (k : Packet),
      takes0 s u k 0x0C02 = true →
      (k.w 4 < 64 ∨ k.w 4 = 0x7F) →
      SMap.get [] (u.die k.die).bist.ring (if k.w 4 = 0x7F then ((u.die k.die).bist.wp + 63) % 64 else k.w 4) = [] →
      Answers (.bistResult k) s k 0x0C02 stNotReady 0 [] (fun w => w = u)) ∧
  (∀ (s : State) (k : Packet),
      comes s k 0x0C02 = true →
      k.length ≠ 5 →
      k.target = 0 →
      Answers (.bistResult k) s k 0x0C02 stBadParam 0 [] (fun w => w = s.takeInbox k 0x0C02))

/-- A peer frame is 8,192 symbols long: 32 symbols at level 3 and 32 at level 0, then control field, status field and CRC bits
as pairs of levels, then the pattern; at N26 level 3 is bit 1 and level 0 is bit 0. For every control and status field, what
a framer reads from the frame composed of them is those two fields. With any one symbol of its marker, fields and CRC at
another level, or with any one bit of its fields and CRC inverted, it reads no frame. The fields a lane sends read back at
the partner as its outstanding request, or none, with its number, its lane position, its session identifier and the modes of
its profile in a beacon of version 1 of a retimer with the three capabilities; and as its acknowledgement, its readiness,
its framer lock, its grants, the frames left in its end sequence and the session it has received. The bits an engine fret
decides for a lane are its port's readiness for lattice, its framer lock, its precoding, and the grants of its port, or, in
a session of a single lane, the modes that its port has agreed. (R170, R171, R172, R174, R175, R176) -/
def Obligations.PeerFrames : Prop :=
  (∀ (c w : BitVec 64),
      readFrame (peerHeader c w) = some (c, w)) ∧
  (∀ (c w : BitVec 64) (reg : Nat),
      (peerFrame c w reg).length = 8192 ∧ (peerFrame c w reg).take 352 = peerHeader c w ∧ (peerHeader c w).take 64 = List.replicate 32 3 ++ List.replicate 32 0 ∧
        (∀ b : Fin 64, ((peerHeader c w).drop (64 + 2 * b.val)).take 2 = (if c.getLsbD b.val then [3, 0] else [0, 3]) ∧
          ((peerHeader c w).drop (192 + 2 * b.val)).take 2 = (if w.getLsbD b.val then [3, 0] else [0, 3])) ∧
        (peerFrame26 c w reg).length = 8192 ∧ ((peerFrame26 c w reg).take 352).map (fun l => 3 * l) = peerHeader c w) ∧
  (∀ (c w : BitVec 64) (i v : Nat),
      i < 352 →
      (peerHeader c w)[i]? ≠ some v →
      readFrame ((peerHeader c w).set i v) = none) ∧
  (∀ (c w : BitVec 64) (b : Nat) (l : List Bool),
      b < 144 →
      l = frameBits c w ++ crcBits (frameCrc (frameBits c w)) →
      readFrame (markerLevels ++ fieldLevels (l.set b (!(l[b]?).getD false))) = none) ∧
  (∀ (x : Die) (n j : Nat) (l : LaneSess) (f : Frame),
      f = peerFields (x.control n j l) (x.status n j l) →
      j < 16 →
      f.peer = true ∧ (l.reqOpen = true → f.reqTap = l.reqCode % 8 ∧ f.reqOp = l.reqCode / 8 % 4 ∧ f.reqPreset = l.reqCode / 32 % 8) ∧
        (l.reqOpen = false → f.reqTap = 6 ∧ f.reqOp = 0 ∧ f.reqPreset = 0) ∧ f.reqSeq = l.reqSeq % 16 ∧ f.lanePos = j ∧ f.session = l.ownId % 256 ∧
        f.beaconVer = 1 ∧ f.ptype = 0 ∧ f.capLattice = true ∧ f.capP425 = true ∧ f.capRotation = true ∧
        f.reqLattice = hasLattice (x.cfga n) ∧ f.reqP425 = hasGearbox (x.cfga n) ∧ f.rate = (if hasGearbox (x.cfga n) then 4 else rate (x.cfga n)) ∧
        f.ackTap = l.ackTap % 8 ∧ f.tapStatus = l.tapStat % 8 ∧ f.ackSeq = l.answered.getD 0 % 16 ∧ f.rxReady = l.rrTx ∧ f.latReady = bit l.bits 0 ∧
        f.phaseLock = bit l.bits 1 ∧ f.precodeOn = bit l.bits 2 ∧ f.p425Grant = bit l.bits 3 ∧ f.latGrant = bit l.bits 4 ∧ f.countdown = (if l.state = 5 ∧ l.count ≤ 16 then l.count else 0) ∧
        f.done = decide (l.state = 6) ∧ f.echo = (match l.frame with | some q => q.session % 256 | none => 0) ∧
        f.rxSnr = min 255 ((x.slice (x.serving (n / 8) .line j)).snrNow * 2 / 5)) ∧
  (∀ (x : Die) (n : Nat) (k : LaneKind) (l : LaneSess) (b : Nat),
      b = x.laneBits n k l →
      bit b 0 = x.latReady n ∧ bit b 1 = l.flock ∧ bit b 2 = l.reqPre ∧ b < 32 ∧
        (k = .session → bit b 3 = (x.grants n).1 ∧ bit b 4 = (x.grants n).2) ∧
        (k ≠ .session → bit b 3 = bit (x.port n).modes 1 ∧ bit b 4 = bit (x.port n).modes 0))
end

