-- ==== Sys2Proof/Laws/Memory.lean ====
section
/-! SUPPORT. Sparse maps and byte memories: read after write, frames, and the canonical form. -/

namespace Sys2Proof.Machine

variable {β : Type}

theorem SMap.get_ins_same (d : β) (m : List (Nat × β)) (k : Nat) (v : β) : SMap.get d (SMap.ins m k v) k = v := by
  induction m with
  | nil => simp [SMap.ins, SMap.get]
  | cons p m ih =>
    unfold SMap.ins
    split
    · simp [SMap.get]
    · split
      · simp [SMap.get]
      · rename_i h1 h2
        simp only [SMap.get]
        rw [if_neg (fun h => h2 h.symm)]
        exact ih

theorem SMap.get_ins_ne (d : β) (m : List (Nat × β)) (k j : Nat) (v : β) (h : j ≠ k) :
    SMap.get d (SMap.ins m k v) j = SMap.get d m j := by
  induction m with
  | nil => simp [SMap.ins, SMap.get, h.symm]
  | cons p m ih =>
    unfold SMap.ins
    split
    · simp [SMap.get, h.symm]
    · split
      · rename_i h2
        simp [SMap.get, ← h2, h.symm]
      · simp only [SMap.get, ih]

theorem SMap.get_del_same (d : β) (m : List (Nat × β)) (k : Nat) : SMap.get d (SMap.del m k) k = d := by
  induction m with
  | nil => rfl
  | cons p m ih =>
    unfold SMap.del at ih ⊢
    by_cases hp : p.1 = k
    · simp [hp, ih]
    · simp [hp, SMap.get, ih]

theorem SMap.get_del_ne (d : β) (m : List (Nat × β)) (k j : Nat) (h : j ≠ k) :
    SMap.get d (SMap.del m k) j = SMap.get d m j := by
  induction m with
  | nil => rfl
  | cons p m ih =>
    unfold SMap.del at ih ⊢
    by_cases hp : p.1 = k
    · have hj : p.1 ≠ j := fun e => h (e ▸ hp)
      have hf : List.filter (fun q => q.1 != k) (p :: m) = List.filter (fun q => q.1 != k) m := by simp [hp]
      rw [hf, ih]
      simp [SMap.get, hj]
    · simp [hp, SMap.get, ih]

/-- A key reads back what was put there. -/
@[simp] theorem SMap.get_put_same [DecidableEq β] (d : β) (m : List (Nat × β)) (k : Nat) (v : β) : SMap.get d (SMap.put d m k v) k = v := by
  unfold SMap.put
  split
  · rename_i h; rw [h]; exact SMap.get_del_same d m k
  · exact SMap.get_ins_same d m k v

/-- Any other key reads as before. -/
theorem SMap.get_put_ne [DecidableEq β] (d : β) (m : List (Nat × β)) (k j : Nat) (v : β) (h : j ≠ k) :
    SMap.get d (SMap.put d m k v) j = SMap.get d m j := by
  unfold SMap.put
  split
  · exact SMap.get_del_ne d m k j h
  · exact SMap.get_ins_ne d m k j v h

/-- What a key reads as after a write. -/
theorem SMap.get_put [DecidableEq β] (d : β) (m : List (Nat × β)) (k j : Nat) (v : β) :
    SMap.get d (SMap.put d m k v) j = if j = k then v else SMap.get d m j := by
  split
  · rename_i h; rw [h]; exact SMap.get_put_same d m k v
  · rename_i h; exact SMap.get_put_ne d m k j v h

theorem SMap.above_ins (m : List (Nat × β)) (i k : Nat) (v : β) (hm : SMap.above i m = true) (h : i < k) :
    SMap.above i (SMap.ins m k v) = true := by
  induction m with
  | nil => simp [SMap.ins, SMap.above, h]
  | cons p m ih =>
    simp only [SMap.above, List.all_cons, Bool.and_eq_true, decide_eq_true_eq] at hm
    unfold SMap.ins
    split
    · simp [SMap.above, h, hm.1]; simpa using hm.2
    · split
      · simp [SMap.above, h]; simpa using hm.2
      · have := ih (by simpa [SMap.above] using hm.2)
        simp only [SMap.above, List.all_cons, Bool.and_eq_true, decide_eq_true_eq] at this ⊢
        exact ⟨hm.1, this⟩

theorem SMap.above_filter (f : Nat × β → Bool) (m : List (Nat × β)) (i : Nat) (hm : SMap.above i m = true) :
    SMap.above i (m.filter f) = true := by
  simp only [SMap.above, List.all_eq_true, decide_eq_true_eq] at hm ⊢
  intro p hp
  exact hm p (List.mem_of_mem_filter hp)

theorem SMap.above_mono (m : List (Nat × β)) (i j : Nat) (h : i ≤ j) (hm : SMap.above j m = true) : SMap.above i m = true := by
  simp only [SMap.above, List.all_eq_true, decide_eq_true_eq] at hm ⊢
  intro p hp
  have := hm p hp
  omega

theorem SMap.rising_ins (m : List (Nat × β)) (k : Nat) (v : β) (hm : SMap.rising m = true) : SMap.rising (SMap.ins m k v) = true := by
  induction m with
  | nil => simp [SMap.ins, SMap.rising, SMap.above]
  | cons p m ih =>
    simp only [SMap.rising, Bool.and_eq_true] at hm
    unfold SMap.ins
    split
    · rename_i h
      simp only [SMap.rising, Bool.and_eq_true]
      refine ⟨?_, hm.1, hm.2⟩
      have := SMap.above_mono m k p.1 (by omega) hm.1
      simp only [SMap.above, List.all_cons, Bool.and_eq_true, decide_eq_true_eq] at this ⊢
      exact ⟨h, this⟩
    · split
      · rename_i h
        simp only [SMap.rising, Bool.and_eq_true]
        exact ⟨h ▸ hm.1, hm.2⟩
      · simp only [SMap.rising, Bool.and_eq_true]
        exact ⟨SMap.above_ins m p.1 k v hm.1 (by omega), ih hm.2⟩

theorem SMap.rising_filter (f : Nat × β → Bool) (m : List (Nat × β)) (hm : SMap.rising m = true) : SMap.rising (m.filter f) = true := by
  induction m with
  | nil => rfl
  | cons p m ih =>
    simp only [SMap.rising, Bool.and_eq_true] at hm
    by_cases h : f p = true
    · simp only [List.filter_cons, h, if_true, SMap.rising, Bool.and_eq_true]
      exact ⟨SMap.above_filter f m p.1 hm.1, ih hm.2⟩
    · simp [h, ih hm.2]

theorem SMap.mem_ins (m : List (Nat × β)) (k : Nat) (v : β) (p : Nat × β) (hp : p ∈ SMap.ins m k v) : p = (k, v) ∨ p ∈ m := by
  induction m with
  | nil => simpa [SMap.ins] using hp
  | cons q m ih =>
    unfold SMap.ins at hp
    split at hp
    · simpa using hp
    · split at hp
      · simp only [List.mem_cons] at hp ⊢
        rcases hp with h | h
        · exact .inl h
        · exact .inr (.inr h)
      · simp only [List.mem_cons] at hp ⊢
        rcases hp with h | h
        · exact .inr (.inl h)
        · rcases ih h with h | h
          · exact .inl h
          · exact .inr (.inr h)

/-- A write keeps the canonical form. -/
theorem SMap.wf_put [DecidableEq β] (d : β) (m : List (Nat × β)) (k : Nat) (v : β) (hm : SMap.wf (fun _ => d) m = true) :
    SMap.wf (fun _ => d) (SMap.put d m k v) = true := by
  simp only [SMap.wf, Bool.and_eq_true, List.all_eq_true] at hm ⊢
  unfold SMap.put
  split
  · exact ⟨SMap.rising_filter _ m hm.1, fun p hp => hm.2 p (List.mem_of_mem_filter hp)⟩
  · rename_i h
    refine ⟨SMap.rising_ins m k v hm.1, fun p hp => ?_⟩
    rcases SMap.mem_ins m k v p hp with rfl | hq
    · simpa using h
    · exact hm.2 p hq

/-! ### Byte memories -/

/-- A byte reads back what was written there. -/
@[simp] theorem Memory.read_write_same (m : List Host.Cell) (a : Nat) (v : Byte) : Memory.read (Memory.write m a v) a = v :=
  SMap.get_put_same _ m a v

/-- Any other byte reads as before. -/
theorem Memory.read_write_ne (m : List Host.Cell) (a b : Nat) (v : Byte) (h : b ≠ a) :
    Memory.read (Memory.write m a v) b = Memory.read m b := SMap.get_put_ne _ m a b v h

/-- A write keeps the canonical form. -/
theorem Memory.wf_write (m : List Host.Cell) (a : Nat) (v : Byte) (hm : Memory.wf m = true) : Memory.wf (Memory.write m a v) = true :=
  SMap.wf_put _ m a v hm

theorem Memory.wf_writeList (l : List Byte) : ∀ (m : List Host.Cell) (a : Nat), Memory.wf m = true → Memory.wf (Memory.writeList m a l) = true := by
  induction l with
  | nil => intro m a h; exact h
  | cons v l ih => intro m a h; exact ih _ _ (Memory.wf_write m a v h)

theorem Memory.wf_writeLE (n : Nat) : ∀ (m : List Host.Cell) (a v : Nat), Memory.wf m = true → Memory.wf (Memory.writeLE m a n v) = true := by
  induction n with
  | zero => intro m a v h; exact h
  | succ n ih => intro m a v h; exact ih _ _ _ (Memory.wf_write m a _ h)

theorem Memory.wf_writeWords (l : List Nat) : ∀ (m : List Host.Cell) (a : Nat), Memory.wf m = true → Memory.wf (Memory.writeWords m a l) = true := by
  induction l with
  | nil => intro m a h; exact h
  | cons v l ih => intro m a h; exact ih _ _ (Memory.wf_writeLE 4 m a v h)

/-- Bytes outside the ones written read as before. -/
theorem Memory.read_writeList_ne (l : List Byte) : ∀ (m : List Host.Cell) (a b : Nat), (b < a ∨ a + l.length ≤ b) →
    Memory.read (Memory.writeList m a l) b = Memory.read m b := by
  induction l with
  | nil => intro m a b _; rfl
  | cons v l ih =>
    intro m a b h
    simp only [List.length_cons] at h
    simp only [Memory.writeList]
    rw [ih _ _ _ (by omega), Memory.read_write_ne _ _ _ _ (by omega)]

theorem Memory.read_writeLE_ne (n : Nat) : ∀ (m : List Host.Cell) (a v b : Nat), (b < a ∨ a + n ≤ b) →
    Memory.read (Memory.writeLE m a n v) b = Memory.read m b := by
  induction n with
  | zero => intro m a v b _; rfl
  | succ n ih =>
    intro m a v b h
    simp only [Memory.writeLE]
    rw [ih _ _ _ _ (by omega), Memory.read_write_ne _ _ _ _ (by omega)]

theorem Memory.read_writeWords_ne (l : List Nat) : ∀ (m : List Host.Cell) (a b : Nat), (b < a ∨ a + 4 * l.length ≤ b) →
    Memory.read (Memory.writeWords m a l) b = Memory.read m b := by
  induction l with
  | nil => intro m a b _; rfl
  | cons v l ih =>
    intro m a b h
    simp only [List.length_cons] at h
    simp only [Memory.writeWords]
    rw [ih _ _ _ (by omega), Memory.read_writeLE_ne _ _ _ _ _ (by omega)]

end Sys2Proof.Machine
end

