-- ==== Sys2Proof/Laws/State.lean ====
section
/-! SUPPORT. The fields of State and of Die under every shared update: one lemma per field per update. -/

namespace Sys2Proof.Machine

variable (s : State)

/-! ### State.setDie -/
@[simp] theorem State.setDie_part (d : DieId) (x : Die) : (s.setDie d x).part = s.part := rfl
@[simp] theorem State.setDie_phase (d : DieId) (x : Die) : (s.setDie d x).phase = s.phase := rfl
@[simp] theorem State.setDie_pos (d : DieId) (x : Die) : (s.setDie d x).pos = s.pos := rfl
@[simp] theorem State.setDie_free (d : DieId) (x : Die) : (s.setDie d x).free = s.free := rfl
@[simp] theorem State.setDie_wake (d : DieId) (x : Die) : (s.setDie d x).wake = s.wake := rfl
@[simp] theorem State.setDie_waking (d : DieId) (x : Die) : (s.setDie d x).waking = s.waking := rfl
@[simp] theorem State.setDie_rootOff (d : DieId) (x : Die) : (s.setDie d x).rootOff = s.rootOff := rfl
@[simp] theorem State.setDie_vddhOff (d : DieId) (x : Die) : (s.setDie d x).vddhOff = s.vddhOff := rfl
@[simp] theorem State.setDie_lead (d : DieId) (x : Die) : (s.setDie d x).lead = s.lead := rfl
@[simp] theorem State.setDie_air (d : DieId) (x : Die) : (s.setDie d x).air = s.air := rfl
@[simp] theorem State.setDie_ep0 (d : DieId) (x : Die) : (s.setDie d x).ep0 = s.ep0 := rfl
@[simp] theorem State.setDie_ep1 (d : DieId) (x : Die) : (s.setDie d x).ep1 = s.ep1 := rfl
@[simp] theorem State.setDie_gsync (d : DieId) (x : Die) : (s.setDie d x).gsync = s.gsync := rfl
@[simp] theorem State.setDie_fwHeld (d : DieId) (x : Die) : (s.setDie d x).fwHeld = s.fwHeld := rfl
@[simp] theorem State.setDie_fwOp (d : DieId) (x : Die) : (s.setDie d x).fwOp = s.fwOp := rfl
@[simp] theorem State.setDie_fwDone (d : DieId) (x : Die) : (s.setDie d x).fwDone = s.fwDone := rfl
@[simp] theorem State.setDie_fwBack (d : DieId) (x : Die) : (s.setDie d x).fwBack = s.fwBack := rfl
@[simp] theorem State.setDie_pending (d : DieId) (x : Die) : (s.setDie d x).pending = s.pending := rfl

/-! ### State.onDie -/
@[simp] theorem State.onDie_part (d : DieId) (f : Die → Die) : (s.onDie d f).part = s.part := rfl
@[simp] theorem State.onDie_phase (d : DieId) (f : Die → Die) : (s.onDie d f).phase = s.phase := rfl
@[simp] theorem State.onDie_pos (d : DieId) (f : Die → Die) : (s.onDie d f).pos = s.pos := rfl
@[simp] theorem State.onDie_free (d : DieId) (f : Die → Die) : (s.onDie d f).free = s.free := rfl
@[simp] theorem State.onDie_wake (d : DieId) (f : Die → Die) : (s.onDie d f).wake = s.wake := rfl
@[simp] theorem State.onDie_waking (d : DieId) (f : Die → Die) : (s.onDie d f).waking = s.waking := rfl
@[simp] theorem State.onDie_rootOff (d : DieId) (f : Die → Die) : (s.onDie d f).rootOff = s.rootOff := rfl
@[simp] theorem State.onDie_vddhOff (d : DieId) (f : Die → Die) : (s.onDie d f).vddhOff = s.vddhOff := rfl
@[simp] theorem State.onDie_lead (d : DieId) (f : Die → Die) : (s.onDie d f).lead = s.lead := rfl
@[simp] theorem State.onDie_air (d : DieId) (f : Die → Die) : (s.onDie d f).air = s.air := rfl
@[simp] theorem State.onDie_ep0 (d : DieId) (f : Die → Die) : (s.onDie d f).ep0 = s.ep0 := rfl
@[simp] theorem State.onDie_ep1 (d : DieId) (f : Die → Die) : (s.onDie d f).ep1 = s.ep1 := rfl
@[simp] theorem State.onDie_gsync (d : DieId) (f : Die → Die) : (s.onDie d f).gsync = s.gsync := rfl
@[simp] theorem State.onDie_fwHeld (d : DieId) (f : Die → Die) : (s.onDie d f).fwHeld = s.fwHeld := rfl
@[simp] theorem State.onDie_fwOp (d : DieId) (f : Die → Die) : (s.onDie d f).fwOp = s.fwOp := rfl
@[simp] theorem State.onDie_fwDone (d : DieId) (f : Die → Die) : (s.onDie d f).fwDone = s.fwDone := rfl
@[simp] theorem State.onDie_fwBack (d : DieId) (f : Die → Die) : (s.onDie d f).fwBack = s.fwBack := rfl
@[simp] theorem State.onDie_pending (d : DieId) (f : Die → Die) : (s.onDie d f).pending = s.pending := rfl

/-! ### State.count -/
@[simp] theorem State.count_part (d : DieId) (o n : Nat) : (s.count d o n).part = s.part := rfl
@[simp] theorem State.count_phase (d : DieId) (o n : Nat) : (s.count d o n).phase = s.phase := rfl
@[simp] theorem State.count_pos (d : DieId) (o n : Nat) : (s.count d o n).pos = s.pos := rfl
@[simp] theorem State.count_free (d : DieId) (o n : Nat) : (s.count d o n).free = s.free := rfl
@[simp] theorem State.count_wake (d : DieId) (o n : Nat) : (s.count d o n).wake = s.wake := rfl
@[simp] theorem State.count_waking (d : DieId) (o n : Nat) : (s.count d o n).waking = s.waking := rfl
@[simp] theorem State.count_rootOff (d : DieId) (o n : Nat) : (s.count d o n).rootOff = s.rootOff := rfl
@[simp] theorem State.count_vddhOff (d : DieId) (o n : Nat) : (s.count d o n).vddhOff = s.vddhOff := rfl
@[simp] theorem State.count_lead (d : DieId) (o n : Nat) : (s.count d o n).lead = s.lead := rfl
@[simp] theorem State.count_air (d : DieId) (o n : Nat) : (s.count d o n).air = s.air := rfl
@[simp] theorem State.count_ep0 (d : DieId) (o n : Nat) : (s.count d o n).ep0 = s.ep0 := rfl
@[simp] theorem State.count_ep1 (d : DieId) (o n : Nat) : (s.count d o n).ep1 = s.ep1 := rfl
@[simp] theorem State.count_gsync (d : DieId) (o n : Nat) : (s.count d o n).gsync = s.gsync := rfl
@[simp] theorem State.count_fwHeld (d : DieId) (o n : Nat) : (s.count d o n).fwHeld = s.fwHeld := rfl
@[simp] theorem State.count_fwOp (d : DieId) (o n : Nat) : (s.count d o n).fwOp = s.fwOp := rfl
@[simp] theorem State.count_fwDone (d : DieId) (o n : Nat) : (s.count d o n).fwDone = s.fwDone := rfl
@[simp] theorem State.count_fwBack (d : DieId) (o n : Nat) : (s.count d o n).fwBack = s.fwBack := rfl
@[simp] theorem State.count_pending (d : DieId) (o n : Nat) : (s.count d o n).pending = s.pending := rfl

/-! ### State.post -/
@[simp] theorem State.post_part (d : DieId) (src cause data : Nat) : (s.post d src cause data).part = s.part := rfl
@[simp] theorem State.post_phase (d : DieId) (src cause data : Nat) : (s.post d src cause data).phase = s.phase := rfl
@[simp] theorem State.post_pos (d : DieId) (src cause data : Nat) : (s.post d src cause data).pos = s.pos := rfl
@[simp] theorem State.post_free (d : DieId) (src cause data : Nat) : (s.post d src cause data).free = s.free := rfl
@[simp] theorem State.post_wake (d : DieId) (src cause data : Nat) : (s.post d src cause data).wake = s.wake := rfl
@[simp] theorem State.post_waking (d : DieId) (src cause data : Nat) : (s.post d src cause data).waking = s.waking := rfl
@[simp] theorem State.post_rootOff (d : DieId) (src cause data : Nat) : (s.post d src cause data).rootOff = s.rootOff := rfl
@[simp] theorem State.post_vddhOff (d : DieId) (src cause data : Nat) : (s.post d src cause data).vddhOff = s.vddhOff := rfl
@[simp] theorem State.post_lead (d : DieId) (src cause data : Nat) : (s.post d src cause data).lead = s.lead := rfl
@[simp] theorem State.post_air (d : DieId) (src cause data : Nat) : (s.post d src cause data).air = s.air := rfl
@[simp] theorem State.post_ep0 (d : DieId) (src cause data : Nat) : (s.post d src cause data).ep0 = s.ep0 := rfl
@[simp] theorem State.post_ep1 (d : DieId) (src cause data : Nat) : (s.post d src cause data).ep1 = s.ep1 := rfl
@[simp] theorem State.post_gsync (d : DieId) (src cause data : Nat) : (s.post d src cause data).gsync = s.gsync := rfl
@[simp] theorem State.post_fwHeld (d : DieId) (src cause data : Nat) : (s.post d src cause data).fwHeld = s.fwHeld := rfl
@[simp] theorem State.post_fwOp (d : DieId) (src cause data : Nat) : (s.post d src cause data).fwOp = s.fwOp := rfl
@[simp] theorem State.post_fwDone (d : DieId) (src cause data : Nat) : (s.post d src cause data).fwDone = s.fwDone := rfl
@[simp] theorem State.post_fwBack (d : DieId) (src cause data : Nat) : (s.post d src cause data).fwBack = s.fwBack := rfl
@[simp] theorem State.post_pending (d : DieId) (src cause data : Nat) : (s.post d src cause data).pending = s.pending := rfl

/-! ### State.setSlice -/
@[simp] theorem State.setSlice_part (d : DieId) (n : Nat) (v : Slice) : (s.setSlice d n v).part = s.part := rfl
@[simp] theorem State.setSlice_phase (d : DieId) (n : Nat) (v : Slice) : (s.setSlice d n v).phase = s.phase := rfl
@[simp] theorem State.setSlice_pos (d : DieId) (n : Nat) (v : Slice) : (s.setSlice d n v).pos = s.pos := rfl
@[simp] theorem State.setSlice_free (d : DieId) (n : Nat) (v : Slice) : (s.setSlice d n v).free = s.free := rfl
@[simp] theorem State.setSlice_wake (d : DieId) (n : Nat) (v : Slice) : (s.setSlice d n v).wake = s.wake := rfl
@[simp] theorem State.setSlice_waking (d : DieId) (n : Nat) (v : Slice) : (s.setSlice d n v).waking = s.waking := rfl
@[simp] theorem State.setSlice_rootOff (d : DieId) (n : Nat) (v : Slice) : (s.setSlice d n v).rootOff = s.rootOff := rfl
@[simp] theorem State.setSlice_vddhOff (d : DieId) (n : Nat) (v : Slice) : (s.setSlice d n v).vddhOff = s.vddhOff := rfl
@[simp] theorem State.setSlice_lead (d : DieId) (n : Nat) (v : Slice) : (s.setSlice d n v).lead = s.lead := rfl
@[simp] theorem State.setSlice_air (d : DieId) (n : Nat) (v : Slice) : (s.setSlice d n v).air = s.air := rfl
@[simp] theorem State.setSlice_ep0 (d : DieId) (n : Nat) (v : Slice) : (s.setSlice d n v).ep0 = s.ep0 := rfl
@[simp] theorem State.setSlice_ep1 (d : DieId) (n : Nat) (v : Slice) : (s.setSlice d n v).ep1 = s.ep1 := rfl
@[simp] theorem State.setSlice_gsync (d : DieId) (n : Nat) (v : Slice) : (s.setSlice d n v).gsync = s.gsync := rfl
@[simp] theorem State.setSlice_fwHeld (d : DieId) (n : Nat) (v : Slice) : (s.setSlice d n v).fwHeld = s.fwHeld := rfl
@[simp] theorem State.setSlice_fwOp (d : DieId) (n : Nat) (v : Slice) : (s.setSlice d n v).fwOp = s.fwOp := rfl
@[simp] theorem State.setSlice_fwDone (d : DieId) (n : Nat) (v : Slice) : (s.setSlice d n v).fwDone = s.fwDone := rfl
@[simp] theorem State.setSlice_fwBack (d : DieId) (n : Nat) (v : Slice) : (s.setSlice d n v).fwBack = s.fwBack := rfl
@[simp] theorem State.setSlice_pending (d : DieId) (n : Nat) (v : Slice) : (s.setSlice d n v).pending = s.pending := rfl

/-! ### State.setTx -/
@[simp] theorem State.setTx_part (d : DieId) (n : Nat) (v : Tx) : (s.setTx d n v).part = s.part := rfl
@[simp] theorem State.setTx_phase (d : DieId) (n : Nat) (v : Tx) : (s.setTx d n v).phase = s.phase := rfl
@[simp] theorem State.setTx_pos (d : DieId) (n : Nat) (v : Tx) : (s.setTx d n v).pos = s.pos := rfl
@[simp] theorem State.setTx_free (d : DieId) (n : Nat) (v : Tx) : (s.setTx d n v).free = s.free := rfl
@[simp] theorem State.setTx_wake (d : DieId) (n : Nat) (v : Tx) : (s.setTx d n v).wake = s.wake := rfl
@[simp] theorem State.setTx_waking (d : DieId) (n : Nat) (v : Tx) : (s.setTx d n v).waking = s.waking := rfl
@[simp] theorem State.setTx_rootOff (d : DieId) (n : Nat) (v : Tx) : (s.setTx d n v).rootOff = s.rootOff := rfl
@[simp] theorem State.setTx_vddhOff (d : DieId) (n : Nat) (v : Tx) : (s.setTx d n v).vddhOff = s.vddhOff := rfl
@[simp] theorem State.setTx_lead (d : DieId) (n : Nat) (v : Tx) : (s.setTx d n v).lead = s.lead := rfl
@[simp] theorem State.setTx_air (d : DieId) (n : Nat) (v : Tx) : (s.setTx d n v).air = s.air := rfl
@[simp] theorem State.setTx_ep0 (d : DieId) (n : Nat) (v : Tx) : (s.setTx d n v).ep0 = s.ep0 := rfl
@[simp] theorem State.setTx_ep1 (d : DieId) (n : Nat) (v : Tx) : (s.setTx d n v).ep1 = s.ep1 := rfl
@[simp] theorem State.setTx_gsync (d : DieId) (n : Nat) (v : Tx) : (s.setTx d n v).gsync = s.gsync := rfl
@[simp] theorem State.setTx_fwHeld (d : DieId) (n : Nat) (v : Tx) : (s.setTx d n v).fwHeld = s.fwHeld := rfl
@[simp] theorem State.setTx_fwOp (d : DieId) (n : Nat) (v : Tx) : (s.setTx d n v).fwOp = s.fwOp := rfl
@[simp] theorem State.setTx_fwDone (d : DieId) (n : Nat) (v : Tx) : (s.setTx d n v).fwDone = s.fwDone := rfl
@[simp] theorem State.setTx_fwBack (d : DieId) (n : Nat) (v : Tx) : (s.setTx d n v).fwBack = s.fwBack := rfl
@[simp] theorem State.setTx_pending (d : DieId) (n : Nat) (v : Tx) : (s.setTx d n v).pending = s.pending := rfl

/-! ### State.setPort -/
@[simp] theorem State.setPort_part (p : PortId) (v : Port) : (s.setPort p v).part = s.part := rfl
@[simp] theorem State.setPort_phase (p : PortId) (v : Port) : (s.setPort p v).phase = s.phase := rfl
@[simp] theorem State.setPort_pos (p : PortId) (v : Port) : (s.setPort p v).pos = s.pos := rfl
@[simp] theorem State.setPort_free (p : PortId) (v : Port) : (s.setPort p v).free = s.free := rfl
@[simp] theorem State.setPort_wake (p : PortId) (v : Port) : (s.setPort p v).wake = s.wake := rfl
@[simp] theorem State.setPort_waking (p : PortId) (v : Port) : (s.setPort p v).waking = s.waking := rfl
@[simp] theorem State.setPort_rootOff (p : PortId) (v : Port) : (s.setPort p v).rootOff = s.rootOff := rfl
@[simp] theorem State.setPort_vddhOff (p : PortId) (v : Port) : (s.setPort p v).vddhOff = s.vddhOff := rfl
@[simp] theorem State.setPort_lead (p : PortId) (v : Port) : (s.setPort p v).lead = s.lead := rfl
@[simp] theorem State.setPort_air (p : PortId) (v : Port) : (s.setPort p v).air = s.air := rfl
@[simp] theorem State.setPort_ep0 (p : PortId) (v : Port) : (s.setPort p v).ep0 = s.ep0 := rfl
@[simp] theorem State.setPort_ep1 (p : PortId) (v : Port) : (s.setPort p v).ep1 = s.ep1 := rfl
@[simp] theorem State.setPort_gsync (p : PortId) (v : Port) : (s.setPort p v).gsync = s.gsync := rfl
@[simp] theorem State.setPort_fwHeld (p : PortId) (v : Port) : (s.setPort p v).fwHeld = s.fwHeld := rfl
@[simp] theorem State.setPort_fwOp (p : PortId) (v : Port) : (s.setPort p v).fwOp = s.fwOp := rfl
@[simp] theorem State.setPort_fwDone (p : PortId) (v : Port) : (s.setPort p v).fwDone = s.fwDone := rfl
@[simp] theorem State.setPort_fwBack (p : PortId) (v : Port) : (s.setPort p v).fwBack = s.fwBack := rfl
@[simp] theorem State.setPort_pending (p : PortId) (v : Port) : (s.setPort p v).pending = s.pending := rfl

/-! ### State.setCourse -/
@[simp] theorem State.setCourse_part (d : DieId) (c : Nat) (v : Course) : (s.setCourse d c v).part = s.part := rfl
@[simp] theorem State.setCourse_phase (d : DieId) (c : Nat) (v : Course) : (s.setCourse d c v).phase = s.phase := rfl
@[simp] theorem State.setCourse_pos (d : DieId) (c : Nat) (v : Course) : (s.setCourse d c v).pos = s.pos := rfl
@[simp] theorem State.setCourse_free (d : DieId) (c : Nat) (v : Course) : (s.setCourse d c v).free = s.free := rfl
@[simp] theorem State.setCourse_wake (d : DieId) (c : Nat) (v : Course) : (s.setCourse d c v).wake = s.wake := rfl
@[simp] theorem State.setCourse_waking (d : DieId) (c : Nat) (v : Course) : (s.setCourse d c v).waking = s.waking := rfl
@[simp] theorem State.setCourse_rootOff (d : DieId) (c : Nat) (v : Course) : (s.setCourse d c v).rootOff = s.rootOff := rfl
@[simp] theorem State.setCourse_vddhOff (d : DieId) (c : Nat) (v : Course) : (s.setCourse d c v).vddhOff = s.vddhOff := rfl
@[simp] theorem State.setCourse_lead (d : DieId) (c : Nat) (v : Course) : (s.setCourse d c v).lead = s.lead := rfl
@[simp] theorem State.setCourse_air (d : DieId) (c : Nat) (v : Course) : (s.setCourse d c v).air = s.air := rfl
@[simp] theorem State.setCourse_ep0 (d : DieId) (c : Nat) (v : Course) : (s.setCourse d c v).ep0 = s.ep0 := rfl
@[simp] theorem State.setCourse_ep1 (d : DieId) (c : Nat) (v : Course) : (s.setCourse d c v).ep1 = s.ep1 := rfl
@[simp] theorem State.setCourse_gsync (d : DieId) (c : Nat) (v : Course) : (s.setCourse d c v).gsync = s.gsync := rfl
@[simp] theorem State.setCourse_fwHeld (d : DieId) (c : Nat) (v : Course) : (s.setCourse d c v).fwHeld = s.fwHeld := rfl
@[simp] theorem State.setCourse_fwOp (d : DieId) (c : Nat) (v : Course) : (s.setCourse d c v).fwOp = s.fwOp := rfl
@[simp] theorem State.setCourse_fwDone (d : DieId) (c : Nat) (v : Course) : (s.setCourse d c v).fwDone = s.fwDone := rfl
@[simp] theorem State.setCourse_fwBack (d : DieId) (c : Nat) (v : Course) : (s.setCourse d c v).fwBack = s.fwBack := rfl
@[simp] theorem State.setCourse_pending (d : DieId) (c : Nat) (v : Course) : (s.setCourse d c v).pending = s.pending := rfl

/-! ### State.setSide -/
@[simp] theorem State.setSide_part (d : DieId) (c : Nat) (h : Side) (r : SideRot) : (s.setSide d c h r).part = s.part := rfl
@[simp] theorem State.setSide_phase (d : DieId) (c : Nat) (h : Side) (r : SideRot) : (s.setSide d c h r).phase = s.phase := rfl
@[simp] theorem State.setSide_pos (d : DieId) (c : Nat) (h : Side) (r : SideRot) : (s.setSide d c h r).pos = s.pos := rfl
@[simp] theorem State.setSide_free (d : DieId) (c : Nat) (h : Side) (r : SideRot) : (s.setSide d c h r).free = s.free := rfl
@[simp] theorem State.setSide_wake (d : DieId) (c : Nat) (h : Side) (r : SideRot) : (s.setSide d c h r).wake = s.wake := rfl
@[simp] theorem State.setSide_waking (d : DieId) (c : Nat) (h : Side) (r : SideRot) : (s.setSide d c h r).waking = s.waking := rfl
@[simp] theorem State.setSide_rootOff (d : DieId) (c : Nat) (h : Side) (r : SideRot) : (s.setSide d c h r).rootOff = s.rootOff := rfl
@[simp] theorem State.setSide_vddhOff (d : DieId) (c : Nat) (h : Side) (r : SideRot) : (s.setSide d c h r).vddhOff = s.vddhOff := rfl
@[simp] theorem State.setSide_lead (d : DieId) (c : Nat) (h : Side) (r : SideRot) : (s.setSide d c h r).lead = s.lead := rfl
@[simp] theorem State.setSide_air (d : DieId) (c : Nat) (h : Side) (r : SideRot) : (s.setSide d c h r).air = s.air := rfl
@[simp] theorem State.setSide_ep0 (d : DieId) (c : Nat) (h : Side) (r : SideRot) : (s.setSide d c h r).ep0 = s.ep0 := rfl
@[simp] theorem State.setSide_ep1 (d : DieId) (c : Nat) (h : Side) (r : SideRot) : (s.setSide d c h r).ep1 = s.ep1 := rfl
@[simp] theorem State.setSide_gsync (d : DieId) (c : Nat) (h : Side) (r : SideRot) : (s.setSide d c h r).gsync = s.gsync := rfl
@[simp] theorem State.setSide_fwHeld (d : DieId) (c : Nat) (h : Side) (r : SideRot) : (s.setSide d c h r).fwHeld = s.fwHeld := rfl
@[simp] theorem State.setSide_fwOp (d : DieId) (c : Nat) (h : Side) (r : SideRot) : (s.setSide d c h r).fwOp = s.fwOp := rfl
@[simp] theorem State.setSide_fwDone (d : DieId) (c : Nat) (h : Side) (r : SideRot) : (s.setSide d c h r).fwDone = s.fwDone := rfl
@[simp] theorem State.setSide_fwBack (d : DieId) (c : Nat) (h : Side) (r : SideRot) : (s.setSide d c h r).fwBack = s.fwBack := rfl
@[simp] theorem State.setSide_pending (d : DieId) (c : Nat) (h : Side) (r : SideRot) : (s.setSide d c h r).pending = s.pending := rfl

/-! ### State.setQueue -/
@[simp] theorem State.setQueue_part (d : DieId) (q : QueueId) (v : Queue) : (s.setQueue d q v).part = s.part := rfl
@[simp] theorem State.setQueue_phase (d : DieId) (q : QueueId) (v : Queue) : (s.setQueue d q v).phase = s.phase := rfl
@[simp] theorem State.setQueue_pos (d : DieId) (q : QueueId) (v : Queue) : (s.setQueue d q v).pos = s.pos := rfl
@[simp] theorem State.setQueue_free (d : DieId) (q : QueueId) (v : Queue) : (s.setQueue d q v).free = s.free := rfl
@[simp] theorem State.setQueue_wake (d : DieId) (q : QueueId) (v : Queue) : (s.setQueue d q v).wake = s.wake := rfl
@[simp] theorem State.setQueue_waking (d : DieId) (q : QueueId) (v : Queue) : (s.setQueue d q v).waking = s.waking := rfl
@[simp] theorem State.setQueue_rootOff (d : DieId) (q : QueueId) (v : Queue) : (s.setQueue d q v).rootOff = s.rootOff := rfl
@[simp] theorem State.setQueue_vddhOff (d : DieId) (q : QueueId) (v : Queue) : (s.setQueue d q v).vddhOff = s.vddhOff := rfl
@[simp] theorem State.setQueue_lead (d : DieId) (q : QueueId) (v : Queue) : (s.setQueue d q v).lead = s.lead := rfl
@[simp] theorem State.setQueue_air (d : DieId) (q : QueueId) (v : Queue) : (s.setQueue d q v).air = s.air := rfl
@[simp] theorem State.setQueue_ep0 (d : DieId) (q : QueueId) (v : Queue) : (s.setQueue d q v).ep0 = s.ep0 := rfl
@[simp] theorem State.setQueue_ep1 (d : DieId) (q : QueueId) (v : Queue) : (s.setQueue d q v).ep1 = s.ep1 := rfl
@[simp] theorem State.setQueue_gsync (d : DieId) (q : QueueId) (v : Queue) : (s.setQueue d q v).gsync = s.gsync := rfl
@[simp] theorem State.setQueue_fwHeld (d : DieId) (q : QueueId) (v : Queue) : (s.setQueue d q v).fwHeld = s.fwHeld := rfl
@[simp] theorem State.setQueue_fwOp (d : DieId) (q : QueueId) (v : Queue) : (s.setQueue d q v).fwOp = s.fwOp := rfl
@[simp] theorem State.setQueue_fwDone (d : DieId) (q : QueueId) (v : Queue) : (s.setQueue d q v).fwDone = s.fwDone := rfl
@[simp] theorem State.setQueue_fwBack (d : DieId) (q : QueueId) (v : Queue) : (s.setQueue d q v).fwBack = s.fwBack := rfl
@[simp] theorem State.setQueue_pending (d : DieId) (q : QueueId) (v : Queue) : (s.setQueue d q v).pending = s.pending := rfl

/-! ### State.postRx -/
@[simp] theorem State.postRx_part (d : DieId) (n cause data : Nat) : (s.postRx d n cause data).part = s.part := rfl
@[simp] theorem State.postRx_phase (d : DieId) (n cause data : Nat) : (s.postRx d n cause data).phase = s.phase := rfl
@[simp] theorem State.postRx_pos (d : DieId) (n cause data : Nat) : (s.postRx d n cause data).pos = s.pos := rfl
@[simp] theorem State.postRx_free (d : DieId) (n cause data : Nat) : (s.postRx d n cause data).free = s.free := rfl
@[simp] theorem State.postRx_wake (d : DieId) (n cause data : Nat) : (s.postRx d n cause data).wake = s.wake := rfl
@[simp] theorem State.postRx_waking (d : DieId) (n cause data : Nat) : (s.postRx d n cause data).waking = s.waking := rfl
@[simp] theorem State.postRx_rootOff (d : DieId) (n cause data : Nat) : (s.postRx d n cause data).rootOff = s.rootOff := rfl
@[simp] theorem State.postRx_vddhOff (d : DieId) (n cause data : Nat) : (s.postRx d n cause data).vddhOff = s.vddhOff := rfl
@[simp] theorem State.postRx_lead (d : DieId) (n cause data : Nat) : (s.postRx d n cause data).lead = s.lead := rfl
@[simp] theorem State.postRx_air (d : DieId) (n cause data : Nat) : (s.postRx d n cause data).air = s.air := rfl
@[simp] theorem State.postRx_ep0 (d : DieId) (n cause data : Nat) : (s.postRx d n cause data).ep0 = s.ep0 := rfl
@[simp] theorem State.postRx_ep1 (d : DieId) (n cause data : Nat) : (s.postRx d n cause data).ep1 = s.ep1 := rfl
@[simp] theorem State.postRx_gsync (d : DieId) (n cause data : Nat) : (s.postRx d n cause data).gsync = s.gsync := rfl
@[simp] theorem State.postRx_fwHeld (d : DieId) (n cause data : Nat) : (s.postRx d n cause data).fwHeld = s.fwHeld := rfl
@[simp] theorem State.postRx_fwOp (d : DieId) (n cause data : Nat) : (s.postRx d n cause data).fwOp = s.fwOp := rfl
@[simp] theorem State.postRx_fwDone (d : DieId) (n cause data : Nat) : (s.postRx d n cause data).fwDone = s.fwDone := rfl
@[simp] theorem State.postRx_fwBack (d : DieId) (n cause data : Nat) : (s.postRx d n cause data).fwBack = s.fwBack := rfl
@[simp] theorem State.postRx_pending (d : DieId) (n cause data : Nat) : (s.postRx d n cause data).pending = s.pending := rfl

/-! ### State.postTx -/
@[simp] theorem State.postTx_part (d : DieId) (n cause data : Nat) : (s.postTx d n cause data).part = s.part := rfl
@[simp] theorem State.postTx_phase (d : DieId) (n cause data : Nat) : (s.postTx d n cause data).phase = s.phase := rfl
@[simp] theorem State.postTx_pos (d : DieId) (n cause data : Nat) : (s.postTx d n cause data).pos = s.pos := rfl
@[simp] theorem State.postTx_free (d : DieId) (n cause data : Nat) : (s.postTx d n cause data).free = s.free := rfl
@[simp] theorem State.postTx_wake (d : DieId) (n cause data : Nat) : (s.postTx d n cause data).wake = s.wake := rfl
@[simp] theorem State.postTx_waking (d : DieId) (n cause data : Nat) : (s.postTx d n cause data).waking = s.waking := rfl
@[simp] theorem State.postTx_rootOff (d : DieId) (n cause data : Nat) : (s.postTx d n cause data).rootOff = s.rootOff := rfl
@[simp] theorem State.postTx_vddhOff (d : DieId) (n cause data : Nat) : (s.postTx d n cause data).vddhOff = s.vddhOff := rfl
@[simp] theorem State.postTx_lead (d : DieId) (n cause data : Nat) : (s.postTx d n cause data).lead = s.lead := rfl
@[simp] theorem State.postTx_air (d : DieId) (n cause data : Nat) : (s.postTx d n cause data).air = s.air := rfl
@[simp] theorem State.postTx_ep0 (d : DieId) (n cause data : Nat) : (s.postTx d n cause data).ep0 = s.ep0 := rfl
@[simp] theorem State.postTx_ep1 (d : DieId) (n cause data : Nat) : (s.postTx d n cause data).ep1 = s.ep1 := rfl
@[simp] theorem State.postTx_gsync (d : DieId) (n cause data : Nat) : (s.postTx d n cause data).gsync = s.gsync := rfl
@[simp] theorem State.postTx_fwHeld (d : DieId) (n cause data : Nat) : (s.postTx d n cause data).fwHeld = s.fwHeld := rfl
@[simp] theorem State.postTx_fwOp (d : DieId) (n cause data : Nat) : (s.postTx d n cause data).fwOp = s.fwOp := rfl
@[simp] theorem State.postTx_fwDone (d : DieId) (n cause data : Nat) : (s.postTx d n cause data).fwDone = s.fwDone := rfl
@[simp] theorem State.postTx_fwBack (d : DieId) (n cause data : Nat) : (s.postTx d n cause data).fwBack = s.fwBack := rfl
@[simp] theorem State.postTx_pending (d : DieId) (n cause data : Nat) : (s.postTx d n cause data).pending = s.pending := rfl

/-! ### State.postCourse -/
@[simp] theorem State.postCourse_part (d : DieId) (c cause data : Nat) : (s.postCourse d c cause data).part = s.part := rfl
@[simp] theorem State.postCourse_phase (d : DieId) (c cause data : Nat) : (s.postCourse d c cause data).phase = s.phase := rfl
@[simp] theorem State.postCourse_pos (d : DieId) (c cause data : Nat) : (s.postCourse d c cause data).pos = s.pos := rfl
@[simp] theorem State.postCourse_free (d : DieId) (c cause data : Nat) : (s.postCourse d c cause data).free = s.free := rfl
@[simp] theorem State.postCourse_wake (d : DieId) (c cause data : Nat) : (s.postCourse d c cause data).wake = s.wake := rfl
@[simp] theorem State.postCourse_waking (d : DieId) (c cause data : Nat) : (s.postCourse d c cause data).waking = s.waking := rfl
@[simp] theorem State.postCourse_rootOff (d : DieId) (c cause data : Nat) : (s.postCourse d c cause data).rootOff = s.rootOff := rfl
@[simp] theorem State.postCourse_vddhOff (d : DieId) (c cause data : Nat) : (s.postCourse d c cause data).vddhOff = s.vddhOff := rfl
@[simp] theorem State.postCourse_lead (d : DieId) (c cause data : Nat) : (s.postCourse d c cause data).lead = s.lead := rfl
@[simp] theorem State.postCourse_air (d : DieId) (c cause data : Nat) : (s.postCourse d c cause data).air = s.air := rfl
@[simp] theorem State.postCourse_ep0 (d : DieId) (c cause data : Nat) : (s.postCourse d c cause data).ep0 = s.ep0 := rfl
@[simp] theorem State.postCourse_ep1 (d : DieId) (c cause data : Nat) : (s.postCourse d c cause data).ep1 = s.ep1 := rfl
@[simp] theorem State.postCourse_gsync (d : DieId) (c cause data : Nat) : (s.postCourse d c cause data).gsync = s.gsync := rfl
@[simp] theorem State.postCourse_fwHeld (d : DieId) (c cause data : Nat) : (s.postCourse d c cause data).fwHeld = s.fwHeld := rfl
@[simp] theorem State.postCourse_fwOp (d : DieId) (c cause data : Nat) : (s.postCourse d c cause data).fwOp = s.fwOp := rfl
@[simp] theorem State.postCourse_fwDone (d : DieId) (c cause data : Nat) : (s.postCourse d c cause data).fwDone = s.fwDone := rfl
@[simp] theorem State.postCourse_fwBack (d : DieId) (c cause data : Nat) : (s.postCourse d c cause data).fwBack = s.fwBack := rfl
@[simp] theorem State.postCourse_pending (d : DieId) (c cause data : Nat) : (s.postCourse d c cause data).pending = s.pending := rfl

/-! ### State.postPort -/
@[simp] theorem State.postPort_part (p : PortId) (cause data : Nat) : (s.postPort p cause data).part = s.part := rfl
@[simp] theorem State.postPort_phase (p : PortId) (cause data : Nat) : (s.postPort p cause data).phase = s.phase := rfl
@[simp] theorem State.postPort_pos (p : PortId) (cause data : Nat) : (s.postPort p cause data).pos = s.pos := rfl
@[simp] theorem State.postPort_free (p : PortId) (cause data : Nat) : (s.postPort p cause data).free = s.free := rfl
@[simp] theorem State.postPort_wake (p : PortId) (cause data : Nat) : (s.postPort p cause data).wake = s.wake := rfl
@[simp] theorem State.postPort_waking (p : PortId) (cause data : Nat) : (s.postPort p cause data).waking = s.waking := rfl
@[simp] theorem State.postPort_rootOff (p : PortId) (cause data : Nat) : (s.postPort p cause data).rootOff = s.rootOff := rfl
@[simp] theorem State.postPort_vddhOff (p : PortId) (cause data : Nat) : (s.postPort p cause data).vddhOff = s.vddhOff := rfl
@[simp] theorem State.postPort_lead (p : PortId) (cause data : Nat) : (s.postPort p cause data).lead = s.lead := rfl
@[simp] theorem State.postPort_air (p : PortId) (cause data : Nat) : (s.postPort p cause data).air = s.air := rfl
@[simp] theorem State.postPort_ep0 (p : PortId) (cause data : Nat) : (s.postPort p cause data).ep0 = s.ep0 := rfl
@[simp] theorem State.postPort_ep1 (p : PortId) (cause data : Nat) : (s.postPort p cause data).ep1 = s.ep1 := rfl
@[simp] theorem State.postPort_gsync (p : PortId) (cause data : Nat) : (s.postPort p cause data).gsync = s.gsync := rfl
@[simp] theorem State.postPort_fwHeld (p : PortId) (cause data : Nat) : (s.postPort p cause data).fwHeld = s.fwHeld := rfl
@[simp] theorem State.postPort_fwOp (p : PortId) (cause data : Nat) : (s.postPort p cause data).fwOp = s.fwOp := rfl
@[simp] theorem State.postPort_fwDone (p : PortId) (cause data : Nat) : (s.postPort p cause data).fwDone = s.fwDone := rfl
@[simp] theorem State.postPort_fwBack (p : PortId) (cause data : Nat) : (s.postPort p cause data).fwBack = s.fwBack := rfl
@[simp] theorem State.postPort_pending (p : PortId) (cause data : Nat) : (s.postPort p cause data).pending = s.pending := rfl

/-! ### State.enqueue -/
@[simp] theorem State.enqueue_part (d : DieId) (k : Packet) (op : Nat) : (s.enqueue d k op).part = s.part := rfl
@[simp] theorem State.enqueue_phase (d : DieId) (k : Packet) (op : Nat) : (s.enqueue d k op).phase = s.phase := rfl
@[simp] theorem State.enqueue_pos (d : DieId) (k : Packet) (op : Nat) : (s.enqueue d k op).pos = s.pos := rfl
@[simp] theorem State.enqueue_free (d : DieId) (k : Packet) (op : Nat) : (s.enqueue d k op).free = s.free := rfl
@[simp] theorem State.enqueue_wake (d : DieId) (k : Packet) (op : Nat) : (s.enqueue d k op).wake = s.wake := rfl
@[simp] theorem State.enqueue_waking (d : DieId) (k : Packet) (op : Nat) : (s.enqueue d k op).waking = s.waking := rfl
@[simp] theorem State.enqueue_rootOff (d : DieId) (k : Packet) (op : Nat) : (s.enqueue d k op).rootOff = s.rootOff := rfl
@[simp] theorem State.enqueue_vddhOff (d : DieId) (k : Packet) (op : Nat) : (s.enqueue d k op).vddhOff = s.vddhOff := rfl
@[simp] theorem State.enqueue_lead (d : DieId) (k : Packet) (op : Nat) : (s.enqueue d k op).lead = s.lead := rfl
@[simp] theorem State.enqueue_air (d : DieId) (k : Packet) (op : Nat) : (s.enqueue d k op).air = s.air := rfl
@[simp] theorem State.enqueue_ep0 (d : DieId) (k : Packet) (op : Nat) : (s.enqueue d k op).ep0 = s.ep0 := rfl
@[simp] theorem State.enqueue_ep1 (d : DieId) (k : Packet) (op : Nat) : (s.enqueue d k op).ep1 = s.ep1 := rfl
@[simp] theorem State.enqueue_gsync (d : DieId) (k : Packet) (op : Nat) : (s.enqueue d k op).gsync = s.gsync := rfl
@[simp] theorem State.enqueue_fwHeld (d : DieId) (k : Packet) (op : Nat) : (s.enqueue d k op).fwHeld = s.fwHeld := rfl
@[simp] theorem State.enqueue_fwOp (d : DieId) (k : Packet) (op : Nat) : (s.enqueue d k op).fwOp = s.fwOp := rfl
@[simp] theorem State.enqueue_fwDone (d : DieId) (k : Packet) (op : Nat) : (s.enqueue d k op).fwDone = s.fwDone := rfl
@[simp] theorem State.enqueue_fwBack (d : DieId) (k : Packet) (op : Nat) : (s.enqueue d k op).fwBack = s.fwBack := rfl
@[simp] theorem State.enqueue_pending (d : DieId) (k : Packet) (op : Nat) : (s.enqueue d k op).pending = s.pending := rfl

/-! ### State.takeInbox -/
@[simp] theorem State.takeInbox_part (k : Packet) (op : Nat) : (s.takeInbox k op).part = s.part := rfl
@[simp] theorem State.takeInbox_phase (k : Packet) (op : Nat) : (s.takeInbox k op).phase = s.phase := rfl
@[simp] theorem State.takeInbox_pos (k : Packet) (op : Nat) : (s.takeInbox k op).pos = s.pos := rfl
@[simp] theorem State.takeInbox_free (k : Packet) (op : Nat) : (s.takeInbox k op).free = s.free := rfl
@[simp] theorem State.takeInbox_wake (k : Packet) (op : Nat) : (s.takeInbox k op).wake = s.wake := rfl
@[simp] theorem State.takeInbox_waking (k : Packet) (op : Nat) : (s.takeInbox k op).waking = s.waking := rfl
@[simp] theorem State.takeInbox_rootOff (k : Packet) (op : Nat) : (s.takeInbox k op).rootOff = s.rootOff := rfl
@[simp] theorem State.takeInbox_vddhOff (k : Packet) (op : Nat) : (s.takeInbox k op).vddhOff = s.vddhOff := rfl
@[simp] theorem State.takeInbox_lead (k : Packet) (op : Nat) : (s.takeInbox k op).lead = s.lead := rfl
@[simp] theorem State.takeInbox_air (k : Packet) (op : Nat) : (s.takeInbox k op).air = s.air := rfl
@[simp] theorem State.takeInbox_ep0 (k : Packet) (op : Nat) : (s.takeInbox k op).ep0 = s.ep0 := rfl
@[simp] theorem State.takeInbox_ep1 (k : Packet) (op : Nat) : (s.takeInbox k op).ep1 = s.ep1 := rfl
@[simp] theorem State.takeInbox_gsync (k : Packet) (op : Nat) : (s.takeInbox k op).gsync = s.gsync := rfl
@[simp] theorem State.takeInbox_fwHeld (k : Packet) (op : Nat) : (s.takeInbox k op).fwHeld = s.fwHeld := rfl
@[simp] theorem State.takeInbox_fwOp (k : Packet) (op : Nat) : (s.takeInbox k op).fwOp = s.fwOp := rfl
@[simp] theorem State.takeInbox_fwDone (k : Packet) (op : Nat) : (s.takeInbox k op).fwDone = s.fwDone := rfl
@[simp] theorem State.takeInbox_fwBack (k : Packet) (op : Nat) : (s.takeInbox k op).fwBack = s.fwBack := rfl
@[simp] theorem State.takeInbox_pending (k : Packet) (op : Nat) : (s.takeInbox k op).pending = s.pending := rfl

variable (x : Die)

/-! ### Die.count -/
@[simp] theorem Die.count_active (o n : Nat) : (x.count o n).active = x.active := rfl
@[simp] theorem Die.count_staged (o n : Nat) : (x.count o n).staged = x.staged := rfl
@[simp] theorem Die.count_ledger (o n : Nat) : (x.count o n).ledger = x.ledger := rfl
@[simp] theorem Die.count_pend (o n : Nat) : (x.count o n).pend = x.pend := rfl
@[simp] theorem Die.count_slices (o n : Nat) : (x.count o n).slices = x.slices := rfl
@[simp] theorem Die.count_pins (o n : Nat) : (x.count o n).pins = x.pins := rfl
@[simp] theorem Die.count_txs (o n : Nat) : (x.count o n).txs = x.txs := rfl
@[simp] theorem Die.count_ports (o n : Nat) : (x.count o n).ports = x.ports := rfl
@[simp] theorem Die.count_courses (o n : Nat) : (x.count o n).courses = x.courses := rfl
@[simp] theorem Die.count_stroke (o n : Nat) : (x.count o n).stroke = x.stroke := rfl
@[simp] theorem Die.count_clk (o n : Nat) : (x.count o n).clk = x.clk := rfl
@[simp] theorem Die.count_brg (o n : Nat) : (x.count o n).brg = x.brg := rfl
@[simp] theorem Die.count_prot (o n : Nat) : (x.count o n).prot = x.prot := rfl
@[simp] theorem Die.count_peg (o n : Nat) : (x.count o n).peg = x.peg := rfl
@[simp] theorem Die.count_q0 (o n : Nat) : (x.count o n).q0 = x.q0 := rfl
@[simp] theorem Die.count_q1 (o n : Nat) : (x.count o n).q1 = x.q1 := rfl
@[simp] theorem Die.count_q2 (o n : Nat) : (x.count o n).q2 = x.q2 := rfl
@[simp] theorem Die.count_evt (o n : Nat) : (x.count o n).evt = x.evt := rfl
@[simp] theorem Die.count_twi (o n : Nat) : (x.count o n).twi = x.twi := rfl
@[simp] theorem Die.count_hk (o n : Nat) : (x.count o n).hk = x.hk := rfl
@[simp] theorem Die.count_bist (o n : Nat) : (x.count o n).bist = x.bist := rfl
@[simp] theorem Die.count_nvs (o n : Nat) : (x.count o n).nvs = x.nvs := rfl
@[simp] theorem Die.count_calLoaded (o n : Nat) : (x.count o n).calLoaded = x.calLoaded := rfl
@[simp] theorem Die.count_sram (o n : Nat) : (x.count o n).sram = x.sram := rfl
@[simp] theorem Die.count_nv (o n : Nat) : (x.count o n).nv = x.nv := rfl
@[simp] theorem Die.count_ir (o n : Nat) : (x.count o n).ir = x.ir := rfl
@[simp] theorem Die.count_irCap (o n : Nat) : (x.count o n).irCap = x.irCap := rfl

/-! ### Die.setPort -/
@[simp] theorem Die.setPort_active (n : Nat) (v : Port) : (x.setPort n v).active = x.active := rfl
@[simp] theorem Die.setPort_staged (n : Nat) (v : Port) : (x.setPort n v).staged = x.staged := rfl
@[simp] theorem Die.setPort_ledger (n : Nat) (v : Port) : (x.setPort n v).ledger = x.ledger := rfl
@[simp] theorem Die.setPort_pend (n : Nat) (v : Port) : (x.setPort n v).pend = x.pend := rfl
@[simp] theorem Die.setPort_slices (n : Nat) (v : Port) : (x.setPort n v).slices = x.slices := rfl
@[simp] theorem Die.setPort_pins (n : Nat) (v : Port) : (x.setPort n v).pins = x.pins := rfl
@[simp] theorem Die.setPort_txs (n : Nat) (v : Port) : (x.setPort n v).txs = x.txs := rfl
@[simp] theorem Die.setPort_courses (n : Nat) (v : Port) : (x.setPort n v).courses = x.courses := rfl
@[simp] theorem Die.setPort_stroke (n : Nat) (v : Port) : (x.setPort n v).stroke = x.stroke := rfl
@[simp] theorem Die.setPort_clk (n : Nat) (v : Port) : (x.setPort n v).clk = x.clk := rfl
@[simp] theorem Die.setPort_brg (n : Nat) (v : Port) : (x.setPort n v).brg = x.brg := rfl
@[simp] theorem Die.setPort_prot (n : Nat) (v : Port) : (x.setPort n v).prot = x.prot := rfl
@[simp] theorem Die.setPort_peg (n : Nat) (v : Port) : (x.setPort n v).peg = x.peg := rfl
@[simp] theorem Die.setPort_q0 (n : Nat) (v : Port) : (x.setPort n v).q0 = x.q0 := rfl
@[simp] theorem Die.setPort_q1 (n : Nat) (v : Port) : (x.setPort n v).q1 = x.q1 := rfl
@[simp] theorem Die.setPort_q2 (n : Nat) (v : Port) : (x.setPort n v).q2 = x.q2 := rfl
@[simp] theorem Die.setPort_evt (n : Nat) (v : Port) : (x.setPort n v).evt = x.evt := rfl
@[simp] theorem Die.setPort_twi (n : Nat) (v : Port) : (x.setPort n v).twi = x.twi := rfl
@[simp] theorem Die.setPort_hk (n : Nat) (v : Port) : (x.setPort n v).hk = x.hk := rfl
@[simp] theorem Die.setPort_bist (n : Nat) (v : Port) : (x.setPort n v).bist = x.bist := rfl
@[simp] theorem Die.setPort_nvs (n : Nat) (v : Port) : (x.setPort n v).nvs = x.nvs := rfl
@[simp] theorem Die.setPort_tele (n : Nat) (v : Port) : (x.setPort n v).tele = x.tele := rfl
@[simp] theorem Die.setPort_calLoaded (n : Nat) (v : Port) : (x.setPort n v).calLoaded = x.calLoaded := rfl
@[simp] theorem Die.setPort_sram (n : Nat) (v : Port) : (x.setPort n v).sram = x.sram := rfl
@[simp] theorem Die.setPort_nv (n : Nat) (v : Port) : (x.setPort n v).nv = x.nv := rfl
@[simp] theorem Die.setPort_ir (n : Nat) (v : Port) : (x.setPort n v).ir = x.ir := rfl
@[simp] theorem Die.setPort_irCap (n : Nat) (v : Port) : (x.setPort n v).irCap = x.irCap := rfl

/-! ### Die.setPin -/
@[simp] theorem Die.setPin_active (n : Nat) (v : PinRec) : (x.setPin n v).active = x.active := rfl
@[simp] theorem Die.setPin_staged (n : Nat) (v : PinRec) : (x.setPin n v).staged = x.staged := rfl
@[simp] theorem Die.setPin_ledger (n : Nat) (v : PinRec) : (x.setPin n v).ledger = x.ledger := rfl
@[simp] theorem Die.setPin_pend (n : Nat) (v : PinRec) : (x.setPin n v).pend = x.pend := rfl
@[simp] theorem Die.setPin_slices (n : Nat) (v : PinRec) : (x.setPin n v).slices = x.slices := rfl
@[simp] theorem Die.setPin_txs (n : Nat) (v : PinRec) : (x.setPin n v).txs = x.txs := rfl
@[simp] theorem Die.setPin_ports (n : Nat) (v : PinRec) : (x.setPin n v).ports = x.ports := rfl
@[simp] theorem Die.setPin_courses (n : Nat) (v : PinRec) : (x.setPin n v).courses = x.courses := rfl
@[simp] theorem Die.setPin_stroke (n : Nat) (v : PinRec) : (x.setPin n v).stroke = x.stroke := rfl
@[simp] theorem Die.setPin_clk (n : Nat) (v : PinRec) : (x.setPin n v).clk = x.clk := rfl
@[simp] theorem Die.setPin_brg (n : Nat) (v : PinRec) : (x.setPin n v).brg = x.brg := rfl
@[simp] theorem Die.setPin_prot (n : Nat) (v : PinRec) : (x.setPin n v).prot = x.prot := rfl
@[simp] theorem Die.setPin_peg (n : Nat) (v : PinRec) : (x.setPin n v).peg = x.peg := rfl
@[simp] theorem Die.setPin_q0 (n : Nat) (v : PinRec) : (x.setPin n v).q0 = x.q0 := rfl
@[simp] theorem Die.setPin_q1 (n : Nat) (v : PinRec) : (x.setPin n v).q1 = x.q1 := rfl
@[simp] theorem Die.setPin_q2 (n : Nat) (v : PinRec) : (x.setPin n v).q2 = x.q2 := rfl
@[simp] theorem Die.setPin_evt (n : Nat) (v : PinRec) : (x.setPin n v).evt = x.evt := rfl
@[simp] theorem Die.setPin_twi (n : Nat) (v : PinRec) : (x.setPin n v).twi = x.twi := rfl
@[simp] theorem Die.setPin_hk (n : Nat) (v : PinRec) : (x.setPin n v).hk = x.hk := rfl
@[simp] theorem Die.setPin_bist (n : Nat) (v : PinRec) : (x.setPin n v).bist = x.bist := rfl
@[simp] theorem Die.setPin_nvs (n : Nat) (v : PinRec) : (x.setPin n v).nvs = x.nvs := rfl
@[simp] theorem Die.setPin_tele (n : Nat) (v : PinRec) : (x.setPin n v).tele = x.tele := rfl
@[simp] theorem Die.setPin_calLoaded (n : Nat) (v : PinRec) : (x.setPin n v).calLoaded = x.calLoaded := rfl
@[simp] theorem Die.setPin_sram (n : Nat) (v : PinRec) : (x.setPin n v).sram = x.sram := rfl
@[simp] theorem Die.setPin_nv (n : Nat) (v : PinRec) : (x.setPin n v).nv = x.nv := rfl
@[simp] theorem Die.setPin_ir (n : Nat) (v : PinRec) : (x.setPin n v).ir = x.ir := rfl
@[simp] theorem Die.setPin_irCap (n : Nat) (v : PinRec) : (x.setPin n v).irCap = x.irCap := rfl

/-! ### Die.setAct -/
@[simp] theorem Die.setAct_staged (o : Nat) (v : Half) : (x.setAct o v).staged = x.staged := rfl
@[simp] theorem Die.setAct_ledger (o : Nat) (v : Half) : (x.setAct o v).ledger = x.ledger := rfl
@[simp] theorem Die.setAct_pend (o : Nat) (v : Half) : (x.setAct o v).pend = x.pend := rfl
@[simp] theorem Die.setAct_slices (o : Nat) (v : Half) : (x.setAct o v).slices = x.slices := rfl
@[simp] theorem Die.setAct_pins (o : Nat) (v : Half) : (x.setAct o v).pins = x.pins := rfl
@[simp] theorem Die.setAct_txs (o : Nat) (v : Half) : (x.setAct o v).txs = x.txs := rfl
@[simp] theorem Die.setAct_ports (o : Nat) (v : Half) : (x.setAct o v).ports = x.ports := rfl
@[simp] theorem Die.setAct_courses (o : Nat) (v : Half) : (x.setAct o v).courses = x.courses := rfl
@[simp] theorem Die.setAct_stroke (o : Nat) (v : Half) : (x.setAct o v).stroke = x.stroke := rfl
@[simp] theorem Die.setAct_clk (o : Nat) (v : Half) : (x.setAct o v).clk = x.clk := rfl
@[simp] theorem Die.setAct_brg (o : Nat) (v : Half) : (x.setAct o v).brg = x.brg := rfl
@[simp] theorem Die.setAct_prot (o : Nat) (v : Half) : (x.setAct o v).prot = x.prot := rfl
@[simp] theorem Die.setAct_peg (o : Nat) (v : Half) : (x.setAct o v).peg = x.peg := rfl
@[simp] theorem Die.setAct_q0 (o : Nat) (v : Half) : (x.setAct o v).q0 = x.q0 := rfl
@[simp] theorem Die.setAct_q1 (o : Nat) (v : Half) : (x.setAct o v).q1 = x.q1 := rfl
@[simp] theorem Die.setAct_q2 (o : Nat) (v : Half) : (x.setAct o v).q2 = x.q2 := rfl
@[simp] theorem Die.setAct_evt (o : Nat) (v : Half) : (x.setAct o v).evt = x.evt := rfl
@[simp] theorem Die.setAct_twi (o : Nat) (v : Half) : (x.setAct o v).twi = x.twi := rfl
@[simp] theorem Die.setAct_hk (o : Nat) (v : Half) : (x.setAct o v).hk = x.hk := rfl
@[simp] theorem Die.setAct_bist (o : Nat) (v : Half) : (x.setAct o v).bist = x.bist := rfl
@[simp] theorem Die.setAct_nvs (o : Nat) (v : Half) : (x.setAct o v).nvs = x.nvs := rfl
@[simp] theorem Die.setAct_tele (o : Nat) (v : Half) : (x.setAct o v).tele = x.tele := rfl
@[simp] theorem Die.setAct_calLoaded (o : Nat) (v : Half) : (x.setAct o v).calLoaded = x.calLoaded := rfl
@[simp] theorem Die.setAct_sram (o : Nat) (v : Half) : (x.setAct o v).sram = x.sram := rfl
@[simp] theorem Die.setAct_nv (o : Nat) (v : Half) : (x.setAct o v).nv = x.nv := rfl
@[simp] theorem Die.setAct_ir (o : Nat) (v : Half) : (x.setAct o v).ir = x.ir := rfl
@[simp] theorem Die.setAct_irCap (o : Nat) (v : Half) : (x.setAct o v).irCap = x.irCap := rfl

/-! ### Die.setLed -/
@[simp] theorem Die.setLed_active (o : Nat) (v : Half) : (x.setLed o v).active = x.active := rfl
@[simp] theorem Die.setLed_staged (o : Nat) (v : Half) : (x.setLed o v).staged = x.staged := rfl
@[simp] theorem Die.setLed_pend (o : Nat) (v : Half) : (x.setLed o v).pend = x.pend := rfl
@[simp] theorem Die.setLed_slices (o : Nat) (v : Half) : (x.setLed o v).slices = x.slices := rfl
@[simp] theorem Die.setLed_pins (o : Nat) (v : Half) : (x.setLed o v).pins = x.pins := rfl
@[simp] theorem Die.setLed_txs (o : Nat) (v : Half) : (x.setLed o v).txs = x.txs := rfl
@[simp] theorem Die.setLed_ports (o : Nat) (v : Half) : (x.setLed o v).ports = x.ports := rfl
@[simp] theorem Die.setLed_courses (o : Nat) (v : Half) : (x.setLed o v).courses = x.courses := rfl
@[simp] theorem Die.setLed_stroke (o : Nat) (v : Half) : (x.setLed o v).stroke = x.stroke := rfl
@[simp] theorem Die.setLed_clk (o : Nat) (v : Half) : (x.setLed o v).clk = x.clk := rfl
@[simp] theorem Die.setLed_brg (o : Nat) (v : Half) : (x.setLed o v).brg = x.brg := rfl
@[simp] theorem Die.setLed_peg (o : Nat) (v : Half) : (x.setLed o v).peg = x.peg := rfl
@[simp] theorem Die.setLed_q0 (o : Nat) (v : Half) : (x.setLed o v).q0 = x.q0 := rfl
@[simp] theorem Die.setLed_q1 (o : Nat) (v : Half) : (x.setLed o v).q1 = x.q1 := rfl
@[simp] theorem Die.setLed_q2 (o : Nat) (v : Half) : (x.setLed o v).q2 = x.q2 := rfl
@[simp] theorem Die.setLed_evt (o : Nat) (v : Half) : (x.setLed o v).evt = x.evt := rfl
@[simp] theorem Die.setLed_twi (o : Nat) (v : Half) : (x.setLed o v).twi = x.twi := rfl
@[simp] theorem Die.setLed_hk (o : Nat) (v : Half) : (x.setLed o v).hk = x.hk := rfl
@[simp] theorem Die.setLed_bist (o : Nat) (v : Half) : (x.setLed o v).bist = x.bist := rfl
@[simp] theorem Die.setLed_nvs (o : Nat) (v : Half) : (x.setLed o v).nvs = x.nvs := rfl
@[simp] theorem Die.setLed_tele (o : Nat) (v : Half) : (x.setLed o v).tele = x.tele := rfl
@[simp] theorem Die.setLed_calLoaded (o : Nat) (v : Half) : (x.setLed o v).calLoaded = x.calLoaded := rfl
@[simp] theorem Die.setLed_sram (o : Nat) (v : Half) : (x.setLed o v).sram = x.sram := rfl
@[simp] theorem Die.setLed_nv (o : Nat) (v : Half) : (x.setLed o v).nv = x.nv := rfl
@[simp] theorem Die.setLed_ir (o : Nat) (v : Half) : (x.setLed o v).ir = x.ir := rfl
@[simp] theorem Die.setLed_irCap (o : Nat) (v : Half) : (x.setLed o v).irCap = x.irCap := rfl

/-! ### Die.lowered -/
@[simp] theorem Die.lowered_active : x.lowered.active = x.active := rfl
@[simp] theorem Die.lowered_staged : x.lowered.staged = x.staged := rfl
@[simp] theorem Die.lowered_ledger : x.lowered.ledger = x.ledger := rfl
@[simp] theorem Die.lowered_pend : x.lowered.pend = x.pend := rfl
@[simp] theorem Die.lowered_slices : x.lowered.slices = x.slices := rfl
@[simp] theorem Die.lowered_pins : x.lowered.pins = x.pins := rfl
@[simp] theorem Die.lowered_txs : x.lowered.txs = x.txs := rfl
@[simp] theorem Die.lowered_ports : x.lowered.ports = x.ports := rfl
@[simp] theorem Die.lowered_courses : x.lowered.courses = x.courses := rfl
@[simp] theorem Die.lowered_stroke : x.lowered.stroke = x.stroke := rfl
@[simp] theorem Die.lowered_clk : x.lowered.clk = x.clk := rfl
@[simp] theorem Die.lowered_brg : x.lowered.brg = x.brg := rfl
@[simp] theorem Die.lowered_prot : x.lowered.prot = x.prot := rfl
@[simp] theorem Die.lowered_peg : x.lowered.peg = x.peg := rfl
@[simp] theorem Die.lowered_q0 : x.lowered.q0 = x.q0 := rfl
@[simp] theorem Die.lowered_q1 : x.lowered.q1 = x.q1 := rfl
@[simp] theorem Die.lowered_q2 : x.lowered.q2 = x.q2 := rfl
@[simp] theorem Die.lowered_evt : x.lowered.evt = x.evt := rfl
@[simp] theorem Die.lowered_twi : x.lowered.twi = x.twi := rfl
@[simp] theorem Die.lowered_hk : x.lowered.hk = x.hk := rfl
@[simp] theorem Die.lowered_bist : x.lowered.bist = x.bist := rfl
@[simp] theorem Die.lowered_nvs : x.lowered.nvs = x.nvs := rfl
@[simp] theorem Die.lowered_calLoaded : x.lowered.calLoaded = x.calLoaded := rfl
@[simp] theorem Die.lowered_sram : x.lowered.sram = x.sram := rfl
@[simp] theorem Die.lowered_nv : x.lowered.nv = x.nv := rfl
@[simp] theorem Die.lowered_ir : x.lowered.ir = x.ir := rfl
@[simp] theorem Die.lowered_irCap : x.lowered.irCap = x.irCap := rfl

/-! ### Die.remember -/
@[simp] theorem Die.remember_active (e : Ended) : (x.remember e).active = x.active := rfl
@[simp] theorem Die.remember_staged (e : Ended) : (x.remember e).staged = x.staged := rfl
@[simp] theorem Die.remember_ledger (e : Ended) : (x.remember e).ledger = x.ledger := rfl
@[simp] theorem Die.remember_pend (e : Ended) : (x.remember e).pend = x.pend := rfl
@[simp] theorem Die.remember_slices (e : Ended) : (x.remember e).slices = x.slices := rfl
@[simp] theorem Die.remember_pins (e : Ended) : (x.remember e).pins = x.pins := rfl
@[simp] theorem Die.remember_txs (e : Ended) : (x.remember e).txs = x.txs := rfl
@[simp] theorem Die.remember_ports (e : Ended) : (x.remember e).ports = x.ports := rfl
@[simp] theorem Die.remember_courses (e : Ended) : (x.remember e).courses = x.courses := rfl
@[simp] theorem Die.remember_stroke (e : Ended) : (x.remember e).stroke = x.stroke := rfl
@[simp] theorem Die.remember_clk (e : Ended) : (x.remember e).clk = x.clk := rfl
@[simp] theorem Die.remember_brg (e : Ended) : (x.remember e).brg = x.brg := rfl
@[simp] theorem Die.remember_prot (e : Ended) : (x.remember e).prot = x.prot := rfl
@[simp] theorem Die.remember_q0 (e : Ended) : (x.remember e).q0 = x.q0 := rfl
@[simp] theorem Die.remember_q1 (e : Ended) : (x.remember e).q1 = x.q1 := rfl
@[simp] theorem Die.remember_q2 (e : Ended) : (x.remember e).q2 = x.q2 := rfl
@[simp] theorem Die.remember_evt (e : Ended) : (x.remember e).evt = x.evt := rfl
@[simp] theorem Die.remember_twi (e : Ended) : (x.remember e).twi = x.twi := rfl
@[simp] theorem Die.remember_hk (e : Ended) : (x.remember e).hk = x.hk := rfl
@[simp] theorem Die.remember_bist (e : Ended) : (x.remember e).bist = x.bist := rfl
@[simp] theorem Die.remember_nvs (e : Ended) : (x.remember e).nvs = x.nvs := rfl
@[simp] theorem Die.remember_tele (e : Ended) : (x.remember e).tele = x.tele := rfl
@[simp] theorem Die.remember_calLoaded (e : Ended) : (x.remember e).calLoaded = x.calLoaded := rfl
@[simp] theorem Die.remember_sram (e : Ended) : (x.remember e).sram = x.sram := rfl
@[simp] theorem Die.remember_nv (e : Ended) : (x.remember e).nv = x.nv := rfl
@[simp] theorem Die.remember_ir (e : Ended) : (x.remember e).ir = x.ir := rfl
@[simp] theorem Die.remember_irCap (e : Ended) : (x.remember e).irCap = x.irCap := rfl

/-! ### Die.dropGroup -/
@[simp] theorem Die.dropGroup_active (g : Nat) : (x.dropGroup g).active = x.active := rfl
@[simp] theorem Die.dropGroup_ledger (g : Nat) : (x.dropGroup g).ledger = x.ledger := rfl
@[simp] theorem Die.dropGroup_slices (g : Nat) : (x.dropGroup g).slices = x.slices := rfl
@[simp] theorem Die.dropGroup_pins (g : Nat) : (x.dropGroup g).pins = x.pins := rfl
@[simp] theorem Die.dropGroup_txs (g : Nat) : (x.dropGroup g).txs = x.txs := rfl
@[simp] theorem Die.dropGroup_ports (g : Nat) : (x.dropGroup g).ports = x.ports := rfl
@[simp] theorem Die.dropGroup_courses (g : Nat) : (x.dropGroup g).courses = x.courses := rfl
@[simp] theorem Die.dropGroup_stroke (g : Nat) : (x.dropGroup g).stroke = x.stroke := rfl
@[simp] theorem Die.dropGroup_clk (g : Nat) : (x.dropGroup g).clk = x.clk := rfl
@[simp] theorem Die.dropGroup_brg (g : Nat) : (x.dropGroup g).brg = x.brg := rfl
@[simp] theorem Die.dropGroup_prot (g : Nat) : (x.dropGroup g).prot = x.prot := rfl
@[simp] theorem Die.dropGroup_peg (g : Nat) : (x.dropGroup g).peg = x.peg := rfl
@[simp] theorem Die.dropGroup_q0 (g : Nat) : (x.dropGroup g).q0 = x.q0 := rfl
@[simp] theorem Die.dropGroup_q1 (g : Nat) : (x.dropGroup g).q1 = x.q1 := rfl
@[simp] theorem Die.dropGroup_q2 (g : Nat) : (x.dropGroup g).q2 = x.q2 := rfl
@[simp] theorem Die.dropGroup_evt (g : Nat) : (x.dropGroup g).evt = x.evt := rfl
@[simp] theorem Die.dropGroup_twi (g : Nat) : (x.dropGroup g).twi = x.twi := rfl
@[simp] theorem Die.dropGroup_hk (g : Nat) : (x.dropGroup g).hk = x.hk := rfl
@[simp] theorem Die.dropGroup_bist (g : Nat) : (x.dropGroup g).bist = x.bist := rfl
@[simp] theorem Die.dropGroup_nvs (g : Nat) : (x.dropGroup g).nvs = x.nvs := rfl
@[simp] theorem Die.dropGroup_tele (g : Nat) : (x.dropGroup g).tele = x.tele := rfl
@[simp] theorem Die.dropGroup_calLoaded (g : Nat) : (x.dropGroup g).calLoaded = x.calLoaded := rfl
@[simp] theorem Die.dropGroup_sram (g : Nat) : (x.dropGroup g).sram = x.sram := rfl
@[simp] theorem Die.dropGroup_nv (g : Nat) : (x.dropGroup g).nv = x.nv := rfl
@[simp] theorem Die.dropGroup_ir (g : Nat) : (x.dropGroup g).ir = x.ir := rfl
@[simp] theorem Die.dropGroup_irCap (g : Nat) : (x.dropGroup g).irCap = x.irCap := rfl

/-! ### Die.mapOps -/
@[simp] theorem Die.mapOps_active (f : Op → Bool) (g : Op → Op) : (x.mapOps f g).active = x.active := rfl
@[simp] theorem Die.mapOps_staged (f : Op → Bool) (g : Op → Op) : (x.mapOps f g).staged = x.staged := rfl
@[simp] theorem Die.mapOps_ledger (f : Op → Bool) (g : Op → Op) : (x.mapOps f g).ledger = x.ledger := rfl
@[simp] theorem Die.mapOps_pend (f : Op → Bool) (g : Op → Op) : (x.mapOps f g).pend = x.pend := rfl
@[simp] theorem Die.mapOps_slices (f : Op → Bool) (g : Op → Op) : (x.mapOps f g).slices = x.slices := rfl
@[simp] theorem Die.mapOps_pins (f : Op → Bool) (g : Op → Op) : (x.mapOps f g).pins = x.pins := rfl
@[simp] theorem Die.mapOps_txs (f : Op → Bool) (g : Op → Op) : (x.mapOps f g).txs = x.txs := rfl
@[simp] theorem Die.mapOps_ports (f : Op → Bool) (g : Op → Op) : (x.mapOps f g).ports = x.ports := rfl
@[simp] theorem Die.mapOps_courses (f : Op → Bool) (g : Op → Op) : (x.mapOps f g).courses = x.courses := rfl
@[simp] theorem Die.mapOps_stroke (f : Op → Bool) (g : Op → Op) : (x.mapOps f g).stroke = x.stroke := rfl
@[simp] theorem Die.mapOps_clk (f : Op → Bool) (g : Op → Op) : (x.mapOps f g).clk = x.clk := rfl
@[simp] theorem Die.mapOps_brg (f : Op → Bool) (g : Op → Op) : (x.mapOps f g).brg = x.brg := rfl
@[simp] theorem Die.mapOps_prot (f : Op → Bool) (g : Op → Op) : (x.mapOps f g).prot = x.prot := rfl
@[simp] theorem Die.mapOps_q0 (f : Op → Bool) (g : Op → Op) : (x.mapOps f g).q0 = x.q0 := rfl
@[simp] theorem Die.mapOps_q1 (f : Op → Bool) (g : Op → Op) : (x.mapOps f g).q1 = x.q1 := rfl
@[simp] theorem Die.mapOps_q2 (f : Op → Bool) (g : Op → Op) : (x.mapOps f g).q2 = x.q2 := rfl
@[simp] theorem Die.mapOps_evt (f : Op → Bool) (g : Op → Op) : (x.mapOps f g).evt = x.evt := rfl
@[simp] theorem Die.mapOps_twi (f : Op → Bool) (g : Op → Op) : (x.mapOps f g).twi = x.twi := rfl
@[simp] theorem Die.mapOps_hk (f : Op → Bool) (g : Op → Op) : (x.mapOps f g).hk = x.hk := rfl
@[simp] theorem Die.mapOps_bist (f : Op → Bool) (g : Op → Op) : (x.mapOps f g).bist = x.bist := rfl
@[simp] theorem Die.mapOps_nvs (f : Op → Bool) (g : Op → Op) : (x.mapOps f g).nvs = x.nvs := rfl
@[simp] theorem Die.mapOps_tele (f : Op → Bool) (g : Op → Op) : (x.mapOps f g).tele = x.tele := rfl
@[simp] theorem Die.mapOps_calLoaded (f : Op → Bool) (g : Op → Op) : (x.mapOps f g).calLoaded = x.calLoaded := rfl
@[simp] theorem Die.mapOps_sram (f : Op → Bool) (g : Op → Op) : (x.mapOps f g).sram = x.sram := rfl
@[simp] theorem Die.mapOps_nv (f : Op → Bool) (g : Op → Op) : (x.mapOps f g).nv = x.nv := rfl
@[simp] theorem Die.mapOps_ir (f : Op → Bool) (g : Op → Op) : (x.mapOps f g).ir = x.ir := rfl
@[simp] theorem Die.mapOps_irCap (f : Op → Bool) (g : Op → Op) : (x.mapOps f g).irCap = x.irCap := rfl

/-! ### Updates that also mark level counters (R400): only the telemetry block besides -/
theorem Die.mark_eq (o : Nat) : ∃ t, x.mark o = { x with tele := t } := by unfold Die.mark; split <;> exact ⟨_, rfl⟩
theorem Die.fall_eq (o : Nat) (a b : Bool) : ∃ t, x.fall o a b = { x with tele := t } := by
  unfold Die.fall; split
  · exact x.mark_eq o
  · exact ⟨_, rfl⟩
/-- Writing an object changes its map and the level marks, nothing else. -/
theorem Die.markLow_eq (n : Nat) : ∃ t, x.markLow n = { x with tele := t } := by unfold Die.markLow; split <;> exact ⟨_, rfl⟩
theorem Die.setSlice_eq (n : Nat) (v : Slice) : ∃ t, x.setSlice n v = { x with tele := t, slices := SMap.put {} x.slices n v } := by
  unfold Die.setSlice
  obtain ⟨t1, h1⟩ := x.fall_eq (cRx n + 0x10) ((x.slice n).capped) (v.capped)
  obtain ⟨t2, h2⟩ := ({ x with tele := t1 } : Die).markLow_eq n
  simp only [h1, h2]
  split
  · exact ⟨t2, rfl⟩
  · exact ⟨t1, rfl⟩
@[simp] theorem Die.setSlice_active (n : Nat) (v : Slice) : (x.setSlice n v).active = x.active := by obtain ⟨t, h⟩ := x.setSlice_eq n v; rw [h]
@[simp] theorem Die.setSlice_staged (n : Nat) (v : Slice) : (x.setSlice n v).staged = x.staged := by obtain ⟨t, h⟩ := x.setSlice_eq n v; rw [h]
@[simp] theorem Die.setSlice_ledger (n : Nat) (v : Slice) : (x.setSlice n v).ledger = x.ledger := by obtain ⟨t, h⟩ := x.setSlice_eq n v; rw [h]
@[simp] theorem Die.setSlice_pend (n : Nat) (v : Slice) : (x.setSlice n v).pend = x.pend := by obtain ⟨t, h⟩ := x.setSlice_eq n v; rw [h]
@[simp] theorem Die.setSlice_slices (n : Nat) (v : Slice) : (x.setSlice n v).slices = SMap.put {} x.slices n v := by obtain ⟨t, h⟩ := x.setSlice_eq n v; rw [h]
@[simp] theorem Die.setSlice_pins (n : Nat) (v : Slice) : (x.setSlice n v).pins = x.pins := by obtain ⟨t, h⟩ := x.setSlice_eq n v; rw [h]
@[simp] theorem Die.setSlice_txs (n : Nat) (v : Slice) : (x.setSlice n v).txs = x.txs := by obtain ⟨t, h⟩ := x.setSlice_eq n v; rw [h]
@[simp] theorem Die.setSlice_ports (n : Nat) (v : Slice) : (x.setSlice n v).ports = x.ports := by obtain ⟨t, h⟩ := x.setSlice_eq n v; rw [h]
@[simp] theorem Die.setSlice_courses (n : Nat) (v : Slice) : (x.setSlice n v).courses = x.courses := by obtain ⟨t, h⟩ := x.setSlice_eq n v; rw [h]
@[simp] theorem Die.setSlice_stroke (n : Nat) (v : Slice) : (x.setSlice n v).stroke = x.stroke := by obtain ⟨t, h⟩ := x.setSlice_eq n v; rw [h]
@[simp] theorem Die.setSlice_clk (n : Nat) (v : Slice) : (x.setSlice n v).clk = x.clk := by obtain ⟨t, h⟩ := x.setSlice_eq n v; rw [h]
@[simp] theorem Die.setSlice_brg (n : Nat) (v : Slice) : (x.setSlice n v).brg = x.brg := by obtain ⟨t, h⟩ := x.setSlice_eq n v; rw [h]
@[simp] theorem Die.setSlice_prot (n : Nat) (v : Slice) : (x.setSlice n v).prot = x.prot := by obtain ⟨t, h⟩ := x.setSlice_eq n v; rw [h]
@[simp] theorem Die.setSlice_peg (n : Nat) (v : Slice) : (x.setSlice n v).peg = x.peg := by obtain ⟨t, h⟩ := x.setSlice_eq n v; rw [h]
@[simp] theorem Die.setSlice_q0 (n : Nat) (v : Slice) : (x.setSlice n v).q0 = x.q0 := by obtain ⟨t, h⟩ := x.setSlice_eq n v; rw [h]
@[simp] theorem Die.setSlice_q1 (n : Nat) (v : Slice) : (x.setSlice n v).q1 = x.q1 := by obtain ⟨t, h⟩ := x.setSlice_eq n v; rw [h]
@[simp] theorem Die.setSlice_q2 (n : Nat) (v : Slice) : (x.setSlice n v).q2 = x.q2 := by obtain ⟨t, h⟩ := x.setSlice_eq n v; rw [h]
@[simp] theorem Die.setSlice_evt (n : Nat) (v : Slice) : (x.setSlice n v).evt = x.evt := by obtain ⟨t, h⟩ := x.setSlice_eq n v; rw [h]
@[simp] theorem Die.setSlice_twi (n : Nat) (v : Slice) : (x.setSlice n v).twi = x.twi := by obtain ⟨t, h⟩ := x.setSlice_eq n v; rw [h]
@[simp] theorem Die.setSlice_hk (n : Nat) (v : Slice) : (x.setSlice n v).hk = x.hk := by obtain ⟨t, h⟩ := x.setSlice_eq n v; rw [h]
@[simp] theorem Die.setSlice_bist (n : Nat) (v : Slice) : (x.setSlice n v).bist = x.bist := by obtain ⟨t, h⟩ := x.setSlice_eq n v; rw [h]
@[simp] theorem Die.setSlice_nvs (n : Nat) (v : Slice) : (x.setSlice n v).nvs = x.nvs := by obtain ⟨t, h⟩ := x.setSlice_eq n v; rw [h]
@[simp] theorem Die.setSlice_calLoaded (n : Nat) (v : Slice) : (x.setSlice n v).calLoaded = x.calLoaded := by obtain ⟨t, h⟩ := x.setSlice_eq n v; rw [h]
@[simp] theorem Die.setSlice_sram (n : Nat) (v : Slice) : (x.setSlice n v).sram = x.sram := by obtain ⟨t, h⟩ := x.setSlice_eq n v; rw [h]
@[simp] theorem Die.setSlice_nv (n : Nat) (v : Slice) : (x.setSlice n v).nv = x.nv := by obtain ⟨t, h⟩ := x.setSlice_eq n v; rw [h]
@[simp] theorem Die.setSlice_ir (n : Nat) (v : Slice) : (x.setSlice n v).ir = x.ir := by obtain ⟨t, h⟩ := x.setSlice_eq n v; rw [h]
@[simp] theorem Die.setSlice_irCap (n : Nat) (v : Slice) : (x.setSlice n v).irCap = x.irCap := by obtain ⟨t, h⟩ := x.setSlice_eq n v; rw [h]
/-- Writing an object changes its map and the level marks, nothing else. -/
theorem Die.setTx_eq (n : Nat) (v : Tx) : ∃ t, x.setTx n v = { x with tele := t, txs := SMap.put {} x.txs n v } := by
  unfold Die.setTx
  obtain ⟨t1, h1⟩ := x.fall_eq (cTx n + 4) ((x.tx n).mode == 2) (v.mode == 2)
  obtain ⟨t2, h2⟩ := ({ x with tele := t1 } : Die).fall_eq (cTx n + 8) ((x.tx n).mode == 1) (v.mode == 1)
  exact ⟨t2, by simp only [h1, h2]⟩
@[simp] theorem Die.setTx_active (n : Nat) (v : Tx) : (x.setTx n v).active = x.active := by obtain ⟨t, h⟩ := x.setTx_eq n v; rw [h]
@[simp] theorem Die.setTx_staged (n : Nat) (v : Tx) : (x.setTx n v).staged = x.staged := by obtain ⟨t, h⟩ := x.setTx_eq n v; rw [h]
@[simp] theorem Die.setTx_ledger (n : Nat) (v : Tx) : (x.setTx n v).ledger = x.ledger := by obtain ⟨t, h⟩ := x.setTx_eq n v; rw [h]
@[simp] theorem Die.setTx_pend (n : Nat) (v : Tx) : (x.setTx n v).pend = x.pend := by obtain ⟨t, h⟩ := x.setTx_eq n v; rw [h]
@[simp] theorem Die.setTx_slices (n : Nat) (v : Tx) : (x.setTx n v).slices = x.slices := by obtain ⟨t, h⟩ := x.setTx_eq n v; rw [h]
@[simp] theorem Die.setTx_pins (n : Nat) (v : Tx) : (x.setTx n v).pins = x.pins := by obtain ⟨t, h⟩ := x.setTx_eq n v; rw [h]
@[simp] theorem Die.setTx_txs (n : Nat) (v : Tx) : (x.setTx n v).txs = SMap.put {} x.txs n v := by obtain ⟨t, h⟩ := x.setTx_eq n v; rw [h]
@[simp] theorem Die.setTx_ports (n : Nat) (v : Tx) : (x.setTx n v).ports = x.ports := by obtain ⟨t, h⟩ := x.setTx_eq n v; rw [h]
@[simp] theorem Die.setTx_courses (n : Nat) (v : Tx) : (x.setTx n v).courses = x.courses := by obtain ⟨t, h⟩ := x.setTx_eq n v; rw [h]
@[simp] theorem Die.setTx_stroke (n : Nat) (v : Tx) : (x.setTx n v).stroke = x.stroke := by obtain ⟨t, h⟩ := x.setTx_eq n v; rw [h]
@[simp] theorem Die.setTx_clk (n : Nat) (v : Tx) : (x.setTx n v).clk = x.clk := by obtain ⟨t, h⟩ := x.setTx_eq n v; rw [h]
@[simp] theorem Die.setTx_brg (n : Nat) (v : Tx) : (x.setTx n v).brg = x.brg := by obtain ⟨t, h⟩ := x.setTx_eq n v; rw [h]
@[simp] theorem Die.setTx_prot (n : Nat) (v : Tx) : (x.setTx n v).prot = x.prot := by obtain ⟨t, h⟩ := x.setTx_eq n v; rw [h]
@[simp] theorem Die.setTx_peg (n : Nat) (v : Tx) : (x.setTx n v).peg = x.peg := by obtain ⟨t, h⟩ := x.setTx_eq n v; rw [h]
@[simp] theorem Die.setTx_q0 (n : Nat) (v : Tx) : (x.setTx n v).q0 = x.q0 := by obtain ⟨t, h⟩ := x.setTx_eq n v; rw [h]
@[simp] theorem Die.setTx_q1 (n : Nat) (v : Tx) : (x.setTx n v).q1 = x.q1 := by obtain ⟨t, h⟩ := x.setTx_eq n v; rw [h]
@[simp] theorem Die.setTx_q2 (n : Nat) (v : Tx) : (x.setTx n v).q2 = x.q2 := by obtain ⟨t, h⟩ := x.setTx_eq n v; rw [h]
@[simp] theorem Die.setTx_evt (n : Nat) (v : Tx) : (x.setTx n v).evt = x.evt := by obtain ⟨t, h⟩ := x.setTx_eq n v; rw [h]
@[simp] theorem Die.setTx_twi (n : Nat) (v : Tx) : (x.setTx n v).twi = x.twi := by obtain ⟨t, h⟩ := x.setTx_eq n v; rw [h]
@[simp] theorem Die.setTx_hk (n : Nat) (v : Tx) : (x.setTx n v).hk = x.hk := by obtain ⟨t, h⟩ := x.setTx_eq n v; rw [h]
@[simp] theorem Die.setTx_bist (n : Nat) (v : Tx) : (x.setTx n v).bist = x.bist := by obtain ⟨t, h⟩ := x.setTx_eq n v; rw [h]
@[simp] theorem Die.setTx_nvs (n : Nat) (v : Tx) : (x.setTx n v).nvs = x.nvs := by obtain ⟨t, h⟩ := x.setTx_eq n v; rw [h]
@[simp] theorem Die.setTx_calLoaded (n : Nat) (v : Tx) : (x.setTx n v).calLoaded = x.calLoaded := by obtain ⟨t, h⟩ := x.setTx_eq n v; rw [h]
@[simp] theorem Die.setTx_sram (n : Nat) (v : Tx) : (x.setTx n v).sram = x.sram := by obtain ⟨t, h⟩ := x.setTx_eq n v; rw [h]
@[simp] theorem Die.setTx_nv (n : Nat) (v : Tx) : (x.setTx n v).nv = x.nv := by obtain ⟨t, h⟩ := x.setTx_eq n v; rw [h]
@[simp] theorem Die.setTx_ir (n : Nat) (v : Tx) : (x.setTx n v).ir = x.ir := by obtain ⟨t, h⟩ := x.setTx_eq n v; rw [h]
@[simp] theorem Die.setTx_irCap (n : Nat) (v : Tx) : (x.setTx n v).irCap = x.irCap := by obtain ⟨t, h⟩ := x.setTx_eq n v; rw [h]
/-- Writing an object changes its map and the level marks, nothing else. -/
theorem Die.setCourse_eq (c : Nat) (v : Course) : ∃ t, x.setCourse c v = { x with tele := t, courses := SMap.put {} x.courses c v } := by
  unfold Die.setCourse
  obtain ⟨t1, h1⟩ := x.fall_eq (cCourse c + 0x510) (x.course c).host.attached v.host.attached
  obtain ⟨t2, h2⟩ := ({ x with tele := t1 } : Die).fall_eq (cCourse c + 0x514) (x.course c).line.attached v.line.attached
  obtain ⟨t3, h3⟩ := ({ x with tele := t2 } : Die).fall_eq (cCourse c + 0x1008) (x.course c).lat.rebuilding v.lat.rebuilding
  exact ⟨t3, by simp only [h1, h2, h3]⟩
@[simp] theorem Die.setCourse_active (c : Nat) (v : Course) : (x.setCourse c v).active = x.active := by obtain ⟨t, h⟩ := x.setCourse_eq c v; rw [h]
@[simp] theorem Die.setCourse_staged (c : Nat) (v : Course) : (x.setCourse c v).staged = x.staged := by obtain ⟨t, h⟩ := x.setCourse_eq c v; rw [h]
@[simp] theorem Die.setCourse_ledger (c : Nat) (v : Course) : (x.setCourse c v).ledger = x.ledger := by obtain ⟨t, h⟩ := x.setCourse_eq c v; rw [h]
@[simp] theorem Die.setCourse_pend (c : Nat) (v : Course) : (x.setCourse c v).pend = x.pend := by obtain ⟨t, h⟩ := x.setCourse_eq c v; rw [h]
@[simp] theorem Die.setCourse_slices (c : Nat) (v : Course) : (x.setCourse c v).slices = x.slices := by obtain ⟨t, h⟩ := x.setCourse_eq c v; rw [h]
@[simp] theorem Die.setCourse_pins (c : Nat) (v : Course) : (x.setCourse c v).pins = x.pins := by obtain ⟨t, h⟩ := x.setCourse_eq c v; rw [h]
@[simp] theorem Die.setCourse_txs (c : Nat) (v : Course) : (x.setCourse c v).txs = x.txs := by obtain ⟨t, h⟩ := x.setCourse_eq c v; rw [h]
@[simp] theorem Die.setCourse_ports (c : Nat) (v : Course) : (x.setCourse c v).ports = x.ports := by obtain ⟨t, h⟩ := x.setCourse_eq c v; rw [h]
@[simp] theorem Die.setCourse_courses (c : Nat) (v : Course) : (x.setCourse c v).courses = SMap.put {} x.courses c v := by obtain ⟨t, h⟩ := x.setCourse_eq c v; rw [h]
@[simp] theorem Die.setCourse_stroke (c : Nat) (v : Course) : (x.setCourse c v).stroke = x.stroke := by obtain ⟨t, h⟩ := x.setCourse_eq c v; rw [h]
@[simp] theorem Die.setCourse_clk (c : Nat) (v : Course) : (x.setCourse c v).clk = x.clk := by obtain ⟨t, h⟩ := x.setCourse_eq c v; rw [h]
@[simp] theorem Die.setCourse_brg (c : Nat) (v : Course) : (x.setCourse c v).brg = x.brg := by obtain ⟨t, h⟩ := x.setCourse_eq c v; rw [h]
@[simp] theorem Die.setCourse_prot (c : Nat) (v : Course) : (x.setCourse c v).prot = x.prot := by obtain ⟨t, h⟩ := x.setCourse_eq c v; rw [h]
@[simp] theorem Die.setCourse_peg (c : Nat) (v : Course) : (x.setCourse c v).peg = x.peg := by obtain ⟨t, h⟩ := x.setCourse_eq c v; rw [h]
@[simp] theorem Die.setCourse_q0 (c : Nat) (v : Course) : (x.setCourse c v).q0 = x.q0 := by obtain ⟨t, h⟩ := x.setCourse_eq c v; rw [h]
@[simp] theorem Die.setCourse_q1 (c : Nat) (v : Course) : (x.setCourse c v).q1 = x.q1 := by obtain ⟨t, h⟩ := x.setCourse_eq c v; rw [h]
@[simp] theorem Die.setCourse_q2 (c : Nat) (v : Course) : (x.setCourse c v).q2 = x.q2 := by obtain ⟨t, h⟩ := x.setCourse_eq c v; rw [h]
@[simp] theorem Die.setCourse_evt (c : Nat) (v : Course) : (x.setCourse c v).evt = x.evt := by obtain ⟨t, h⟩ := x.setCourse_eq c v; rw [h]
@[simp] theorem Die.setCourse_twi (c : Nat) (v : Course) : (x.setCourse c v).twi = x.twi := by obtain ⟨t, h⟩ := x.setCourse_eq c v; rw [h]
@[simp] theorem Die.setCourse_hk (c : Nat) (v : Course) : (x.setCourse c v).hk = x.hk := by obtain ⟨t, h⟩ := x.setCourse_eq c v; rw [h]
@[simp] theorem Die.setCourse_bist (c : Nat) (v : Course) : (x.setCourse c v).bist = x.bist := by obtain ⟨t, h⟩ := x.setCourse_eq c v; rw [h]
@[simp] theorem Die.setCourse_nvs (c : Nat) (v : Course) : (x.setCourse c v).nvs = x.nvs := by obtain ⟨t, h⟩ := x.setCourse_eq c v; rw [h]
@[simp] theorem Die.setCourse_calLoaded (c : Nat) (v : Course) : (x.setCourse c v).calLoaded = x.calLoaded := by obtain ⟨t, h⟩ := x.setCourse_eq c v; rw [h]
@[simp] theorem Die.setCourse_sram (c : Nat) (v : Course) : (x.setCourse c v).sram = x.sram := by obtain ⟨t, h⟩ := x.setCourse_eq c v; rw [h]
@[simp] theorem Die.setCourse_nv (c : Nat) (v : Course) : (x.setCourse c v).nv = x.nv := by obtain ⟨t, h⟩ := x.setCourse_eq c v; rw [h]
@[simp] theorem Die.setCourse_ir (c : Nat) (v : Course) : (x.setCourse c v).ir = x.ir := by obtain ⟨t, h⟩ := x.setCourse_eq c v; rw [h]
@[simp] theorem Die.setCourse_irCap (c : Nat) (v : Course) : (x.setCourse c v).irCap = x.irCap := by obtain ⟨t, h⟩ := x.setCourse_eq c v; rw [h]

end Sys2Proof.Machine
end

