-- ==== Sys2Proof/Laws/Ops.lean ====
section
/-! SUPPORT. What the shared operations can do: read-back of dies and of their objects, and the frames of posting events,
of counting, and of handing over records. Each is cited in place of unfolding the operation. -/

namespace Sys2Proof.Machine

variable (s : State) (x : Die)

/-! ### Dies -/

@[simp] theorem State.die_setDie_same (d : DieId) (y : Die) : (s.setDie d y).die d = y := by
  simp [State.die, State.setDie]

@[simp] theorem State.die_setDie_ne (d e : DieId) (y : Die) (h : e ≠ d) : (s.setDie d y).die e = s.die e := by
  have : (d : Nat) ≠ e := fun q => h (Fin.ext q.symm)
  simp [State.die, State.setDie, this]

theorem State.die_setDie (d e : DieId) (y : Die) : (s.setDie d y).die e = if e = d then y else s.die e := by
  split
  · next h => subst h; exact s.die_setDie_same e y
  · next h => exact s.die_setDie_ne d e y h

@[simp] theorem State.die_onDie_same (d : DieId) (f : Die → Die) : (s.onDie d f).die d = f (s.die d) := by
  simp [State.onDie]

@[simp] theorem State.die_onDie_ne (d e : DieId) (f : Die → Die) (h : e ≠ d) : (s.onDie d f).die e = s.die e := by
  simp [State.onDie, h]

theorem State.die_onDie (d e : DieId) (f : Die → Die) : (s.onDie d f).die e = if e = d then f (s.die e) else s.die e := by
  split
  · next h => subst h; simp
  · next h => simp [h]

@[simp] theorem State.die_withAir (l : List Flit) (e : DieId) : ({ s with air := l } : State).die e = s.die e := rfl

/-- A field that f leaves alone is left alone on every die. -/
theorem State.onDie_field {α : Type} (p : Die → α) (d e : DieId) (f : Die → Die) (h : p (f (s.die d)) = p (s.die d)) :
    p ((s.onDie d f).die e) = p (s.die e) := by
  by_cases q : e = d
  · subst q; simpa using h
  · simp [q]

/-! ### Objects of a die -/

@[simp] theorem Die.slice_setSlice_same (n : Nat) (v : Slice) : (x.setSlice n v).slice n = v := by
  simp [Die.slice]
@[simp] theorem Die.slice_setSlice_ne (n m : Nat) (v : Slice) (h : m ≠ n) : (x.setSlice n v).slice m = x.slice m := by
  simp [Die.slice, SMap.get_put_ne _ _ _ _ _ h]
@[simp] theorem Die.tx_setTx_same (n : Nat) (v : Tx) : (x.setTx n v).tx n = v := by simp [Die.tx]
@[simp] theorem Die.tx_setTx_ne (n m : Nat) (v : Tx) (h : m ≠ n) : (x.setTx n v).tx m = x.tx m := by
  simp [Die.tx, SMap.get_put_ne _ _ _ _ _ h]
@[simp] theorem Die.port_setPort_same (n : Nat) (v : Port) : (x.setPort n v).port n = v := by simp [Die.port, Die.setPort]
@[simp] theorem Die.port_setPort_ne (n m : Nat) (v : Port) (h : m ≠ n) : (x.setPort n v).port m = x.port m := by
  simp [Die.port, Die.setPort, SMap.get_put_ne _ _ _ _ _ h]
@[simp] theorem Die.course_setCourse_same (c : Nat) (v : Course) : (x.setCourse c v).course c = v := by simp [Die.course]
@[simp] theorem Die.course_setCourse_ne (c e : Nat) (v : Course) (h : e ≠ c) : (x.setCourse c v).course e = x.course e := by
  simp [Die.course, SMap.get_put_ne _ _ _ _ _ h]
@[simp] theorem Die.queue_setQueue_same (q : QueueId) (v : Queue) : (x.setQueue q v).queue q = v := by
  unfold Die.setQueue Die.queue; fin_cases q <;> simp
@[simp] theorem Die.queue_setQueue_ne (q r : QueueId) (v : Queue) (h : r ≠ q) : (x.setQueue q v).queue r = x.queue r := by
  unfold Die.setQueue Die.queue; fin_cases q <;> fin_cases r <;> simp_all
@[simp] theorem Die.act_setAct_same (o : Nat) (v : Half) : (x.setAct o v).act o = v := by simp [Die.act, Die.setAct]
@[simp] theorem Die.act_setAct_ne (o p : Nat) (v : Half) (h : p ≠ o) : (x.setAct o v).act p = x.act p := by
  simp only [Die.act, Die.setAct, SMap.put]
  split
  · exact SMap.get_del_ne _ _ _ _ h
  · exact SMap.get_ins_ne _ _ _ _ _ h
@[simp] theorem Die.counter_count_same (o n : Nat) : (x.count o n).counter o = (x.counter o + n) % 4294967296 := by
  simp [Die.counter, Die.count]
@[simp] theorem Die.counter_count_ne (o p n : Nat) (h : p ≠ o) : (x.count o n).counter p = x.counter p := by
  simp [Die.counter, Die.count, SMap.get_put_ne _ _ _ _ _ h]
@[simp] theorem State.port_setPort_same (p : PortId) (v : Port) : (s.setPort p v).port p = v := by
  simp [State.port, State.setPort]

/-! ### An object under an update of another kind -/

@[simp] theorem Die.slice_count (o n : Nat) (i : Nat) : (x.count o n).slice i = x.slice i := by simp [Die.slice]
@[simp] theorem Die.tx_count (o n : Nat) (i : Nat) : (x.count o n).tx i = x.tx i := by simp [Die.tx]
@[simp] theorem Die.port_count (o n : Nat) (i : Nat) : (x.count o n).port i = x.port i := by simp [Die.port]
@[simp] theorem Die.course_count (o n : Nat) (i : Nat) : (x.count o n).course i = x.course i := by simp [Die.course]
@[simp] theorem Die.pin_count (o n : Nat) (i : Nat) : (x.count o n).pin i = x.pin i := by simp [Die.pin]
@[simp] theorem Die.act_count (o n : Nat) (i : Nat) : (x.count o n).act i = x.act i := by simp [Die.act]
@[simp] theorem Die.stg_count (o n : Nat) (i : Nat) : (x.count o n).stg i = x.stg i := by simp [Die.stg]
@[simp] theorem Die.led_count (o n : Nat) (i : Nat) : (x.count o n).led i = x.led i := by simp [Die.led]
@[simp] theorem Die.queue_count (o n : Nat) (i : QueueId) : (x.count o n).queue i = x.queue i := by simp [Die.queue]
@[simp] theorem Die.tx_setSlice (k : Nat) (v : Slice) (i : Nat) : (x.setSlice k v).tx i = x.tx i := by simp [Die.tx]
@[simp] theorem Die.port_setSlice (k : Nat) (v : Slice) (i : Nat) : (x.setSlice k v).port i = x.port i := by simp [Die.port]
@[simp] theorem Die.course_setSlice (k : Nat) (v : Slice) (i : Nat) : (x.setSlice k v).course i = x.course i := by simp [Die.course]
@[simp] theorem Die.pin_setSlice (k : Nat) (v : Slice) (i : Nat) : (x.setSlice k v).pin i = x.pin i := by simp [Die.pin]
@[simp] theorem Die.act_setSlice (k : Nat) (v : Slice) (i : Nat) : (x.setSlice k v).act i = x.act i := by simp [Die.act]
@[simp] theorem Die.stg_setSlice (k : Nat) (v : Slice) (i : Nat) : (x.setSlice k v).stg i = x.stg i := by simp [Die.stg]
@[simp] theorem Die.led_setSlice (k : Nat) (v : Slice) (i : Nat) : (x.setSlice k v).led i = x.led i := by simp [Die.led]
@[simp] theorem Die.queue_setSlice (k : Nat) (v : Slice) (i : QueueId) : (x.setSlice k v).queue i = x.queue i := by simp [Die.queue]
@[simp] theorem Die.slice_setTx (k : Nat) (v : Tx) (i : Nat) : (x.setTx k v).slice i = x.slice i := by simp [Die.slice]
@[simp] theorem Die.port_setTx (k : Nat) (v : Tx) (i : Nat) : (x.setTx k v).port i = x.port i := by simp [Die.port]
@[simp] theorem Die.course_setTx (k : Nat) (v : Tx) (i : Nat) : (x.setTx k v).course i = x.course i := by simp [Die.course]
@[simp] theorem Die.pin_setTx (k : Nat) (v : Tx) (i : Nat) : (x.setTx k v).pin i = x.pin i := by simp [Die.pin]
@[simp] theorem Die.act_setTx (k : Nat) (v : Tx) (i : Nat) : (x.setTx k v).act i = x.act i := by simp [Die.act]
@[simp] theorem Die.stg_setTx (k : Nat) (v : Tx) (i : Nat) : (x.setTx k v).stg i = x.stg i := by simp [Die.stg]
@[simp] theorem Die.led_setTx (k : Nat) (v : Tx) (i : Nat) : (x.setTx k v).led i = x.led i := by simp [Die.led]
@[simp] theorem Die.queue_setTx (k : Nat) (v : Tx) (i : QueueId) : (x.setTx k v).queue i = x.queue i := by simp [Die.queue]
@[simp] theorem Die.slice_setCourse (k : Nat) (v : Course) (i : Nat) : (x.setCourse k v).slice i = x.slice i := by simp [Die.slice]
@[simp] theorem Die.tx_setCourse (k : Nat) (v : Course) (i : Nat) : (x.setCourse k v).tx i = x.tx i := by simp [Die.tx]
@[simp] theorem Die.port_setCourse (k : Nat) (v : Course) (i : Nat) : (x.setCourse k v).port i = x.port i := by simp [Die.port]
@[simp] theorem Die.pin_setCourse (k : Nat) (v : Course) (i : Nat) : (x.setCourse k v).pin i = x.pin i := by simp [Die.pin]
@[simp] theorem Die.act_setCourse (k : Nat) (v : Course) (i : Nat) : (x.setCourse k v).act i = x.act i := by simp [Die.act]
@[simp] theorem Die.stg_setCourse (k : Nat) (v : Course) (i : Nat) : (x.setCourse k v).stg i = x.stg i := by simp [Die.stg]
@[simp] theorem Die.led_setCourse (k : Nat) (v : Course) (i : Nat) : (x.setCourse k v).led i = x.led i := by simp [Die.led]
@[simp] theorem Die.queue_setCourse (k : Nat) (v : Course) (i : QueueId) : (x.setCourse k v).queue i = x.queue i := by simp [Die.queue]
@[simp] theorem Die.slice_setPort (k : Nat) (v : Port) (i : Nat) : (x.setPort k v).slice i = x.slice i := by simp [Die.slice]
@[simp] theorem Die.tx_setPort (k : Nat) (v : Port) (i : Nat) : (x.setPort k v).tx i = x.tx i := by simp [Die.tx]
@[simp] theorem Die.course_setPort (k : Nat) (v : Port) (i : Nat) : (x.setPort k v).course i = x.course i := by simp [Die.course]
@[simp] theorem Die.pin_setPort (k : Nat) (v : Port) (i : Nat) : (x.setPort k v).pin i = x.pin i := by simp [Die.pin]
@[simp] theorem Die.act_setPort (k : Nat) (v : Port) (i : Nat) : (x.setPort k v).act i = x.act i := by simp [Die.act]
@[simp] theorem Die.stg_setPort (k : Nat) (v : Port) (i : Nat) : (x.setPort k v).stg i = x.stg i := by simp [Die.stg]
@[simp] theorem Die.led_setPort (k : Nat) (v : Port) (i : Nat) : (x.setPort k v).led i = x.led i := by simp [Die.led]
@[simp] theorem Die.queue_setPort (k : Nat) (v : Port) (i : QueueId) : (x.setPort k v).queue i = x.queue i := by simp [Die.queue]
@[simp] theorem Die.slice_setAct (k : Nat) (v : Half) (i : Nat) : (x.setAct k v).slice i = x.slice i := by simp [Die.slice]
@[simp] theorem Die.tx_setAct (k : Nat) (v : Half) (i : Nat) : (x.setAct k v).tx i = x.tx i := by simp [Die.tx]
@[simp] theorem Die.port_setAct (k : Nat) (v : Half) (i : Nat) : (x.setAct k v).port i = x.port i := by simp [Die.port]
@[simp] theorem Die.course_setAct (k : Nat) (v : Half) (i : Nat) : (x.setAct k v).course i = x.course i := by simp [Die.course]
@[simp] theorem Die.pin_setAct (k : Nat) (v : Half) (i : Nat) : (x.setAct k v).pin i = x.pin i := by simp [Die.pin]
@[simp] theorem Die.stg_setAct (k : Nat) (v : Half) (i : Nat) : (x.setAct k v).stg i = x.stg i := by simp [Die.stg]
@[simp] theorem Die.led_setAct (k : Nat) (v : Half) (i : Nat) : (x.setAct k v).led i = x.led i := by simp [Die.led]
@[simp] theorem Die.queue_setAct (k : Nat) (v : Half) (i : QueueId) : (x.setAct k v).queue i = x.queue i := by simp [Die.queue]

/-! ### Events -/

/-- The local buffer takes a record: the event block and the counters change, nothing else (R347). -/
theorem Die.buffer_eq (r : Evt) : ∃ v t, x.buffer r = { x with evt := v, tele := t } := by
  unfold Die.buffer
  simp only
  split
  · exact ⟨_, _, rfl⟩
  · split
    · exact ⟨_, _, rfl⟩
    · split
      · exact ⟨_, _, rfl⟩
      · exact ⟨x.evt, _, rfl⟩

/-- Posting changes the event block and the counters of its own die, nothing else (R346). -/
theorem State.post_eq (d : DieId) (src cause data : Nat) :
    ∃ v t, s.post d src cause data = s.onDie d (fun x => { x with evt := v, tele := t }) := by
  unfold State.post
  simp only
  generalize hf : (fun x : Die => _) = f
  suffices h : ∀ y : Die, ∃ v t, f y = { y with evt := v, tele := t } by
    obtain ⟨v, t, e⟩ := h (s.die d)
    exact ⟨v, t, by simp only [State.onDie, e]⟩
  intro y
  subst hf
  simp only
  split
  · exact ⟨_, _, rfl⟩
  · obtain ⟨v, t, e⟩ := Die.buffer_eq _ _
    exact ⟨v, t, by rw [e]⟩

/-- Marking the dies of a list a lower bound changes no more than their telemetry. -/
theorem State.lowered_eq (l : List DieId) : ∃ w, l.foldl (fun s x => s.onDie x Die.lowered) s = { s with dies := w }
    ∧ ∀ e, ∃ t, (l.foldl (fun s x => s.onDie x Die.lowered) s).die e = { s.die e with tele := t } := by
  induction l generalizing s with
  | nil => exact ⟨s.dies, rfl, fun e => ⟨(s.die e).tele, rfl⟩⟩
  | cons x l ih =>
    obtain ⟨w, h, q⟩ := ih (s.onDie x Die.lowered)
    refine ⟨w, by rw [List.foldl_cons, h]; rfl, fun e => ?_⟩
    obtain ⟨t, r⟩ := q e
    refine ⟨t, ?_⟩
    rw [List.foldl_cons, r, State.die_onDie]
    split <;> rfl

/-- An epoch record changes the event block of its own die and the telemetry of dies, nothing else. -/
theorem State.epoch_eq (d : DieId) (kind dies : Nat) : ∃ w, s.epoch d kind dies = { s with dies := w }
    ∧ ∀ e, ∃ v t, (s.epoch d kind dies).die e = { s.die e with evt := v, tele := t } ∧ (e ≠ d → v = (s.die e).evt) := by
  unfold State.epoch
  simp only
  generalize (epochPlace (s.stamp d) (kind + dies * 256) (s.die d).evt.local_) = r
  obtain ⟨u, hu⟩ : ∃ u, u = s.onDie d (fun x => { x with evt := { x.evt with epochs := ((s.die d).evt.epochs + 1) % 256, local_ := r.1 } }) := ⟨_, rfl⟩
  rw [← hu]
  generalize (u.dieList.filter (fun x => bit dies x.val)) = l
  obtain ⟨w, hw, hl⟩ := u.lowered_eq l
  generalize (l.foldl (fun s x => s.onDie x Die.lowered) u) = z at hw hl ⊢
  obtain ⟨v, t, e⟩ := z.post_eq d 456 0x10 (r.2 + ((s.die d).evt.epochs + 1) % 256 * 16777216)
  rw [e]
  refine ⟨(z.onDie d (fun x => { x with evt := v, tele := t })).dies, by rw [hw, hu]; rfl, fun f => ?_⟩
  obtain ⟨t', h⟩ := hl f
  rw [State.die_onDie, h, hu, State.die_onDie]
  by_cases q : f = d
  · exact ⟨v, t, by simp [q], fun n => absurd q n⟩
  · exact ⟨(s.die f).evt, t', by simp [q], fun _ => rfl⟩


@[simp] theorem State.epoch_part (d : DieId) (kind dies : Nat) : (s.epoch d kind dies).part = s.part := by
  obtain ⟨w, h, -⟩ := s.epoch_eq d kind dies; rw [h]
@[simp] theorem State.epoch_phase (d : DieId) (kind dies : Nat) : (s.epoch d kind dies).phase = s.phase := by
  obtain ⟨w, h, -⟩ := s.epoch_eq d kind dies; rw [h]
@[simp] theorem State.epoch_pos (d : DieId) (kind dies : Nat) : (s.epoch d kind dies).pos = s.pos := by
  obtain ⟨w, h, -⟩ := s.epoch_eq d kind dies; rw [h]
@[simp] theorem State.epoch_free (d : DieId) (kind dies : Nat) : (s.epoch d kind dies).free = s.free := by
  obtain ⟨w, h, -⟩ := s.epoch_eq d kind dies; rw [h]
@[simp] theorem State.epoch_wake (d : DieId) (kind dies : Nat) : (s.epoch d kind dies).wake = s.wake := by
  obtain ⟨w, h, -⟩ := s.epoch_eq d kind dies; rw [h]
@[simp] theorem State.epoch_waking (d : DieId) (kind dies : Nat) : (s.epoch d kind dies).waking = s.waking := by
  obtain ⟨w, h, -⟩ := s.epoch_eq d kind dies; rw [h]
@[simp] theorem State.epoch_rootOff (d : DieId) (kind dies : Nat) : (s.epoch d kind dies).rootOff = s.rootOff := by
  obtain ⟨w, h, -⟩ := s.epoch_eq d kind dies; rw [h]
@[simp] theorem State.epoch_vddhOff (d : DieId) (kind dies : Nat) : (s.epoch d kind dies).vddhOff = s.vddhOff := by
  obtain ⟨w, h, -⟩ := s.epoch_eq d kind dies; rw [h]
@[simp] theorem State.epoch_lead (d : DieId) (kind dies : Nat) : (s.epoch d kind dies).lead = s.lead := by
  obtain ⟨w, h, -⟩ := s.epoch_eq d kind dies; rw [h]
@[simp] theorem State.epoch_air (d : DieId) (kind dies : Nat) : (s.epoch d kind dies).air = s.air := by
  obtain ⟨w, h, -⟩ := s.epoch_eq d kind dies; rw [h]
@[simp] theorem State.epoch_ep0 (d : DieId) (kind dies : Nat) : (s.epoch d kind dies).ep0 = s.ep0 := by
  obtain ⟨w, h, -⟩ := s.epoch_eq d kind dies; rw [h]
@[simp] theorem State.epoch_ep1 (d : DieId) (kind dies : Nat) : (s.epoch d kind dies).ep1 = s.ep1 := by
  obtain ⟨w, h, -⟩ := s.epoch_eq d kind dies; rw [h]
@[simp] theorem State.epoch_gsync (d : DieId) (kind dies : Nat) : (s.epoch d kind dies).gsync = s.gsync := by
  obtain ⟨w, h, -⟩ := s.epoch_eq d kind dies; rw [h]
@[simp] theorem State.epoch_fwHeld (d : DieId) (kind dies : Nat) : (s.epoch d kind dies).fwHeld = s.fwHeld := by
  obtain ⟨w, h, -⟩ := s.epoch_eq d kind dies; rw [h]
@[simp] theorem State.epoch_fwOp (d : DieId) (kind dies : Nat) : (s.epoch d kind dies).fwOp = s.fwOp := by
  obtain ⟨w, h, -⟩ := s.epoch_eq d kind dies; rw [h]
@[simp] theorem State.epoch_fwDone (d : DieId) (kind dies : Nat) : (s.epoch d kind dies).fwDone = s.fwDone := by
  obtain ⟨w, h, -⟩ := s.epoch_eq d kind dies; rw [h]
@[simp] theorem State.epoch_fwBack (d : DieId) (kind dies : Nat) : (s.epoch d kind dies).fwBack = s.fwBack := by
  obtain ⟨w, h, -⟩ := s.epoch_eq d kind dies; rw [h]
@[simp] theorem State.epoch_pending (d : DieId) (kind dies : Nat) : (s.epoch d kind dies).pending = s.pending := by
  obtain ⟨w, h, -⟩ := s.epoch_eq d kind dies; rw [h]

@[simp] theorem State.die_post_ne (d e : DieId) (src cause data : Nat) (h : e ≠ d) : (s.post d src cause data).die e = s.die e := by
  obtain ⟨v, t, q⟩ := s.post_eq d src cause data
  rw [q]; simp [h]

/-- SEQ advances with every occurrence, suppressed or not (R345, R350). -/
theorem Die.buffer_seq (r : Evt) : (x.buffer r).evt.seq = x.evt.seq := by
  unfold Die.buffer
  simp only
  split
  · rfl
  · split
    · rfl
    · split <;> rfl

@[simp] theorem State.post_seq (d : DieId) (src cause data : Nat) :
    ((s.post d src cause data).die d).evt.seq = SMap.put 0 (s.die d).evt.seq src ((SMap.get 0 (s.die d).evt.seq src + 1) % 256) := by
  unfold State.post
  simp only [State.die_onDie_same]
  split
  · rfl
  · rw [Die.buffer_seq]

@[simp] theorem State.die_count_same (d : DieId) (o n : Nat) : (s.count d o n).die d = (s.die d).count o n := by simp [State.count]
@[simp] theorem State.die_count_ne (d e : DieId) (o n : Nat) (h : e ≠ d) : (s.count d o n).die e = s.die e := by simp [State.count, h]
@[simp] theorem State.die_setSlice_same (d : DieId) (n : Nat) (v : Slice) : (s.setSlice d n v).die d = (s.die d).setSlice n v := by simp [State.setSlice]
@[simp] theorem State.die_setSlice_ne (d e : DieId) (n : Nat) (v : Slice) (h : e ≠ d) : (s.setSlice d n v).die e = s.die e := by simp [State.setSlice, h]
@[simp] theorem State.die_setTx_same (d : DieId) (n : Nat) (v : Tx) : (s.setTx d n v).die d = (s.die d).setTx n v := by simp [State.setTx]
@[simp] theorem State.die_setTx_ne (d e : DieId) (n : Nat) (v : Tx) (h : e ≠ d) : (s.setTx d n v).die e = s.die e := by simp [State.setTx, h]
@[simp] theorem State.die_setCourse_same (d : DieId) (n : Nat) (v : Course) : (s.setCourse d n v).die d = (s.die d).setCourse n v := by simp [State.setCourse]
@[simp] theorem State.die_setCourse_ne (d e : DieId) (n : Nat) (v : Course) (h : e ≠ d) : (s.setCourse d n v).die e = s.die e := by simp [State.setCourse, h]
@[simp] theorem State.die_setPort_same (p : PortId) (v : Port) : (s.setPort p v).die p.die = (s.die p.die).setPort p.key v := by simp [State.setPort]
@[simp] theorem State.die_setPort_ne (p : PortId) (v : Port) (e : DieId) (h : e ≠ p.die) : (s.setPort p v).die e = s.die e := by simp [State.setPort, h]

@[simp] theorem State.post_die_active (d : DieId) (src cause data : Nat) (e : DieId) : ((s.post d src cause data).die e).active = (s.die e).active := by
  obtain ⟨v, t, h⟩ := s.post_eq d src cause data; rw [h]; exact s.onDie_field (·.active) d e _ rfl
@[simp] theorem State.post_die_staged (d : DieId) (src cause data : Nat) (e : DieId) : ((s.post d src cause data).die e).staged = (s.die e).staged := by
  obtain ⟨v, t, h⟩ := s.post_eq d src cause data; rw [h]; exact s.onDie_field (·.staged) d e _ rfl
@[simp] theorem State.post_die_ledger (d : DieId) (src cause data : Nat) (e : DieId) : ((s.post d src cause data).die e).ledger = (s.die e).ledger := by
  obtain ⟨v, t, h⟩ := s.post_eq d src cause data; rw [h]; exact s.onDie_field (·.ledger) d e _ rfl
@[simp] theorem State.post_die_pend (d : DieId) (src cause data : Nat) (e : DieId) : ((s.post d src cause data).die e).pend = (s.die e).pend := by
  obtain ⟨v, t, h⟩ := s.post_eq d src cause data; rw [h]; exact s.onDie_field (·.pend) d e _ rfl
@[simp] theorem State.post_die_slices (d : DieId) (src cause data : Nat) (e : DieId) : ((s.post d src cause data).die e).slices = (s.die e).slices := by
  obtain ⟨v, t, h⟩ := s.post_eq d src cause data; rw [h]; exact s.onDie_field (·.slices) d e _ rfl
@[simp] theorem State.post_die_pins (d : DieId) (src cause data : Nat) (e : DieId) : ((s.post d src cause data).die e).pins = (s.die e).pins := by
  obtain ⟨v, t, h⟩ := s.post_eq d src cause data; rw [h]; exact s.onDie_field (·.pins) d e _ rfl
@[simp] theorem State.post_die_txs (d : DieId) (src cause data : Nat) (e : DieId) : ((s.post d src cause data).die e).txs = (s.die e).txs := by
  obtain ⟨v, t, h⟩ := s.post_eq d src cause data; rw [h]; exact s.onDie_field (·.txs) d e _ rfl
@[simp] theorem State.post_die_ports (d : DieId) (src cause data : Nat) (e : DieId) : ((s.post d src cause data).die e).ports = (s.die e).ports := by
  obtain ⟨v, t, h⟩ := s.post_eq d src cause data; rw [h]; exact s.onDie_field (·.ports) d e _ rfl
@[simp] theorem State.post_die_courses (d : DieId) (src cause data : Nat) (e : DieId) : ((s.post d src cause data).die e).courses = (s.die e).courses := by
  obtain ⟨v, t, h⟩ := s.post_eq d src cause data; rw [h]; exact s.onDie_field (·.courses) d e _ rfl
@[simp] theorem State.post_die_stroke (d : DieId) (src cause data : Nat) (e : DieId) : ((s.post d src cause data).die e).stroke = (s.die e).stroke := by
  obtain ⟨v, t, h⟩ := s.post_eq d src cause data; rw [h]; exact s.onDie_field (·.stroke) d e _ rfl
@[simp] theorem State.post_die_clk (d : DieId) (src cause data : Nat) (e : DieId) : ((s.post d src cause data).die e).clk = (s.die e).clk := by
  obtain ⟨v, t, h⟩ := s.post_eq d src cause data; rw [h]; exact s.onDie_field (·.clk) d e _ rfl
@[simp] theorem State.post_die_brg (d : DieId) (src cause data : Nat) (e : DieId) : ((s.post d src cause data).die e).brg = (s.die e).brg := by
  obtain ⟨v, t, h⟩ := s.post_eq d src cause data; rw [h]; exact s.onDie_field (·.brg) d e _ rfl
@[simp] theorem State.post_die_prot (d : DieId) (src cause data : Nat) (e : DieId) : ((s.post d src cause data).die e).prot = (s.die e).prot := by
  obtain ⟨v, t, h⟩ := s.post_eq d src cause data; rw [h]; exact s.onDie_field (·.prot) d e _ rfl
@[simp] theorem State.post_die_peg (d : DieId) (src cause data : Nat) (e : DieId) : ((s.post d src cause data).die e).peg = (s.die e).peg := by
  obtain ⟨v, t, h⟩ := s.post_eq d src cause data; rw [h]; exact s.onDie_field (·.peg) d e _ rfl
@[simp] theorem State.post_die_q0 (d : DieId) (src cause data : Nat) (e : DieId) : ((s.post d src cause data).die e).q0 = (s.die e).q0 := by
  obtain ⟨v, t, h⟩ := s.post_eq d src cause data; rw [h]; exact s.onDie_field (·.q0) d e _ rfl
@[simp] theorem State.post_die_q1 (d : DieId) (src cause data : Nat) (e : DieId) : ((s.post d src cause data).die e).q1 = (s.die e).q1 := by
  obtain ⟨v, t, h⟩ := s.post_eq d src cause data; rw [h]; exact s.onDie_field (·.q1) d e _ rfl
@[simp] theorem State.post_die_q2 (d : DieId) (src cause data : Nat) (e : DieId) : ((s.post d src cause data).die e).q2 = (s.die e).q2 := by
  obtain ⟨v, t, h⟩ := s.post_eq d src cause data; rw [h]; exact s.onDie_field (·.q2) d e _ rfl
@[simp] theorem State.post_die_twi (d : DieId) (src cause data : Nat) (e : DieId) : ((s.post d src cause data).die e).twi = (s.die e).twi := by
  obtain ⟨v, t, h⟩ := s.post_eq d src cause data; rw [h]; exact s.onDie_field (·.twi) d e _ rfl
@[simp] theorem State.post_die_hk (d : DieId) (src cause data : Nat) (e : DieId) : ((s.post d src cause data).die e).hk = (s.die e).hk := by
  obtain ⟨v, t, h⟩ := s.post_eq d src cause data; rw [h]; exact s.onDie_field (·.hk) d e _ rfl
@[simp] theorem State.post_die_bist (d : DieId) (src cause data : Nat) (e : DieId) : ((s.post d src cause data).die e).bist = (s.die e).bist := by
  obtain ⟨v, t, h⟩ := s.post_eq d src cause data; rw [h]; exact s.onDie_field (·.bist) d e _ rfl
@[simp] theorem State.post_die_nvs (d : DieId) (src cause data : Nat) (e : DieId) : ((s.post d src cause data).die e).nvs = (s.die e).nvs := by
  obtain ⟨v, t, h⟩ := s.post_eq d src cause data; rw [h]; exact s.onDie_field (·.nvs) d e _ rfl
@[simp] theorem State.post_die_calLoaded (d : DieId) (src cause data : Nat) (e : DieId) : ((s.post d src cause data).die e).calLoaded = (s.die e).calLoaded := by
  obtain ⟨v, t, h⟩ := s.post_eq d src cause data; rw [h]; exact s.onDie_field (·.calLoaded) d e _ rfl
@[simp] theorem State.post_die_sram (d : DieId) (src cause data : Nat) (e : DieId) : ((s.post d src cause data).die e).sram = (s.die e).sram := by
  obtain ⟨v, t, h⟩ := s.post_eq d src cause data; rw [h]; exact s.onDie_field (·.sram) d e _ rfl
@[simp] theorem State.post_die_nv (d : DieId) (src cause data : Nat) (e : DieId) : ((s.post d src cause data).die e).nv = (s.die e).nv := by
  obtain ⟨v, t, h⟩ := s.post_eq d src cause data; rw [h]; exact s.onDie_field (·.nv) d e _ rfl
@[simp] theorem State.post_die_ir (d : DieId) (src cause data : Nat) (e : DieId) : ((s.post d src cause data).die e).ir = (s.die e).ir := by
  obtain ⟨v, t, h⟩ := s.post_eq d src cause data; rw [h]; exact s.onDie_field (·.ir) d e _ rfl
@[simp] theorem State.post_die_irCap (d : DieId) (src cause data : Nat) (e : DieId) : ((s.post d src cause data).die e).irCap = (s.die e).irCap := by
  obtain ⟨v, t, h⟩ := s.post_eq d src cause data; rw [h]; exact s.onDie_field (·.irCap) d e _ rfl
@[simp] theorem State.post_die_slice (d : DieId) (src cause data : Nat) (e : DieId) (i : Nat) : ((s.post d src cause data).die e).slice i = (s.die e).slice i := by simp [Die.slice]
@[simp] theorem State.post_die_tx (d : DieId) (src cause data : Nat) (e : DieId) (i : Nat) : ((s.post d src cause data).die e).tx i = (s.die e).tx i := by simp [Die.tx]
@[simp] theorem State.post_die_port (d : DieId) (src cause data : Nat) (e : DieId) (i : Nat) : ((s.post d src cause data).die e).port i = (s.die e).port i := by simp [Die.port]
@[simp] theorem State.post_die_course (d : DieId) (src cause data : Nat) (e : DieId) (i : Nat) : ((s.post d src cause data).die e).course i = (s.die e).course i := by simp [Die.course]
@[simp] theorem State.post_die_pin (d : DieId) (src cause data : Nat) (e : DieId) (i : Nat) : ((s.post d src cause data).die e).pin i = (s.die e).pin i := by simp [Die.pin]
@[simp] theorem State.post_die_act (d : DieId) (src cause data : Nat) (e : DieId) (i : Nat) : ((s.post d src cause data).die e).act i = (s.die e).act i := by simp [Die.act]
@[simp] theorem State.post_die_stg (d : DieId) (src cause data : Nat) (e : DieId) (i : Nat) : ((s.post d src cause data).die e).stg i = (s.die e).stg i := by simp [Die.stg]
@[simp] theorem State.post_die_led (d : DieId) (src cause data : Nat) (e : DieId) (i : Nat) : ((s.post d src cause data).die e).led i = (s.die e).led i := by simp [Die.led]
@[simp] theorem State.post_die_queue (d : DieId) (src cause data : Nat) (e : DieId) (i : QueueId) : ((s.post d src cause data).die e).queue i = (s.die e).queue i := by simp [Die.queue]
@[simp] theorem State.post_port (d : DieId) (src cause data : Nat) (p : PortId) : (s.post d src cause data).port p = s.port p := by simp [State.port]
@[simp] theorem State.post_stroke (d : DieId) (src cause data : Nat) (e : DieId) : (s.post d src cause data).stroke e = s.stroke e := by simp [State.stroke]

@[simp] theorem State.count_die_active (d : DieId) (o n : Nat) (e : DieId) : ((s.count d o n).die e).active = (s.die e).active := s.onDie_field (·.active) d e _ rfl
@[simp] theorem State.count_die_staged (d : DieId) (o n : Nat) (e : DieId) : ((s.count d o n).die e).staged = (s.die e).staged := s.onDie_field (·.staged) d e _ rfl
@[simp] theorem State.count_die_ledger (d : DieId) (o n : Nat) (e : DieId) : ((s.count d o n).die e).ledger = (s.die e).ledger := s.onDie_field (·.ledger) d e _ rfl
@[simp] theorem State.count_die_pend (d : DieId) (o n : Nat) (e : DieId) : ((s.count d o n).die e).pend = (s.die e).pend := s.onDie_field (·.pend) d e _ rfl
@[simp] theorem State.count_die_slices (d : DieId) (o n : Nat) (e : DieId) : ((s.count d o n).die e).slices = (s.die e).slices := s.onDie_field (·.slices) d e _ rfl
@[simp] theorem State.count_die_pins (d : DieId) (o n : Nat) (e : DieId) : ((s.count d o n).die e).pins = (s.die e).pins := s.onDie_field (·.pins) d e _ rfl
@[simp] theorem State.count_die_txs (d : DieId) (o n : Nat) (e : DieId) : ((s.count d o n).die e).txs = (s.die e).txs := s.onDie_field (·.txs) d e _ rfl
@[simp] theorem State.count_die_ports (d : DieId) (o n : Nat) (e : DieId) : ((s.count d o n).die e).ports = (s.die e).ports := s.onDie_field (·.ports) d e _ rfl
@[simp] theorem State.count_die_courses (d : DieId) (o n : Nat) (e : DieId) : ((s.count d o n).die e).courses = (s.die e).courses := s.onDie_field (·.courses) d e _ rfl
@[simp] theorem State.count_die_stroke (d : DieId) (o n : Nat) (e : DieId) : ((s.count d o n).die e).stroke = (s.die e).stroke := s.onDie_field (·.stroke) d e _ rfl
@[simp] theorem State.count_die_clk (d : DieId) (o n : Nat) (e : DieId) : ((s.count d o n).die e).clk = (s.die e).clk := s.onDie_field (·.clk) d e _ rfl
@[simp] theorem State.count_die_brg (d : DieId) (o n : Nat) (e : DieId) : ((s.count d o n).die e).brg = (s.die e).brg := s.onDie_field (·.brg) d e _ rfl
@[simp] theorem State.count_die_prot (d : DieId) (o n : Nat) (e : DieId) : ((s.count d o n).die e).prot = (s.die e).prot := s.onDie_field (·.prot) d e _ rfl
@[simp] theorem State.count_die_peg (d : DieId) (o n : Nat) (e : DieId) : ((s.count d o n).die e).peg = (s.die e).peg := s.onDie_field (·.peg) d e _ rfl
@[simp] theorem State.count_die_q0 (d : DieId) (o n : Nat) (e : DieId) : ((s.count d o n).die e).q0 = (s.die e).q0 := s.onDie_field (·.q0) d e _ rfl
@[simp] theorem State.count_die_q1 (d : DieId) (o n : Nat) (e : DieId) : ((s.count d o n).die e).q1 = (s.die e).q1 := s.onDie_field (·.q1) d e _ rfl
@[simp] theorem State.count_die_q2 (d : DieId) (o n : Nat) (e : DieId) : ((s.count d o n).die e).q2 = (s.die e).q2 := s.onDie_field (·.q2) d e _ rfl
@[simp] theorem State.count_die_evt (d : DieId) (o n : Nat) (e : DieId) : ((s.count d o n).die e).evt = (s.die e).evt := s.onDie_field (·.evt) d e _ rfl
@[simp] theorem State.count_die_twi (d : DieId) (o n : Nat) (e : DieId) : ((s.count d o n).die e).twi = (s.die e).twi := s.onDie_field (·.twi) d e _ rfl
@[simp] theorem State.count_die_hk (d : DieId) (o n : Nat) (e : DieId) : ((s.count d o n).die e).hk = (s.die e).hk := s.onDie_field (·.hk) d e _ rfl
@[simp] theorem State.count_die_bist (d : DieId) (o n : Nat) (e : DieId) : ((s.count d o n).die e).bist = (s.die e).bist := s.onDie_field (·.bist) d e _ rfl
@[simp] theorem State.count_die_nvs (d : DieId) (o n : Nat) (e : DieId) : ((s.count d o n).die e).nvs = (s.die e).nvs := s.onDie_field (·.nvs) d e _ rfl
@[simp] theorem State.count_die_calLoaded (d : DieId) (o n : Nat) (e : DieId) : ((s.count d o n).die e).calLoaded = (s.die e).calLoaded := s.onDie_field (·.calLoaded) d e _ rfl
@[simp] theorem State.count_die_sram (d : DieId) (o n : Nat) (e : DieId) : ((s.count d o n).die e).sram = (s.die e).sram := s.onDie_field (·.sram) d e _ rfl
@[simp] theorem State.count_die_nv (d : DieId) (o n : Nat) (e : DieId) : ((s.count d o n).die e).nv = (s.die e).nv := s.onDie_field (·.nv) d e _ rfl
@[simp] theorem State.count_die_ir (d : DieId) (o n : Nat) (e : DieId) : ((s.count d o n).die e).ir = (s.die e).ir := s.onDie_field (·.ir) d e _ rfl
@[simp] theorem State.count_die_irCap (d : DieId) (o n : Nat) (e : DieId) : ((s.count d o n).die e).irCap = (s.die e).irCap := s.onDie_field (·.irCap) d e _ rfl
@[simp] theorem State.count_die_slice (d : DieId) (o n : Nat) (e : DieId) (i : Nat) : ((s.count d o n).die e).slice i = (s.die e).slice i := by simp [Die.slice]
@[simp] theorem State.count_die_tx (d : DieId) (o n : Nat) (e : DieId) (i : Nat) : ((s.count d o n).die e).tx i = (s.die e).tx i := by simp [Die.tx]
@[simp] theorem State.count_die_port (d : DieId) (o n : Nat) (e : DieId) (i : Nat) : ((s.count d o n).die e).port i = (s.die e).port i := by simp [Die.port]
@[simp] theorem State.count_die_course (d : DieId) (o n : Nat) (e : DieId) (i : Nat) : ((s.count d o n).die e).course i = (s.die e).course i := by simp [Die.course]
@[simp] theorem State.count_die_pin (d : DieId) (o n : Nat) (e : DieId) (i : Nat) : ((s.count d o n).die e).pin i = (s.die e).pin i := by simp [Die.pin]
@[simp] theorem State.count_die_act (d : DieId) (o n : Nat) (e : DieId) (i : Nat) : ((s.count d o n).die e).act i = (s.die e).act i := by simp [Die.act]
@[simp] theorem State.count_die_stg (d : DieId) (o n : Nat) (e : DieId) (i : Nat) : ((s.count d o n).die e).stg i = (s.die e).stg i := by simp [Die.stg]
@[simp] theorem State.count_die_led (d : DieId) (o n : Nat) (e : DieId) (i : Nat) : ((s.count d o n).die e).led i = (s.die e).led i := by simp [Die.led]
@[simp] theorem State.count_die_queue (d : DieId) (o n : Nat) (e : DieId) (i : QueueId) : ((s.count d o n).die e).queue i = (s.die e).queue i := by simp [Die.queue]
@[simp] theorem State.count_port (d : DieId) (o n : Nat) (p : PortId) : (s.count d o n).port p = s.port p := by simp [State.port]
@[simp] theorem State.count_stroke (d : DieId) (o n : Nat) (e : DieId) : (s.count d o n).stroke e = s.stroke e := by simp [State.stroke]

@[simp] theorem State.setSlice_die_active (d : DieId) (n : Nat) (v : Slice) (e : DieId) : ((s.setSlice d n v).die e).active = (s.die e).active := s.onDie_field (·.active) _ e _ (by simp)
@[simp] theorem State.setSlice_die_staged (d : DieId) (n : Nat) (v : Slice) (e : DieId) : ((s.setSlice d n v).die e).staged = (s.die e).staged := s.onDie_field (·.staged) _ e _ (by simp)
@[simp] theorem State.setSlice_die_ledger (d : DieId) (n : Nat) (v : Slice) (e : DieId) : ((s.setSlice d n v).die e).ledger = (s.die e).ledger := s.onDie_field (·.ledger) _ e _ (by simp)
@[simp] theorem State.setSlice_die_pend (d : DieId) (n : Nat) (v : Slice) (e : DieId) : ((s.setSlice d n v).die e).pend = (s.die e).pend := s.onDie_field (·.pend) _ e _ (by simp)
@[simp] theorem State.setSlice_die_pins (d : DieId) (n : Nat) (v : Slice) (e : DieId) : ((s.setSlice d n v).die e).pins = (s.die e).pins := s.onDie_field (·.pins) _ e _ (by simp)
@[simp] theorem State.setSlice_die_txs (d : DieId) (n : Nat) (v : Slice) (e : DieId) : ((s.setSlice d n v).die e).txs = (s.die e).txs := s.onDie_field (·.txs) _ e _ (by simp)
@[simp] theorem State.setSlice_die_ports (d : DieId) (n : Nat) (v : Slice) (e : DieId) : ((s.setSlice d n v).die e).ports = (s.die e).ports := s.onDie_field (·.ports) _ e _ (by simp)
@[simp] theorem State.setSlice_die_courses (d : DieId) (n : Nat) (v : Slice) (e : DieId) : ((s.setSlice d n v).die e).courses = (s.die e).courses := s.onDie_field (·.courses) _ e _ (by simp)
@[simp] theorem State.setSlice_die_stroke (d : DieId) (n : Nat) (v : Slice) (e : DieId) : ((s.setSlice d n v).die e).stroke = (s.die e).stroke := s.onDie_field (·.stroke) _ e _ (by simp)
@[simp] theorem State.setSlice_die_clk (d : DieId) (n : Nat) (v : Slice) (e : DieId) : ((s.setSlice d n v).die e).clk = (s.die e).clk := s.onDie_field (·.clk) _ e _ (by simp)
@[simp] theorem State.setSlice_die_brg (d : DieId) (n : Nat) (v : Slice) (e : DieId) : ((s.setSlice d n v).die e).brg = (s.die e).brg := s.onDie_field (·.brg) _ e _ (by simp)
@[simp] theorem State.setSlice_die_prot (d : DieId) (n : Nat) (v : Slice) (e : DieId) : ((s.setSlice d n v).die e).prot = (s.die e).prot := s.onDie_field (·.prot) _ e _ (by simp)
@[simp] theorem State.setSlice_die_peg (d : DieId) (n : Nat) (v : Slice) (e : DieId) : ((s.setSlice d n v).die e).peg = (s.die e).peg := s.onDie_field (·.peg) _ e _ (by simp)
@[simp] theorem State.setSlice_die_q0 (d : DieId) (n : Nat) (v : Slice) (e : DieId) : ((s.setSlice d n v).die e).q0 = (s.die e).q0 := s.onDie_field (·.q0) _ e _ (by simp)
@[simp] theorem State.setSlice_die_q1 (d : DieId) (n : Nat) (v : Slice) (e : DieId) : ((s.setSlice d n v).die e).q1 = (s.die e).q1 := s.onDie_field (·.q1) _ e _ (by simp)
@[simp] theorem State.setSlice_die_q2 (d : DieId) (n : Nat) (v : Slice) (e : DieId) : ((s.setSlice d n v).die e).q2 = (s.die e).q2 := s.onDie_field (·.q2) _ e _ (by simp)
@[simp] theorem State.setSlice_die_evt (d : DieId) (n : Nat) (v : Slice) (e : DieId) : ((s.setSlice d n v).die e).evt = (s.die e).evt := s.onDie_field (·.evt) _ e _ (by simp)
@[simp] theorem State.setSlice_die_twi (d : DieId) (n : Nat) (v : Slice) (e : DieId) : ((s.setSlice d n v).die e).twi = (s.die e).twi := s.onDie_field (·.twi) _ e _ (by simp)
@[simp] theorem State.setSlice_die_hk (d : DieId) (n : Nat) (v : Slice) (e : DieId) : ((s.setSlice d n v).die e).hk = (s.die e).hk := s.onDie_field (·.hk) _ e _ (by simp)
@[simp] theorem State.setSlice_die_bist (d : DieId) (n : Nat) (v : Slice) (e : DieId) : ((s.setSlice d n v).die e).bist = (s.die e).bist := s.onDie_field (·.bist) _ e _ (by simp)
@[simp] theorem State.setSlice_die_nvs (d : DieId) (n : Nat) (v : Slice) (e : DieId) : ((s.setSlice d n v).die e).nvs = (s.die e).nvs := s.onDie_field (·.nvs) _ e _ (by simp)
@[simp] theorem State.setSlice_die_calLoaded (d : DieId) (n : Nat) (v : Slice) (e : DieId) : ((s.setSlice d n v).die e).calLoaded = (s.die e).calLoaded := s.onDie_field (·.calLoaded) _ e _ (by simp)
@[simp] theorem State.setSlice_die_sram (d : DieId) (n : Nat) (v : Slice) (e : DieId) : ((s.setSlice d n v).die e).sram = (s.die e).sram := s.onDie_field (·.sram) _ e _ (by simp)
@[simp] theorem State.setSlice_die_nv (d : DieId) (n : Nat) (v : Slice) (e : DieId) : ((s.setSlice d n v).die e).nv = (s.die e).nv := s.onDie_field (·.nv) _ e _ (by simp)
@[simp] theorem State.setSlice_die_ir (d : DieId) (n : Nat) (v : Slice) (e : DieId) : ((s.setSlice d n v).die e).ir = (s.die e).ir := s.onDie_field (·.ir) _ e _ (by simp)
@[simp] theorem State.setSlice_die_irCap (d : DieId) (n : Nat) (v : Slice) (e : DieId) : ((s.setSlice d n v).die e).irCap = (s.die e).irCap := s.onDie_field (·.irCap) _ e _ (by simp)
@[simp] theorem State.setSlice_die_tx (d : DieId) (n : Nat) (v : Slice) (e : DieId) (i : Nat) : ((s.setSlice d n v).die e).tx i = (s.die e).tx i := by simp [Die.tx]
@[simp] theorem State.setSlice_die_port (d : DieId) (n : Nat) (v : Slice) (e : DieId) (i : Nat) : ((s.setSlice d n v).die e).port i = (s.die e).port i := by simp [Die.port]
@[simp] theorem State.setSlice_die_course (d : DieId) (n : Nat) (v : Slice) (e : DieId) (i : Nat) : ((s.setSlice d n v).die e).course i = (s.die e).course i := by simp [Die.course]
@[simp] theorem State.setSlice_die_pin (d : DieId) (n : Nat) (v : Slice) (e : DieId) (i : Nat) : ((s.setSlice d n v).die e).pin i = (s.die e).pin i := by simp [Die.pin]
@[simp] theorem State.setSlice_die_act (d : DieId) (n : Nat) (v : Slice) (e : DieId) (i : Nat) : ((s.setSlice d n v).die e).act i = (s.die e).act i := by simp [Die.act]
@[simp] theorem State.setSlice_die_stg (d : DieId) (n : Nat) (v : Slice) (e : DieId) (i : Nat) : ((s.setSlice d n v).die e).stg i = (s.die e).stg i := by simp [Die.stg]
@[simp] theorem State.setSlice_die_led (d : DieId) (n : Nat) (v : Slice) (e : DieId) (i : Nat) : ((s.setSlice d n v).die e).led i = (s.die e).led i := by simp [Die.led]
@[simp] theorem State.setSlice_die_queue (d : DieId) (n : Nat) (v : Slice) (e : DieId) (i : QueueId) : ((s.setSlice d n v).die e).queue i = (s.die e).queue i := by simp [Die.queue]
@[simp] theorem State.setSlice_port (d : DieId) (n : Nat) (v : Slice) (p : PortId) : (s.setSlice d n v).port p = s.port p := by simp [State.port]
@[simp] theorem State.setSlice_stroke (d : DieId) (n : Nat) (v : Slice) (e : DieId) : (s.setSlice d n v).stroke e = s.stroke e := by simp [State.stroke]

@[simp] theorem State.setTx_die_active (d : DieId) (n : Nat) (v : Tx) (e : DieId) : ((s.setTx d n v).die e).active = (s.die e).active := s.onDie_field (·.active) _ e _ (by simp)
@[simp] theorem State.setTx_die_staged (d : DieId) (n : Nat) (v : Tx) (e : DieId) : ((s.setTx d n v).die e).staged = (s.die e).staged := s.onDie_field (·.staged) _ e _ (by simp)
@[simp] theorem State.setTx_die_ledger (d : DieId) (n : Nat) (v : Tx) (e : DieId) : ((s.setTx d n v).die e).ledger = (s.die e).ledger := s.onDie_field (·.ledger) _ e _ (by simp)
@[simp] theorem State.setTx_die_pend (d : DieId) (n : Nat) (v : Tx) (e : DieId) : ((s.setTx d n v).die e).pend = (s.die e).pend := s.onDie_field (·.pend) _ e _ (by simp)
@[simp] theorem State.setTx_die_slices (d : DieId) (n : Nat) (v : Tx) (e : DieId) : ((s.setTx d n v).die e).slices = (s.die e).slices := s.onDie_field (·.slices) _ e _ (by simp)
@[simp] theorem State.setTx_die_pins (d : DieId) (n : Nat) (v : Tx) (e : DieId) : ((s.setTx d n v).die e).pins = (s.die e).pins := s.onDie_field (·.pins) _ e _ (by simp)
@[simp] theorem State.setTx_die_ports (d : DieId) (n : Nat) (v : Tx) (e : DieId) : ((s.setTx d n v).die e).ports = (s.die e).ports := s.onDie_field (·.ports) _ e _ (by simp)
@[simp] theorem State.setTx_die_courses (d : DieId) (n : Nat) (v : Tx) (e : DieId) : ((s.setTx d n v).die e).courses = (s.die e).courses := s.onDie_field (·.courses) _ e _ (by simp)
@[simp] theorem State.setTx_die_stroke (d : DieId) (n : Nat) (v : Tx) (e : DieId) : ((s.setTx d n v).die e).stroke = (s.die e).stroke := s.onDie_field (·.stroke) _ e _ (by simp)
@[simp] theorem State.setTx_die_clk (d : DieId) (n : Nat) (v : Tx) (e : DieId) : ((s.setTx d n v).die e).clk = (s.die e).clk := s.onDie_field (·.clk) _ e _ (by simp)
@[simp] theorem State.setTx_die_brg (d : DieId) (n : Nat) (v : Tx) (e : DieId) : ((s.setTx d n v).die e).brg = (s.die e).brg := s.onDie_field (·.brg) _ e _ (by simp)
@[simp] theorem State.setTx_die_prot (d : DieId) (n : Nat) (v : Tx) (e : DieId) : ((s.setTx d n v).die e).prot = (s.die e).prot := s.onDie_field (·.prot) _ e _ (by simp)
@[simp] theorem State.setTx_die_peg (d : DieId) (n : Nat) (v : Tx) (e : DieId) : ((s.setTx d n v).die e).peg = (s.die e).peg := s.onDie_field (·.peg) _ e _ (by simp)
@[simp] theorem State.setTx_die_q0 (d : DieId) (n : Nat) (v : Tx) (e : DieId) : ((s.setTx d n v).die e).q0 = (s.die e).q0 := s.onDie_field (·.q0) _ e _ (by simp)
@[simp] theorem State.setTx_die_q1 (d : DieId) (n : Nat) (v : Tx) (e : DieId) : ((s.setTx d n v).die e).q1 = (s.die e).q1 := s.onDie_field (·.q1) _ e _ (by simp)
@[simp] theorem State.setTx_die_q2 (d : DieId) (n : Nat) (v : Tx) (e : DieId) : ((s.setTx d n v).die e).q2 = (s.die e).q2 := s.onDie_field (·.q2) _ e _ (by simp)
@[simp] theorem State.setTx_die_evt (d : DieId) (n : Nat) (v : Tx) (e : DieId) : ((s.setTx d n v).die e).evt = (s.die e).evt := s.onDie_field (·.evt) _ e _ (by simp)
@[simp] theorem State.setTx_die_twi (d : DieId) (n : Nat) (v : Tx) (e : DieId) : ((s.setTx d n v).die e).twi = (s.die e).twi := s.onDie_field (·.twi) _ e _ (by simp)
@[simp] theorem State.setTx_die_hk (d : DieId) (n : Nat) (v : Tx) (e : DieId) : ((s.setTx d n v).die e).hk = (s.die e).hk := s.onDie_field (·.hk) _ e _ (by simp)
@[simp] theorem State.setTx_die_bist (d : DieId) (n : Nat) (v : Tx) (e : DieId) : ((s.setTx d n v).die e).bist = (s.die e).bist := s.onDie_field (·.bist) _ e _ (by simp)
@[simp] theorem State.setTx_die_nvs (d : DieId) (n : Nat) (v : Tx) (e : DieId) : ((s.setTx d n v).die e).nvs = (s.die e).nvs := s.onDie_field (·.nvs) _ e _ (by simp)
@[simp] theorem State.setTx_die_calLoaded (d : DieId) (n : Nat) (v : Tx) (e : DieId) : ((s.setTx d n v).die e).calLoaded = (s.die e).calLoaded := s.onDie_field (·.calLoaded) _ e _ (by simp)
@[simp] theorem State.setTx_die_sram (d : DieId) (n : Nat) (v : Tx) (e : DieId) : ((s.setTx d n v).die e).sram = (s.die e).sram := s.onDie_field (·.sram) _ e _ (by simp)
@[simp] theorem State.setTx_die_nv (d : DieId) (n : Nat) (v : Tx) (e : DieId) : ((s.setTx d n v).die e).nv = (s.die e).nv := s.onDie_field (·.nv) _ e _ (by simp)
@[simp] theorem State.setTx_die_ir (d : DieId) (n : Nat) (v : Tx) (e : DieId) : ((s.setTx d n v).die e).ir = (s.die e).ir := s.onDie_field (·.ir) _ e _ (by simp)
@[simp] theorem State.setTx_die_irCap (d : DieId) (n : Nat) (v : Tx) (e : DieId) : ((s.setTx d n v).die e).irCap = (s.die e).irCap := s.onDie_field (·.irCap) _ e _ (by simp)
@[simp] theorem State.setTx_die_slice (d : DieId) (n : Nat) (v : Tx) (e : DieId) (i : Nat) : ((s.setTx d n v).die e).slice i = (s.die e).slice i := by simp [Die.slice]
@[simp] theorem State.setTx_die_port (d : DieId) (n : Nat) (v : Tx) (e : DieId) (i : Nat) : ((s.setTx d n v).die e).port i = (s.die e).port i := by simp [Die.port]
@[simp] theorem State.setTx_die_course (d : DieId) (n : Nat) (v : Tx) (e : DieId) (i : Nat) : ((s.setTx d n v).die e).course i = (s.die e).course i := by simp [Die.course]
@[simp] theorem State.setTx_die_pin (d : DieId) (n : Nat) (v : Tx) (e : DieId) (i : Nat) : ((s.setTx d n v).die e).pin i = (s.die e).pin i := by simp [Die.pin]
@[simp] theorem State.setTx_die_act (d : DieId) (n : Nat) (v : Tx) (e : DieId) (i : Nat) : ((s.setTx d n v).die e).act i = (s.die e).act i := by simp [Die.act]
@[simp] theorem State.setTx_die_stg (d : DieId) (n : Nat) (v : Tx) (e : DieId) (i : Nat) : ((s.setTx d n v).die e).stg i = (s.die e).stg i := by simp [Die.stg]
@[simp] theorem State.setTx_die_led (d : DieId) (n : Nat) (v : Tx) (e : DieId) (i : Nat) : ((s.setTx d n v).die e).led i = (s.die e).led i := by simp [Die.led]
@[simp] theorem State.setTx_die_queue (d : DieId) (n : Nat) (v : Tx) (e : DieId) (i : QueueId) : ((s.setTx d n v).die e).queue i = (s.die e).queue i := by simp [Die.queue]
@[simp] theorem State.setTx_port (d : DieId) (n : Nat) (v : Tx) (p : PortId) : (s.setTx d n v).port p = s.port p := by simp [State.port]
@[simp] theorem State.setTx_stroke (d : DieId) (n : Nat) (v : Tx) (e : DieId) : (s.setTx d n v).stroke e = s.stroke e := by simp [State.stroke]

@[simp] theorem State.setCourse_die_active (d : DieId) (n : Nat) (v : Course) (e : DieId) : ((s.setCourse d n v).die e).active = (s.die e).active := s.onDie_field (·.active) _ e _ (by simp)
@[simp] theorem State.setCourse_die_staged (d : DieId) (n : Nat) (v : Course) (e : DieId) : ((s.setCourse d n v).die e).staged = (s.die e).staged := s.onDie_field (·.staged) _ e _ (by simp)
@[simp] theorem State.setCourse_die_ledger (d : DieId) (n : Nat) (v : Course) (e : DieId) : ((s.setCourse d n v).die e).ledger = (s.die e).ledger := s.onDie_field (·.ledger) _ e _ (by simp)
@[simp] theorem State.setCourse_die_pend (d : DieId) (n : Nat) (v : Course) (e : DieId) : ((s.setCourse d n v).die e).pend = (s.die e).pend := s.onDie_field (·.pend) _ e _ (by simp)
@[simp] theorem State.setCourse_die_slices (d : DieId) (n : Nat) (v : Course) (e : DieId) : ((s.setCourse d n v).die e).slices = (s.die e).slices := s.onDie_field (·.slices) _ e _ (by simp)
@[simp] theorem State.setCourse_die_pins (d : DieId) (n : Nat) (v : Course) (e : DieId) : ((s.setCourse d n v).die e).pins = (s.die e).pins := s.onDie_field (·.pins) _ e _ (by simp)
@[simp] theorem State.setCourse_die_txs (d : DieId) (n : Nat) (v : Course) (e : DieId) : ((s.setCourse d n v).die e).txs = (s.die e).txs := s.onDie_field (·.txs) _ e _ (by simp)
@[simp] theorem State.setCourse_die_ports (d : DieId) (n : Nat) (v : Course) (e : DieId) : ((s.setCourse d n v).die e).ports = (s.die e).ports := s.onDie_field (·.ports) _ e _ (by simp)
@[simp] theorem State.setCourse_die_stroke (d : DieId) (n : Nat) (v : Course) (e : DieId) : ((s.setCourse d n v).die e).stroke = (s.die e).stroke := s.onDie_field (·.stroke) _ e _ (by simp)
@[simp] theorem State.setCourse_die_clk (d : DieId) (n : Nat) (v : Course) (e : DieId) : ((s.setCourse d n v).die e).clk = (s.die e).clk := s.onDie_field (·.clk) _ e _ (by simp)
@[simp] theorem State.setCourse_die_brg (d : DieId) (n : Nat) (v : Course) (e : DieId) : ((s.setCourse d n v).die e).brg = (s.die e).brg := s.onDie_field (·.brg) _ e _ (by simp)
@[simp] theorem State.setCourse_die_prot (d : DieId) (n : Nat) (v : Course) (e : DieId) : ((s.setCourse d n v).die e).prot = (s.die e).prot := s.onDie_field (·.prot) _ e _ (by simp)
@[simp] theorem State.setCourse_die_peg (d : DieId) (n : Nat) (v : Course) (e : DieId) : ((s.setCourse d n v).die e).peg = (s.die e).peg := s.onDie_field (·.peg) _ e _ (by simp)
@[simp] theorem State.setCourse_die_q0 (d : DieId) (n : Nat) (v : Course) (e : DieId) : ((s.setCourse d n v).die e).q0 = (s.die e).q0 := s.onDie_field (·.q0) _ e _ (by simp)
@[simp] theorem State.setCourse_die_q1 (d : DieId) (n : Nat) (v : Course) (e : DieId) : ((s.setCourse d n v).die e).q1 = (s.die e).q1 := s.onDie_field (·.q1) _ e _ (by simp)
@[simp] theorem State.setCourse_die_q2 (d : DieId) (n : Nat) (v : Course) (e : DieId) : ((s.setCourse d n v).die e).q2 = (s.die e).q2 := s.onDie_field (·.q2) _ e _ (by simp)
@[simp] theorem State.setCourse_die_evt (d : DieId) (n : Nat) (v : Course) (e : DieId) : ((s.setCourse d n v).die e).evt = (s.die e).evt := s.onDie_field (·.evt) _ e _ (by simp)
@[simp] theorem State.setCourse_die_twi (d : DieId) (n : Nat) (v : Course) (e : DieId) : ((s.setCourse d n v).die e).twi = (s.die e).twi := s.onDie_field (·.twi) _ e _ (by simp)
@[simp] theorem State.setCourse_die_hk (d : DieId) (n : Nat) (v : Course) (e : DieId) : ((s.setCourse d n v).die e).hk = (s.die e).hk := s.onDie_field (·.hk) _ e _ (by simp)
@[simp] theorem State.setCourse_die_bist (d : DieId) (n : Nat) (v : Course) (e : DieId) : ((s.setCourse d n v).die e).bist = (s.die e).bist := s.onDie_field (·.bist) _ e _ (by simp)
@[simp] theorem State.setCourse_die_nvs (d : DieId) (n : Nat) (v : Course) (e : DieId) : ((s.setCourse d n v).die e).nvs = (s.die e).nvs := s.onDie_field (·.nvs) _ e _ (by simp)
@[simp] theorem State.setCourse_die_calLoaded (d : DieId) (n : Nat) (v : Course) (e : DieId) : ((s.setCourse d n v).die e).calLoaded = (s.die e).calLoaded := s.onDie_field (·.calLoaded) _ e _ (by simp)
@[simp] theorem State.setCourse_die_sram (d : DieId) (n : Nat) (v : Course) (e : DieId) : ((s.setCourse d n v).die e).sram = (s.die e).sram := s.onDie_field (·.sram) _ e _ (by simp)
@[simp] theorem State.setCourse_die_nv (d : DieId) (n : Nat) (v : Course) (e : DieId) : ((s.setCourse d n v).die e).nv = (s.die e).nv := s.onDie_field (·.nv) _ e _ (by simp)
@[simp] theorem State.setCourse_die_ir (d : DieId) (n : Nat) (v : Course) (e : DieId) : ((s.setCourse d n v).die e).ir = (s.die e).ir := s.onDie_field (·.ir) _ e _ (by simp)
@[simp] theorem State.setCourse_die_irCap (d : DieId) (n : Nat) (v : Course) (e : DieId) : ((s.setCourse d n v).die e).irCap = (s.die e).irCap := s.onDie_field (·.irCap) _ e _ (by simp)
@[simp] theorem State.setCourse_die_slice (d : DieId) (n : Nat) (v : Course) (e : DieId) (i : Nat) : ((s.setCourse d n v).die e).slice i = (s.die e).slice i := by simp [Die.slice]
@[simp] theorem State.setCourse_die_tx (d : DieId) (n : Nat) (v : Course) (e : DieId) (i : Nat) : ((s.setCourse d n v).die e).tx i = (s.die e).tx i := by simp [Die.tx]
@[simp] theorem State.setCourse_die_port (d : DieId) (n : Nat) (v : Course) (e : DieId) (i : Nat) : ((s.setCourse d n v).die e).port i = (s.die e).port i := by simp [Die.port]
@[simp] theorem State.setCourse_die_pin (d : DieId) (n : Nat) (v : Course) (e : DieId) (i : Nat) : ((s.setCourse d n v).die e).pin i = (s.die e).pin i := by simp [Die.pin]
@[simp] theorem State.setCourse_die_act (d : DieId) (n : Nat) (v : Course) (e : DieId) (i : Nat) : ((s.setCourse d n v).die e).act i = (s.die e).act i := by simp [Die.act]
@[simp] theorem State.setCourse_die_stg (d : DieId) (n : Nat) (v : Course) (e : DieId) (i : Nat) : ((s.setCourse d n v).die e).stg i = (s.die e).stg i := by simp [Die.stg]
@[simp] theorem State.setCourse_die_led (d : DieId) (n : Nat) (v : Course) (e : DieId) (i : Nat) : ((s.setCourse d n v).die e).led i = (s.die e).led i := by simp [Die.led]
@[simp] theorem State.setCourse_die_queue (d : DieId) (n : Nat) (v : Course) (e : DieId) (i : QueueId) : ((s.setCourse d n v).die e).queue i = (s.die e).queue i := by simp [Die.queue]
@[simp] theorem State.setCourse_port (d : DieId) (n : Nat) (v : Course) (p : PortId) : (s.setCourse d n v).port p = s.port p := by simp [State.port]
@[simp] theorem State.setCourse_stroke (d : DieId) (n : Nat) (v : Course) (e : DieId) : (s.setCourse d n v).stroke e = s.stroke e := by simp [State.stroke]

@[simp] theorem State.setPort_die_active (q : PortId) (v : Port) (e : DieId) : ((s.setPort q v).die e).active = (s.die e).active := s.onDie_field (·.active) _ e _ (by simp)
@[simp] theorem State.setPort_die_staged (q : PortId) (v : Port) (e : DieId) : ((s.setPort q v).die e).staged = (s.die e).staged := s.onDie_field (·.staged) _ e _ (by simp)
@[simp] theorem State.setPort_die_ledger (q : PortId) (v : Port) (e : DieId) : ((s.setPort q v).die e).ledger = (s.die e).ledger := s.onDie_field (·.ledger) _ e _ (by simp)
@[simp] theorem State.setPort_die_pend (q : PortId) (v : Port) (e : DieId) : ((s.setPort q v).die e).pend = (s.die e).pend := s.onDie_field (·.pend) _ e _ (by simp)
@[simp] theorem State.setPort_die_slices (q : PortId) (v : Port) (e : DieId) : ((s.setPort q v).die e).slices = (s.die e).slices := s.onDie_field (·.slices) _ e _ (by simp)
@[simp] theorem State.setPort_die_pins (q : PortId) (v : Port) (e : DieId) : ((s.setPort q v).die e).pins = (s.die e).pins := s.onDie_field (·.pins) _ e _ (by simp)
@[simp] theorem State.setPort_die_txs (q : PortId) (v : Port) (e : DieId) : ((s.setPort q v).die e).txs = (s.die e).txs := s.onDie_field (·.txs) _ e _ (by simp)
@[simp] theorem State.setPort_die_courses (q : PortId) (v : Port) (e : DieId) : ((s.setPort q v).die e).courses = (s.die e).courses := s.onDie_field (·.courses) _ e _ (by simp)
@[simp] theorem State.setPort_die_stroke (q : PortId) (v : Port) (e : DieId) : ((s.setPort q v).die e).stroke = (s.die e).stroke := s.onDie_field (·.stroke) _ e _ (by simp)
@[simp] theorem State.setPort_die_clk (q : PortId) (v : Port) (e : DieId) : ((s.setPort q v).die e).clk = (s.die e).clk := s.onDie_field (·.clk) _ e _ (by simp)
@[simp] theorem State.setPort_die_brg (q : PortId) (v : Port) (e : DieId) : ((s.setPort q v).die e).brg = (s.die e).brg := s.onDie_field (·.brg) _ e _ (by simp)
@[simp] theorem State.setPort_die_prot (q : PortId) (v : Port) (e : DieId) : ((s.setPort q v).die e).prot = (s.die e).prot := s.onDie_field (·.prot) _ e _ (by simp)
@[simp] theorem State.setPort_die_peg (q : PortId) (v : Port) (e : DieId) : ((s.setPort q v).die e).peg = (s.die e).peg := s.onDie_field (·.peg) _ e _ (by simp)
@[simp] theorem State.setPort_die_q0 (q : PortId) (v : Port) (e : DieId) : ((s.setPort q v).die e).q0 = (s.die e).q0 := s.onDie_field (·.q0) _ e _ (by simp)
@[simp] theorem State.setPort_die_q1 (q : PortId) (v : Port) (e : DieId) : ((s.setPort q v).die e).q1 = (s.die e).q1 := s.onDie_field (·.q1) _ e _ (by simp)
@[simp] theorem State.setPort_die_q2 (q : PortId) (v : Port) (e : DieId) : ((s.setPort q v).die e).q2 = (s.die e).q2 := s.onDie_field (·.q2) _ e _ (by simp)
@[simp] theorem State.setPort_die_evt (q : PortId) (v : Port) (e : DieId) : ((s.setPort q v).die e).evt = (s.die e).evt := s.onDie_field (·.evt) _ e _ (by simp)
@[simp] theorem State.setPort_die_twi (q : PortId) (v : Port) (e : DieId) : ((s.setPort q v).die e).twi = (s.die e).twi := s.onDie_field (·.twi) _ e _ (by simp)
@[simp] theorem State.setPort_die_hk (q : PortId) (v : Port) (e : DieId) : ((s.setPort q v).die e).hk = (s.die e).hk := s.onDie_field (·.hk) _ e _ (by simp)
@[simp] theorem State.setPort_die_bist (q : PortId) (v : Port) (e : DieId) : ((s.setPort q v).die e).bist = (s.die e).bist := s.onDie_field (·.bist) _ e _ (by simp)
@[simp] theorem State.setPort_die_nvs (q : PortId) (v : Port) (e : DieId) : ((s.setPort q v).die e).nvs = (s.die e).nvs := s.onDie_field (·.nvs) _ e _ (by simp)
@[simp] theorem State.setPort_die_tele (q : PortId) (v : Port) (e : DieId) : ((s.setPort q v).die e).tele = (s.die e).tele := s.onDie_field (·.tele) _ e _ (by simp)
@[simp] theorem State.setPort_die_calLoaded (q : PortId) (v : Port) (e : DieId) : ((s.setPort q v).die e).calLoaded = (s.die e).calLoaded := s.onDie_field (·.calLoaded) _ e _ (by simp)
@[simp] theorem State.setPort_die_sram (q : PortId) (v : Port) (e : DieId) : ((s.setPort q v).die e).sram = (s.die e).sram := s.onDie_field (·.sram) _ e _ (by simp)
@[simp] theorem State.setPort_die_nv (q : PortId) (v : Port) (e : DieId) : ((s.setPort q v).die e).nv = (s.die e).nv := s.onDie_field (·.nv) _ e _ (by simp)
@[simp] theorem State.setPort_die_ir (q : PortId) (v : Port) (e : DieId) : ((s.setPort q v).die e).ir = (s.die e).ir := s.onDie_field (·.ir) _ e _ (by simp)
@[simp] theorem State.setPort_die_irCap (q : PortId) (v : Port) (e : DieId) : ((s.setPort q v).die e).irCap = (s.die e).irCap := s.onDie_field (·.irCap) _ e _ (by simp)
@[simp] theorem State.setPort_die_slice (q : PortId) (v : Port) (e : DieId) (i : Nat) : ((s.setPort q v).die e).slice i = (s.die e).slice i := by simp [Die.slice]
@[simp] theorem State.setPort_die_tx (q : PortId) (v : Port) (e : DieId) (i : Nat) : ((s.setPort q v).die e).tx i = (s.die e).tx i := by simp [Die.tx]
@[simp] theorem State.setPort_die_course (q : PortId) (v : Port) (e : DieId) (i : Nat) : ((s.setPort q v).die e).course i = (s.die e).course i := by simp [Die.course]
@[simp] theorem State.setPort_die_pin (q : PortId) (v : Port) (e : DieId) (i : Nat) : ((s.setPort q v).die e).pin i = (s.die e).pin i := by simp [Die.pin]
@[simp] theorem State.setPort_die_act (q : PortId) (v : Port) (e : DieId) (i : Nat) : ((s.setPort q v).die e).act i = (s.die e).act i := by simp [Die.act]
@[simp] theorem State.setPort_die_stg (q : PortId) (v : Port) (e : DieId) (i : Nat) : ((s.setPort q v).die e).stg i = (s.die e).stg i := by simp [Die.stg]
@[simp] theorem State.setPort_die_led (q : PortId) (v : Port) (e : DieId) (i : Nat) : ((s.setPort q v).die e).led i = (s.die e).led i := by simp [Die.led]
@[simp] theorem State.setPort_die_queue (q : PortId) (v : Port) (e : DieId) (i : QueueId) : ((s.setPort q v).die e).queue i = (s.die e).queue i := by simp [Die.queue]
@[simp] theorem State.setPort_stroke (q : PortId) (v : Port) (e : DieId) : (s.setPort q v).stroke e = s.stroke e := by simp [State.stroke]

/-! ### Every die in turn -/

/-- What each die's turn leaves alone is left alone by all of them. -/
theorem State.onAll_keeps {α : Type} (p : State → α) (f : State → DieId → State) (h : ∀ t e, p (f t e) = p t) : p (s.onAll f) = p s := by
  unfold State.onAll
  generalize s.dieList = l
  induction l generalizing s with
  | nil => rfl
  | cons e l ih => rw [List.foldl_cons, ih, h]

/-- What each step of a fold leaves alone is left alone by the fold. -/
theorem State.foldl_keeps {α β : Type} (p : State → α) (f : State → β → State) (h : ∀ t b, p (f t b) = p t) (l : List β) :
    p (l.foldl f s) = p s := by
  induction l generalizing s with
  | nil => rfl
  | cons e l ih => rw [List.foldl_cons, ih, h]

/-- When each die's turn changes that die by g alone, every die of the part is changed by g, once. -/
theorem State.die_onAll (g : Die → Die) (d : DieId) :
    (s.onAll (fun s e => s.onDie e g)).die d = if present s.part d then g (s.die d) else s.die d := by
  have key : ∀ (l : List DieId) (s : State), l.Nodup →
      (l.foldl (fun s e => s.onDie e g) s).die d = if d ∈ l then g (s.die d) else s.die d := by
    intro l
    induction l with
    | nil => intro s _; simp
    | cons e l ih =>
      intro s h
      rw [List.nodup_cons] at h
      rw [List.foldl_cons, ih _ h.2]
      by_cases q : d = e
      · subst q; simp [h.1]
      · simp [q]
  unfold State.onAll
  rw [key s.dieList s ((List.nodup_finRange 8).filter _)]
  simp [State.dieList]

/-- When each die's turn changes that die by g alone, every die of the part whose stroke count runs is changed by g, once. -/
theorem State.die_onAwake (g : Die → Die) (d : DieId) :
    (s.onAwake (fun s e => s.onDie e g)).die d
      = if present s.part d && !(s.die d).stroke.asleep then g (s.die d) else s.die d := by
  have e : s.onAwake (fun s e => s.onDie e g) = s.onAll (fun s e => s.onDie e (fun x => if x.stroke.asleep then x else g x)) := by
    unfold State.onAwake
    congr 1
    funext t e
    split
    · next h => simp [State.onDie, State.setDie, State.die] at h ⊢; simp [h]
    · next h => simp [State.onDie, h]
  rw [e, State.die_onAll]
  cases present s.part d <;> cases (s.die d).stroke.asleep <;> rfl

/-! ### Time -/

/-- The end of n frets changes the counters of a die and its level marks, nothing else (R400). -/
theorem Die.frets_eq (n : Nat) : ∃ t, x.frets n = { x with tele := t } := by
  have fold : ∀ (l : List Nat) (g : Nat → Nat) (y : Die), ∃ t, l.foldl (fun z o => z.count o (g o)) y = { y with tele := t } := by
    intro l g
    induction l with
    | nil => intro y; exact ⟨_, rfl⟩
    | cons o l ih => intro y; obtain ⟨t, h⟩ := ih (y.count o (g o)); exact ⟨t, by rw [List.foldl_cons, h]; rfl⟩
  unfold Die.frets
  split
  · exact ⟨_, rfl⟩
  · simp only
    obtain ⟨t1, h1⟩ := fold (x.levels ++ x.tele.marks.filter (fun o => !x.levels.contains o)) (fun _ => 1) x
    rw [h1]
    split
    · exact ⟨_, rfl⟩
    · obtain ⟨t2, h2⟩ := fold x.levels (fun _ => n - 1) { x with tele := t1 }
      rw [h2]; exact ⟨_, rfl⟩

/-- The passing of fret 16 changes the count of missed markers and the counters, nothing else. -/
theorem Die.markerDue_eq : ∃ m t, x.markerDue = { x with stroke := { x.stroke with misses := m }, tele := t } := by
  unfold Die.markerDue; split <;> exact ⟨_, _, rfl⟩

theorem Die.snapDone_eq : ∃ t, x.snapDone = { x with tele := t } := by unfold Die.snapDone; split <;> exact ⟨_, rfl⟩
theorem Die.copyDone_eq : ∃ t, x.copyDone = { x with tele := t } := by unfold Die.copyDone; split <;> exact ⟨_, rfl⟩

/-- A stroke's part of the copies changes the level marks, the banks, the half that PEGMEM_MARCH copies and the region it goes on from,
nothing else (R146, R424). -/
theorem Die.bankStep_eq : ∃ t cs ts r,
    x.bankStep = { x with tele := t, courses := cs, bist := { x.bist with tests := ts }, peg := { x.peg with region := r } } := by
  unfold Die.bankStep
  split
  · have half : ∃ ts r, x.halfStep = { x with bist := { x.bist with tests := ts }, peg := { x.peg with region := r } } := by
      unfold Die.halfStep
      split
      · exact ⟨_, _, rfl⟩
      · simp only
        split <;> exact ⟨_, _, rfl⟩
    obtain ⟨ts, r, h⟩ := half
    simp only [h]
    generalize List.range 8 = l
    generalize hy : ({ x with bist := { x.bist with tests := ts }, peg := { x.peg with region := r } } : Die) = y
    have fold : ∀ z : Die, (∃ t cs, z = { y with tele := t, courses := cs }) → ∃ t cs, l.foldl (fun x c =>
        if (x.course c).banks.copying then
          x.setCourse c { x.course c with banks := { (x.course c).banks with
            copied := min bankSize ((x.course c).banks.copied + (3840 - x.stroke.bistCut)), copyEnd := if (x.course c).banks.copied = min bankSize ((x.course c).banks.copied + (3840 - x.stroke.bistCut)) then (x.course c).banks.copyEnd else x.stroke.count } }
        else x) z = { y with tele := t, courses := cs } := by
      induction l with
      | nil => intro z h; exact h
      | cons c l ih =>
        intro z h
        rw [List.foldl_cons]
        refine ih _ ?_
        obtain ⟨t, cs, rfl⟩ := h
        split
        · obtain ⟨u, k⟩ := Die.setCourse_eq ({ y with tele := t, courses := cs } : Die) c _
          rw [k]; exact ⟨_, _, rfl⟩
        · exact ⟨_, _, rfl⟩
    obtain ⟨t, cs, k⟩ := fold y ⟨_, _, rfl⟩
    rw [k, ← hy]; exact ⟨_, _, _, _, rfl⟩
  · exact ⟨_, _, _, _, rfl⟩

/-- y is x after time has passed: its count of missed markers, its telemetry, and the copies that run in frets 25 to 27 may differ,
nothing else. -/
def Die.elapsed (x y : Die) : Prop :=
  ∃ m t cs ts r, y = { x with stroke := { x.stroke with misses := m }, tele := t, courses := cs, bist := { x.bist with tests := ts },
                               peg := { x.peg with region := r } }

theorem Die.elapsed_refl : x.elapsed x := ⟨_, _, _, _, _, rfl⟩

theorem Die.elapsed_trans {y z : Die} (h : x.elapsed y) (k : y.elapsed z) : x.elapsed z := by
  obtain ⟨_, _, _, _, _, rfl⟩ := h
  obtain ⟨_, _, _, _, _, rfl⟩ := k
  exact ⟨_, _, _, _, _, rfl⟩

theorem Die.elapsed_frets (n : Nat) : x.elapsed (x.frets n) := by
  obtain ⟨t, h⟩ := x.frets_eq n
  rw [h]; exact ⟨_, _, _, _, _, rfl⟩

theorem Die.elapsed_marker : x.elapsed x.markerDue := by obtain ⟨m, t, h⟩ := x.markerDue_eq; rw [h]; exact ⟨_, _, _, _, _, rfl⟩
theorem Die.elapsed_snap : x.elapsed x.snapDone := by obtain ⟨t, h⟩ := x.snapDone_eq; rw [h]; exact ⟨_, _, _, _, _, rfl⟩
theorem Die.elapsed_copy : x.elapsed x.copyDone := by obtain ⟨t, h⟩ := x.copyDone_eq; rw [h]; exact ⟨_, _, _, _, _, rfl⟩
theorem Die.elapsed_bank : x.elapsed x.bankStep := by obtain ⟨t, cs, ts, r, h⟩ := x.bankStep_eq; rw [h]; exact ⟨_, _, _, _, _, rfl⟩

theorem Die.elapsed_if {f : Die → Die} (b : Bool) (h : ∀ y : Die, y.elapsed (f y)) : x.elapsed (if b then f x else x) := by
  split
  · exact h x
  · exact x.elapsed_refl

/-- The position moves forward only, and not past the last sc (R22). -/
theorem State.advance_pos (p : Nat) : (s.advance p).pos = if s.running && s.pos < p && p ≤ 1279 then p else s.pos := by
  unfold State.advance
  split <;> rfl

/-- Time passing within a stroke changes of a die what `Die.elapsed` names, nothing else (R22, R400). -/
theorem State.advance_die (p : Nat) (d : DieId) : (s.die d).elapsed ((s.advance p).die d) := by
  unfold State.advance
  split
  · simp only
    generalize hf : (fun x : Die => _) = f
    have h : ∀ y : Die, y.elapsed (f y) := by
      intro y
      subst hf
      exact Die.elapsed_trans _ (Die.elapsed_trans _ (Die.elapsed_trans _ (Die.elapsed_trans _ (y.elapsed_frets _)
        (Die.elapsed_if _ (f := Die.markerDue) _ Die.elapsed_marker))
        (Die.elapsed_if _ (f := Die.snapDone) _ Die.elapsed_snap)) (Die.elapsed_if _ (f := Die.copyDone) _ Die.elapsed_copy))
        (Die.elapsed_if _ (f := Die.bankStep) _ Die.elapsed_bank)
    change (s.die d).elapsed ((s.onAwake (fun s e => s.onDie e f)).die d)
    rw [State.die_onAwake]
    split
    · exact h _
    · exact Die.elapsed_refl _
  · exact Die.elapsed_refl _

/-! ### Records (R321, R328, R331) -/

/-- Putting a packet on the ring changes the die's bridge block and the ring, nothing else. -/
theorem State.sendTo_eq (a b : DieId) (body : Body) (answered : Bool) :
    ∃ g air, s.sendTo a b body answered = { s.onDie a (fun x => { x with brg := g }) with air := air } := by
  unfold State.sendTo
  simp only
  generalize hu : s.onDie a _ = u
  unfold State.leave
  split
  · exact ⟨_, s.air, by rw [← hu]; rfl⟩
  · exact ⟨_, _, by rw [← hu]; rfl⟩

/-- What handing a record to its queue, or to the ring, can do: the queues, the bridge block, the pegbox's inbox, the event
block and the counters of that die, and the ring. -/
def Die.carriedFrom (x y : Die) : Prop :=
  ∃ g p a b c v t, y = { x with brg := g, peg := { x.peg with inbox := p }, q0 := a, q1 := b, q2 := c, evt := v, tele := t }

theorem Die.carriedFrom_refl : x.carriedFrom x := ⟨_, _, _, _, _, _, _, rfl⟩

theorem Die.carriedFrom_trans {y z : Die} (h : x.carriedFrom y) (k : y.carriedFrom z) : x.carriedFrom z := by
  obtain ⟨_, _, _, _, _, _, _, rfl⟩ := h
  obtain ⟨_, _, _, _, _, _, _, rfl⟩ := k
  exact ⟨_, _, _, _, _, _, _, rfl⟩

/-- t is s after records and packets have been carried on die d: no other die changes, and no other part of the package but
the ring. -/
def State.carried (s : State) (d : DieId) (t : State) : Prop :=
  (s.die d).carriedFrom (t.die d) ∧ (∀ e, e ≠ d → t.die e = s.die e) ∧
    t = { s with dies := t.dies, air := t.air }

theorem State.carried_refl (d : DieId) : s.carried d s := ⟨Die.carriedFrom_refl _, fun _ _ => rfl, rfl⟩

theorem State.carried_trans {d : DieId} {t u : State} (h : s.carried d t) (k : t.carried d u) : s.carried d u := by
  obtain ⟨h1, h2, h3⟩ := h
  obtain ⟨k1, k2, k3⟩ := k
  refine ⟨Die.carriedFrom_trans _ h1 k1, fun e q => (k2 e q).trans (h2 e q), ?_⟩
  rw [k3, h3]

theorem State.carried_onDie (d : DieId) (f : Die → Die) (h : (s.die d).carriedFrom (f (s.die d))) : s.carried d (s.onDie d f) :=
  ⟨by simpa using h, fun e q => by simp [q], rfl⟩

theorem State.carried_sendTo (a b : DieId) (body : Body) (answered : Bool) : s.carried a (s.sendTo a b body answered) := by
  obtain ⟨g, air, h⟩ := s.sendTo_eq a b body answered
  rw [h]
  refine ⟨?_, fun e q => ?_, rfl⟩
  · have k : ∀ u : State, u.die a = { s.die a with brg := g } → (s.die a).carriedFrom (({ u with air := air } : State).die a) :=
      fun u q => ⟨g, _, _, _, _, _, _, q⟩
    exact k _ (by simp)
  · have k : ∀ u : State, u.die e = s.die e → ({ u with air := air } : State).die e = s.die e := fun _ q => q
    exact k _ (by simp [q])

theorem State.carried_setQueue (d : DieId) (q : QueueId) (v : Queue) : s.carried d (s.setQueue d q v) := by
  refine s.carried_onDie d _ ?_
  unfold Die.setQueue
  split
  · exact ⟨_, _, _, _, _, _, _, rfl⟩
  · split <;> exact ⟨_, _, _, _, _, _, _, rfl⟩

theorem State.carried_count (d : DieId) (o n : Nat) : s.carried d (s.count d o n) :=
  s.carried_onDie d _ ⟨_, _, _, _, _, _, _, rfl⟩

theorem State.carried_post (d : DieId) (src cause data : Nat) : s.carried d (s.post d src cause data) := by
  obtain ⟨v, t, h⟩ := s.post_eq d src cause data
  rw [h]
  exact s.carried_onDie d _ ⟨_, _, _, _, _, _, _, rfl⟩

theorem State.carried_dispatch (d : DieId) (k : Packet × Nat) : s.carried d (s.dispatch d k) := by
  unfold State.dispatch State.enqueue
  split
  · exact s.carried_onDie d _ ⟨_, _, _, _, _, _, _, rfl⟩
  · exact s.carried_sendTo _ _ _ _

theorem State.carried_foldl {α : Type} (d : DieId) (f : State → α → State) (h : ∀ (t : State) a, t.carried d (f t a)) (l : List α) :
    s.carried d (l.foldl f s) := by
  induction l generalizing s with
  | nil => exact s.carried_refl d
  | cons a l ih => exact s.carried_trans (h s a) (ih (f s a))

theorem State.carried_startHeld (d : DieId) (n : QueueId) : s.carried d (s.startHeld d n) := by
  unfold State.startHeld
  simp only
  exact s.carried_trans (s.carried_setQueue _ _ _) (State.carried_foldl _ d _ (fun t a => t.carried_dispatch d a) _)

/-- A record reaches its queue: nothing but that die's carriers changes. -/
theorem State.carried_receive (d : DieId) (r : Rec) : s.carried d (s.receive d r) := by
  unfold State.receive
  simp only
  split
  · exact s.carried_trans (s.carried_setQueue _ _ _) (State.carried_startHeld _ _ _)
  · split
    · exact s.carried_trans (s.carried_setQueue _ _ _)
        (State.carried_trans _ (State.carried_count _ _ _ _) (State.carried_post _ _ _ _ _))
    · exact s.carried_setQueue _ _ _

theorem State.carried_deliver (d : DieId) (r : Rec) : s.carried d (s.deliver d r) := by
  unfold State.deliver
  split
  · exact s.carried_receive d r
  · exact s.carried_sendTo _ _ _ _

/-- A command ends: the pegbox's memory of ended commands and the carriers of the executing die change, nothing else. -/
theorem State.finish_eq (k : Packet) (op : Nat) (r : Rec) :
    ∃ l t, (s.onDie k.die (fun x => { x with peg := { x.peg with ended := l }, tele := t })).carried k.die (s.finish k op r) := by
  unfold State.finish
  exact ⟨_, _, State.carried_deliver _ _ _⟩

@[simp] theorem State.finish_die_active (k : Packet) (op : Nat) (r : Rec) (e : DieId) : ((s.finish k op r).die e).active = (s.die e).active := by
  obtain ⟨l, t, h1, h2, h3⟩ := s.finish_eq k op r
  by_cases q : e = k.die
  · subst q; obtain ⟨_, _, _, _, _, _, _, h⟩ := h1; rw [h]; simp
  · rw [h2 e q]; simp [q]
@[simp] theorem State.finish_die_staged (k : Packet) (op : Nat) (r : Rec) (e : DieId) : ((s.finish k op r).die e).staged = (s.die e).staged := by
  obtain ⟨l, t, h1, h2, h3⟩ := s.finish_eq k op r
  by_cases q : e = k.die
  · subst q; obtain ⟨_, _, _, _, _, _, _, h⟩ := h1; rw [h]; simp
  · rw [h2 e q]; simp [q]
@[simp] theorem State.finish_die_ledger (k : Packet) (op : Nat) (r : Rec) (e : DieId) : ((s.finish k op r).die e).ledger = (s.die e).ledger := by
  obtain ⟨l, t, h1, h2, h3⟩ := s.finish_eq k op r
  by_cases q : e = k.die
  · subst q; obtain ⟨_, _, _, _, _, _, _, h⟩ := h1; rw [h]; simp
  · rw [h2 e q]; simp [q]
@[simp] theorem State.finish_die_pend (k : Packet) (op : Nat) (r : Rec) (e : DieId) : ((s.finish k op r).die e).pend = (s.die e).pend := by
  obtain ⟨l, t, h1, h2, h3⟩ := s.finish_eq k op r
  by_cases q : e = k.die
  · subst q; obtain ⟨_, _, _, _, _, _, _, h⟩ := h1; rw [h]; simp
  · rw [h2 e q]; simp [q]
@[simp] theorem State.finish_die_slices (k : Packet) (op : Nat) (r : Rec) (e : DieId) : ((s.finish k op r).die e).slices = (s.die e).slices := by
  obtain ⟨l, t, h1, h2, h3⟩ := s.finish_eq k op r
  by_cases q : e = k.die
  · subst q; obtain ⟨_, _, _, _, _, _, _, h⟩ := h1; rw [h]; simp
  · rw [h2 e q]; simp [q]
@[simp] theorem State.finish_die_pins (k : Packet) (op : Nat) (r : Rec) (e : DieId) : ((s.finish k op r).die e).pins = (s.die e).pins := by
  obtain ⟨l, t, h1, h2, h3⟩ := s.finish_eq k op r
  by_cases q : e = k.die
  · subst q; obtain ⟨_, _, _, _, _, _, _, h⟩ := h1; rw [h]; simp
  · rw [h2 e q]; simp [q]
@[simp] theorem State.finish_die_txs (k : Packet) (op : Nat) (r : Rec) (e : DieId) : ((s.finish k op r).die e).txs = (s.die e).txs := by
  obtain ⟨l, t, h1, h2, h3⟩ := s.finish_eq k op r
  by_cases q : e = k.die
  · subst q; obtain ⟨_, _, _, _, _, _, _, h⟩ := h1; rw [h]; simp
  · rw [h2 e q]; simp [q]
@[simp] theorem State.finish_die_ports (k : Packet) (op : Nat) (r : Rec) (e : DieId) : ((s.finish k op r).die e).ports = (s.die e).ports := by
  obtain ⟨l, t, h1, h2, h3⟩ := s.finish_eq k op r
  by_cases q : e = k.die
  · subst q; obtain ⟨_, _, _, _, _, _, _, h⟩ := h1; rw [h]; simp
  · rw [h2 e q]; simp [q]
@[simp] theorem State.finish_die_courses (k : Packet) (op : Nat) (r : Rec) (e : DieId) : ((s.finish k op r).die e).courses = (s.die e).courses := by
  obtain ⟨l, t, h1, h2, h3⟩ := s.finish_eq k op r
  by_cases q : e = k.die
  · subst q; obtain ⟨_, _, _, _, _, _, _, h⟩ := h1; rw [h]; simp
  · rw [h2 e q]; simp [q]
@[simp] theorem State.finish_die_stroke (k : Packet) (op : Nat) (r : Rec) (e : DieId) : ((s.finish k op r).die e).stroke = (s.die e).stroke := by
  obtain ⟨l, t, h1, h2, h3⟩ := s.finish_eq k op r
  by_cases q : e = k.die
  · subst q; obtain ⟨_, _, _, _, _, _, _, h⟩ := h1; rw [h]; simp
  · rw [h2 e q]; simp [q]
@[simp] theorem State.finish_die_clk (k : Packet) (op : Nat) (r : Rec) (e : DieId) : ((s.finish k op r).die e).clk = (s.die e).clk := by
  obtain ⟨l, t, h1, h2, h3⟩ := s.finish_eq k op r
  by_cases q : e = k.die
  · subst q; obtain ⟨_, _, _, _, _, _, _, h⟩ := h1; rw [h]; simp
  · rw [h2 e q]; simp [q]
@[simp] theorem State.finish_die_prot (k : Packet) (op : Nat) (r : Rec) (e : DieId) : ((s.finish k op r).die e).prot = (s.die e).prot := by
  obtain ⟨l, t, h1, h2, h3⟩ := s.finish_eq k op r
  by_cases q : e = k.die
  · subst q; obtain ⟨_, _, _, _, _, _, _, h⟩ := h1; rw [h]; simp
  · rw [h2 e q]; simp [q]
@[simp] theorem State.finish_die_twi (k : Packet) (op : Nat) (r : Rec) (e : DieId) : ((s.finish k op r).die e).twi = (s.die e).twi := by
  obtain ⟨l, t, h1, h2, h3⟩ := s.finish_eq k op r
  by_cases q : e = k.die
  · subst q; obtain ⟨_, _, _, _, _, _, _, h⟩ := h1; rw [h]; simp
  · rw [h2 e q]; simp [q]
@[simp] theorem State.finish_die_hk (k : Packet) (op : Nat) (r : Rec) (e : DieId) : ((s.finish k op r).die e).hk = (s.die e).hk := by
  obtain ⟨l, t, h1, h2, h3⟩ := s.finish_eq k op r
  by_cases q : e = k.die
  · subst q; obtain ⟨_, _, _, _, _, _, _, h⟩ := h1; rw [h]; simp
  · rw [h2 e q]; simp [q]
@[simp] theorem State.finish_die_bist (k : Packet) (op : Nat) (r : Rec) (e : DieId) : ((s.finish k op r).die e).bist = (s.die e).bist := by
  obtain ⟨l, t, h1, h2, h3⟩ := s.finish_eq k op r
  by_cases q : e = k.die
  · subst q; obtain ⟨_, _, _, _, _, _, _, h⟩ := h1; rw [h]; simp
  · rw [h2 e q]; simp [q]
@[simp] theorem State.finish_die_nvs (k : Packet) (op : Nat) (r : Rec) (e : DieId) : ((s.finish k op r).die e).nvs = (s.die e).nvs := by
  obtain ⟨l, t, h1, h2, h3⟩ := s.finish_eq k op r
  by_cases q : e = k.die
  · subst q; obtain ⟨_, _, _, _, _, _, _, h⟩ := h1; rw [h]; simp
  · rw [h2 e q]; simp [q]
@[simp] theorem State.finish_die_calLoaded (k : Packet) (op : Nat) (r : Rec) (e : DieId) : ((s.finish k op r).die e).calLoaded = (s.die e).calLoaded := by
  obtain ⟨l, t, h1, h2, h3⟩ := s.finish_eq k op r
  by_cases q : e = k.die
  · subst q; obtain ⟨_, _, _, _, _, _, _, h⟩ := h1; rw [h]; simp
  · rw [h2 e q]; simp [q]
@[simp] theorem State.finish_die_sram (k : Packet) (op : Nat) (r : Rec) (e : DieId) : ((s.finish k op r).die e).sram = (s.die e).sram := by
  obtain ⟨l, t, h1, h2, h3⟩ := s.finish_eq k op r
  by_cases q : e = k.die
  · subst q; obtain ⟨_, _, _, _, _, _, _, h⟩ := h1; rw [h]; simp
  · rw [h2 e q]; simp [q]
@[simp] theorem State.finish_die_nv (k : Packet) (op : Nat) (r : Rec) (e : DieId) : ((s.finish k op r).die e).nv = (s.die e).nv := by
  obtain ⟨l, t, h1, h2, h3⟩ := s.finish_eq k op r
  by_cases q : e = k.die
  · subst q; obtain ⟨_, _, _, _, _, _, _, h⟩ := h1; rw [h]; simp
  · rw [h2 e q]; simp [q]
@[simp] theorem State.finish_die_ir (k : Packet) (op : Nat) (r : Rec) (e : DieId) : ((s.finish k op r).die e).ir = (s.die e).ir := by
  obtain ⟨l, t, h1, h2, h3⟩ := s.finish_eq k op r
  by_cases q : e = k.die
  · subst q; obtain ⟨_, _, _, _, _, _, _, h⟩ := h1; rw [h]; simp
  · rw [h2 e q]; simp [q]
@[simp] theorem State.finish_die_irCap (k : Packet) (op : Nat) (r : Rec) (e : DieId) : ((s.finish k op r).die e).irCap = (s.die e).irCap := by
  obtain ⟨l, t, h1, h2, h3⟩ := s.finish_eq k op r
  by_cases q : e = k.die
  · subst q; obtain ⟨_, _, _, _, _, _, _, h⟩ := h1; rw [h]; simp
  · rw [h2 e q]; simp [q]
@[simp] theorem State.finish_die_slice (k : Packet) (op : Nat) (r : Rec) (e : DieId) (i : Nat) : ((s.finish k op r).die e).slice i = (s.die e).slice i := by simp [Die.slice]
@[simp] theorem State.finish_die_tx (k : Packet) (op : Nat) (r : Rec) (e : DieId) (i : Nat) : ((s.finish k op r).die e).tx i = (s.die e).tx i := by simp [Die.tx]
@[simp] theorem State.finish_die_port (k : Packet) (op : Nat) (r : Rec) (e : DieId) (i : Nat) : ((s.finish k op r).die e).port i = (s.die e).port i := by simp [Die.port]
@[simp] theorem State.finish_die_course (k : Packet) (op : Nat) (r : Rec) (e : DieId) (i : Nat) : ((s.finish k op r).die e).course i = (s.die e).course i := by simp [Die.course]
@[simp] theorem State.finish_die_pin (k : Packet) (op : Nat) (r : Rec) (e : DieId) (i : Nat) : ((s.finish k op r).die e).pin i = (s.die e).pin i := by simp [Die.pin]
@[simp] theorem State.finish_die_act (k : Packet) (op : Nat) (r : Rec) (e : DieId) (i : Nat) : ((s.finish k op r).die e).act i = (s.die e).act i := by simp [Die.act]
@[simp] theorem State.finish_die_stg (k : Packet) (op : Nat) (r : Rec) (e : DieId) (i : Nat) : ((s.finish k op r).die e).stg i = (s.die e).stg i := by simp [Die.stg]
@[simp] theorem State.finish_die_led (k : Packet) (op : Nat) (r : Rec) (e : DieId) (i : Nat) : ((s.finish k op r).die e).led i = (s.die e).led i := by simp [Die.led]
@[simp] theorem State.finish_port (k : Packet) (op : Nat) (r : Rec) (p : PortId) : (s.finish k op r).port p = s.port p := by simp [State.port]
@[simp] theorem State.finish_stroke (k : Packet) (op : Nat) (r : Rec) (e : DieId) : (s.finish k op r).stroke e = s.stroke e := by simp [State.stroke]
@[simp] theorem State.finish_part (k : Packet) (op : Nat) (r : Rec) : (s.finish k op r).part = s.part := by
  obtain ⟨l, t, h1, h2, h3⟩ := s.finish_eq k op r; rw [h3]; rfl
@[simp] theorem State.finish_phase (k : Packet) (op : Nat) (r : Rec) : (s.finish k op r).phase = s.phase := by
  obtain ⟨l, t, h1, h2, h3⟩ := s.finish_eq k op r; rw [h3]; rfl
@[simp] theorem State.finish_pos (k : Packet) (op : Nat) (r : Rec) : (s.finish k op r).pos = s.pos := by
  obtain ⟨l, t, h1, h2, h3⟩ := s.finish_eq k op r; rw [h3]; rfl
@[simp] theorem State.finish_free (k : Packet) (op : Nat) (r : Rec) : (s.finish k op r).free = s.free := by
  obtain ⟨l, t, h1, h2, h3⟩ := s.finish_eq k op r; rw [h3]; rfl
@[simp] theorem State.finish_wake (k : Packet) (op : Nat) (r : Rec) : (s.finish k op r).wake = s.wake := by
  obtain ⟨l, t, h1, h2, h3⟩ := s.finish_eq k op r; rw [h3]; rfl
@[simp] theorem State.finish_waking (k : Packet) (op : Nat) (r : Rec) : (s.finish k op r).waking = s.waking := by
  obtain ⟨l, t, h1, h2, h3⟩ := s.finish_eq k op r; rw [h3]; rfl
@[simp] theorem State.finish_rootOff (k : Packet) (op : Nat) (r : Rec) : (s.finish k op r).rootOff = s.rootOff := by
  obtain ⟨l, t, h1, h2, h3⟩ := s.finish_eq k op r; rw [h3]; rfl
@[simp] theorem State.finish_vddhOff (k : Packet) (op : Nat) (r : Rec) : (s.finish k op r).vddhOff = s.vddhOff := by
  obtain ⟨l, t, h1, h2, h3⟩ := s.finish_eq k op r; rw [h3]; rfl
@[simp] theorem State.finish_lead (k : Packet) (op : Nat) (r : Rec) : (s.finish k op r).lead = s.lead := by
  obtain ⟨l, t, h1, h2, h3⟩ := s.finish_eq k op r; rw [h3]; rfl
@[simp] theorem State.finish_ep0 (k : Packet) (op : Nat) (r : Rec) : (s.finish k op r).ep0 = s.ep0 := by
  obtain ⟨l, t, h1, h2, h3⟩ := s.finish_eq k op r; rw [h3]; rfl
@[simp] theorem State.finish_ep1 (k : Packet) (op : Nat) (r : Rec) : (s.finish k op r).ep1 = s.ep1 := by
  obtain ⟨l, t, h1, h2, h3⟩ := s.finish_eq k op r; rw [h3]; rfl
@[simp] theorem State.finish_gsync (k : Packet) (op : Nat) (r : Rec) : (s.finish k op r).gsync = s.gsync := by
  obtain ⟨l, t, h1, h2, h3⟩ := s.finish_eq k op r; rw [h3]; rfl
@[simp] theorem State.finish_fwHeld (k : Packet) (op : Nat) (r : Rec) : (s.finish k op r).fwHeld = s.fwHeld := by
  obtain ⟨l, t, h1, h2, h3⟩ := s.finish_eq k op r; rw [h3]; rfl
@[simp] theorem State.finish_fwOp (k : Packet) (op : Nat) (r : Rec) : (s.finish k op r).fwOp = s.fwOp := by
  obtain ⟨l, t, h1, h2, h3⟩ := s.finish_eq k op r; rw [h3]; rfl
@[simp] theorem State.finish_fwDone (k : Packet) (op : Nat) (r : Rec) : (s.finish k op r).fwDone = s.fwDone := by
  obtain ⟨l, t, h1, h2, h3⟩ := s.finish_eq k op r; rw [h3]; rfl
@[simp] theorem State.finish_fwBack (k : Packet) (op : Nat) (r : Rec) : (s.finish k op r).fwBack = s.fwBack := by
  obtain ⟨l, t, h1, h2, h3⟩ := s.finish_eq k op r; rw [h3]; rfl
@[simp] theorem State.finish_pending (k : Packet) (op : Nat) (r : Rec) : (s.finish k op r).pending = s.pending := by
  obtain ⟨l, t, h1, h2, h3⟩ := s.finish_eq k op r; rw [h3]; rfl

@[simp] theorem State.deliver_die_active (d : DieId) (r : Rec) (e : DieId) : ((s.deliver d r).die e).active = (s.die e).active := by
  obtain ⟨h1, h2, h3⟩ := s.carried_deliver d r
  by_cases q : e = d
  · subst q; obtain ⟨_, _, _, _, _, _, _, h⟩ := h1; rw [h]
  · rw [h2 e q]
@[simp] theorem State.deliver_die_staged (d : DieId) (r : Rec) (e : DieId) : ((s.deliver d r).die e).staged = (s.die e).staged := by
  obtain ⟨h1, h2, h3⟩ := s.carried_deliver d r
  by_cases q : e = d
  · subst q; obtain ⟨_, _, _, _, _, _, _, h⟩ := h1; rw [h]
  · rw [h2 e q]
@[simp] theorem State.deliver_die_ledger (d : DieId) (r : Rec) (e : DieId) : ((s.deliver d r).die e).ledger = (s.die e).ledger := by
  obtain ⟨h1, h2, h3⟩ := s.carried_deliver d r
  by_cases q : e = d
  · subst q; obtain ⟨_, _, _, _, _, _, _, h⟩ := h1; rw [h]
  · rw [h2 e q]
@[simp] theorem State.deliver_die_pend (d : DieId) (r : Rec) (e : DieId) : ((s.deliver d r).die e).pend = (s.die e).pend := by
  obtain ⟨h1, h2, h3⟩ := s.carried_deliver d r
  by_cases q : e = d
  · subst q; obtain ⟨_, _, _, _, _, _, _, h⟩ := h1; rw [h]
  · rw [h2 e q]
@[simp] theorem State.deliver_die_slices (d : DieId) (r : Rec) (e : DieId) : ((s.deliver d r).die e).slices = (s.die e).slices := by
  obtain ⟨h1, h2, h3⟩ := s.carried_deliver d r
  by_cases q : e = d
  · subst q; obtain ⟨_, _, _, _, _, _, _, h⟩ := h1; rw [h]
  · rw [h2 e q]
@[simp] theorem State.deliver_die_pins (d : DieId) (r : Rec) (e : DieId) : ((s.deliver d r).die e).pins = (s.die e).pins := by
  obtain ⟨h1, h2, h3⟩ := s.carried_deliver d r
  by_cases q : e = d
  · subst q; obtain ⟨_, _, _, _, _, _, _, h⟩ := h1; rw [h]
  · rw [h2 e q]
@[simp] theorem State.deliver_die_txs (d : DieId) (r : Rec) (e : DieId) : ((s.deliver d r).die e).txs = (s.die e).txs := by
  obtain ⟨h1, h2, h3⟩ := s.carried_deliver d r
  by_cases q : e = d
  · subst q; obtain ⟨_, _, _, _, _, _, _, h⟩ := h1; rw [h]
  · rw [h2 e q]
@[simp] theorem State.deliver_die_ports (d : DieId) (r : Rec) (e : DieId) : ((s.deliver d r).die e).ports = (s.die e).ports := by
  obtain ⟨h1, h2, h3⟩ := s.carried_deliver d r
  by_cases q : e = d
  · subst q; obtain ⟨_, _, _, _, _, _, _, h⟩ := h1; rw [h]
  · rw [h2 e q]
@[simp] theorem State.deliver_die_courses (d : DieId) (r : Rec) (e : DieId) : ((s.deliver d r).die e).courses = (s.die e).courses := by
  obtain ⟨h1, h2, h3⟩ := s.carried_deliver d r
  by_cases q : e = d
  · subst q; obtain ⟨_, _, _, _, _, _, _, h⟩ := h1; rw [h]
  · rw [h2 e q]
@[simp] theorem State.deliver_die_stroke (d : DieId) (r : Rec) (e : DieId) : ((s.deliver d r).die e).stroke = (s.die e).stroke := by
  obtain ⟨h1, h2, h3⟩ := s.carried_deliver d r
  by_cases q : e = d
  · subst q; obtain ⟨_, _, _, _, _, _, _, h⟩ := h1; rw [h]
  · rw [h2 e q]
@[simp] theorem State.deliver_die_clk (d : DieId) (r : Rec) (e : DieId) : ((s.deliver d r).die e).clk = (s.die e).clk := by
  obtain ⟨h1, h2, h3⟩ := s.carried_deliver d r
  by_cases q : e = d
  · subst q; obtain ⟨_, _, _, _, _, _, _, h⟩ := h1; rw [h]
  · rw [h2 e q]
@[simp] theorem State.deliver_die_prot (d : DieId) (r : Rec) (e : DieId) : ((s.deliver d r).die e).prot = (s.die e).prot := by
  obtain ⟨h1, h2, h3⟩ := s.carried_deliver d r
  by_cases q : e = d
  · subst q; obtain ⟨_, _, _, _, _, _, _, h⟩ := h1; rw [h]
  · rw [h2 e q]
@[simp] theorem State.deliver_die_twi (d : DieId) (r : Rec) (e : DieId) : ((s.deliver d r).die e).twi = (s.die e).twi := by
  obtain ⟨h1, h2, h3⟩ := s.carried_deliver d r
  by_cases q : e = d
  · subst q; obtain ⟨_, _, _, _, _, _, _, h⟩ := h1; rw [h]
  · rw [h2 e q]
@[simp] theorem State.deliver_die_hk (d : DieId) (r : Rec) (e : DieId) : ((s.deliver d r).die e).hk = (s.die e).hk := by
  obtain ⟨h1, h2, h3⟩ := s.carried_deliver d r
  by_cases q : e = d
  · subst q; obtain ⟨_, _, _, _, _, _, _, h⟩ := h1; rw [h]
  · rw [h2 e q]
@[simp] theorem State.deliver_die_bist (d : DieId) (r : Rec) (e : DieId) : ((s.deliver d r).die e).bist = (s.die e).bist := by
  obtain ⟨h1, h2, h3⟩ := s.carried_deliver d r
  by_cases q : e = d
  · subst q; obtain ⟨_, _, _, _, _, _, _, h⟩ := h1; rw [h]
  · rw [h2 e q]
@[simp] theorem State.deliver_die_nvs (d : DieId) (r : Rec) (e : DieId) : ((s.deliver d r).die e).nvs = (s.die e).nvs := by
  obtain ⟨h1, h2, h3⟩ := s.carried_deliver d r
  by_cases q : e = d
  · subst q; obtain ⟨_, _, _, _, _, _, _, h⟩ := h1; rw [h]
  · rw [h2 e q]
@[simp] theorem State.deliver_die_calLoaded (d : DieId) (r : Rec) (e : DieId) : ((s.deliver d r).die e).calLoaded = (s.die e).calLoaded := by
  obtain ⟨h1, h2, h3⟩ := s.carried_deliver d r
  by_cases q : e = d
  · subst q; obtain ⟨_, _, _, _, _, _, _, h⟩ := h1; rw [h]
  · rw [h2 e q]
@[simp] theorem State.deliver_die_sram (d : DieId) (r : Rec) (e : DieId) : ((s.deliver d r).die e).sram = (s.die e).sram := by
  obtain ⟨h1, h2, h3⟩ := s.carried_deliver d r
  by_cases q : e = d
  · subst q; obtain ⟨_, _, _, _, _, _, _, h⟩ := h1; rw [h]
  · rw [h2 e q]
@[simp] theorem State.deliver_die_nv (d : DieId) (r : Rec) (e : DieId) : ((s.deliver d r).die e).nv = (s.die e).nv := by
  obtain ⟨h1, h2, h3⟩ := s.carried_deliver d r
  by_cases q : e = d
  · subst q; obtain ⟨_, _, _, _, _, _, _, h⟩ := h1; rw [h]
  · rw [h2 e q]
@[simp] theorem State.deliver_die_ir (d : DieId) (r : Rec) (e : DieId) : ((s.deliver d r).die e).ir = (s.die e).ir := by
  obtain ⟨h1, h2, h3⟩ := s.carried_deliver d r
  by_cases q : e = d
  · subst q; obtain ⟨_, _, _, _, _, _, _, h⟩ := h1; rw [h]
  · rw [h2 e q]
@[simp] theorem State.deliver_die_irCap (d : DieId) (r : Rec) (e : DieId) : ((s.deliver d r).die e).irCap = (s.die e).irCap := by
  obtain ⟨h1, h2, h3⟩ := s.carried_deliver d r
  by_cases q : e = d
  · subst q; obtain ⟨_, _, _, _, _, _, _, h⟩ := h1; rw [h]
  · rw [h2 e q]
@[simp] theorem State.deliver_die_slice (d : DieId) (r : Rec) (e : DieId) (i : Nat) : ((s.deliver d r).die e).slice i = (s.die e).slice i := by simp [Die.slice]
@[simp] theorem State.deliver_die_tx (d : DieId) (r : Rec) (e : DieId) (i : Nat) : ((s.deliver d r).die e).tx i = (s.die e).tx i := by simp [Die.tx]
@[simp] theorem State.deliver_die_port (d : DieId) (r : Rec) (e : DieId) (i : Nat) : ((s.deliver d r).die e).port i = (s.die e).port i := by simp [Die.port]
@[simp] theorem State.deliver_die_course (d : DieId) (r : Rec) (e : DieId) (i : Nat) : ((s.deliver d r).die e).course i = (s.die e).course i := by simp [Die.course]
@[simp] theorem State.deliver_die_pin (d : DieId) (r : Rec) (e : DieId) (i : Nat) : ((s.deliver d r).die e).pin i = (s.die e).pin i := by simp [Die.pin]
@[simp] theorem State.deliver_die_act (d : DieId) (r : Rec) (e : DieId) (i : Nat) : ((s.deliver d r).die e).act i = (s.die e).act i := by simp [Die.act]
@[simp] theorem State.deliver_die_stg (d : DieId) (r : Rec) (e : DieId) (i : Nat) : ((s.deliver d r).die e).stg i = (s.die e).stg i := by simp [Die.stg]
@[simp] theorem State.deliver_die_led (d : DieId) (r : Rec) (e : DieId) (i : Nat) : ((s.deliver d r).die e).led i = (s.die e).led i := by simp [Die.led]
@[simp] theorem State.deliver_port (d : DieId) (r : Rec) (p : PortId) : (s.deliver d r).port p = s.port p := by simp [State.port]
@[simp] theorem State.deliver_stroke (d : DieId) (r : Rec) (e : DieId) : (s.deliver d r).stroke e = s.stroke e := by simp [State.stroke]
@[simp] theorem State.deliver_part (d : DieId) (r : Rec) : (s.deliver d r).part = s.part := by
  obtain ⟨h1, h2, h3⟩ := s.carried_deliver d r; rw [h3]
@[simp] theorem State.deliver_phase (d : DieId) (r : Rec) : (s.deliver d r).phase = s.phase := by
  obtain ⟨h1, h2, h3⟩ := s.carried_deliver d r; rw [h3]
@[simp] theorem State.deliver_pos (d : DieId) (r : Rec) : (s.deliver d r).pos = s.pos := by
  obtain ⟨h1, h2, h3⟩ := s.carried_deliver d r; rw [h3]
@[simp] theorem State.deliver_free (d : DieId) (r : Rec) : (s.deliver d r).free = s.free := by
  obtain ⟨h1, h2, h3⟩ := s.carried_deliver d r; rw [h3]
@[simp] theorem State.deliver_wake (d : DieId) (r : Rec) : (s.deliver d r).wake = s.wake := by
  obtain ⟨h1, h2, h3⟩ := s.carried_deliver d r; rw [h3]
@[simp] theorem State.deliver_waking (d : DieId) (r : Rec) : (s.deliver d r).waking = s.waking := by
  obtain ⟨h1, h2, h3⟩ := s.carried_deliver d r; rw [h3]
@[simp] theorem State.deliver_rootOff (d : DieId) (r : Rec) : (s.deliver d r).rootOff = s.rootOff := by
  obtain ⟨h1, h2, h3⟩ := s.carried_deliver d r; rw [h3]
@[simp] theorem State.deliver_vddhOff (d : DieId) (r : Rec) : (s.deliver d r).vddhOff = s.vddhOff := by
  obtain ⟨h1, h2, h3⟩ := s.carried_deliver d r; rw [h3]
@[simp] theorem State.deliver_lead (d : DieId) (r : Rec) : (s.deliver d r).lead = s.lead := by
  obtain ⟨h1, h2, h3⟩ := s.carried_deliver d r; rw [h3]
@[simp] theorem State.deliver_ep0 (d : DieId) (r : Rec) : (s.deliver d r).ep0 = s.ep0 := by
  obtain ⟨h1, h2, h3⟩ := s.carried_deliver d r; rw [h3]
@[simp] theorem State.deliver_ep1 (d : DieId) (r : Rec) : (s.deliver d r).ep1 = s.ep1 := by
  obtain ⟨h1, h2, h3⟩ := s.carried_deliver d r; rw [h3]
@[simp] theorem State.deliver_gsync (d : DieId) (r : Rec) : (s.deliver d r).gsync = s.gsync := by
  obtain ⟨h1, h2, h3⟩ := s.carried_deliver d r; rw [h3]
@[simp] theorem State.deliver_fwHeld (d : DieId) (r : Rec) : (s.deliver d r).fwHeld = s.fwHeld := by
  obtain ⟨h1, h2, h3⟩ := s.carried_deliver d r; rw [h3]
@[simp] theorem State.deliver_fwOp (d : DieId) (r : Rec) : (s.deliver d r).fwOp = s.fwOp := by
  obtain ⟨h1, h2, h3⟩ := s.carried_deliver d r; rw [h3]
@[simp] theorem State.deliver_fwDone (d : DieId) (r : Rec) : (s.deliver d r).fwDone = s.fwDone := by
  obtain ⟨h1, h2, h3⟩ := s.carried_deliver d r; rw [h3]
@[simp] theorem State.deliver_fwBack (d : DieId) (r : Rec) : (s.deliver d r).fwBack = s.fwBack := by
  obtain ⟨h1, h2, h3⟩ := s.carried_deliver d r; rw [h3]
@[simp] theorem State.deliver_pending (d : DieId) (r : Rec) : (s.deliver d r).pending = s.pending := by
  obtain ⟨h1, h2, h3⟩ := s.carried_deliver d r; rw [h3]

@[simp] theorem State.takeInbox_die_active (k : Packet) (op : Nat) (e : DieId) : ((s.takeInbox k op).die e).active = (s.die e).active := s.onDie_field (·.active) _ e _ rfl
@[simp] theorem State.takeInbox_die_staged (k : Packet) (op : Nat) (e : DieId) : ((s.takeInbox k op).die e).staged = (s.die e).staged := s.onDie_field (·.staged) _ e _ rfl
@[simp] theorem State.takeInbox_die_ledger (k : Packet) (op : Nat) (e : DieId) : ((s.takeInbox k op).die e).ledger = (s.die e).ledger := s.onDie_field (·.ledger) _ e _ rfl
@[simp] theorem State.takeInbox_die_pend (k : Packet) (op : Nat) (e : DieId) : ((s.takeInbox k op).die e).pend = (s.die e).pend := s.onDie_field (·.pend) _ e _ rfl
@[simp] theorem State.takeInbox_die_slices (k : Packet) (op : Nat) (e : DieId) : ((s.takeInbox k op).die e).slices = (s.die e).slices := s.onDie_field (·.slices) _ e _ rfl
@[simp] theorem State.takeInbox_die_pins (k : Packet) (op : Nat) (e : DieId) : ((s.takeInbox k op).die e).pins = (s.die e).pins := s.onDie_field (·.pins) _ e _ rfl
@[simp] theorem State.takeInbox_die_txs (k : Packet) (op : Nat) (e : DieId) : ((s.takeInbox k op).die e).txs = (s.die e).txs := s.onDie_field (·.txs) _ e _ rfl
@[simp] theorem State.takeInbox_die_ports (k : Packet) (op : Nat) (e : DieId) : ((s.takeInbox k op).die e).ports = (s.die e).ports := s.onDie_field (·.ports) _ e _ rfl
@[simp] theorem State.takeInbox_die_courses (k : Packet) (op : Nat) (e : DieId) : ((s.takeInbox k op).die e).courses = (s.die e).courses := s.onDie_field (·.courses) _ e _ rfl
@[simp] theorem State.takeInbox_die_stroke (k : Packet) (op : Nat) (e : DieId) : ((s.takeInbox k op).die e).stroke = (s.die e).stroke := s.onDie_field (·.stroke) _ e _ rfl
@[simp] theorem State.takeInbox_die_clk (k : Packet) (op : Nat) (e : DieId) : ((s.takeInbox k op).die e).clk = (s.die e).clk := s.onDie_field (·.clk) _ e _ rfl
@[simp] theorem State.takeInbox_die_brg (k : Packet) (op : Nat) (e : DieId) : ((s.takeInbox k op).die e).brg = (s.die e).brg := s.onDie_field (·.brg) _ e _ rfl
@[simp] theorem State.takeInbox_die_prot (k : Packet) (op : Nat) (e : DieId) : ((s.takeInbox k op).die e).prot = (s.die e).prot := s.onDie_field (·.prot) _ e _ rfl
@[simp] theorem State.takeInbox_die_q0 (k : Packet) (op : Nat) (e : DieId) : ((s.takeInbox k op).die e).q0 = (s.die e).q0 := s.onDie_field (·.q0) _ e _ rfl
@[simp] theorem State.takeInbox_die_q1 (k : Packet) (op : Nat) (e : DieId) : ((s.takeInbox k op).die e).q1 = (s.die e).q1 := s.onDie_field (·.q1) _ e _ rfl
@[simp] theorem State.takeInbox_die_q2 (k : Packet) (op : Nat) (e : DieId) : ((s.takeInbox k op).die e).q2 = (s.die e).q2 := s.onDie_field (·.q2) _ e _ rfl
@[simp] theorem State.takeInbox_die_evt (k : Packet) (op : Nat) (e : DieId) : ((s.takeInbox k op).die e).evt = (s.die e).evt := s.onDie_field (·.evt) _ e _ rfl
@[simp] theorem State.takeInbox_die_twi (k : Packet) (op : Nat) (e : DieId) : ((s.takeInbox k op).die e).twi = (s.die e).twi := s.onDie_field (·.twi) _ e _ rfl
@[simp] theorem State.takeInbox_die_hk (k : Packet) (op : Nat) (e : DieId) : ((s.takeInbox k op).die e).hk = (s.die e).hk := s.onDie_field (·.hk) _ e _ rfl
@[simp] theorem State.takeInbox_die_bist (k : Packet) (op : Nat) (e : DieId) : ((s.takeInbox k op).die e).bist = (s.die e).bist := s.onDie_field (·.bist) _ e _ rfl
@[simp] theorem State.takeInbox_die_nvs (k : Packet) (op : Nat) (e : DieId) : ((s.takeInbox k op).die e).nvs = (s.die e).nvs := s.onDie_field (·.nvs) _ e _ rfl
@[simp] theorem State.takeInbox_die_tele (k : Packet) (op : Nat) (e : DieId) : ((s.takeInbox k op).die e).tele = (s.die e).tele := s.onDie_field (·.tele) _ e _ rfl
@[simp] theorem State.takeInbox_die_calLoaded (k : Packet) (op : Nat) (e : DieId) : ((s.takeInbox k op).die e).calLoaded = (s.die e).calLoaded := s.onDie_field (·.calLoaded) _ e _ rfl
@[simp] theorem State.takeInbox_die_sram (k : Packet) (op : Nat) (e : DieId) : ((s.takeInbox k op).die e).sram = (s.die e).sram := s.onDie_field (·.sram) _ e _ rfl
@[simp] theorem State.takeInbox_die_nv (k : Packet) (op : Nat) (e : DieId) : ((s.takeInbox k op).die e).nv = (s.die e).nv := s.onDie_field (·.nv) _ e _ rfl
@[simp] theorem State.takeInbox_die_ir (k : Packet) (op : Nat) (e : DieId) : ((s.takeInbox k op).die e).ir = (s.die e).ir := s.onDie_field (·.ir) _ e _ rfl
@[simp] theorem State.takeInbox_die_irCap (k : Packet) (op : Nat) (e : DieId) : ((s.takeInbox k op).die e).irCap = (s.die e).irCap := s.onDie_field (·.irCap) _ e _ rfl
@[simp] theorem State.takeInbox_die_slice (k : Packet) (op : Nat) (e : DieId) (i : Nat) : ((s.takeInbox k op).die e).slice i = (s.die e).slice i := by simp [Die.slice]
@[simp] theorem State.takeInbox_die_tx (k : Packet) (op : Nat) (e : DieId) (i : Nat) : ((s.takeInbox k op).die e).tx i = (s.die e).tx i := by simp [Die.tx]
@[simp] theorem State.takeInbox_die_port (k : Packet) (op : Nat) (e : DieId) (i : Nat) : ((s.takeInbox k op).die e).port i = (s.die e).port i := by simp [Die.port]
@[simp] theorem State.takeInbox_die_course (k : Packet) (op : Nat) (e : DieId) (i : Nat) : ((s.takeInbox k op).die e).course i = (s.die e).course i := by simp [Die.course]
@[simp] theorem State.takeInbox_die_pin (k : Packet) (op : Nat) (e : DieId) (i : Nat) : ((s.takeInbox k op).die e).pin i = (s.die e).pin i := by simp [Die.pin]
@[simp] theorem State.takeInbox_die_act (k : Packet) (op : Nat) (e : DieId) (i : Nat) : ((s.takeInbox k op).die e).act i = (s.die e).act i := by simp [Die.act]
@[simp] theorem State.takeInbox_die_stg (k : Packet) (op : Nat) (e : DieId) (i : Nat) : ((s.takeInbox k op).die e).stg i = (s.die e).stg i := by simp [Die.stg]
@[simp] theorem State.takeInbox_die_led (k : Packet) (op : Nat) (e : DieId) (i : Nat) : ((s.takeInbox k op).die e).led i = (s.die e).led i := by simp [Die.led]
@[simp] theorem State.takeInbox_die_queue (k : Packet) (op : Nat) (e : DieId) (i : QueueId) : ((s.takeInbox k op).die e).queue i = (s.die e).queue i := by simp [Die.queue]
@[simp] theorem State.takeInbox_port (k : Packet) (op : Nat) (p : PortId) : (s.takeInbox k op).port p = s.port p := by simp [State.port]
@[simp] theorem State.takeInbox_stroke (k : Packet) (op : Nat) (e : DieId) : (s.takeInbox k op).stroke e = s.stroke e := by simp [State.stroke]

@[simp] theorem State.enqueue_die_active (d : DieId) (k : Packet) (op : Nat) (e : DieId) : ((s.enqueue d k op).die e).active = (s.die e).active := s.onDie_field (·.active) _ e _ rfl
@[simp] theorem State.enqueue_die_staged (d : DieId) (k : Packet) (op : Nat) (e : DieId) : ((s.enqueue d k op).die e).staged = (s.die e).staged := s.onDie_field (·.staged) _ e _ rfl
@[simp] theorem State.enqueue_die_ledger (d : DieId) (k : Packet) (op : Nat) (e : DieId) : ((s.enqueue d k op).die e).ledger = (s.die e).ledger := s.onDie_field (·.ledger) _ e _ rfl
@[simp] theorem State.enqueue_die_pend (d : DieId) (k : Packet) (op : Nat) (e : DieId) : ((s.enqueue d k op).die e).pend = (s.die e).pend := s.onDie_field (·.pend) _ e _ rfl
@[simp] theorem State.enqueue_die_slices (d : DieId) (k : Packet) (op : Nat) (e : DieId) : ((s.enqueue d k op).die e).slices = (s.die e).slices := s.onDie_field (·.slices) _ e _ rfl
@[simp] theorem State.enqueue_die_pins (d : DieId) (k : Packet) (op : Nat) (e : DieId) : ((s.enqueue d k op).die e).pins = (s.die e).pins := s.onDie_field (·.pins) _ e _ rfl
@[simp] theorem State.enqueue_die_txs (d : DieId) (k : Packet) (op : Nat) (e : DieId) : ((s.enqueue d k op).die e).txs = (s.die e).txs := s.onDie_field (·.txs) _ e _ rfl
@[simp] theorem State.enqueue_die_ports (d : DieId) (k : Packet) (op : Nat) (e : DieId) : ((s.enqueue d k op).die e).ports = (s.die e).ports := s.onDie_field (·.ports) _ e _ rfl
@[simp] theorem State.enqueue_die_courses (d : DieId) (k : Packet) (op : Nat) (e : DieId) : ((s.enqueue d k op).die e).courses = (s.die e).courses := s.onDie_field (·.courses) _ e _ rfl
@[simp] theorem State.enqueue_die_stroke (d : DieId) (k : Packet) (op : Nat) (e : DieId) : ((s.enqueue d k op).die e).stroke = (s.die e).stroke := s.onDie_field (·.stroke) _ e _ rfl
@[simp] theorem State.enqueue_die_clk (d : DieId) (k : Packet) (op : Nat) (e : DieId) : ((s.enqueue d k op).die e).clk = (s.die e).clk := s.onDie_field (·.clk) _ e _ rfl
@[simp] theorem State.enqueue_die_brg (d : DieId) (k : Packet) (op : Nat) (e : DieId) : ((s.enqueue d k op).die e).brg = (s.die e).brg := s.onDie_field (·.brg) _ e _ rfl
@[simp] theorem State.enqueue_die_prot (d : DieId) (k : Packet) (op : Nat) (e : DieId) : ((s.enqueue d k op).die e).prot = (s.die e).prot := s.onDie_field (·.prot) _ e _ rfl
@[simp] theorem State.enqueue_die_q0 (d : DieId) (k : Packet) (op : Nat) (e : DieId) : ((s.enqueue d k op).die e).q0 = (s.die e).q0 := s.onDie_field (·.q0) _ e _ rfl
@[simp] theorem State.enqueue_die_q1 (d : DieId) (k : Packet) (op : Nat) (e : DieId) : ((s.enqueue d k op).die e).q1 = (s.die e).q1 := s.onDie_field (·.q1) _ e _ rfl
@[simp] theorem State.enqueue_die_q2 (d : DieId) (k : Packet) (op : Nat) (e : DieId) : ((s.enqueue d k op).die e).q2 = (s.die e).q2 := s.onDie_field (·.q2) _ e _ rfl
@[simp] theorem State.enqueue_die_evt (d : DieId) (k : Packet) (op : Nat) (e : DieId) : ((s.enqueue d k op).die e).evt = (s.die e).evt := s.onDie_field (·.evt) _ e _ rfl
@[simp] theorem State.enqueue_die_twi (d : DieId) (k : Packet) (op : Nat) (e : DieId) : ((s.enqueue d k op).die e).twi = (s.die e).twi := s.onDie_field (·.twi) _ e _ rfl
@[simp] theorem State.enqueue_die_hk (d : DieId) (k : Packet) (op : Nat) (e : DieId) : ((s.enqueue d k op).die e).hk = (s.die e).hk := s.onDie_field (·.hk) _ e _ rfl
@[simp] theorem State.enqueue_die_bist (d : DieId) (k : Packet) (op : Nat) (e : DieId) : ((s.enqueue d k op).die e).bist = (s.die e).bist := s.onDie_field (·.bist) _ e _ rfl
@[simp] theorem State.enqueue_die_nvs (d : DieId) (k : Packet) (op : Nat) (e : DieId) : ((s.enqueue d k op).die e).nvs = (s.die e).nvs := s.onDie_field (·.nvs) _ e _ rfl
@[simp] theorem State.enqueue_die_tele (d : DieId) (k : Packet) (op : Nat) (e : DieId) : ((s.enqueue d k op).die e).tele = (s.die e).tele := s.onDie_field (·.tele) _ e _ rfl
@[simp] theorem State.enqueue_die_calLoaded (d : DieId) (k : Packet) (op : Nat) (e : DieId) : ((s.enqueue d k op).die e).calLoaded = (s.die e).calLoaded := s.onDie_field (·.calLoaded) _ e _ rfl
@[simp] theorem State.enqueue_die_sram (d : DieId) (k : Packet) (op : Nat) (e : DieId) : ((s.enqueue d k op).die e).sram = (s.die e).sram := s.onDie_field (·.sram) _ e _ rfl
@[simp] theorem State.enqueue_die_nv (d : DieId) (k : Packet) (op : Nat) (e : DieId) : ((s.enqueue d k op).die e).nv = (s.die e).nv := s.onDie_field (·.nv) _ e _ rfl
@[simp] theorem State.enqueue_die_ir (d : DieId) (k : Packet) (op : Nat) (e : DieId) : ((s.enqueue d k op).die e).ir = (s.die e).ir := s.onDie_field (·.ir) _ e _ rfl
@[simp] theorem State.enqueue_die_irCap (d : DieId) (k : Packet) (op : Nat) (e : DieId) : ((s.enqueue d k op).die e).irCap = (s.die e).irCap := s.onDie_field (·.irCap) _ e _ rfl
@[simp] theorem State.enqueue_die_slice (d : DieId) (k : Packet) (op : Nat) (e : DieId) (i : Nat) : ((s.enqueue d k op).die e).slice i = (s.die e).slice i := by simp [Die.slice]
@[simp] theorem State.enqueue_die_tx (d : DieId) (k : Packet) (op : Nat) (e : DieId) (i : Nat) : ((s.enqueue d k op).die e).tx i = (s.die e).tx i := by simp [Die.tx]
@[simp] theorem State.enqueue_die_port (d : DieId) (k : Packet) (op : Nat) (e : DieId) (i : Nat) : ((s.enqueue d k op).die e).port i = (s.die e).port i := by simp [Die.port]
@[simp] theorem State.enqueue_die_course (d : DieId) (k : Packet) (op : Nat) (e : DieId) (i : Nat) : ((s.enqueue d k op).die e).course i = (s.die e).course i := by simp [Die.course]
@[simp] theorem State.enqueue_die_pin (d : DieId) (k : Packet) (op : Nat) (e : DieId) (i : Nat) : ((s.enqueue d k op).die e).pin i = (s.die e).pin i := by simp [Die.pin]
@[simp] theorem State.enqueue_die_act (d : DieId) (k : Packet) (op : Nat) (e : DieId) (i : Nat) : ((s.enqueue d k op).die e).act i = (s.die e).act i := by simp [Die.act]
@[simp] theorem State.enqueue_die_stg (d : DieId) (k : Packet) (op : Nat) (e : DieId) (i : Nat) : ((s.enqueue d k op).die e).stg i = (s.die e).stg i := by simp [Die.stg]
@[simp] theorem State.enqueue_die_led (d : DieId) (k : Packet) (op : Nat) (e : DieId) (i : Nat) : ((s.enqueue d k op).die e).led i = (s.die e).led i := by simp [Die.led]
@[simp] theorem State.enqueue_die_queue (d : DieId) (k : Packet) (op : Nat) (e : DieId) (i : QueueId) : ((s.enqueue d k op).die e).queue i = (s.die e).queue i := by simp [Die.queue]
@[simp] theorem State.enqueue_port (d : DieId) (k : Packet) (op : Nat) (p : PortId) : (s.enqueue d k op).port p = s.port p := by simp [State.port]
@[simp] theorem State.enqueue_stroke (d : DieId) (k : Packet) (op : Nat) (e : DieId) : (s.enqueue d k op).stroke e = s.stroke e := by simp [State.stroke]

end Sys2Proof.Machine
end

