-- ==== Sys2Proof/Laws/Safety.lean ====
section
/-! SUPPORT. How to reach the forms of Safety.lean: from an equation of exec to Completes, Posts and Answers, from a packet that
its die takes up to the body of its row, and what staging, strobing and waiting for a boundary make of a state. -/

namespace Sys2Proof.Machine

/-! ### The three forms -/

theorem Completes.of {c : Instr} {s : State} {P : State → Prop} (u : State) (h : exec c s = .next u) (hp : P u) : Completes c s P :=
  ⟨_, h, hp⟩

theorem Posts.of {c : Instr} {s : State} {d : DieId} {src cause data : Nat} {P : State → Prop} (u : State)
    (h : exec c s = .next (u.post d src cause data)) (hp : P u) : Posts c s d src cause data P := ⟨_, h, u, rfl, hp⟩

theorem Answers.of {c : Instr} {s : State} {k : Packet} {op st e : Nat} {data : List Nat} {P : State → Prop} (u : State)
    (h : exec c s = .next (u.finish k op (mkRec k st e data))) (hp : P u) : Answers c s k op st e data P := ⟨_, h, u, rfl, hp⟩

/-! ### Packets that are taken up -/

theorem up_iff {s : State} {d : DieId} : up s d = true ↔ present s.part d = true ∧ s.running = true := by simp [up]

theorem takes_iff {s u : State} {k : Packet} {op : Nat} :
    takes s u k op = true ↔ ready s k op = true ∧ u = s.takeInbox k op := by simp [takes]

theorem takes0_iff {s u : State} {k : Packet} {op : Nat} :
    takes0 s u k op = true ↔ ready s k op = true ∧ u = s.takeInbox k op ∧ k.target = 0 := by simp [takes0, takes, and_assoc]

theorem takesPort_iff {s u : State} {k : Packet} {op : Nat} {p : PortId} :
    takesPort s u k op p = true ↔ ready s k op = true ∧ u = s.takeInbox k op ∧ portOf u k k.target.toNat = some p
      ∧ isDefined ((u.die p.die).cfgb p.key) = true := by simp [takesPort, takes, and_assoc]

/-- A ready command runs its row's body on the state with the packet taken out of the inbox. -/
theorem State.command_ready {s : State} {k : Packet} {op : Nat} (body : State → State) (h : ready s k op = true) :
    s.command k op body = body (s.takeInbox k op) := by
  simp only [ready, comes, Bool.and_eq_true, Bool.or_eq_true] at h
  obtain ⟨⟨⟨⟨⟨h1, h2⟩, h3⟩, h4⟩, h5⟩, h6⟩ := h
  simp only [Bool.not_eq_true'] at h4
  unfold State.command
  simp only [h1, h2, h3, h4.1, h4.2, h6]
  clear h6
  rcases h5 with h5 | h5
  · simp only [h5]; simp
  · rcases h5 with ⟨h5, h6⟩
    simp only [Bool.not_eq_true'] at h5
    simp [h5, h6]

/-- A command whose TARGET is 0 and that its die takes up runs its row's body. -/
theorem State.command0_takes {s u : State} {k : Packet} {op : Nat} (body : State → State) (h : takes0 s u k op = true) :
    s.command0 k op body = body u := by
  obtain ⟨hr, hu, ht⟩ := takes0_iff.mp h
  rw [State.command0, State.command_ready _ hr, ← hu, if_pos ht]

/-- A command on a defined port that its die takes up runs its row's body on that port. -/
theorem State.commandPort_takes {s u : State} {k : Packet} {op : Nat} {p : PortId} (body : State → PortId → State)
    (h : takesPort s u k op p = true) : s.commandPort k op body = body u p := by
  obtain ⟨hr, hu, hp, -⟩ := takesPort_iff.mp h
  rw [State.commandPort, State.command_ready _ hr, ← hu]
  simp only [hp]

/-! ### Staging, strobing and waiting (R33, R65, R303) -/

/-- Looking up a key after an insertion. -/
theorem SMap.find_ins {β : Type} (m : List (Nat × β)) (k j : Nat) (v : β) :
    (SMap.ins m k v).find? (fun p => p.1 == j) = if j = k then some (k, v) else m.find? (fun p => p.1 == j) := by
  induction m with
  | nil =>
    by_cases h : j = k
    · simp [SMap.ins, h]
    · simp [SMap.ins, h, Ne.symm h]
  | cons q m ih =>
    unfold SMap.ins
    by_cases h : j = k
    · subst h
      split
      · simp
      · split
        · simp
        · next _ hk => simp [Ne.symm hk, ih]
    · split
      · simp [Ne.symm h]
      · split
        · next _ hk => subst hk; simp [Ne.symm h]
        · simp [List.find?_cons, ih, h]

/-- Staging value v at offset o, whose register is sel of group g. -/
theorem Die.stage_eq (x : Die) {o g : Nat} {v : Half} {sel : RegSel} (hl : lookup o = some sel) (hg : sel.group = some g) :
    x.stage o v = { x with staged := SMap.ins x.staged o (mergeMask (x.base o) v sel.rws), pend := x.pend ||| 2 ^ g } := by
  simp [Die.stage, hl, hg]

theorem Die.stg_stage_same (x : Die) {o g : Nat} {v : Half} {sel : RegSel} (hl : lookup o = some sel) (hg : sel.group = some g) :
    (x.stage o v).stg o = some (mergeMask (x.base o) v sel.rws) := by
  rw [x.stage_eq hl hg]; simp [Die.stg, SMap.find_ins]

theorem Die.stg_stage_ne (x : Die) (o p : Nat) (v : Half) (h : p ≠ o) : (x.stage o v).stg p = x.stg p := by
  unfold Die.stage
  split
  · rfl
  · split
    · rfl
    · simp [Die.stg, SMap.find_ins, h]

/-- A pending bit that is set stays set when another value is staged. -/
theorem Die.pend_stage (x : Die) (o g : Nat) (v : Half) (h : bit x.pend g = true) : bit (x.stage o v).pend g = true := by
  unfold Die.stage
  split
  · exact h
  · split
    · exact h
    · simp only [bit, Nat.testBit_or] at *; simp [h]

@[simp] theorem Die.act_stage (x : Die) (o p : Nat) (v : Half) : (x.stage o v).act p = x.act p := by
  unfold Die.stage; split
  · rfl
  · split <;> rfl

@[simp] theorem Die.active_stage (x : Die) (o : Nat) (v : Half) : (x.stage o v).active = x.active := by
  unfold Die.stage; split
  · rfl
  · split <;> rfl

@[simp] theorem Die.stroke_stage (x : Die) (o : Nat) (v : Half) : (x.stage o v).stroke = x.stroke := by
  unfold Die.stage; split
  · rfl
  · split <;> rfl

theorem Die.stroke_stages (l : List (Nat × Half)) (x : Die) : (l.foldl (fun x p => x.stage p.1 p.2) x).stroke = x.stroke := by
  induction l generalizing x with
  | nil => rfl
  | cons q l ih => rw [List.foldl_cons, ih, Die.stroke_stage]

/-- Staging moves no stroke timer. -/
theorem State.ownPos_stageAll (s : State) (d : DieId) (l : List (Nat × Half)) : (s.stageAll d l).ownPos d = s.ownPos d := by
  unfold State.ownPos State.stageAll
  rw [State.die_onDie_same, Die.stroke_stages]
  rfl

/-- What staging a list of values does, each at an offset of its own of group g. -/
theorem Die.stages (g : Nat) (l : List (Nat × Half)) :
    ∀ x : Die, (l.map (·.1)).Nodup → (∀ p ∈ l, ∃ sel, lookup p.1 = some sel ∧ sel.group = some g) →
      let y := l.foldl (fun x p => x.stage p.1 p.2) x
      y.active = x.active ∧ (bit x.pend g = true → bit y.pend g = true) ∧ (∀ o, o ∉ l.map (·.1) → y.stg o = x.stg o) ∧
      ∀ p ∈ l, ∃ sel, lookup p.1 = some sel ∧ y.stg p.1 = some (mergeMask (x.base p.1) p.2 sel.rws) ∧ bit y.pend g = true := by
  induction l with
  | nil => intro x _ _; simp
  | cons q l ih =>
    intro x hn hl
    simp only [List.map_cons, List.nodup_cons] at hn
    obtain ⟨sel, hs, hg⟩ := hl q (by simp)
    obtain ⟨h1, h2, h3, h4⟩ := ih (x.stage q.1 q.2) hn.2 (fun p hp => hl p (by simp [hp]))
    have hp : bit (x.stage q.1 q.2).pend g = true := by rw [x.stage_eq hs hg]; simp [bit]
    refine ⟨by simpa using h1, fun h => h2 (Die.pend_stage _ _ _ _ h), ?_, ?_⟩
    · intro o ho
      simp only [List.map_cons, List.mem_cons, not_or] at ho
      rw [List.foldl_cons, h3 o ho.2, Die.stg_stage_ne _ _ _ _ ho.1]
    · intro p hm
      rcases List.mem_cons.mp hm with rfl | hm
      · exact ⟨sel, hs, by rw [List.foldl_cons, h3 _ hn.1, Die.stg_stage_same _ hs hg], h2 hp⟩
      · obtain ⟨u, hu, h5, h6⟩ := h4 p hm
        refine ⟨u, hu, ?_, h6⟩
        have hne : p.1 ≠ q.1 := fun e => hn.1 (List.mem_map.mpr ⟨p, hm, e⟩)
        rw [List.foldl_cons, h5]
        simp [Die.base, Die.stg_stage_ne _ _ _ _ hne]

/-- The awaits, the strobes and the staging of a command that waits for the boundary that applies it. -/
theorem State.commitAnswer_stages (s : State) (k : Packet) (op g : Nat) (l : List (Nat × Half)) (arg : Nat)
    (hn : (l.map (·.1)).Nodup) (hl : ∀ p ∈ l, ∃ sel, lookup p.1 = some sel ∧ sel.group = some g) :
    StagesAndWaits s (s.commitAnswer k op g l arg) k op g l arg := by
  obtain ⟨h1, -, -, h4⟩ := Die.stages g l (s.die k.die) hn hl
  unfold State.commitAnswer State.await State.strobe
  rw [State.ownPos_stageAll]
  unfold State.stageAll
  let y := l.foldl (fun x p => x.stage p.1 p.2) (s.die k.die)
  refine ⟨?_, ?_, ?_, ?_, ?_⟩
  · intro p hp
    obtain ⟨sel, hs, h5, h6⟩ := h4 p hp
    refine ⟨sel, hs, ?_⟩
    simp only [State.die_onDie_same]
    split <;> exact ⟨h5, h6⟩
  · intro hp
    simp [hp, bit]
  · intro hp
    simp [Nat.not_lt.mpr hp, bit]
  · have hc : ∀ b : Bool, (if b then { y with stroke := { y.stroke with dueNow := y.stroke.dueNow ||| 2 ^ g } }
        else { y with stroke := { y.stroke with dueNext := y.stroke.dueNext ||| 2 ^ g } } : Die).stroke.count = (s.die k.die).stroke.count := by
      intro b; cases b <;> simp [y, Die.stroke_stages]
    have hd := hc (decide (s.ownPos k.die < 960))
    simp only [decide_eq_true_eq] at hd
    simp [State.stroke, y, hd] at hd ⊢
  · intro e
    by_cases he : e = k.die
    · subst he
      simp only [State.die_onDie_same]
      split <;> exact h1
    · simp [he]

end Sys2Proof.Machine
end

