-- ==== Sys2Proof/WellFormed.lean ====
section
/-! DEFINITION. Which commands and events are well-formed on a part: they name dies the part has, host positions of a host
segment, and packets whose LENGTH is that of their words. What a command asks for beyond that is its own rules' matter, and is
answered, not ruled out. -/

namespace Sys2Proof

open Sys2Proof.Machine

/-- A command packet (R324): submitted to an access die, at most 64 words long, with the words its LENGTH says. The die it is
for may be one the part has not: the queue logic answers that (R326). -/
def packetOk (p : Part) (k : Packet) : Bool :=
  isAccess p k.origin && k.length.toNat == 4 + k.words.length && decide (k.length.toNat ≤ 64)

/-- A position of a segment (R46): 0 to 7 on the host side, 0 to 8 on the line side. -/
def posOk (h : Side) (j : Pos) : Bool := h == .line || decide (j.val < 8)

/-- What a stroke measured names dies of the part, and an SNR its estimator can give (R54, R95, R122, R143, R167, R222, R374). -/
def obsOk (p : Part) (o : BoundaryObs) : Bool :=
  o.slices.all (fun v => present p v.die && decide (v.snr ≤ 500)) && o.fec.all (fun v => present p v.port.die)
    && o.fills.all (fun v => present p v.die) && o.prs.all (fun v => present p v.die) && o.agree.all (fun v => present p v.die)
    && o.limits.all (fun v => present p v.1) && o.sent.all (fun v => present p v.die) && o.eyes.all (fun v => present p v.die)
    && o.twi.all (fun v => present p v.die && decide (v.data.length ≤ 224))

/-- A request over PCI Express reads or writes at least one DW (R292). -/
def requestOk : Request → Bool
  | .read n _ _ => n != 0
  | .write l _ _ => !l.isEmpty

/-- The updates of a tuning fret are of slices of its course side (R24, R85). -/
def updOk (c : CourseId) (h : Side) (l : List SliceUpdate) : Bool := l.all (fun u => (sideSlices c.val h).contains u.slice.val)

/-- A tagged codeword passes its four points in the order of the pipeline (R190, R415). -/
def pointsOk (t : TagPoints) : Bool :=
  decide (t.ingress ≤ t.eqOut) && decide (t.eqOut ≤ t.fecOut) && decide (t.fecOut ≤ t.egress)

/-- The command or event is well-formed on this part. -/
def Instr.wellFormed (p : Part) : Instr → Bool
  | .powerOnReset => true
  | .brownout d _ _ _ _ => present p d
  | .resetN _ => true
  | .boot _ _ _ => true
  | .perst _ => true
  | .pcieLink _ _ _ _ => true
  | .poisonedTlp _ _ => true
  | .vddhPowerDown => true
  | .soundpostReady d => present p d
  | .strokeBoundary obs => obsOk p obs
  | .fretOverrun d _ _ => present p d
  | .fretOvrClear d _ => present p d
  | .tuningFret d c side upd => present p d && updOk c side upd
  | .converged d _ => present p d
  | .adaptLimit d _ _ => present p d
  | .sdChange d _ _ => present p d
  | .lockLost d _ _ => present p d
  | .lockAcquired d _ => present p d
  | .reacqStart d _ => present p d
  | .reacqDone d _ => present p d
  | .reacqFailed d _ => present p d
  | .sliceSubstitution d _ => present p d
  | .sliceSubstituted d _ _ => present p d
  | .capoHostWrite d _ _ => present p d
  | .prsAsserted d _ => present p d
  | .prsDeasserted d _ => present p d
  | .segmentPresent q _ => present p q.die
  | .segmentAbsent q _ => present p q.die
  | .trainRetry q => present p q.die
  | .portDefine k => packetOk p k
  | .portEnable k => packetOk p k
  | .portDisable k => packetOk p k
  | .portStatus k => packetOk p k
  | .portAttachPolicy k => packetOk p k
  | .laneEqSet k => packetOk p k
  | .laneEqGet k => packetOk p k
  | .laneCapo k => packetOk p k
  | .txSet k => packetOk p k
  | .txPattern k => packetOk p k
  | .driverLimit d _ => present p d
  | .prbsCheck k => packetOk p k
  | .prbsCheckLock d _ => present p d
  | .prbsCheckRelock d _ => present p d
  | .prbsCheckEnd d _ _ bitErrs symErrs => present p d && decide (symErrs.toNat ≤ bitErrs.toNat)
  | .sympAttach k => packetOk p k
  | .sympDetach k => packetOk p k
  | .handover k => packetOk p k
  | .handoverAlign d _ _ _ => present p d
  | .handoverDisagree d _ _ _ => present p d
  | .handoverConvTimeout d _ _ => present p d
  | .retuneInService k => packetOk p k
  | .eyeScan k => packetOk p k
  | .capture k => packetOk p k
  | .captureTrigger d _ _ _ => present p d
  | .captureTimeout d _ _ => present p d
  | .captureRead k => packetOk p k
  | .bankRotationStart d _ => present p d
  | .bankSwap d _ => present p d
  | .trainingEngineFret d => present p d
  | .trainingFrame q side pos _ => present p q.die && posOk side pos
  | .frameLock q side pos _ => present p q.die && posOk side pos
  | .frameLockLost q side pos => present p q.die && posOk side pos
  | .requestAbandoned q side pos => present p q.die && posOk side pos
  | .trainBudgetExpired q => present p q.die
  | .framesInService q side pos => present p q.die && posOk side pos
  | .trainStart k => packetOk p k
  | .trainAbort k => packetOk p k
  | .trainStatus k => packetOk p k
  | .fecLockChange q _ _ _ => present p q.die
  | .fecDegWindowEnd q _ => present p q.die
  | .blockLockChange q _ _ _ => present p q.die
  | .syndromeWindowEnd d _ slots => present p d && decide (slots.length ≤ 65536)
  | .latticeRebuild d _ _ _ _ => present p d
  | .readmitByAgreement d _ => present p d
  | .autoReadmit d _ => present p d
  | .serviceWord d _ copies => present p d && decide (copies.length ≤ 9)
  | .readmitTrainSwitch d _ => present p d
  | .latticeReadmitDone d _ _ => present p d
  | .latticeReadmitted d _ _ => present p d
  | .latticeReadmitFailed d _ => present p d
  | .latticeDisarmed d _ _ _ _ _ => present p d
  | .latticeDisarm k => packetOk p k
  | .latticeArm k => packetOk p k
  | .latticeReadmit k => packetOk p k
  | .latticeStatus k => packetOk p k
  | .pairSlip d _ _ _ => present p d
  | .phaseSession d _ _ => present p d
  | .phaseRestored d _ _ _ => present p d
  | .phaseSessionFailed d _ _ => present p d
  | .qualWindowEnd d _ => present p d
  | .refFail d _ _ => present p d
  | .holdoverAged d => present p d
  | .autoReturn d _ => present p d
  | .lanePllRelock d _ => present p d
  | .switchForced d _ => present p d
  | .refFailFallbackDeferred d _ _ => present p d
  | .spNotReady d => present p d
  | .spFail d _ _ => present p d
  | .lpllUnlock d _ _ => present p d
  | .clkSwitch k => packetOk p k
  | .clkGate k => packetOk p k
  | .clkStatus k => packetOk p k
  | .gateChange d _ _ => present p d
  | .standbyEntry => true
  | .standbyWake _ _ => true
  | .standbyExit => true
  | .standbyMonitorRestart d => present p d
  | .sync d src _ _ _ => present p d && present p src
  | .syncSend => true
  | .markerMissing d => present p d
  | .heartbeatSend d => present p d
  | .heartbeat d _ => present p d
  | .bridgeDown d _ => present p d
  | .bridgeUp d _ => present p d
  | .bridgeLaneChange d _ _ _ damaged => present p d && damaged.all (fun q => present p q.1)
  | .alignmentBlock d _ _ => present p d
  | .ringState d src _ => present p d && present p src
  | .echo d _ _ => present p d
  | .regReq d src _ => present p d && present p src
  | .regRsp d src _ => present p d && present p src
  | .cmdFwd d src _ => present p d && present p src
  | .cmdRsp d src _ => present p d && present p src
  | .evtFwd d src _ => present p d && present p src
  | .ack d src _ => present p d && present p src
  | .gcommit d src _ => present p d && present p src
  | .elect d src _ => present p d && present p src
  | .packetResend d _ => present p d
  | .packetAbandoned d _ => present p d
  | .die0Unavailable => true
  | .leadChanged => true
  | .leadReturn => true
  | .dieIsolate k => packetOk p k
  | .dieRestore k => packetOk p k
  | .dieReachableAgain d => present p d
  | .registerWrite _ _ _ _ r => requestOk r
  | .localCommit d _ _ => present p d
  | .globalCommit d _ _ => present p d
  | .commitDiscard d _ _ => present p d
  | .wmbSel d _ _ => present p d
  | .reservedAccess _ _ _ _ _ => true
  | .twiWriteFrame _ _ => true
  | .twiReadFrame _ _ => true
  | .twiWriteBufEmpty _ => true
  | .twiBusyNack _ => true
  | .twiReadNotReady _ => true
  | .twiStartInAck _ => true
  | .targetTimeout _ _ _ => true
  | .alertResponse _ _ => true
  | .alertRedrive _ => true
  | .parityFault d _ _ _ => present p d
  | .stagedParityFault d _ => present p d
  | .ledgerScrubVisit d _ _ => present p d
  | .crcPassEnd d => present p d
  | .sqDoorbell _ _ _ => true
  | .cqDoorbell _ _ _ => true
  | .lockedSlotWrite _ _ _ => true
  | .commandFetch _ _ => true
  | .recordPost _ _ => true
  | .inboxTimeout d => present p d
  | .nop k => packetOk p k
  | .getInfo k => packetOk p k
  | .opStatus k => packetOk p k
  | .opCancel k => packetOk p k
  | .fwStage k => packetOk p k
  | .fwStageAbort k => packetOk p k
  | .stagingSessionTimeout => true
  | .fwActivate k => packetOk p k
  | .fwSwap d => present p d
  | .fwReverted d => present p d
  | .watchdogExpiry d => present p d
  | .pegRestart d _ => present p d
  | .eventCause d _ _ _ => present p d
  | .eventForward d => present p d
  | .evtRpWrite _ _ => true
  | .msixEvent _ => true
  | .twiTransfer k => packetOk p k
  | .moduleIdentify k => packetOk p k
  | .arbLost d _ _ data => present p d && decide (data.length ≤ 224)
  | .stretchTimeout d _ _ data => present p d && decide (data.length ≤ 224)
  | .busClear d _ _ _ => present p d
  | .busError d _ _ data => present p d && decide (data.length ≤ 224)
  | .hkConversionEnd d _ => present p d
  | .hkStrokeTrigger d _ _ => present p d
  | .hkPwmEdge d _ _ => present p d
  | .hkDelayEnd d _ => present p d
  | .overrun d _ => present p d
  | .hkSeqDefine k => packetOk p k
  | .hkInject k => packetOk p k
  | .hkCalibrate k => packetOk p k
  | .calDone d => present p d
  | .hkRpWrite d _ => present p d
  | .tempCritical d _ => present p d
  | .tempCritCleared d => present p d
  | .pwmLoad d => present p d
  | .pwmWrap d _ => present p d
  | .pwmSet k => packetOk p k
  | .liveCopy d => present p d
  | .cntSnapshot k => packetOk p k
  | .meterWindowEnd q _ _ => present p q.die
  | .taggedSample q _ _ t => present p q.die && pointsOk t
  | .profileSample d _ => present p d
  | .tagTagging k => packetOk p k
  | .tagMeter k => packetOk p k
  | .tagProfiling k => packetOk p k
  | .bistRun k => packetOk p k
  | .workSliceEnd d _ work => present p d && decide (work ≤ 250)
  | .sliceAborted d _ _ => present p d
  | .testEnded d _ _ _ _ _ => present p d
  | .bistResult k => packetOk p k
  | .repairSoft k => packetOk p k
  | .repairFuse k => packetOk p k
  | .fuseWritten d => present p d
  | .nvRead k ecc => packetOk p k && decide (ecc.length ≤ 60)
  | .nvWrite k => packetOk p k
  | .nvWorn k => packetOk p k
  | .mirrorResync => true
  | .calRead k _ _ => packetOk p k
  | .calWrite k => packetOk p k
  | .jtagInstruction d _ => present p d
  | .cdrLocked d _ _ => present p d
  | .outgoingFrameBoundary q side pos => present p q.die && posOk side pos
  | .twiTransferEnd d _ _ _ data => present p d && decide (data.length ≤ 224)
  | .msixUnmask _ _ => true
  | .otherAccessDieUnavailable => true

end Sys2Proof
end

