-- ==== Sys2Proof/Tests/Slice0.lean ====
section
/-! SUPPORT. The tests of this package: states for the witnesses, one witness for every clause of every statement that has
hypotheses, the smoke tests of WellFormed, and small tests of single steps against the spec's own tables and examples. -/

open Sys2Proof Sys2Proof.Machine

set_option Elab.async false

/-! ### States for the witnesses -/

/-- A Q128 that runs: die 0 leads, every pegbox runs, each die reaches the other, queue 0 of die 0 is enabled. -/
def W.run : State :=
  { State.reset with
    part := .q128, phase := 2, lead := some 0,
    dies := State.reset.dies.map (fun x =>
      { x with peg := { x.peg with state := 1 }, brg := { x.brg with reach := 3 }, q0 := { x.q0 with enabled := true } }) }

/-- The same with every die LOCKED. -/
def W.locked : State := { W.run with dies := W.run.dies.map (fun x => { x with stroke := { x.stroke with state := 2 } }) }

/-- Right after power-on, every soundpost READY. -/
def W.spUp : State := { State.reset with dies := State.reset.dies.map (fun x => { x with clk := { x.clk with spReady := true } }) }

/-- A command packet from die 0, queue 0, tag 7. -/
def W.packet (len : Nat) (die : DieId) (target : Nat) (words : List Nat) : Packet :=
  { origin := 0, queue := 0, tag := 7, length := BitVec.ofNat 12 len, die := die, fence := false, noprog := false, irq := false,
    target := BitVec.ofNat 32 target, cookie := 0, words := words.map (BitVec.ofNat 32) }

/-- The same with port 0 of die 0 CARRYING: one lane wide, host position 0 to line position 0, its profile defined. -/
def W.live : State :=
  (W.run.onDie 0 (fun x => ((x.setAct (oCfga 0 0) 0).setAct (oCfgb 0 0) 0x8006).setAct (oBudget 0 0) 100)).setPort ⟨0, 0, 0⟩
    { ({} : Port) with state := 4 }

/-- The same with the sympathetic slice of the host side of course 0 attached to position 0. -/
def W.tapped : State :=
  W.live.onDie 0 (fun x => x.setCourse 0 ((x.course 0).setSide .host { (x.course 0).host with state := 2, owner := 1 }))

/-- Port 0 of die 0 eight lanes wide with lattice, CARRYING. -/
def W.lattice : State :=
  (W.run.onDie 0 (fun x => (((x.setAct (oCfga 0 0) 0x0803).setAct (oCfgb 0 0) 0x8007).setAct (oBudget 0 0) 100))).setPort ⟨0, 0, 0⟩
    { ({} : Port) with state := 4 }

/-- A long operation of tag 7 on an object. -/
def W.op (opcode cls obj : Nat) (data : List Nat) : Op :=
  { origin := 0, queue := 0, tag := 7, opcode := opcode, packet := W.packet 6 0 obj [0, 0], cls := cls, obj := obj, phase := 0,
    position := 0, start := 0, lastProg := none, status := 1, effect := 0, cancel := false, from_ := 0, data := data }

/-- W.live with operation o running on die 0. -/
def W.withOp (o : Op) : State := W.live.onDie 0 (fun x => { x with peg := { x.peg with ops := [o] } })

/-- A PRBS check on slice 0 in the given phase. -/
def W.check (phase : Nat) : State := W.withOp { W.op 0x0503 1 0 [0] with phase := phase }

/-- W.live with the lane's host slice locked: it may be handed over. -/
def W.good : State := W.live.setSlice 0 0 { ({} : Slice) with locked := true }

/-- W.tapped in a phase of a handover, begun by a bank test of the device's own. -/
def W.ho (phase : Nat) : State :=
  W.tapped.onDie 0 (fun x => x.setCourse 0 ((x.course 0).setSide .host { (x.course 0).host with phase := phase, owner := 2 }))

/-- An EYE_SCAN of the smallest grid. -/
def W.eyePacket : Packet := W.packet 6 0 0x40000000 [0x01240101, 0x0101]

/-- A CAPTURE_SAMPLES operation of one unit on the host side of course 0. -/
def W.capOp : Op := { W.op 0x0502 4 0 [] with packet := W.packet 8 0 0x40000000 [0, 1, 0, 0] }

/-- W.tapped with that capture under way. -/
def W.cap : State :=
  (W.tapped.onDie 0 (fun x => x.setCourse 0 ((x.course 0).setSide .host { (x.course 0).host with owner := 4 }))).onDie 0
    (fun x => { x with peg := { x.peg with ops := [W.capOp] } })

/-- The same with a pattern (trig 1) or an error (trig 2) awaited. -/
def W.capAt (trig : Nat) : State :=
  (W.tapped.onDie 0 (fun x => x.setCourse 0 ((x.course 0).setSide .host { (x.course 0).host with owner := 4 }))).onDie 0
    (fun x => { x with peg := { x.peg with ops := [{ W.capOp with packet := W.packet 8 0 0x40000000 [16 * trig, 1, 0, 0] }] } })

/-- Port 0 of die 0 in a session, one lane a segment in the given session states. -/
def W.sess (h l : LaneSess) : State :=
  W.live.setPort ⟨0, 0, 0⟩ { ({} : Port) with state := 3, sess := true, hostRun := true, lineRun := true, hlanes := [(0, h)], llanes := [(0, l)] }

/-- A valid standard frame that asks for nothing. -/
def W.frame : Frame :=
  { peer := false, reqTap := 6, reqOp := 0, reqPreset := 0, reqSeq := 0, reqPrecode := false, reqP425 := false,
    reqLattice := false, ptype := 0, capLattice := false, capP425 := false, capRotation := false, session := 0, ackSeq := 0,
    rxReady := true, latReady := false, p425Grant := false, latGrant := false, precodeOn := false, done := false }

/-- A gearbox port, host positions 0 and 1 on line position 0, CARRYING with lane 0 in the given state. -/
def W.gbx (g : Gbx) : State :=
  (((W.run.onDie 0 (fun x => ((x.setAct (oCfga 0 0) 0x1001).setAct (oCfgb 0 0) 0x8007).setAct (oBudget 0 0) 100)).setPort ⟨0, 0, 0⟩
    { ({} : Port) with state := 4 })).setCourse 0 0 { ({} : Course) with gbx := (Vector.replicate 4 {}).set 0 g }

/-- Port 0 of die 0 CARRYING with this PORT_CFGA. -/
def W.port (a : Half) : State :=
  ((W.run.onDie 0 (fun x => ((x.setAct (oCfga 0 0) a).setAct (oCfgb 0 0) 0x8006).setAct (oBudget 0 0) 100)).setPort ⟨0, 0, 0⟩
    { ({} : Port) with state := 4 })

/-- W.lattice with the lattice receiver of course 0 in this state. -/
def W.lat (l : Lattice) : State := W.lattice.setCourse 0 0 { ({} : Course) with lat := l }

/-- The same with every line slice of course 0 LOCKED. -/
def W.latLocked (l : Lattice) : State :=
  (W.lat l).onDie 0 (fun x => (List.range 9).foldl (fun y j => y.setSlice (72 + j) { y.slice (72 + j) with locked := true }) x)

/-- W.run with the clock block of die 0 changed. -/
def W.clk (f : Clk → Clk) : State := W.run.onDie 0 (fun x => { x with clk := f x.clk })

/-- W.run with the stroke count of die 0 at n. -/
def W.at (n : Nat) (s : State) : State := s.onDie 0 (fun x => { x with stroke := { x.stroke with count := n } })

/-- A packet from die 0 that reaches die 1 of W.run from the west, tag 5. -/
def W.flit (dst : DieId) (bcast : Bool) (body : Body) : Flit :=
  { src := 0, dst := dst, bcast := bcast, tag := 5, ttl := 7, here := 1, dir := .east, body := body }

/-- A bridge that is UP with its four lanes. -/
def W.bridge : Bridge :=
  { lock := [0, 1, 2, 3].map (fun l => (l, { locked := true })), aligned := 15, rxSet := 15, state := 1, hb := true, set_ := 15, peer := 15,
    measured := true }

/-- W.run with the bridges of die 1 UP and one packet on the ring. -/
def W.air (f : Flit) : State :=
  { (W.run.onDie 1 (fun x => (x.setBridge .east W.bridge).setBridge .west W.bridge)) with air := [f] }

/-- A standard frame that asks for nothing. -/
def W.std : StdFrame :=
  { ok := true, reqTap := 6, reqOp := 0, reqPreset := 0, reqSeq := 0, reqPrecode := false, session := 0, ackSeq := 0, rxReady := true,
    precodeOn := false, done := false }

/-- Queue 0 of die 0 with one NOP in slot 63, not yet fetched. -/
def W.queued : State :=
  W.run.onDie 0 (fun x =>
    { x with q0 := { x.q0 with sqHead := 63, sqTail := 0 },
             sram := Memory.writeWords x.sram 0x13F00 [0x00070001, 4, 0, 9] })

/-- Queue 0 of die 0 with the final record of that NOP waiting. -/
def W.record : State :=
  W.run.onDie 0 (fun x =>
    { x with q0 := { x.q0 with cqHead := 62, cqTail := 63, exec := [(W.packet 4 0 0 [], 1)], waiting := [mkRec (W.packet 4 0 0 []) 0 3 []] } })

/-- W.run with the housekeeping block of die 1 changed. -/
def W.hk (f : Hk → Hk) : State := W.run.onDie 1 (fun x => { x with hk := f x.hk })

/-- W.run with both controller ports of die 1 enabled. -/
def W.mcOn : State := W.run.onDie 1 (fun x => (x.setAct (oMcfg 0) 1).setAct (oMcfg 1) 1)

/-- A TWI_TRANSFER on MC1 of die 1. -/
def W.mcOp : Op := { W.op 0x0E01 5 1 [] with phase := 1, packet := W.packet 6 1 1 [0x0050, 0] }

/-- W.run with this test on die 1. -/
def W.test (b : Test) : State := W.run.onDie 1 (fun x => { x with bist := { x.bist with tests := [b] } })

/-- A CAPMEM_MARCH of the line half of course 5 with 600 strokes of work done. -/
def W.bist : Test := { tag := 7, test := 4, target := 261, packet := W.packet 6 1 261 [0x104, 0], done := 600, isol := true }

/-- Its BIST_RUN operation. -/
def W.bistOp (cancel : Bool) : Op := { W.op 0x0C01 6 262405 [] with packet := W.packet 6 1 261 [0x104, 0], cancel := cancel }

/-- W.run with a REPAIR_FUSE on die 0 whose next entry is programmed, of which n entries are done. -/
def W.fuse (n : Nat) (l : List (Nat × Nat)) : State :=
  (W.at 80 W.run).onDie 0 (fun x => { x with peg := { x.peg with ops := [W.op 0x0C04 6 0x2000003 []] }, bist := { x.bist with burnOf := l, burnt := n } })

/-- The same with a peer line segment. -/
def W.peer (l : LaneSess) : State :=
  (W.sess { state := 1 } l).onDie 0 (fun x => x.setAct (oCfgb 0 0) 0x8007)

/-- A beacon of session 42 whose partner is ready, as the symbols of marker, fields and CRC. -/
def W.beacon : List (Fin 4) := (peerHeader 0x2A0001C10006 0x400).map (Fin.ofNat 4)

/-! ### The hypotheses of every clause can be met together -/

theorem witness_StepRunsTheFront :
  ∃ (s : State),
    s.pending = [] :=
  ⟨W.run, by decide +kernel⟩

theorem witness_StepKeepsMemoriesCanonical :
  ∃ (s t : State),
    s.memoriesOk ∧
    step s = .next t :=
  ⟨W.run, _, by unfold State.memoriesOk; decide +kernel, rfl⟩

theorem witness_StepKeepsTheLeadAndPosition :
  ∃ (s t : State),
    s.packageOk ∧
    step s = .next t :=
  ⟨W.run, _, by unfold State.packageOk; decide +kernel, rfl⟩

theorem witness_ConfigurationFrame :
  ∃ (c : Instr) (s t : State),
    exec c s = .next t :=
  ⟨.standbyExit, W.run, _, rfl⟩

theorem witness_MemoryFrame :
  ∃ (c : Instr) (s t : State),
    exec c s = .next t :=
  ⟨.standbyExit, W.run, _, rfl⟩

theorem witness_LaneFrame :
  ∃ (c : Instr) (s t : State),
    exec c s = .next t :=
  ⟨.standbyExit, W.run, _, rfl⟩

theorem witness_BlockFrame :
  ∃ (c : Instr) (s t : State),
    exec c s = .next t :=
  ⟨.standbyExit, W.run, _, rfl⟩

theorem witness_PegboxFrame :
  ∃ (c : Instr) (s t : State),
    exec c s = .next t :=
  ⟨.standbyExit, W.run, _, rfl⟩

theorem witness_PackageFrame :
  ∃ (c : Instr) (s t : State),
    exec c s = .next t :=
  ⟨.standbyExit, W.run, _, rfl⟩

theorem witness_RowsStayOnTheirDie :
  (∃ (c : Instr) (s t : State) (d : DieId),
    homeDie s.part c = some d ∧
    exec c s = .next t) ∧
  (∃ (c : Instr) (s t : State) (k : Packet),
    nearCommand c = some k ∧
    exec c s = .next t) :=
  ⟨⟨.jtagInstruction 7 0, W.run, _, 7, rfl, rfl⟩,
   ⟨.nop (W.packet 4 1 0 []), W.run, _, W.packet 4 1 0 [], rfl, rfl⟩⟩

theorem witness_CommandChecks :
  (∃ (c : Instr) (s : State) (k : Packet) (op : Nat),
    commandOf c = some (k, op) ∧
    isAccess s.part k.origin = true ∧
    (s.die k.die).peg.inbox.any (fun w => w.is k op) = false ∧
    headerLenOk k.length.toNat = false) ∧
  (∃ (c : Instr) (s : State) (k : Packet) (op : Nat),
    commandOf c = some (k, op) ∧
    isAccess s.part k.origin = true ∧
    comes s k op = true ∧
    lenOk op k.length.toNat = false) ∧
  (∃ (c : Instr) (s : State) (k : Packet) (op : Nat),
    commandOf c = some (k, op) ∧
    isAccess s.part k.origin = true ∧
    (s.die k.die).peg.inbox.any (fun w => w.is k op) = false ∧
    headerLenOk k.length.toNat = true ∧
    present s.part k.die = false) ∧
  (∃ (c : Instr) (s : State) (k : Packet) (op : Nat),
    commandOf c = some (k, op) ∧
    isAccess s.part k.origin = true ∧
    headerLenOk k.length.toNat = true ∧
    present s.part k.die = true ∧
    (s.die k.die).peg.inbox.any (fun w => w.is k op) = false ∧
    (s.die k.die).peg.ops.any (fun o => o.is k.origin k.queue k.tag) = true) ∧
  (∃ (c : Instr) (s : State) (k : Packet) (op : Nat),
    commandOf c = some (k, op) ∧
    isAccess s.part k.origin = true ∧
    headerLenOk k.length.toNat = true ∧
    present s.part k.die = true ∧
    (s.die k.die).peg.inbox.any (fun w => w.is k op) = false ∧
    (s.die k.die).peg.ops.any (fun o => o.is k.origin k.queue k.tag) = false ∧
    s.reachable k.origin k.die = false) ∧
  (∃ (c : Instr) (s : State) (k : Packet) (op : Nat),
    commandOf c = some (k, op) ∧
    isAccess s.part k.origin = true ∧
    headerLenOk k.length.toNat = true ∧
    present s.part k.die = true ∧
    (s.die k.die).peg.inbox.any (fun w => w.is k op) = false ∧
    (s.die k.die).peg.ops.any (fun o => o.is k.origin k.queue k.tag) = false ∧
    s.reachable k.origin k.die = true ∧
    (s.die k.die).pegRuns = false) ∧
  (∃ (c : Instr) (s : State) (k : Packet) (op : Nat),
    commandOf c = some (k, op) ∧
    isAccess s.part k.origin = true ∧
    headerLenOk k.length.toNat = true ∧
    present s.part k.die = true ∧
    (s.die k.die).peg.inbox.any (fun w => w.is k op) = true ∧
    (s.die k.die).pegRuns = false) ∧
  (∃ (c : Instr) (s : State) (k : Packet) (op : Nat),
    commandOf c = some (k, op) ∧
    isAccess s.part k.origin = true ∧
    headerLenOk k.length.toNat = true ∧
    present s.part k.die = true ∧
    (s.die k.die).peg.inbox.any (fun w => w.is k op) = false ∧
    (s.die k.die).peg.ops.any (fun o => o.is k.origin k.queue k.tag) = false ∧
    s.reachable k.origin k.die = true ∧
    (s.die k.die).waitsTurn k op = true) ∧
  (∃ (c : Instr) (s : State) (k : Packet) (op : Nat),
    commandOf c = some (k, op) ∧
    isAccess s.part k.origin = true ∧
    headerLenOk k.length.toNat = true ∧
    present s.part k.die = true ∧
    (s.die k.die).peg.inbox.any (fun w => w.is k op) = true ∧
    (s.die k.die).waitsTurn k op = true) :=
  ⟨⟨.nop (W.packet 3 1 0 []), W.run, W.packet 3 1 0 [], 1, by decide +kernel⟩,
   ⟨.nop (W.packet 5 1 0 []), W.run, W.packet 5 1 0 [], 1, by decide +kernel⟩,
   ⟨.nop (W.packet 4 2 0 []), W.run, W.packet 4 2 0 [], 1, by decide +kernel⟩,
   ⟨.nop (W.packet 4 0 0 []), W.withOp (W.op 0x0301 3 0 []), W.packet 4 0 0 [], 1, by decide +kernel⟩,
   ⟨.nop (W.packet 4 1 0 []), W.run.onDie 0 (fun x => { x with brg := { x.brg with reach := 1 } }), W.packet 4 1 0 [], 1, by decide +kernel⟩,
   ⟨.nop (W.packet 4 1 0 []), W.run.onDie 1 (fun x => { x with peg := { x.peg with state := 0 } }), W.packet 4 1 0 [], 1, by decide +kernel⟩,
   ⟨.nop (W.packet 4 1 0 []), (W.run.onDie 1 (fun x => { x with peg := { x.peg with state := 0 } })).enqueue 1 (W.packet 4 1 0 []) 1, W.packet 4 1 0 [], 1, by decide +kernel⟩,
   ⟨.nop (W.packet 4 1 0 []), (W.run.enqueue 1 (W.packet 5 1 0 [7]) 2), W.packet 4 1 0 [], 1, by decide +kernel⟩,
   ⟨.nop (W.packet 4 1 0 []), (W.run.enqueue 1 (W.packet 5 1 0 [7]) 2).enqueue 1 (W.packet 4 1 0 []) 1, W.packet 4 1 0 [], 1, by decide +kernel⟩⟩

theorem witness_RecordsAndEvents :
  (∃ (s : State) (d : DieId) (r : Rec),
    r.origin = d ∧
    ((s.die d).queue r.queue).enabled = true ∧
    r.status ≠ 2) ∧
  (∃ (_s : State) (d : DieId) (r : Rec),
    r.origin ≠ d) ∧
  (∃ (s : State) (d : DieId) (src cause _data : Nat),
    isNmi src cause = false ∧
    (src ≠ 456 ∨ cause ≠ 0x10) ∧
    SMap.get 0 (s.die d).evt.stroke src < 4 ∧
    (s.die d).evt.local_.length < 4096) ∧
  (∃ (s : State) (d : DieId) (r : Evt),
    r.isEpoch = true ∧
    s.earlierOut d r = true ∧
    s.stamp d < r.time + 512) ∧
  (∃ (s : State) (d : DieId) (r : Evt),
    (s.die d).evt.held.any (fun e => e.isEpoch && decide (e.time < r.time)) = true) ∧
  (∃ (s : State) (d : DieId) (r : Evt),
    r.isEpoch = true ∧
    s.earlierOut d r = true ∧
    r.time + 512 ≤ s.stamp d ∧
    (s.die d).evt.held = []) ∧
  (∃ (s : State) (d : DieId) (j k a b : Nat),
    j < k ∧
    k < 256 ∧
    a < 256 ∧
    b < 256 ∧
    (s.die d).evt.local_.length + 2 ≤ 4096 ∧
    (∀ e ∈ (s.die d).evt.local_, e.isEpoch = false)) ∧
  (∃ (s : State) (d : DieId) (src cause _data : Nat),
    isNmi src cause = false ∧
    (src ≠ 456 ∨ cause ≠ 0x10) ∧
    4 ≤ SMap.get 0 (s.die d).evt.stroke src) ∧
  (∃ (s : State) (d : DieId) (src cause _data : Nat),
    isNmi src cause = true ∧
    (s.die d).evt.local_.length < 4096) ∧
  (∃ (s : State) (d : DieId) (src : Fin 512) (c : Byte) (_v : Word),
    up s d = true ∧
    reservedSource src.val = false ∧
    isNmi src.val c.toNat = false ∧
    (src.val ≠ 456 ∨ c ≠ 0x10) ∧
    SMap.get 0 (s.die d).evt.stroke src.val < 4 ∧
    (s.die d).evt.local_.length < 4096) ∧
  (∃ (s : State) (d : DieId),
    up s d = true ∧
    s.fretOpen d 30 30 = true) ∧
  (∃ (s : State) (_e : AccessId) (_v : BitVec 12),
    s.running = true) ∧
  (∃ (s : State) (e : AccessId),
    s.running = true ∧
    s.pos ≤ 1240 ∧
    bit (s.die (accessDie s.part e)).stroke.ran 31 = false) ∧
  (∃ (s : State) (e : AccessId) (n : QueueId) (v : BitVec 6),
    s.running = true ∧
    ((s.die (accessDie s.part e)).queue n).unfetched ≤ (v.toNat + 64 - ((s.die (accessDie s.part e)).queue n).sqHead) % 64) ∧
  (∃ (s : State) (e : AccessId) (n : QueueId) (v : BitVec 6),
    s.running = true ∧
    (v.toNat + 64 - ((s.die (accessDie s.part e)).queue n).cqHead) % 64 ≤ ((s.die (accessDie s.part e)).queue n).used) ∧
  (∃ (s : State) (e : AccessId) (n : QueueId) (v : BitVec 6),
    s.running = true ∧
    ((s.die (accessDie s.part e)).queue n).locked v.toNat = true) ∧
  (∃ (s : State) (e : AccessId) (n : QueueId) (x : Packet × Nat),
    s.running = true ∧
    (s.die (accessDie s.part e)).pegRuns = true ∧
    ((s.die (accessDie s.part e)).queue n).mayFetch = true ∧
    readPacket (s.die (accessDie s.part e)) (accessDie s.part e) n ((s.die (accessDie s.part e)).queue n).sqHead = x ∧
    s.checkHeader (accessDie s.part e) ((s.die (accessDie s.part e)).queue n) x.1 x.2 (readFlags (s.die (accessDie s.part e)) n ((s.die (accessDie s.part e)).queue n).sqHead) = none) ∧
  (∃ (s : State) (e : AccessId) (n : QueueId) (r : Rec),
    ((s.die (accessDie s.part e)).queue n).waiting.find? ((s.die (accessDie s.part e)).queue n).mayPost = some r ∧
    r.irq = false) ∧
  (∃ (s : State) (d : DieId) (w : Waiting),
    up s d = true ∧
    (s.die d).pegRuns = false ∧
    (s.die d).peg.inbox.find? (fun w => w.arrived + 1024 ≤ s.stroke d) = some w ∧
    w.packet.die = d) :=
  ⟨⟨W.run, 0, mkRec (W.packet 4 0 0 []) 0 3 [], by decide +kernel⟩,
   ⟨W.run, 1, mkRec (W.packet 4 0 0 []) 0 3 [], by decide +kernel⟩,
   ⟨W.run, 1, 3, 4, 5, by decide +kernel⟩,
   ⟨(W.run.onDie 1 (fun x => { x with evt := { x.evt with local_ := [⟨9, 512, 1, false, false, 1, 7⟩], fresh := 1 } })), 0, ⟨256, 456, 0x10, false, false, 1, 16777216 + 512 + 6⟩, by decide +kernel⟩,
   ⟨W.run.onDie 0 (fun x => { x with evt := { x.evt with held := [⟨256, 456, 0x10, false, false, 1, 16777216 + 512 + 6⟩] } }), 0, ⟨300, 456, 1, false, false, 1, 0⟩, by decide +kernel⟩,
   ⟨W.at 3 (W.run.onDie 1 (fun x => { x with evt := { x.evt with local_ := [⟨9, 512, 1, false, false, 1, 7⟩], fresh := 1 } })), 0, ⟨256, 456, 0x10, false, false, 1, 16777216 + 512 + 6⟩, by decide +kernel⟩,
   ⟨W.run, 0, 6, 8, 255, 8, by decide +kernel⟩,
   ⟨W.run.onDie 1 (fun x => { x with evt := { x.evt with stroke := [(3, 4)] } }), 1, 3, 4, 5, by decide +kernel⟩,
   ⟨W.run.onDie 1 (fun x => { x with evt := { x.evt with stroke := [(409, 4)] } }), 1, 409, 1, 5, by decide +kernel⟩,
   ⟨W.run, 1, 459, 0xFF, 0xFFFFFFFF, by decide +kernel⟩,
   ⟨W.run.post 1 300 1 2, 1, by decide +kernel⟩,
   ⟨W.run, 0, 5, by decide +kernel⟩,
   ⟨W.run, 1, by decide +kernel⟩,
   ⟨W.queued, 0, 0, 62, by decide +kernel⟩,
   ⟨W.record, 0, 0, 63, by decide +kernel⟩,
   ⟨W.queued, 0, 0, 63, by decide +kernel⟩,
   ⟨W.queued, 0, 0, readPacket (W.queued.die 0) 0 0 63, by decide +kernel⟩,
   ⟨W.record, 0, 0, mkRec (W.packet 4 0 0 []) 0 3 [], by decide +kernel⟩,
   ⟨W.at 1024 (W.run.onDie 0 (fun x => { x with peg := { x.peg with state := 2, inbox := [⟨W.packet 4 0 0 [], 1, 0⟩] } })), 0, ⟨W.packet 4 0 0 [], 1, 0⟩, by decide +kernel⟩⟩

theorem witness_CommitsAtTheBoundary :
  (∃ (x : Die) (_g o : Nat) (l : List Nat) (v : Half),
    o ∈ l ∧
    x.stg o = some v ∧
    x.keptStaged o = false ∧
    x.brg.isolated = false) ∧
  (∃ (x : Die) (_g o : Nat) (l : List Nat) (v : Half),
    o ∈ l ∧
    x.stg o = some v ∧
    x.keptStaged o = false ∧
    x.brg.isolated = true) ∧
  (∃ (x : Die) (_g o : Nat) (l : List Nat),
    (o ∉ l ∨ x.keptStaged o = true)) ∧
  (∃ (s : State) (d : DieId),
    (s.die d).groupsDue (s.die d).stroke.dueNow = [] ∧
    (∀ q ∈ (s.die d).stroke.gdue, q.2.2 = 0 → (s.die d).stroke.count < q.1)) ∧
  (∃ (s : State) (_obs : BoundaryObs),
    s.running = true) ∧
  (∃ (s : State) (d : DieId) (fret : Fin 32) (_left : BitVec 16),
    up s d = true ∧
    1 ≤ fret.val ∧
    fret.val ≤ 30 ∧
    s.pos < 40 * (fret.val + 1) ∧
    ((25 ≤ fret.val ∧ fret.val ≤ 27) → (s.die d).bistOn = true)) ∧
  (∃ (s : State) (d : DieId) (fret : Fin 32),
    up s d = true ∧
    bit (s.die d).stroke.ovr fret.val = true ∧
    SMap.get 0 (s.die d).stroke.ovrAt fret.val + 1024 ≤ (s.die d).stroke.count) :=
  ⟨⟨(W.run.die 0).stage 0x10100 7, 3, 0x10100, [0x10100], mergeMask 0 7 (((lookup 0x10100).map (·.rws)).getD 0), by decide +kernel⟩,
   ⟨{ (W.run.die 0).stage 0x10100 7 with brg := { (W.run.die 0).brg with isolated := true } }, 3, 0x10100, [0x10100], mergeMask 0 7 (((lookup 0x10100).map (·.rws)).getD 0), by decide +kernel⟩,
   ⟨W.run.die 0, 3, 0x10100, [], by decide +kernel⟩,
   ⟨W.run, 1, by decide +kernel⟩,
   ⟨W.run, ⟨[], [], [], [], [], [], [], [], []⟩, by decide +kernel⟩,
   ⟨W.run, 1, 30, 5, by decide +kernel⟩,
   ⟨W.run.onDie 1 (fun x => { x with stroke := { x.stroke with ovr := 4, count := 1024 } }), 1, 2, by decide +kernel⟩⟩

theorem witness_PowerResets :
  (∃ (s : State) (x : DieId) (rail : Fin 5) (io33 : Bool) (mv : BitVec 16) (ns : Word),
    present s.part x = true ∧
    1000 ≤ ns.toNat ∧
    mv.toNat + 10 < railMin rail io33) ∧
  (∃ (_s : State) (_x : DieId) (rail : Fin 5) (io33 : Bool) (mv : BitVec 16) (ns : Word),
    (ns.toNat < 1000 ∨ railMin rail io33 + 10 ≤ mv.toNat)) ∧
  (∃ (_s : State) (ns : Word),
    10000 ≤ ns.toNat) ∧
  (∃ (_s : State) (ns : Word),
    ns.toNat < 1000) ∧
  (∃ (_s : State) (ns : Word),
    1000 ≤ ns.toNat ∧
    ns.toNat < 10000) :=
  ⟨⟨W.run, 1, 1, false, 669, 1000, by decide +kernel⟩,
   ⟨W.run, 1, 4, true, 2980, 5000, by decide +kernel⟩,
   ⟨W.run, 10000, by decide +kernel⟩,
   ⟨W.run, 999, by decide +kernel⟩,
   ⟨W.run, 5000, by decide +kernel⟩⟩

theorem witness_StartUp :
  (∃ (s : State) (d : DieId),
    present s.part d = true ∧
    s.running = false ∧
    (s.die d).clk.spReady = false) ∧
  (∃ (s : State) (d : DieId),
    up s d = true ∧
    (s.die d).clk.spReady = false) ∧
  (∃ (s : State) (_straps _readable : Fin 4) (_ecc : List (BitVec 18 × EccResult × EccResult)),
    s.phase ≤ 1 ∧
    (∀ d : DieId, present s.part d = true → (s.die d).clk.spReady = true)) ∧
  (∃ (s : State) (x : DieId) (rail : Fin 5) (io33 : Bool) (mv : BitVec 16) (ns : Word),
    present s.part x = true ∧
    1000 ≤ ns.toNat ∧
    mv.toNat + 10 < railMin rail io33) ∧
  (∃ (_s : State) (ns : Word),
    10000 ≤ ns.toNat) ∧
  (∃ (s : State),
    s.vddhOff = false) :=
  ⟨⟨State.reset, 7, by decide +kernel⟩,
   ⟨W.run, 0, by decide +kernel⟩,
   ⟨W.spUp, 3, 0, [(5, .corrected, .clean)], by decide +kernel⟩,
   ⟨W.run, 1, 0, false, 0, 1000, by decide +kernel⟩,
   ⟨W.run, 10000, by decide +kernel⟩,
   ⟨W.run, by decide +kernel⟩⟩

theorem witness_LinkEvents :
  (∃ (s : State) (_e : AccessId),
    1 ≤ s.phase) ∧
  (∃ (s : State) (e : AccessId) (up : Bool) (_speed : Fin 5) (_width : Fin 3),
    s.running = true ∧
    (s.ep e).l0 ≠ up) ∧
  (∃ (s : State) (_e : AccessId) (_off : BitVec 25),
    s.running = true) :=
  ⟨⟨W.run, 1, by decide +kernel⟩,
   ⟨W.run, 0, true, 4, 2, by decide +kernel⟩,
   ⟨W.run, 0, 0x1FFFFFF, by decide +kernel⟩⟩

theorem witness_Standby :
  (∃ (s : State),
    s.running = true ∧
    s.rootOff = true) ∧
  (∃ (s : State) (source : Fin 4) (ns : Word),
    s.phase = 3 ∧
    source.val ≠ 3 ∧
    (source.val = 0 → 1000 ≤ ns.toNat)) ∧
  (∃ (_s : State) (ns : Word),
    ns.toNat ≤ 500) ∧
  (∃ (s : State) (d : DieId) (_ns : Word),
    s.phase = 3 ∧
    present s.part d = true ∧
    s.leaders.contains d = true ∧
    (s.die d).hk.owed = true) ∧
  (∃ (s : State) (l : DieId),
    s.running = true ∧
    s.lead = some l ∧
    s.waking = true ∧
    (∀ d : DieId, present s.part d = true → s.reachable l d = true → 2 ≤ (s.die d).stroke.state ∧ (s.die d).stroke.asleep = false)) ∧
  (∃ (s : State) (d : DieId) (n : Nat),
    up s d = true ∧
    (s.die d).stroke.resumed = some n ∧
    n + 1954 ≤ (s.die d).stroke.count) :=
  ⟨⟨{ W.run with rootOff := true }, by decide +kernel⟩,
   ⟨{ W.run with phase := 3 }, 0, 1000, by decide +kernel⟩,
   ⟨{ W.run with phase := 3 }, 500, by decide +kernel⟩,
   ⟨{ (W.run.onDie 0 (fun x => { x with hk := { x.hk with owed := true } })) with phase := 3 }, 0, 0, by decide +kernel⟩,
   ⟨{ W.locked with waking := true }, 0, by decide +kernel⟩,
   ⟨W.run.onDie 1 (fun x => { x with stroke := { x.stroke with resumed := some 46, count := 2000 } }), 1, 46, by decide +kernel⟩⟩

theorem witness_Strokes :
  (∃ (s : State) (_obs : BoundaryObs),
    s.running = true) ∧
  (∃ (s : State) (d : DieId) (fret : Fin 32) (_left : BitVec 16),
    up s d = true ∧
    1 ≤ fret.val ∧
    fret.val ≤ 30 ∧
    s.pos < 40 * (fret.val + 1) ∧
    ((25 ≤ fret.val ∧ fret.val ≤ 27) → (s.die d).bistOn = true)) ∧
  (∃ (s : State) (d : DieId) (fret : Fin 32) (_left : BitVec 16),
    up s d = true ∧
    1 ≤ fret.val ∧
    fret.val ≤ 30 ∧
    s.pos < 40 * (fret.val + 1) ∧
    ((25 ≤ fret.val ∧ fret.val ≤ 27) → (s.die d).bistOn = true) ∧
    bit (s.die d).stroke.ovr fret.val = false) ∧
  (∃ (s : State) (d : DieId) (fret : Fin 32) (_left : BitVec 16),
    (fret = 0 ∨ fret = 31 ∨ 40 * (fret.val + 1) ≤ s.pos ∨ ((25 ≤ fret.val ∧ fret.val ≤ 27) ∧ (s.die d).bistOn = false))) ∧
  (∃ (s : State) (d : DieId) (fret : Fin 32),
    up s d = true ∧
    bit (s.die d).stroke.ovr fret.val = true ∧
    SMap.get 0 (s.die d).stroke.ovrAt fret.val + 1024 ≤ (s.die d).stroke.count) :=
  ⟨⟨W.run, ⟨[], [], [], [], [], [], [], [], []⟩, by decide +kernel⟩,
   ⟨W.run, 1, 30, 5, by decide +kernel⟩,
   ⟨W.run, 1, 1, 5, by decide +kernel⟩,
   ⟨W.run, 1, 31, 5, by decide +kernel⟩,
   ⟨W.run.onDie 1 (fun x => { x with stroke := { x.stroke with ovr := 4, count := 1024 } }), 1, 2, by decide +kernel⟩⟩

theorem witness_SliceAdaptation :
  (∃ (s : State) (d : DieId) (c : CourseId) (side : Side) (_upd : List SliceUpdate),
    up s d = true ∧
    (s.die d).tuningRuns = true ∧
    (s.die d).peg.awaits = [] ∧
    s.fretOpen d (tuningFretOf c.val side) (tuningFretOf c.val side) = true) ∧
  (∃ (s : State) (d : DieId) (c : CourseId) (side : Side) (_upd : List SliceUpdate),
    bit (s.die d).stroke.ran (tuningFretOf c.val side) = true) ∧
  (∃ (s : State) (d : DieId) (n : SliceId),
    up s d = true ∧
    (s.die d).parked n.val = false ∧
    ((s.die d).slice n.val).converged = false ∧
    256 ≤ ((s.die d).slice n.val).convRun) ∧
  (∃ (s : State) (d : DieId) (n : SliceId) (coef : Fin 69),
    up s d = true ∧
    64 ≤ SMap.get 0 ((s.die d).slice n.val).limits coef.val ∧
    ((s.die d).slice n.val).limited.contains coef.val = false) ∧
  (∃ (s : State) (d : DieId) (_n : SliceId) (_level : Bool),
    up s d = true) :=
  ⟨⟨W.run, 1, 7, .line, [⟨142, 0, 0, [], 0, 0, 0, []⟩], by decide +kernel⟩,
   ⟨W.run.onDie 1 (fun x => { x with stroke := { x.stroke with ran := 2 ^ 16 } }), 1, 7, .line, [], by decide +kernel⟩,
   ⟨W.live.setSlice 0 0 { ({} : Slice) with convRun := 256 }, 0, 0, by decide +kernel⟩,
   ⟨W.live.setSlice 0 0 { ({} : Slice) with limits := [(68, 64)] }, 0, 0, 68, by decide +kernel⟩,
   ⟨W.run, 1, 151, true, by decide +kernel⟩⟩

theorem witness_SliceDetection :
  (∃ (s : State) (d : DieId) (n : SliceId) (mv : BitVec 16),
    up s d = true ∧
    (s.die d).role n.val < 2 ∧
    ((s.die d).slice n.val).sd = false ∧
    4 * fld ((s.die d).act (oRx n.val 0x18)) 5 0 < mv.toNat) ∧
  (∃ (s : State) (d : DieId) (n : SliceId) (mv : BitVec 16),
    up s d = true ∧
    (s.die d).role n.val < 2 ∧
    ((s.die d).slice n.val).sd = true ∧
    mv.toNat < 4 * fld ((s.die d).act (oRx n.val 0x18)) 11 6) ∧
  (∃ (s : State) (d : DieId) (n : SliceId) (mv : BitVec 16),
    (if ((s.die d).slice n.val).sd then 4 * fld ((s.die d).act (oRx n.val 0x18)) 11 6 ≤ mv.toNat else mv.toNat ≤ 4 * fld ((s.die d).act (oRx n.val 0x18)) 5 0)) ∧
  (∃ (s : State) (d : DieId) (n : SliceId) (_freq : Half),
    up s d = true ∧
    (s.die d).role n.val < 2 ∧
    ((s.die d).slice n.val).sd = true ∧
    ((s.die d).slice n.val).cdrLock = false ∧
    (((s.die d).slice n.val).reacq = true → ((s.die d).slice n.val).reacqOn = true)) ∧
  (∃ (s : State) (d : DieId) (n : SliceId) (reason : Fin 3),
    up s d = true ∧
    (if reason = 0 then ((s.die d).slice n.val).sdLost else ((s.die d).slice n.val).locked) = true ∧
    (s.die d).role n.val < 2) ∧
  (∃ (s : State) (d : DieId) (n : SliceId),
    up s d = true ∧
    (s.die d).role n.val < 2 ∧
    ((s.die d).slice n.val).good = true ∧
    ((s.die d).slice n.val).locked = false) ∧
  (∃ (s : State) (d : DieId) (n : SliceId),
    up s d = true ∧
    (s.die d).role n.val = 1 ∧
    ((s.die d).slice n.val).good = true ∧
    ((s.die d).slice n.val).locked = false) :=
  ⟨⟨W.live, 0, 0, 0xFFFF, by decide +kernel⟩,
   ⟨W.live.setSlice 0 0 { ({} : Slice) with sd := true }, 0, 0, 0, by decide +kernel⟩,
   ⟨W.live, 0, 0, 0, by decide +kernel⟩,
   ⟨W.live.setSlice 0 0 { ({} : Slice) with sd := true }, 0, 0, 0xFFFF, by decide +kernel⟩,
   ⟨W.live.setSlice 0 0 { ({} : Slice) with locked := true }, 0, 0, 2, by decide +kernel⟩,
   ⟨W.live.setSlice 0 0 { ({} : Slice) with good := true }, 0, 0, by decide +kernel⟩,
   ⟨W.tapped.setSlice 0 8 { ({} : Slice) with good := true }, 0, 8, by decide +kernel⟩⟩

theorem witness_Reacquisition :
  (∃ (s : State) (d : DieId) (n : SliceId),
    up s d = true ∧
    (s.die d).role n.val = 0 ∧
    ((s.die d).slice n.val).reacq = true ∧
    ((s.die d).slice n.val).sd = true ∧
    ((s.die d).slice n.val).reacqOn = false ∧
    (s.die d).inSession n.val = false ∧
    s.pos < 40 * (tuningFretOf (sliceCourse n.val) (sliceSide n.val) + 1)) ∧
  (∃ (s : State) (d : DieId) (n : SliceId),
    up s d = true ∧
    ((s.die d).slice n.val).reacq = true ∧
    ((s.die d).slice n.val).reacqOn = true ∧
    ((s.die d).slice n.val).locked = true) ∧
  (∃ (s : State) (d : DieId) (n : SliceId),
    up s d = true ∧
    ((s.die d).slice n.val).reacq = true ∧
    ((s.die d).slice n.val).reacqOn = true ∧
    ((s.die d).slice n.val).locked = false ∧
    ((s.die d).slice n.val).reacqFree = false ∧
    0 < fld ((s.die d).act (oRx n.val 0x24)) 9 0 ∧
    ((s.die d).slice n.val).reacqFrom + fld ((s.die d).act (oRx n.val 0x24)) 9 0 ≤ s.stroke d) ∧
  (∃ (s : State) (d : DieId) (n : SliceId) (j : Nat),
    up s d = true ∧
    (s.die d).posOf n.val = some j ∧
    (s.die d).role n.val = 0 ∧
    ((s.die d).slice n.val).reacq = true ∧
    ((s.die d).slice n.val).reacqFree = true ∧
    ((s.die d).slice n.val).reacqOn = false ∧
    ((s.die d).slice n.val).locked = false ∧
    ((s.die d).slice n.val).reacqFrom = s.stroke d ∧
    ((s.die d).sympDenied (sliceCourse n.val) (sliceSide n.val) false).isNone = true) ∧
  (∃ (s : State) (d : DieId) (c : CourseId) (side : Side),
    up s d = true ∧
    ((s.die d).rot c.val side).subst = true ∧
    ((s.die d).rot c.val side).attached = true ∧
    ((s.die d).slice ((s.die d).sympSlice c.val side)).locked = true ∧
    ((s.die d).slice ((s.die d).serving c.val side ((s.die d).rot c.val side).pos)).locked = false ∧
    (s.die d).substOpen c.val side (s.stroke d) = true) ∧
  (∃ (s : State) (d : DieId) (c : CourseId) (side : Side),
    ((s.die d).rot c.val side).subst = true ∧
    ((s.die d).rot c.val side).substNow = true ∧
    ((s.die d).rot c.val side).attached = true ∧
    (s.die d).tapDead c.val side ((s.die d).rot c.val side).pos false = false ∧
    ((s.die d).slice ((s.die d).sympSlice c.val side)).locked = true ∧
    ((s.die d).slice ((s.die d).serving c.val side ((s.die d).rot c.val side).pos)).locked = false) :=
  ⟨⟨W.live.setSlice 0 0 { ({} : Slice) with reacq := true, sd := true }, 0, 0, by decide +kernel⟩,
   ⟨W.live.setSlice 0 0 { ({} : Slice) with reacq := true, reacqOn := true, locked := true }, 0, 0, by decide +kernel⟩,
   ⟨(W.live.setSlice 0 0 { ({} : Slice) with reacq := true, reacqOn := true }).onDie 0 (fun x => { x with stroke := { x.stroke with count := 2000 } }), 0, 0, by decide +kernel⟩,
   ⟨W.live.setSlice 0 0 { ({} : Slice) with reacq := true, reacqFree := true }, 0, 0, 0, by decide +kernel⟩,
   ⟨W.tapped.onDie 0 (fun x => (x.setSlice 8 { ({} : Slice) with locked := true }).setCourse 0 ((x.course 0).setSide .host { (x.course 0).host with subst := true, tap := false, pos := 0 })), 0, 0, .host, by decide +kernel⟩,
   ⟨W.tapped.onDie 0 (fun x => (x.setSlice 8 { ({} : Slice) with locked := true }).setCourse 0 ((x.course 0).setSide .host { (x.course 0).host with subst := true, substNow := true, tap := false, pos := 0 })), 0, 0, .host, by decide +kernel⟩⟩

theorem witness_Presence :
  (∃ (s : State) (d : DieId) (c : CourseId),
    up s d = true ∧
    ((s.die d).course c.val).present = false ∧
    ((s.die d).course c.val).prsRaw = true ∧
    s.prsFor d c.val (if (s.die d).prsDb c.val = 0 then 16 else 1024 * (s.die d).prsDb c.val) = true) ∧
  (∃ (s : State) (d : DieId) (c : CourseId),
    up s d = true ∧
    ((s.die d).course c.val).present = true ∧
    ((s.die d).course c.val).prsRaw = false ∧
    s.prsFor d c.val 16 = true) ∧
  (∃ (s : State) (p : PortId) (h : Side),
    up s p.die = true ∧
    (s.port p).enabled = true ∧
    (s.port p).pres h = false ∧
    (s.die p.die).seen p.key h s.pos = true) ∧
  (∃ (s : State) (p : PortId) (h : Side),
    up s p.die = true ∧
    (s.port p).enabled = true ∧
    (s.port p).pres h = true ∧
    (s.die p.die).unseen p.key h s.pos = true) ∧
  (∃ (s : State) (p : PortId) (t0 : Nat),
    up s p.die = true ∧
    (s.port p).state = 2 ∧
    isHold ((s.die p.die).cfga p.key) = false ∧
    (s.port p).retryAt = some t0 ∧
    t0 ≤ s.stroke p.die) ∧
  (∃ (s : State) (p : PortId) (t0 : Nat),
    up s p.die = true ∧
    (s.port p).state ≠ 2 ∧
    (s.die p.die).latKey p.course.val = p.key ∧
    ((s.die p.die).course p.course.val).lat.state = 4 ∧
    ((s.die p.die).course p.course.val).lat.sess = false ∧
    ((s.die p.die).course p.course.val).lat.retryAt = some t0 ∧
    t0 ≤ s.stroke p.die) :=
  ⟨⟨(W.run.setCourse 1 7 { ({} : Course) with prsRaw := true }).onDie 1 (fun x => { x with stroke := { x.stroke with count := 70000 } }), 1, 7, by decide +kernel⟩,
   ⟨(W.run.setCourse 1 7 { ({} : Course) with present := true }).onDie 1 (fun x => { x with stroke := { x.stroke with count := 16 } }), 1, 7, by decide +kernel⟩,
   ⟨W.live.setPort ⟨0, 0, 0⟩ { ({} : Port) with state := 4, hFrame := true }, ⟨0, 0, 0⟩, .host, by decide +kernel⟩,
   ⟨W.live.setPort ⟨0, 0, 0⟩ { ({} : Port) with state := 4, linePres := true, kind := 4, lQuiet := 64 }, ⟨0, 0, 0⟩, .line, by decide +kernel⟩,
   ⟨W.live.setPort ⟨0, 0, 0⟩ { ({} : Port) with state := 2, retryAt := some 0, failed := true }, ⟨0, 0, 0⟩, 0, by decide +kernel⟩,
   ⟨W.lattice.setCourse 0 0 { ({} : Course) with lat := { ({} : Lattice) with state := 4, pos := 3, spos := 3, retryAt := some 0 } }, ⟨0, 0, 0⟩, 0, by decide +kernel⟩⟩

theorem witness_PortCommands :
  (∃ (s u : State) (k : Packet) (p : PortId),
    takes s u k 0x0101 = true ∧
    portOf u k k.target.toNat = some p ∧
    (u.port p).state = 0 ∧
    profileRule (Packet.profile k) ((u.die p.die).plannedOthers p.course.val p.idx.val) = 0) ∧
  (∃ (s u : State) (k : Packet) (p : PortId),
    takesPort s u k 0x0102 p = true ∧
    (u.port p).enabled = false ∧
    (u.die p.die).plannedRule p.course.val p.idx.val = 0) ∧
  (∃ (s u : State) (k : Packet) (p : PortId),
    takesPort s u k 0x0102 p = true ∧
    (u.port p).enabled = true) ∧
  (∃ (s u : State) (k : Packet) (p : PortId),
    takesPort s u k 0x0103 p = true ∧
    (u.port p).enabled = true) ∧
  (∃ (s u : State) (k : Packet) (p : PortId),
    takesPort s u k 0x0103 p = true ∧
    (u.port p).enabled = false) ∧
  (∃ (s u : State) (k : Packet) (p : PortId),
    takesPort s u k 0x0104 p = true) ∧
  (∃ (s u : State) (k : Packet) (p : PortId),
    takesPort s u k 0x0105 p = true ∧
    k.w 4 ≤ 1) :=
  ⟨⟨W.run, State.takeInbox (W.run) (W.packet 8 1 127 [0x00020000, 100, 0, 0]) 0x0101, W.packet 8 1 127 [0x00020000, 100, 0, 0], ⟨1, 7, 7⟩, by decide +kernel⟩,
   ⟨W.live.setPort ⟨0, 0, 0⟩ {}, State.takeInbox (W.live.setPort ⟨0, 0, 0⟩ {}) (W.packet 4 0 0 []) 0x0102, W.packet 4 0 0 [], ⟨0, 0, 0⟩, by decide +kernel⟩,
   ⟨W.live, State.takeInbox (W.live) (W.packet 4 0 0 []) 0x0102, W.packet 4 0 0 [], ⟨0, 0, 0⟩, by decide +kernel⟩,
   ⟨W.live, State.takeInbox (W.live) (W.packet 4 0 0 []) 0x0103, W.packet 4 0 0 [], ⟨0, 0, 0⟩, by decide +kernel⟩,
   ⟨W.live.setPort ⟨0, 0, 0⟩ {}, State.takeInbox (W.live.setPort ⟨0, 0, 0⟩ {}) (W.packet 4 0 0 []) 0x0103, W.packet 4 0 0 [], ⟨0, 0, 0⟩, by decide +kernel⟩,
   ⟨W.live, State.takeInbox (W.live) (W.packet 4 0 0 []) 0x0104, W.packet 4 0 0 [], ⟨0, 0, 0⟩, by decide +kernel⟩,
   ⟨W.live, State.takeInbox (W.live) (W.packet 5 0 0 [1]) 0x0105, W.packet 5 0 0 [1], ⟨0, 0, 0⟩, by decide +kernel⟩⟩

theorem witness_LaneCommands :
  (∃ (s u : State) (k : Packet) (n : Nat),
    takes s u k 0x0201 = true ∧
    (u.die k.die).targetSlice k.target.toNat = some n ∧
    (u.die k.die).sliceTest n = none ∧
    (u.die k.die).sliceBusy n = false ∧
    k.length.toNat = (if bit (k.w 4) 2 then 7 + taps n / 2 else 7) ∧
    bits (k.w 4) 7 5 = 0 ∧
    k.w 4 < 512 ∧
    ((u.die k.die).carries n = false ∨ bit (k.w 4) 8 = true) ∧
    (bit (k.w 4) 0 = true → bits (k.w 5) 5 0 ≤ 40 ∧ bits (k.w 5) 11 8 ≤ 12)) ∧
  (∃ (s u : State) (k : Packet) (n : Nat),
    takes s u k 0x0202 = true ∧
    (u.die k.die).targetSlice k.target.toNat = some n ∧
    (u.die k.die).sliceTest n = none ∧
    (u.die k.die).sliceBusy n = false ∧
    k.w 4 ≤ 1) ∧
  (∃ (s u : State) (k : Packet) (n : Nat),
    takes s u k 0x0203 = true ∧
    (u.die k.die).targetSlice k.target.toNat = some n ∧
    (u.die k.die).sliceTest n = none ∧
    (u.die k.die).sliceBusy n = false ∧
    k.w 4 ≤ 1 ∧
    ((u.die k.die).slice n).capoHost = !(k.w 4 == 1)) ∧
  (∃ (s u : State) (k : Packet) (n : Nat),
    takes s u k 0x0203 = true ∧
    (u.die k.die).targetSlice k.target.toNat = some n ∧
    (u.die k.die).sliceTest n = none ∧
    (u.die k.die).sliceBusy n = false ∧
    k.w 4 ≤ 1 ∧
    ((u.die k.die).slice n).capoHost = (k.w 4 == 1)) ∧
  (∃ (s u : State) (k : Packet),
    takes s u k 0x0204 = true ∧
    k.target.toNat < 136 ∧
    bits (k.w 4) 7 2 = 0 ∧
    k.w 4 < 512 ∧
    k.w 5 < 32 ∧
    k.w 7 < 65536 ∧
    (bit (k.w 4) 1 = true → tapsValid (setTaps k) = true) ∧
    ((u.die k.die).txPortState k.target.toNat < 3 ∨ (4 ≤ (u.die k.die).txPortState k.target.toNat ∧ bit (k.w 4) 8 = true))) ∧
  (∃ (s u : State) (k : Packet) (n : Nat),
    takes s u k 0x0205 = true ∧
    k.target.toNat = n ∧
    n < 136 ∧
    k.length.toNat = 5 ∧
    k.w 4 < 2 ^ 14 ∧
    bits (k.w 4) 4 2 < 5 ∧
    (bits (k.w 4) 1 0 = 0 ∨ (((u.die k.die).tx n).mode ≠ 5 ∧ ((u.die k.die).txPort n).isSome = true ∧ (bit (k.w 4) 13 = true ∨ ((u.die k.die).txPortState n ≠ 4 ∧ (u.die k.die).txPortState n ≠ 5))))) ∧
  (∃ (s : State) (d : DieId) (n : TxId),
    up s d = true ∧
    ((s.die d).tx n.val).ilim = false ∧
    ((s.die d).tx n.val).mode ≠ 5 ∧
    16 ≤ ((s.die d).tx n.val).limRun) :=
  ⟨⟨W.run, State.takeInbox (W.run) (W.packet 7 1 151 [0x1B, 0x0028, 0]) 0x0201, W.packet 7 1 151 [0x1B, 0x0028, 0], 151, by decide +kernel⟩,
   ⟨W.run, State.takeInbox (W.run) (W.packet 5 1 151 [1]) 0x0202, W.packet 5 1 151 [1], 151, by decide +kernel⟩,
   ⟨W.run, State.takeInbox (W.run) (W.packet 5 1 151 [1]) 0x0203, W.packet 5 1 151 [1], 151, by decide +kernel⟩,
   ⟨W.run, State.takeInbox (W.run) (W.packet 5 1 151 [0]) 0x0203, W.packet 5 1 151 [0], 151, by decide +kernel⟩,
   ⟨W.run, State.takeInbox (W.run) (W.packet 8 1 135 [3, 31, 0x38000000, 0]) 0x0204, W.packet 8 1 135 [3, 31, 0x38000000, 0], by decide +kernel⟩,
   ⟨W.run, State.takeInbox (W.run) (W.packet 5 1 135 [0x010]) 0x0205, W.packet 5 1 135 [0x010], 135, by decide +kernel⟩,
   ⟨W.run.setTx 1 135 { ({} : Tx) with mode := 0, limRun := 16 }, 1, 135, by decide +kernel⟩⟩

theorem witness_PatternChecks :
  (∃ (s u : State) (k : Packet) (n : Nat),
    takes s u k 0x0503 = true ∧
    k.target.toNat / 2 ^ 30 ≠ 3 ∧
    (u.die k.die).targetSlice k.target.toNat = some n ∧
    k.w 4 < 4 ∧
    0 < k.w 5 ∧
    k.w 5 < 2 ^ 24 ∧
    (u.die k.die).sliceTest n = none ∧
    (u.die k.die).parked n = false ∧
    (u.die k.die).checking n = false ∧
    (u.die k.die).peg.ops.length < 64) ∧
  (∃ (s : State) (d : DieId) (n : SliceId) (o : Op),
    s.running = true ∧
    (s.die d).check? n.val = some o ∧
    o.phase = 0 ∧
    (s.die d).parked n.val = false ∧
    s.stroke d < o.start + 1024) ∧
  (∃ (s : State) (d : DieId) (n : SliceId) (o : Op),
    s.running = true ∧
    (s.die d).check? n.val = some o ∧
    o.phase = 1) ∧
  (∃ (s : State) (d : DieId) (n : SliceId) (o : Op) (_symbols _bitErrs : BitVec 64) (_symErrs : Word),
    s.running = true ∧
    (s.die d).check? n.val = some o ∧
    o.byTap = false ∧
    o.phase = 1 ∧
    o.from_ + o.packet.w 5 ≤ s.stroke d ∧
    (s.die d).pegRuns = true) ∧
  (∃ (s : State) (d : DieId) (n : SliceId) (o : Op) (_symbols _bitErrs : BitVec 64) (_symErrs : Word),
    s.running = true ∧
    (s.die d).check? n.val = some o ∧
    o.byTap = false ∧
    o.phase = 0 ∧
    o.start + 1024 ≤ s.stroke d ∧
    (s.die d).pegRuns = true) :=
  ⟨⟨W.live, State.takeInbox (W.live) (W.packet 6 0 0 [3, 0xFFFFFF]) 0x0503, W.packet 6 0 0 [3, 0xFFFFFF], 0, by decide +kernel⟩,
   ⟨W.check 0, 0, 0, W.op 0x0503 1 0 [0], by decide +kernel⟩,
   ⟨W.check 1, 0, 0, { W.op 0x0503 1 0 [0] with phase := 1 }, by decide +kernel⟩,
   ⟨W.check 1, 0, 0, { W.op 0x0503 1 0 [0] with phase := 1 }, 5, 6, 7, by decide +kernel⟩,
   ⟨(W.check 0).onDie 0 (fun x => { x with stroke := { x.stroke with count := 1024 } }), 0, 0, W.op 0x0503 1 0 [0], 5, 6, 7, by decide +kernel⟩⟩

theorem witness_RotationCommands :
  (∃ (s u : State) (k : Packet) (c : Nat) (h : Side) (pos : Nat) (tap : Bool),
    takes s u k 0x0401 = true ∧
    tapTarget k.target.toNat = some (c, h, pos, tap) ∧
    k.w 4 < 16 ∧
    (u.die k.die).startBad c h pos tap (bit (k.w 4) 0) (bits (k.w 4) 3 2) = false ∧
    (u.die k.die).tapDead c h pos tap = false ∧
    (u.die k.die).sympDenied c h false = none) ∧
  (∃ (s u : State) (k : Packet) (c : Nat) (h : Side),
    takes s u k 0x0402 = true ∧
    sideTarget k.target.toNat = some (c, h) ∧
    (u.die k.die).sliceTest ((u.die k.die).sympSlice c h) = none ∧
    ((u.die k.die).rot c h).want ≠ 1 ∧
    ((u.die k.die).rot c h).phase = 0 ∧
    ((u.die k.die).rot c h).attached = true ∧
    ((u.die k.die).rot c h).owner = 1) ∧
  (∃ (s u : State) (k : Packet) (c : Nat) (h : Side),
    takes s u k 0x0402 = true ∧
    sideTarget k.target.toNat = some (c, h) ∧
    (u.die k.die).sliceTest ((u.die k.die).sympSlice c h) = none ∧
    ((u.die k.die).rot c h).want ≠ 1 ∧
    ((u.die k.die).rot c h).phase = 0 ∧
    ((u.die k.die).rot c h).attached = false) ∧
  (∃ (s u : State) (k : Packet) (c : Nat) (h : Side) (pos : Nat),
    takes s u k 0x0403 = true ∧
    tapTarget k.target.toNat = some (c, h, pos, false) ∧
    k.w 4 < 2 ^ 22 ∧
    bits (k.w 4) 17 16 ≠ 3 ∧
    bits (k.w 4) 21 18 = 0 ∧
    (u.die k.die).sympDenied c h true = none ∧
    (u.die k.die).checking ((u.die k.die).serving c h pos) = false ∧
    (u.die k.die).hoReason c h pos false = 0 ∧
    (u.die k.die).peg.ops.length < 64) ∧
  (∃ (s u : State) (k : Packet) (c : Nat) (h : Side) (pos : Nat),
    takes s u k 0x0404 = true ∧
    tapTarget k.target.toNat = some (c, h, pos, false) ∧
    k.w 4 < 2 ^ 22 ∧
    bits (k.w 4) 17 16 ≠ 3 ∧
    k.w 5 < 256 ∧
    (u.die k.die).sympDenied c h true = none ∧
    (u.die k.die).checking ((u.die k.die).serving c h pos) = false ∧
    (u.die k.die).hoReason c h pos false = 0 ∧
    (u.die k.die).peg.ops.length < 64) ∧
  (∃ (s u : State) (k : Packet) (c : Nat) (h : Side) (pos : Nat) (tap : Bool),
    takes s u k 0x0501 = true ∧
    tapTarget k.target.toNat = some (c, h, pos, tap) ∧
    (u.die k.die).eyeBad k c h pos = false ∧
    (u.die k.die).startBad c h pos tap (bit (k.w 5) 16) (bits (k.w 4) 25 24) = false ∧
    (u.die k.die).tapDead c h pos tap = false ∧
    (u.die k.die).sympDenied c h false = none ∧
    (u.die k.die).halfDenied c h = none ∧
    (u.die k.die).peg.ops.length < 64) ∧
  (∃ (s u : State) (k : Packet) (c : Nat) (h : Side) (pos : Nat) (tap : Bool),
    takes s u k 0x0502 = true ∧
    k.w 4 % 4 = 0 ∧
    tapTarget k.target.toNat = some (c, h, pos, tap) ∧
    k.length.toNat = 8 ∧
    k.w 4 < 128 ∧
    capContent k ≠ 3 ∧
    capTrig k < 2 ∧
    0 < capLen k ∧
    capLen k ≤ 768 ∧
    capPre k ≤ capLen k ∧
    0 < k.w 6 ∧
    k.w 6 < 65536 ∧
    bit (k.w 4) 6 = false ∧
    (u.die k.die).tapDead c h pos tap = false ∧
    (u.die k.die).sympDenied c h false = none ∧
    (u.die k.die).halfDenied c h = none ∧
    (u.die k.die).peg.ops.length < 64) ∧
  (∃ (s u : State) (k : Packet) (c : Nat) (h : Side),
    takes s u k 0x0502 = true ∧
    k.w 4 = 1 ∧
    sideTarget k.target.toNat = some (c, h) ∧
    k.length.toNat = 6 ∧
    k.w 5 < 384 ∧
    (u.die k.die).halfDenied c h = none ∧
    (u.die k.die).workOp c h = none) :=
  ⟨⟨W.live, State.takeInbox W.live (W.packet 5 0 0x40000000 [0x4]) 0x0401, W.packet 5 0 0x40000000 [0x4], 0, .host, 0, false, by decide +kernel⟩,
   ⟨W.tapped, State.takeInbox W.tapped (W.packet 4 0 0 []) 0x0402, W.packet 4 0 0 [], 0, .host, by decide +kernel⟩,
   ⟨W.run, State.takeInbox W.run (W.packet 4 1 0x107 []) 0x0402, W.packet 4 1 0x107 [], 7, .line, by decide +kernel⟩,
   ⟨W.good, State.takeInbox W.good (W.packet 5 0 0x40000000 [0]) 0x0403, W.packet 5 0 0x40000000 [0], 0, .host, 0, by decide +kernel⟩,
   ⟨W.good, State.takeInbox W.good (W.packet 6 0 0x40000000 [0x40000, 255]) 0x0404, W.packet 6 0 0x40000000 [0x40000, 255], 0, .host, 0, by decide +kernel⟩,
   ⟨W.live, State.takeInbox W.live W.eyePacket 0x0501, W.eyePacket, 0, .host, 0, false, by decide +kernel⟩,
   ⟨W.live, State.takeInbox W.live (W.packet 8 0 0x40000000 [0, 0x03000300, 65535, 0]) 0x0502, W.packet 8 0 0x40000000 [0, 0x03000300, 65535, 0], 0, .host, 0, false, by decide +kernel⟩,
   ⟨W.run, State.takeInbox W.run (W.packet 6 1 0x107 [1, 383]) 0x0502, W.packet 6 1 0x107 [1, 383], 7, .line, by decide +kernel⟩⟩

theorem witness_RotationEvents :
  (∃ (s : State) (d : DieId) (c : CourseId) (side : Side) (n : Int),
    up s d = true ∧
    (s.die d).aligning c.val side = true ∧
    ((s.die d).rot c.val side).aligned = false ∧
    -256 ≤ n ∧
    n ≤ 255) ∧
  (∃ (s : State) (d : DieId) (c : CourseId) (side : Side) (_compared : Word),
    up s d = true ∧
    ((s.die d).rot c.val side).phase = 4) ∧
  (∃ (s : State) (d : DieId) (c : CourseId) (side : Side),
    up s d = true ∧
    ((s.die d).rot c.val side).phase = 2 ∧
    ((s.die d).slice ((s.die d).sympSlice c.val side)).converged = false ∧
    ((s.die d).rot c.val side).attachAt + ((s.die d).rot c.val side).convLim * 1024 ≤ s.stroke d) ∧
  (∃ (s : State) (d : DieId) (c : CourseId) (side : Side) (samples : List Byte) (o : Op),
    up s d = true ∧
    ((s.die d).rot c.val side).attached = true ∧
    ((s.die d).rot c.val side).owner = 4 ∧
    (s.die d).workOp c.val side = some o ∧
    o.data = [] ∧
    (s.die d).capFires c.val side o.packet samples = true ∧
    capBytes (capLen o.packet) ≤ ((s.die d).captured ((s.die d).sympSlice c.val side) (capContent o.packet) samples).length) ∧
  (∃ (s : State) (d : DieId) (c : CourseId) (side : Side) (samples : List Byte) (o : Op),
    up s d = true ∧
    ((s.die d).rot c.val side).attached = true ∧
    ((s.die d).rot c.val side).owner = 4 ∧
    (s.die d).workOp c.val side = some o ∧
    o.data = [] ∧
    (s.die d).capFires c.val side o.packet samples = true ∧
    ((s.die d).captured ((s.die d).sympSlice c.val side) (capContent o.packet) samples).length < capBytes (capLen o.packet)) ∧
  (∃ (_x : Die) (n : SliceId) (samples : List Byte) (i : Nat),
    taps n.val + i + 15 < samples.length) ∧
  (∃ (s : State) (d : DieId) (c : CourseId) (side : Side) (o : Op),
    up s d = true ∧
    ((s.die d).rot c.val side).attached = true ∧
    ((s.die d).rot c.val side).owner = 4 ∧
    (s.die d).workOp c.val side = some o ∧
    o.data = [] ∧
    capTrig o.packet ≠ 0 ∧
    ((s.die d).rot c.val side).attachAt + o.packet.w 6 ≤ s.stroke d) ∧
  (∃ (s : State) (d : DieId) (c : CourseId),
    up s d = true ∧
    (s.die d).brg.isolated = false ∧
    (s.die d).bistOn = true ∧
    fld ((s.die d).act (oBank c.val)) 0 0 = 1 ∧
    ((s.die d).course c.val).banks.stopped = false ∧
    ((s.die d).course c.val).banks.copying = false ∧
    ((s.die d).course c.val).banks.spare ≠ 7 ∧
    (s.die d).bankTest c.val = false ∧
    ((s.die d).course c.val).banks.lastRot + fld ((s.die d).act (oBank c.val)) 10 1 * 1024 ≤ s.stroke d) ∧
  (∃ (s : State) (d : DieId) (c : CourseId),
    up s d = true ∧
    (s.die d).bistOn = true ∧
    s.pos = 0 ∧
    ((s.die d).course c.val).banks.copying = true ∧
    ((s.die d).course c.val).banks.copyEnd < s.stroke d ∧
    ((s.die d).course c.val).banks.copied = bankSize) :=
  ⟨⟨W.ho 3, 0, 0, .host, -256, by decide +kernel⟩,
   ⟨W.ho 4, 0, 0, .host, 0xFFFFFFFF, by decide +kernel⟩,
   ⟨W.ho 2, 0, 0, .host, by decide +kernel⟩,
   ⟨W.cap, 0, 0, .host, List.replicate 127 0xAB, W.capOp, by decide +kernel⟩,
   ⟨W.cap, 0, 0, .host, List.replicate 80 0xAB, W.capOp, by decide +kernel⟩,
   ⟨{}, 8, List.replicate 80 0xAB, 16, by decide +kernel⟩,
   ⟨W.capAt 1, 0, 0, .host, { W.capOp with packet := W.packet 8 0 0x40000000 [16, 1, 0, 0] }, by decide +kernel⟩,
   ⟨W.run.onDie 1 (fun x => { x.setAct (oBank 7) 1 with stroke := { x.stroke with count := 1024 } }), 1, 7, by decide +kernel⟩,
   ⟨(W.run.setCourse 1 7 { ({} : Course) with banks := { ({} : Banks) with copying := true, copied := 16384, src := 0 } }).onDie 1 (fun x => { x with stroke := { x.stroke with count := 1 } }), 1, 7, by decide +kernel⟩⟩

theorem witness_TrainingEvents :
  (∃ (s : State) (p : PortId) (h : Side) (j : Pos) (f : StdFrame) (k : LaneKind),
    up s p.die = true ∧
    (s.port p).enabled = true ∧
    ((s.die p.die).segPos p.key h).contains j.val = true ∧
    (s.die p.die).framerTest p.key = false ∧
    f.ok = true ∧
    (s.die p.die).peerSeg p.key h = false ∧
    (s.die p.die).laneKind p.key h j.val = some k) ∧
  (∃ (s : State) (p : PortId) (h : Side) (j : Pos) (l : List (Fin 4)) (c w : BitVec 64) (k : LaneKind),
    up s p.die = true ∧
    (s.port p).enabled = true ∧
    ((s.die p.die).segPos p.key h).contains j.val = true ∧
    (s.die p.die).framerTest p.key = false ∧
    readFrame (l.map (·.val)) = some (c, w) ∧
    (peerFields c w).beaconVer ≠ 0 ∧
    (s.die p.die).peerSeg p.key h = true ∧
    (s.die p.die).laneKind p.key h j.val = some k) ∧
  (∃ (s : State) (p : PortId) (h : Side) (j : Pos) (f : RxFrame),
    up s p.die = true ∧
    (s.port p).enabled = true ∧
    ((s.die p.die).segPos p.key h).contains j.val = true ∧
    (s.die p.die).framerTest p.key = false ∧
    readRx f = none) ∧
  (∃ (s : State) (p : PortId) (h : Side) (j : Pos) (_a : Nat) (k : LaneKind),
    up s p.die = true ∧
    (s.port p).enabled = true ∧
    ((s.die p.die).segPos p.key h).contains j.val = true ∧
    ((s.port p).framer h j.val).locked = false ∧
    (if (s.die p.die).peerSeg p.key h then 3 else 1) ≤ ((s.port p).framer h j.val).valid ∧
    (s.die p.die).laneKind p.key h j.val = some k ∧
    ((s.die p.die).lane p.key h j.val k).state = 1) ∧
  (∃ (s : State) (p : PortId) (j : Pos) (_a : Nat),
    up s p.die = true ∧
    (s.port p).carrying = true ∧
    ((s.die p.die).segPos p.key .line).contains j.val = true ∧
    ((s.port p).framer .line j.val).locked = false ∧
    (if (s.die p.die).peerSeg p.key .line then 3 else 1) ≤ ((s.port p).framer .line j.val).valid ∧
    (s.die p.die).laneKind p.key .line j.val = none ∧
    hasGearbox ((s.die p.die).cfga p.key) = true ∧
    hasLattice ((s.die p.die).cfga p.key) = false ∧
    ((s.die p.die).portLine p.key).contains j.val = true ∧
    (((s.die p.die).course p.course.val).gbxLane j.val).phase = true) ∧
  (∃ (s : State) (p : PortId) (h : Side) (j : Pos) (k : LaneKind),
    up s p.die = true ∧
    (s.port p).enabled = true ∧
    ((s.port p).framer h j.val).locked = true ∧
    (if (s.die p.die).peerSeg p.key h then 4 else 1) ≤ ((s.port p).framer h j.val).bad ∧
    (s.die p.die).laneKind p.key h j.val = some k ∧
    ((s.die p.die).lane p.key h j.val k).flock = true ∧
    2 ≤ ((s.die p.die).lane p.key h j.val k).state ∧
    ((s.die p.die).lane p.key h j.val k).state ≤ 4) ∧
  (∃ (s : State) (p : PortId) (h : Side) (j : Pos) (k : LaneKind),
    up s p.die = true ∧
    (s.die p.die).laneKind p.key h j.val = some k ∧
    ((s.die p.die).lane p.key h j.val k).reqOpen = true ∧
    ((s.die p.die).lane p.key h j.val k).reqFrom + 1024 ≤ s.stroke p.die) ∧
  (∃ (s : State) (p : PortId) (h : Side) (j : Pos),
    up s p.die = true ∧
    (s.port p).carrying = true ∧
    ((s.die p.die).segPos p.key h).contains j.val = true ∧
    (s.die p.die).laneKind p.key h j.val = none ∧
    (s.die p.die).lockActs p.key h j.val = false ∧
    (if (s.die p.die).peerSeg p.key h then 3 else 1) ≤ ((s.port p).framer h j.val).valid ∧
    (match h with | .host => (s.port p).svcH | .line => (s.port p).svcL) = 0) ∧
  (∃ (s : State) (p : PortId) (h : Side) (j : Pos),
    up s p.die = true ∧
    (s.port p).carrying = true ∧
    ((s.die p.die).segPos p.key h).contains j.val = true ∧
    (s.die p.die).laneKind p.key h j.val = none ∧
    (s.die p.die).lockActs p.key h j.val = false ∧
    (if (s.die p.die).peerSeg p.key h then 3 else 1) ≤ ((s.port p).framer h j.val).valid ∧
    (match h with | .host => (s.port p).svcH | .line => (s.port p).svcL) ≠ 0 ∧
    bit (match h with | .host => (s.port p).svcH | .line => (s.port p).svcL) j.val = false) ∧
  (∃ (s : State) (p : PortId) (h : Side) (j : Pos) (k : LaneKind),
    up s p.die = true ∧
    (s.die p.die).laneKind p.key h j.val = some k ∧
    ((s.die p.die).lane p.key h j.val k).state = 5 ∧
    1 < ((s.die p.die).lane p.key h j.val k).count) ∧
  (∃ (s : State) (p : PortId) (h : Side) (j : Pos) (k : LaneKind),
    up s p.die = true ∧
    (s.die p.die).laneKind p.key h j.val = some k ∧
    ((s.die p.die).lane p.key h j.val k).state = 5 ∧
    ((s.die p.die).lane p.key h j.val k).count ≤ 1) :=
  ⟨⟨W.sess { state := 1 } { state := 1 }, ⟨0, 0, 0⟩, .host, 0, W.std, .session, by decide +kernel⟩,
   ⟨W.peer { state := 1 }, ⟨0, 0, 0⟩, .line, 0, W.beacon, 0x2A0001C10006, 0x400, .session, by decide +kernel⟩,
   ⟨W.sess { state := 1 } { state := 1 }, ⟨0, 0, 0⟩, .line, 0, .standard { W.std with ok := false }, by decide +kernel⟩,
   ⟨(W.sess { state := 1 } { state := 1 }).onPort ⟨0, 0, 0⟩ (fun v => v.setFramer .line 0 { ({} : Framer) with valid := 1 }), ⟨0, 0, 0⟩, .line, 0, 5, .session, by decide +kernel⟩,
   ⟨(W.gbx { phase := true }).onPort ⟨0, 0, 0⟩ (fun v => v.setFramer .line 0 { ({} : Framer) with valid := 3 }), ⟨0, 0, 0⟩, 0, 5, by decide +kernel⟩,
   ⟨(W.sess { state := 4, flock := true, rrTx := true } {}).onPort ⟨0, 0, 0⟩ (fun v => v.setFramer .host 0 { ({} : Framer) with locked := true, bad := 1 }), ⟨0, 0, 0⟩, .host, 0, .session, by decide +kernel⟩,
   ⟨(W.sess { state := 2, flock := true, reqOpen := true } {}).onDie 0 (fun x => { x with stroke := { x.stroke with count := 1024 } }), ⟨0, 0, 0⟩, .host, 0, .session, by decide +kernel⟩,
   ⟨W.live.onPort ⟨0, 0, 0⟩ (fun v => v.setFramer .line 0 { ({} : Framer) with valid := 3 }), ⟨0, 0, 0⟩, .line, 0, by decide +kernel⟩,
   ⟨W.live.onPort ⟨0, 0, 0⟩ (fun v => { v.setFramer .line 0 { ({} : Framer) with valid := 3 } with svcL := 2 }), ⟨0, 0, 0⟩, .line, 0, by decide +kernel⟩,
   ⟨W.sess { state := 5, flock := true, count := 1 } { state := 5, count := 17 }, ⟨0, 0, 0⟩, .line, 0, .session, by decide +kernel⟩,
   ⟨W.sess { state := 5, flock := true, count := 1 } { state := 5, count := 17 }, ⟨0, 0, 0⟩, .host, 0, .session, by decide +kernel⟩⟩

theorem witness_TrainingSessions :
  (∃ (s : State) (d : DieId),
    up s d = true ∧
    (s.die d).trainRuns = true ∧
    s.fretOpen d 17 20 = true ∧
    (s.die d).engineOrder = [] ∧
    (∀ i : PortIx, ∀ c : CourseId, ((s.die d).port (8 * c.val + i.val)).enabled = false)) ∧
  (∃ (s : State) (p : PortId) (i j : Nat) (a b : LaneSess),
    up s p.die = true ∧
    (s.die p.die).trainRuns = true ∧
    s.fretOpen p.die 17 20 = true ∧
    (s.die p.die).stroke.trainCut = 0 ∧
    (s.port p).enabled = true ∧
    (s.port p).sess = true ∧
    (∀ i : PortIx, ∀ c : CourseId, 8 * c.val + i.val ≠ p.key → ((s.die p.die).port (8 * c.val + i.val)).enabled = false) ∧
    (s.die p.die).segPos p.key .host = [i] ∧
    (s.die p.die).segPos p.key .line = [j] ∧
    (s.port p).hlanes = [(i, a)] ∧
    (s.port p).llanes = [(j, b)] ∧
    hasLattice ((s.die p.die).cfga p.key) = false ∧
    hasGearbox ((s.die p.die).cfga p.key) = false ∧
    fld ((s.die p.die).trnCfg p.key) 3 3 = 0 ∧
    bit (s.port p).modes 0 = false ∧
    a.state = 3 ∧ a.rrRx = true ∧ a.fresh = false ∧
    b.state = 3 ∧ b.rrRx = true ∧ b.fresh = false ∧
    (s.die p.die).laneConv p.key .host i = true ∧
    (s.die p.die).laneConv p.key .line j = true) ∧
  (∃ (s : State) (p : PortId),
    up s p.die = true ∧
    (s.port p).sess = true ∧
    (s.port p).begun + (s.die p.die).budget p.key ≤ s.stroke p.die + 1 ∧
    (s.die p.die).budgetReason p.key ≠ 0) ∧
  (∃ (s : State) (p : PortId),
    (s.port p).state = 3 ∧
    (s.port p).hostPres = true ∧ (s.port p).linePres = true ∧
    (s.port p).abort = 0 ∧ (s.port p).ready = false ∧
    (s.port p).begun + (s.die p.die).budget p.key ≤ s.stroke p.die ∧
    (s.die p.die).budgetReason p.key ≠ 0) ∧
  (∃ (s u : State) (k : Packet) (p : PortId),
    takesPort s u k 0x0301 p = true ∧
    (u.port p).state = 2 ∧
    (u.die p.die).busy 3 p.key = false ∧
    (u.die p.die).overridden p.key = false ∧
    (u.die p.die).holds p.key = false ∧
    (u.die k.die).peg.ops.length < 64) ∧
  (∃ (s u : State) (k : Packet) (p : PortId),
    takesPort s u k 0x0301 p = true ∧
    3 ≤ (u.port p).state ∧
    (u.port p).state < 6) ∧
  (∃ (s u : State) (k : Packet) (p : PortId),
    takesPort s u k 0x0302 p = true ∧
    k.w 4 ≤ 1 ∧
    (u.port p).sess = true) ∧
  (∃ (s u : State) (k : Packet) (p : PortId),
    takesPort s u k 0x0303 p = true) :=
  ⟨⟨W.run, 1, by decide +kernel⟩,
   ⟨(W.sess { state := 3, flock := true, rrRx := true } { state := 3, flock := true, rrRx := true }).onDie 0 (fun x => (x.setSlice 0 { x.slice 0 with converged := true }).setSlice 72 { x.slice 72 with converged := true }), ⟨0, 0, 0⟩, 0, 0, { state := 3, flock := true, rrRx := true }, { state := 3, flock := true, rrRx := true }, by decide +kernel⟩,
   ⟨(W.sess { state := 4 } { state := 1 }).onDie 0 (fun x => { x with stroke := { x.stroke with count := 97656 } }), ⟨0, 0, 0⟩, by decide +kernel⟩,
   ⟨(W.sess { state := 4 } { state := 1 }).onDie 0 (fun x => { x.setPort 0 { x.port 0 with hostPres := true, linePres := true } with stroke := { x.stroke with count := 97657 } }), ⟨0, 0, 0⟩, by decide +kernel⟩,
   ⟨W.live.setPort ⟨0, 0, 0⟩ { ({} : Port) with state := 2 }, State.takeInbox (W.live.setPort ⟨0, 0, 0⟩ { ({} : Port) with state := 2 }) (W.packet 4 0 0 []) 0x0301, W.packet 4 0 0 [], ⟨0, 0, 0⟩, by decide +kernel⟩,
   ⟨W.live, State.takeInbox (W.live) (W.packet 4 0 0 []) 0x0301, W.packet 4 0 0 [], ⟨0, 0, 0⟩, by decide +kernel⟩,
   ⟨W.sess { state := 1 } { state := 1 }, State.takeInbox (W.sess { state := 1 } { state := 1 }) (W.packet 5 0 0 [1]) 0x0302, W.packet 5 0 0 [1], ⟨0, 0, 0⟩, by decide +kernel⟩,
   ⟨W.live, State.takeInbox (W.live) (W.packet 4 0 0 []) 0x0303, W.packet 4 0 0 [], ⟨0, 0, 0⟩, by decide +kernel⟩⟩

theorem witness_Datapath :
  (∃ (s : State) (p : PortId) (h : Side) (skew : Nat),
    up s p.die = true ∧
    (s.port p).carrying = true ∧
    hasFec ((s.die p.die).cfga p.key) = true ∧
    ((s.port p).dir h).fecLock = false ∧
    ((s.port p).dir h).bypass = (dpath ((s.die p.die).cfga p.key) == 2 && decide (20 < skew))) ∧
  (∃ (s : State) (p : PortId) (h : Side) (skew : Nat),
    up s p.die = true ∧
    (s.port p).carrying = true ∧
    hasFec ((s.die p.die).cfga p.key) = true ∧
    ((s.port p).dir h).fecLock = false ∧
    ((s.port p).dir h).bypass = false ∧
    dpath ((s.die p.die).cfga p.key) = 2 ∧
    20 < skew) ∧
  (∃ (s : State) (p : PortId) (h : Side) (_skew : Nat),
    up s p.die = true ∧
    (s.port p).carrying = true ∧
    hasFec ((s.die p.die).cfga p.key) = true ∧
    ((s.port p).dir h).fecLock = true) ∧
  (∃ (s : State) (p : PortId) (h : Side) (e : Nat),
    up s p.die = true ∧
    fld ((s.die p.die).act (oDp p.course.val p.idx.val)) 5 5 = 1 ∧
    fld ((s.die p.die).act (oDp p.course.val p.idx.val)) 4 0 = e ∧
    hasFec ((s.die p.die).cfga p.key) = true ∧
    s.stroke p.die % 1024 = 0 ∧
    s.stroke p.die ≠ ((s.port p).dir h).degAt ∧
    ((s.port p).dir h).degWhole = true ∧
    ((s.port p).dir h).deg = false ∧
    2 ^ e ≤ ((s.port p).dir h).degCount) ∧
  (∃ (s : State) (p : PortId) (h : Side) (j : Fin 8) (headers : List (BitVec 2)),
    up s p.die = true ∧
    (s.port p).enabled = true ∧
    hasBlocks ((s.die p.die).cfga p.key) = true ∧
    ((s.die p.die).portHost p.key).contains j.val = true ∧
    bit ((s.port p).dir h).block j.val = false ∧
    headers.length = 64 ∧
    (∀ q ∈ headers, q = 1 ∨ q = 2)) ∧
  (∃ (s : State) (p : PortId) (h : Side) (j : Fin 8) (headers : List (BitVec 2)),
    up s p.die = true ∧
    (s.port p).enabled = true ∧
    hasBlocks ((s.die p.die).cfga p.key) = true ∧
    ((s.die p.die).portHost p.key).contains j.val = true ∧
    bit ((s.port p).dir h).block j.val = true ∧
    headers.length ≤ 64 ∧
    (headers.filter (fun q => q == 0 || q == 3)).length = 16 ∧
    (headers.getLast? = some 0 ∨ headers.getLast? = some 3)) ∧
  (∃ (s : State) (d : DieId) (c : CourseId) (k : Fin 4) (fill : BitVec 9) (n : Nat),
    up s d = true ∧
    (s.die d).gbxPort c.val k.val = some n ∧
    ((s.die d).port n).carrying = true ∧
    (((s.die d).course c.val).gbxLane k.val).slip = false ∧
    (fill = 0 ∨ fill = 511)) ∧
  (∃ (s : State) (d : DieId) (c : CourseId) (k : Fin 4) (n : Nat),
    up s d = true ∧
    (s.die d).gbxPort c.val k.val = some n ∧
    ((s.die d).port n).carrying = true ∧
    (((s.die d).course c.val).gbxLane k.val).phase = false ∧
    (((s.die d).course c.val).gbxLane k.val).phses = false ∧
    (s.die d).lineLocked c.val k.val = true ∧
    (hasLattice ((s.die d).cfga n) = false ∨ ((s.die d).course c.val).lat.protects = false)) ∧
  (∃ (s : State) (d : DieId) (c : CourseId) (k _last : Fin 4) (n : Nat),
    up s d = true ∧
    (s.die d).gbxPort c.val k.val = some n ∧
    (((s.die d).course c.val).gbxLane k.val).phses = true ∧
    (((s.die d).course c.val).gbxLane k.val).lane.state = 6 ∧
    (((s.die d).course c.val).gbxLane k.val).lane.doneTx = true ∧
    (((s.die d).course c.val).gbxLane k.val).lane.doneRx = true) ∧
  (∃ (s : State) (d : DieId) (c : CourseId) (k : Fin 4) (n : Nat),
    up s d = true ∧
    (s.die d).gbxPort c.val k.val = some n ∧
    (((s.die d).course c.val).gbxLane k.val).phses = true ∧
    (((s.die d).course c.val).gbxLane k.val).lane.state < 5 ∧
    (((s.die d).course c.val).gbxLane k.val).sessAt + (s.die d).budget n ≤ s.stroke d) :=
  ⟨⟨W.port 0x0200, ⟨0, 0, 0⟩, .line, 9, by decide +kernel⟩,
   ⟨W.port 0x0400, ⟨0, 0, 0⟩, .host, 21, by decide +kernel⟩,
   ⟨(W.port 0x0200).setPort ⟨0, 0, 0⟩ { ({} : Port) with state := 4, h2l := { ({} : DirSt) with fecLock := true } }, ⟨0, 0, 0⟩, .host, 0, by decide +kernel⟩,
   ⟨((W.port 0x0200).onDie 0 (fun x => { x.setAct (oDp 0 0) 0x0023 with stroke := { x.stroke with count := 1024 } })).setPort ⟨0, 0, 0⟩ { ({} : Port) with state := 4, h2l := { ({} : DirSt) with degCount := 8 } }, ⟨0, 0, 0⟩, .host, 3, by decide +kernel⟩,
   ⟨W.port 0x0260, ⟨0, 0, 0⟩, .host, 0, List.replicate 64 1, by decide +kernel⟩,
   ⟨(W.port 0x0260).setPort ⟨0, 0, 0⟩ { ({} : Port) with state := 4, h2l := { ({} : DirSt) with block := 1 } }, ⟨0, 0, 0⟩, .host, 0, List.replicate 16 3, by decide +kernel⟩,
   ⟨W.gbx {}, 0, 0, 0, 511, 0, by decide +kernel⟩,
   ⟨(W.gbx {}).onDie 0 (fun x => x.setSlice 72 { x.slice 72 with locked := true }), 0, 0, 0, 0, by decide +kernel⟩,
   ⟨W.gbx { phses := true, lostAt := some 0, lane := { ({} : LaneSess) with state := 6, doneTx := true, doneRx := true } }, 0, 0, 0, 3, 0, by decide +kernel⟩,
   ⟨(W.gbx { phses := true, lane := { ({} : LaneSess) with state := 4 } }).onDie 0 (fun x => { x with stroke := { x.stroke with count := 97657 } }), 0, 0, 0, 0, by decide +kernel⟩⟩

theorem witness_LatticeEvents :
  (∃ (s : State) (d : DieId) (c : CourseId) (slots : List Slot),
    up s d = true ∧
    (s.die d).latOn c.val = true ∧
    ((s.die d).course c.val).lat.state = 2 ∧
    (slots.filter (fun q => !q.service && (decide (((s.die d).course c.val).lat.changed + 4 ≤ s.stroke d) || !q.rebuilt) && xorValues (q.values.map (·.val)) != 0)).length ≤ 64 ∧
    ((s.die d).latLanes c.val).all ((s.die d).lineLocked c.val) = true) ∧
  (∃ (s : State) (d : DieId) (c : CourseId) (slots : List Slot),
    up s d = true ∧
    (s.die d).latOn c.val = true ∧
    ((s.die d).course c.val).lat.state = 3 ∧
    8192 < (slots.filter (fun q => !q.service && (decide (((s.die d).course c.val).lat.changed + 4 ≤ s.stroke d) || !q.rebuilt) && xorValues (q.values.map (·.val)) != 0)).length) ∧
  (∃ (s : State) (d : DieId) (c : CourseId) (slots : List Slot),
    up s d = true ∧
    (s.die d).latOn c.val = true ∧
    ((s.die d).course c.val).lat.state = 3 ∧
    (slots.filter (fun q => !q.service && (decide (((s.die d).course c.val).lat.changed + 4 ≤ s.stroke d) || !q.rebuilt) && xorValues (q.values.map (·.val)) != 0)).length ≤ 8192) ∧
  (∃ (s : State) (d : DieId) (c : CourseId) (j : Pos) (tr : Fin 3) (words : List (List Int)),
    up s d = true ∧
    (s.die d).latOn c.val = true ∧
    ((s.die d).latLanes c.val).contains j.val = true ∧
    (tr = 0 → (s.die d).latDet c.val ≤ words.length ∧ ∀ w ∈ words, w ≠ [] ∧ badWord (fld ((s.die d).act (oLat c.val)) 9 4) ((s.die d).slice ((s.die d).serving c.val .line j.val)).mean w = true) ∧
    (tr = 1 → (s.die d).lineLocked c.val j.val = false) ∧
    (tr = 2 → (((s.die d).port ((s.die d).latKey c.val)).framer .line j.val).locked = true) ∧
    j.val ≠ 8 ∧
    ((s.die d).course c.val).lat.state = 3) ∧
  (∃ (s : State) (d : DieId) (c : CourseId) (j : Pos) (tr : Fin 3) (words : List (List Int)),
    up s d = true ∧
    (s.die d).latOn c.val = true ∧
    ((s.die d).latLanes c.val).contains j.val = true ∧
    (tr = 0 → (s.die d).latDet c.val ≤ words.length ∧ ∀ w ∈ words, w ≠ [] ∧ badWord (fld ((s.die d).act (oLat c.val)) 9 4) ((s.die d).slice ((s.die d).serving c.val .line j.val)).mean w = true) ∧
    (tr = 1 → (s.die d).lineLocked c.val j.val = false) ∧
    (tr = 2 → (((s.die d).port ((s.die d).latKey c.val)).framer .line j.val).locked = true) ∧
    4 ≤ ((s.die d).course c.val).lat.state ∧
    ((s.die d).course c.val).lat.state ≤ 6 ∧
    j.val ≠ ((s.die d).course c.val).lat.pos) ∧
  (∃ (s : State) (d : DieId) (c : CourseId) (tr : Fin 3) (words : List (List Int)),
    up s d = true ∧
    (s.die d).latOn c.val = true ∧
    (tr = 0 → (s.die d).latDet c.val ≤ words.length ∧ ∀ w ∈ words, w ≠ [] ∧ badWord (fld ((s.die d).act (oLat c.val)) 9 4) ((s.die d).slice ((s.die d).serving c.val .line 8)).mean w = true) ∧
    (tr = 1 → (s.die d).lineLocked c.val 8 = false) ∧
    (tr = 2 → (((s.die d).port ((s.die d).latKey c.val)).framer .line 8).locked = true) ∧
    ((s.die d).course c.val).lat.state = 3) ∧
  (∃ (s : State) (d : DieId) (c : CourseId),
    up s d = true ∧
    ((s.die d).course c.val).lat.state = 4 ∧
    ((s.die d).course c.val).lat.trigger = 0 ∧
    ((s.die d).course c.val).lat.announced = false ∧
    ((s.die d).course c.val).lat.txFrames = false ∧
    (s.die d).lineLocked c.val ((s.die d).course c.val).lat.pos = true ∧
    ((s.die d).course c.val).lat.failedAt + 2 ≤ s.stroke d) ∧
  (∃ (s : State) (d : DieId) (c : CourseId),
    up s d = true ∧
    (s.die d).latOn c.val = true ∧
    fld ((s.die d).act (oLat c.val)) 10 10 = 1 ∧
    ((s.die d).course c.val).lat.awaits = true ∧
    ((s.die d).course c.val).lat.announced = false ∧
    ((s.die d).course c.val).lat.txFrames = false ∧
    ((s.die d).course c.val).lat.byAgreement (s.stroke d) ((s.die d).lineLocked c.val ((s.die d).course c.val).lat.pos) = false ∧
    ((s.die d).slice ((s.die d).serving c.val .line ((s.die d).course c.val).lat.pos)).sd = true ∧
    64 ≤ ((s.die d).slice ((s.die d).serving c.val .line ((s.die d).course c.val).lat.pos)).sdStrokes) ∧
  (∃ (s : State) (d : DieId) (c : CourseId) (l : List (List (Fin 4))) (j : Nat),
    up s d = true ∧
    (s.die d).latOn c.val = true ∧
    (((s.die d).course c.val).lat.state = 2 ∨ ((s.die d).course c.val).lat.state = 3 ∨ ((s.die d).course c.val).lat.state = 7) ∧
    ((s.die d).course c.val).lat.announced = false ∧
    ((s.die d).course c.val).lat.sess = false ∧
    svcAccept (l.map (fun q => serviceOf (q.map (·.val)))) = some j ∧
    ((s.die d).latLanes c.val).contains j = true) ∧
  (∃ (s : State) (d : DieId) (c : CourseId),
    up s d = true ∧
    (s.die d).latOn c.val = true ∧
    ((s.die d).course c.val).lat.announced = true) ∧
  (∃ (s : State) (d : DieId) (c : CourseId) (_last : Fin 4),
    up s d = true ∧
    ((s.die d).course c.val).lat.sess = true ∧
    ((s.die d).course c.val).lat.lane.state = 6 ∧
    ((s.die d).course c.val).lat.lane.doneTx = true ∧
    ((s.die d).course c.val).lat.lane.doneRx = true ∧
    ((s.die d).course c.val).lat.state = 5) ∧
  (∃ (s : State) (d : DieId) (c : CourseId) (n : Nat),
    up s d = true ∧
    (s.die d).latOn c.val = true ∧
    ((s.die d).course c.val).lat.state = 6 ∧
    ((s.die d).course c.val).lat.found = true ∧
    2 ^ 20 ≤ ((s.die d).course c.val).lat.agree + n) ∧
  (∃ (s : State) (o : AgreeObs) (n : Int),
    ((s.die o.die).course o.course.val).lat.state = 6 ∧
    ((s.die o.die).course o.course.val).lat.found = false ∧
    o.found = some n ∧
    -1024 ≤ n ∧ n ≤ 1023 ∧
    (hasGearbox ((s.die o.die).cfga ((s.die o.die).latKey o.course.val)) = true → n % 2 = 0) ∧
    0 ≤ (((((s.die o.die).course o.course.val).lat.ofs[((s.die o.die).course o.course.val).lat.pos]?).getD 0 : Nat) : Int) + n) ∧
  (∃ (s : State) (o : AgreeObs),
    ((s.die o.die).course o.course.val).lat.state = 6 ∧
    ((s.die o.die).course o.course.val).lat.found = true ∧
    o.broke = true) ∧
  (∃ (s : State) (d : DieId) (c : CourseId),
    up s d = true ∧
    ((s.die d).course c.val).lat.sess = true ∧
    ((s.die d).course c.val).lat.lane.state < 5 ∧
    ((s.die d).course c.val).lat.state = 5 ∧
    ((s.die d).course c.val).lat.sessFrom + (s.die d).budget ((s.die d).latKey c.val) ≤ s.stroke d) ∧
  (∃ (s : State) (d : DieId) (c : CourseId) (a b : Pos) (_bad : Bool),
    up s d = true ∧
    (s.die d).latOn c.val = true ∧
    ((s.die d).course c.val).lat.state = 3 ∧
    a ≠ b) ∧
  (∃ (s : State) (d : DieId) (c : CourseId) (_bad : Bool),
    up s d = true ∧
    (s.die d).latOn c.val = true ∧
    ((s.die d).course c.val).lat.disarm = true ∧
    ((s.die d).course c.val).lat.state ≠ 7) :=
  ⟨⟨W.latLocked { state := 2 }, 0, 0, List.replicate 64 { values := [1, 2], service := false, rebuilt := false } ++ List.replicate 9 { values := [3, 3], service := false, rebuilt := false } ++ List.replicate 9 { values := [3, 0], service := true, rebuilt := false }, by decide +kernel⟩,
   ⟨W.latLocked { state := 3 }, 0, 0, List.replicate 8193 { values := [1, 2], service := false, rebuilt := false } ++ List.replicate 9 { values := [3, 3], service := false, rebuilt := false } ++ List.replicate 9 { values := [3, 0], service := true, rebuilt := false }, by decide +kernel⟩,
   ⟨W.latLocked { state := 3 }, 0, 0, List.replicate 80 { values := [1, 2], service := false, rebuilt := false } ++ List.replicate 9 { values := [3, 3], service := false, rebuilt := false } ++ List.replicate 9 { values := [3, 0], service := true, rebuilt := false }, by decide +kernel⟩,
   ⟨W.latLocked { state := 3 }, 0, 0, 0, 0, List.replicate 20 (List.replicate 64 500), by decide +kernel⟩,
   ⟨W.lat { state := 6, pos := 0 }, 0, 0, 8, 1, [], by decide +kernel⟩,
   ⟨W.lat { state := 3 }, 0, 0, 1, [], by decide +kernel⟩,
   ⟨(W.latLocked { state := 4, pos := 0 }).onDie 0 (fun x => { x with stroke := { x.stroke with count := 2 } }), 0, 0, by decide +kernel⟩,
   ⟨(W.lat { state := 4, pos := 0, trigger := 1 }).onDie 0 (fun x => (x.setAct (oLat 0) 0x0400).setSlice 72 { x.slice 72 with sd := true, sdStrokes := 64 }), 0, 0, by decide +kernel⟩,
   ⟨W.lat { state := 3 }, 0, 0, (List.range 4).map (fun m => (List.range 16).map (fun i => Fin.ofNat 4 (serviceSlot 0 (serviceValue 2 (if m = 3 then 9 else m)) i))), 2, by decide +kernel⟩,
   ⟨W.lat { state := 4, pos := 0, announced := true, ann := 0 }, 0, 0, by decide +kernel⟩,
   ⟨W.lat { state := 5, pos := 0, spos := 0, sess := true, lane := { ({} : LaneSess) with state := 6, doneTx := true, doneRx := true } }, 0, 0, 2, by decide +kernel⟩,
   ⟨W.lat { state := 6, pos := 8, found := true, agree := 5 }, 0, 0, 0x100000, by decide +kernel⟩,
   ⟨W.lat { state := 6, pos := 0 }, { die := 0, course := 0, found := some 1023, broke := false, run := 1024 }, 1023, by decide +kernel⟩,
   ⟨W.lat { state := 6, pos := 0, found := true, agree := 7 }, { die := 0, course := 0, found := none, broke := true, run := 3 }, by decide +kernel⟩,
   ⟨(W.lat { state := 5, pos := 0, spos := 0, sess := true, txFrames := true, lane := { ({} : LaneSess) with state := 2 } }).onDie 0 (fun x => { x with stroke := { x.stroke with count := 97657 } }), 0, 0, by decide +kernel⟩,
   ⟨W.lat { state := 3 }, 0, 0, 0, 8, true, by decide +kernel⟩,
   ⟨W.lat { state := 3, disarm := true }, 0, 0, false, by decide +kernel⟩⟩

theorem witness_LatticeCommands :
  (∃ (s u : State) (k : Packet) (p : PortId),
    takesPort s u k 0x0601 p = true ∧
    k.w 4 = 0 ∧
    hasLattice ((u.die p.die).cfga p.key) = true ∧
    (u.die p.die).latKey p.course.val = p.key ∧
    2 ≤ ((u.die p.die).course p.course.val).lat.state ∧
    ((u.die p.die).course p.course.val).lat.state ≠ 7) ∧
  (∃ (s u : State) (k : Packet) (p : PortId),
    takesPort s u k 0x0601 p = true ∧
    k.w 4 = 1 ∧
    hasLattice ((u.die p.die).cfga p.key) = true ∧
    (u.port p).carrying = true ∧
    ((u.die p.die).course p.course.val).lat.state = 7 ∧
    ((u.die p.die).course p.course.val).lat.dreason ≠ 3) ∧
  (∃ (s u : State) (k : Packet) (p : PortId),
    takesPort s u k 0x0601 p = true ∧
    k.w 4 = 2 + 16 * ((u.die p.die).course p.course.val).lat.pos ∧
    hasLattice ((u.die p.die).cfga p.key) = true ∧
    ((u.die p.die).course p.course.val).lat.pos < 16 ∧
    ((u.die p.die).course p.course.val).lat.awaits = true ∧
    ((u.die p.die).course p.course.val).lat.announced = false) ∧
  (∃ (s u : State) (k : Packet) (p : PortId),
    takesPort s u k 0x0602 p = true ∧
    hasLattice ((u.die p.die).cfga p.key) = true) ∧
  (∃ (s u : State) (k : Packet) (p : PortId),
    takesPort s u k 0x0602 p = true ∧
    hasLattice ((u.die p.die).cfga p.key) = false) :=
  ⟨⟨W.lat { state := 3 }, State.takeInbox (W.lat { state := 3 }) (W.packet 5 0 0 [0]) 0x0601, W.packet 5 0 0 [0], ⟨0, 0, 0⟩, by decide +kernel⟩,
   ⟨W.lat { state := 7, dreason := 2 }, State.takeInbox (W.lat { state := 7, dreason := 2 }) (W.packet 5 0 0 [1]) 0x0601, W.packet 5 0 0 [1], ⟨0, 0, 0⟩, by decide +kernel⟩,
   ⟨W.lat { state := 4, pos := 0 }, State.takeInbox (W.lat { state := 4, pos := 0 }) (W.packet 5 0 0 [2]) 0x0601, W.packet 5 0 0 [2], ⟨0, 0, 0⟩, by decide +kernel⟩,
   ⟨W.lat { state := 3 }, State.takeInbox (W.lat { state := 3 }) (W.packet 4 0 0 []) 0x0602, W.packet 4 0 0 [], ⟨0, 0, 0⟩, by decide +kernel⟩,
   ⟨W.live, State.takeInbox (W.live) (W.packet 4 0 0 []) 0x0602, W.packet 4 0 0 [], ⟨0, 0, 0⟩, by decide +kernel⟩⟩

theorem witness_Qualification :
  (∃ (s : State) (d : DieId) (o : QualObs),
    present s.part d = true ∧
    s.phase ≠ 0 ∧
    (s.die d).clk.spReady = true ∧
    (s.die d).refTest = none ∧
    o.aToggles = true ∧ o.aPlaus = true ∧
    o.bToggles = true ∧ o.bPlaus = true ∧
    o.agree = true) ∧
  (∃ (s : State) (d : DieId) (o : QualObs),
    present s.part d = true ∧
    s.phase ≠ 0 ∧
    (s.die d).clk.spReady = true ∧
    (s.die d).refTest = none ∧
    o.aToggles = true ∧ o.aPlaus = true ∧
    o.bToggles = true ∧ o.bPlaus = true ∧
    o.agree = false ∧
    (s.die d).clk.inUse 0 = true ∧
    (s.die d).clk.aReady = true) ∧
  (∃ (s : State) (d : DieId) (r : Ref) (stopped : Bool),
    up s d = true ∧
    (s.die d).clk.laneUse = refNum r ∧
    (s.die d).clk.sysUse ≠ refNum r ∧
    (stopped = true ∨ ((s.die d).clk.spReady = true ∧ (s.die d).refTest = none))) ∧
  (∃ (s : State) (d : DieId) (r : Ref) (stopped : Bool),
    up s d = true ∧
    (s.die d).clk.sysUse = refNum r ∧
    (s.die d).clk.laneUse ≠ refNum r ∧
    (s.die d).clk.failing = false ∧
    (s.die d).clk.restart = false ∧
    (stopped = true ∨ ((s.die d).clk.spReady = true ∧ (s.die d).refTest = none))) ∧
  (∃ (s : State) (d : DieId) (r : Ref) (stopped : Bool),
    up s d = true ∧
    (s.die d).clk.sysUse = refNum r ∧
    (s.die d).clk.failing = false ∧
    (s.die d).clk.restart = true ∧
    stopped = true) ∧
  (∃ (s : State) (d : DieId),
    up s d = true ∧
    (s.die d).clk.defer = true ∧
    (s.die d).clk.spReady = false ∧
    (s.die d).clk.deferAt + 25000 ≤ s.stamp d) ∧
  (∃ (s : State) (d : DieId) (stopped : Bool) (_e : Byte),
    up s d = true ∧
    (s.die d).clk.spReady = true ∧
    (stopped = true ∨ (s.die d).clk.aReady = true ∨ (s.die d).clk.bReady = true)) ∧
  (∃ (s : State) (d : DieId) (_e : Byte),
    up s d = true ∧
    (s.die d).clk.spReady = false ∧
    (s.die d).clk.restart = true) :=
  ⟨⟨W.clk (fun v => { v with spReady := true, aPass := 3 }), 0, ⟨true, true, true, true, true, false, 5, 6⟩, by decide +kernel⟩,
   ⟨W.clk (fun v => { v with spReady := true, aReady := true, bReady := true, sysUse := 0, laneUse := 0 }), 0, ⟨true, true, true, true, false, true, 5, 6⟩, by decide +kernel⟩,
   ⟨W.clk (fun v => { v with sysUse := 0, laneUse := 1, bReady := true }), 0, .b, true, by decide +kernel⟩,
   ⟨W.clk (fun v => { v with sysUse := 0, laneUse := 1, aReady := true, spReady := true }), 0, .a, false, by decide +kernel⟩,
   ⟨W.clk (fun v => { v with sysUse := 0, laneUse := 0, aReady := true, restart := true }), 0, .a, true, by decide +kernel⟩,
   ⟨W.at 98 (W.clk (fun v => { v with sysUse := 3, defer := true })), 0, by decide +kernel⟩,
   ⟨W.clk (fun v => { v with spReady := true }), 0, true, 0, by decide +kernel⟩,
   ⟨W.clk (fun v => { v with restart := true }), 0, 0, by decide +kernel⟩⟩

theorem witness_ClockChanges :
  (∃ (s : State) (d : DieId),
    up s d = true ∧
    (s.die d).clk.inHold = true ∧
    (s.die d).clk.aged = false ∧
    (s.die d).clk.holdFrom + 9765625 ≤ s.stroke d) ∧
  (∃ (s : State) (d : DieId),
    up s d = true ∧
    fld ((s.die d).act oClkCfg) 3 3 = 1 ∧
    (s.die d).clk.sysUse = 2 ∧
    (s.die d).clk.sysPend = none ∧
    (s.die d).sysSrc < 2 ∧
    (s.die d).returnDue (s.die d).sysSrc (s.stroke d) = true) ∧
  (∃ (s : State) (d : DieId),
    up s d = true ∧
    fld ((s.die d).act oClkCfg) 3 3 = 1 ∧
    (s.die d).clk.laneUse = 3 ∧
    (s.die d).returnDue (s.die d).laneSrc (s.stroke d) = true) ∧
  (∃ (s : State) (d : DieId) (r : Nat),
    up s d = true ∧
    (s.die d).clk.sysPend = some r ∧
    r < 2) ∧
  (∃ (s : State) (d : DieId) (r : Nat),
    up s d = true ∧
    (s.die d).clk.lanePend = some r) ∧
  (∃ (s : State) (d : DieId) (c : CourseId),
    up s d = true ∧
    (s.die d).clk.laneUse < 2 ∧
    (((s.die d).course c.val).pllH = false ∨ ((s.die d).course c.val).pllL = false)) ∧
  (∃ (s : State) (d : DieId) (c : CourseId) (h : Side),
    up s d = true ∧
    ((s.die d).course c.val).hold = false ∧
    (match h with | .host => ((s.die d).course c.val).pllH | .line => ((s.die d).course c.val).pllL) = true) ∧
  (∃ (s : State) (d : DieId) (l : Fin 5) (n : Byte),
    up s d = true ∧
    nodeOk d l.val n.toNat = true ∧
    (s.die d).gated l.val n.toNat = true) :=
  ⟨⟨W.at 9765625 (W.clk (fun v => { v with inHold := true })), 0, by decide +kernel⟩,
   ⟨(W.clk (fun v => { v with aReady := true, sysUse := 2 })).onDie 0 (fun x => x.setAct oClkCfg 0x0008), 0, by decide +kernel⟩,
   ⟨(W.clk (fun v => { v with bReady := true, laneUse := 3 })).onDie 0 (fun x => x.setAct oClkCfg 0x000C), 0, by decide +kernel⟩,
   ⟨W.clk (fun v => { v with sysUse := 0, sysPend := some 1 }), 0, 1, by decide +kernel⟩,
   ⟨W.clk (fun v => { v with laneUse := 0, lanePend := some 1 }), 0, 1, by decide +kernel⟩,
   ⟨(W.clk (fun v => { v with laneUse := 1 })).onDie 0 (fun x => x.setCourse 7 { x.course 7 with pllH := false }), 0, 7, by decide +kernel⟩,
   ⟨W.run.onDie 0 (fun x => x.setCourse 7 { x.course 7 with pllH := true, pllL := true }), 0, 7, .line, by decide +kernel⟩,
   ⟨W.clk (fun v => { v with gSlice := [151] }), 0, 3, 151, by decide +kernel⟩⟩

theorem witness_ClockCommands :
  (∃ (s u : State) (k : Packet),
    takes0 s u k 0x0701 = true ∧
    k.w 4 < 16 ∧
    swDomain k ≠ 3 ∧
    swSrc k ≠ 3 ∧
    (swSrc k = 2 → swDomain k = 0) ∧
    (u.die k.die).brg.isolated = false ∧
    (u.die k.die).refTest = none ∧
    (u.die k.die).clk.defer = false) ∧
  (∃ (s u : State) (k : Packet),
    takes0 s u k 0x0701 = true ∧
    16 ≤ k.w 4 ∧
    k.w 4 < 32 ∧
    swDomain k ≠ 3 ∧
    swSrc k ≠ 3 ∧
    (swSrc k = 2 → swDomain k = 0) ∧
    (u.die k.die).brg.isolated = false ∧
    (u.die k.die).refTest = none ∧
    (u.die k.die).clk.defer = false) ∧
  (∃ (s u : State) (k : Packet) (b : Test),
    takes0 s u k 0x0701 = true ∧
    k.w 4 < 32 ∧
    swDomain k ≠ 3 ∧
    swSrc k ≠ 3 ∧
    (swSrc k = 2 → swDomain k = 0) ∧
    (u.die k.die).brg.isolated = false ∧
    (u.die k.die).refTest = some b) ∧
  (∃ (s u : State) (k : Packet) (l n : Nat),
    takes s u k 0x0702 = true ∧
    bits k.target.toNat 27 8 = 0 ∧
    k.target.toNat / 2 ^ 28 = l ∧
    k.target.toNat % 256 = n ∧
    l ≠ 0 ∧
    nodeOk k.die l n = true ∧
    k.w 4 = 1 ∧
    (u.die k.die).gated l n = false ∧
    u.nodeUse k.die l n = false) ∧
  (∃ (s u : State) (k : Packet) (l n : Nat),
    takes s u k 0x0702 = true ∧
    bits k.target.toNat 27 8 = 0 ∧
    k.target.toNat / 2 ^ 28 = l ∧
    k.target.toNat % 256 = n ∧
    l ≠ 0 ∧
    nodeOk k.die l n = true ∧
    k.w 4 ≤ 1 ∧
    (u.die k.die).gated l n = (k.w 4 == 1) ∧
    (1 < l → (u.die k.die).clk.gDie = false ∧ (u.die k.die).gated (parentOf k.die l n).1 (parentOf k.die l n).2 = false)) ∧
  (∃ (s u : State) (k : Packet) (l n : Nat),
    takes s u k 0x0702 = true ∧
    bits k.target.toNat 27 8 = 0 ∧
    k.target.toNat / 2 ^ 28 = l ∧
    k.target.toNat % 256 = n ∧
    1 < l ∧
    nodeOk k.die l n = true ∧
    k.w 4 = 0 ∧
    (u.die k.die).gated (parentOf k.die l n).1 (parentOf k.die l n).2 = true) ∧
  (∃ (s u : State) (k : Packet),
    takes0 s u k 0x0702 = true ∧
    k.w 4 = 1 ∧
    u.rootUse = false) ∧
  (∃ (s u : State) (k : Packet),
    takes0 s u k 0x0703 = true) :=
  ⟨⟨W.run, State.takeInbox (W.run) (W.packet 5 1 0 [8]) 0x0701, W.packet 5 1 0 [8], by decide +kernel⟩,
   ⟨W.run, State.takeInbox (W.run) (W.packet 5 1 0 [0x15]) 0x0701, W.packet 5 1 0 [0x15], by decide +kernel⟩,
   ⟨W.test { W.bist with test := 7, target := 0 }, State.takeInbox (W.test { W.bist with test := 7, target := 0 }) (W.packet 5 1 0 [8]) 0x0701, W.packet 5 1 0 [8], { W.bist with test := 7, target := 0 }, by decide +kernel⟩,
   ⟨W.run, State.takeInbox (W.run) (W.packet 5 1 0x2000000B [1]) 0x0702, W.packet 5 1 0x2000000B [1], 2, 11, by decide +kernel⟩,
   ⟨W.run, State.takeInbox (W.run) (W.packet 5 1 0x40000087 [0]) 0x0702, W.packet 5 1 0x40000087 [0], 4, 135, by decide +kernel⟩,
   ⟨W.run.onDie 1 (fun x => x.setGate 2 0 true), State.takeInbox (W.run.onDie 1 (fun x => x.setGate 2 0 true)) (W.packet 5 1 0x30000000 [0]) 0x0702, W.packet 5 1 0x30000000 [0], 3, 0, by decide +kernel⟩,
   ⟨W.run, State.takeInbox (W.run) (W.packet 5 0 0 [1]) 0x0702, W.packet 5 0 0 [1], by decide +kernel⟩,
   ⟨W.run, State.takeInbox (W.run) (W.packet 4 1 0 []) 0x0703, W.packet 4 1 0 [], by decide +kernel⟩⟩

theorem witness_RingPackets :
  (∃ (s : State) (d src : DieId) (tag : BitVec 16) (p : Flit) (arrival : Int) (_res : BitVec 24) (n acc path : Nat) (lead : DieId) (e : Int),
    s.arriving d src tag.toNat 0x7 = some p ∧
    p.body = .sync n lead acc path ∧
    e = arrival - ((acc + (path + s.linkLat d p)) / 8 : Nat) ∧
    (s.die d).stroke.asleep = false ∧
    (s.die d).hasSeen p.src p.tag = false) ∧
  (∃ (s : State) (d src : DieId) (tag : BitVec 16) (p : Flit) (_arrival : Int) (_res : BitVec 24) (n acc path : Nat) (lead : DieId),
    s.arriving d src tag.toNat 0x7 = some p ∧
    p.body = .sync n lead acc path ∧
    p.bcast = true ∧
    p.ttl ≠ 0 ∧
    neighbour s.part d p.dir ≠ p.src ∧
    ((s.die d).bridge p.dir).state ≠ 0 ∧
    (s.die d).hasSeen p.src p.tag = false) ∧
  (∃ (s : State) (d src : DieId) (tag : BitVec 16) (p : Flit) (_arrival : Int) (_res : BitVec 24) (n acc path : Nat) (lead : DieId),
    s.arriving d src tag.toNat 0x7 = some p ∧
    p.body = .sync n lead acc path ∧
    (s.die d).hasSeen p.src p.tag = true ∧
    (s.die d).steersBy p = false ∧
    p.bcast = true ∧
    p.ttl ≠ 0 ∧
    neighbour s.part d p.dir = p.src) ∧
  (∃ (s : State) (d src : DieId) (tag : BitVec 16) (p : Flit) (_arrival : Int) (_res : BitVec 24) (n acc path : Nat) (lead : DieId) (h : Nat),
    s.arriving d src tag.toNat 0x7 = some p ∧
    p.body = .sync n lead acc path ∧
    (s.die d).hasSeen p.src p.tag = true ∧
    (s.die d).stroke.sync = some (p.tag, h) ∧
    p.hops < h ∧
    (s.die d).stroke.asleep = false) ∧
  (∃ (s : State) (d src : DieId) (tag : BitVec 16) (p : Flit) (n mask kind : Nat),
    s.arriving d src tag.toNat 0x8 = some p ∧
    p.body = .gcommit n mask kind ∧
    (s.die d).inCommits = true ∧
    (s.die d).hasSeen p.src p.tag = false) ∧
  (∃ (s : State) (d src : DieId) (tag : BitVec 16) (p : Flit) (x : DieId) (w : Ew) (st : Nat),
    s.arriving d src tag.toNat 0xA = some p ∧
    p.body = .ringState x w st ∧
    (s.die d).hasSeen p.src p.tag = false) ∧
  (∃ (s : State) (d src : DieId) (tag : BitVec 16) (p : Flit) (n : Nat) (cand : DieId),
    s.arriving d src tag.toNat 0xB = some p ∧
    p.body = .elect n cand ∧
    p.bcast = true ∧
    ((s.die d).bridge (s.way d cand)).state ≠ 0 ∧
    (s.die d).hasSeen p.src p.tag = false) ∧
  (∃ (s : State) (d src : DieId) (tag : BitVec 16) (p : Flit) (n : Nat) (cand : DieId),
    s.arriving d src tag.toNat 0xB = some p ∧
    p.body = .elect n cand ∧
    p.bcast = false ∧
    p.dst = d ∧
    ((s.die d).bridge (s.way d p.src)).state ≠ 0 ∧
    (s.die d).hasSeen p.src p.tag = false) ∧
  (∃ (s : State) (d src : DieId) (tag : BitVec 16) (p : Flit) (k : Packet) (op : Nat),
    s.arriving d src tag.toNat 0x3 = some p ∧
    p.body = .cmdFwd k op ∧
    p.dst = d ∧
    s.earlier p.src d p = false ∧
    (s.die d).passed p.src p.tag = false ∧
    (s.die d).hasSeen p.src p.tag = false) ∧
  (∃ (s : State) (d src : DieId) (tag : BitVec 16) (p : Flit) (k : Packet) (op : Nat),
    s.arriving d src tag.toNat 0x3 = some p ∧
    p.body = .cmdFwd k op ∧
    p.dst = d ∧
    s.earlier p.src d p = true ∧
    (s.die d).hasSeen p.src p.tag = false) ∧
  (∃ (s : State) (d src : DieId) (tag : BitVec 16) (p : Flit) (k : Packet) (op : Nat),
    s.arriving d src tag.toNat 0x3 = some p ∧
    p.body = .cmdFwd k op ∧
    p.dst = d ∧
    s.earlier p.src d p = false ∧
    (s.die d).passed p.src p.tag = true ∧
    (s.die d).hasSeen p.src p.tag = false) ∧
  (∃ (s : State) (d src : DieId) (tag : BitVec 16) (p : Flit) (k : Packet) (op : Nat),
    s.arriving d src tag.toNat 0x3 = some p ∧
    p.body = .cmdFwd k op ∧
    p.dst = d ∧
    (s.die d).hasSeen p.src p.tag = true) ∧
  (∃ (s : State) (d src : DieId) (tag : BitVec 16) (p : Flit) (n : Nat) (q : QueueId) (e : BitVec 6),
    s.arriving d src tag.toNat 0x4 = some p ∧
    p.body = .cmdRsp q e n none ∧
    p.dst = d ∧
    (s.die d).hasSeen p.src p.tag = false) ∧
  (∃ (s : State) (d src : DieId) (tag : BitVec 16) (p : Flit) (n : Nat) (r : Rec) (q : QueueId) (e : BitVec 6),
    s.arriving d src tag.toNat 0x4 = some p ∧
    p.body = .cmdRsp q e n (some r) ∧
    p.dst = d ∧
    s.earlier p.src d p = false ∧
    ((s.die d).queue r.queue).gaveUp r = false ∧
    ((s.die d).queue r.queue).enabled = true ∧
    r.status ≠ 0x02 ∧
    (s.die d).hasSeen p.src p.tag = false) ∧
  (∃ (s : State) (d src : DieId) (tag : BitVec 16) (p : Flit) (n : Nat) (r : Rec) (q : QueueId) (e : BitVec 6),
    s.arriving d src tag.toNat 0x4 = some p ∧
    p.body = .cmdRsp q e n (some r) ∧
    p.dst = d ∧
    s.earlier p.src d p = false ∧
    ((s.die d).queue r.queue).gaveUp r = true ∧
    (s.die d).hasSeen p.src p.tag = false) ∧
  (∃ (s : State) (d src : DieId) (tag : BitVec 16) (p : Flit),
    s.arriving d src tag.toNat 0x5 = some p ∧
    p.dst = d ∧
    s.earlier p.src d p = false ∧
    p.body.evts.length = 1 ∧
    (∀ r ∈ p.body.evts, r.isEpoch = false) ∧
    (s.die d).evt.held = [] ∧
    64 ≤ (s.die d).evt.free ∧
    (s.die d).hasSeen p.src p.tag = false) ∧
  (∃ (s : State) (d src : DieId) (tag : BitVec 16) (p : Flit) (n : Nat),
    s.arriving d src tag.toNat 0x6 = some p ∧
    p.body = .ack n ∧
    p.dst = d ∧
    (s.die d).hasSeen p.src p.tag = false) ∧
  (∃ (s : State) (d src : DieId) (tag : BitVec 16) (p : Flit) (n : Nat),
    s.arriving d src tag.toNat 0x6 = some p ∧
    p.body = .ack n ∧
    p.dst ≠ d ∧
    p.ttl ≠ 0 ∧
    ((s.die d).bridge (s.way d p.dst)).state ≠ 0) :=
  ⟨⟨W.air (W.flit 0 true (.sync 1 0 8 0)), 1, 0, 5, W.flit 0 true (.sync 1 0 8 0), -1, 40, 1, 8, 0, 0, -2, by decide +kernel⟩,
   ⟨{ W.air (W.flit 0 true (.sync 1 0 8 0)) with part := .q512 }, 1, 0, 5, W.flit 0 true (.sync 1 0 8 0), -1, 40, 1, 8, 0, 0, by decide +kernel⟩,
   ⟨(W.air { W.flit 0 true (.sync 1 0 0 0) with ttl := 6 }).onDie 1 (fun x => { x with brg := { x.brg with seen := [(0, 5)] }, stroke := { x.stroke with sync := some (5, 1) } }), 1, 0, 5, { W.flit 0 true (.sync 1 0 0 0) with ttl := 6 }, 0, 0, 1, 0, 0, 0, by decide +kernel⟩,
   ⟨(W.air (W.flit 0 true (.sync 1 0 0 0))).onDie 1 (fun x => { x with brg := { x.brg with seen := [(0, 5)] }, stroke := { x.stroke with sync := some (5, 2) } }), 1, 0, 5, W.flit 0 true (.sync 1 0 0 0), 3, 0, 1, 0, 0, 0, 2, by decide +kernel⟩,
   ⟨W.air (W.flit 0 true (.gcommit 9 4 0)), 1, 0, 5, W.flit 0 true (.gcommit 9 4 0), 9, 4, 0, by decide +kernel⟩,
   ⟨W.air (W.flit 0 true (.ringState 0 .west 0)), 1, 0, 5, W.flit 0 true (.ringState 0 .west 0), 0, .west, 0, by decide +kernel⟩,
   ⟨W.air (W.flit 0 true (.elect 3 0)), 1, 0, 5, W.flit 0 true (.elect 3 0), 3, 0, by decide +kernel⟩,
   ⟨W.air (W.flit 1 false (.elect 3 0)), 1, 0, 5, W.flit 1 false (.elect 3 0), 3, 0, by decide +kernel⟩,
   ⟨W.air (W.flit 1 false (.cmdFwd (W.packet 4 1 0 []) 1)), 1, 0, 5, W.flit 1 false (.cmdFwd (W.packet 4 1 0 []) 1), W.packet 4 1 0 [], 1, by decide +kernel⟩,
   ⟨(W.air (W.flit 1 false (.cmdFwd (W.packet 4 1 0 []) 1))).onDie 0 (fun x => { x with brg := { x.brg with sent := [⟨1, 4, 0, 0, .cmdFwd (W.packet 4 1 0 []) 1⟩, ⟨1, 5, 0, 0, .cmdFwd (W.packet 4 1 0 []) 1⟩] } }), 1, 0, 5, W.flit 1 false (.cmdFwd (W.packet 4 1 0 []) 1), W.packet 4 1 0 [], 1, by decide +kernel⟩,
   ⟨(W.air (W.flit 1 false (.cmdFwd (W.packet 4 1 0 []) 1))).onDie 1 (fun x => { x with brg := { x.brg with stored := [(0, 6, .cmdRsp 0 0 6 none)] } }), 1, 0, 5, W.flit 1 false (.cmdFwd (W.packet 4 1 0 []) 1), W.packet 4 1 0 [], 1, by decide +kernel⟩,
   ⟨(W.air (W.flit 1 false (.cmdFwd (W.packet 4 1 0 []) 1))).onDie 1 (fun x => { x with brg := { x.brg with seen := [(0, 5)] } }), 1, 0, 5, W.flit 1 false (.cmdFwd (W.packet 4 1 0 []) 1), W.packet 4 1 0 [], 1, by decide +kernel⟩,
   ⟨W.air (W.flit 1 false (.cmdRsp 0 0 8 none)), 1, 0, 5, W.flit 1 false (.cmdRsp 0 0 8 none), 8, 0, 0, by decide +kernel⟩,
   ⟨W.air (W.flit 1 false (.cmdRsp 0 0 8 (some (mkRec (W.packet 4 0 0 []) 0 0 [])))), 1, 0, 5, W.flit 1 false (.cmdRsp 0 0 8 (some (mkRec (W.packet 4 0 0 []) 0 0 []))), 8, mkRec (W.packet 4 0 0 []) 0 0 [], 0, 0, by decide +kernel⟩,
   ⟨(W.air (W.flit 1 false (.cmdRsp 0 0 8 (some (mkRec (W.packet 4 0 0 []) 0 0 []))))).onDie 1 (fun x => { x with q0 := { x.q0 with gone := [(7, 0)] } }), 1, 0, 5, W.flit 1 false (.cmdRsp 0 0 8 (some (mkRec (W.packet 4 0 0 []) 0 0 []))), 8, mkRec (W.packet 4 0 0 []) 0 0 [], 0, 0, by decide +kernel⟩,
   ⟨W.air (W.flit 1 false (.evtFwd [⟨9, 10, 2, false, false, 1, 77⟩])), 1, 0, 5, W.flit 1 false (.evtFwd [⟨9, 10, 2, false, false, 1, 77⟩]), by decide +kernel⟩,
   ⟨(W.air (W.flit 1 false (.ack 8))).onDie 1 (fun x => { x with brg := { x.brg with elect := some 0, electTag := 8 } }), 1, 0, 5, W.flit 1 false (.ack 8), 8, by decide +kernel⟩,
   ⟨W.air (W.flit 0 false (.ack 8)), 1, 0, 5, W.flit 0 false (.ack 8), 8, by decide +kernel⟩⟩

theorem witness_CrossDieAccess :
  (∃ (s : State) (d src : DieId) (tag : BitVec 16) (p : Flit) (o view : Nat) (w : Word) (twi : Bool) (sel : RegSel),
    s.arriving d src tag.toNat 0x1 = some p ∧
    p.body = .regReq o view true w twi ∧
    p.dst = d ∧
    s.earlier p.src d p = false ∧
    (s.die d).passed p.src p.tag = false ∧
    (s.die d).hasSeen p.src p.tag = false ∧
    s.busRegister twi d o = some sel ∧
    sel.rws ≠ 0 ∧
    viewSelects view w &&& sel.rws ≠ 0) ∧
  (∃ (s : State) (d src : DieId) (tag : BitVec 16) (p : Flit) (o view : Nat) (w v : Word) (twi : Bool),
    s.arriving d src tag.toNat 0x1 = some p ∧
    p.body = .regReq o view false w twi ∧
    p.dst = d ∧
    s.earlier p.src d p = false ∧
    (s.die d).passed p.src p.tag = false ∧
    (s.die d).hasSeen p.src p.tag = false ∧
    s.readView twi d o view = some v) ∧
  (∃ (s : State) (d src : DieId) (tag : BitVec 16) (p : Flit) (o view : Nat) (w : Word) (twi : Bool),
    s.arriving d src tag.toNat 0x1 = some p ∧
    p.body = .regReq o view true w twi ∧
    p.dst = d ∧
    s.earlier p.src d p = false ∧
    (s.die d).passed p.src p.tag = false ∧
    (s.die d).hasSeen p.src p.tag = false ∧
    s.busRegister twi d o = none) ∧
  (∃ (s : State) (d src : DieId) (tag : BitVec 16) (p : Flit) (o view n : Nat) (w v : Word) (r : Sent) (l : List Word),
    s.arriving d src tag.toNat 0x2 = some p ∧
    p.body = .regRsp v 0 n ∧
    p.dst = d ∧
    (s.die d).hasSeen p.src p.tag = false ∧
    (s.die d).brg.sent.find? (fun r => r.dst == src && r.tag == n) = some r ∧
    r.body = .regReq o view false w false ∧
    (s.ep (epOf d)).crossings = 1 ∧
    (s.ep (epOf d)).waiting = [] ∧
    (s.ep (epOf d)).rdata = some (false, l)) ∧
  (∃ (s : State) (d : DieId) (tag : BitVec 16) (r : Sent),
    up s d = true ∧
    (s.die d).brg.sent.filter (fun q => q.tag == tag.toNat && decide (q.last + 4 ≤ s.stroke d)) = [r] ∧
    ((s.die d).bridge (s.way d r.dst)).state ≠ 0) ∧
  (∃ (s : State) (d : DieId) (tag : BitVec 16) (r : Sent) (k : Packet) (op : Nat),
    up s d = true ∧
    (s.die d).brg.sent.find? (fun q => q.tag == tag.toNat) = some r ∧
    r.first + 16 ≤ s.stroke d ∧
    r.body = .cmdFwd k op) ∧
  (∃ (s : State) (d : DieId) (tag : BitVec 16) (r : Sent) (l : List Evt),
    up s d = true ∧
    (s.die d).brg.sent.find? (fun q => q.tag == tag.toNat) = some r ∧
    r.first + 16 ≤ s.stroke d ∧
    r.body = .evtFwd l ∧
    s.reachable d r.dst = true) ∧
  (∃ (s : State) (d : DieId) (tag : BitVec 16) (r : Sent) (o view : Nat) (w : Word),
    up s d = true ∧
    (s.die d).brg.sent.find? (fun q => q.tag == tag.toNat) = some r ∧
    r.first + 16 ≤ s.stroke d ∧
    r.body = .regReq o view false w false ∧
    (s.ep (epOf d)).crossings = 1 ∧
    (s.ep (epOf d)).waiting = []) ∧
  (∃ (s : State) (e : AccessId) (off : BitVec 25) (_w : Word),
    s.running = true ∧
    (s.ep e).crossings = 0 ∧
    (s.ep e).d3 = false ∧
    off.toNat % 4 = 0 ∧
    windowDie off.toNat ≠ (accessDie s.part e) ∧
    present s.part (windowDie off.toNat) = true) ∧
  (∃ (s : State) (d : DieId) (_m : Fin 4) (_a : Half),
    up s d = true) ∧
  (∃ (s : State) (_e : AccessId) (off : BitVec 25) (_wr : Bool) (_sp : Fin 8),
    s.running = true ∧
    present s.part (windowDie off.toNat) = true) :=
  ⟨⟨W.air (W.flit 1 false (.regReq 0x10100 1 true 1 false)), 1, 0, 5, W.flit 1 false (.regReq 0x10100 1 true 1 false), 0x10100, 1, 1, false, (lookup 0x10100).getD ⟨⟨.dieId, 0x00000, 1, 0x0, 1, 0x0, .none, 0x0000, 0x0000, 0x0000⟩, 0, 0⟩, by decide +kernel⟩,
   ⟨W.air (W.flit 1 false (.regReq 0x10100 0 false 0 false)), 1, 0, 5, W.flit 1 false (.regReq 0x10100 0 false 0 false), 0x10100, 0, 0, ((W.run.readView false 1 0x10100 0).getD 0), false, by decide +kernel⟩,
   ⟨W.air (W.flit 1 false (.regReq 0xFFFFC 3 true 1 false)), 1, 0, 5, W.flit 1 false (.regReq 0xFFFFC 3 true 1 false), 0xFFFFC, 3, 1, false, by decide +kernel⟩,
   ⟨((W.air (W.flit 1 false (.regRsp 42 0 8))).onDie 1 (fun x => { x with brg := { x.brg with sent := [⟨0, 8, 0, 0, .regReq 0 0 false 0 false⟩] } })).setEp (epOf 1) { crossings := 1, rdata := some (false, []) }, 1, 0, 5, W.flit 1 false (.regRsp 42 0 8), 0, 0, 8, 0, 42, ⟨0, 8, 0, 0, .regReq 0 0 false 0 false⟩, [], by decide +kernel⟩,
   ⟨(W.air (W.flit 0 false (.ack 8))).onDie 1 (fun x => { x with brg := { x.brg with sent := [⟨0, 8, 0, 0, .ack 3⟩] }, stroke := { x.stroke with count := 4 } }), 1, 8, ⟨0, 8, 0, 0, .ack 3⟩, by decide +kernel⟩,
   ⟨W.run.onDie 0 (fun x => { x with brg := { x.brg with sent := [⟨1, 8, 0, 12, .cmdFwd (W.packet 4 1 0 []) 1⟩] }, stroke := { x.stroke with count := 16 } }), 0, 8, ⟨1, 8, 0, 12, .cmdFwd (W.packet 4 1 0 []) 1⟩, W.packet 4 1 0 [], 1, by decide +kernel⟩,
   ⟨W.run.onDie 1 (fun x => { x with brg := { x.brg with sent := [⟨0, 8, 0, 12, .evtFwd []⟩] }, stroke := { x.stroke with count := 16 } }), 1, 8, ⟨0, 8, 0, 12, .evtFwd []⟩, [], by decide +kernel⟩,
   ⟨(W.run.onDie 0 (fun x => { x with brg := { x.brg with sent := [⟨1, 8, 0, 12, .regReq 0 0 false 0 false⟩] }, stroke := { x.stroke with count := 16 } })).setEp (epOf 0) { crossings := 1, rdata := some (false, []) }, 0, 8, ⟨1, 8, 0, 12, .regReq 0 0 false 0 false⟩, 0, 0, 0, by decide +kernel⟩,
   ⟨W.run, 0, 0x410100, 0x00010001, by decide +kernel⟩,
   ⟨W.run, 1, 3, 0x0004, by decide +kernel⟩,
   ⟨W.run, 0, 0x4FFFFC, true, 0, by decide +kernel⟩⟩

theorem witness_Bridges :
  (∃ (s : State) (l : DieId),
    s.running = true ∧
    s.pos < 1240 ∧
    s.leaders = [l] ∧
    bit (s.die l).stroke.ran 33 = false ∧
    ((s.die l).bridge .east).state ≠ 0 ∧
    ((s.die l).bridge .west).state ≠ 0) ∧
  (∃ (s : State) (l : DieId) (f a : Flit) (u w : List Flit),
    s.running = true ∧
    s.pos < 1240 ∧
    s.leaders = [l] ∧
    bit (s.die l).stroke.ran 33 = false ∧
    ((s.die l).bridge .east).state ≠ 0 ∧
    f = sentOver s l l true (s.die l).brg.nextTag .east (.sync (s.stroke l + 1) l 0 0) ∧
    s.air.filter (fun q => f.sameHop q) = a :: (u ++ w) ∧
    (∀ q ∈ u, q.body.urgent = true) ∧
    (∀ q ∈ w, q.body.urgent = false)) ∧
  (∃ (s : State) (d : DieId),
    up s d = true ∧
    s.pos < 1240 ∧
    bit (s.die d).stroke.ran 32 = false ∧
    (s.die d).stroke.asleep = false) ∧
  (∃ (s : State) (d : DieId),
    up s d = true ∧
    4 ≤ (s.die d).stroke.misses ∧
    (s.die d).stroke.mloss = false ∧
    (s.die d).stroke.state ≠ 3) ∧
  (∃ (s : State) (d : DieId) (b : Ew) (p : Flit) (n l m : Nat) (r i : Bool),
    up s d = true ∧
    (((s.die d).bridge b).state = 0 ∨ s.ahead p = false) ∧
    s.air.find? (fun q => q.here == d && q.dir == Ew.flip b && q.body.type == 0x9) = some p ∧
    p.body = .heartbeat n r i l m) ∧
  (∃ (s : State) (d : DieId) (b : Ew),
    up s d = true ∧
    ((s.die d).bridge b).state ≠ 0 ∧
    (lanesIn ((s.die d).usable b) < 3 ∨ 4 ≤ ((s.die d).bridge b).misses)) ∧
  (∃ (s : State) (d : DieId) (b : Ew),
    up s d = true ∧
    ((s.die d).bridge b).state = 0 ∧
    64 ≤ ((s.die d).bridge b).good ∧
    3 ≤ lanesIn ((s.die d).usable b) ∧
    3 ≤ lanesIn ((s.die d).bridge b).set_ ∧
    ((s.die d).bridge b).measured = true) ∧
  (∃ (s : State) (d : DieId) (b : Ew) (l : Fin 4) (hs : List (BitVec 2)),
    up s d = true ∧
    (((s.die d).bridge b).lane l.val).locked = false ∧
    (((s.die d).bridge b).lane l.val).run < 64 ∧
    64 ≤ (((s.die d).bridge b).lane l.val).run + hs.length ∧
    (∀ h ∈ hs, goodHeader h = true)) ∧
  (∃ (s : State) (d : DieId) (b : Ew) (l : Fin 4) (hs : List (BitVec 2)),
    up s d = true ∧
    (((s.die d).bridge b).lane l.val).locked = false ∧
    (((s.die d).bridge b).lane l.val).run + hs.length < 64) ∧
  (∃ (s : State) (d : DieId) (b : Ew) (l : Fin 4) (hs : List (BitVec 2)),
    up s d = true ∧
    (((s.die d).bridge b).lane l.val).locked = true ∧
    (((s.die d).bridge b).lane l.val).recent.any id = false ∧
    hs.length = 16 ∧
    (∀ h ∈ hs, goodHeader h = false)) ∧
  (∃ (s : State) (d : DieId) (b : Ew) (l : List (BitVec 64 × Byte)) (p : BitVec 64 × Byte),
    up s d = true ∧
    ((s.die d).bridge b).alignDue (s.ownTime d) = true ∧
    l.find? (fun q => isAlign q.1) = some p) ∧
  (∃ (s : State) (d : DieId) (b : Ew) (_v : Half),
    up s d = true ∧
    ((s.die d).bridge b).echoes = 15) ∧
  (∃ (s : State) (d : DieId) (b : Ew) (_v : Half),
    up s d = true ∧
    ((s.die d).bridge b).echoes < 15) :=
  ⟨⟨{ W.air (W.flit 0 false (.ack 8)) with lead := some 1 }, 1, by decide +kernel⟩,
   ⟨{ W.air (W.flit 0 false (.ack 8)) with lead := some 1, air := [sentOver W.run 1 0 false 3 .east (.ack 8), sentOver W.run 1 0 false 4 .east (.ack 9)] }, 1, sentOver W.run 1 1 true 0 .east (.sync 1 1 0 0), sentOver W.run 1 0 false 3 .east (.ack 8), [], [sentOver W.run 1 0 false 4 .east (.ack 9)], by decide +kernel⟩,
   ⟨W.run, 1, by decide +kernel⟩,
   ⟨W.locked.onDie 1 (fun x => { x with stroke := { x.stroke with misses := 4 } }), 1, by decide +kernel⟩,
   ⟨W.air (W.flit 1 false (.heartbeat 0 true false 1 15)), 1, .west, W.flit 1 false (.heartbeat 0 true false 1 15), 0, 1, 15, true, false, by decide +kernel⟩,
   ⟨W.run.onDie 1 (fun x => x.setBridge .west { W.bridge with peer := 6 }), 1, .west, by decide +kernel⟩,
   ⟨W.run.onDie 1 (fun x => x.setBridge .west { W.bridge with state := 0, set_ := 7, peer := 7, good := 64 }), 1, .west, by decide +kernel⟩,
   ⟨W.run.onDie 1 (fun x => x.setBridge .west { x.bridge .west with lock := [(3, { run := 62 })] }), 1, .west, 3, [1, 2], by decide +kernel⟩,
   ⟨W.run.onDie 1 (fun x => x.setBridge .west { x.bridge .west with lock := [(3, { run := 61 })] }), 1, .west, 3, [1, 2], by decide +kernel⟩,
   ⟨W.run.onDie 1 (fun x => x.setBridge .west W.bridge), 1, .west, 3, List.replicate 16 3, by decide +kernel⟩,
   ⟨W.run.onDie 1 (fun x => x.setBridge .west W.bridge), 1, .west, [(alignBlock 13 0, 0), (alignBlock 13 1, 33), (alignBlock 13 2, 32), (alignBlock 13 3, 1)], (alignBlock 13 0, 0), by decide +kernel⟩,
   ⟨W.run.onDie 1 (fun x => x.setBridge .east { x.bridge .east with echoes := 15, echoSum := 449 }), 1, .east, 0x1F, by decide +kernel⟩,
   ⟨W.run, 1, .east, 0x1F, by decide +kernel⟩⟩

theorem witness_Elections :
  (∃ (s : State),
    s.unavailable (otherAccess s.part) 0 = true ∧
    s.mayElect (otherAccess s.part) = true) ∧
  (∃ (s : State),
    s.lead = some (otherAccess s.part) ∧
    (s.die 0).linked = true ∧
    s.unavailable 0 (otherAccess s.part) = true ∧
    s.mayElect 0 = true) ∧
  (∃ (s : State),
    1024 ≤ (s.die 0).brg.run0 ∧
    s.stroke 0 = s.stroke s.leadDie ∧
    s.lead.isSome = true ∧
    s.mayElect 0 = true) ∧
  (∃ (s : State) (c : DieId),
    s.running = true ∧
    s.pos = 0 ∧
    ((s.elected 0 = true ∧ c = 0) ∨ (s.elected 0 = false ∧ s.elected (otherAccess s.part) = true ∧ c = otherAccess s.part)) ∧
    present s.part c = true ∧
    bit (s.reachMask c) c.val = true) ∧
  (∃ (s u : State) (k : Packet),
    takes0 s u k 0x0D01 = true ∧
    k.w 4 ≤ 1 ∧
    (u.die k.die).brg.restoring = false ∧
    (u.die k.die).brg.isolated = false ∧
    ((u.die k.die).anyPort = false ∨ k.w 4 = 1)) ∧
  (∃ (s u : State) (k : Packet),
    takes0 s u k 0x0D01 = true ∧
    k.w 4 ≤ 1 ∧
    (u.die k.die).brg.restoring = false ∧
    (u.die k.die).brg.isolated = true) ∧
  (∃ (s u : State) (k : Packet),
    takes0 s u k 0x0D02 = true ∧
    (u.die k.die).brg.isolated = true ∧
    (u.die k.die).brg.restoring = false ∧
    (u.die k.die).peg.ops.length < 64) ∧
  (∃ (s : State) (d : DieId),
    up s d = true ∧
    s.pos = 0 ∧
    (s.die d).brg.lost = true ∧
    ((s.die d).brg.east.state ≠ 0 ∨ (s.die d).brg.west.state ≠ 0)) :=
  ⟨⟨W.run.onDie 1 (fun x => { x with brg := { x.brg with reach := 2 } }), by decide +kernel⟩,
   ⟨{ W.run.onDie 0 (fun x => { x with brg := { x.brg with reach := 1, east := { x.brg.east with state := 1 } } }) with lead := some 1 }, by decide +kernel⟩,
   ⟨{ W.run.onDie 0 (fun x => { x with brg := { x.brg with run0 := 1024 } }) with lead := some 1 }, by decide +kernel⟩,
   ⟨W.run.onDie 1 (fun x => { x with stroke := { x.stroke with count := 1 }, brg := { x.brg with elect := some 0, acks := 3 } }), 1, by decide +kernel⟩,
   ⟨W.live, State.takeInbox (W.live) (W.packet 5 0 0 [1]) 0x0D01, W.packet 5 0 0 [1], by decide +kernel⟩,
   ⟨W.run.onDie 1 (fun x => { x with brg := { x.brg with isolated := true } }), State.takeInbox (W.run.onDie 1 (fun x => { x with brg := { x.brg with isolated := true } })) (W.packet 5 1 0 [0]) 0x0D01, W.packet 5 1 0 [0], by decide +kernel⟩,
   ⟨W.run.onDie 1 (fun x => { x with brg := { x.brg with isolated := true } }), State.takeInbox (W.run.onDie 1 (fun x => { x with brg := { x.brg with isolated := true } })) (W.packet 4 1 0 []) 0x0D02, W.packet 4 1 0 [], by decide +kernel⟩,
   ⟨W.run.onDie 1 (fun x => { x with brg := { x.brg with lost := true, west := { x.brg.west with state := 1 } } }), 1, by decide +kernel⟩⟩

theorem witness_RegisterAccess :
  (∃ (s : State) (e : AccessId) (off : BitVec 25) (w : Word) (sel : RegSel),
    s.running = true ∧
    (s.ep e).crossings = 0 ∧
    (s.ep e).d3 = false ∧
    off.toNat % 4 = 0 ∧
    windowDie off.toNat = (accessDie s.part e) ∧
    present s.part (accessDie s.part e) = true ∧
    s.busRegister false (accessDie s.part e) (windowOff off.toNat) = some sel ∧
    sel.rws ≠ 0 ∧
    viewSelects (windowView off.toNat) w &&& sel.rws ≠ 0) ∧
  (∃ (s : State) (e : AccessId) (off : BitVec 25) (_w : Word) (m : Nat),
    s.running = true ∧
    (s.ep e).crossings = 0 ∧
    (s.ep e).d3 = false ∧
    m = off.toNat % 0x100000 / 4 * 4 ∧
    0x1004 ≤ m ∧
    foreignSlot false m = false ∧
    s.hkWindow m = none ∧
    lockedAt (s.die (accessDie s.part e)) m = false) ∧
  (∃ (s : State) (e : AccessId) (off : BitVec 25) (_w : Word) (sel : RegSel),
    s.running = true ∧
    (s.ep e).crossings = 0 ∧
    (s.ep e).d3 = false ∧
    off.toNat % 4 = 0 ∧
    windowDie off.toNat = (accessDie s.part e) ∧
    present s.part (accessDie s.part e) = true ∧
    s.register (accessDie s.part e) (windowOff off.toNat) = some sel ∧
    sel.foreign false = true) ∧
  (∃ (s : State) (e : AccessId) (off : BitVec 25) (_w : Word) (m : Nat),
    s.running = true ∧
    (s.ep e).crossings = 0 ∧
    (s.ep e).d3 = false ∧
    m = off.toNat % 0x100000 / 4 * 4 ∧
    foreignSlot false m = true) ∧
  (∃ (s : State) (e : AccessId) (off : BitVec 25) (_w : Word),
    s.running = true ∧
    (s.ep e).crossings = 0 ∧
    (s.ep e).d3 = false ∧
    off.toNat % 4 = 0 ∧
    present s.part (windowDie off.toNat) = false) ∧
  (∃ (s : State) (e : AccessId) (_win : Window) (_off : BitVec 25) (_r : Request),
    s.running = true ∧
    (s.ep e).crossings ≠ 0) ∧
  (∃ (s : State) (e : AccessId) (off : BitVec 25) (sel : RegSel),
    s.running = true ∧
    (s.ep e).crossings = 0 ∧
    (s.ep e).d3 = false ∧
    off.toNat % 4 = 0 ∧
    windowDie off.toNat = (accessDie s.part e) ∧
    present s.part (accessDie s.part e) = true ∧
    s.busRegister false (accessDie s.part e) (windowOff off.toNat) = some sel) ∧
  (∃ (s : State) (e : AccessId) (off : BitVec 25) (l : List Word) (f la : BitVec 4),
    s.running = true ∧
    (s.ep e).crossings = 0 ∧
    (s.ep e).d3 = false ∧
    (off.toNat % 4 ≠ 0 ∨ l.length ≠ 1 ∨ f ≠ 15 ∨ la ≠ 0)) ∧
  (∃ (s : State) (d : DieId) (_m : Fin 4) (_a : Half),
    up s d = true) ∧
  (∃ (s : State) (_e : AccessId) (_off : BitVec 25) (_wr : Bool) (_sp : Fin 8),
    s.running = true) ∧
  (∃ (s : State) (_e : AccessId) (_off : BitVec 25) (_sp : Fin 8),
    s.running = true) :=
  ⟨⟨W.run, 0, 0x010100, 0x00010001, (lookup 0x10100).getD ⟨⟨.dieId, 0x00000, 1, 0x0, 1, 0x0, .none, 0x0000, 0x0000, 0x0000⟩, 0, 0⟩, by decide +kernel⟩,
   ⟨W.run, 1, 0x00010003, 0x80000001, 0x10000, by decide +kernel⟩,
   ⟨W.run, 0, 0x06040, 1, (lookup 0x06040).getD ⟨⟨.dieId, 0x00000, 1, 0x0, 1, 0x0, .none, 0x0000, 0x0000, 0x0000⟩, 0, 0⟩, by decide +kernel⟩,
   ⟨W.run, 1, 0x20004, 1, 0x20004, by decide +kernel⟩,
   ⟨W.run, 1, 0x1C00000, 0, by decide +kernel⟩,
   ⟨W.run.setEp 1 { crossings := 1 }, 1, .regs, 0x10100, .put 1, by decide +kernel⟩,
   ⟨W.run, 0, 0x010100, (lookup 0x10100).getD ⟨⟨.dieId, 0x00000, 1, 0x0, 1, 0x0, .none, 0x0000, 0x0000, 0x0000⟩, 0, 0⟩, by decide +kernel⟩,
   ⟨W.run, 0, 0x010102, [1], 15, 0, by decide +kernel⟩,
   ⟨W.run, 1, 3, 0x0004, by decide +kernel⟩,
   ⟨W.run, 1, 0x1FFFFFF, false, 0, by decide +kernel⟩,
   ⟨W.run, 0, 0x1FFFFFF, 7, by decide +kernel⟩⟩

theorem witness_CommitsAndProtection :
  (∃ (s : State) (d : DieId) (_h : Bool) (m : Byte),
    up s d = true ∧
    m ≠ 0) ∧
  (∃ (s : State) (d : DieId) (_h : Bool),
    up s d = true) ∧
  (∃ (s : State) (d : DieId) (_h : Bool) (m : Byte),
    up s d = true ∧
    m ≠ 0 ∧
    s.globalHeld d = false ∧
    (s.die d).inCommits = true) ∧
  (∃ (s : State) (d : DieId) (_h : Bool) (m : Byte),
    up s d = true ∧
    m ≠ 0 ∧
    s.globalHeld d = true) ∧
  (∃ (s : State) (d : DieId) (_h : Bool) (_m : Byte),
    up s d = true) ∧
  (∃ (s : State) (d : DieId) (o : BitVec 20) (v : Half) (sel : RegSel) (c : EccResult),
    up s d = true ∧
    s.register d o.toNat = some sel ∧
    oddBits ((s.die d).act o.toNat ^^^ mergeMask ((s.die d).act o.toNat) v sel.rws) = true ∧
    (s.die d).prot.bad.contains o.toNat = false ∧
    c ≠ .uncorrectable) ∧
  (∃ (s : State) (d : DieId) (o : BitVec 20) (v : Half) (sel : RegSel),
    up s d = true ∧
    s.register d o.toNat = some sel ∧
    oddBits ((s.die d).act o.toNat ^^^ mergeMask ((s.die d).act o.toNat) v sel.rws) = true) ∧
  (∃ (s : State) (d : DieId) (o : BitVec 20),
    up s d = true ∧
    ((s.die d).stg o.toNat).isSome = true) ∧
  (∃ (s : State) (d : DieId) (o : BitVec 20) (sel : RegSel),
    up s d = true ∧
    s.register d o.toNat = some sel ∧
    sel.rws ≠ 0) ∧
  (∃ (s : State) (d : DieId) (o : BitVec 20) (sel : RegSel),
    up s d = true ∧
    s.register d o.toNat = some sel ∧
    sel.rws ≠ 0) ∧
  (∃ (s : State) (d : DieId) (v : Nat),
    up s d = true ∧
    (s.die d).prot.passEnd = some (v, false)) ∧
  (∃ (s : State) (d : DieId) (v : Nat),
    up s d = true ∧
    (s.die d).prot.passEnd = some (v, true)) :=
  ⟨⟨{ W.run with pos := 960 }, 1, true, 0x80, by decide +kernel⟩,
   ⟨W.run, 1, true, by decide +kernel⟩,
   ⟨W.run, 0, false, 0x04, by decide +kernel⟩,
   ⟨W.run.onDie 0 (fun x => { x with brg := { x.brg with failover := true } }), 0, false, 0x04, by decide +kernel⟩,
   ⟨W.run, 1, true, 0xFF, by decide +kernel⟩,
   ⟨W.run, 1, 0x10100, 0x6041, (lookup 0x10100).getD ⟨⟨.dieId, 0x00000, 1, 0x0, 1, 0x0, .none, 0x0000, 0x0000, 0x0000⟩, 0, 0⟩, .corrected, by decide +kernel⟩,
   ⟨W.run, 1, 0x10100, 0x6041, (lookup 0x10100).getD ⟨⟨.dieId, 0x00000, 1, 0x0, 1, 0x0, .none, 0x0000, 0x0000, 0x0000⟩, 0, 0⟩, by decide +kernel⟩,
   ⟨W.run.onDie 1 (fun x => x.stage 0x10100 1), 1, 0x10100, by decide +kernel⟩,
   ⟨W.run, 1, 0x10100, (lookup 0x10100).getD ⟨⟨.dieId, 0x00000, 1, 0x0, 1, 0x0, .none, 0x0000, 0x0000, 0x0000⟩, 0, 0⟩, by decide +kernel⟩,
   ⟨W.run, 1, 0x10100, (lookup 0x10100).getD ⟨⟨.dieId, 0x00000, 1, 0x0, 1, 0x0, .none, 0x0000, 0x0000, 0x0000⟩, 0, 0⟩, by decide +kernel⟩,
   ⟨W.run.onDie 1 (fun x => { x with prot := { x.prot with passEnd := some (7, false) } }), 1, 7, by decide +kernel⟩,
   ⟨W.run.onDie 1 (fun x => { x with prot := { x.prot with passEnd := some (7, true) } }), 1, 7, by decide +kernel⟩⟩

theorem witness_TwoWireTarget :
  (∃ (s : State) (e : AccessId) (l : List Byte) (x w : Word) (sel : RegSel),
    l = [(s.die (accessDie s.part e)).twi.addrByte false, x.extractLsb' 24 8, x.extractLsb' 16 8, x.extractLsb' 8 8, x.extractLsb' 0 8, w.extractLsb' 24 8, w.extractLsb' 16 8, w.extractLsb' 8 8, w.extractLsb' 0 8] ∧
    s.running = true ∧
    (s.die (accessDie s.part e)).twi.occupied = false ∧
    frameOk x = true ∧
    frameSpace x = 0 ∧
    windowDie (frameOff x) = (accessDie s.part e) ∧
    present s.part (accessDie s.part e) = true ∧
    s.busRegister true (accessDie s.part e) (windowOff (frameOff x)) = some sel ∧
    sel.rws ≠ 0 ∧
    viewSelects (windowView (frameOff x)) w &&& sel.rws ≠ 0) ∧
  (∃ (s : State) (e : AccessId) (l : List Byte) (x w : Word),
    l = [(s.die (accessDie s.part e)).twi.addrByte false, x.extractLsb' 24 8, x.extractLsb' 16 8, x.extractLsb' 8 8, x.extractLsb' 0 8, w.extractLsb' 24 8, w.extractLsb' 16 8, w.extractLsb' 8 8, w.extractLsb' 0 8] ∧
    s.running = true ∧
    (s.die (accessDie s.part e)).twi.occupied = false ∧
    frameOk x = true ∧
    frameSpace x = 0 ∧
    windowDie (frameOff x) ≠ (accessDie s.part e) ∧
    present s.part (windowDie (frameOff x)) = true) ∧
  (∃ (s : State) (e : AccessId) (l : List Byte) (x w : Word) (p : Byte),
    l = [(s.die (accessDie s.part e)).twi.addrByte false, x.extractLsb' 24 8, x.extractLsb' 16 8, x.extractLsb' 8 8, x.extractLsb' 0 8, w.extractLsb' 24 8, w.extractLsb' 16 8, w.extractLsb' 8 8, w.extractLsb' 0 8] ∧
    s.running = true ∧
    (s.die (accessDie s.part e)).twi.occupied = false ∧
    p ≠ pec l) ∧
  (∃ (s : State) (e : AccessId) (l : List Byte),
    s.running = true ∧
    (s.die (accessDie s.part e)).twi.occupied = false ∧
    l.head? = some ((s.die (accessDie s.part e)).twi.addrByte false) ∧
    l.length ≠ 10) ∧
  (∃ (s : State) (e : AccessId) (l : List Byte) (x w : Word),
    l = [(s.die (accessDie s.part e)).twi.addrByte false, x.extractLsb' 24 8, x.extractLsb' 16 8, x.extractLsb' 8 8, x.extractLsb' 0 8, w.extractLsb' 24 8, w.extractLsb' 16 8, w.extractLsb' 8 8, w.extractLsb' 0 8] ∧
    s.running = true ∧
    (s.die (accessDie s.part e)).twi.occupied = false ∧
    frameOk x = false) ∧
  (∃ (s : State) (e : AccessId) (l : List Byte) (x : Word) (sel : RegSel),
    l = [(s.die (accessDie s.part e)).twi.addrByte false, x.extractLsb' 24 8, x.extractLsb' 16 8, x.extractLsb' 8 8, x.extractLsb' 0 8, (s.die (accessDie s.part e)).twi.addrByte true] ∧
    s.running = true ∧
    (s.die (accessDie s.part e)).twi.occupied = false ∧
    (s.die (accessDie s.part e)).twi.read = none ∧
    frameOk x = true ∧
    frameSpace x = 0 ∧
    windowDie (frameOff x) = (accessDie s.part e) ∧
    present s.part (accessDie s.part e) = true ∧
    s.busRegister true (accessDie s.part e) (windowOff (frameOff x)) = some sel) ∧
  (∃ (s : State) (e : AccessId) (l : List Byte),
    s.running = true ∧
    (s.die (accessDie s.part e)).twi.occupied = false ∧
    (s.die (accessDie s.part e)).twi.read = none ∧
    (l.head? = some ((s.die (accessDie s.part e)).twi.addrByte false) ∨ l.head? = some ((s.die (accessDie s.part e)).twi.addrByte true)) ∧
    l.length ≠ 6) ∧
  (∃ (s : State) (e : AccessId),
    s.running = true ∧
    (s.die (accessDie s.part e)).twi.wres ≠ 4) ∧
  (∃ (s : State) (e : AccessId),
    s.running = true ∧
    (s.die (accessDie s.part e)).twi.occupied = true) ∧
  (∃ (s : State) (e : AccessId),
    s.running = true ∧
    (s.die (accessDie s.part e)).twi.read.isSome = true) ∧
  (∃ (s : State) (_e : AccessId),
    s.running = true) ∧
  (∃ (s : State) (e : AccessId) (_frame : Bool),
    s.running = true ∧
    fld ((s.die (accessDie s.part e)).act oTcfg) 1 1 = 1 ∧
    (s.die (accessDie s.part e)).twi.ready = true) ∧
  (∃ (s : State) (e : AccessId) (_frame unsent : Bool),
    s.running = true ∧
    fld ((s.die (accessDie s.part e)).act oTcfg) 1 1 = 1 ∧
    (s.die (accessDie s.part e)).twi.read = none ∧
    ((s.die (accessDie s.part e)).twi.ready = false ∨ unsent = false)) ∧
  (∃ (s : State) (e : AccessId) (_frame : Bool),
    s.running = true ∧
    fld ((s.die (accessDie s.part e)).act oTcfg) 1 1 = 1 ∧
    (s.die (accessDie s.part e)).twi.read.isSome = true) ∧
  (∃ (s : State) (e : AccessId),
    s.running = true ∧
    (s.die (accessDie s.part e)).alert = true ∧
    fld ((s.die (accessDie s.part e)).act oTcfg) 0 0 = 1) ∧
  (∃ (s : State) (e : AccessId),
    s.running = true ∧
    (s.die (accessDie s.part e)).alert = true ∧
    fld ((s.die (accessDie s.part e)).act oTcfg) 0 0 = 1) ∧
  (∃ (s : State) (e : AccessId),
    s.running = true ∧
    (s.die (accessDie s.part e)).evt.relAlert = true ∧
    (s.die (accessDie s.part e)).evt.relAt < s.stroke (accessDie s.part e)) ∧
  (∃ (s : State) (d : DieId) (m : McId) (r : Fin 8) (_acked : Byte) (_data : List Byte),
    up s d = true ∧
    ((s.die d).mcRuns m.val).isSome = true ∧
    r.val ≤ 2) ∧
  (∃ (s : State) (d : DieId) (m : McId) (_acked : Byte) (_data : List Byte),
    up s d = true ∧
    ((s.die d).mcRuns m.val).isSome = true) ∧
  (∃ (s : State) (d : DieId) (m : McId) (_acked : Byte) (_data : List Byte),
    up s d = true ∧
    ((s.die d).mcRuns m.val).isSome = true) ∧
  (∃ (s : State) (d : DieId) (m : McId) (_acked : Byte) (_data : List Byte),
    up s d = true ∧
    ((s.die d).mcRuns m.val).isSome = true) ∧
  (∃ (s : State) (d : DieId) (m : McId) (pulses : Fin 10) (freed : Bool),
    up s d = true ∧
    (s.die d).mcEn m.val = true ∧
    (s.die d).clearDue m.val = true ∧
    (freed = true ∨ pulses = 9)) ∧
  (∃ (s u : State) (k : Packet) (m : McId),
    takes s u k 0x0E01 = true ∧
    k.target.toNat = m.val ∧
    (u.die k.die).mcEn m.val = true ∧
    (u.die k.die).busy 5 m.val = false ∧
    (u.die k.die).peg.ops.length < 64 ∧
    twiParamsOk k = true) ∧
  (∃ (s u : State) (k : Packet) (m : McId),
    takes s u k 0x0E02 = true ∧
    k.target.toNat = m.val ∧
    (u.die k.die).mcEn m.val = true ∧
    (u.die k.die).busy 5 m.val = false ∧
    (u.die k.die).peg.ops.length < 64 ∧
    k.w 4 < 128) :=
  ⟨⟨W.run, 0, [(W.run.die 0).twi.addrByte false, 0x00, 0x01, 0x01, 0x00, 0x00, 0x01, 0x00, 0x01], 0x00010100, 0x00010001, (lookup 0x10100).getD ⟨⟨.dieId, 0x00000, 1, 0x0, 1, 0x0, .none, 0x0000, 0x0000, 0x0000⟩, 0, 0⟩, by decide +kernel⟩,
   ⟨W.run, 0, [(W.run.die 0).twi.addrByte false, 0x00, 0x41, 0x01, 0x00, 0x00, 0x01, 0x00, 0x01], 0x00410100, 0x00010001, by decide +kernel⟩,
   ⟨W.run, 1, [(W.run.die 1).twi.addrByte false, 0x00, 0x01, 0x01, 0x00, 0x00, 0x00, 0x00, 0x01], 0x00010100, 1, pec ([(W.run.die 1).twi.addrByte false, 0x00, 0x01, 0x01, 0x00, 0x00, 0x00, 0x00, 0x01]) ^^^ 1, by decide +kernel⟩,
   ⟨W.run, 1, [(W.run.die 1).twi.addrByte false, 0, 1], by decide +kernel⟩,
   ⟨W.run, 1, [(W.run.die 1).twi.addrByte false, 0x02, 0x01, 0x01, 0x00, 0x00, 0x00, 0x00, 0x01], 0x02010100, 1, by decide +kernel⟩,
   ⟨W.run, 1, [(W.run.die 1).twi.addrByte false, 0x00, 0x41, 0x01, 0x00, (W.run.die 1).twi.addrByte true], 0x00410100, (lookup 0x10100).getD ⟨⟨.dieId, 0x00000, 1, 0x0, 1, 0x0, .none, 0x0000, 0x0000, 0x0000⟩, 0, 0⟩, by decide +kernel⟩,
   ⟨W.run, 1, [(W.run.die 1).twi.addrByte false, 0, 1], by decide +kernel⟩,
   ⟨W.run.onTwi 0 (fun v => { v with wbuf := some (0, 0), wres := 0 }), 0, by decide +kernel⟩,
   ⟨W.run.onTwi 0 (fun v => { v with wbuf := some (0, 0), wres := 4 }), 0, by decide +kernel⟩,
   ⟨W.run.onTwi 1 (fun v => { v with read := some (0, 0) }), 1, by decide +kernel⟩,
   ⟨W.run, 1, by decide +kernel⟩,
   ⟨(W.run.onTwi 1 (fun v => { v with ready := true })).onDie 1 (fun x => x.setAct oTcfg 2), 1, false, by decide +kernel⟩,
   ⟨W.run.onDie 1 (fun x => x.setAct oTcfg 2), 1, true, false, by decide +kernel⟩,
   ⟨(W.run.onTwi 1 (fun v => { v with read := some (0, 0) })).onDie 1 (fun x => x.setAct oTcfg 2), 1, true, by decide +kernel⟩,
   ⟨W.run.onDie 1 (fun x => { ((x.setAct oTcfg 1).setAct oEvtCfg 2) with evt := { x.evt with nmis := [5], unmasked := [5] } }), 1, by decide +kernel⟩,
   ⟨W.run.onDie 1 (fun x => { ((x.setAct oTcfg 1).setAct oEvtCfg 2) with evt := { x.evt with nmis := [5], unmasked := [5] } }), 1, by decide +kernel⟩,
   ⟨W.at 1 (W.run.onDie 0 (fun x => { x with evt := { x.evt with relAlert := true } })), 0, by decide +kernel⟩,
   ⟨W.mcOn.onDie 1 (fun x => { x with peg := { x.peg with ops := [W.mcOp] } }), 1, 1, 2, 0, [], by decide +kernel⟩,
   ⟨W.mcOn.onDie 1 (fun x => { x with peg := { x.peg with ops := [W.mcOp] } }), 1, 1, 2, [], by decide +kernel⟩,
   ⟨W.mcOn.onDie 1 (fun x => { x with peg := { x.peg with ops := [W.mcOp] } }), 1, 1, 2, [], by decide +kernel⟩,
   ⟨W.mcOn.onDie 1 (fun x => { x with peg := { x.peg with ops := [W.mcOp] } }), 1, 1, 2, [], by decide +kernel⟩,
   ⟨(W.mcOn.onMc 1 1 (fun v => { v with check := true, sda := false })).onDie 1 (fun x => { x with peg := { x.peg with ops := [W.mcOp] } }), 1, 1, 9, false, by decide +kernel⟩,
   ⟨W.mcOn, State.takeInbox (W.mcOn) (W.packet 7 1 1 [0x0077, 0x0104, 0xAABBCCDD]) 0x0E01, W.packet 7 1 1 [0x0077, 0x0104, 0xAABBCCDD], 1, by decide +kernel⟩,
   ⟨W.mcOn, State.takeInbox (W.mcOn) (W.packet 5 1 1 [0]) 0x0E02, W.packet 5 1 1 [0], 1, by decide +kernel⟩⟩

theorem witness_Queues :
  (∃ (s : State) (e : AccessId) (n : QueueId) (v : BitVec 6),
    s.running = true ∧
    ((s.die (accessDie s.part e)).queue n).unfetched ≤ (v.toNat + 64 - ((s.die (accessDie s.part e)).queue n).sqHead) % 64) ∧
  (∃ (s : State) (e : AccessId) (n : QueueId) (v : BitVec 6),
    s.running = true ∧
    (v.toNat + 64 - ((s.die (accessDie s.part e)).queue n).sqHead) % 64 < ((s.die (accessDie s.part e)).queue n).unfetched) ∧
  (∃ (s : State) (e : AccessId) (n : QueueId) (v : BitVec 6),
    s.running = true ∧
    (v.toNat + 64 - ((s.die (accessDie s.part e)).queue n).cqHead) % 64 ≤ ((s.die (accessDie s.part e)).queue n).used) ∧
  (∃ (s : State) (e : AccessId) (n : QueueId) (v : BitVec 6),
    s.running = true ∧
    ((s.die (accessDie s.part e)).queue n).used < (v.toNat + 64 - ((s.die (accessDie s.part e)).queue n).cqHead) % 64) ∧
  (∃ (s : State) (e : AccessId) (n : QueueId) (v : BitVec 6),
    s.running = true ∧
    ((s.die (accessDie s.part e)).queue n).locked v.toNat = true) ∧
  (∃ (s : State) (e : AccessId) (n : QueueId) (x : Packet × Nat),
    s.running = true ∧
    (s.die (accessDie s.part e)).pegRuns = true ∧
    ((s.die (accessDie s.part e)).queue n).mayFetch = true ∧
    readPacket (s.die (accessDie s.part e)) (accessDie s.part e) n ((s.die (accessDie s.part e)).queue n).sqHead = x ∧
    s.checkHeader (accessDie s.part e) ((s.die (accessDie s.part e)).queue n) x.1 x.2 (readFlags (s.die (accessDie s.part e)) n ((s.die (accessDie s.part e)).queue n).sqHead) = none) ∧
  (∃ (s : State) (e : AccessId) (n : QueueId) (x : Packet × Nat) (st herr : Nat),
    s.running = true ∧
    (s.die (accessDie s.part e)).pegRuns = true ∧
    ((s.die (accessDie s.part e)).queue n).mayFetch = true ∧
    readPacket (s.die (accessDie s.part e)) (accessDie s.part e) n ((s.die (accessDie s.part e)).queue n).sqHead = x ∧
    s.checkHeader (accessDie s.part e) ((s.die (accessDie s.part e)).queue n) x.1 x.2 (readFlags (s.die (accessDie s.part e)) n ((s.die (accessDie s.part e)).queue n).sqHead) = some (st, herr) ∧
    st ≠ 0x02) ∧
  (∃ (s : State) (e : AccessId) (_n : QueueId),
    (s.die (accessDie s.part e)).pegRuns = false) ∧
  (∃ (s : State) (e : AccessId) (n : QueueId) (r : Rec),
    ((s.die (accessDie s.part e)).queue n).waiting.find? ((s.die (accessDie s.part e)).queue n).mayPost = some r ∧
    r.irq = false) ∧
  (∃ (s : State) (d : DieId) (w : Waiting),
    up s d = true ∧
    (s.die d).pegRuns = false ∧
    (s.die d).peg.inbox.find? (fun w => w.arrived + 1024 ≤ s.stroke d) = some w ∧
    w.packet.die = d) ∧
  (∃ (s u : State) (k : Packet),
    takes0 s u k 0x0001 = true) ∧
  (∃ (s u : State) (k : Packet),
    takes0 s u k 0x0002 = true ∧
    k.w 4 ≤ 1) ∧
  (∃ (s u : State) (k : Packet),
    takes0 s u k 0x0003 = true ∧
    k.w 4 < 2 ^ 21) ∧
  (∃ (s u : State) (k : Packet),
    takes0 s u k 0x0004 = true ∧
    k.w 4 < 2 ^ 21 ∧
    (u.die k.die).peg.ops.find? (fun o => namesCmd (k.w 4) o.origin o.queue o.tag) = none ∧
    (u.die k.die).endedOf (k.w 4) = none) :=
  ⟨⟨W.queued, 0, 0, 62, by decide +kernel⟩,
   ⟨W.queued, 0, 0, 63, by decide +kernel⟩,
   ⟨W.record, 0, 0, 63, by decide +kernel⟩,
   ⟨W.run, 1, 2, 1, by decide +kernel⟩,
   ⟨W.queued, 0, 0, 63, by decide +kernel⟩,
   ⟨W.queued, 0, 0, readPacket (W.queued.die 0) 0 0 63, by decide +kernel⟩,
   ⟨W.queued.onDie 0 (fun x => { x with sram := Memory.writeWords x.sram 0x13F00 [0x00070001, 3, 0, 9] }), 0, 0, readPacket ((W.queued.onDie 0 (fun x => { x with sram := Memory.writeWords x.sram 0x13F00 [0x00070001, 3, 0, 9] })).die 0) 0 0 63, stBadParam, 1, by decide +kernel⟩,
   ⟨W.queued.onDie 0 (fun x => { x with peg := { x.peg with state := 2 } }), 0, 0, by decide +kernel⟩,
   ⟨W.record, 0, 0, mkRec (W.packet 4 0 0 []) 0 3 [], by decide +kernel⟩,
   ⟨W.at 1024 (W.run.onDie 0 (fun x => { x with peg := { x.peg with state := 2, inbox := [⟨W.packet 4 0 0 [], 1, 0⟩] } })), 0, ⟨W.packet 4 0 0 [], 1, 0⟩, by decide +kernel⟩,
   ⟨W.run, State.takeInbox (W.run) (W.packet 4 1 0 []) 0x0001, W.packet 4 1 0 [], by decide +kernel⟩,
   ⟨W.run, State.takeInbox (W.run) (W.packet 5 1 0 [1]) 0x0002, W.packet 5 1 0 [1], by decide +kernel⟩,
   ⟨W.run, State.takeInbox (W.run) (W.packet 5 1 0 [0x1FFFFF]) 0x0003, W.packet 5 1 0 [0x1FFFFF], by decide +kernel⟩,
   ⟨W.run, State.takeInbox (W.run) (W.packet 5 1 0 [8]) 0x0004, W.packet 5 1 0 [8], by decide +kernel⟩⟩

theorem witness_Events :
  (∃ (s : State) (d : DieId) (src : Fin 512) (_c : Byte) (_v : Word),
    up s d = true ∧
    reservedSource src.val = false) ∧
  (∃ (_s : State) (_d : DieId) (src : Fin 512) (_c : Byte) (_v : Word),
    reservedSource src.val = true) ∧
  (∃ (s : State) (d : DieId),
    up s d = true ∧
    s.fretOpen d 30 30 = true ∧
    (s.die d).stroke.evtCut = 0 ∧
    (s.reachable d 0 = true ∨ s.reachable d (otherAccess s.part) = true)) ∧
  (∃ (s : State) (d : DieId) (l : List Evt),
    up s d = true ∧
    s.fretOpen d 30 30 = true ∧
    (s.die d).stroke.evtCut = 0 ∧
    d ≠ 0 ∧
    s.reachable d 0 = true ∧
    ((s.die d).bridge (s.way d 0)).state ≠ 0 ∧
    l = (s.die d).evt.local_.drop ((s.die d).evt.local_.length - (s.die d).evt.fresh) ∧
    l ≠ [] ∧
    l.length ≤ 16) ∧
  (∃ (s : State) (e : AccessId) (v : BitVec 12),
    s.running = true ∧
    (v.toNat + 4096 - (s.die (accessDie s.part e)).evt.rp) % 4096 ≤ (s.die (accessDie s.part e)).evt.unread ∧
    (s.die (accessDie s.part e)).evt.dropped = 0) ∧
  (∃ (s : State) (e : AccessId) (v : BitVec 12),
    s.running = true ∧
    (s.die (accessDie s.part e)).evt.unread < (v.toNat + 4096 - (s.die (accessDie s.part e)).evt.rp) % 4096) ∧
  (∃ (s : State) (e : AccessId) (v : Nat),
    s.running = true ∧
    s.pos ≤ 1240 ∧
    bit (s.die (accessDie s.part e)).stroke.ran 31 = false ∧
    v ∈ (s.die (accessDie s.part e)).groupVectors ∧
    (s.die (accessDie s.part e)).evt.fmask = false ∧
    bit (s.die (accessDie s.part e)).evt.mask v = false) ∧
  (∃ (s : State) (e : AccessId) (v : Fin 32),
    (s.die (accessDie s.part e)).evt.fmask = false ∧
    bit (s.die (accessDie s.part e)).evt.pend v.val = true ∧
    bit (s.die (accessDie s.part e)).evt.mask v.val = true ∧
    (∀ w : Fin 32, w ≠ v → bit (s.die (accessDie s.part e)).evt.pend w.val = true → bit (s.die (accessDie s.part e)).evt.mask w.val = true)) ∧
  (∃ (s : State) (d : DieId),
    up s d = true ∧
    s.fretOpen d 21 24 = true ∧
    (s.die d).stroke.pegOvr = false) ∧
  (∃ (s u : State) (k : Packet),
    takes0 s u k 0x0B01 = true ∧
    k.w 4 < 65536 ∧
    1 ≤ k.w 5 ∧
    k.w 5 ≤ 3068 ∧
    4 * (k.w 4 + k.w 5) ≤ 0xD000 ∧
    (u.die k.die).snapWaits = false) ∧
  (∃ (s : State) (p : PortId) (dir : Side) (k : Nat) (_l : List (MBlock × Word)),
    up s p.die = true ∧
    ((s.port p).dir dir).metEn = true ∧
    (s.port p).carrying = true ∧
    ((s.port p).dir dir).metW ≠ 0 ∧
    (s.stroke p.die - ((s.port p).dir dir).metFrom) % ((s.port p).dir dir).metW = 0 ∧
    k < (s.stroke p.die - ((s.port p).dir dir).metFrom) / ((s.port p).dir dir).metW ∧
    k + 1 = (s.stroke p.die - ((s.port p).dir dir).metFrom) / ((s.port p).dir dir).metW ∧
    ((s.port p).dir dir).metWin ≤ k) ∧
  (∃ (s : State) (p : PortId) (dir : Side) (n : BitVec 16) (_tp : TagPoints),
    up s p.die = true ∧
    ((s.port p).dir dir).tagEn = true ∧
    ((s.port p).dir dir).fecLock = true ∧
    ((s.port p).dir dir).tagSeen < n.toNat ∧
    ((s.port p).dir dir).tags n.toNat = true ∧
    hasFec ((s.die p.die).cfga p.key) = true ∧
    (s.port p).carrying = true) ∧
  (∃ (s : State) (d : DieId) (_pc : Word) (n : Nat),
    up s d = true ∧
    (s.die d).tele.profRun = true ∧
    (s.die d).pegRuns = true ∧
    n = (s.die d).tele.nextSample (s.stroke d * 1280 + s.pos) ∧
    s.stroke d * 1280 + s.pos ≤ n ∧
    n < (s.stroke d + 1) * 1280) ∧
  (∃ (s u : State) (k : Packet) (p : PortId),
    takesPort s u k 0x0B02 p = true ∧
    k.w 4 % 4 = 0 ∧
    tagParamsOk 0 (k.w 4) (k.w 5) = true ∧
    hasFec ((u.die p.die).cfga p.key) = true) ∧
  (∃ (s u : State) (k : Packet) (p : PortId),
    takesPort s u k 0x0B02 p = true ∧
    k.w 4 % 4 = 1 ∧
    tagParamsOk 1 (k.w 4) (k.w 5) = true ∧
    hasMeter ((u.die p.die).cfga p.key) = true) ∧
  (∃ (s u : State) (k : Packet),
    takes0 s u k 0x0B02 = true ∧
    k.w 4 % 4 = 2 ∧
    tagParamsOk 2 (k.w 4) (k.w 5) = true) :=
  ⟨⟨W.run, 1, 459, 0xFF, 0xFFFFFFFF, by decide +kernel⟩,
   ⟨W.run, 1, 460, 0, 0, by decide +kernel⟩,
   ⟨W.run.post 1 300 1 2, 1, by decide +kernel⟩,
   ⟨(W.air (W.flit 0 false (.ack 8))).post 1 300 1 2, 1, ((W.air (W.flit 0 false (.ack 8))).post 1 300 1 2 |>.die 1).evt.local_, by decide +kernel⟩,
   ⟨W.run.onDie 0 (fun x => { x with evt := { x.evt with rp := 4095, wp := 1, unmasked := [4095, 0] } }), 0, 0, by decide +kernel⟩,
   ⟨W.run, 0, 4095, by decide +kernel⟩,
   ⟨W.run.onDie 0 (fun x => { x with evt := { x.evt with fmask := false, mask := 0, groups := 1 } }), 0, fld ((W.run.die 0).act (oVec 0)) 4 0, by decide +kernel⟩,
   ⟨W.run.onDie 1 (fun x => { x with evt := { x.evt with fmask := false, mask := 0xFFFFFFFF, pend := 0x80000001 } }), 1, 31, by decide +kernel⟩,
   ⟨W.run, 1, by decide +kernel⟩,
   ⟨W.run, State.takeInbox (W.run) (W.packet 6 1 0 [10244, 3068]) 0x0B01, W.packet 6 1 0 [10244, 3068], by decide +kernel⟩,
   ⟨(W.at 10 W.live).onDir ⟨0, 0, 0⟩ .line (fun m => { m with metEn := true, metW := 5 }), ⟨0, 0, 0⟩, .line, 1, [(.data257, 3)], by decide +kernel⟩,
   ⟨(W.port 0x0202).onDir ⟨0, 0, 0⟩ .host (fun m => { m with tagEn := true, fecLock := true, hist := [(0, 0xFFFFFFFF)] }), ⟨0, 0, 0⟩, .host, 2, ⟨7, 8, 9, 10⟩, by decide +kernel⟩,
   ⟨W.run.onDie 1 (fun x => { x with tele := { x.tele with profRun := true, profWp := 4095, profM := 8, profLast := 300 } }), 1, 0xDEADBEEF, 512, by decide +kernel⟩,
   ⟨W.port 0x0202, State.takeInbox (W.port 0x0202) (W.packet 6 0 0 [0x00FF0184, 1]) 0x0B02, W.packet 6 0 0 [0x00FF0184, 1], ⟨0, 0, 0⟩, by decide +kernel⟩,
   ⟨W.port 0x0202, State.takeInbox (W.port 0x0202) (W.packet 6 0 0 [0xD, 65535]) 0x0B02, W.packet 6 0 0 [0xD, 65535], ⟨0, 0, 0⟩, by decide +kernel⟩,
   ⟨W.run, State.takeInbox (W.run) (W.packet 6 1 0 [0x186, 0]) 0x0B02, W.packet 6 1 0 [0x186, 0], by decide +kernel⟩⟩

theorem witness_PackageCommands :
  (∃ (s u : State) (k : Packet),
    takes0 s u k 0x0002 = true ∧
    k.w 4 ≤ 1) ∧
  (∃ (s u : State) (k : Packet),
    takes0 s u k 0x0002 = true ∧
    2 ≤ k.w 4) ∧
  (∃ (s u : State) (k : Packet),
    takes0 s u k 0x0003 = true ∧
    k.w 4 < 2 ^ 21) ∧
  (∃ (s u : State) (k : Packet),
    takes0 s u k 0x0004 = true ∧
    k.w 4 < 2 ^ 21 ∧
    (u.die k.die).peg.ops.find? (fun o => namesCmd (k.w 4) o.origin o.queue o.tag) = none ∧
    (u.die k.die).endedOf (k.w 4) = none) ∧
  (∃ (s u : State) (k : Packet) (o : Op) (p : PortId),
    takes0 s u k 0x0004 = true ∧
    k.w 4 < 2 ^ 21 ∧
    (u.die k.die).peg.ops.find? (fun o => namesCmd (k.w 4) o.origin o.queue o.tag) = some o ∧
    o.opcode = 0x0301 ∧
    portId k.die o.obj = p ∧
    (u.port p).startAt = none ∧
    (u.port p).sess = true ∧
    (u.die k.die).peg.awaits = []) ∧
  (∃ (s u : State) (k : Packet),
    takes0 s u k 0x0A01 = true ∧
    isAccess u.part k.die = true ∧
    bit (k.w 4) 21 = false ∧
    bits (k.w 4) 31 22 = 0 ∧
    bit (k.w 4) 18 = false ∧
    bit (k.w 4) 19 = false ∧
    bits (k.w 4) 17 0 % 4 = 0 ∧
    bits (k.w 4) 17 0 + 4 * (k.length.toNat - 6) ≤ fwMax ∧
    u.activating = false ∧
    u.stager = some k.die ∧
    (u.die k.die).peg.stOrigin = k.origin ∧
    (u.die k.die).peg.stQueue = k.queue ∧
    (u.die k.die).lastOp = none ∧
    (u.die k.die).regionTest = none) ∧
  (∃ (s u : State) (k : Packet) (d : DieId),
    takes0 s u k 0x0A01 = true ∧
    isAccess u.part k.die = true ∧
    bit (k.w 4) 21 = true ∧
    bit (k.w 4) 18 = false ∧
    bit (k.w 4) 19 = false ∧
    k.length.toNat = 6 ∧
    u.activating = false ∧
    u.dieList.any (fun d => (u.die d).lastOp.isSome) = false ∧
    u.stager = some d) ∧
  (∃ (s : State) (d : DieId),
    s.running = true ∧
    s.stager = some d ∧
    (s.die d).peg.staging = true ∧
    (s.die d).lastOp = none ∧
    (s.die d).peg.stLast + 976563 ≤ s.stroke d) ∧
  (∃ (s u : State) (k : Packet) (m : Nat),
    takes0 s u k 0x0A02 = true ∧
    k.w 4 < 512 ∧
    k.w 4 % 256 = m ∧
    m ≠ 0 ∧
    u.stager = none ∧
    u.activating = false ∧
    u.dieList.any (fun d => (u.die d).lastOp.isSome) = false ∧
    (∀ d : DieId, bit m d.val = true → present u.part d = true ∧ (u.die d).peg.sbValid = true ∧ u.reachable k.die d = true) ∧
    (u.die k.die).peg.ops.length < 64 ∧
    u.globalHeld u.leadDie = false) ∧
  (∃ (s : State) (d : DieId) (n : Nat),
    up s d = true ∧
    s.pos = 0 ∧
    (s.die d).peg.swapAt = some n ∧
    n ≤ s.stroke d) ∧
  (∃ (s : State) (d : DieId) (n : Nat),
    up s d = true ∧
    s.pos = 0 ∧
    (s.die d).peg.swapped = some n ∧
    (s.die d).peg.state = 2 ∧
    n + 1024 ≤ s.stroke d) ∧
  (∃ (s : State) (d : DieId),
    up s d = true ∧
    (s.die d).pegRuns = true ∧
    (s.die d).stroke.resumed = none ∧
    (s.die d).peg.startAt + fld ((s.die d).act oWdt) 7 0 * 1024 ≤ s.stroke d) ∧
  (∃ (s : State) (d : DieId) (_rom : Bool),
    up s d = true ∧
    s.pos = 0 ∧
    (s.die d).peg.state = 2 ∧
    (s.die d).peg.swapped = none) :=
  ⟨⟨W.run, State.takeInbox (W.run) (W.packet 5 1 0 [1]) 0x0002, W.packet 5 1 0 [1], by decide +kernel⟩,
   ⟨W.run, State.takeInbox (W.run) (W.packet 5 1 0 [2]) 0x0002, W.packet 5 1 0 [2], by decide +kernel⟩,
   ⟨W.run, State.takeInbox (W.run) (W.packet 5 1 0 [0x1FFFFF]) 0x0003, W.packet 5 1 0 [0x1FFFFF], by decide +kernel⟩,
   ⟨W.run, State.takeInbox (W.run) (W.packet 5 1 0 [8]) 0x0004, W.packet 5 1 0 [8], by decide +kernel⟩,
   ⟨(W.sess { state := 1 } { state := 1 }).onDie 0 (fun x => { x with peg := { x.peg with ops := [{ W.op 0x0301 3 0 [] with tag := 8 }] } }), State.takeInbox ((W.sess { state := 1 } { state := 1 }).onDie 0 (fun x => { x with peg := { x.peg with ops := [{ W.op 0x0301 3 0 [] with tag := 8 }] } })) (W.packet 5 0 0 [8]) 0x0004, W.packet 5 0 0 [8], { W.op 0x0301 3 0 [] with tag := 8 }, ⟨0, 0, 0⟩, by decide +kernel⟩,
   ⟨W.run.onDie 0 (fun x => { x with peg := { x.peg with staging := true } }), State.takeInbox (W.run.onDie 0 (fun x => { x with peg := { x.peg with staging := true } })) (W.packet 7 0 0 [0x2FFFC, 0, 5]) 0x0A01, W.packet 7 0 0 [0x2FFFC, 0, 5], by decide +kernel⟩,
   ⟨W.run.onDie 0 (fun x => { x with peg := { x.peg with staging := true } }), State.takeInbox (W.run.onDie 0 (fun x => { x with peg := { x.peg with staging := true } })) (W.packet 6 0 0 [0x200000, 0]) 0x0A01, W.packet 6 0 0 [0x200000, 0], 0, by decide +kernel⟩,
   ⟨W.at 976563 (W.run.onDie 0 (fun x => { x with peg := { x.peg with staging := true } })), 0, by decide +kernel⟩,
   ⟨W.run.onDie 1 (fun x => { x with peg := { x.peg with sbValid := true } }), State.takeInbox (W.run.onDie 1 (fun x => { x with peg := { x.peg with sbValid := true } })) (W.packet 5 0 0 [2]) 0x0A02, W.packet 5 0 0 [2], 2, by decide +kernel⟩,
   ⟨W.at 64 (W.run.onDie 0 (fun x => { x with peg := { x.peg with swapAt := some 64 } })), 0, 64, by decide +kernel⟩,
   ⟨W.at 1088 (W.run.onDie 0 (fun x => { x with peg := { x.peg with state := 2, swapped := some 64 } })), 0, 64, by decide +kernel⟩,
   ⟨W.at 261120 W.run, 0, by decide +kernel⟩,
   ⟨W.run.onDie 1 (fun x => { x with peg := { x.peg with state := 2 } }), 1, false, by decide +kernel⟩⟩

theorem witness_Firmware :
  (∃ (s u : State) (k : Packet),
    takes0 s u k 0x0A01 = true ∧
    isAccess u.part k.die = true ∧
    bit (k.w 4) 21 = false ∧
    bits (k.w 4) 31 22 = 0 ∧
    bit (k.w 4) 18 = false ∧
    bit (k.w 4) 19 = false ∧
    bits (k.w 4) 17 0 % 4 = 0 ∧
    bits (k.w 4) 17 0 + 4 * (k.length.toNat - 6) ≤ fwMax ∧
    u.activating = false ∧
    u.stager = some k.die ∧
    (u.die k.die).peg.stOrigin = k.origin ∧
    (u.die k.die).peg.stQueue = k.queue ∧
    (u.die k.die).lastOp = none ∧
    (u.die k.die).regionTest = none) ∧
  (∃ (s u : State) (k : Packet) (d : DieId),
    takes0 s u k 0x0A01 = true ∧
    isAccess u.part k.die = true ∧
    bit (k.w 4) 21 = true ∧
    bit (k.w 4) 18 = false ∧
    bit (k.w 4) 19 = false ∧
    k.length.toNat = 6 ∧
    u.activating = false ∧
    u.dieList.any (fun d => (u.die d).lastOp.isSome) = false ∧
    u.stager = some d) ∧
  (∃ (s : State) (d : DieId),
    s.running = true ∧
    s.stager = some d ∧
    (s.die d).peg.staging = true ∧
    (s.die d).lastOp = none ∧
    (s.die d).peg.stLast + 976563 ≤ s.stroke d) ∧
  (∃ (s : State) (d : DieId) (o : Op),
    s.running = true ∧
    s.stager = some d ∧
    (s.die d).lastOp = some o ∧
    s.stagerGone d = true) ∧
  (∃ (s u : State) (k : Packet) (m : Nat),
    takes0 s u k 0x0A02 = true ∧
    k.w 4 < 512 ∧
    k.w 4 % 256 = m ∧
    m ≠ 0 ∧
    u.stager = none ∧
    u.activating = false ∧
    u.dieList.any (fun d => (u.die d).lastOp.isSome) = false ∧
    (∀ d : DieId, bit m d.val = true → present u.part d = true ∧ (u.die d).peg.sbValid = true ∧ u.reachable k.die d = true) ∧
    (u.die k.die).peg.ops.length < 64 ∧
    u.globalHeld u.leadDie = false) ∧
  (∃ (s u : State) (k : Packet) (m : Nat),
    takes0 s u k 0x0A02 = true ∧
    k.w 4 < 512 ∧
    k.w 4 % 256 = m ∧
    m ≠ 0 ∧
    u.stager = none ∧
    u.activating = false ∧
    u.dieList.any (fun d => (u.die d).lastOp.isSome) = false ∧
    (∀ d : DieId, bit m d.val = true → present u.part d = true ∧ (u.die d).peg.sbValid = true ∧ u.reachable k.die d = true) ∧
    (u.die k.die).peg.ops.length < 64 ∧
    u.globalHeld u.leadDie = true) ∧
  (∃ (s : State) (d : DieId) (n : Nat),
    up s d = true ∧
    s.pos = 0 ∧
    (s.die d).peg.swapAt = some n ∧
    n ≤ s.stroke d) ∧
  (∃ (s : State) (d : DieId) (n : Nat),
    up s d = true ∧
    s.pos = 0 ∧
    (s.die d).peg.swapped = some n ∧
    (s.die d).peg.state = 2 ∧
    n + 1024 ≤ s.stroke d) ∧
  (∃ (s : State) (d : DieId),
    up s d = true ∧
    (s.die d).pegRuns = true ∧
    (s.die d).stroke.resumed = none ∧
    (s.die d).peg.startAt + fld ((s.die d).act oWdt) 7 0 * 1024 ≤ s.stroke d) ∧
  (∃ (s : State) (d : DieId) (_rom : Bool),
    up s d = true ∧
    s.pos = 0 ∧
    (s.die d).peg.state = 2 ∧
    (s.die d).peg.swapped = none) ∧
  (∃ (s : State) (d : DieId) (_rom : Bool) (n : Nat),
    up s d = true ∧
    s.pos = 0 ∧
    (s.die d).peg.state = 2 ∧
    (s.die d).peg.swapped = some n ∧
    s.stroke d ≤ n + 1024) :=
  ⟨⟨W.run.onDie 0 (fun x => { x with peg := { x.peg with staging := true } }), State.takeInbox (W.run.onDie 0 (fun x => { x with peg := { x.peg with staging := true } })) (W.packet 7 0 0 [0x2FFFC, 0, 5]) 0x0A01, W.packet 7 0 0 [0x2FFFC, 0, 5], by decide +kernel⟩,
   ⟨W.run.onDie 0 (fun x => { x with peg := { x.peg with staging := true } }), State.takeInbox (W.run.onDie 0 (fun x => { x with peg := { x.peg with staging := true } })) (W.packet 6 0 0 [0x200000, 0]) 0x0A01, W.packet 6 0 0 [0x200000, 0], 0, by decide +kernel⟩,
   ⟨W.at 976563 (W.run.onDie 0 (fun x => { x with peg := { x.peg with staging := true } })), 0, by decide +kernel⟩,
   ⟨(W.run.onDie 1 (fun x => { x with peg := { x.peg with staging := true, ops := [W.op 0x0A01 0 0 []] } })).onDie 0 (fun x => { x with brg := { x.brg with reach := 1 } }), 1, W.op 0x0A01 0 0 [], by decide +kernel⟩,
   ⟨W.run.onDie 1 (fun x => { x with peg := { x.peg with sbValid := true } }), State.takeInbox (W.run.onDie 1 (fun x => { x with peg := { x.peg with sbValid := true } })) (W.packet 5 0 0 [2]) 0x0A02, W.packet 5 0 0 [2], 2, by decide +kernel⟩,
   ⟨{ W.run.onDie 1 (fun x => { x with peg := { x.peg with sbValid := true } }) with waking := true }, State.takeInbox ({ W.run.onDie 1 (fun x => { x with peg := { x.peg with sbValid := true } }) with waking := true }) (W.packet 5 0 0 [2]) 0x0A02, W.packet 5 0 0 [2], 2, by decide +kernel⟩,
   ⟨W.at 64 (W.run.onDie 0 (fun x => { x with peg := { x.peg with swapAt := some 64 } })), 0, 64, by decide +kernel⟩,
   ⟨W.at 1088 (W.run.onDie 0 (fun x => { x with peg := { x.peg with state := 2, swapped := some 64 } })), 0, 64, by decide +kernel⟩,
   ⟨W.at 261120 W.run, 0, by decide +kernel⟩,
   ⟨W.run.onDie 1 (fun x => { x with peg := { x.peg with state := 2 } }), 1, false, by decide +kernel⟩,
   ⟨W.at 1088 (W.run.onDie 0 (fun x => { x with peg := { x.peg with state := 2, swapped := some 64 } })), 0, true, 64, by decide +kernel⟩⟩

theorem witness_Housekeeping :
  (∃ (s : State) (d : DieId) (_code : BitVec 12) (n : Fin 2) (q : Seq),
    up s d = true ∧
    (s.die d).hk.conv = 2 + n.val ∧
    (s.die d).hk.seq n.val = q ∧
    q.state = 2 ∧
    q.step + 1 < seqSteps q.cfg ∧
    fld ((s.die d).act oHkBuf) 0 0 = 1 ∧
    (s.die d).hk.count < 8192) ∧
  (∃ (s : State) (d : DieId) (_code : BitVec 12) (i : Nat) (f : Bool) (l : List (Nat × Bool)) (k : Packet × Nat) (m : List (Packet × Nat)),
    up s d = true ∧
    (s.die d).hk.conv = 1 ∧
    (s.die d).hk.inj = (i, f) :: l ∧
    (s.die d).hk.injOps = k :: m ∧
    (s.die d).hk.injDone.length + 1 < injCount k.1) ∧
  (∃ (s : State) (d : DieId) (_code : BitVec 12),
    up s d = true ∧
    (s.die d).hk.conv = 0 ∧
    (s.die d).hk.cal = 2 ∧
    (s.die d).hk.calRes.length < 96) ∧
  (∃ (s : State) (d : DieId) (n : Fin 2),
    up s d = true ∧
    s.pos < 1160 ∧
    seqEn ((s.die d).act (oSeqCfg n.val)) = true ∧
    seqTrig ((s.die d).act (oSeqCfg n.val)) = 1 ∧
    ((s.die d).act (oSeqN n.val)).toNat ≠ 0 ∧
    s.stroke d % ((s.die d).act (oSeqN n.val)).toNat = 0 ∧
    (s.die d).stroke.hkOvr = false ∧
    (s.die d).clk.gHk = false ∧
    ((s.die d).hk.seq n.val).state = 0 ∧
    ((s.die d).hk.seq n.val).trigAt ≠ s.stroke d + 1) ∧
  (∃ (s : State) (d : DieId) (c : Fin 8) (rising : Bool) (n : Fin 2),
    up s d = true ∧
    seqEn ((s.die d).act (oSeqCfg n.val)) = true ∧
    seqTrig ((s.die d).act (oSeqCfg n.val)) = 2 ∧
    seqCh ((s.die d).act (oSeqCfg n.val)) = c.val ∧
    seqFall ((s.die d).act (oSeqCfg n.val)) ≠ rising ∧
    (s.die d).clk.gHk = false ∧ (s.die d).clk.gDie = false ∧
    ((s.die d).hk.seq n.val).delay = false) ∧
  (∃ (s : State) (d : DieId) (n : Fin 2),
    up s d = true ∧
    ((s.die d).hk.seq n.val).delay = true ∧
    (s.die d).clk.gHk = false ∧ (s.die d).clk.gDie = false ∧
    ((s.die d).hk.seq n.val).delayAt + 2 * ((s.die d).act (oSeqDly n.val)).toNat ≤ s.stamp d ∧
    ((s.die d).hk.seq n.val).state = 0) ∧
  (∃ (s : State) (d : DieId) (n : Fin 2),
    up s d = true ∧
    seqEn ((s.die d).act (oSeqCfg n.val)) = true ∧
    (((s.die d).hk.seq n.val).state = 1 ∨ (2 ≤ ((s.die d).hk.seq n.val).state ∧ ((s.die d).hk.seq n.val).pend = true)) ∧
    ((s.die d).hk.seq n.val).told = false) ∧
  (∃ (s : State) (d : DieId),
    up s d = true ∧
    (s.die d).hk.cal = 2 ∧
    (s.die d).hk.calRes.length = 96) ∧
  (∃ (s : State) (d : DieId) (rp : BitVec 13),
    up s d = true ∧
    (rp.toNat + 8192 - (s.die d).hk.rp) % 8192 ≤ (s.die d).hk.count) ∧
  (∃ (s : State) (d : DieId) (m : Byte),
    up s d = true ∧
    (s.die d).hk.trip = false ∧
    m ≠ 0) ∧
  (∃ (s : State) (d : DieId),
    up s d = true ∧
    (s.die d).hk.trip = true) ∧
  (∃ (s : State) (d : DieId),
    up s d = true ∧
    s.fretOpen d 28 29 = true ∧
    (s.die d).stroke.hkOvr = false ∧
    (s.die d).hk.dueLoad ≠ 0) ∧
  (∃ (s : State) (d : DieId) (p : Fin 8) (w : Int),
    up s d = true ∧
    (s.die d).hk.pwmOn p.val = true ∧
    bit (s.die d).hk.loading p.val = true ∧
    w = (s.die d).hk.nextWrap p.val (SMap.get 0 (s.die d).hk.moved p.val * 1280 + 1120) ∧
    w < (s.stroke d + 1) * 1280) ∧
  (∃ (s u : State) (k : Packet),
    takes s u k 0x0901 = true ∧
    k.target.toNat < 2 ∧
    k.w 4 < 2048 ∧
    seqTrig (BitVec.ofNat 16 (k.w 4)) ≠ 3 ∧
    (seqTrig (BitVec.ofNat 16 (k.w 4)) = 1 → k.w 5 % 65536 ≠ 0) ∧
    stepsOk (k.w 6) = true ∧ stepsOk (k.w 7) = true ∧
    stepsOk (k.w 8) = true ∧ stepsOk (k.w 9) = true) ∧
  (∃ (s u : State) (k : Packet),
    takes0 s u k 0x0902 = true ∧
    1 ≤ k.w 4 ∧
    k.w 4 ≤ 4 ∧
    (u.die k.die).hk.inj.length + k.w 4 ≤ 4 ∧
    (u.die k.die).clk.gHk = false ∧
    (u.die k.die).clk.gDie = false) ∧
  (∃ (s u : State) (k : Packet),
    takes0 s u k 0x0903 = true ∧
    (u.die k.die).hk.cal = 0 ∧
    (u.die k.die).clk.gHk = false ∧
    (u.die k.die).clk.gDie = false) ∧
  (∃ (s u : State) (k : Packet),
    takes s u k 0x0904 = true ∧
    k.target.toNat < 8 ∧
    k.w 5 < 2 ^ 19 ∧
    k.w 5 % 65536 ≤ k.w 4 % 65536) :=
  ⟨⟨(W.hk (fun v => { v with conv := 3, seq1 := { v.seq1 with state := 2, step := 0, cfg := 0x0401, steps := [3, 4] } })).onDie 1 (fun x => x.setAct oHkBuf 1), 1, 0xFFF, 1, { ({} : Seq) with state := 2, step := 0, cfg := 0x0401, steps := [3, 4] }, by decide +kernel⟩,
   ⟨W.hk (fun v => { v with conv := 1, inj := [(3, true), (4, false)], injOps := [(W.packet 6 1 0 [2, 0x0403], 0)] }), 1, 0xFFF, 3, true, [(4, false)], (W.packet 6 1 0 [2, 0x0403], 0), [], by decide +kernel⟩,
   ⟨W.hk (fun v => { v with cal := 2, calRes := [5] }), 1, 0xFFF, by decide +kernel⟩,
   ⟨W.at 8 W.run |>.onDie 1 (fun x => { ((x.setAct (oSeqCfg 1) 0x0410).setAct (oSeqN 1) 4) with stroke := { x.stroke with count := 8 } }), 1, 1, by decide +kernel⟩,
   ⟨W.run.onDie 1 (fun x => x.setAct (oSeqCfg 1) 0x05E0), 1, 7, true, 1, by decide +kernel⟩,
   ⟨W.hk (fun v => { v with seq0 := { v.seq0 with delay := true } }), 1, 0, by decide +kernel⟩,
   ⟨(W.hk (fun v => { v with seq1 := { v.seq1 with state := 2, pend := true } })).onDie 1 (fun x => x.setAct (oSeqCfg 1) 0x0410), 1, 1, by decide +kernel⟩,
   ⟨W.hk (fun v => { v with cal := 2, calRes := List.replicate 96 7, inj := [(3, false)], calOp := some (W.packet 4 1 0 [], 0) }), 1, by decide +kernel⟩,
   ⟨W.hk (fun v => { v with rp := 8191, wp := 1, count := 2 }), 1, 1, by decide +kernel⟩,
   ⟨W.run, 1, 0x80, by decide +kernel⟩,
   ⟨W.hk (fun v => { v with trip := true, above := 1 }), 1, by decide +kernel⟩,
   ⟨W.hk (fun v => { v with dueLoad := 0x81 }), 1, by decide +kernel⟩,
   ⟨W.hk (fun v => { v with pwm := [(28, 1), (29, 9)], load := [(28, 3), (29, 19)], loading := 0x80 }), 1, 7, 1120, by decide +kernel⟩,
   ⟨W.run, State.takeInbox (W.run) (W.packet 10 1 1 [0x041F, 0x00000001, 0x1F1F1F1F, 0, 0, 0]) 0x0901, W.packet 10 1 1 [0x041F, 0x00000001, 0x1F1F1F1F, 0, 0, 0], by decide +kernel⟩,
   ⟨W.run, State.takeInbox (W.run) (W.packet 6 1 0 [4, 0x04030201]) 0x0902, W.packet 6 1 0 [4, 0x04030201], by decide +kernel⟩,
   ⟨W.run, State.takeInbox (W.run) (W.packet 4 1 0 []) 0x0903, W.packet 4 1 0 [], by decide +kernel⟩,
   ⟨W.run, State.takeInbox (W.run) (W.packet 6 1 7 [0x00100020, 0x00010020]) 0x0904, W.packet 6 1 7 [0x00100020, 0x00010020], by decide +kernel⟩⟩

theorem witness_PwmAndHkCommands :
  (∃ (s : State) (d : DieId),
    up s d = true ∧
    s.fretOpen d 28 29 = true ∧
    (s.die d).stroke.hkOvr = false ∧
    (s.die d).hk.dueLoad ≠ 0) ∧
  (∃ (s : State) (d : DieId) (p : Fin 8) (w : Int),
    up s d = true ∧
    (s.die d).hk.pwmOn p.val = true ∧
    bit (s.die d).hk.loading p.val = true ∧
    w = (s.die d).hk.nextWrap p.val (SMap.get 0 (s.die d).hk.moved p.val * 1280 + 1120) ∧
    w < (s.stroke d + 1) * 1280) ∧
  (∃ (s u : State) (k : Packet),
    takes s u k 0x0901 = true ∧
    k.target.toNat < 2 ∧
    k.w 4 < 2048 ∧
    seqTrig (BitVec.ofNat 16 (k.w 4)) ≠ 3 ∧
    (seqTrig (BitVec.ofNat 16 (k.w 4)) = 1 → k.w 5 % 65536 ≠ 0) ∧
    stepsOk (k.w 6) = true ∧ stepsOk (k.w 7) = true ∧
    stepsOk (k.w 8) = true ∧ stepsOk (k.w 9) = true) ∧
  (∃ (s u : State) (k : Packet),
    takes0 s u k 0x0902 = true ∧
    1 ≤ k.w 4 ∧
    k.w 4 ≤ 4 ∧
    (u.die k.die).hk.inj.length + k.w 4 ≤ 4 ∧
    (u.die k.die).clk.gHk = false ∧
    (u.die k.die).clk.gDie = false) ∧
  (∃ (s u : State) (k : Packet),
    takes0 s u k 0x0903 = true ∧
    (u.die k.die).hk.cal = 0 ∧
    (u.die k.die).clk.gHk = false ∧
    (u.die k.die).clk.gDie = false) ∧
  (∃ (s u : State) (k : Packet),
    takes0 s u k 0x0903 = true ∧
    (u.die k.die).hk.cal ≠ 0) ∧
  (∃ (s u : State) (k : Packet),
    takes s u k 0x0904 = true ∧
    k.target.toNat < 8 ∧
    k.w 5 < 2 ^ 19 ∧
    k.w 5 % 65536 ≤ k.w 4 % 65536) ∧
  (∃ (s : State) (d : DieId) (_code : BitVec 12) (i : Nat) (f : Bool) (l : List (Nat × Bool)) (k : Packet × Nat) (m : List (Packet × Nat)),
    up s d = true ∧
    (s.die d).hk.conv = 1 ∧
    (s.die d).hk.inj = (i, f) :: l ∧
    (s.die d).hk.injOps = k :: m ∧
    (s.die d).hk.injDone.length + 1 < injCount k.1) ∧
  (∃ (s : State) (d : DieId) (n : Fin 2),
    up s d = true ∧
    s.pos < 1160 ∧
    seqEn ((s.die d).act (oSeqCfg n.val)) = true ∧
    seqTrig ((s.die d).act (oSeqCfg n.val)) = 1 ∧
    ((s.die d).act (oSeqN n.val)).toNat ≠ 0 ∧
    s.stroke d % ((s.die d).act (oSeqN n.val)).toNat = 0 ∧
    (s.die d).stroke.hkOvr = false ∧
    (s.die d).clk.gHk = false ∧
    ((s.die d).hk.seq n.val).state = 0 ∧
    ((s.die d).hk.seq n.val).trigAt ≠ s.stroke d + 1) ∧
  (∃ (s : State) (d : DieId) (c : Fin 8) (rising : Bool) (n : Fin 2),
    up s d = true ∧
    seqEn ((s.die d).act (oSeqCfg n.val)) = true ∧
    seqTrig ((s.die d).act (oSeqCfg n.val)) = 2 ∧
    seqCh ((s.die d).act (oSeqCfg n.val)) = c.val ∧
    seqFall ((s.die d).act (oSeqCfg n.val)) ≠ rising ∧
    (s.die d).clk.gHk = false ∧ (s.die d).clk.gDie = false ∧
    ((s.die d).hk.seq n.val).delay = false) ∧
  (∃ (s : State) (d : DieId) (n : Fin 2),
    up s d = true ∧
    ((s.die d).hk.seq n.val).delay = true ∧
    (s.die d).clk.gHk = false ∧ (s.die d).clk.gDie = false ∧
    ((s.die d).hk.seq n.val).delayAt + 2 * ((s.die d).act (oSeqDly n.val)).toNat ≤ s.stamp d ∧
    ((s.die d).hk.seq n.val).state = 0) ∧
  (∃ (s : State) (d : DieId) (n : Fin 2),
    up s d = true ∧
    seqEn ((s.die d).act (oSeqCfg n.val)) = true ∧
    (((s.die d).hk.seq n.val).state = 1 ∨ (2 ≤ ((s.die d).hk.seq n.val).state ∧ ((s.die d).hk.seq n.val).pend = true)) ∧
    ((s.die d).hk.seq n.val).told = false) ∧
  (∃ (s : State) (d : DieId),
    up s d = true ∧
    (s.die d).hk.cal = 2 ∧
    (s.die d).hk.calRes.length = 96) ∧
  (∃ (s : State) (d : DieId) (rp : BitVec 13),
    up s d = true ∧
    (rp.toNat + 8192 - (s.die d).hk.rp) % 8192 ≤ (s.die d).hk.count) ∧
  (∃ (s : State) (d : DieId) (m : Byte),
    up s d = true ∧
    (s.die d).hk.trip = false ∧
    m ≠ 0) ∧
  (∃ (s : State) (d : DieId),
    up s d = true ∧
    (s.die d).hk.trip = true) :=
  ⟨⟨W.hk (fun v => { v with dueLoad := 0x81 }), 1, by decide +kernel⟩,
   ⟨W.hk (fun v => { v with pwm := [(28, 1), (29, 9)], load := [(28, 3), (29, 19)], loading := 0x80 }), 1, 7, 1120, by decide +kernel⟩,
   ⟨W.run, State.takeInbox (W.run) (W.packet 10 1 1 [0x041F, 0x00000001, 0x1F1F1F1F, 0, 0, 0]) 0x0901, W.packet 10 1 1 [0x041F, 0x00000001, 0x1F1F1F1F, 0, 0, 0], by decide +kernel⟩,
   ⟨W.run, State.takeInbox (W.run) (W.packet 6 1 0 [4, 0x04030201]) 0x0902, W.packet 6 1 0 [4, 0x04030201], by decide +kernel⟩,
   ⟨W.run, State.takeInbox (W.run) (W.packet 4 1 0 []) 0x0903, W.packet 4 1 0 [], by decide +kernel⟩,
   ⟨W.hk (fun v => { v with cal := 1 }), State.takeInbox (W.hk (fun v => { v with cal := 1 })) (W.packet 4 1 0 []) 0x0903, W.packet 4 1 0 [], by decide +kernel⟩,
   ⟨W.run, State.takeInbox (W.run) (W.packet 6 1 7 [0x00100020, 0x00010020]) 0x0904, W.packet 6 1 7 [0x00100020, 0x00010020], by decide +kernel⟩,
   ⟨W.hk (fun v => { v with conv := 1, inj := [(3, true), (4, false)], injOps := [(W.packet 6 1 0 [2, 0x0403], 0)] }), 1, 0xFFF, 3, true, [(4, false)], (W.packet 6 1 0 [2, 0x0403], 0), [], by decide +kernel⟩,
   ⟨W.at 8 W.run |>.onDie 1 (fun x => { ((x.setAct (oSeqCfg 1) 0x0410).setAct (oSeqN 1) 4) with stroke := { x.stroke with count := 8 } }), 1, 1, by decide +kernel⟩,
   ⟨W.run.onDie 1 (fun x => x.setAct (oSeqCfg 1) 0x05E0), 1, 7, true, 1, by decide +kernel⟩,
   ⟨W.hk (fun v => { v with seq0 := { v.seq0 with delay := true } }), 1, 0, by decide +kernel⟩,
   ⟨(W.hk (fun v => { v with seq1 := { v.seq1 with state := 2, pend := true } })).onDie 1 (fun x => x.setAct (oSeqCfg 1) 0x0410), 1, 1, by decide +kernel⟩,
   ⟨W.hk (fun v => { v with cal := 2, calRes := List.replicate 96 7, inj := [(3, false)], calOp := some (W.packet 4 1 0 [], 0) }), 1, by decide +kernel⟩,
   ⟨W.hk (fun v => { v with rp := 8191, wp := 1, count := 2 }), 1, 1, by decide +kernel⟩,
   ⟨W.run, 1, 0x80, by decide +kernel⟩,
   ⟨W.hk (fun v => { v with trip := true, above := 1 }), 1, by decide +kernel⟩⟩

theorem witness_ControllerPorts :
  (∃ (s u : State) (k : Packet),
    takes s u k 0x0E01 = true ∧
    k.target.toNat < 2 ∧
    twiParamsOk k = true ∧
    (u.die k.die).mcEn k.target.toNat = true ∧
    (u.die k.die).busy 5 k.target.toNat = false ∧
    (u.die k.die).peg.ops.length < 64) ∧
  (∃ (s u : State) (k : Packet),
    takes s u k 0x0E01 = true ∧
    k.target.toNat < 2 ∧
    twiParamsOk k = true ∧
    (u.die k.die).mcEn k.target.toNat = true ∧
    (u.die k.die).busy 5 k.target.toNat = true) ∧
  (∃ (s u : State) (k : Packet),
    takes s u k 0x0E01 = true ∧
    k.target.toNat < 2 ∧
    twiParamsOk k = true ∧
    (u.die k.die).mcEn k.target.toNat = false) ∧
  (∃ (s u : State) (k : Packet),
    takes s u k 0x0E02 = true ∧
    k.target.toNat < 2 ∧
    k.w 4 < 128 ∧
    (u.die k.die).mcEn k.target.toNat = true ∧
    (u.die k.die).busy 5 k.target.toNat = false ∧
    (u.die k.die).peg.ops.length < 64) ∧
  (∃ (s : State) (d : DieId) (m : McId) (acked : Byte) (o : Op),
    up s d = true ∧
    (s.die d).mcRuns m.val = some o ∧
    acked = 0 ∧ o.cancel = false ∧
    ((s.die d).twi.port m.val).retries < (s.die d).twiRetry m.val o.opcode o.packet) ∧
  (∃ (s : State) (d : DieId) (m : McId) (_acked : Byte) (_data : List Byte) (o : Op),
    up s d = true ∧
    (s.die d).mcRuns m.val = some o ∧
    ((s.die d).twi.port m.val).active = true) ∧
  (∃ (s : State) (d : DieId) (m : McId) (_pulses : Fin 10),
    up s d = true ∧
    (s.die d).mcEn m.val = true ∧
    (s.die d).clearDue m.val = true) ∧
  (∃ (s : State) (d : DieId) (m : McId),
    up s d = true ∧
    (s.die d).mcEn m.val = true ∧
    (s.die d).clearDue m.val = true ∧
    (s.die d).mcOp m.val = none) ∧
  (∃ (s : State) (d : DieId) (m : McId) (_acked : Byte) (_data : List Byte) (o : Op),
    up s d = true ∧
    (s.die d).mcRuns m.val = some o ∧
    ((s.die d).twi.port m.val).active = true) ∧
  (∃ (s : State) (d : DieId) (m : McId) (acked : Byte) (data : List Byte) (o : Op),
    up s d = true ∧
    (s.die d).mcRuns m.val = some o ∧
    o.cancel = false ∧
    (s.die d).pegRuns = true ∧
    o.lastProg.isSome = true ∧
    o.opcode = 0x0E01 ∧
    acked.toNat = twiWlen o.packet ∧
    twiRlen o.packet ≤ data.length ∧
    twiPecOk o.packet data = true) ∧
  (∃ (s : State) (d : DieId) (m : McId) (_acked : Byte) (data : List Byte) (o : Op),
    up s d = true ∧
    (s.die d).mcRuns m.val = some o ∧
    o.cancel = false ∧
    o.opcode = 0x0E01 ∧
    twiPecOk o.packet data = false) ∧
  (∃ (s : State) (d : DieId) (m : McId) (_result : Fin 8) (_acked : Byte) (_data : List Byte),
    (s.die d).mcRuns m.val = none) ∧
  (∃ (s : State) (e : AccessId) (l : List Byte) (x w : Word),
    l = [(s.die (accessDie s.part e)).twi.addrByte false, x.extractLsb' 24 8, x.extractLsb' 16 8, x.extractLsb' 8 8, x.extractLsb' 0 8, w.extractLsb' 24 8, w.extractLsb' 16 8, w.extractLsb' 8 8, w.extractLsb' 0 8] ∧
    s.running = true ∧
    (s.die (accessDie s.part e)).twi.occupied = false ∧
    frameOk x = true ∧
    frameSpace x = 0 ∧
    windowDie (frameOff x) ≠ (accessDie s.part e) ∧
    present s.part (windowDie (frameOff x)) = true) ∧
  (∃ (s : State) (e : AccessId) (l : List Byte) (x : Word) (sel : RegSel),
    l = [(s.die (accessDie s.part e)).twi.addrByte false, x.extractLsb' 24 8, x.extractLsb' 16 8, x.extractLsb' 8 8, x.extractLsb' 0 8, (s.die (accessDie s.part e)).twi.addrByte true] ∧
    s.running = true ∧
    (s.die (accessDie s.part e)).twi.occupied = false ∧
    (s.die (accessDie s.part e)).twi.read = none ∧
    frameOk x = true ∧
    frameSpace x = 0 ∧
    windowDie (frameOff x) = (accessDie s.part e) ∧
    present s.part (accessDie s.part e) = true ∧
    s.busRegister true (accessDie s.part e) (windowOff (frameOff x)) = some sel) ∧
  (∃ (s : State) (e : AccessId),
    s.running = true ∧
    (s.die (accessDie s.part e)).twi.wres ≠ 4) ∧
  (∃ (s : State) (e : AccessId),
    s.running = true ∧
    (s.die (accessDie s.part e)).twi.occupied = true) ∧
  (∃ (s : State) (e : AccessId),
    s.running = true ∧
    (s.die (accessDie s.part e)).twi.read.isSome = true) ∧
  (∃ (s : State) (_e : AccessId),
    s.running = true) ∧
  (∃ (s : State) (e : AccessId) (_frame : Bool),
    s.running = true ∧
    fld ((s.die (accessDie s.part e)).act oTcfg) 1 1 = 1 ∧
    (s.die (accessDie s.part e)).twi.read.isSome = true) ∧
  (∃ (s : State) (e : AccessId),
    s.running = true ∧
    (s.die (accessDie s.part e)).alert = true ∧
    fld ((s.die (accessDie s.part e)).act oTcfg) 0 0 = 1) ∧
  (∃ (s : State) (e : AccessId),
    s.running = true ∧
    (s.die (accessDie s.part e)).evt.relAlert = true ∧
    (s.die (accessDie s.part e)).evt.relAt < s.stroke (accessDie s.part e)) :=
  ⟨⟨W.mcOn, State.takeInbox (W.mcOn) (W.packet 7 1 1 [0x0077, 0x0104, 0xAABBCCDD]) 0x0E01, W.packet 7 1 1 [0x0077, 0x0104, 0xAABBCCDD], by decide +kernel⟩,
   ⟨W.mcOn.onDie 1 (fun x => { x with peg := { x.peg with ops := [{ W.op 0x0E02 5 1 [] with tag := 9 }] } }), State.takeInbox (W.mcOn.onDie 1 (fun x => { x with peg := { x.peg with ops := [{ W.op 0x0E02 5 1 [] with tag := 9 }] } })) (W.packet 6 1 1 [0x0008, 0]) 0x0E01, W.packet 6 1 1 [0x0008, 0], by decide +kernel⟩,
   ⟨W.run, State.takeInbox (W.run) (W.packet 6 1 1 [0x0008, 0]) 0x0E01, W.packet 6 1 1 [0x0008, 0], by decide +kernel⟩,
   ⟨W.mcOn, State.takeInbox (W.mcOn) (W.packet 5 1 1 [0]) 0x0E02, W.packet 5 1 1 [0], by decide +kernel⟩,
   ⟨(W.mcOn.onDie 1 (fun x => x.setAct (oMcfg 1) 0x0C01)).onDie 1 (fun x => { x with peg := { x.peg with ops := [W.mcOp] } }), 1, 1, 0, W.mcOp, by decide +kernel⟩,
   ⟨(W.mcOn.onMc 1 1 (fun v => { v with active := true })).onDie 1 (fun x => { x with peg := { x.peg with ops := [W.mcOp] } }), 1, 1, 3, [], W.mcOp, by decide +kernel⟩,
   ⟨W.mcOn.onMc 1 1 (fun v => { v with check := true, sda := false }), 1, 1, 9, by decide +kernel⟩,
   ⟨W.mcOn.onMc 1 0 (fun v => { v with check := true, sda := false }), 1, 0, by decide +kernel⟩,
   ⟨(W.mcOn.onMc 1 1 (fun v => { v with active := true })).onDie 1 (fun x => { x with peg := { x.peg with ops := [W.mcOp] } }), 1, 1, 2, [], W.mcOp, by decide +kernel⟩,
   ⟨W.mcOn.onDie 1 (fun x => { x with peg := { x.peg with ops := [{ W.mcOp with lastProg := some 0, packet := W.packet 6 1 1 [0x0050, 0x0202, 0] }] } }), 1, 1, 2, [0x11, 0x22], { W.mcOp with lastProg := some 0, packet := W.packet 6 1 1 [0x0050, 0x0202, 0] }, by decide +kernel⟩,
   ⟨W.mcOn.onDie 1 (fun x => { x with peg := { x.peg with ops := [{ W.mcOp with packet := W.packet 6 1 1 [0x0150, 0x0202, 0] }] } }), 1, 1, 2, [0x11, 0x22, 0], { W.mcOp with packet := W.packet 6 1 1 [0x0150, 0x0202, 0] }, by decide +kernel⟩,
   ⟨W.mcOn, 1, 0, 0, 0, [], by decide +kernel⟩,
   ⟨W.run, 0, [(W.run.die 0).twi.addrByte false, 0x00, 0x41, 0x01, 0x00, 0x00, 0x01, 0x00, 0x01], 0x00410100, 0x00010001, by decide +kernel⟩,
   ⟨W.run, 1, [(W.run.die 1).twi.addrByte false, 0x00, 0x41, 0x01, 0x00, (W.run.die 1).twi.addrByte true], 0x00410100, (lookup 0x10100).getD ⟨⟨.dieId, 0x00000, 1, 0x0, 1, 0x0, .none, 0x0000, 0x0000, 0x0000⟩, 0, 0⟩, by decide +kernel⟩,
   ⟨W.run.onTwi 0 (fun v => { v with wbuf := some (0, 0), wres := 0 }), 0, by decide +kernel⟩,
   ⟨W.run.onTwi 0 (fun v => { v with wbuf := some (0, 0), wres := 4 }), 0, by decide +kernel⟩,
   ⟨W.run.onTwi 1 (fun v => { v with read := some (0, 0) }), 1, by decide +kernel⟩,
   ⟨W.run, 1, by decide +kernel⟩,
   ⟨(W.run.onTwi 1 (fun v => { v with read := some (0, 0) })).onDie 1 (fun x => x.setAct oTcfg 2), 1, true, by decide +kernel⟩,
   ⟨W.run.onDie 1 (fun x => { ((x.setAct oTcfg 1).setAct oEvtCfg 2) with evt := { x.evt with nmis := [5], unmasked := [5] } }), 1, by decide +kernel⟩,
   ⟨W.at 1 (W.run.onDie 0 (fun x => { x with evt := { x.evt with relAlert := true } })), 0, by decide +kernel⟩⟩

theorem witness_Telemetry :
  (∃ (s : State) (d : DieId),
    up s d = true ∧
    s.fretOpen d 21 24 = true ∧
    (s.die d).stroke.pegOvr = false) ∧
  (∃ (s : State) (d : DieId),
    up s d = true ∧
    s.fretOpen d 21 24 = true ∧
    (s.die d).stroke.pegOvr = true) ∧
  (∃ (s u : State) (k : Packet),
    takes0 s u k 0x0B01 = true ∧
    k.w 4 < 65536 ∧
    1 ≤ k.w 5 ∧
    k.w 5 ≤ 3068 ∧
    4 * (k.w 4 + k.w 5) ≤ 0xD000 ∧
    (u.die k.die).snapWaits = false) ∧
  (∃ (s u : State) (k : Packet),
    takes0 s u k 0x0B01 = true ∧
    (0xD000 < 4 * (k.w 4 % 65536 + k.w 5) ∨ k.w 5 = 0)) ∧
  (∃ (s : State) (p : PortId) (dir : Side) (k : Nat) (_l : List (MBlock × Word)),
    up s p.die = true ∧
    ((s.port p).dir dir).metEn = true ∧
    (s.port p).carrying = true ∧
    ((s.port p).dir dir).metW ≠ 0 ∧
    (s.stroke p.die - ((s.port p).dir dir).metFrom) % ((s.port p).dir dir).metW = 0 ∧
    k < (s.stroke p.die - ((s.port p).dir dir).metFrom) / ((s.port p).dir dir).metW ∧
    k + 1 = (s.stroke p.die - ((s.port p).dir dir).metFrom) / ((s.port p).dir dir).metW ∧
    ((s.port p).dir dir).metWin ≤ k) ∧
  (∃ (s : State) (p : PortId) (dir : Side) (k : Nat) (_a _b : Word) (x y : Bool × BitVec 64),
    up s p.die = true ∧
    ((s.port p).dir dir).metEn = true ∧
    (s.port p).carrying = true ∧
    ((s.port p).dir dir).metW ≠ 0 ∧
    (s.stroke p.die - ((s.port p).dir dir).metFrom) % ((s.port p).dir dir).metW = 0 ∧
    k < (s.stroke p.die - ((s.port p).dir dir).metFrom) / ((s.port p).dir dir).metW ∧
    k + 1 = (s.stroke p.die - ((s.port p).dir dir).metFrom) / ((s.port p).dir dir).metW ∧
    ((s.port p).dir dir).metWin ≤ k ∧
    rate ((s.die p.die).cfga p.key) ≠ 3 ∧
    isIdle x = true ∧
    isIdle y = false) ∧
  (∃ (s : State) (p : PortId) (dir : Side) (n : BitVec 16) (_tp : TagPoints),
    up s p.die = true ∧
    ((s.port p).dir dir).tagEn = true ∧
    ((s.port p).dir dir).fecLock = true ∧
    ((s.port p).dir dir).tagSeen < n.toNat ∧
    ((s.port p).dir dir).tags n.toNat = true ∧
    hasFec ((s.die p.die).cfga p.key) = true ∧
    (s.port p).carrying = true) ∧
  (∃ (s : State) (p : PortId) (dir : Side) (n : BitVec 16) (_tp : TagPoints),
    ((s.port p).dir dir).tags n.toNat = false) ∧
  (∃ (s : State) (d : DieId) (_pc : Word) (n : Nat),
    up s d = true ∧
    (s.die d).tele.profRun = true ∧
    (s.die d).pegRuns = true ∧
    n = (s.die d).tele.nextSample (s.stroke d * 1280 + s.pos) ∧
    s.stroke d * 1280 + s.pos ≤ n ∧
    n < (s.stroke d + 1) * 1280) ∧
  (∃ (s u : State) (k : Packet) (p : PortId),
    takesPort s u k 0x0B02 p = true ∧
    k.w 4 % 4 = 0 ∧
    tagParamsOk 0 (k.w 4) (k.w 5) = true ∧
    hasFec ((u.die p.die).cfga p.key) = true) ∧
  (∃ (s u : State) (k : Packet) (p : PortId),
    takesPort s u k 0x0B02 p = true ∧
    k.w 4 % 4 = 0 ∧
    tagParamsOk 0 (k.w 4) (k.w 5) = true ∧
    hasFec ((u.die p.die).cfga p.key) = false) ∧
  (∃ (s u : State) (k : Packet) (p : PortId),
    takesPort s u k 0x0B02 p = true ∧
    k.w 4 % 4 = 0 ∧
    bit (k.w 4) 2 = true ∧
    k.w 5 = 0) ∧
  (∃ (s u : State) (k : Packet) (p : PortId),
    takesPort s u k 0x0B02 p = true ∧
    k.w 4 % 4 = 1 ∧
    tagParamsOk 1 (k.w 4) (k.w 5) = true ∧
    hasMeter ((u.die p.die).cfga p.key) = true) ∧
  (∃ (s u : State) (k : Packet),
    takes0 s u k 0x0B02 = true ∧
    k.w 4 % 4 = 2 ∧
    tagParamsOk 2 (k.w 4) (k.w 5) = true) :=
  ⟨⟨W.run, 1, by decide +kernel⟩,
   ⟨W.run.onDie 1 (fun x => { x with stroke := { x.stroke with pegOvr := true } }), 1, by decide +kernel⟩,
   ⟨W.run, State.takeInbox (W.run) (W.packet 6 1 0 [10244, 3068]) 0x0B01, W.packet 6 1 0 [10244, 3068], by decide +kernel⟩,
   ⟨W.run, State.takeInbox (W.run) (W.packet 6 1 0 [10245, 3068]) 0x0B01, W.packet 6 1 0 [10245, 3068], by decide +kernel⟩,
   ⟨(W.at 10 W.live).onDir ⟨0, 0, 0⟩ .line (fun m => { m with metEn := true, metW := 5 }), ⟨0, 0, 0⟩, .line, 1, [(.data257, 3)], by decide +kernel⟩,
   ⟨(W.at 10 W.live).onDir ⟨0, 0, 0⟩ .line (fun m => { m with metEn := true, metW := 5 }), ⟨0, 0, 0⟩, .line, 1, 3, 4, (true, idleBlock), (false, idleBlock), by decide +kernel⟩,
   ⟨(W.port 0x0202).onDir ⟨0, 0, 0⟩ .host (fun m => { m with tagEn := true, fecLock := true, hist := [(0, 0xFFFFFFFF)] }), ⟨0, 0, 0⟩, .host, 2, ⟨7, 8, 9, 10⟩, by decide +kernel⟩,
   ⟨(W.port 0x0202).onDir ⟨0, 0, 0⟩ .host (fun m => { m with tagEn := true, fecLock := true, tagK := 4, tagLfsr := 1 }), ⟨0, 0, 0⟩, .host, 2, ⟨7, 8, 9, 10⟩, by decide +kernel⟩,
   ⟨W.run.onDie 1 (fun x => { x with tele := { x.tele with profRun := true, profWp := 4095, profM := 8, profLast := 300 } }), 1, 0xDEADBEEF, 512, by decide +kernel⟩,
   ⟨W.port 0x0202, State.takeInbox (W.port 0x0202) (W.packet 6 0 0 [0x00FF0184, 1]) 0x0B02, W.packet 6 0 0 [0x00FF0184, 1], ⟨0, 0, 0⟩, by decide +kernel⟩,
   ⟨W.live, State.takeInbox (W.live) (W.packet 6 0 0 [0x00FF0184, 1]) 0x0B02, W.packet 6 0 0 [0x00FF0184, 1], ⟨0, 0, 0⟩, by decide +kernel⟩,
   ⟨W.port 0x0202, State.takeInbox (W.port 0x0202) (W.packet 6 0 0 [0x00FF0184, 0]) 0x0B02, W.packet 6 0 0 [0x00FF0184, 0], ⟨0, 0, 0⟩, by decide +kernel⟩,
   ⟨W.port 0x0202, State.takeInbox (W.port 0x0202) (W.packet 6 0 0 [0xD, 65535]) 0x0B02, W.packet 6 0 0 [0xD, 65535], ⟨0, 0, 0⟩, by decide +kernel⟩,
   ⟨W.run, State.takeInbox (W.run) (W.packet 6 1 0 [0x186, 0]) 0x0B02, W.packet 6 1 0 [0x186, 0], by decide +kernel⟩⟩

theorem witness_SelfTests :
  (∃ (s u : State) (k : Packet) (n : Nat),
    takes s u k 0x0C01 = true ∧
    n = k.w 4 % 256 ∧
    1 ≤ n ∧
    n ≤ 9 ∧
    k.w 4 < 1024 ∧
    k.w 5 < 2 ^ 24 ∧
    (n ≠ 2 → k.w 5 = 0) ∧
    u.testTargetOk k n = true ∧
    u.testDenied k.die n k.target.toNat = none ∧
    (u.die k.die).peg.ops.length < 64 ∧
    (n = 1 → (u.die k.die).testLive k.target.toNat = false)) ∧
  (∃ (s u : State) (k : Packet) (pos : Nat),
    takes s u k 0x0C01 = true ∧
    k.w 4 % 256 = 1 ∧
    k.w 4 < 1024 ∧
    k.w 5 = 0 ∧
    u.testTargetOk k 1 = true ∧
    u.testDenied k.die 1 k.target.toNat = none ∧
    (u.die k.die).peg.ops.length < 64 ∧
    (u.die k.die).testLive k.target.toNat = true ∧
    (u.die k.die).posOf k.target.toNat = some pos) ∧
  (∃ (s u : State) (k : Packet),
    takes s u k 0x0C01 = true ∧
    (k.w 4 % 256 = 0 ∨ 9 < k.w 4 % 256)) ∧
  (∃ (s : State) (d : DieId) (b : Test) (work : Nat),
    up s d = true ∧
    (s.die d).testOf b.tag = some b ∧
    b.isol = true ∧
    b.paused = false ∧
    (s.die d).clk.fresh 2 10 = false ∧
    b.copies = false ∧
    work ≤ b.sliceMax (s.stroke d) ∧
    ((s.die d).bistOn = true → s.pos < 1120) ∧
    (s.die d).testOp b = none ∧
    b.test ≠ 1 ∧ b.test ≠ 5 ∧
    ((s.die d).bistOn = true ∨ testFree b.test = true)) ∧
  (∃ (s : State) (d : DieId) (b : Test) (work : Nat),
    b.sliceMax (s.stroke d) < work ∧
    (s.die d).testOf b.tag = some b) ∧
  (∃ (s : State) (d : DieId) (b : Test) (work : Nat),
    up s d = true ∧
    (s.die d).testOf b.tag = some b ∧
    b.isol = true ∧
    b.paused = false ∧
    (s.die d).clk.fresh 2 10 = false ∧
    b.copies = false ∧
    work ≤ b.sliceMax (s.stroke d) ∧
    ((s.die d).bistOn = true → s.pos < 1120) ∧
    (s.die d).testOp b = none ∧
    b.test = 1 ∧
    ((s.die d).rot (sliceCourse b.target) (sliceSide b.target)).want = 1) ∧
  (∃ (s : State) (d : DieId) (b : Test) (work : Nat) (o : Op),
    up s d = true ∧
    (s.die d).testOf b.tag = some b ∧
    b.isol = true ∧
    b.paused = false ∧
    (s.die d).clk.fresh 2 10 = false ∧
    b.copies = false ∧
    work ≤ b.sliceMax (s.stroke d) ∧
    ((s.die d).bistOn = true → s.pos < 1120) ∧
    (s.die d).testOp b = some o ∧
    o.cancel = true) ∧
  (∃ (s : State) (d : DieId) (b : Test) (work : Nat),
    up s d = true ∧
    (s.die d).testOf b.tag = some b ∧
    b.isol = true ∧
    b.paused = false ∧
    (s.die d).clk.fresh 2 10 = false ∧
    b.copies = false ∧
    work ≤ b.sliceMax (s.stroke d) ∧
    ((s.die d).bistOn = true → s.pos < 1120) ∧
    (s.die d).testOp b = none ∧
    b.test ≠ 1 ∧
    (s.die d).bistOn = false ∧ testFree b.test = false) ∧
  (∃ (s : State) (d : DieId) (b : Test) (clock : Bool),
    up s d = true ∧
    (s.die d).testOf b.tag = some b ∧
    b.isol = true ∧
    b.paused = false ∧
    (clock = true → b.test = 7 ∧ ((s.die d).clk.failing = true ∨ (s.die d).clk.defer = true)) ∧
    (clock = false → b.test = 6 ∧ (s.die d).trainsNow (b.target % 64) = true)) ∧
  (∃ (s : State) (d : DieId) (b : Test),
    up s d = true ∧
    (s.die d).testOf b.tag = some b ∧
    b.isol = true ∧
    b.paused = false ∧
    b.test = 1 ∧
    b.target < 152 ∧
    (s.die d).ports.any (fun p => p.1 / 8 == sliceCourse b.target && (s.die d).trainsNow p.1) = true) ∧
  (∃ (s : State) (d : DieId) (b : Test) (sig _loc : Word) (_rep : Bool),
    up s d = true ∧
    (s.die d).testOf b.tag = some b ∧
    (s.die d).mayEnd b .pass sig.toNat = true ∧
    b.test ≠ 2 ∧ b.test ≠ 8) ∧
  (∃ (s : State) (d : DieId) (b : Test) (sig _loc : Word) (_rep : Bool),
    up s d = true ∧
    (s.die d).testOf b.tag = some b ∧
    (s.die d).mayEnd b .fail sig.toNat = true ∧
    b.test = 1 ∧
    b.rep = 0 ∧
    b.target < 152) ∧
  (∃ (s u : State) (k : Packet),
    takes s u k 0x0C03 = true ∧
    k.target.toNat < 65536 ∧
    macOk k.target.toNat = true ∧
    k.w 4 = 0xFF ∧
    k.w 5 < 2 ^ 17 ∧
    (u.die k.die).macroIsolated k.target.toNat = true ∧
    (u.die k.die).spareFree k.target.toNat (k.w 5) = true ∧
    (u.die k.die).peg.ops.length < 64) ∧
  (∃ (s u : State) (k : Packet),
    takes s u k 0x0C04 = true ∧
    k.target.toNat < 65536 ∧
    macOk k.target.toNat = true ∧
    k.w 4 = Config.serial.toNat % 65536 ^^^ 0xA5A5 ∧
    (u.die k.die).bist.burnOf = [] ∧
    u.nvRepairs k.die k.target.toNat ≠ [] ∧
    (u.die k.die).bist.fuses + (u.nvRepairs k.die k.target.toNat).length ≤ 1024 ∧
    (u.die k.die).peg.ops.length < 64) ∧
  (∃ (s : State) (d : DieId) (e : Nat × Nat) (l : List (Nat × Nat)) (o : Op),
    up s d = true ∧
    (s.die d).bist.burnOf = e :: l ∧
    (s.die d).fuseOp = some o ∧
    o.from_ + 40 * ((s.die d).bist.burnt + 1) ≤ s.stroke d ∧
    l ≠ []) :=
  ⟨⟨W.run, State.takeInbox (W.run) (W.packet 6 0 261 [0x104, 0]) 0x0C01, W.packet 6 0 261 [0x104, 0], 4, by decide +kernel⟩,
   ⟨W.good, State.takeInbox (W.good) (W.packet 6 0 0 [1, 0]) 0x0C01, W.packet 6 0 0 [1, 0], 0, by decide +kernel⟩,
   ⟨W.run, State.takeInbox (W.run) (W.packet 6 1 0 [10, 0]) 0x0C01, W.packet 6 1 0 [10, 0], by decide +kernel⟩,
   ⟨(W.test { W.bist with auto_ := true }).onDie 1 (fun x => { x with stroke := { x.stroke with count := 300 } }), 1, { W.bist with auto_ := true }, 60, by decide +kernel⟩,
   ⟨(W.test W.bist).onDie 1 (fun x => { x with stroke := { x.stroke with count := 300 } }), 1, W.bist, 251, by decide +kernel⟩,
   ⟨((W.test { W.bist with test := 1, target := 151, auto_ := true }).onDie 1 (fun x => { x with stroke := { x.stroke with count := 300 } })).onSide 1 7 .line (fun r => { r with want := 1 }), 1, { W.bist with test := 1, target := 151, auto_ := true }, 60, by decide +kernel⟩,
   ⟨(W.test W.bist).onDie 1 (fun x => { x with peg := { x.peg with ops := [W.bistOp true] }, stroke := { x.stroke with count := 300 } }), 1, W.bist, 60, W.bistOp true, by decide +kernel⟩,
   ⟨(W.test { W.bist with auto_ := true }).onDie 1 (fun x => { (x.setAct oFretCtl 0) with stroke := { x.stroke with count := 300 } }), 1, { W.bist with auto_ := true }, 10, by decide +kernel⟩,
   ⟨(W.test { W.bist with test := 7, target := 0 }).onDie 1 (fun x => { x with clk := { x.clk with failing := true } }), 1, { W.bist with test := 7, target := 0 }, true, by decide +kernel⟩,
   ⟨(W.test { W.bist with test := 1, target := 151 }).setPort ⟨1, 7, 0⟩ { ({} : Port) with sess := true }, 1, { W.bist with test := 1, target := 151 }, by decide +kernel⟩,
   ⟨W.test { W.bist with done := 660 }, 1, { W.bist with done := 660 }, Config.signature 4 261, 0, false, by decide +kernel, by decide +kernel, by simp [Die.mayEnd, W.bist, testWork], by decide⟩,
   ⟨W.test { W.bist with test := 1, target := 151 }, 1, { W.bist with test := 1, target := 151 }, 7, 8, false, by decide +kernel⟩,
   ⟨W.run, State.takeInbox (W.run) (W.packet 6 0 0x206 [0xFF, 0x10003]) 0x0C03, W.packet 6 0 0x206 [0xFF, 0x10003], by decide +kernel⟩,
   ⟨W.run.onDie 0 (fun x => { x with nvs := { x.nvs with repairs := [(65536 + 9, 4)] } }), State.takeInbox (W.run.onDie 0 (fun x => { x with nvs := { x.nvs with repairs := [(65536 + 9, 4)] } })) (W.packet 5 1 9 [Config.serial.toNat % 65536 ^^^ 0xA5A5]) 0x0C04, W.packet 5 1 9 [Config.serial.toNat % 65536 ^^^ 0xA5A5], by decide +kernel, by decide +kernel, by decide +kernel, by
    simp only [W.packet, Packet.w, List.map, Option.getD]
    exact Nat.mod_eq_of_lt (Nat.lt_trans (Nat.xor_lt_two_pow (n := 16) (Nat.mod_lt _ (by decide)) (by decide)) (by decide)), by decide +kernel⟩,
   ⟨W.fuse 0 [(3, 5), (3, 6)], 0, (3, 5), [(3, 6)], W.op 0x0C04 6 0x2000003 [], by decide +kernel⟩⟩

theorem witness_Repairs :
  (∃ (s u : State) (k : Packet),
    takes s u k 0x0C03 = true ∧
    k.target.toNat < 65536 ∧
    macOk k.target.toNat = true ∧
    k.w 4 = 0xFF ∧
    k.w 5 < 2 ^ 17 ∧
    (u.die k.die).macroIsolated k.target.toNat = true ∧
    (u.die k.die).spareFree k.target.toNat (k.w 5) = true ∧
    (u.die k.die).peg.ops.length < 64) ∧
  (∃ (s u : State) (k : Packet),
    takes s u k 0x0C03 = true ∧
    k.target.toNat < 65536 ∧
    macOk k.target.toNat = true ∧
    k.w 4 = 0xFF ∧
    k.w 5 < 2 ^ 17 ∧
    (u.die k.die).macroIsolated k.target.toNat = false) ∧
  (∃ (s u : State) (k : Packet),
    takes s u k 0x0C04 = true ∧
    k.target.toNat < 65536 ∧
    macOk k.target.toNat = true ∧
    k.w 4 = Config.serial.toNat % 65536 ^^^ 0xA5A5 ∧
    (u.die k.die).bist.burnOf = [] ∧
    u.nvRepairs k.die k.target.toNat ≠ [] ∧
    (u.die k.die).bist.fuses + (u.nvRepairs k.die k.target.toNat).length ≤ 1024 ∧
    (u.die k.die).peg.ops.length < 64) ∧
  (∃ (s u : State) (k : Packet),
    takes s u k 0x0C04 = true ∧
    k.target.toNat < 65536 ∧
    macOk k.target.toNat = true ∧
    k.w 4 ≠ Config.serial.toNat % 65536 ^^^ 0xA5A5) ∧
  (∃ (s : State) (d : DieId) (e : Nat × Nat) (l : List (Nat × Nat)) (o : Op),
    up s d = true ∧
    (s.die d).bist.burnOf = e :: l ∧
    (s.die d).fuseOp = some o ∧
    o.from_ + 40 * ((s.die d).bist.burnt + 1) ≤ s.stroke d ∧
    l ≠ []) ∧
  (∃ (s : State) (d : DieId) (e : Nat × Nat) (o : Op),
    up s d = true ∧
    (s.die d).bist.burnOf = e :: [] ∧
    (s.die d).fuseOp = some o ∧
    o.from_ + 40 * ((s.die d).bist.burnt + 1) ≤ s.stroke d) ∧
  (∃ (s : State) (d : DieId) (b : Test) (sig loc : Word),
    up s d = true ∧
    (s.die d).testOf b.tag = some b ∧
    (s.die d).mayEnd b .fail sig.toNat = true ∧
    testHasSpares b.test = true ∧
    b.rep = 0 ∧
    (s.die d).repairOn b = true ∧
    (s.die d).repairNv b = false ∧
    (s.die d).spareFree ((s.die d).testMacro b loc.toNat) ((s.die d).repairWhat ((s.die d).testMacro b loc.toNat) loc.toNat) = true) ∧
  (∃ (s u : State) (k : Packet) (n : Nat),
    takes s u k 0x0C01 = true ∧
    n = k.w 4 % 256 ∧
    1 ≤ n ∧
    n ≤ 9 ∧
    k.w 4 < 1024 ∧
    k.w 5 < 2 ^ 24 ∧
    (n ≠ 2 → k.w 5 = 0) ∧
    u.testTargetOk k n = true ∧
    u.testDenied k.die n k.target.toNat = none ∧
    (u.die k.die).peg.ops.length < 64 ∧
    (n = 1 → (u.die k.die).testLive k.target.toNat = false)) ∧
  (∃ (s : State) (d : DieId) (b : Test) (work : Nat),
    up s d = true ∧
    (s.die d).testOf b.tag = some b ∧
    b.isol = true ∧
    b.paused = false ∧
    (s.die d).clk.fresh 2 10 = false ∧
    b.copies = false ∧
    work ≤ b.sliceMax (s.stroke d) ∧
    ((s.die d).bistOn = true → s.pos < 1120) ∧
    (s.die d).testOp b = none ∧
    b.test ≠ 1 ∧ b.test ≠ 5 ∧
    ((s.die d).bistOn = true ∨ testFree b.test = true)) ∧
  (∃ (s : State) (d : DieId) (b : Test) (clock : Bool),
    up s d = true ∧
    (s.die d).testOf b.tag = some b ∧
    b.isol = true ∧
    b.paused = false ∧
    (clock = true → b.test = 7 ∧ ((s.die d).clk.failing = true ∨ (s.die d).clk.defer = true)) ∧
    (clock = false → b.test = 6 ∧ (s.die d).trainsNow (b.target % 64) = true)) ∧
  (∃ (s u : State) (k : Packet) (l : List Nat),
    takes0 s u k 0x0C02 = true ∧
    (k.w 4 < 64 ∨ k.w 4 = 0x7F) ∧
    l = SMap.get [] (u.die k.die).bist.ring (if k.w 4 = 0x7F then ((u.die k.die).bist.wp + 63) % 64 else k.w 4) ∧
    l ≠ []) ∧
  (∃ (s u : State) (k : Packet) (ecc : List EccResult),
    takes s u k 0x0801 = true ∧
    isAccess u.part k.die = true ∧
    k.target.toNat % 8 = 0 ∧
    1 ≤ k.w 4 ∧
    k.w 4 ≤ 30 ∧
    k.target.toNat + 8 * k.w 4 ≤ 0x200000 ∧
    ecc.all (fun e => e == .clean) = true) ∧
  (∃ (s u : State) (k : Packet) (m : DieId),
    takes s u k 0x0802 = true ∧
    isAccess u.part k.die = true ∧
    k.target.toNat % 8 = 0 ∧
    1 ≤ k.w 4 ∧
    k.w 4 ≤ 29 ∧
    k.length.toNat = 5 + 2 * k.w 4 ∧
    nvWritable k.target.toNat (k.w 4) = true ∧
    m = u.nvMaster k.die ∧
    (List.range (k.w 4)).all (fun i => SMap.get 0 (u.die m).nvs.wear (nvBlock (k.target.toNat + 8 * i)) + k.w 4 ≤ wearLimit) = true ∧
    u.mirrorUp m (u.mirrorOf m) = true) ∧
  (∃ (s u : State) (k : Packet) (m : DieId),
    takes s u k 0x0802 = true ∧
    isAccess u.part k.die = true ∧
    k.target.toNat % 8 = 0 ∧
    1 ≤ k.w 4 ∧
    k.w 4 ≤ 29 ∧
    k.length.toNat = 5 + 2 * k.w 4 ∧
    nvWritable k.target.toNat (k.w 4) = true ∧
    m = u.nvMaster k.die ∧
    s.nvWornAt (s.nvMaster k.die) k.target.toNat = true ∧
    u.nvWornAt m k.target.toNat = true) ∧
  (∃ (s : State) (l : List Nat),
    s.running = true ∧
    l = (s.die 0).nvs.stale ∧
    l ≠ [] ∧
    (s.die 0).nvs.resync = true ∧
    s.mirrorUp 0 (otherAccess s.part) = true ∧
    (s.die (otherAccess s.part)).nvs.stale = [] ∧
    Memory.wf (s.die 0).nv = true) ∧
  (∃ (s u : State) (k : Packet) (off : Nat) (_other : EccResult),
    takes s u k 0x0803 = true ∧
    calOffset u.part k.target.toNat = some off ∧
    isAccess u.part k.die = true) ∧
  (∃ (s u : State) (k : Packet) (off : Nat) (m : DieId),
    takes s u k 0x0804 = true ∧
    calOffset u.part k.target.toNat = some off ∧
    isAccess u.part k.die = true ∧
    k.w 4 / 65536 = 0xCA1B ∧
    m = u.nvMaster k.die ∧
    u.nvWornAt m (off / 8 * 8) = false) :=
  ⟨⟨W.run, State.takeInbox (W.run) (W.packet 6 0 0x206 [0xFF, 0x10003]) 0x0C03, W.packet 6 0 0x206 [0xFF, 0x10003], by decide +kernel⟩,
   ⟨W.run, State.takeInbox (W.run) (W.packet 6 0 0x205 [0xFF, 3]) 0x0C03, W.packet 6 0 0x205 [0xFF, 3], by decide +kernel⟩,
   ⟨W.run.onDie 0 (fun x => { x with nvs := { x.nvs with repairs := [(65536 + 9, 4)] } }), State.takeInbox (W.run.onDie 0 (fun x => { x with nvs := { x.nvs with repairs := [(65536 + 9, 4)] } })) (W.packet 5 1 9 [Config.serial.toNat % 65536 ^^^ 0xA5A5]) 0x0C04, W.packet 5 1 9 [Config.serial.toNat % 65536 ^^^ 0xA5A5], by decide +kernel, by decide +kernel, by decide +kernel, by
    simp only [W.packet, Packet.w, List.map, Option.getD]
    exact Nat.mod_eq_of_lt (Nat.lt_trans (Nat.xor_lt_two_pow (n := 16) (Nat.mod_lt _ (by decide)) (by decide)) (by decide)), by decide +kernel⟩,
   ⟨W.run, State.takeInbox (W.run) (W.packet 5 1 9 [65536]) 0x0C04, W.packet 5 1 9 [65536], by decide +kernel, by decide +kernel, by decide +kernel, by
    have h := Nat.xor_lt_two_pow (n := 16) (Nat.mod_lt Config.serial.toNat (show 65536 > 0 by decide)) (show 0xA5A5 < 2 ^ 16 by decide)
    have e : (W.packet 5 1 9 [65536]).w 4 = 65536 := by decide
    rw [e]; exact Nat.ne_of_gt h⟩,
   ⟨W.fuse 0 [(3, 5), (3, 6)], 0, (3, 5), [(3, 6)], W.op 0x0C04 6 0x2000003 [], by decide +kernel⟩,
   ⟨W.fuse 1 [(3, 6)], 0, (3, 6), W.op 0x0C04 6 0x2000003 [], by decide +kernel⟩,
   ⟨W.test W.bist, 1, W.bist, 7, 0x02000005, by decide +kernel⟩,
   ⟨W.run, State.takeInbox (W.run) (W.packet 6 0 261 [0x104, 0]) 0x0C01, W.packet 6 0 261 [0x104, 0], 4, by decide +kernel⟩,
   ⟨(W.test { W.bist with auto_ := true }).onDie 1 (fun x => { x with stroke := { x.stroke with count := 300 } }), 1, { W.bist with auto_ := true }, 60, by decide +kernel⟩,
   ⟨(W.test { W.bist with test := 7, target := 0 }).onDie 1 (fun x => { x with clk := { x.clk with failing := true } }), 1, { W.bist with test := 7, target := 0 }, true, by decide +kernel⟩,
   ⟨W.run.onDie 1 (fun x => x.storeResult [4, 0, 660, 1, 1, 0, 0, 9]), State.takeInbox (W.run.onDie 1 (fun x => x.storeResult [4, 0, 660, 1, 1, 0, 0, 9])) (W.packet 5 1 0 [0x7F]) 0x0C02, W.packet 5 1 0 [0x7F], [4, 0, 660, 1, 1, 0, 0, 9], by decide +kernel⟩,
   ⟨W.run, State.takeInbox (W.run) (W.packet 5 1 0x1FFFF0 [2]) 0x0801, W.packet 5 1 0x1FFFF0 [2], [.clean], by decide +kernel⟩,
   ⟨W.run, State.takeInbox (W.run) (W.packet 7 1 0x1FFFF8 [1, 0xAABBCCDD, 0x11223344]) 0x0802, W.packet 7 1 0x1FFFF8 [1, 0xAABBCCDD, 0x11223344], 0, by decide +kernel⟩,
   ⟨W.run.onDie 0 (fun x => { x with nvs := { x.nvs with wear := [(0x1FF, 1000000000)] } }), State.takeInbox (W.run.onDie 0 (fun x => { x with nvs := { x.nvs with wear := [(0x1FF, 1000000000)] } })) (W.packet 7 1 0x1FF000 [1, 1, 2]) 0x0802, W.packet 7 1 0x1FF000 [1, 1, 2], 0, by decide +kernel⟩,
   ⟨W.run.onDie 0 (fun x => { x with nvs := { x.nvs with stale := [0x1FF], resync := true }, nv := [(0x1FFFFF, 7)] }), [0x1FF], by decide +kernel⟩,
   ⟨W.run, State.takeInbox (W.run) (W.packet 4 1 0x30000000 []) 0x0803, W.packet 4 1 0x30000000 [], 130208, .clean, by decide +kernel⟩,
   ⟨W.run, State.takeInbox (W.run) (W.packet 5 1 0x30000000 [0xCA1B1234]) 0x0804, W.packet 5 1 0x30000000 [0xCA1B1234], 130208, 0, by decide +kernel⟩⟩

theorem witness_NonvolatileStore :
  (∃ (s u : State) (k : Packet) (ecc : List EccResult),
    takes s u k 0x0801 = true ∧
    isAccess u.part k.die = true ∧
    k.target.toNat % 8 = 0 ∧
    1 ≤ k.w 4 ∧
    k.w 4 ≤ 30 ∧
    k.target.toNat + 8 * k.w 4 ≤ 0x200000 ∧
    ecc.all (fun e => e == .clean) = true) ∧
  (∃ (s u : State) (k : Packet) (ecc : List EccResult),
    takes s u k 0x0801 = true ∧
    isAccess u.part k.die = true ∧
    k.target.toNat % 8 = 0 ∧
    k.w 4 = 1 ∧
    k.target.toNat < 0x200000 ∧
    ecc[0]? = some .corrected) ∧
  (∃ (s u : State) (k : Packet) (ecc : List EccResult),
    takes s u k 0x0801 = true ∧
    isAccess u.part k.die = true ∧
    k.target.toNat % 8 = 0 ∧
    k.w 4 = 1 ∧
    k.target.toNat < 0x200000 ∧
    ecc[0]? = some .uncorrectable ∧
    ecc[1]? = some .uncorrectable) ∧
  (∃ (s u : State) (k : Packet) (m : DieId),
    takes s u k 0x0802 = true ∧
    isAccess u.part k.die = true ∧
    k.target.toNat % 8 = 0 ∧
    1 ≤ k.w 4 ∧
    k.w 4 ≤ 29 ∧
    k.length.toNat = 5 + 2 * k.w 4 ∧
    nvWritable k.target.toNat (k.w 4) = true ∧
    m = u.nvMaster k.die ∧
    (List.range (k.w 4)).all (fun i => SMap.get 0 (u.die m).nvs.wear (nvBlock (k.target.toNat + 8 * i)) + k.w 4 ≤ wearLimit) = true ∧
    u.mirrorUp m (u.mirrorOf m) = true) ∧
  (∃ (s u : State) (k : Packet) (m : DieId),
    takes s u k 0x0802 = true ∧
    isAccess u.part k.die = true ∧
    k.target.toNat % 8 = 0 ∧
    1 ≤ k.w 4 ∧
    k.w 4 ≤ 29 ∧
    k.length.toNat = 5 + 2 * k.w 4 ∧
    nvWritable k.target.toNat (k.w 4) = true ∧
    m = u.nvMaster k.die ∧
    (List.range (k.w 4)).all (fun i => SMap.get 0 (u.die m).nvs.wear (nvBlock (k.target.toNat + 8 * i)) + k.w 4 ≤ wearLimit) = true ∧
    u.mirrorUp m (u.mirrorOf m) = false) ∧
  (∃ (s u : State) (k : Packet),
    takes s u k 0x0802 = true ∧
    isAccess u.part k.die = true ∧
    k.target.toNat % 8 = 0 ∧
    1 ≤ k.w 4 ∧
    k.w 4 ≤ 29 ∧
    k.length.toNat = 5 + 2 * k.w 4 ∧
    nvWritable k.target.toNat (k.w 4) = false) ∧
  (∃ (s u : State) (k : Packet) (m : DieId),
    takes s u k 0x0802 = true ∧
    isAccess u.part k.die = true ∧
    k.target.toNat % 8 = 0 ∧
    1 ≤ k.w 4 ∧
    k.w 4 ≤ 29 ∧
    k.length.toNat = 5 + 2 * k.w 4 ∧
    nvWritable k.target.toNat (k.w 4) = true ∧
    m = u.nvMaster k.die ∧
    s.nvWornAt (s.nvMaster k.die) k.target.toNat = true ∧
    u.nvWornAt m k.target.toNat = true) ∧
  (∃ (s : State) (l : List Nat),
    s.running = true ∧
    l = (s.die 0).nvs.stale ∧
    l ≠ [] ∧
    (s.die 0).nvs.resync = true ∧
    s.mirrorUp 0 (otherAccess s.part) = true ∧
    (s.die (otherAccess s.part)).nvs.stale = [] ∧
    Memory.wf (s.die 0).nv = true) ∧
  (∃ (s u : State) (k : Packet) (off : Nat) (_other : EccResult),
    takes s u k 0x0803 = true ∧
    calOffset u.part k.target.toNat = some off ∧
    isAccess u.part k.die = true) ∧
  (∃ (s u : State) (k : Packet) (off : Nat),
    takes s u k 0x0803 = true ∧
    calOffset u.part k.target.toNat = some off ∧
    isAccess u.part k.die = true ∧
    u.mirrorUp k.die (u.mirrorOf k.die) = true) ∧
  (∃ (s u : State) (k : Packet) (off : Nat),
    takes s u k 0x0803 = true ∧
    calOffset u.part k.target.toNat = some off ∧
    isAccess u.part k.die = true) ∧
  (∃ (s u : State) (k : Packet) (off : Nat) (m : DieId),
    takes s u k 0x0804 = true ∧
    calOffset u.part k.target.toNat = some off ∧
    isAccess u.part k.die = true ∧
    k.w 4 / 65536 = 0xCA1B ∧
    m = u.nvMaster k.die ∧
    u.nvWornAt m (off / 8 * 8) = false) ∧
  (∃ (s u : State) (k : Packet) (off : Nat),
    takes s u k 0x0804 = true ∧
    calOffset u.part k.target.toNat = some off ∧
    isAccess u.part k.die = true ∧
    k.w 4 / 65536 ≠ 0xCA1B) ∧
  (∃ (s u : State) (k : Packet) (_own _other : EccResult),
    takes s u k 0x0803 = true ∧
    calOffset u.part k.target.toNat = none) ∧
  (∃ (s : State) (d : DieId) (code : Byte),
    present s.part d = true ∧
    ([0x00, 0x04, 0x05, 0x08, 0x09].contains code.toNat = false ∨ (∀ e : DieId, present s.part e = true → (s.die e).anyPort = false ∧ (s.die e).peg.ops = []))) :=
  ⟨⟨W.run, State.takeInbox (W.run) (W.packet 5 1 0x1FFFF0 [2]) 0x0801, W.packet 5 1 0x1FFFF0 [2], [.clean], by decide +kernel⟩,
   ⟨W.run, State.takeInbox (W.run) (W.packet 5 1 0x1FFFF8 [1]) 0x0801, W.packet 5 1 0x1FFFF8 [1], [.corrected], by decide +kernel⟩,
   ⟨W.run, State.takeInbox (W.run) (W.packet 5 1 0x1FFFF8 [1]) 0x0801, W.packet 5 1 0x1FFFF8 [1], [.uncorrectable, .uncorrectable], by decide +kernel⟩,
   ⟨W.run, State.takeInbox (W.run) (W.packet 7 1 0x1FFFF8 [1, 0xAABBCCDD, 0x11223344]) 0x0802, W.packet 7 1 0x1FFFF8 [1, 0xAABBCCDD, 0x11223344], 0, by decide +kernel⟩,
   ⟨W.run.onDie 0 (fun x => { x with brg := { x.brg with reach := 1 } }), State.takeInbox (W.run.onDie 0 (fun x => { x with brg := { x.brg with reach := 1 } })) (W.packet 7 0 0x91000 [1, 0xAABBCCDD, 0x11223344]) 0x0802, W.packet 7 0 0x91000 [1, 0xAABBCCDD, 0x11223344], 0, by decide +kernel⟩,
   ⟨W.run, State.takeInbox (W.run) (W.packet 7 1 0x90FF8 [1, 1, 2]) 0x0802, W.packet 7 1 0x90FF8 [1, 1, 2], by decide +kernel⟩,
   ⟨W.run.onDie 0 (fun x => { x with nvs := { x.nvs with wear := [(0x1FF, 1000000000)] } }), State.takeInbox (W.run.onDie 0 (fun x => { x with nvs := { x.nvs with wear := [(0x1FF, 1000000000)] } })) (W.packet 7 1 0x1FF000 [1, 1, 2]) 0x0802, W.packet 7 1 0x1FF000 [1, 1, 2], 0, by decide +kernel⟩,
   ⟨W.run.onDie 0 (fun x => { x with nvs := { x.nvs with stale := [0x1FF], resync := true }, nv := [(0x1FFFFF, 7)] }), [0x1FF], by decide +kernel⟩,
   ⟨W.run, State.takeInbox (W.run) (W.packet 4 1 0x30000000 []) 0x0803, W.packet 4 1 0x30000000 [], 130208, .clean, by decide +kernel⟩,
   ⟨W.run, State.takeInbox (W.run) (W.packet 4 1 0x30000000 []) 0x0803, W.packet 4 1 0x30000000 [], 130208, by decide +kernel⟩,
   ⟨W.run, State.takeInbox (W.run) (W.packet 4 1 0x30000000 []) 0x0803, W.packet 4 1 0x30000000 [], 130208, by decide +kernel⟩,
   ⟨W.run, State.takeInbox (W.run) (W.packet 5 1 0x30000000 [0xCA1B1234]) 0x0804, W.packet 5 1 0x30000000 [0xCA1B1234], 130208, 0, by decide +kernel⟩,
   ⟨W.run, State.takeInbox (W.run) (W.packet 5 1 0x30000000 [0x1234]) 0x0804, W.packet 5 1 0x30000000 [0x1234], 130208, by decide +kernel⟩,
   ⟨W.run, State.takeInbox (W.run) (W.packet 4 1 0x34000000 []) 0x0803, W.packet 4 1 0x34000000 [], .clean, .clean, by decide +kernel⟩,
   ⟨W.run, 1, 0, by decide +kernel⟩⟩

theorem witness_BoundaryScan :
  (∃ (s : State) (d : DieId) (code : Byte),
    present s.part d = true ∧
    [0x00, 0x04, 0x05, 0x08, 0x09].contains code.toNat = true ∧
    ((∃ e : DieId, present s.part e = true ∧ ((s.die e).anyPort = true ∨ (s.die e).peg.ops ≠ [])))) ∧
  (∃ (s : State) (d : DieId) (code : Byte),
    present s.part d = true ∧
    ([0x00, 0x04, 0x05, 0x08, 0x09].contains code.toNat = false ∨ (∀ e : DieId, present s.part e = true → (s.die e).anyPort = false ∧ (s.die e).peg.ops = []))) :=
  ⟨⟨W.live, 1, 9, by decide +kernel⟩,
   ⟨W.run, 1, 0, by decide +kernel⟩⟩

theorem witness_NopAnswers :
  (∃ (s u : State) (k : Packet),
    takes0 s u k 0x0001 = true) ∧
  (∃ (s u : State) (k : Packet),
    takes s u k 0x0001 = true ∧
    k.target ≠ 0) ∧
  (∃ (s : State) (k : Packet),
    comes s k 0x0001 = true ∧
    k.length ≠ 4 ∧
    k.target = 0) :=
  ⟨⟨W.run, State.takeInbox (W.run) (W.packet 4 1 0 []) 0x0001, W.packet 4 1 0 [], by decide +kernel⟩,
   ⟨W.run, State.takeInbox (W.run) (W.packet 4 1 1 []) 0x0001, W.packet 4 1 1 [], by decide +kernel⟩,
   ⟨W.run, W.packet 5 1 0 [0], by decide +kernel⟩⟩

theorem witness_BistResults :
  (∃ (s u : State) (k : Packet) (l : List Nat),
    takes0 s u k 0x0C02 = true ∧
    (k.w 4 < 64 ∨ k.w 4 = 0x7F) ∧
    l = SMap.get [] (u.die k.die).bist.ring (if k.w 4 = 0x7F then ((u.die k.die).bist.wp + 63) % 64 else k.w 4) ∧
    l ≠ []) ∧
  (∃ (s u : State) (k : Packet),
    takes0 s u k 0x0C02 = true ∧
    (k.w 4 < 64 ∨ k.w 4 = 0x7F) ∧
    SMap.get [] (u.die k.die).bist.ring (if k.w 4 = 0x7F then ((u.die k.die).bist.wp + 63) % 64 else k.w 4) = []) ∧
  (∃ (s : State) (k : Packet),
    comes s k 0x0C02 = true ∧
    k.length ≠ 5 ∧
    k.target = 0) :=
  ⟨⟨W.run.onDie 1 (fun x => x.storeResult [4, 0, 660, 1, 1, 0, 0, 9]), State.takeInbox (W.run.onDie 1 (fun x => x.storeResult [4, 0, 660, 1, 1, 0, 0, 9])) (W.packet 5 1 0 [0x7F]) 0x0C02, W.packet 5 1 0 [0x7F], [4, 0, 660, 1, 1, 0, 0, 9], by decide +kernel⟩,
   ⟨W.run, State.takeInbox (W.run) (W.packet 5 1 0 [63]) 0x0C02, W.packet 5 1 0 [63], by decide +kernel⟩,
   ⟨W.run, W.packet 4 1 0 [], by decide +kernel⟩⟩

theorem witness_PeerFrames :
  (∃ (c w : BitVec 64) (i v : Nat),
    i < 352 ∧
    (peerHeader c w)[i]? ≠ some v) ∧
  (∃ (c w : BitVec 64) (b : Nat) (l : List Bool),
    b < 144 ∧
    l = frameBits c w ++ crcBits (frameCrc (frameBits c w))) ∧
  (∃ (x : Die) (n j : Nat) (l : LaneSess) (f : Frame),
    f = peerFields (x.control n j l) (x.status n j l) ∧
    j < 16) ∧
  (∃ (x : Die) (n : Nat) (k : LaneKind) (l : LaneSess) (b : Nat),
    b = x.laneBits n k l) :=
  ⟨⟨0x2A0001C10006, 0x400, 351, 1, by decide +kernel⟩,
   ⟨0x2A0001C10006, 0x400, 143, frameBits 0x2A0001C10006 0x400 ++ crcBits (frameCrc (frameBits 0x2A0001C10006 0x400)), by decide +kernel⟩,
   ⟨W.live.die 0, 0, 8, { ({} : LaneSess) with state := 5, count := 16 }, peerFields ((W.live.die 0).control 0 8 { ({} : LaneSess) with state := 5, count := 16 }) ((W.live.die 0).status 0 8 { ({} : LaneSess) with state := 5, count := 16 }), by decide +kernel⟩,
   ⟨W.live.die 0, 0, .session, { ({} : LaneSess) with flock := true }, (W.live.die 0).laneBits 0 .session { ({} : LaneSess) with flock := true }, by decide +kernel⟩⟩

/-! ### WellFormed refuses an ill-formed term for each of its checks -/

/-- A command packet of the lead, and one whose LENGTH is not that of its words; one from a die that is no access die; one
longer than 64 words (R324). -/
theorem test_wf_packet : (Instr.nop (W.packet 4 0 0 [])).wellFormed .q128 = true ∧
    (Instr.nop (W.packet 5 0 0 [])).wellFormed .q128 = false ∧
    (Instr.nop { W.packet 4 0 0 [] with origin := 2 }).wellFormed .q512 = false ∧
    (Instr.nop (W.packet 65 0 0 (List.replicate 61 0))).wellFormed .q128 = false := by decide

/-- A Q128 has dies 0 and 1 only (R7). -/
theorem test_wf_die : (Instr.markerMissing 1).wellFormed .q128 = true ∧ (Instr.markerMissing 2).wellFormed .q128 = false ∧
    (Instr.segmentPresent ⟨2, 0, 0⟩ .host).wellFormed .q128 = false ∧ (Instr.elect 0 2 0).wellFormed .q128 = false := by decide

/-- Line segments have a ninth position, host segments eight (R46). -/
theorem test_wf_position : (Instr.requestAbandoned ⟨0, 0, 0⟩ .line 8).wellFormed .q128 = true ∧
    (Instr.requestAbandoned ⟨0, 0, 0⟩ .host 8).wellFormed .q128 = false := by decide

/-- A stroke measures slices, engines, pair FIFOs and pins of dies the part has, and an SNR its estimator can give. -/
theorem test_wf_stroke : (Instr.strokeBoundary ⟨[⟨0, 0, true, 170, 0, 0, 3⟩], [], [], [], [], [], [], [], []⟩).wellFormed .q128 = true ∧
    (Instr.strokeBoundary ⟨[⟨2, 0, true, 170, 0, 0, 3⟩], [], [], [], [], [], [], [], []⟩).wellFormed .q128 = false ∧
    (Instr.strokeBoundary ⟨[⟨0, 0, true, 501, 0, 0, 3⟩], [], [], [], [], [], [], [], []⟩).wellFormed .q128 = false ∧
    (Instr.strokeBoundary ⟨[], [⟨⟨2, 0, 0⟩, .host, [], 0, 0, 0, []⟩], [], [], [], [], [], [], []⟩).wellFormed .q128 = false ∧
    (Instr.strokeBoundary ⟨[], [], [⟨2, 0, 0, 0⟩], [], [], [], [], [], []⟩).wellFormed .q128 = false ∧
    (Instr.strokeBoundary ⟨[], [], [], [⟨2, 0, true, 5⟩], [], [], [], [], []⟩).wellFormed .q128 = false ∧
    (Instr.strokeBoundary ⟨[], [], [], [], [⟨2, 0, none, true, 0⟩], [], [], [], []⟩).wellFormed .q128 = false ∧
    (Instr.strokeBoundary ⟨[], [], [], [], [], [(2, 0)], [], [], []⟩).wellFormed .q128 = false ∧
    (Instr.strokeBoundary ⟨[], [], [], [], [], [], [], [⟨2, 0, .host, []⟩], []⟩).wellFormed .q128 = false := by decide

/-- A tuning fret updates slices of its course side only (R24): host slice 0 is of course 0, slice 9 of course 1. -/
theorem test_wf_updates : (Instr.tuningFret 0 0 .host [⟨0, 0, 0, [], 0, 0, 0, []⟩]).wellFormed .q128 = true ∧
    (Instr.tuningFret 0 0 .host [⟨9, 0, 0, [], 0, 0, 0, []⟩]).wellFormed .q128 = false := by decide

/-- A tagged codeword passes its points in order (R415). -/
theorem test_wf_tagged : (Instr.taggedSample ⟨0, 0, 0⟩ .host 1 ⟨1, 2, 3, 4⟩).wellFormed .q128 = true ∧
    (Instr.taggedSample ⟨0, 0, 0⟩ .host 1 ⟨1, 0, 3, 4⟩).wellFormed .q128 = false := by decide

/-- The counts of an event do not exceed what they count: symbol errors the bit errors, error slots the window, copies the
lanes, work the BIST frets of a stroke, bytes a transfer, ECC results the words of both mirrors. -/
theorem test_wf_counts : (Instr.prbsCheckEnd 0 0 100 3 4).wellFormed .q128 = false ∧
    (Instr.syndromeWindowEnd 0 0 (List.replicate 65537 ⟨[], false, false⟩)).wellFormed .q128 = false ∧
    (Instr.serviceWord 0 0 (List.replicate 10 [])).wellFormed .q128 = false ∧
    (Instr.workSliceEnd 0 0 251).wellFormed .q128 = false ∧
    (Instr.twiTransferEnd 0 0 0 0 (List.replicate 225 0)).wellFormed .q128 = false ∧
    (Instr.nvRead (W.packet 4 0 0 []) (List.replicate 61 .clean)).wellFormed .q128 = false ∧
    (Instr.arbLost 0 0 0 (List.replicate 225 0)).wellFormed .q128 = false := by decide +kernel

/-! ### The spec's worked examples -/

/-- A Q512 whose bridges are all UP. -/
def W.ring : State :=
  { State.reset with dies := State.reset.dies.map (fun x => (x.setBridge .east { x.bridge .east with state := 1 }).setBridge .west { x.bridge .west with state := 1 }) }

/-- BRG_ROUTE of die 0 on a healthy Q512 is 0x0070 (the example under R273): dies 4, 5 and 6 are reached west. -/
theorem test_routes_die0 : W.ring.routes 0 = (0xFF, 0x70) := by decide +kernel

/-- Die 5 reaches die 0 by 5-4-0, east, in two hops (the example of R346). -/
theorem test_hops : W.ring.hops 5 0 .east = some 2 ∧ (W.ring.routes 5).2 % 2 = 0 := by decide +kernel

/-- Table "Latency of selected profiles" (R191 to R193): LL-PT, RH-PT, LL-FT, RH-FT, one-lane P53 LL-FT, lattice, gearbox, both;
P53 is RATE 0, P212 RATE 2. -/
theorem test_latency : [0x0043, 0x0143, 0x0443, 0x0543, 0x0843, 0x1043, 0x1843].map (fun a => (pipeline a .host, pipeline a .line)) =
    [(8, 8), (12, 12), (156, 156), (160, 160), (10, 14), (18, 18), (20, 24)] ∧ pipeline 0x0400 .host = 241 := by decide +kernel

/-- The LOCK_LOST record of the example of 15_events.md. -/
theorem test_record_words : (Evt.words ⟨6000000 * 256 + 9 * 8 + 3, 2591, 2, false, false, 0x17, 25⟩ true) =
    [0x5B8D804B, 0, 0x17402A1F, 0x19] := by decide

/-- The scan of the example under R151: 3,969 points. -/
theorem test_eye_points : eyePoints (W.packet 6 0 0x40000000 [31 + 31 * 64 + 2 * 4096 + 4 * 262144 + 1 * 4194304, 100]) = 3969 := by
  decide

/-- W.run with PORT_CFGA of index 2 in course 3 of die 0 at 0x6052. -/
def W.cfg : State := W.run.onDie 0 (fun x => x.setAct 0x13140 0x6052)

/-- The masked write of the example of 13_register_access.md, in the window of an access die: 0x8052 is staged, the active value
stays, and bit 11 of DIE_STAGE_PENDING is set. -/
theorem test_masked_write : ∃ t, exec (.registerWrite 0 .pcie .regs 0x13140 (.put 0xE0008000)) W.cfg = .next t ∧
    (t.die 0).base 0x13140 = 0x8052 ∧ (t.die 0).act 0x13140 = 0x6052 ∧ (t.die 0).pend = 2048 := ⟨_, rfl, by decide +kernel⟩

/-- The write that stages RX_CTLE of slice 45 in the example of R104. -/
theorem test_stage_ctle : ∃ t, exec (.registerWrite 0 .pcie .regs 0x2B408 (.put 0x1FFF149B)) W.run = .next t ∧
    (t.die 0).base 0x2B408 = 0x149B ∧ (t.die 0).pend = 8192 := ⟨_, rfl, by decide +kernel⟩

/-! ### Single steps -/

/-- A NOP to the access die itself is answered DONE with EFFECT 3, tag 7 (R332). -/
theorem test_nop : ∃ t, exec (.nop (W.packet 4 0 0 [])) W.run = .next t ∧
    (t.die 0).q0.waiting.map (fun r => (r.status, r.effect, r.tag)) = [(0, 3, 7)] := ⟨_, rfl, by decide +kernel⟩

/-- With no command waiting the time within the stroke moves on, and stops at the last sc. -/
theorem test_tick : ∃ t, step W.run = .next t ∧ t.pos = 1 ∧ step { W.run with pos := 1279 } = .next { W.run with pos := 1279 } :=
  ⟨_, rfl, rfl, rfl⟩

/-- Power on reset of a running part (R462): no lead, nothing started. -/
theorem test_power_on : ∃ t, exec .powerOnReset W.run = .next t ∧ t.phase = 0 ∧ t.lead = none := ⟨_, rfl, by decide +kernel⟩
end

section
/-! SUPPORT. The dies of the state after reset. -/
namespace Sys2Proof.Machine

/-- After reset every die is the default one: nothing is listed in any of its maps. -/
theorem State.reset_die (d : DieId) : State.reset.die d = {} := by
  simp [State.reset, State.die]

/-- Every command queue of a default die is disabled. -/
theorem Die.default_queue_enabled (q : QueueId) : (({} : Die).queue q).enabled = false := by
  unfold Die.queue
  split
  · rfl
  · split <;> rfl

end Sys2Proof.Machine

open Sys2Proof.Machine

/-- Settles O3: the package fields are those of State.reset, and each die is a default one, whose maps list nothing and so read
their reset values. -/
theorem resetLeaves : Obligations.ResetLeaves := by
  unfold Obligations.ResetLeaves
  refine ⟨rfl, rfl, rfl, rfl, fun d => ?_⟩
  rw [State.reset_die]
  have hconfig : ∀ o : Nat, ({} : Die).act o = rwsReset o ∧ ({} : Die).led o = rwsReset o ∧ ({} : Die).stg o = none :=
    fun o => ⟨rfl, rfl, rfl⟩
  have hlanes : ∀ n : Nat, (({} : Die).port n).state = 0 ∧ (({} : Die).tx n).mode = 5 := fun n => ⟨rfl, rfl⟩
  have hstroke : State.reset.stroke d = 0 := by
    unfold State.stroke
    rw [State.reset_die]
  exact ⟨hconfig, rfl, rfl, hstroke, fun _ => rfl, hlanes, Die.default_queue_enabled, rfl⟩
end

section
/-! SUPPORT. What a row leaves alone, block by block. The state is cut into blocks (the active values, the ledger, the ports,
the event state, …). s.blk β is s with nothing left in it but block β, so (f s).blk β = s.blk β says that f leaves block β as
it was. The lemma about a function of the model names the blocks the function may write, and holds of every other block; the
lemmas of its callees are the simp set that proves it. -/

set_option Elab.async false

namespace Sys2Proof.Machine

/-! ### Blocks -/

/-- The blocks of the state: those of a die, then those of the package. -/
inductive Blk where
  | active | staging | ledger | slices | pins | txs | ports | courses | stroke | clk | brg | prot | peg | queues | evt | twi
  | hk | bist | nv | tele | cal | sram | scan
  | fixed | mode | endpoints | images | pos | free | ring

/-- The blocks that nearly every row may write: a cause posts an event, which can leave as a record or as a packet. -/
def carriers : List Blk := [.brg, .peg, .queues, .evt, .tele, .ring]

/-- A die with nothing left in it but block b. -/
def Die.blk (x : Die) : Blk → Die
  | .active => { active := x.active }
  | .staging => { staged := x.staged, pend := x.pend }
  | .ledger => { ledger := x.ledger }
  | .slices => { slices := x.slices }
  | .pins => { pins := x.pins }
  | .txs => { txs := x.txs }
  | .ports => { ports := x.ports }
  | .courses => { courses := x.courses }
  | .stroke => { stroke := x.stroke }
  | .clk => { clk := x.clk }
  | .brg => { brg := x.brg }
  | .prot => { prot := x.prot }
  | .peg => { peg := x.peg }
  | .queues => { q0 := x.q0, q1 := x.q1, q2 := x.q2 }
  | .evt => { evt := x.evt }
  | .twi => { twi := x.twi }
  | .hk => { hk := x.hk }
  | .bist => { bist := x.bist }
  | .nv => { nvs := x.nvs, nv := x.nv }
  | .tele => { tele := x.tele }
  | .cal => { calLoaded := x.calLoaded }
  | .sram => { sram := x.sram }
  | .scan => { ir := x.ir, irCap := x.irCap }
  | _ => {}

/-- A state with nothing left in it but block b. -/
def State.blk (s : State) (b : Blk) : State :=
  let u : State := { State.reset with dies := s.dies.map (·.blk b) }
  match b with
  | .fixed => { u with part := s.part, pending := s.pending }
  | .mode => { u with phase := s.phase, wake := s.wake, waking := s.waking, rootOff := s.rootOff, vddhOff := s.vddhOff, lead :=
    s.lead }
  | .endpoints => { u with ep0 := s.ep0, ep1 := s.ep1 }
  | .images => { u with gsync := s.gsync, fwHeld := s.fwHeld, fwOp := s.fwOp, fwDone := s.fwDone, fwBack := s.fwBack }
  | .pos => { u with pos := s.pos }
  | .free => { u with free := s.free }
  | .ring => { u with air := s.air }
  | _ => u

variable {β : Blk}

@[simp] theorem mem_carriers :
    β ∈ carriers ↔ β = .brg ∨ β = .peg ∨ β = .queues ∨ β = .evt ∨ β = .tele ∨ β = .ring := by
  simp [carriers]

/-! ### One field written -/

@[simp ↓] theorem Die.with_active_blk (x : Die) (v) (hb : β ∉ [Blk.active]) :
    ({ x with active := v } : Die).blk β = x.blk β := by
  cases β <;> simp at hb <;> rfl

@[simp ↓] theorem Die.with_staged_blk (x : Die) (v) (hb : β ∉ [Blk.staging]) :
    ({ x with staged := v } : Die).blk β = x.blk β := by
  cases β <;> simp at hb <;> rfl

@[simp ↓] theorem Die.with_pend_blk (x : Die) (v) (hb : β ∉ [Blk.staging]) :
    ({ x with pend := v } : Die).blk β = x.blk β := by
  cases β <;> simp at hb <;> rfl

@[simp ↓] theorem Die.with_ledger_blk (x : Die) (v) (hb : β ∉ [Blk.ledger]) :
    ({ x with ledger := v } : Die).blk β = x.blk β := by
  cases β <;> simp at hb <;> rfl

@[simp ↓] theorem Die.with_slices_blk (x : Die) (v) (hb : β ∉ [Blk.slices]) :
    ({ x with slices := v } : Die).blk β = x.blk β := by
  cases β <;> simp at hb <;> rfl

@[simp ↓] theorem Die.with_pins_blk (x : Die) (v) (hb : β ∉ [Blk.pins]) :
    ({ x with pins := v } : Die).blk β = x.blk β := by
  cases β <;> simp at hb <;> rfl

@[simp ↓] theorem Die.with_txs_blk (x : Die) (v) (hb : β ∉ [Blk.txs]) :
    ({ x with txs := v } : Die).blk β = x.blk β := by
  cases β <;> simp at hb <;> rfl

@[simp ↓] theorem Die.with_ports_blk (x : Die) (v) (hb : β ∉ [Blk.ports]) :
    ({ x with ports := v } : Die).blk β = x.blk β := by
  cases β <;> simp at hb <;> rfl

@[simp ↓] theorem Die.with_courses_blk (x : Die) (v) (hb : β ∉ [Blk.courses]) :
    ({ x with courses := v } : Die).blk β = x.blk β := by
  cases β <;> simp at hb <;> rfl

@[simp ↓] theorem Die.with_stroke_blk (x : Die) (v) (hb : β ∉ [Blk.stroke]) :
    ({ x with stroke := v } : Die).blk β = x.blk β := by
  cases β <;> simp at hb <;> rfl

@[simp ↓] theorem Die.with_clk_blk (x : Die) (v) (hb : β ∉ [Blk.clk]) :
    ({ x with clk := v } : Die).blk β = x.blk β := by
  cases β <;> simp at hb <;> rfl

@[simp ↓] theorem Die.with_brg_blk (x : Die) (v) (hb : β ∉ [Blk.brg]) :
    ({ x with brg := v } : Die).blk β = x.blk β := by
  cases β <;> simp at hb <;> rfl

@[simp ↓] theorem Die.with_prot_blk (x : Die) (v) (hb : β ∉ [Blk.prot]) :
    ({ x with prot := v } : Die).blk β = x.blk β := by
  cases β <;> simp at hb <;> rfl

@[simp ↓] theorem Die.with_peg_blk (x : Die) (v) (hb : β ∉ [Blk.peg]) :
    ({ x with peg := v } : Die).blk β = x.blk β := by
  cases β <;> simp at hb <;> rfl

@[simp ↓] theorem Die.with_q0_blk (x : Die) (v) (hb : β ∉ [Blk.queues]) :
    ({ x with q0 := v } : Die).blk β = x.blk β := by
  cases β <;> simp at hb <;> rfl

@[simp ↓] theorem Die.with_q1_blk (x : Die) (v) (hb : β ∉ [Blk.queues]) :
    ({ x with q1 := v } : Die).blk β = x.blk β := by
  cases β <;> simp at hb <;> rfl

@[simp ↓] theorem Die.with_q2_blk (x : Die) (v) (hb : β ∉ [Blk.queues]) :
    ({ x with q2 := v } : Die).blk β = x.blk β := by
  cases β <;> simp at hb <;> rfl

@[simp ↓] theorem Die.with_evt_blk (x : Die) (v) (hb : β ∉ [Blk.evt]) :
    ({ x with evt := v } : Die).blk β = x.blk β := by
  cases β <;> simp at hb <;> rfl

@[simp ↓] theorem Die.with_twi_blk (x : Die) (v) (hb : β ∉ [Blk.twi]) :
    ({ x with twi := v } : Die).blk β = x.blk β := by
  cases β <;> simp at hb <;> rfl

@[simp ↓] theorem Die.with_hk_blk (x : Die) (v) (hb : β ∉ [Blk.hk]) :
    ({ x with hk := v } : Die).blk β = x.blk β := by
  cases β <;> simp at hb <;> rfl

@[simp ↓] theorem Die.with_bist_blk (x : Die) (v) (hb : β ∉ [Blk.bist]) :
    ({ x with bist := v } : Die).blk β = x.blk β := by
  cases β <;> simp at hb <;> rfl

@[simp ↓] theorem Die.with_nvs_blk (x : Die) (v) (hb : β ∉ [Blk.nv]) :
    ({ x with nvs := v } : Die).blk β = x.blk β := by
  cases β <;> simp at hb <;> rfl

@[simp ↓] theorem Die.with_nv_blk (x : Die) (v) (hb : β ∉ [Blk.nv]) :
    ({ x with nv := v } : Die).blk β = x.blk β := by
  cases β <;> simp at hb <;> rfl

@[simp ↓] theorem Die.with_tele_blk (x : Die) (v) (hb : β ∉ [Blk.tele]) :
    ({ x with tele := v } : Die).blk β = x.blk β := by
  cases β <;> simp at hb <;> rfl

@[simp ↓] theorem Die.with_calLoaded_blk (x : Die) (v) (hb : β ∉ [Blk.cal]) :
    ({ x with calLoaded := v } : Die).blk β = x.blk β := by
  cases β <;> simp at hb <;> rfl

@[simp ↓] theorem Die.with_sram_blk (x : Die) (v) (hb : β ∉ [Blk.sram]) :
    ({ x with sram := v } : Die).blk β = x.blk β := by
  cases β <;> simp at hb <;> rfl

@[simp ↓] theorem Die.with_ir_blk (x : Die) (v) (hb : β ∉ [Blk.scan]) :
    ({ x with ir := v } : Die).blk β = x.blk β := by
  cases β <;> simp at hb <;> rfl

@[simp ↓] theorem Die.with_irCap_blk (x : Die) (v) (hb : β ∉ [Blk.scan]) :
    ({ x with irCap := v } : Die).blk β = x.blk β := by
  cases β <;> simp at hb <;> rfl

@[simp ↓] theorem State.with_part_blk (s : State) (v) (hb : β ∉ [Blk.fixed]) :
    ({ s with part := v } : State).blk β = s.blk β := by
  cases β <;> simp at hb <;> rfl

@[simp ↓] theorem State.with_pending_blk (s : State) (v) (hb : β ∉ [Blk.fixed]) :
    ({ s with pending := v } : State).blk β = s.blk β := by
  cases β <;> simp at hb <;> rfl

@[simp ↓] theorem State.with_phase_blk (s : State) (v) (hb : β ∉ [Blk.mode]) :
    ({ s with phase := v } : State).blk β = s.blk β := by
  cases β <;> simp at hb <;> rfl

@[simp ↓] theorem State.with_wake_blk (s : State) (v) (hb : β ∉ [Blk.mode]) :
    ({ s with wake := v } : State).blk β = s.blk β := by
  cases β <;> simp at hb <;> rfl

@[simp ↓] theorem State.with_waking_blk (s : State) (v) (hb : β ∉ [Blk.mode]) :
    ({ s with waking := v } : State).blk β = s.blk β := by
  cases β <;> simp at hb <;> rfl

@[simp ↓] theorem State.with_rootOff_blk (s : State) (v) (hb : β ∉ [Blk.mode]) :
    ({ s with rootOff := v } : State).blk β = s.blk β := by
  cases β <;> simp at hb <;> rfl

@[simp ↓] theorem State.with_vddhOff_blk (s : State) (v) (hb : β ∉ [Blk.mode]) :
    ({ s with vddhOff := v } : State).blk β = s.blk β := by
  cases β <;> simp at hb <;> rfl

@[simp ↓] theorem State.with_lead_blk (s : State) (v) (hb : β ∉ [Blk.mode]) :
    ({ s with lead := v } : State).blk β = s.blk β := by
  cases β <;> simp at hb <;> rfl

@[simp ↓] theorem State.with_ep0_blk (s : State) (v) (hb : β ∉ [Blk.endpoints]) :
    ({ s with ep0 := v } : State).blk β = s.blk β := by
  cases β <;> simp at hb <;> rfl

@[simp ↓] theorem State.with_ep1_blk (s : State) (v) (hb : β ∉ [Blk.endpoints]) :
    ({ s with ep1 := v } : State).blk β = s.blk β := by
  cases β <;> simp at hb <;> rfl

@[simp ↓] theorem State.with_gsync_blk (s : State) (v) (hb : β ∉ [Blk.images]) :
    ({ s with gsync := v } : State).blk β = s.blk β := by
  cases β <;> simp at hb <;> rfl

@[simp ↓] theorem State.with_fwHeld_blk (s : State) (v) (hb : β ∉ [Blk.images]) :
    ({ s with fwHeld := v } : State).blk β = s.blk β := by
  cases β <;> simp at hb <;> rfl

@[simp ↓] theorem State.with_fwOp_blk (s : State) (v) (hb : β ∉ [Blk.images]) :
    ({ s with fwOp := v } : State).blk β = s.blk β := by
  cases β <;> simp at hb <;> rfl

@[simp ↓] theorem State.with_fwDone_blk (s : State) (v) (hb : β ∉ [Blk.images]) :
    ({ s with fwDone := v } : State).blk β = s.blk β := by
  cases β <;> simp at hb <;> rfl

@[simp ↓] theorem State.with_fwBack_blk (s : State) (v) (hb : β ∉ [Blk.images]) :
    ({ s with fwBack := v } : State).blk β = s.blk β := by
  cases β <;> simp at hb <;> rfl

@[simp ↓] theorem State.with_pos_blk (s : State) (v) (hb : β ∉ [Blk.pos]) :
    ({ s with pos := v } : State).blk β = s.blk β := by
  cases β <;> simp at hb <;> rfl

@[simp ↓] theorem State.with_free_blk (s : State) (v) (hb : β ∉ [Blk.free]) :
    ({ s with free := v } : State).blk β = s.blk β := by
  cases β <;> simp at hb <;> rfl

@[simp ↓] theorem State.with_air_blk (s : State) (v) (hb : β ∉ [Blk.ring]) :
    ({ s with air := v } : State).blk β = s.blk β := by
  cases β <;> simp at hb <;> rfl

/-! ### Several fields written at once, as the rows do it -/

@[simp ↓] theorem Die.with_brg_peg_q0_q1_q2_evt_tele_blk (x : Die) (v0) (v1) (v2) (v3) (v4) (v5) (v6)
    (hb : β ∉ [Blk.brg, Blk.peg, Blk.queues, Blk.evt, Blk.tele]) :
    ({ x with brg := v0, peg := v1, q0 := v2, q1 := v3, q2 := v4, evt := v5, tele := v6 } : Die).blk β = x.blk β := by
  cases β <;> simp at hb <;> rfl

@[simp ↓] theorem Die.with_courses_stroke_peg_bist_tele_blk (x : Die) (v0) (v1) (v2) (v3) (v4)
    (hb : β ∉ [Blk.courses, Blk.stroke, Blk.peg, Blk.bist, Blk.tele]) :
    ({ x with courses := v0, stroke := v1, peg := v2, bist := v3, tele := v4 } : Die).blk β = x.blk β := by
  cases β <;> simp at hb <;> rfl

@[simp ↓] theorem Die.with_evt_sram_blk (x : Die) (v0) (v1)
    (hb : β ∉ [Blk.evt, Blk.sram]) :
    ({ x with evt := v0, sram := v1 } : Die).blk β = x.blk β := by
  cases β <;> simp at hb <;> rfl

@[simp ↓] theorem Die.with_hk_tele_blk (x : Die) (v0) (v1)
    (hb : β ∉ [Blk.hk, Blk.tele]) :
    ({ x with hk := v0, tele := v1 } : Die).blk β = x.blk β := by
  cases β <;> simp at hb <;> rfl

@[simp ↓] theorem Die.with_ir_irCap_blk (x : Die) (v0) (v1)
    (hb : β ∉ [Blk.scan]) :
    ({ x with ir := v0, irCap := v1 } : Die).blk β = x.blk β := by
  cases β <;> simp at hb <;> rfl

@[simp ↓] theorem Die.with_nvs_nv_blk (x : Die) (v0) (v1)
    (hb : β ∉ [Blk.nv]) :
    ({ x with nvs := v0, nv := v1 } : Die).blk β = x.blk β := by
  cases β <;> simp at hb <;> rfl

@[simp ↓] theorem Die.with_peg_bist_blk (x : Die) (v0) (v1)
    (hb : β ∉ [Blk.peg, Blk.bist]) :
    ({ x with peg := v0, bist := v1 } : Die).blk β = x.blk β := by
  cases β <;> simp at hb <;> rfl

@[simp ↓] theorem Die.with_peg_q0_q1_q2_blk (x : Die) (v0) (v1) (v2) (v3)
    (hb : β ∉ [Blk.peg, Blk.queues]) :
    ({ x with peg := v0, q0 := v1, q1 := v2, q2 := v3 } : Die).blk β = x.blk β := by
  cases β <;> simp at hb <;> rfl

@[simp ↓] theorem Die.with_q0_q1_q2_blk (x : Die) (v0) (v1) (v2)
    (hb : β ∉ [Blk.queues]) :
    ({ x with q0 := v0, q1 := v1, q2 := v2 } : Die).blk β = x.blk β := by
  cases β <;> simp at hb <;> rfl

@[simp ↓] theorem Die.with_staged_pend_blk (x : Die) (v0) (v1)
    (hb : β ∉ [Blk.staging]) :
    ({ x with staged := v0, pend := v1 } : Die).blk β = x.blk β := by
  cases β <;> simp at hb <;> rfl

@[simp ↓] theorem Die.with_stroke_brg_evt_tele_blk (x : Die) (v0) (v1) (v2) (v3)
    (hb : β ∉ [Blk.stroke, Blk.brg, Blk.evt, Blk.tele]) :
    ({ x with stroke := v0, brg := v1, evt := v2, tele := v3 } : Die).blk β = x.blk β := by
  cases β <;> simp at hb <;> rfl

@[simp ↓] theorem Die.with_stroke_brg_peg_blk (x : Die) (v0) (v1) (v2)
    (hb : β ∉ [Blk.stroke, Blk.brg, Blk.peg]) :
    ({ x with stroke := v0, brg := v1, peg := v2 } : Die).blk β = x.blk β := by
  cases β <;> simp at hb <;> rfl

@[simp ↓] theorem Die.with_stroke_peg_blk (x : Die) (v0) (v1)
    (hb : β ∉ [Blk.stroke, Blk.peg]) :
    ({ x with stroke := v0, peg := v1 } : Die).blk β = x.blk β := by
  cases β <;> simp at hb <;> rfl

@[simp ↓] theorem Die.with_stroke_prot_blk (x : Die) (v0) (v1)
    (hb : β ∉ [Blk.stroke, Blk.prot]) :
    ({ x with stroke := v0, prot := v1 } : Die).blk β = x.blk β := by
  cases β <;> simp at hb <;> rfl

@[simp ↓] theorem Die.with_stroke_tele_blk (x : Die) (v0) (v1)
    (hb : β ∉ [Blk.stroke, Blk.tele]) :
    ({ x with stroke := v0, tele := v1 } : Die).blk β = x.blk β := by
  cases β <;> simp at hb <;> rfl

@[simp ↓] theorem State.with_gsync_fwHeld_fwOp_fwDone_fwBack_blk (s : State) (v0) (v1) (v2) (v3) (v4)
    (hb : β ∉ [Blk.images]) :
    ({ s with gsync := v0, fwHeld := v1, fwOp := v2, fwDone := v3, fwBack := v4 } : State).blk β = s.blk β := by
  cases β <;> simp at hb <;> rfl

@[simp ↓] theorem State.with_phase_pos_lead_blk (s : State) (v0) (v1) (v2)
    (hb : β ∉ [Blk.mode, Blk.pos]) :
    ({ s with phase := v0, pos := v1, lead := v2 } : State).blk β = s.blk β := by
  cases β <;> simp at hb <;> rfl

@[simp ↓] theorem State.with_phase_pos_rootOff_blk (s : State) (v0) (v1) (v2)
    (hb : β ∉ [Blk.mode, Blk.pos]) :
    ({ s with phase := v0, pos := v1, rootOff := v2 } : State).blk β = s.blk β := by
  cases β <;> simp at hb <;> rfl

@[simp ↓] theorem State.with_phase_pos_wake_waking_blk (s : State) (v0) (v1) (v2) (v3)
    (hb : β ∉ [Blk.mode, Blk.pos]) :
    ({ s with phase := v0, pos := v1, wake := v2, waking := v3 } : State).blk β = s.blk β := by
  cases β <;> simp at hb <;> rfl

/-! ### The blocks of a die, and the combinators -/

@[simp ↓] theorem State.ite_blk (c : Prop) [Decidable c] (s t : State) :
    (if c then s else t).blk β = if c then s.blk β else t.blk β := apply_ite (fun s : State => s.blk β) c s t

@[simp ↓] theorem Die.ite_blk (c : Prop) [Decidable c] (x y : Die) :
    (if c then x else y).blk β = if c then x.blk β else y.blk β := apply_ite (fun x : Die => x.blk β) c x y

@[simp ↓] theorem State.die_blk (s : State) (d : DieId) : (s.die d).blk β = (s.blk β).die d := by
  cases β <;> simp [State.blk, State.die]

@[simp ↓] theorem State.setDie_blk (s : State) (d : DieId) (x : Die) :
    (s.setDie d x).blk β = (s.blk β).setDie d (x.blk β) := by
  cases β <;> simp only [State.blk, State.setDie, Vector.map_set]

@[simp] theorem State.setDie_die (s : State) (d : DieId) : s.setDie d (s.die d) = s := by
  simp [State.setDie, State.die]

@[simp ↓] theorem State.onDie_blk (s : State) (d : DieId) (f : Die → Die) :
    (s.onDie d f).blk β = (s.blk β).setDie d ((f (s.die d)).blk β) := State.setDie_blk s d _

@[simp ↓] theorem State.foldl_blk {α : Type} (s : State) (f : State → α → State) (l : List α)
    (h : ∀ t a, (f t a).blk β = t.blk β) : (l.foldl f s).blk β = s.blk β :=
  State.foldl_keeps s (fun t => t.blk β) f h l

@[simp ↓] theorem Die.foldl_blk {α : Type} (x : Die) (f : Die → α → Die) (l : List α)
    (h : ∀ y a, (f y a).blk β = y.blk β) : (l.foldl f x).blk β = x.blk β := by
  induction l generalizing x with
  | nil => rfl
  | cons a l ih => rw [List.foldl_cons, ih, h]

@[simp ↓] theorem State.onAll_blk (s : State) (f : State → DieId → State) (h : ∀ t a, (f t a).blk β = t.blk β) :
    (s.onAll f).blk β = s.blk β := State.onAll_keeps s (fun t => t.blk β) f h

@[simp ↓] theorem State.onAwake_blk (s : State) (f : State → DieId → State) (h : ∀ t a, (f t a).blk β = t.blk β) :
    (s.onAwake f).blk β = s.blk β := by
  simp [State.onAwake, h]

/-- Every next state that r answers has block b of s. -/
def Keeps (b : Blk) (s : State) (r : Result) : Prop := ∀ t, r = .next t → t.blk b = s.blk b

@[simp] theorem keeps_next (s t : State) : Keeps β s (.next t) ↔ t.blk β = s.blk β := by
  simp [Keeps]

end Sys2Proof.Machine
end

section
/-! SUPPORT. For every function of the model that changes a state or a die: the blocks it may write. Each lemma holds of every
block outside its list; a row's lemma says the same of what the row answers. -/

set_option Elab.async false

namespace Sys2Proof.Machine

variable {β : Blk}

/-! ### Ops -/

@[simp ↓] theorem Die.count_blk (x : Die) (o : Nat) (n : Nat) (hb : β ∉ [Blk.tele]) :
    (x.count o n).blk β = x.blk β := by
  simp_all [Die.count]

@[simp ↓] theorem State.count_blk (s : State) (d : DieId) (o : Nat) (n : Nat) (hb : β ∉ [Blk.tele]) :
    (s.count d o n).blk β = s.blk β := by
  simp_all [State.count]

@[simp ↓] theorem Die.mark_blk (x : Die) (o : Nat) (hb : β ∉ [Blk.tele]) :
    (x.mark o).blk β = x.blk β := by
  simp_all [Die.mark]

@[simp ↓] theorem Die.fall_blk (x : Die) (o : Nat) (before after : Bool) (hb : β ∉ [Blk.tele]) :
    (x.fall o before after).blk β = x.blk β := by
  simp_all [Die.fall]

@[simp ↓] theorem Die.markLow_blk (x : Die) (n : Nat) (hb : β ∉ [Blk.tele]) :
    (x.markLow n).blk β = x.blk β := by
  simp_all [Die.markLow]

@[simp ↓] theorem Die.setSlice_blk (x : Die) (n : Nat) (v : Slice) (hb : β ∉ [Blk.slices, .tele]) :
    (x.setSlice n v).blk β = x.blk β := by
  simp_all [Die.setSlice]

@[simp ↓] theorem Die.setTx_blk (x : Die) (n : Nat) (v : Tx) (hb : β ∉ [Blk.txs, .tele]) :
    (x.setTx n v).blk β = x.blk β := by
  simp_all [Die.setTx]

@[simp ↓] theorem Die.setPort_blk (x : Die) (n : Nat) (v : Port) (hb : β ∉ [Blk.ports]) :
    (x.setPort n v).blk β = x.blk β := by
  simp_all [Die.setPort]

@[simp ↓] theorem Die.setCourse_blk (x : Die) (c : Nat) (v : Course) (hb : β ∉ [Blk.courses, .tele]) :
    (x.setCourse c v).blk β = x.blk β := by
  simp_all [Die.setCourse]

@[simp ↓] theorem Die.setPin_blk (x : Die) (n : Nat) (v : PinRec) (hb : β ∉ [Blk.pins]) :
    (x.setPin n v).blk β = x.blk β := by
  simp_all [Die.setPin]

@[simp ↓] theorem State.setSlice_blk (s : State) (d : DieId) (n : Nat) (v : Slice) (hb : β ∉ [Blk.slices, .tele]) :
    (s.setSlice d n v).blk β = s.blk β := by
  simp_all [State.setSlice]

@[simp ↓] theorem State.setTx_blk (s : State) (d : DieId) (n : Nat) (v : Tx) (hb : β ∉ [Blk.txs, .tele]) :
    (s.setTx d n v).blk β = s.blk β := by
  simp_all [State.setTx]

@[simp ↓] theorem State.setPort_blk (s : State) (p : PortId) (v : Port) (hb : β ∉ [Blk.ports]) :
    (s.setPort p v).blk β = s.blk β := by
  simp_all [State.setPort]

@[simp ↓] theorem State.setCourse_blk (s : State) (d : DieId) (c : Nat) (v : Course) (hb : β ∉ [Blk.courses, .tele]) :
    (s.setCourse d c v).blk β = s.blk β := by
  simp_all [State.setCourse]

@[simp ↓] theorem State.setSide_blk (s : State) (d : DieId) (c : Nat) (h : Side) (r : SideRot)
    (hb : β ∉ [Blk.courses, .tele]) :
    (s.setSide d c h r).blk β = s.blk β := by
  simp_all [State.setSide]

@[simp ↓] theorem Die.buffer_blk (x : Die) (r : Evt) (hb : β ∉ [Blk.evt, .tele]) :
    (x.buffer r).blk β = x.blk β := by
  simp_all [Die.buffer]

@[simp ↓] theorem State.post_blk (s : State) (d : DieId) (src cause data : Nat) (hb : β ∉ [Blk.evt, .tele]) :
    (s.post d src cause data).blk β = s.blk β := by
  simp_all [State.post]

@[simp ↓] theorem Die.lowered_blk (x : Die) (hb : β ∉ [Blk.tele]) :
    (x.lowered).blk β = x.blk β := by
  simp_all [Die.lowered]

@[simp ↓] theorem State.epoch_blk (s : State) (d : DieId) (kind dies : Nat) (hb : β ∉ [Blk.evt, .tele]) :
    (s.epoch d kind dies).blk β = s.blk β := by
  simp_all [State.epoch]

@[simp ↓] theorem State.postRx_blk (s : State) (d : DieId) (n cause data : Nat) (hb : β ∉ [Blk.evt, .tele]) :
    (s.postRx d n cause data).blk β = s.blk β := by
  simp_all [State.postRx]

@[simp ↓] theorem State.postTx_blk (s : State) (d : DieId) (n cause data : Nat) (hb : β ∉ [Blk.evt, .tele]) :
    (s.postTx d n cause data).blk β = s.blk β := by
  simp_all [State.postTx]

@[simp ↓] theorem State.postCourse_blk (s : State) (d : DieId) (c cause data : Nat) (hb : β ∉ [Blk.evt, .tele]) :
    (s.postCourse d c cause data).blk β = s.blk β := by
  simp_all [State.postCourse]

@[simp ↓] theorem State.postPort_blk (s : State) (p : PortId) (cause data : Nat) (hb : β ∉ [Blk.evt, .tele]) :
    (s.postPort p cause data).blk β = s.blk β := by
  simp_all [State.postPort]

@[simp ↓] theorem Die.frets_blk (x : Die) (n : Nat) (hb : β ∉ [Blk.tele]) :
    (x.frets n).blk β = x.blk β := by
  simp_all [Die.frets]

@[simp ↓] theorem Die.markerDue_blk (x : Die) (hb : β ∉ [Blk.stroke, .tele]) :
    (x.markerDue).blk β = x.blk β := by
  simp_all [Die.markerDue]

@[simp ↓] theorem Die.snapDone_blk (x : Die) (hb : β ∉ [Blk.tele]) :
    (x.snapDone).blk β = x.blk β := by
  simp_all [Die.snapDone]

@[simp ↓] theorem Die.copyDone_blk (x : Die) (hb : β ∉ [Blk.tele]) :
    (x.copyDone).blk β = x.blk β := by
  unfold Die.copyDone
  split <;> simp_all

@[simp ↓] theorem Die.halfStep_blk (x : Die) (hb : β ∉ [Blk.peg, .bist]) :
    (x.halfStep).blk β = x.blk β := by
  unfold Die.halfStep
  split <;> simp_all

@[simp ↓] theorem Die.bankStep_blk (x : Die) (hb : β ∉ [Blk.courses, .peg, .bist, .tele]) :
    (x.bankStep).blk β = x.blk β := by
  simp_all [Die.bankStep]

@[simp ↓] theorem State.advance_blk (s : State) (p : Nat) (hb : β ∉ [Blk.courses, .stroke, .peg, .bist, .tele, .pos]) :
    (s.advance p).blk β = s.blk β := by
  simp_all [State.advance]

@[simp ↓] theorem State.toFret_blk (s : State) (f : Nat) (hb : β ∉ [Blk.courses, .stroke, .peg, .bist, .tele, .pos]) :
    (s.toFret f).blk β = s.blk β := by
  simp_all [State.toFret]

@[simp ↓] theorem Die.didFret_blk (x : Die) (f : Nat) (hb : β ∉ [Blk.stroke]) :
    (x.didFret f).blk β = x.blk β := by
  simp_all [Die.didFret]

@[simp ↓] theorem Die.setAct_blk (x : Die) (o : Nat) (v : Half) (hb : β ∉ [Blk.active]) :
    (x.setAct o v).blk β = x.blk β := by
  simp_all [Die.setAct]

@[simp ↓] theorem Die.stage_blk (x : Die) (o : Nat) (v : Half) (hb : β ∉ [Blk.staging]) :
    (x.stage o v).blk β = x.blk β := by
  simp only [Die.stage]
  (repeat' split) <;> simp_all

@[simp ↓] theorem Die.dropGroup_blk (x : Die) (g : Nat) (hb : β ∉ [Blk.staging]) :
    (x.dropGroup g).blk β = x.blk β := by
  simp_all [Die.dropGroup]

@[simp ↓] theorem Die.setQueue_blk (x : Die) (q : QueueId) (v : Queue) (hb : β ∉ [Blk.queues]) :
    (x.setQueue q v).blk β = x.blk β := by
  simp_all [Die.setQueue]

@[simp ↓] theorem Die.setBridge_blk (x : Die) (w : Ew) (v : Bridge) (hb : β ∉ [Blk.brg]) :
    (x.setBridge w v).blk β = x.blk β := by
  unfold Die.setBridge
  split <;> simp_all

@[simp ↓] theorem State.leave_blk (s : State) (a : DieId) (w : Ew) (f : Flit) (hb : β ∉ [Blk.ring]) :
    (s.leave a w f).blk β = s.blk β := by
  simp_all [State.leave]

@[simp ↓] theorem State.sendTo_blk (s : State) (a b : DieId) (body : Body) (answered : Bool)
    (hb : β ∉ [Blk.brg, .ring]) :
    (s.sendTo a b body answered).blk β = s.blk β := by
  simp_all [State.sendTo]

@[simp ↓] theorem State.broadcast_blk (s : State) (a : DieId) (body : Body) (hb : β ∉ [Blk.brg, .ring]) :
    (s.broadcast a body).blk β = s.blk β := by
  simp_all [State.broadcast]

@[simp ↓] theorem State.setQueue_blk (s : State) (d : DieId) (q : QueueId) (v : Queue) (hb : β ∉ [Blk.queues]) :
    (s.setQueue d q v).blk β = s.blk β := by
  simp_all [State.setQueue]

@[simp ↓] theorem State.enqueue_blk (s : State) (d : DieId) (k : Packet) (op : Nat) (hb : β ∉ [Blk.peg]) :
    (s.enqueue d k op).blk β = s.blk β := by
  simp_all [State.enqueue]

@[simp ↓] theorem State.dispatch_blk (s : State) (d : DieId) (x : Packet × Nat) (hb : β ∉ [Blk.brg, .peg, .ring]) :
    (s.dispatch d x).blk β = s.blk β := by
  simp_all [State.dispatch]

@[simp ↓] theorem State.startHeld_blk (s : State) (d : DieId) (n : QueueId) (hb : β ∉ [Blk.brg, .peg, .queues, .ring]) :
    (s.startHeld d n).blk β = s.blk β := by
  simp_all [State.startHeld]

@[simp ↓] theorem State.receive_blk (s : State) (d : DieId) (r : Rec) (hb : β ∉ carriers) :
    (s.receive d r).blk β = s.blk β := by
  simp_all [State.receive]

@[simp ↓] theorem State.deliver_blk (s : State) (at_ : DieId) (r : Rec) (hb : β ∉ carriers) :
    (s.deliver at_ r).blk β = s.blk β := by
  simp_all [State.deliver]

@[simp ↓] theorem Die.remember_blk (x : Die) (e : Ended) (hb : β ∉ [Blk.peg]) :
    (x.remember e).blk β = x.blk β := by
  simp_all [Die.remember]

@[simp ↓] theorem State.finish_blk (s : State) (k : Packet) (op : Nat) (r : Rec) (span : Nat) (hb : β ∉ carriers) :
    (s.finish k op r span).blk β = s.blk β := by
  simp_all [State.finish]

@[simp ↓] theorem State.finishHw_blk (s : State) (k : Packet) (op : Nat) (r : Rec) (span : Nat) (hb : β ∉ carriers) :
    (s.finishHw k op r span).blk β = s.blk β := by
  simp_all [State.finishHw]

@[simp ↓] theorem State.done_blk (s : State) (k : Packet) (op effect : Nat) (data : List Nat) (hb : β ∉ carriers) :
    (s.done k op effect data).blk β = s.blk β := by
  simp_all [State.done]

@[simp ↓] theorem State.refuse_blk (s : State) (k : Packet) (op status : Nat) (data : List Nat) (hb : β ∉ carriers) :
    (s.refuse k op status data).blk β = s.blk β := by
  simp_all [State.refuse]

@[simp ↓] theorem State.accept_blk (s : State) (k : Packet) (op cls obj : Nat) (data : List Nat) (hb : β ∉ carriers) :
    (s.accept k op cls obj data).blk β = s.blk β := by
  simp_all [State.accept]

@[simp ↓] theorem State.start_blk (s : State) (k : Packet) (op cls obj : Nat) (data : List Nat) (work : State → State)
    (h : ∀ t, (work t).blk β = t.blk β) (hb : β ∉ carriers) :
    (s.start k op cls obj data work).blk β = s.blk β := by
  simp_all [State.start]

@[simp ↓] theorem Die.mapOps_blk (x : Die) (f : Op → Bool) (g : Op → Op) (hb : β ∉ [Blk.peg]) :
    (x.mapOps f g).blk β = x.blk β := by
  simp_all [Die.mapOps]

@[simp ↓] theorem State.endOp_blk (s : State) (d : DieId) (o : Op) (status effect : Nat) (data : List Nat)
    (hb : β ∉ carriers) :
    (s.endOp d o status effect data).blk β = s.blk β := by
  simp_all [State.endOp]

@[simp ↓] theorem State.progress_blk (s : State) (d : DieId) (o : Op) (pos : Nat) (hb : β ∉ carriers) :
    (s.progress d o pos).blk β = s.blk β := by
  simp_all [State.progress]

@[simp ↓] theorem State.conclude_blk (s : State) (d : DieId) (o : Op) (status effect : Nat) (data : List Nat)
    (hb : β ∉ carriers) :
    (s.conclude d o status effect data).blk β = s.blk β := by
  simp_all [State.conclude]

@[simp ↓] theorem State.headerError_blk (s : State) (k : Packet) (status herr : Nat) (hb : β ∉ carriers) :
    (s.headerError k status herr).blk β = s.blk β := by
  simp_all [State.headerError]

@[simp ↓] theorem State.takeInbox_blk (s : State) (k : Packet) (op : Nat) (hb : β ∉ [Blk.peg]) :
    (s.takeInbox k op).blk β = s.blk β := by
  simp_all [State.takeInbox]

@[simp ↓] theorem State.command_blk (s : State) (k : Packet) (op : Nat) (body : State → State)
    (h : ∀ t, (body t).blk β = t.blk β) (hb : β ∉ carriers) :
    (s.command k op body).blk β = s.blk β := by
  simp_all [State.command]

@[simp ↓] theorem State.command0_blk (s : State) (k : Packet) (op : Nat) (body : State → State)
    (h : ∀ t, (body t).blk β = t.blk β) (hb : β ∉ carriers) :
    (s.command0 k op body).blk β = s.blk β := by
  simp_all [State.command0]

@[simp ↓] theorem State.commandPort_blk (s : State) (k : Packet) (op : Nat) (body : State → PortId → State)
    (h : ∀ t a, (body t a).blk β = t.blk β) (hb : β ∉ carriers) :
    (s.commandPort k op body).blk β = s.blk β := by
  refine State.command_blk s k _ _ (fun s => ?_) (by simp_all)
  (repeat' split) <;> simp_all

@[simp ↓] theorem State.onClk_blk (s : State) (d : DieId) (f : Clk → Clk) (hb : β ∉ [Blk.clk]) :
    (s.onClk d f).blk β = s.blk β := by
  simp_all [State.onClk]

@[simp ↓] theorem Die.setGate_blk (x : Die) (level node : Nat) (close : Bool)
    (hb : β ∉ [Blk.txs, .courses, .clk, .tele]) :
    (x.setGate level node close).blk β = x.blk β := by
  unfold Die.setGate
  split <;> simp_all

@[simp ↓] theorem State.gateTo_blk (s : State) (d : DieId) (level node : Nat) (close dev : Bool)
    (hb : β ∉ [Blk.txs, .courses, .clk, .evt, .tele]) :
    (s.gateTo d level node close dev).blk β = s.blk β := by
  simp_all [State.gateTo]

@[simp ↓] theorem State.gateOpen_blk (s : State) (d : DieId) (level node : Nat)
    (hb : β ∉ [Blk.txs, .courses, .clk, .evt, .tele]) :
    (s.gateOpen d level node).blk β = s.blk β := by
  simp_all [State.gateOpen]

@[simp ↓] theorem State.takeFree_blk (s : State) (hb : β ∉ [Blk.free]) :
    s.takeFree.2.blk β = s.blk β := by
  simp_all [State.takeFree]

/-! ### Events -/

@[simp ↓] theorem Die.msix_blk (x : Die) (v : Nat) (event : Bool) (hb : β ∉ [Blk.evt, .tele]) :
    (x.msix v event).blk β = x.blk β := by
  simp_all [Die.msix]

@[simp ↓] theorem State.ringWrite_blk (s : State) (d : DieId) (r : Evt) (hb : β ∉ [Blk.evt, .tele, .sram]) :
    (s.ringWrite d r).blk β = s.blk β := by
  simp_all [State.ringWrite]

@[simp ↓] theorem State.ringTake_blk (s : State) (d : DieId) (r : Evt) (hb : β ∉ [Blk.evt, .tele, .sram]) :
    (s.ringTake d r).blk β = s.blk β := by
  simp_all [State.ringTake]

@[simp ↓] theorem State.ringWrites_blk (s : State) (d : DieId) (l : List Evt) (hb : β ∉ [Blk.evt, .tele, .sram]) :
    (s.ringWrites d l).blk β = s.blk β := by
  simp_all [State.ringWrites]

@[simp ↓] theorem State.ringRelease_blk (s : State) (d : DieId) (hb : β ∉ [Blk.evt, .tele, .sram]) :
    (s.ringRelease d).blk β = s.blk β := by
  simp_all [State.ringRelease]

@[simp ↓] theorem Die.release_blk (x : Die) (hb : β ∉ [Blk.evt]) :
    (x.release).blk β = x.blk β := by
  simp_all [Die.release]

@[simp ↓] theorem State.forwardEvents_blk (s : State) (d : DieId) (hb : β ∉ [Blk.brg, .evt, .tele, .sram, .ring]) :
    (s.forwardEvents d).blk β = s.blk β := by
  unfold State.forwardEvents
  extract_lets x rest recs s' give u
  have hgive : ∀ t a, (give t a).blk β = t.blk β := by
    intro t a
    simp only [give]
    (repeat' split) <;> simp_all
  split
  · rfl
  · simp_all [u, s']

@[simp ↓] theorem State.evtRp_blk (s : State) (d : DieId) (v : Nat) (hb : β ∉ [Blk.evt, .tele]) :
    (s.evtRp d v).blk β = s.blk β := by
  simp_all [State.evtRp]

theorem execEventCause_blk (d : DieId) (source : Fin 512) (cause : Byte) (data : Word) (s : State)
    (hb : β ∉ [Blk.evt, .tele]) :
    Keeps β s (execEventCause d source cause data s) := by
  simp_all [execEventCause]

theorem execEventForward_blk (d : DieId) (s : State)
    (hb : β ∉ [Blk.courses, .stroke, .brg, .peg, .evt, .bist, .tele, .sram, .pos, .ring]) :
    Keeps β s (execEventForward d s) := by
  simp_all [execEventForward]

theorem execEvtRpWrite_blk (e : AccessId) (rp : BitVec 12) (s : State) (hb : β ∉ [Blk.evt, .tele]) :
    Keeps β s (execEvtRpWrite e rp s) := by
  simp_all [execEvtRpWrite]

theorem execMsixEvent_blk (e : AccessId) (s : State) (hb : β ∉ [Blk.courses, .stroke, .peg, .evt, .bist, .tele, .pos]) :
    Keeps β s (execMsixEvent e s) := by
  simp_all [execMsixEvent]

theorem execMsixUnmask_blk (e : AccessId) (vector : Option (Fin 32)) (s : State) (hb : β ∉ [Blk.evt, .tele]) :
    Keeps β s (execMsixUnmask e vector s) := by
  unfold execMsixUnmask
  split <;> simp_all

/-! ### Pegbox -/

@[simp ↓] theorem State.queueError_blk (s : State) (d : DieId) (q : QueueId) (what index : Nat)
    (hb : β ∉ [Blk.evt, .tele]) :
    (s.queueError d q what index).blk β = s.blk β := by
  simp_all [State.queueError]

@[simp ↓] theorem State.sqTail_blk (s : State) (d : DieId) (n : QueueId) (v : Nat)
    (hb : β ∉ [Blk.queues, .evt, .tele]) :
    (s.sqTail d n v).blk β = s.blk β := by
  simp_all [State.sqTail]

@[simp ↓] theorem State.cqHead_blk (s : State) (d : DieId) (n : QueueId) (v : Nat)
    (hb : β ∉ [Blk.queues, .evt, .tele]) :
    (s.cqHead d n v).blk β = s.blk β := by
  simp_all [State.cqHead]

theorem execSqDoorbell_blk (e : AccessId) (q : QueueId) (tail : BitVec 6) (s : State)
    (hb : β ∉ [Blk.queues, .evt, .tele]) :
    Keeps β s (execSqDoorbell e q tail s) := by
  simp_all [execSqDoorbell]

theorem execCqDoorbell_blk (e : AccessId) (q : QueueId) (head : BitVec 6) (s : State)
    (hb : β ∉ [Blk.queues, .evt, .tele]) :
    Keeps β s (execCqDoorbell e q head s) := by
  simp_all [execCqDoorbell]

theorem execLockedSlotWrite_blk (e : AccessId) (q : QueueId) (slot : BitVec 6) (s : State) (hb : β ∉ [Blk.evt, .tele]) :
    Keeps β s (execLockedSlotWrite e q slot s) := by
  simp_all [execLockedSlotWrite]

theorem execCommandFetch_blk (e : AccessId) (n : QueueId) (s : State) (hb : β ∉ carriers) :
    Keeps β s (execCommandFetch e n s) := by
  simp at hb
  simp only [execCommandFetch, keeps_next]
  (repeat' split) <;> simp [hb]

theorem execRecordPost_blk (e : AccessId) (n : QueueId) (s : State) (hb : β ∉ [Blk.sram] ++ carriers) :
    Keeps β s (execRecordPost e n s) := by
  simp at hb
  simp only [execRecordPost, keeps_next]
  (repeat' split) <;> simp [hb]

theorem execInboxTimeout_blk (d : DieId) (s : State) (hb : β ∉ carriers) :
    Keeps β s (execInboxTimeout d s) := by
  simp at hb
  simp only [execInboxTimeout, keeps_next]
  (repeat' split) <;> simp [hb]

theorem execNop_blk (k : Packet) (s : State) (hb : β ∉ carriers) :
    Keeps β s (execNop k s) := by
  simp_all [execNop]

theorem execGetInfo_blk (k : Packet) (s : State) (hb : β ∉ carriers) :
    Keeps β s (execGetInfo k s) := by
  simp_all [execGetInfo]

theorem execOpStatus_blk (k : Packet) (s : State) (hb : β ∉ carriers) :
    Keeps β s (execOpStatus k s) := by
  simp_all [execOpStatus]

@[simp ↓] theorem State.await_blk (s : State) (k : Packet) (op due arg : Nat) (hb : β ∉ [Blk.peg]) :
    (s.await k op due arg).blk β = s.blk β := by
  simp_all [State.await]

@[simp ↓] theorem State.stageAll_blk (s : State) (d : DieId) (l : List (Nat × Half)) (hb : β ∉ [Blk.staging]) :
    (s.stageAll d l).blk β = s.blk β := by
  simp_all [State.stageAll]

@[simp ↓] theorem State.strobe_blk (s : State) (d : DieId) (mask : Nat) (hb : β ∉ [Blk.stroke]) :
    (s.strobe d mask).blk β = s.blk β := by
  simp_all [State.strobe]

@[simp ↓] theorem State.commitAnswer_blk (s : State) (k : Packet) (op g : Nat) (l : List (Nat × Half)) (arg : Nat)
    (hb : β ∉ [Blk.staging, .stroke, .peg]) :
    (s.commitAnswer k op g l arg).blk β = s.blk β := by
  simp_all [State.commitAnswer]

/-! ### Bridges -/

@[simp ↓] theorem State.arrive_blk (s : State) (p : Flit) (hb : β ∉ [Blk.ring]) :
    (s.arrive p).blk β = s.blk β := by
  simp_all [State.arrive]

@[simp ↓] theorem State.forward_blk (s : State) (d : DieId) (p : Flit) (hb : β ∉ [Blk.ring]) :
    (s.forward d p).blk β = s.blk β := by
  simp_all [State.forward]

@[simp ↓] theorem Die.accept_blk (x : Die) (src : DieId) (tag : Nat) (reply : Option Body) (hb : β ∉ [Blk.brg]) :
    (x.accept src tag reply).blk β = x.blk β := by
  simp_all [Die.accept]

@[simp ↓] theorem State.routed_blk (s : State) (d : DieId) (p : Flit) (ans : Bool) (run : State → State × Option Body)
    (h : ∀ t, (run t).1.blk β = t.blk β) (hb : β ∉ [Blk.brg, .tele, .ring]) :
    (s.routed d p ans run).blk β = s.blk β := by
  simp only [State.routed]
  (repeat' split) <;> simp_all

@[simp ↓] theorem State.bcastAs_blk (s : State) (d : DieId) (p q : Flit) (run : State → State)
    (h : ∀ t, (run t).blk β = t.blk β) (hb : β ∉ [Blk.brg, .ring]) :
    (s.bcastAs d p q run).blk β = s.blk β := by
  simp_all [State.bcastAs]

@[simp ↓] theorem State.bcast_blk (s : State) (d : DieId) (p : Flit) (run : State → State)
    (h : ∀ t, (run t).blk β = t.blk β) (hb : β ∉ [Blk.brg, .ring]) :
    (s.bcast d p run).blk β = s.blk β := by
  simp_all [State.bcast]

@[simp ↓] theorem State.holdFlit_blk (s : State) (p : Flit) (hb : β ∉ [Blk.ring]) :
    (s.holdFlit p).blk β = s.blk β := by
  simp_all [State.holdFlit]

@[simp ↓] theorem State.ordered_blk (s : State) (d : DieId) (p : Flit) (ans : Bool)
    (run : State → State × Option Body) (h : ∀ t, (run t).1.blk β = t.blk β) (hb : β ∉ [Blk.brg, .tele, .ring]) :
    (s.ordered d p ans run).blk β = s.blk β := by
  simp_all [State.ordered]

@[simp ↓] theorem Die.answered_blk (x : Die) (dst : DieId) (tag : Nat) (hb : β ∉ [Blk.brg]) :
    (x.answered dst tag).blk β = x.blk β := by
  simp_all [Die.answered]

@[simp ↓] theorem State.toTracking_blk (s : State) (d : DieId) (hb : β ∉ [Blk.stroke, .evt, .tele]) :
    (s.toTracking d).blk β = s.blk β := by
  simp_all [State.toTracking]

@[simp ↓] theorem State.realign_blk (s : State) (hb : β ∉ [Blk.stroke, .evt, .tele]) :
    (s.realign).blk β = s.blk β := by
  simp_all [State.realign]

@[simp ↓] theorem State.marker_blk (s : State) (d : DieId) (n : Nat) (lead : DieId) (err : Int)
    (hb : β ∉ [Blk.stroke, .evt, .tele]) :
    (s.marker d n lead err).blk β = s.blk β := by
  simp_all [State.marker]

@[simp ↓] theorem State.steer_blk (s : State) (d : DieId) (p : Flit) (n : Nat) (lead : DieId) (arrival : Int)
    (late : Nat) (hb : β ∉ [Blk.stroke, .evt, .tele]) :
    (s.steer d p n lead arrival late).blk β = s.blk β := by
  simp_all [State.steer]

theorem execSync_blk (d : DieId) (src : DieId) (tag : BitVec 16) (arrival : Int) (residence : BitVec 24) (s : State)
    (hb : β ∉ [Blk.stroke, .brg, .evt, .tele, .ring]) :
    Keeps β s (execSync d src tag arrival residence s) := by
  simp at hb
  simp only [execSync, keeps_next]
  (repeat' split) <;> simp [hb]

@[simp ↓] theorem State.sendMarker_blk (s : State) (l : DieId) (hb : β ∉ [Blk.stroke, .brg, .ring]) :
    (s.sendMarker l).blk β = s.blk β := by
  simp_all [State.sendMarker]

theorem execSyncSend_blk (s : State) (hb : β ∉ [Blk.courses, .stroke, .brg, .peg, .bist, .tele, .pos, .ring]) :
    Keeps β s (execSyncSend s) := by
  simp_all [execSyncSend]

theorem execMarkerMissing_blk (d : DieId) (s : State) (hb : β ∉ [Blk.stroke, .evt, .tele]) :
    Keeps β s (execMarkerMissing d s) := by
  simp_all [execMarkerMissing]

theorem execHeartbeatSend_blk (d : DieId) (s : State)
    (hb : β ∉ [Blk.courses, .stroke, .brg, .peg, .bist, .tele, .pos, .ring]) :
    Keeps β s (execHeartbeatSend d s) := by
  simp at hb
  unfold execHeartbeatSend
  rw [keeps_next]
  split
  · extract_lets -lift u x mk v
    have hv : v.blk β = s.blk β := by simp [u, v, hb]
    simp [hv, hb]
  · rfl

@[simp ↓] theorem State.lanesTold_blk (s : State) (d : DieId) (b : Ew) (was : Nat) (hb : β ∉ [Blk.evt, .tele]) :
    (s.lanesTold d b was).blk β = s.blk β := by
  simp_all [State.lanesTold]

@[simp ↓] theorem State.onLink_blk (s : State) (d : DieId) (b : Ew) (f : Bridge → Bridge)
    (hb : β ∉ [Blk.brg, .evt, .tele]) :
    (s.onLink d b f).blk β = s.blk β := by
  simp_all [State.onLink]

@[simp ↓] theorem Die.reported_blk (x : Die) (n : Nat) (run : Bool) (hb : β ∉ [Blk.brg]) :
    (x.reported n run).blk β = x.blk β := by
  simp_all [Die.reported]

theorem execHeartbeat_blk (d : DieId) (b : Ew) (s : State) (hb : β ∉ [Blk.brg, .evt, .tele, .ring]) :
    Keeps β s (execHeartbeat d b s) := by
  simp at hb
  simp only [execHeartbeat, keeps_next]
  (repeat' split) <;> simp [hb]

@[simp ↓] theorem Die.failing_blk (x : Die) (hb : β ∉ [Blk.brg]) :
    (x.failing).blk β = x.blk β := by
  simp_all [Die.failing]

@[simp ↓] theorem State.cutLink_blk (s : State) (d : DieId) (b : Ew) (hb : β ∉ [Blk.ring]) :
    (s.cutLink d b).blk β = s.blk β := by
  simp_all [State.cutLink]

theorem execBridgeDown_blk (d : DieId) (b : Ew) (s : State) (hb : β ∉ [Blk.brg, .evt, .tele, .ring]) :
    Keeps β s (execBridgeDown d b s) := by
  simp_all [execBridgeDown]

theorem execBridgeUp_blk (d : DieId) (b : Ew) (s : State) (hb : β ∉ [Blk.brg, .evt, .tele, .ring]) :
    Keeps β s (execBridgeUp d b s) := by
  simp_all [execBridgeUp]

@[simp ↓] theorem State.discards_blk (s : State) (d : DieId) (b : Ew) (l : List (DieId × BitVec 16 × BitVec 64))
    (hb : β ∉ [Blk.tele, .ring]) :
    (s.discards d b l).blk β = s.blk β := by
  refine State.foldl_blk s _ l fun s e => ?_
  (repeat' split) <;> simp_all

theorem execBridgeLaneChange_blk (d : DieId) (b : Ew) (lane : Fin 4) (headers : List (BitVec 2))
    (damaged : List (DieId × BitVec 16 × BitVec 64)) (s : State) (hb : β ∉ [Blk.brg, .evt, .tele, .ring]) :
    Keeps β s (execBridgeLaneChange d b lane headers damaged s) := by
  simp_all [execBridgeLaneChange]

@[simp ↓] theorem State.newSet_blk (s : State) (d : DieId) (b : Ew) (hb : β ∉ [Blk.brg, .evt, .tele]) :
    (s.newSet d b).blk β = s.blk β := by
  simp_all [State.newSet]

theorem execAlignmentBlock_blk (d : DieId) (b : Ew) (blocks : List (BitVec 64 × Byte)) (s : State)
    (hb : β ∉ [Blk.brg, .evt, .tele]) :
    Keeps β s (execAlignmentBlock d b blocks s) := by
  simp_all [execAlignmentBlock]

theorem execRingState_blk (d : DieId) (src : DieId) (tag : BitVec 16) (s : State) (hb : β ∉ [Blk.brg, .ring]) :
    Keeps β s (execRingState d src tag s) := by
  simp at hb
  simp only [execRingState, keeps_next]
  (repeat' split) <;> simp [hb]

@[simp ↓] theorem Die.nextPacket_blk (x : Die) (hb : β ∉ [Blk.brg]) :
    (x.nextPacket).blk β = x.blk β := by
  simp_all [Die.nextPacket]

theorem execEcho_blk (d : DieId) (b : Ew) (latency : Half) (s : State) (hb : β ∉ [Blk.brg]) :
    Keeps β s (execEcho d b latency s) := by
  simp_all [execEcho]

theorem execCmdFwd_blk (d : DieId) (src : DieId) (tag : BitVec 16) (s : State)
    (hb : β ∉ [Blk.brg, .peg, .tele, .ring]) :
    Keeps β s (execCmdFwd d src tag s) := by
  simp at hb
  simp only [execCmdFwd, keeps_next]
  (repeat' split) <;> simp [hb]

theorem execCmdRsp_blk (d : DieId) (src : DieId) (tag : BitVec 16) (s : State) (hb : β ∉ carriers) :
    Keeps β s (execCmdRsp d src tag s) := by
  simp at hb
  simp only [execCmdRsp, keeps_next]
  (repeat' split) <;> simp [hb]

theorem execEvtFwd_blk (d : DieId) (src : DieId) (tag : BitVec 16) (s : State)
    (hb : β ∉ [Blk.brg, .evt, .tele, .sram, .ring]) :
    Keeps β s (execEvtFwd d src tag s) := by
  unfold execEvtFwd
  split <;> simp_all

theorem execAck_blk (d : DieId) (src : DieId) (tag : BitVec 16) (s : State) (hb : β ∉ [Blk.brg, .evt, .tele, .ring]) :
    Keeps β s (execAck d src tag s) := by
  simp at hb
  simp only [execAck, keeps_next]
  (repeat' split) <;> simp [hb]

@[simp ↓] theorem Die.schedule_blk (x : Die) (d : DieId) (n mask kind : Nat) (hb : β ∉ [Blk.stroke, .peg]) :
    (x.schedule d n mask kind).blk β = x.blk β := by
  simp_all [Die.schedule]

theorem execGcommit_blk (d : DieId) (src : DieId) (tag : BitVec 16) (s : State)
    (hb : β ∉ [Blk.stroke, .brg, .peg, .ring]) :
    Keeps β s (execGcommit d src tag s) := by
  simp at hb
  simp only [execGcommit, keeps_next]
  (repeat' split) <;> simp [hb]

theorem execElect_blk (d : DieId) (src : DieId) (tag : BitVec 16) (s : State) (hb : β ∉ [Blk.brg, .tele, .ring]) :
    Keeps β s (execElect d src tag s) := by
  simp at hb
  simp only [execElect, keeps_next]
  (repeat' split) <;> simp [hb]

@[simp ↓] theorem State.resend_blk (s : State) (d : DieId) (r : Sent) (hb : β ∉ [Blk.brg, .tele, .ring]) :
    (s.resend d r).blk β = s.blk β := by
  simp_all [State.resend]

theorem execPacketResend_blk (d : DieId) (tag : BitVec 16) (s : State) (hb : β ∉ [Blk.brg, .tele, .ring]) :
    Keeps β s (execPacketResend d tag s) := by
  simp_all [execPacketResend]

@[simp ↓] theorem State.sendElect_blk (s : State) (c : DieId) (hb : β ∉ [Blk.brg, .evt, .tele, .ring]) :
    (s.sendElect c).blk β = s.blk β := by
  simp_all [State.sendElect]

theorem execDie0Unavailable_blk (s : State) (hb : β ∉ [Blk.brg, .evt, .tele, .ring]) :
    Keeps β s (execDie0Unavailable s) := by
  simp_all [execDie0Unavailable]

theorem execOtherAccessDieUnavailable_blk (s : State) (hb : β ∉ [Blk.brg, .evt, .tele, .ring]) :
    Keeps β s (execOtherAccessDieUnavailable s) := by
  simp_all [execOtherAccessDieUnavailable]

theorem execLeadReturn_blk (s : State) (hb : β ∉ [Blk.brg, .evt, .tele, .ring]) :
    Keeps β s (execLeadReturn s) := by
  simp_all [execLeadReturn]

@[simp ↓] theorem State.stepDown_blk (s : State) (d c : DieId) (hb : β ∉ [Blk.stroke, .evt, .tele]) :
    (s.stepDown d c).blk β = s.blk β := by
  simp_all [State.stepDown]

@[simp ↓] theorem State.takeLead_blk (s : State) (c : DieId) (hb : β ∉ [Blk.stroke, .brg, .evt, .tele, .mode]) :
    (s.takeLead c).blk β = s.blk β := by
  simp_all [State.takeLead]

theorem execLeadChanged_blk (s : State) (hb : β ∉ [Blk.stroke, .brg, .evt, .tele, .mode]) :
    Keeps β s (execLeadChanged s) := by
  simp_all [execLeadChanged]

/-! ### Nv -/

@[simp ↓] theorem Die.nvPut_blk (x : Die) (off v : Nat) (hb : β ∉ [Blk.nv, .tele]) :
    (x.nvPut off v).blk β = x.blk β := by
  simp_all [Die.nvPut]

@[simp ↓] theorem State.nvStore_blk (s : State) (m : DieId) (off v : Nat) (hb : β ∉ [Blk.evt, .nv, .tele]) :
    (s.nvStore m off v).blk β = s.blk β := by
  simp_all [State.nvStore]

@[simp ↓] theorem State.nvRefuse_blk (s : State) (m : DieId) (off : Nat) (hb : β ∉ [Blk.evt, .tele]) :
    (s.nvRefuse m off).blk β = s.blk β := by
  simp_all [State.nvRefuse]

@[simp ↓] theorem State.nvStores_blk (s : State) (m : DieId) (off : Nat) (l : List Nat)
    (hb : β ∉ [Blk.evt, .nv, .tele]) :
    (s.nvStores m off l).1.blk β = s.blk β := by
  induction l generalizing s off with
  | nil => rfl
  | cons v vs ih =>
    unfold State.nvStores
    split <;> simp_all

@[simp ↓] theorem State.nvFetch_blk (s : State) (d : DieId) (off : Nat) (own other : EccResult)
    (hb : β ∉ [Blk.evt, .nv, .tele]) :
    (s.nvFetch d off own other).1.blk β = s.blk β := by
  cases own with
  | clean => simp_all [State.nvFetch]
  | corrected => simp_all [State.nvFetch]
  | uncorrectable =>
    simp only [State.nvFetch]
    split <;> simp_all

@[simp ↓] theorem State.nvFetches_blk (s : State) (d : DieId) (ecc : List EccResult) (n off c : Nat)
    (hb : β ∉ [Blk.evt, .nv, .tele]) :
    (s.nvFetches d ecc n off c).1.blk β = s.blk β := by
  induction c generalizing s with
  | zero => rfl
  | succ c ih => simp_all [State.nvFetches]

theorem execNvRead_blk (k : Packet) (ecc : List EccResult) (s : State) (hb : β ∉ [Blk.nv] ++ carriers) :
    Keeps β s (execNvRead k ecc s) := by
  simp only [execNvRead, keeps_next]
  refine State.command_blk s k _ _ (fun s => ?_) (by simp_all)
  (repeat' split) <;> simp_all

@[simp ↓] theorem State.nvWriteCmd_blk (s : State) (k : Packet) (hb : β ∉ [Blk.nv] ++ carriers) :
    (s.nvWriteCmd k).blk β = s.blk β := by
  unfold State.nvWriteCmd
  dsimp only
  (repeat' split) <;> simp_all

theorem execNvWrite_blk (k : Packet) (s : State) (hb : β ∉ [Blk.nv] ++ carriers) :
    Keeps β s (execNvWrite k s) := by
  simp_all [execNvWrite]

theorem execNvWorn_blk (k : Packet) (s : State) (hb : β ∉ [Blk.nv] ++ carriers) :
    Keeps β s (execNvWorn k s) := by
  simp_all [execNvWorn]

@[simp ↓] theorem Die.resyncBlock_blk (x : Die) (src : List Host.Cell) (b : Nat) (hb : β ∉ [Blk.nv, .tele]) :
    (x.resyncBlock src b).blk β = x.blk β := by
  simp_all [Die.resyncBlock]

theorem execMirrorResync_blk (s : State) (hb : β ∉ [Blk.evt, .nv, .tele]) :
    Keeps β s (execMirrorResync s) := by
  simp_all [execMirrorResync]

@[simp ↓] theorem State.loadCalSlice_blk (s : State) (d : DieId) (n : Nat) (hb : β ∉ [Blk.cal]) :
    (s.loadCalSlice d n).blk β = s.blk β := by
  simp_all [State.loadCalSlice]

@[simp ↓] theorem State.bootWord_blk (s : State) (ok0 ok1 : Bool) (w : Nat) (e0 e1 : EccResult)
    (hb : β ∉ [Blk.evt, .nv, .tele]) :
    (s.bootWord ok0 ok1 w e0 e1).blk β = s.blk β := by
  simp only [State.bootWord]
  (repeat' split) <;> simp_all

theorem execCalRead_blk (k : Packet) (own other : EccResult) (s : State) (hb : β ∉ [Blk.nv] ++ carriers) :
    Keeps β s (execCalRead k own other s) := by
  simp only [execCalRead, keeps_next]
  refine State.command_blk s k _ _ (fun s => ?_) (by simp_all)
  (repeat' split) <;> simp_all

theorem execCalWrite_blk (k : Packet) (s : State) (hb : β ∉ [Blk.nv] ++ carriers) :
    Keeps β s (execCalWrite k s) := by
  simp only [execCalWrite, keeps_next]
  refine State.command_blk s k _ _ (fun s => ?_) (by simp_all)
  (repeat' split) <;> simp_all

/-! ### Ports -/

@[simp ↓] theorem State.onPort_blk (s : State) (p : PortId) (f : Port → Port) (hb : β ∉ [Blk.ports]) :
    (s.onPort p f).blk β = s.blk β := by
  simp_all [State.onPort]

@[simp ↓] theorem State.portMove_blk (s : State) (p : PortId) (new reason : Nat) (hb : β ∉ [Blk.ports, .evt, .tele]) :
    (s.portMove p new reason).blk β = s.blk β := by
  simp_all [State.portMove]

theorem execPrsAsserted_blk (d : DieId) (c : CourseId) (s : State) (hb : β ∉ [Blk.courses, .evt, .tele]) :
    Keeps β s (execPrsAsserted d c s) := by
  simp_all [execPrsAsserted]

theorem execPrsDeasserted_blk (d : DieId) (c : CourseId) (s : State) (hb : β ∉ [Blk.ports, .courses, .evt, .tele]) :
    Keeps β s (execPrsDeasserted d c s) := by
  simp_all [execPrsDeasserted]

theorem execSegmentPresent_blk (p : PortId) (h : Side) (s : State) (hb : β ∉ [Blk.ports]) :
    Keeps β s (execSegmentPresent p h s) := by
  simp_all [execSegmentPresent]

theorem execSegmentAbsent_blk (p : PortId) (h : Side) (s : State) (hb : β ∉ [Blk.ports]) :
    Keeps β s (execSegmentAbsent p h s) := by
  simp_all [execSegmentAbsent]

@[simp ↓] theorem State.commandDefined_blk (s : State) (k : Packet) (op : Nat) (body : State → PortId → State)
    (h : ∀ t a, (body t a).blk β = t.blk β) (hb : β ∉ carriers) :
    (s.commandDefined k op body).blk β = s.blk β := by
  simp_all [State.commandDefined]

theorem execPortDefine_blk (k : Packet) (s : State) (hb : β ∉ [Blk.staging, .stroke] ++ carriers) :
    Keeps β s (execPortDefine k s) := by
  simp_all [execPortDefine]

theorem execPortEnable_blk (k : Packet) (s : State) (hb : β ∉ [Blk.staging, .stroke] ++ carriers) :
    Keeps β s (execPortEnable k s) := by
  simp_all [execPortEnable]

theorem execPortDisable_blk (k : Packet) (s : State) (hb : β ∉ [Blk.staging, .stroke] ++ carriers) :
    Keeps β s (execPortDisable k s) := by
  simp_all [execPortDisable]

theorem execPortStatus_blk (k : Packet) (s : State) (hb : β ∉ carriers) :
    Keeps β s (execPortStatus k s) := by
  simp_all [execPortStatus]

theorem execPortAttachPolicy_blk (k : Packet) (s : State) (hb : β ∉ carriers) :
    Keeps β s (execPortAttachPolicy k s) := by
  simp_all [execPortAttachPolicy]

/-! ### Slices -/

@[simp ↓] theorem State.onSlice_blk (s : State) (d : DieId) (n : Nat) (f : Slice → Slice)
    (hb : β ∉ [Blk.slices, .evt, .tele]) :
    (s.onSlice d n f).blk β = s.blk β := by
  simp_all [State.onSlice]

@[simp ↓] theorem Die.committedRx_blk (x : Die) (n : Nat) (hb : β ∉ [Blk.active]) :
    (x.committedRx n).blk β = x.blk β := by
  simp_all [Die.committedRx]

@[simp ↓] theorem State.acquireAfresh_blk (s : State) (d : DieId) (n : Nat)
    (hb : β ∉ [Blk.active, .slices, .evt, .tele]) :
    (s.acquireAfresh d n).blk β = s.blk β := by
  simp_all [State.acquireAfresh]

@[simp ↓] theorem State.lostInSession_blk (s : State) (d : DieId) (n : Nat)
    (hb : β ∉ [Blk.active, .slices, .evt, .tele]) :
    (s.lostInSession d n).blk β = s.blk β := by
  simp_all [State.lostInSession]

@[simp ↓] theorem State.sliceSession_blk (s : State) (d : DieId) (c : Nat) (h : Side) (j : Nat)
    (hb : β ∉ [Blk.active, .slices, .pins, .evt, .tele]) :
    (s.sliceSession d c h j).blk β = s.blk β := by
  simp_all [State.sliceSession]

@[simp ↓] theorem Die.ffeUpdate_blk (x : Die) (n : Nat) (held : List Nat) (k : Nat) (l : List Int)
    (hb : β ∉ [Blk.active]) :
    (x.ffeUpdate n held k l).1.blk β = x.blk β := by
  induction l generalizing x k with
  | nil => rfl
  | cons dl rest ih =>
    unfold Die.ffeUpdate
    split <;> simp_all

@[simp ↓] theorem Die.tune_blk (x : Die) (n : Nat) (u : SliceUpdate) (hb : β ∉ [Blk.active, .slices, .tele]) :
    (x.tune n u).blk β = x.blk β := by
  unfold Die.tune
  extract_lets _ _ _ _ _ _ _ _ _ _ _ _ _ y _ _ v _ f z _ _ _ _ w
  have hy : y.blk β = x.blk β := by simp_all [y]
  have hf : f.1.blk β = x.blk β := by unfold f; split <;> simp_all
  simp_all [w, z]

@[simp ↓] theorem Die.pinRecord_blk (x : Die) (n : Nat) (now : Nat) (hb : β ∉ [Blk.slices, .pins, .tele]) :
    (x.pinRecord n now).blk β = x.blk β := by
  unfold Die.pinRecord
  split <;> simp_all

@[simp ↓] theorem State.answer_blk (s : State) (d : DieId) (a : Await) (status effect : Nat) (data : List Nat)
    (hb : β ∉ carriers) :
    (s.answer d a status effect data).blk β = s.blk β := by
  simp_all [State.answer]

@[simp ↓] theorem State.laneCapos_blk (s : State) (d : DieId) (c : Nat) (h : Side) (hb : β ∉ [Blk.slices] ++ carriers) :
    (s.laneCapos d c h).blk β = s.blk β := by
  simp_all [State.laneCapos]

@[simp ↓] theorem Die.tuneSide_blk (x : Die) (c : Nat) (h : Side) (upd : List SliceUpdate)
    (hb : β ∉ [Blk.active, .slices, .pins, .stroke, .tele]) :
    (x.tuneSide c h upd).blk β = x.blk β := by
  simp_all [Die.tuneSide]

theorem execTuningFret_blk (d : DieId) (c : CourseId) (side : Side) (upd : List SliceUpdate) (s : State)
    (hb : β ∉ [Blk.active, .slices, .pins, .courses, .stroke, .bist, .pos] ++ carriers) :
    Keeps β s (execTuningFret d c side upd s) := by
  simp_all [execTuningFret]

theorem execConverged_blk (d : DieId) (n : SliceId) (s : State) (hb : β ∉ [Blk.slices, .evt, .tele]) :
    Keeps β s (execConverged d n s) := by
  simp_all [execConverged]

theorem execAdaptLimit_blk (d : DieId) (n : SliceId) (coef : Fin 69) (s : State) (hb : β ∉ [Blk.slices, .evt, .tele]) :
    Keeps β s (execAdaptLimit d n coef s) := by
  simp_all [execAdaptLimit]

theorem execSdChange_blk (d : DieId) (n : SliceId) (mv : BitVec 16) (s : State)
    (hb : β ∉ [Blk.active, .slices, .ports, .evt, .tele]) :
    Keeps β s (execSdChange d n mv s) := by
  simp at hb
  simp only [execSdChange, keeps_next]
  (repeat' split) <;> simp [hb]

@[simp ↓] theorem Die.putRecord_blk (x : Die) (n : Nat) (r : PinRec) (hb : β ∉ [Blk.active]) :
    (x.putRecord n r).blk β = x.blk β := by
  simp_all [Die.putRecord]

@[simp ↓] theorem Die.loadRecord_blk (x : Die) (n : Nat) (hb : β ∉ [Blk.active, .slices, .tele]) :
    (x.loadRecord n).blk β = x.blk β := by
  simp_all [Die.loadRecord]

theorem execReacqStart_blk (d : DieId) (n : SliceId) (s : State)
    (hb : β ∉ [Blk.active, .slices, .courses, .stroke, .peg, .evt, .bist, .tele, .pos]) :
    Keeps β s (execReacqStart d n s) := by
  simp_all [execReacqStart]

theorem execCdrLocked_blk (d : DieId) (n : SliceId) (freq : Half) (s : State) (hb : β ∉ [Blk.slices, .evt, .tele]) :
    Keeps β s (execCdrLocked d n freq s) := by
  simp_all [execCdrLocked]

theorem execReacqDone_blk (d : DieId) (n : SliceId) (s : State) (hb : β ∉ [Blk.slices, .evt, .tele]) :
    Keeps β s (execReacqDone d n s) := by
  simp_all [execReacqDone]

theorem execReacqFailed_blk (d : DieId) (n : SliceId) (s : State) (hb : β ∉ [Blk.slices, .evt, .tele]) :
    Keeps β s (execReacqFailed d n s) := by
  simp_all [execReacqFailed]

@[simp ↓] theorem State.capoHost_blk (s : State) (d : DieId) (n : Nat) (level : Bool)
    (hb : β ∉ [Blk.slices, .evt, .tele]) :
    (s.capoHost d n level).blk β = s.blk β := by
  simp_all [State.capoHost]

theorem execCapoHostWrite_blk (d : DieId) (n : SliceId) (level : Bool) (s : State)
    (hb : β ∉ [Blk.slices, .evt, .tele]) :
    Keeps β s (execCapoHostWrite d n level s) := by
  simp_all [execCapoHostWrite]

@[simp ↓] theorem State.commandSlice_blk (s : State) (k : Packet) (op : Nat) (body : State → Nat → State)
    (h : ∀ t a, (body t a).blk β = t.blk β) (hb : β ∉ carriers) :
    (s.commandSlice k op body).blk β = s.blk β := by
  refine State.command_blk s k _ _ (fun s => ?_) (by simp_all)
  dsimp only
  (repeat' split) <;> simp_all

theorem execLaneEqSet_blk (k : Packet) (s : State) (hb : β ∉ [Blk.staging, .stroke] ++ carriers) :
    Keeps β s (execLaneEqSet k s) := by
  simp_all [execLaneEqSet]

theorem execLaneEqGet_blk (k : Packet) (s : State) (hb : β ∉ [Blk.courses, .stroke, .bist, .pos] ++ carriers) :
    Keeps β s (execLaneEqGet k s) := by
  simp_all [execLaneEqGet]

theorem execLaneCapo_blk (k : Packet) (s : State) (hb : β ∉ carriers) :
    Keeps β s (execLaneCapo k s) := by
  simp_all [execLaneCapo]

/-! ### Transmit -/

@[simp ↓] theorem State.refreshTx_blk (s : State) (d : DieId) (t : Nat) (hb : β ∉ [Blk.txs, .evt, .tele]) :
    (s.refreshTx d t).blk β = s.blk β := by
  simp_all [State.refreshTx]

@[simp ↓] theorem State.refreshDie_blk (s : State) (d : DieId) (hb : β ∉ [Blk.txs, .evt, .tele]) :
    (s.refreshDie d).blk β = s.blk β := by
  simp_all [State.refreshDie]

theorem execDriverLimit_blk (d : DieId) (t : TxId) (s : State) (hb : β ∉ [Blk.txs, .evt, .tele]) :
    Keeps β s (execDriverLimit d t s) := by
  simp_all [execDriverLimit]

theorem execTxSet_blk (k : Packet) (s : State) (hb : β ∉ [Blk.staging, .stroke] ++ carriers) :
    Keeps β s (execTxSet k s) := by
  simp_all [execTxSet]

theorem execTxPattern_blk (k : Packet) (s : State) (hb : β ∉ [Blk.staging, .stroke] ++ carriers) :
    Keeps β s (execTxPattern k s) := by
  simp only [execTxPattern, keeps_next]
  refine State.command_blk s k _ _ (fun s => ?_) (by simp_all)
  (repeat' split) <;> simp_all

@[simp ↓] theorem State.attachNext_blk (s : State) (d : DieId) (c : Nat) (h : Side) (pos : Nat) (tap mode : Bool)
    (start owner : Nat) (adapt : Bool) (hb : β ∉ [Blk.courses, .tele]) :
    (s.attachNext d c h pos tap mode start owner adapt).blk β = s.blk β := by
  simp_all [State.attachNext]

@[simp ↓] theorem State.parkNext_blk (s : State) (d : DieId) (c : Nat) (h : Side) (hb : β ∉ [Blk.courses, .tele]) :
    (s.parkNext d c h).blk β = s.blk β := by
  simp_all [State.parkNext]

theorem execPrbsCheck_blk (k : Packet) (s : State) (hb : β ∉ [Blk.courses] ++ carriers) :
    Keeps β s (execPrbsCheck k s) := by
  simp only [execPrbsCheck, keeps_next]
  refine State.command_blk s k _ _ (fun s => ?_) (by simp_all)
  (repeat' split) <;> simp_all

theorem execPrbsCheckLock_blk (d : DieId) (n : SliceId) (s : State) (hb : β ∉ [Blk.peg]) :
    Keeps β s (execPrbsCheckLock d n s) := by
  unfold execPrbsCheckLock
  split <;> simp_all

theorem execPrbsCheckRelock_blk (d : DieId) (n : SliceId) (s : State) (hb : β ∉ [Blk.peg]) :
    Keeps β s (execPrbsCheckRelock d n s) := by
  unfold execPrbsCheckRelock
  split <;> simp_all

@[simp ↓] theorem State.endCheck_blk (s : State) (d : DieId) (o : Op) (status : Nat) (data : List Nat)
    (hb : β ∉ [Blk.courses] ++ carriers) :
    (s.endCheck d o status data).blk β = s.blk β := by
  simp_all [State.endCheck]

@[simp ↓] theorem State.checkCut_blk (s : State) (d : DieId) (o : Op) (status : Nat)
    (hb : β ∉ [Blk.courses, .free] ++ carriers) :
    (s.checkCut d o status).blk β = s.blk β := by
  unfold State.checkCut
  split <;> simp_all

theorem execPrbsCheckEnd_blk (d : DieId) (n : SliceId) (symbols bitErrs : BitVec 64) (symErrs : Word) (s : State)
    (hb : β ∉ [Blk.courses] ++ carriers) :
    Keeps β s (execPrbsCheckEnd d n symbols bitErrs symErrs s) := by
  unfold execPrbsCheckEnd
  split <;> simp_all

/-! ### Testing -/

@[simp ↓] theorem State.parkSlice_blk (s : State) (d : DieId) (n : Nat) (hb : β ∉ [Blk.slices, .evt, .tele]) :
    (s.parkSlice d n).blk β = s.blk β := by
  simp_all [State.parkSlice]

@[simp ↓] theorem State.reinitSlice_blk (s : State) (d : DieId) (n : Nat)
    (hb : β ∉ [Blk.active, .slices, .evt, .tele, .cal]) :
    (s.reinitSlice d n).blk β = s.blk β := by
  simp_all [State.reinitSlice]

@[simp ↓] theorem State.softRepair_blk (s : State) (d : DieId) (m v : Nat) (nv : Bool)
    (hb : β ∉ [Blk.evt, .bist, .tele]) :
    (s.softRepair d m v nv).blk β = s.blk β := by
  simp_all [State.softRepair]

@[simp ↓] theorem State.nvRepair_blk (s : State) (d : DieId) (r : Option (Nat × Nat)) (ret : Option Nat)
    (hb : β ∉ [Blk.evt, .nv, .tele]) :
    (s.nvRepair d r ret).blk β = s.blk β := by
  simp_all [State.nvRepair]

@[simp ↓] theorem State.cutRecord_blk (s : State) (d : DieId) (t : Test) (r : TestResult) (hb : β ∉ [Blk.free]) :
    (s.cutRecord d t r).1.blk β = s.blk β := by
  simp_all [State.cutRecord]

@[simp ↓] theorem Die.storeResult_blk (x : Die) (l : List Nat) (hb : β ∉ [Blk.bist]) :
    (x.storeResult l).blk β = x.blk β := by
  simp_all [Die.storeResult]

@[simp ↓] theorem State.closeTest_blk (s : State) (d : DieId) (t : Test) (r : TestResult) (status : Nat)
    (rec extra : List Nat) (hb : β ∉ [Blk.bist] ++ carriers) :
    (s.closeTest d t r status rec extra).blk β = s.blk β := by
  simp only [State.closeTest]
  (repeat' split) <;> simp_all

@[simp ↓] theorem Die.setTest_blk (x : Die) (t u : Test) (hb : β ∉ [Blk.bist]) :
    (x.setTest t u).blk β = x.blk β := by
  simp_all [Die.setTest]

/-! ### Rotation -/

@[simp ↓] theorem State.onSide_blk (s : State) (d : DieId) (c : Nat) (h : Side) (f : SideRot → SideRot)
    (hb : β ∉ [Blk.courses, .tele]) :
    (s.onSide d c h f).blk β = s.blk β := by
  simp_all [State.onSide]

@[simp ↓] theorem State.detach_blk (s : State) (d : DieId) (c : Nat) (h : Side) (why : Nat)
    (hb : β ∉ [Blk.slices, .courses, .evt, .tele]) :
    (s.detach d c h why).blk β = s.blk β := by
  simp_all [State.detach]

theorem execSympAttach_blk (k : Packet) (s : State) (hb : β ∉ [Blk.courses] ++ carriers) :
    Keeps β s (execSympAttach k s) := by
  simp only [execSympAttach, keeps_next]
  refine State.command_blk s k _ _ (fun s => ?_) (by simp_all)
  (repeat' split) <;> simp_all

theorem execSympDetach_blk (k : Packet) (s : State) (hb : β ∉ [Blk.courses] ++ carriers) :
    Keeps β s (execSympDetach k s) := by
  simp only [execSympDetach, keeps_next]
  refine State.command_blk s k _ _ (fun s => ?_) (by simp_all)
  (repeat' split) <;> simp_all

@[simp ↓] theorem State.hoFail_blk (s : State) (d : DieId) (c : Nat) (h : Side) (r : SideRot)
    (live reason status : Nat) (kept : Bool) (hb : β ∉ [Blk.bist, .free] ++ carriers) :
    (s.hoFail d c h r live reason status kept).blk β = s.blk β := by
  simp only [State.hoFail]
  (repeat' split) <;> simp_all

@[simp ↓] theorem State.uncapHo_blk (s : State) (d : DieId) (live symp : Nat) (hb : β ∉ [Blk.slices, .evt, .tele]) :
    (s.uncapHo d live symp).blk β = s.blk β := by
  simp_all [State.uncapHo]

@[simp ↓] theorem State.hoRefuse_blk (s : State) (d : DieId) (c : Nat) (h : Side) (reason : Nat)
    (hb : β ∉ [Blk.slices, .courses, .bist, .free] ++ carriers) :
    (s.hoRefuse d c h reason).blk β = s.blk β := by
  simp only [State.hoRefuse]
  (repeat' split) <;> simp_all

@[simp ↓] theorem State.hoDrop_blk (s : State) (d : DieId) (c : Nat) (h : Side) (status : Nat)
    (hb : β ∉ [Blk.slices, .courses, .bist, .free] ++ carriers) :
    (s.hoDrop d c h status).blk β = s.blk β := by
  simp_all [State.hoDrop]

@[simp ↓] theorem State.hoBegin_blk (s : State) (d : DieId) (c : Nat) (h : Side) (pos start owner win lim : Nat)
    (hb : β ∉ [Blk.courses, .tele]) :
    (s.hoBegin d c h pos start owner win lim).blk β = s.blk β := by
  simp_all [State.hoBegin]

@[simp ↓] theorem State.hoDeny_blk (s : State) (k : Packet) (op c : Nat) (h : Side) (pos reason : Nat)
    (hb : β ∉ carriers) :
    (s.hoDeny k op c h pos reason).blk β = s.blk β := by
  simp_all [State.hoDeny]

@[simp ↓] theorem State.hoCommand_blk (s : State) (k : Packet) (op : Nat) (retune : Bool)
    (hb : β ∉ [Blk.courses] ++ carriers) :
    (s.hoCommand k op retune).blk β = s.blk β := by
  simp only [State.hoCommand]
  (repeat' split) <;> simp_all

theorem execHandover_blk (k : Packet) (s : State) (hb : β ∉ [Blk.courses] ++ carriers) :
    Keeps β s (execHandover k s) := by
  simp_all [execHandover]

theorem execRetuneInService_blk (k : Packet) (s : State) (hb : β ∉ [Blk.courses] ++ carriers) :
    Keeps β s (execRetuneInService k s) := by
  simp_all [execRetuneInService]

theorem execHandoverAlign_blk (d : DieId) (c : CourseId) (side : Side) (offset : Option Int) (s : State)
    (hb : β ∉ [Blk.slices, .courses, .bist, .free] ++ carriers) :
    Keeps β s (execHandoverAlign d c side offset s) := by
  unfold execHandoverAlign
  split <;> simp_all

theorem execHandoverDisagree_blk (d : DieId) (c : CourseId) (side : Side) (compared : Word) (s : State)
    (hb : β ∉ [Blk.slices, .courses, .bist, .free] ++ carriers) :
    Keeps β s (execHandoverDisagree d c side compared s) := by
  simp_all [execHandoverDisagree]

theorem execHandoverConvTimeout_blk (d : DieId) (c : CourseId) (side : Side) (s : State)
    (hb : β ∉ [Blk.slices, .courses, .bist, .free] ++ carriers) :
    Keeps β s (execHandoverConvTimeout d c side s) := by
  simp_all [execHandoverConvTimeout]

theorem execEyeScan_blk (k : Packet) (s : State) (hb : β ∉ [Blk.courses] ++ carriers) :
    Keeps β s (execEyeScan k s) := by
  simp only [execEyeScan, keeps_next]
  refine State.command_blk s k _ _ (fun s => ?_) (by simp_all)
  (repeat' split) <;> simp_all

@[simp ↓] theorem State.workEnd_blk (s : State) (d : DieId) (c : Nat) (h : Side) (o : Op) (why status effect : Nat)
    (data : List Nat) (hb : β ∉ [Blk.slices, .courses] ++ carriers) :
    (s.workEnd d c h o why status effect data).blk β = s.blk β := by
  simp_all [State.workEnd]

@[simp ↓] theorem State.captureStart_blk (s : State) (k : Packet) (hb : β ∉ [Blk.courses] ++ carriers) :
    (s.captureStart k).blk β = s.blk β := by
  simp only [State.captureStart]
  (repeat' split) <;> simp_all

@[simp ↓] theorem State.captureRead_blk (s : State) (k : Packet) (hb : β ∉ carriers) :
    (s.captureRead k).blk β = s.blk β := by
  simp only [State.captureRead]
  (repeat' split) <;> simp_all

@[simp ↓] theorem State.captureSamples_blk (s : State) (k : Packet) (hb : β ∉ [Blk.courses] ++ carriers) :
    (s.captureSamples k).blk β = s.blk β := by
  unfold State.captureSamples
  split <;> simp_all

theorem execCapture_blk (k : Packet) (s : State) (hb : β ∉ [Blk.courses] ++ carriers) :
    Keeps β s (execCapture k s) := by
  simp_all [execCapture]

theorem execCaptureRead_blk (k : Packet) (s : State) (hb : β ∉ [Blk.courses] ++ carriers) :
    Keeps β s (execCaptureRead k s) := by
  simp_all [execCaptureRead]

theorem execCaptureTrigger_blk (d : DieId) (c : CourseId) (side : Side) (samples : List Byte) (s : State)
    (hb : β ∉ [Blk.slices, .courses, .sram] ++ carriers) :
    Keeps β s (execCaptureTrigger d c side samples s) := by
  simp at hb
  simp only [execCaptureTrigger, keeps_next]
  (repeat' split) <;> simp [hb]

theorem execCaptureTimeout_blk (d : DieId) (c : CourseId) (side : Side) (s : State)
    (hb : β ∉ [Blk.slices, .courses] ++ carriers) :
    Keeps β s (execCaptureTimeout d c side s) := by
  simp at hb
  simp only [execCaptureTimeout, keeps_next]
  (repeat' split) <;> simp [hb]

@[simp ↓] theorem State.workAbort_blk (s : State) (d : DieId) (c : Nat) (h : Side) (o : Op) (why : Nat)
    (hb : β ∉ [Blk.slices, .courses] ++ carriers) :
    (s.workAbort d c h o why).blk β = s.blk β := by
  simp_all [State.workAbort]

theorem execBankRotationStart_blk (d : DieId) (c : CourseId) (s : State)
    (hb : β ∉ [Blk.txs, .courses, .clk, .evt, .tele]) :
    Keeps β s (execBankRotationStart d c s) := by
  simp_all [execBankRotationStart]

theorem execBankSwap_blk (d : DieId) (c : CourseId) (s : State) (hb : β ∉ [Blk.courses, .evt, .bist, .tele]) :
    Keeps β s (execBankSwap d c s) := by
  simp_all [execBankSwap]

/-! ### Training -/

@[simp ↓] theorem State.setLane_blk (s : State) (d : DieId) (n : Nat) (h : Side) (j : Nat) (k : LaneKind)
    (l : LaneSess) (hb : β ∉ [Blk.ports, .courses, .tele]) :
    (s.setLane d n h j k l).blk β = s.blk β := by
  unfold State.setLane
  split <;> simp_all

@[simp ↓] theorem Die.setTaps_blk (x : Die) (t : Nat) (l : List Half) (hb : β ∉ [Blk.active]) :
    (x.setTaps t l).blk β = x.blk β := by
  simp_all [Die.setTaps]

@[simp ↓] theorem State.trainEnd_blk (s : State) (p : PortId) (status effect reason seg : Nat) (hb : β ∉ carriers) :
    (s.trainEnd p status effect reason seg).blk β = s.blk β := by
  unfold State.trainEnd
  split <;> simp_all

@[simp ↓] theorem State.startEnd_blk (s : State) (p : PortId) (status reason seg : Nat) (hb : β ∉ carriers) :
    (s.startEnd p status reason seg).blk β = s.blk β := by
  unfold State.startEnd
  split <;> simp_all

@[simp ↓] theorem State.tapsStart_blk (s : State) (d : DieId) (n : Nat) (h : Side) (j : Nat) (hb : β ∉ [Blk.active]) :
    (s.tapsStart d n h j).blk β = s.blk β := by
  simp_all [State.tapsStart]

@[simp ↓] theorem State.frameBegin_blk (s : State) (d : DieId) (n : Nat) (h : Side) (j : Nat) (k : LaneKind)
    (hb : β ∉ [Blk.ports, .courses, .tele]) :
    (s.frameBegin d n h j k).blk β = s.blk β := by
  simp_all [State.frameBegin]

@[simp ↓] theorem State.latMeasure_blk (s : State) (d : DieId) (n : Nat) (hb : β ∉ [Blk.courses, .evt, .tele]) :
    (s.latMeasure d n).blk β = s.blk β := by
  simp_all [State.latMeasure]

@[simp ↓] theorem State.identify_blk (s : State) (p : PortId) (f : Frame) (hb : β ∉ [Blk.ports, .evt, .tele]) :
    (s.identify p f).blk β = s.blk β := by
  simp_all [State.identify]

@[simp ↓] theorem State.phaseBack_blk (s : State) (d : DieId) (n k : Nat) (bySession : Bool)
    (hb : β ∉ [Blk.courses, .evt, .tele]) :
    (s.phaseBack d n k bySession).blk β = s.blk β := by
  simp only [State.phaseBack]
  (repeat' split) <;> simp_all

theorem execTrainingFrame_blk (p : PortId) (side : Side) (pos : Pos) (f : RxFrame) (s : State)
    (hb : β ∉ [Blk.ports, .courses, .evt, .tele]) :
    Keeps β s (execTrainingFrame p side pos f s) := by
  simp at hb
  unfold execTrainingFrame
  extract_lets d n j bad seen
  have hbad : bad.blk β = s.blk β := by simp [bad, hb]
  have hseen : seen.blk β = s.blk β := by simp [seen, hb]
  rw [keeps_next]
  split
  · split
    · simp [hb, hbad]
    · extract_lets fits u v
      have hu : u.blk β = s.blk β := by simp [u, hb, hseen]
      have hv : v.blk β = s.blk β := by simp [v, hb, hu]
      split
      · exact hu
      · split
        · exact hv
        · split
          · exact hv
          · simp [hb, hv]
  · rfl

@[simp ↓] theorem State.phaseLost_blk (s : State) (d : DieId) (n k : Nat) (hb : β ∉ [Blk.courses, .evt, .tele]) :
    (s.phaseLost d n k).blk β = s.blk β := by
  simp_all [State.phaseLost]

theorem execFrameLockLost_blk (p : PortId) (side : Side) (pos : Pos) (s : State)
    (hb : β ∉ [Blk.ports, .courses, .tele]) :
    Keeps β s (execFrameLockLost p side pos s) := by
  simp at hb
  simp only [execFrameLockLost, keeps_next]
  (repeat' split) <;> simp [hb]

theorem execRequestAbandoned_blk (p : PortId) (side : Side) (pos : Pos) (s : State)
    (hb : β ∉ [Blk.ports, .courses, .tele]) :
    Keeps β s (execRequestAbandoned p side pos s) := by
  simp at hb
  simp only [execRequestAbandoned, keeps_next]
  (repeat' split) <;> simp [hb]

@[simp ↓] theorem State.laneAnswer_blk (s : State) (d : DieId) (n : Nat) (h : Side) (j : Nat) (k : LaneKind)
    (hb : β ∉ [Blk.ports, .courses, .tele]) :
    (s.laneAnswer d n h j k).blk β = s.blk β := by
  simp only [State.laneAnswer]
  (repeat' split) <;> simp_all

@[simp ↓] theorem State.laneRequest_blk (s : State) (d : DieId) (n : Nat) (h : Side) (j : Nat) (k : LaneKind)
    (hb : β ∉ [Blk.ports, .courses, .tele, .free]) :
    (s.laneRequest d n h j k).blk β = s.blk β := by
  simp_all [State.laneRequest]

@[simp ↓] theorem State.laneRestart_blk (s : State) (d : DieId) (n : Nat) (h : Side) (j : Nat) (k : LaneKind)
    (hb : β ∉ [Blk.ports, .courses, .tele]) :
    (s.laneRestart d n h j k).blk β = s.blk β := by
  simp only [State.laneRestart]
  (repeat' split) <;> simp_all

@[simp ↓] theorem State.laneMove_blk (s : State) (d : DieId) (n : Nat) (h : Side) (j : Nat) (k : LaneKind)
    (hb : β ∉ [Blk.ports, .courses, .tele]) :
    (s.laneMove d n h j k).blk β = s.blk β := by
  simp_all [State.laneMove]

@[simp ↓] theorem State.engineLane_blk (s : State) (d : DieId) (n : Nat) (h : Side) (j : Nat)
    (hb : β ∉ [Blk.ports, .courses, .tele, .free]) :
    (s.engineLane d n h j).blk β = s.blk β := by
  unfold State.engineLane
  split <;> simp_all

@[simp ↓] theorem State.latRefuse_blk (s : State) (p : PortId) (hb : β ∉ [Blk.ports, .courses, .evt, .tele]) :
    (s.latRefuse p).blk β = s.blk β := by
  simp_all [State.latRefuse]

@[simp ↓] theorem State.portModes_blk (s : State) (p : PortId) (hb : β ∉ [Blk.ports, .courses, .evt, .tele]) :
    (s.portModes p).blk β = s.blk β := by
  simp_all [State.portModes]

@[simp ↓] theorem State.restartsTold_blk (s : State) (p : PortId) (hb : β ∉ [Blk.ports, .evt, .tele]) :
    (s.restartsTold p).blk β = s.blk β := by
  simp only [State.restartsTold]
  (repeat' split) <;> simp_all

@[simp ↓] theorem State.enginePort_blk (s : State) (p : PortId) (hb : β ∉ [Blk.ports, .courses, .evt, .tele]) :
    (s.enginePort p).blk β = s.blk β := by
  simp_all [State.enginePort]

@[simp ↓] theorem State.engineSingle_blk (s : State) (d : DieId) (n j : Nat) (k : LaneKind)
    (hb : β ∉ [Blk.ports, .courses, .tele]) :
    (s.engineSingle d n j k).blk β = s.blk β := by
  simp_all [State.engineSingle]

theorem execTrainingEngineFret_blk (d : DieId) (s : State)
    (hb : β ∉ [Blk.ports, .courses, .stroke, .peg, .evt, .bist, .tele, .pos, .free]) :
    Keeps β s (execTrainingEngineFret d s) := by
  simp at hb
  unfold execTrainingEngineFret
  rw [keeps_next]
  split
  · extract_lets -lift u₁ order k u₂ u₃
    have h2 : u₂.blk β = s.blk β := by simp [u₁, u₂, hb]
    have h3 : u₃.blk β = s.blk β := by
      refine (State.foldl_blk _ _ _ fun t q => ?_).trans h2
      split <;> simp [hb]
    refine (State.foldl_blk _ _ _ fun t q => ?_).trans h3
    extract_lets -lift x
    split
    · rfl
    · split
      · simp [hb]
      · refine State.foldl_blk _ _ _ fun t q => ?_
        split <;> simp [hb]
  · rfl

@[simp ↓] theorem State.segReady_blk (s : State) (p : PortId) (h : Side) (hb : β ∉ [Blk.ports, .evt, .tele]) :
    (s.segReady p h).blk β = s.blk β := by
  simp_all [State.segReady]

@[simp ↓] theorem State.frameEnd_blk (s : State) (d : DieId) (n : Nat) (h : Side) (j : Nat) (k : LaneKind)
    (l : LaneSess) (hb : β ∉ [Blk.txs, .tele]) :
    (s.frameEnd d n h j k l).blk β = s.blk β := by
  simp_all [State.frameEnd]

@[simp ↓] theorem State.heardLast_blk (s : State) (d : DieId) (n j last : Nat) (hb : β ∉ [Blk.slices, .tele]) :
    (s.heardLast d n j last).blk β = s.blk β := by
  simp_all [State.heardLast]

@[simp ↓] theorem State.framesEnd_blk (s : State) (d : DieId) (n : Nat) (k : LaneKind) (hb : β ∉ [Blk.courses, .tele]) :
    (s.framesEnd d n k).blk β = s.blk β := by
  simp_all [State.framesEnd]

theorem execOutgoingFrameBoundary_blk (p : PortId) (side : Side) (pos : Pos) (s : State)
    (hb : β ∉ [Blk.active, .txs, .ports, .courses, .evt, .tele]) :
    Keeps β s (execOutgoingFrameBoundary p side pos s) := by
  simp at hb
  simp only [execOutgoingFrameBoundary, keeps_next]
  (repeat' split) <;> simp [hb]

theorem execTrainStart_blk (k : Packet) (s : State) (hb : β ∉ [Blk.ports] ++ carriers) :
    Keeps β s (execTrainStart k s) := by
  simp only [execTrainStart, keeps_next]
  refine State.commandDefined_blk s k _ _ (fun s p => ?_) (by simp_all)
  (repeat' split) <;> simp_all

@[simp ↓] theorem State.stopStart_blk (s : State) (p : PortId) (hb : β ∉ [Blk.ports] ++ carriers) :
    (s.stopStart p).blk β = s.blk β := by
  simp_all [State.stopStart]

theorem execTrainAbort_blk (k : Packet) (s : State) (hb : β ∉ [Blk.ports] ++ carriers) :
    Keeps β s (execTrainAbort k s) := by
  simp_all [execTrainAbort]

theorem execTrainStatus_blk (k : Packet) (s : State) (hb : β ∉ [Blk.courses, .stroke, .bist, .pos] ++ carriers) :
    Keeps β s (execTrainStatus k s) := by
  simp_all [execTrainStatus]

/-! ### Datapath -/

@[simp ↓] theorem State.onDir_blk (s : State) (p : PortId) (h : Side) (f : DirSt → DirSt) (hb : β ∉ [Blk.ports]) :
    (s.onDir p h f).blk β = s.blk β := by
  simp_all [State.onDir]

theorem execFecLockChange_blk (p : PortId) (dir : Side) (locked : Bool) (skew : Nat) (s : State)
    (hb : β ∉ [Blk.ports, .evt, .tele]) :
    Keeps β s (execFecLockChange p dir locked skew s) := by
  simp_all [execFecLockChange]

theorem execFecDegWindowEnd_blk (p : PortId) (dir : Side) (s : State) (hb : β ∉ [Blk.ports, .evt, .tele]) :
    Keeps β s (execFecDegWindowEnd p dir s) := by
  simp_all [execFecDegWindowEnd]

theorem execBlockLockChange_blk (p : PortId) (side : Side) (pos : Fin 8) (headers : List (BitVec 2)) (s : State)
    (hb : β ∉ [Blk.ports, .evt, .tele]) :
    Keeps β s (execBlockLockChange p side pos headers s) := by
  simp_all [execBlockLockChange]

@[simp ↓] theorem State.dirOff_blk (s : State) (p : PortId) (dir : Side) (hb : β ∉ [Blk.ports, .evt, .tele]) :
    (s.dirOff p dir).blk β = s.blk β := by
  simp_all [State.dirOff]

@[simp ↓] theorem State.storesSet_blk (s : State) (p : PortId) (on : Bool) (hb : β ∉ [Blk.courses, .tele]) :
    (s.storesSet p on).blk β = s.blk β := by
  simp_all [State.storesSet]

/-! ### Lattice -/

@[simp ↓] theorem State.onLat_blk (s : State) (d : DieId) (c : Nat) (f : Lattice → Lattice)
    (hb : β ∉ [Blk.courses, .tele]) :
    (s.onLat d c f).blk β = s.blk β := by
  simp_all [State.onLat]

@[simp ↓] theorem State.latMove_blk (s : State) (d : DieId) (c new : Nat) (hb : β ∉ [Blk.courses, .tele]) :
    (s.latMove d c new).blk β = s.blk β := by
  simp_all [State.latMove]

@[simp ↓] theorem State.loseLanes_blk (s : State) (p : PortId) (l : List Nat) (hb : β ∉ [Blk.ports]) :
    (s.loseLanes p l).blk β = s.blk β := by
  simp_all [State.loseLanes]

@[simp ↓] theorem State.latDisarm_blk (s : State) (d : DieId) (c reason pos pos2 : Nat)
    (hb : β ∉ [Blk.ports, .courses, .evt, .tele]) :
    (s.latDisarm d c reason pos pos2).blk β = s.blk β := by
  simp_all [State.latDisarm]

@[simp ↓] theorem State.latDeclare_blk (s : State) (d : DieId) (c pos trigger : Nat)
    (hb : β ∉ [Blk.ports, .courses, .evt, .tele]) :
    (s.latDeclare d c pos trigger).blk β = s.blk β := by
  simp_all [State.latDeclare]

theorem execSyndromeWindowEnd_blk (d : DieId) (c : CourseId) (slots : List Slot) (s : State)
    (hb : β ∉ [Blk.ports, .courses, .evt, .tele]) :
    Keeps β s (execSyndromeWindowEnd d c slots s) := by
  simp_all [execSyndromeWindowEnd]

theorem execLatticeRebuild_blk (d : DieId) (c : CourseId) (pos : Pos) (trigger : Fin 3) (words : List (List Int))
    (s : State) (hb : β ∉ [Blk.ports, .courses, .evt, .tele]) :
    Keeps β s (execLatticeRebuild d c pos trigger words s) := by
  simp_all [execLatticeRebuild]

theorem execReadmitByAgreement_blk (d : DieId) (c : CourseId) (s : State) (hb : β ∉ [Blk.courses, .tele]) :
    Keeps β s (execReadmitByAgreement d c s) := by
  simp_all [execReadmitByAgreement]

@[simp ↓] theorem State.latAnnounce_blk (s : State) (d : DieId) (c pos : Nat) (hb : β ∉ [Blk.courses, .tele]) :
    (s.latAnnounce d c pos).blk β = s.blk β := by
  simp_all [State.latAnnounce]

theorem execAutoReadmit_blk (d : DieId) (c : CourseId) (s : State) (hb : β ∉ [Blk.courses, .tele]) :
    Keeps β s (execAutoReadmit d c s) := by
  simp_all [execAutoReadmit]

theorem execServiceWord_blk (d : DieId) (c : CourseId) (copies : List (List (Fin 4))) (s : State)
    (hb : β ∉ [Blk.courses, .tele]) :
    Keeps β s (execServiceWord d c copies s) := by
  unfold execServiceWord
  split <;> simp_all

@[simp ↓] theorem State.singleStart_blk (s : State) (d : DieId) (c pos : Nat)
    (hb : β ∉ [Blk.active, .slices, .pins, .ports, .courses, .evt, .tele]) :
    (s.singleStart d c pos).blk β = s.blk β := by
  simp_all [State.singleStart]

theorem execReadmitTrainSwitch_blk (d : DieId) (c : CourseId) (s : State)
    (hb : β ∉ [Blk.active, .slices, .pins, .txs, .ports, .courses, .evt, .tele]) :
    Keeps β s (execReadmitTrainSwitch d c s) := by
  simp_all [execReadmitTrainSwitch]

theorem execLatticeReadmitDone_blk (d : DieId) (c : CourseId) (last : Fin 4) (s : State)
    (hb : β ∉ [Blk.slices, .txs, .ports, .courses, .evt, .tele]) :
    Keeps β s (execLatticeReadmitDone d c last s) := by
  simp_all [execLatticeReadmitDone]

theorem execLatticeReadmitted_blk (d : DieId) (c : CourseId) (agreed : Nat) (s : State)
    (hb : β ∉ [Blk.courses, .evt, .tele]) :
    Keeps β s (execLatticeReadmitted d c agreed s) := by
  simp_all [execLatticeReadmitted]

theorem execLatticeReadmitFailed_blk (d : DieId) (c : CourseId) (s : State)
    (hb : β ∉ [Blk.ports, .courses, .evt, .tele]) :
    Keeps β s (execLatticeReadmitFailed d c s) := by
  simp_all [execLatticeReadmitFailed]

theorem execLatticeDisarmed_blk (d : DieId) (c : CourseId) (reason : Fin 6) (pos pos2 : Option Pos) (badWords : Bool)
    (s : State) (hb : β ∉ [Blk.ports, .courses, .evt, .tele]) :
    Keeps β s (execLatticeDisarmed d c reason pos pos2 badWords s) := by
  simp at hb
  simp only [execLatticeDisarmed, keeps_next]
  (repeat' split) <;> simp [hb]

@[simp ↓] theorem State.latRearm_blk (s : State) (d : DieId) (c : Nat) (hb : β ∉ [Blk.courses, .tele]) :
    (s.latRearm d c).blk β = s.blk β := by
  simp_all [State.latRearm]

@[simp ↓] theorem State.latAutoArm_blk (s : State) (d : DieId) (c : Nat) (hb : β ∉ [Blk.courses, .tele]) :
    (s.latAutoArm d c).blk β = s.blk β := by
  simp_all [State.latAutoArm]

theorem execTrainRetry_blk (p : PortId) (s : State)
    (hb : β ∉ [Blk.active, .slices, .pins, .ports, .courses, .evt, .tele]) :
    Keeps β s (execTrainRetry p s) := by
  simp_all [execTrainRetry]

@[simp ↓] theorem State.latEnable_blk (s : State) (k : Packet) (hb : β ∉ [Blk.courses] ++ carriers) :
    (s.latEnable k).blk β = s.blk β := by
  simp_all [State.latEnable]

theorem execLatticeDisarm_blk (k : Packet) (s : State) (hb : β ∉ [Blk.courses] ++ carriers) :
    Keeps β s (execLatticeDisarm k s) := by
  simp_all [execLatticeDisarm]

theorem execLatticeArm_blk (k : Packet) (s : State) (hb : β ∉ [Blk.courses] ++ carriers) :
    Keeps β s (execLatticeArm k s) := by
  simp_all [execLatticeArm]

theorem execLatticeReadmit_blk (k : Packet) (s : State) (hb : β ∉ [Blk.courses] ++ carriers) :
    Keeps β s (execLatticeReadmit k s) := by
  simp_all [execLatticeReadmit]

theorem execLatticeStatus_blk (k : Packet) (s : State) (hb : β ∉ [Blk.courses, .stroke, .bist, .pos] ++ carriers) :
    Keeps β s (execLatticeStatus k s) := by
  simp_all [execLatticeStatus]

/-! ### Gearbox -/

@[simp ↓] theorem State.onGbx_blk (s : State) (d : DieId) (c k : Nat) (f : Gbx → Gbx) (hb : β ∉ [Blk.courses, .tele]) :
    (s.onGbx d c k f).blk β = s.blk β := by
  simp_all [State.onGbx]

@[simp ↓] theorem State.lockActs_blk (s : State) (d : DieId) (n j : Nat) (hb : β ∉ [Blk.ports, .courses, .evt, .tele]) :
    (s.lockActs d n j).blk β = s.blk β := by
  simp_all [State.lockActs]

theorem execFrameLock_blk (p : PortId) (side : Side) (pos : Pos) (arrival : Nat) (s : State)
    (hb : β ∉ [Blk.ports, .courses, .evt, .tele]) :
    Keeps β s (execFrameLock p side pos arrival s) := by
  simp at hb
  simp only [execFrameLock, keeps_next]
  (repeat' split) <;> simp [hb]

theorem execFramesInService_blk (p : PortId) (side : Side) (pos : Pos) (s : State) (hb : β ∉ [Blk.ports, .evt, .tele]) :
    Keeps β s (execFramesInService p side pos s) := by
  simp_all [execFramesInService]

theorem execPairSlip_blk (d : DieId) (c : CourseId) (k : Fin 4) (fill : BitVec 9) (s : State)
    (hb : β ∉ [Blk.courses, .evt, .tele]) :
    Keeps β s (execPairSlip d c k fill s) := by
  simp at hb
  simp only [execPairSlip, keeps_next]
  (repeat' split) <;> simp [hb]

theorem execPhaseSession_blk (d : DieId) (c : CourseId) (k : Fin 4) (s : State)
    (hb : β ∉ [Blk.active, .slices, .pins, .txs, .ports, .courses, .evt, .tele]) :
    Keeps β s (execPhaseSession d c k s) := by
  simp at hb
  simp only [execPhaseSession, keeps_next]
  (repeat' split) <;> simp [hb]

theorem execPhaseRestored_blk (d : DieId) (c : CourseId) (k last : Fin 4) (s : State)
    (hb : β ∉ [Blk.slices, .txs, .ports, .courses, .evt, .tele]) :
    Keeps β s (execPhaseRestored d c k last s) := by
  simp at hb
  simp only [execPhaseRestored, keeps_next]
  (repeat' split) <;> simp [hb]

theorem execPhaseSessionFailed_blk (d : DieId) (c : CourseId) (k : Fin 4) (s : State)
    (hb : β ∉ [Blk.ports, .courses, .evt, .tele]) :
    Keeps β s (execPhaseSessionFailed d c k s) := by
  simp at hb
  simp only [execPhaseSessionFailed, keeps_next]
  (repeat' split) <;> simp [hb]

/-! ### Loss -/

@[simp ↓] theorem State.slicePhase_blk (s : State) (d : DieId) (n : Nat) (hb : β ∉ [Blk.courses, .evt, .tele]) :
    (s.slicePhase d n).blk β = s.blk β := by
  unfold State.slicePhase
  split <;> simp_all

@[simp ↓] theorem State.laneLost_blk (s : State) (d : DieId) (n : Nat) (hb : β ∉ [Blk.ports, .courses, .evt, .tele]) :
    (s.laneLost d n).blk β = s.blk β := by
  simp only [State.laneLost]
  (repeat' split) <;> simp_all

@[simp ↓] theorem State.laneBack_blk (s : State) (d : DieId) (n : Nat) (hb : β ∉ [Blk.ports]) :
    (s.laneBack d n).blk β = s.blk β := by
  simp only [State.laneBack]
  (repeat' split) <;> simp_all

theorem execLockLost_blk (d : DieId) (n : SliceId) (reason : Fin 3) (s : State)
    (hb : β ∉ [Blk.active, .slices, .ports, .courses, .evt, .tele]) :
    Keeps β s (execLockLost d n reason s) := by
  simp_all [execLockLost]

theorem execLockAcquired_blk (d : DieId) (n : SliceId) (s : State)
    (hb : β ∉ [Blk.slices, .ports, .courses, .evt, .tele]) :
    Keeps β s (execLockAcquired d n s) := by
  simp_all [execLockAcquired]

theorem execSliceSubstitution_blk (d : DieId) (n : SliceId) (s : State) (hb : β ∉ [Blk.courses, .tele]) :
    Keeps β s (execSliceSubstitution d n s) := by
  simp at hb
  simp only [execSliceSubstitution, keeps_next]
  (repeat' split) <;> simp [hb]

theorem execSliceSubstituted_blk (d : DieId) (c : CourseId) (side : Side) (s : State) (hb : β ∉ [Blk.courses, .tele]) :
    Keeps β s (execSliceSubstituted d c side s) := by
  simp_all [execSliceSubstituted]

/-! ### Commit -/

@[simp ↓] theorem State.sendGlobal_blk (s : State) (d : DieId) (mask kind : Nat)
    (hb : β ∉ [Blk.stroke, .brg, .peg, .ring]) :
    (s.sendGlobal d mask kind).blk β = s.blk β := by
  simp_all [State.sendGlobal]

@[simp ↓] theorem State.globalStrobe_blk (s : State) (d : DieId) (mask : Nat)
    (hb : β ∉ [Blk.stroke, .brg, .peg, .evt, .tele, .ring]) :
    (s.globalStrobe d mask).blk β = s.blk β := by
  simp_all [State.globalStrobe]

@[simp ↓] theorem State.localStrobe_blk (s : State) (d : DieId) (mask : Nat) (hb : β ∉ [Blk.stroke]) :
    (s.localStrobe d mask).blk β = s.blk β := by
  simp_all [State.localStrobe]

@[simp ↓] theorem State.discard_blk (s : State) (d : DieId) (mask : Nat) (hb : β ∉ [Blk.staging, .clk]) :
    (s.discard d mask).blk β = s.blk β := by
  simp_all [State.discard]

@[simp ↓] theorem State.holdCommit_blk (s : State) (d : DieId) (half global discard : Bool) (hb : β ∉ [Blk.prot]) :
    (s.holdCommit d half global discard).blk β = s.blk β := by
  simp_all [State.holdCommit]

theorem execLocalCommit_blk (d : DieId) (half : Bool) (groups : Byte) (s : State) (hb : β ∉ [Blk.stroke, .prot]) :
    Keeps β s (execLocalCommit d half groups s) := by
  simp_all [execLocalCommit]

theorem execGlobalCommit_blk (d : DieId) (half : Bool) (groups : Byte) (s : State)
    (hb : β ∉ [Blk.stroke, .brg, .prot, .peg, .evt, .tele, .ring]) :
    Keeps β s (execGlobalCommit d half groups s) := by
  simp_all [execGlobalCommit]

theorem execCommitDiscard_blk (d : DieId) (half : Bool) (groups : Byte) (s : State)
    (hb : β ∉ [Blk.staging, .clk, .prot]) :
    Keeps β s (execCommitDiscard d half groups s) := by
  simp_all [execCommitDiscard]

/-! ### Clocks -/

@[simp ↓] theorem State.sysTo_blk (s : State) (d : DieId) (src : Nat) (forced : Bool)
    (hb : β ∉ [Blk.stroke, .clk, .evt, .tele]) :
    (s.sysTo d src forced).blk β = s.blk β := by
  simp_all [State.sysTo]

@[simp ↓] theorem Die.mapCourses_blk (x : Die) (f : Course → Course) (hb : β ∉ [Blk.courses, .tele]) :
    (x.mapCourses f).blk β = x.blk β := by
  simp_all [Die.mapCourses]

@[simp ↓] theorem State.laneTo_blk (s : State) (d : DieId) (src : Nat) (forced : Bool)
    (hb : β ∉ [Blk.courses, .clk, .evt, .tele]) :
    (s.laneTo d src forced).blk β = s.blk β := by
  simp_all [State.laneTo]

@[simp ↓] theorem State.enterHold_blk (s : State) (d : DieId)
    (hb : β ∉ [Blk.slices, .ports, .courses, .clk, .evt, .tele]) :
    (s.enterHold d).blk β = s.blk β := by
  simp_all [State.enterHold]

@[simp ↓] theorem State.setReady_blk (s : State) (d : DieId) (r : Nat) (on : Bool) (hb : β ∉ [Blk.clk, .evt, .tele]) :
    (s.setReady d r on).blk β = s.blk β := by
  simp_all [State.setReady]

@[simp ↓] theorem State.setSp_blk (s : State) (d : DieId) (on : Bool) (hb : β ∉ [Blk.clk, .evt, .tele]) :
    (s.setSp d on).blk β = s.blk β := by
  simp_all [State.setSp]

@[simp ↓] theorem State.qualify_blk (s : State) (d : DieId) (r : Nat) (good dis : Bool)
    (hb : β ∉ [Blk.clk, .evt, .tele]) :
    (s.qualify d r good dis).blk β = s.blk β := by
  simp_all [State.qualify]

theorem execQualWindowEnd_blk (d : DieId) (o : QualObs) (s : State) (hb : β ∉ [Blk.clk, .evt, .tele]) :
    Keeps β s (execQualWindowEnd d o s) := by
  simp_all [execQualWindowEnd]

theorem execRefFail_blk (d : DieId) (r : Ref) (stopped : Bool) (s : State)
    (hb : β ∉ [Blk.slices, .ports, .courses, .clk, .evt, .tele]) :
    Keeps β s (execRefFail d r stopped s) := by
  simp_all [execRefFail]

theorem execRefFailFallbackDeferred_blk (d : DieId) (r : Ref) (stopped : Bool) (s : State)
    (hb : β ∉ [Blk.slices, .ports, .courses, .clk, .evt, .tele]) :
    Keeps β s (execRefFailFallbackDeferred d r stopped s) := by
  simp_all [execRefFailFallbackDeferred]

theorem execSpNotReady_blk (d : DieId) (s : State) (hb : β ∉ [Blk.stroke, .clk, .evt, .tele]) :
    Keeps β s (execSpNotReady d s) := by
  simp_all [execSpNotReady]

@[simp ↓] theorem State.spBack_blk (s : State) (d : DieId) (hb : β ∉ [Blk.stroke, .clk, .evt, .tele]) :
    (s.spBack d).blk β = s.blk β := by
  simp_all [State.spBack]

theorem execSpFail_blk (d : DieId) (stopped : Bool) (err : Byte) (s : State) (hb : β ∉ [Blk.clk, .evt, .tele]) :
    Keeps β s (execSpFail d stopped err s) := by
  simp_all [execSpFail]

theorem execHoldoverAged_blk (d : DieId) (s : State) (hb : β ∉ [Blk.clk, .evt, .tele]) :
    Keeps β s (execHoldoverAged d s) := by
  simp_all [execHoldoverAged]

theorem execAutoReturn_blk (d : DieId) (m : Domain) (s : State) (hb : β ∉ [Blk.courses, .clk, .evt, .tele]) :
    Keeps β s (execAutoReturn d m s) := by
  unfold execAutoReturn
  split <;> simp_all

theorem execLanePllRelock_blk (d : DieId) (c : CourseId) (s : State) (hb : β ∉ [Blk.courses, .tele]) :
    Keeps β s (execLanePllRelock d c s) := by
  simp_all [execLanePllRelock]

theorem execLpllUnlock_blk (d : DieId) (c : CourseId) (side : Side) (s : State)
    (hb : β ∉ [Blk.slices, .courses, .evt, .tele]) :
    Keeps β s (execLpllUnlock d c side s) := by
  simp_all [execLpllUnlock]

@[simp ↓] theorem State.switchAt_blk (s : State) (d : DieId) (m : Domain) (forced : Bool)
    (hb : β ∉ [Blk.courses, .stroke, .clk, .evt, .tele]) :
    (s.switchAt d m forced).blk β = s.blk β := by
  simp only [State.switchAt]
  (repeat' split) <;> simp_all

theorem execSwitchForced_blk (d : DieId) (m : Domain) (s : State) (hb : β ∉ [Blk.courses, .stroke, .clk, .evt, .tele]) :
    Keeps β s (execSwitchForced d m s) := by
  simp_all [execSwitchForced]

theorem execClkSwitch_blk (k : Packet) (s : State) (hb : β ∉ [Blk.staging, .stroke, .clk] ++ carriers) :
    Keeps β s (execClkSwitch k s) := by
  simp only [execClkSwitch, keeps_next]
  refine State.command0_blk s k _ _ (fun s => ?_) (by simp_all)
  (repeat' split) <;> simp_all

theorem execClkStatus_blk (k : Packet) (s : State) (hb : β ∉ [Blk.courses, .stroke, .bist, .pos] ++ carriers) :
    Keeps β s (execClkStatus k s) := by
  simp_all [execClkStatus]

theorem execClkGate_blk (k : Packet) (s : State) (hb : β ∉ [Blk.stroke, .clk] ++ carriers) :
    Keeps β s (execClkGate k s) := by
  simp_all [execClkGate]

theorem execGateChange_blk (d : DieId) (level : Fin 5) (node : Byte) (s : State)
    (hb : β ∉ [Blk.txs, .courses, .clk, .evt, .tele]) :
    Keeps β s (execGateChange d level node s) := by
  simp_all [execGateChange]

/-! ### Hkadc -/

@[simp ↓] theorem State.onHk_blk (s : State) (d : DieId) (f : Hk → Hk) (hb : β ∉ [Blk.hk]) :
    (s.onHk d f).blk β = s.blk β := by
  simp_all [State.onHk]

@[simp ↓] theorem Die.startPass_blk (x : Die) (n : Nat) (hb : β ∉ [Blk.hk]) :
    (x.startPass n).blk β = x.blk β := by
  simp_all [Die.startPass]

@[simp ↓] theorem Die.takeWork_blk (x : Die) (hb : β ∉ [Blk.hk]) :
    (x.takeWork).blk β = x.blk β := by
  simp_all [Die.takeWork]

@[simp ↓] theorem State.hkDrop_blk (s : State) (d : DieId) (n : Nat) (hb : β ∉ [Blk.evt, .hk, .tele]) :
    (s.hkDrop d n).blk β = s.blk β := by
  simp_all [State.hkDrop]

@[simp ↓] theorem State.hkTrigger_blk (s : State) (d : DieId) (n : Nat) (late : Bool) (hb : β ∉ [Blk.evt, .hk, .tele]) :
    (s.hkTrigger d n late).blk β = s.blk β := by
  simp_all [State.hkTrigger]

theorem execHkStrokeTrigger_blk (d : DieId) (n : Fin 2) (late : Bool) (s : State)
    (hb : β ∉ [Blk.courses, .stroke, .peg, .evt, .hk, .bist, .tele, .pos]) :
    Keeps β s (execHkStrokeTrigger d n late s) := by
  simp_all [execHkStrokeTrigger]

theorem execHkPwmEdge_blk (d : DieId) (p : Fin 8) (rising : Bool) (s : State) (hb : β ∉ [Blk.hk, .tele]) :
    Keeps β s (execHkPwmEdge d p rising s) := by
  simp_all [execHkPwmEdge]

theorem execHkDelayEnd_blk (d : DieId) (n : Fin 2) (s : State) (hb : β ∉ [Blk.evt, .hk, .tele]) :
    Keeps β s (execHkDelayEnd d n s) := by
  simp_all [execHkDelayEnd]

theorem execOverrun_blk (d : DieId) (n : Fin 2) (s : State) (hb : β ∉ [Blk.evt, .hk, .tele]) :
    Keeps β s (execOverrun d n s) := by
  simp_all [execOverrun]

@[simp ↓] theorem State.hkRecord_blk (s : State) (d : DieId) (word0 : Nat) (hb : β ∉ [Blk.evt, .hk, .tele, .sram]) :
    (s.hkRecord d word0).blk β = s.blk β := by
  simp_all [State.hkRecord]

@[simp ↓] theorem State.injEnd_blk (s : State) (d : DieId) (code : Nat) (input : Nat) (flag : Bool)
    (hb : β ∉ [Blk.hk, .sram] ++ carriers) :
    (s.injEnd d code input flag).blk β = s.blk β := by
  simp only [State.injEnd]
  (repeat' split) <;> simp_all

@[simp ↓] theorem State.stepEnd_blk (s : State) (d : DieId) (n code : Nat) (hb : β ∉ [Blk.evt, .hk, .tele, .sram]) :
    (s.stepEnd d n code).blk β = s.blk β := by
  simp_all [State.stepEnd]

@[simp ↓] theorem State.calEnd_blk (s : State) (d : DieId) (code input : Nat) (hb : β ∉ [Blk.evt, .hk, .tele, .sram]) :
    (s.calEnd d code input).blk β = s.blk β := by
  simp_all [State.calEnd]

theorem execHkConversionEnd_blk (d : DieId) (raw : BitVec 12) (s : State) (hb : β ∉ [Blk.hk, .sram] ++ carriers) :
    Keeps β s (execHkConversionEnd d raw s) := by
  simp at hb
  simp only [execHkConversionEnd, keeps_next]
  (repeat' split) <;> simp [hb]

theorem execCalDone_blk (d : DieId) (s : State) (hb : β ∉ [Blk.hk] ++ carriers) :
    Keeps β s (execCalDone d s) := by
  simp at hb
  simp only [execCalDone, keeps_next]
  (repeat' split) <;> simp [hb]

@[simp ↓] theorem State.hkRp_blk (s : State) (d : DieId) (v : Nat) (hb : β ∉ [Blk.hk]) :
    (s.hkRp d v).blk β = s.blk β := by
  simp_all [State.hkRp]

theorem execHkRpWrite_blk (d : DieId) (rp : BitVec 13) (s : State) (hb : β ∉ [Blk.hk]) :
    Keeps β s (execHkRpWrite d rp s) := by
  simp_all [execHkRpWrite]

theorem execTempCritical_blk (d : DieId) (above : Byte) (s : State) (hb : β ∉ [Blk.evt, .hk, .tele]) :
    Keeps β s (execTempCritical d above s) := by
  simp_all [execTempCritical]

theorem execTempCritCleared_blk (d : DieId) (s : State) (hb : β ∉ [Blk.evt, .hk, .tele]) :
    Keeps β s (execTempCritCleared d s) := by
  simp_all [execTempCritCleared]

theorem execHkSeqDefine_blk (k : Packet) (s : State) (hb : β ∉ [Blk.staging, .stroke] ++ carriers) :
    Keeps β s (execHkSeqDefine k s) := by
  simp_all [execHkSeqDefine]

theorem execHkInject_blk (k : Packet) (s : State) (hb : β ∉ [Blk.txs, .courses, .clk, .hk] ++ carriers) :
    Keeps β s (execHkInject k s) := by
  simp_all [execHkInject]

theorem execHkCalibrate_blk (k : Packet) (s : State) (hb : β ∉ [Blk.txs, .courses, .clk, .hk] ++ carriers) :
    Keeps β s (execHkCalibrate k s) := by
  simp_all [execHkCalibrate]

@[simp ↓] theorem State.pwmAnswer_blk (s : State) (d : DieId) (p : Nat) (hb : β ∉ [Blk.hk] ++ carriers) :
    (s.pwmAnswer d p).blk β = s.blk β := by
  simp_all [State.pwmAnswer]

@[simp ↓] theorem State.pwmMove_blk (s : State) (d : DieId) (p : Nat) (hb : β ∉ [Blk.hk] ++ carriers) :
    (s.pwmMove d p).blk β = s.blk β := by
  simp_all [State.pwmMove]

theorem execPwmLoad_blk (d : DieId) (s : State) (hb : β ∉ [Blk.courses, .stroke, .hk, .bist, .pos] ++ carriers) :
    Keeps β s (execPwmLoad d s) := by
  simp_all [execPwmLoad]

theorem execPwmWrap_blk (d : DieId) (p : Fin 8) (s : State)
    (hb : β ∉ [Blk.courses, .stroke, .hk, .bist, .pos] ++ carriers) :
    Keeps β s (execPwmWrap d p s) := by
  simp_all [execPwmWrap]

theorem execPwmSet_blk (k : Packet) (s : State) (hb : β ∉ [Blk.staging, .stroke] ++ carriers) :
    Keeps β s (execPwmSet k s) := by
  simp_all [execPwmSet]

/-! ### Telemetry -/

@[simp ↓] theorem State.snapAnswer_blk (s : State) (d : DieId) (hb : β ∉ carriers) :
    (s.snapAnswer d).blk β = s.blk β := by
  simp_all [State.snapAnswer]

@[simp ↓] theorem State.snapSend_blk (s : State) (k : Packet) (hb : β ∉ [Blk.stroke, .brg, .peg, .ring]) :
    (s.snapSend k).blk β = s.blk β := by
  simp_all [State.snapSend]

theorem execCntSnapshot_blk (k : Packet) (s : State) (hb : β ∉ [Blk.stroke] ++ carriers) :
    Keeps β s (execCntSnapshot k s) := by
  simp_all [execCntSnapshot]

theorem execLiveCopy_blk (d : DieId) (s : State) (hb : β ∉ [Blk.courses, .stroke, .bist, .pos] ++ carriers) :
    Keeps β s (execLiveCopy d s) := by
  simp_all [execLiveCopy]

theorem execMeterWindowEnd_blk (p : PortId) (dir : Side) (blocks : List (MBlock × Word)) (s : State)
    (hb : β ∉ [Blk.ports]) :
    Keeps β s (execMeterWindowEnd p dir blocks s) := by
  simp_all [execMeterWindowEnd]

@[simp ↓] theorem State.meterPause_blk (s : State) (p : PortId) (dir : Side) (hb : β ∉ [Blk.ports, .free]) :
    (s.meterPause p dir).blk β = s.blk β := by
  unfold State.meterPause
  split <;> simp_all

theorem execTaggedSample_blk (p : PortId) (dir : Side) (nth : BitVec 16) (t : TagPoints) (s : State)
    (hb : β ∉ [Blk.ports, .tele]) :
    Keeps β s (execTaggedSample p dir nth t s) := by
  simp_all [execTaggedSample]

theorem execProfileSample_blk (d : DieId) (pc : Word) (s : State)
    (hb : β ∉ [Blk.courses, .stroke, .peg, .bist, .tele, .pos]) :
    Keeps β s (execProfileSample d pc s) := by
  simp_all [execProfileSample]

@[simp ↓] theorem State.tagLater_blk (s : State) (k : Packet) (hb : β ∉ [Blk.peg]) :
    (s.tagLater k).blk β = s.blk β := by
  simp_all [State.tagLater]

@[simp ↓] theorem State.tagPort_blk (s : State) (k : Packet) (f : Nat) (able : Half → Bool) (hb : β ∉ carriers) :
    (s.tagPort k f able).blk β = s.blk β := by
  simp_all [State.tagPort]

theorem execTagTagging_blk (k : Packet) (s : State) (hb : β ∉ carriers) :
    Keeps β s (execTagTagging k s) := by
  simp_all [execTagTagging]

theorem execTagMeter_blk (k : Packet) (s : State) (hb : β ∉ carriers) :
    Keeps β s (execTagMeter k s) := by
  simp_all [execTagMeter]

theorem execTagProfiling_blk (k : Packet) (s : State) (hb : β ∉ carriers) :
    Keeps β s (execTagProfiling k s) := by
  simp_all [execTagProfiling]

/-! ### RegAccess -/

@[simp ↓] theorem State.setEp_blk (s : State) (e : AccessId) (v : Endpoint) (hb : β ∉ [Blk.endpoints]) :
    (s.setEp e v).blk β = s.blk β := by
  simp_all [State.setEp]

@[simp ↓] theorem State.abort_blk (s : State) (e : AccessId) (write : Bool) (t : Tlp) (hb : β ∉ [Blk.endpoints]) :
    (s.abort e write t).blk β = s.blk β := by
  simp_all [State.abort]

@[simp ↓] theorem State.twiOutcome_blk (s : State) (d : DieId) (write : Bool) (outcome : Nat) (data : Word)
    (hb : β ∉ [Blk.twi]) :
    (s.twiOutcome d write outcome data).blk β = s.blk β := by
  simp_all [State.twiOutcome]

@[simp ↓] theorem State.accessError_blk (s : State) (d : DieId) (off bus : Nat) (write : Bool) (space : Nat)
    (hb : β ∉ [Blk.evt, .tele]) :
    (s.accessError d off bus write space).blk β = s.blk β := by
  simp_all [State.accessError]

@[simp ↓] theorem State.reserved_blk (s : State) (d : DieId) (bus : Bus) (off : Nat) (write : Bool) (space : Nat)
    (hb : β ∉ [Blk.prot, .evt, .tele]) :
    (s.reserved d bus off write space).blk β = s.blk β := by
  simp_all [State.reserved]

@[simp ↓] theorem State.busFails_blk (s : State) (e : AccessId) (bus : Bus) (write : Bool) (t : Tlp)
    (hb : β ∉ [Blk.twi, .endpoints]) :
    (s.busFails e bus write t).blk β = s.blk β := by
  unfold State.busFails
  split <;> simp_all

@[simp ↓] theorem State.wmbSelect_blk (s : State) (d : DieId) (m low : Nat) (hb : β ∉ [Blk.prot]) :
    (s.wmbSelect d m low).blk β = s.blk β := by
  simp_all [State.wmbSelect]

@[simp ↓] theorem State.commitWrite_blk (s : State) (d : DieId) (r : Half)
    (hb : β ∉ [Blk.staging, .stroke, .clk, .brg, .prot, .peg, .evt, .tele, .ring]) :
    (s.commitWrite d r).blk β = s.blk β := by
  simp_all [State.commitWrite]

@[simp ↓] theorem State.writeNow_blk (s : State) (d : DieId) (sel : RegSel) (r : Half)
    (hb : β ∉ [Blk.staging, .slices, .stroke, .clk, .prot, .hk] ++ carriers) :
    (s.writeNow d sel r).blk β = s.blk β := by
  unfold State.writeNow
  split <;> simp_all

@[simp ↓] theorem State.writeReg_blk (s : State) (d : DieId) (sel : RegSel) (view : Nat) (w : Word)
    (hb : β ∉ [Blk.staging, .slices, .stroke, .clk, .prot, .hk] ++ carriers) :
    (s.writeReg d sel view w).blk β = s.blk β := by
  simp_all [State.writeReg]

@[simp ↓] theorem State.crossDie_blk (s : State) (a d : DieId) (o view : Nat) (write : Bool) (w : Word) (twi : Bool)
    (hb : β ∉ [Blk.brg, .ring]) :
    (s.crossDie a d o view write w twi).blk β = s.blk β := by
  simp_all [State.crossDie]

@[simp ↓] theorem State.stall_blk (s : State) (e : AccessId) (hb : β ∉ [Blk.endpoints]) :
    (s.stall e).blk β = s.blk β := by
  simp_all [State.stall]

@[simp ↓] theorem State.busWriteReg_blk (s : State) (e : AccessId) (bus : Bus) (off : Nat) (w : Word)
    (hb : β ∉ [Blk.staging, .slices, .stroke, .clk, .prot, .twi, .hk, .endpoints] ++ carriers) :
    (s.busWriteReg e bus off w).blk β = s.blk β := by
  simp only [State.busWriteReg]
  (repeat' split) <;> simp_all

@[simp ↓] theorem Die.unmask_blk (x : Die) (mask : Nat) (hb : β ∉ [Blk.evt, .tele]) :
    (x.unmask mask).blk β = x.blk β := by
  simp_all [Die.unmask]

@[simp ↓] theorem State.memWrite_blk (s : State) (d : DieId) (a : Nat) (w : Word) (hb : β ∉ [Blk.evt, .tele, .sram]) :
    (s.memWrite d a w).blk β = s.blk β := by
  simp only [State.memWrite]
  (repeat' split) <;> simp_all

@[simp ↓] theorem State.busWrite_blk (s : State) (e : AccessId) (bus : Bus) (win : Window) (off : Nat) (w : Word)
    (hb : β ∉ [Blk.staging, .slices, .stroke, .clk, .prot, .twi, .hk, .sram, .endpoints] ++ carriers) :
    (s.busWrite e bus win off w).blk β = s.blk β := by
  unfold State.busWrite
  split <;> simp_all

@[simp ↓] theorem State.unsupported_blk (s : State) (e : AccessId) (t : Tlp)
    (hb : β ∉ [Blk.prot, .evt, .tele, .endpoints]) :
    (s.unsupported e t).blk β = s.blk β := by
  simp_all [State.unsupported]

@[simp ↓] theorem State.readDw_blk (s : State) (e : AccessId) (v : Word) (hb : β ∉ [Blk.endpoints]) :
    (s.readDw e v).blk β = s.blk β := by
  simp only [State.readDw]
  (repeat' split) <;> simp_all

@[simp ↓] theorem State.readStart_blk (s : State) (e : AccessId) (hb : β ∉ [Blk.endpoints]) :
    (s.readStart e).blk β = s.blk β := by
  simp_all [State.readStart]

@[simp ↓] theorem State.busReadReg_blk (s : State) (e : AccessId) (off : Nat)
    (hb : β ∉ [Blk.brg, .prot, .evt, .tele, .endpoints, .ring]) :
    (s.busReadReg e off).blk β = s.blk β := by
  simp only [State.busReadReg]
  (repeat' split) <;> simp_all

@[simp ↓] theorem State.busReadObs_blk (s : State) (e : AccessId) (off n : Nat)
    (hb : β ∉ [Blk.brg, .endpoints, .ring]) :
    (s.busReadObs e off n).blk β = s.blk β := by
  simp_all [State.busReadObs]

@[simp ↓] theorem State.busReadMem_blk (s : State) (e : AccessId) (m n : Nat) (hb : β ∉ [Blk.brg, .endpoints, .ring]) :
    (s.busReadMem e m n).blk β = s.blk β := by
  simp at hb
  refine (State.foldl_blk _ _ _ fun t i => ?_).trans (by simp [hb])
  dsimp only
  (repeat' split) <;> simp [hb]

@[simp ↓] theorem State.configWrite_blk (s : State) (e : AccessId) (r : ConfigReg) (w : Word)
    (hb : β ∉ [Blk.evt, .tele, .endpoints]) :
    (s.configWrite e r w).blk β = s.blk β := by
  unfold State.configWrite
  split <;> simp_all

@[simp ↓] theorem State.request_blk (s : State) (e : AccessId) (t : Tlp)
    (hb : β ∉ [Blk.staging, .slices, .stroke, .clk, .prot, .twi, .hk, .sram, .endpoints] ++ carriers) :
    (s.request e t).blk β = s.blk β := by
  simp only [State.request]
  (repeat' split) <;> simp_all

@[simp ↓] theorem State.serve_blk (s : State) (e : AccessId) (l : List Tlp)
    (hb : β ∉ [Blk.staging, .slices, .stroke, .clk, .prot, .twi, .hk, .sram, .endpoints] ++ carriers) :
    (s.serve e l).blk β = s.blk β := by
  induction l generalizing s with
  | nil => simp_all [State.serve]
  | cons t l ih =>
    unfold State.serve
    simp_all

@[simp ↓] theorem State.unstall_blk (s : State) (e : AccessId)
    (hb : β ∉ [Blk.staging, .slices, .stroke, .clk, .prot, .twi, .hk, .sram, .endpoints] ++ carriers) :
    (s.unstall e).blk β = s.blk β := by
  simp_all [State.unstall]

theorem execRegisterWrite_blk (e : AccessId) (b : Bus) (win : Window) (addr : BitVec 25) (r : Request) (s : State)
    (hb : β ∉ [Blk.staging, .slices, .stroke, .clk, .prot, .twi, .hk, .sram, .endpoints] ++ carriers) :
    Keeps β s (execRegisterWrite e b win addr r s) := by
  simp at hb
  simp only [execRegisterWrite, keeps_next]
  (repeat' split) <;> simp [hb]

theorem execWmbSel_blk (d : DieId) (m : Fin 4) (addr : Half) (s : State) (hb : β ∉ [Blk.prot]) :
    Keeps β s (execWmbSel d m addr s) := by
  simp_all [execWmbSel]

theorem execReservedAccess_blk (e : AccessId) (b : Bus) (off : BitVec 25) (write : Bool) (space : Fin 8) (s : State)
    (hb : β ∉ [Blk.prot, .evt, .twi, .tele, .endpoints]) :
    Keeps β s (execReservedAccess e b off write space s) := by
  simp_all [execReservedAccess]

theorem execRegReq_blk (d : DieId) (src : DieId) (tag : BitVec 16) (s : State)
    (hb : β ∉ [Blk.staging, .slices, .stroke, .clk, .prot, .hk] ++ carriers) :
    Keeps β s (execRegReq d src tag s) := by
  simp at hb
  simp only [execRegReq, keeps_next]
  split
  · rfl
  · split
    · refine State.ordered_blk _ _ _ _ _ (fun t => ?_) (by simp [hb])
      (repeat' split) <;> simp [hb]
    · rfl

@[simp ↓] theorem State.crossEnd_blk (s : State) (d dst : DieId) (body : Body) (tag status : Nat) (value : Word)
    (hb : β ∉ [Blk.staging, .slices, .stroke, .clk, .prot, .twi, .hk, .sram, .endpoints] ++ carriers) :
    (s.crossEnd d dst body tag status value).blk β = s.blk β := by
  unfold State.crossEnd
  split <;> simp_all

theorem execRegRsp_blk (d : DieId) (src : DieId) (tag : BitVec 16) (s : State)
    (hb : β ∉ [Blk.staging, .slices, .stroke, .clk, .prot, .twi, .hk, .sram, .endpoints] ++ carriers) :
    Keeps β s (execRegRsp d src tag s) := by
  simp at hb
  simp only [execRegRsp, keeps_next]
  split
  · rfl
  · split
    · refine State.routed_blk _ _ _ _ _ (fun t => ?_) (by simp [hb])
      split <;> simp [hb]
    · rfl

@[simp ↓] theorem State.giveUp_blk (s : State) (d : DieId) (k : Packet) (hb : β ∉ [Blk.queues]) :
    (s.giveUp d k).blk β = s.blk β := by
  simp_all [State.giveUp]

@[simp ↓] theorem State.evtAgain_blk (s : State) (d : DieId) (r : Sent) (hb : β ∉ [Blk.brg, .evt, .tele, .ring]) :
    (s.evtAgain d r).blk β = s.blk β := by
  simp_all [State.evtAgain]

theorem execPacketAbandoned_blk (d : DieId) (tag : BitVec 16) (s : State)
    (hb : β ∉ [Blk.staging, .slices, .stroke, .clk, .prot, .twi, .hk, .sram, .endpoints] ++ carriers) :
    Keeps β s (execPacketAbandoned d tag s) := by
  simp at hb
  simp only [execPacketAbandoned, keeps_next]
  (repeat' split) <;> simp [hb]

theorem execPcieLink_blk (e : AccessId) (up : Bool) (speed : Fin 5) (width : Fin 3) (s : State)
    (hb : β ∉ [Blk.evt, .tele, .endpoints]) :
    Keeps β s (execPcieLink e up speed width s) := by
  simp_all [execPcieLink]

@[simp ↓] theorem Die.msixReset_blk (x : Die) (hb : β ∉ [Blk.evt, .sram]) :
    (x.msixReset).blk β = x.blk β := by
  simp_all [Die.msixReset]

theorem execPerst_blk (e : AccessId) (s : State) (hb : β ∉ [Blk.evt, .tele, .sram, .endpoints]) :
    Keeps β s (execPerst e s) := by
  simp_all [execPerst]

theorem execPoisonedTlp_blk (e : AccessId) (off : BitVec 25) (s : State) (hb : β ∉ [Blk.evt, .tele, .endpoints]) :
    Keeps β s (execPoisonedTlp e off s) := by
  simp_all [execPoisonedTlp]

@[simp ↓] theorem State.parityPost_blk (s : State) (d : DieId) (o : Nat) (staged unrec : Bool)
    (hb : β ∉ [Blk.prot, .evt, .tele]) :
    (s.parityPost d o staged unrec).blk β = s.blk β := by
  simp_all [State.parityPost]

@[simp ↓] theorem State.parityLost_blk (s : State) (d : DieId) (o : Nat) (hb : β ∉ [Blk.prot, .evt, .tele]) :
    (s.parityLost d o).blk β = s.blk β := by
  simp_all [State.parityLost]

theorem execParityFault_blk (d : DieId) (off : BitVec 20) (faulty : Half) (ecc : EccResult) (s : State)
    (hb : β ∉ [Blk.active, .prot, .evt, .tele]) :
    Keeps β s (execParityFault d off faulty ecc s) := by
  simp at hb
  simp only [execParityFault, keeps_next]
  (repeat' split) <;> simp [hb]

@[simp ↓] theorem Die.unstage_blk (x : Die) (o : Nat) (hb : β ∉ [Blk.staging]) :
    (x.unstage o).blk β = x.blk β := by
  unfold Die.unstage
  split <;> simp_all

theorem execStagedParityFault_blk (d : DieId) (off : BitVec 20) (s : State)
    (hb : β ∉ [Blk.staging, .prot, .evt, .tele]) :
    Keeps β s (execStagedParityFault d off s) := by
  simp_all [execStagedParityFault]

theorem execLedgerScrubVisit_blk (d : DieId) (off : BitVec 20) (ecc : EccResult) (s : State)
    (hb : β ∉ [Blk.prot, .evt, .tele, .free]) :
    Keeps β s (execLedgerScrubVisit d off ecc s) := by
  simp at hb
  simp only [execLedgerScrubVisit, keeps_next]
  (repeat' split) <;> simp [hb]

theorem execCrcPassEnd_blk (d : DieId) (s : State) (hb : β ∉ [Blk.prot, .evt, .tele]) :
    Keeps β s (execCrcPassEnd d s) := by
  simp at hb
  simp only [execCrcPassEnd, keeps_next]
  (repeat' split) <;> simp [hb]

/-! ### TwoWire -/

@[simp ↓] theorem State.onTwi_blk (s : State) (d : DieId) (f : Twi → Twi) (hb : β ∉ [Blk.twi]) :
    (s.onTwi d f).blk β = s.blk β := by
  simp_all [State.onTwi]

@[simp ↓] theorem State.twiWrite_blk (s : State) (e : AccessId) (x w : Word)
    (hb : β ∉ [Blk.staging, .slices, .stroke, .clk, .prot, .twi, .hk, .sram, .endpoints] ++ carriers) :
    (s.twiWrite e x w).blk β = s.blk β := by
  simp_all [State.twiWrite]

@[simp ↓] theorem State.twiOdd_blk (s : State) (d : DieId) (bytes : List Byte) (hb : β ∉ [Blk.tele]) :
    (s.twiOdd d bytes).blk β = s.blk β := by
  simp_all [State.twiOdd]

theorem execTwiWriteFrame_blk (e : AccessId) (bytes : List Byte) (s : State)
    (hb : β ∉ [Blk.staging, .slices, .stroke, .clk, .prot, .twi, .hk, .sram, .endpoints] ++ carriers) :
    Keeps β s (execTwiWriteFrame e bytes s) := by
  unfold execTwiWriteFrame
  split <;> simp_all

@[simp ↓] theorem State.twiRead_blk (s : State) (e : AccessId) (x : Word)
    (hb : β ∉ [Blk.brg, .prot, .evt, .twi, .tele, .endpoints, .ring]) :
    (s.twiRead e x).blk β = s.blk β := by
  simp only [State.twiRead]
  (repeat' split) <;> simp_all

theorem execTwiReadFrame_blk (e : AccessId) (bytes : List Byte) (s : State)
    (hb : β ∉ [Blk.brg, .prot, .evt, .twi, .tele, .endpoints, .ring]) :
    Keeps β s (execTwiReadFrame e bytes s) := by
  unfold execTwiReadFrame
  split <;> simp_all

theorem execTwiWriteBufEmpty_blk (e : AccessId) (s : State) (hb : β ∉ [Blk.twi]) :
    Keeps β s (execTwiWriteBufEmpty e s) := by
  simp_all [execTwiWriteBufEmpty]

theorem execTwiBusyNack_blk (e : AccessId) (s : State) (hb : β ∉ [Blk.tele]) :
    Keeps β s (execTwiBusyNack e s) := by
  simp_all [execTwiBusyNack]

theorem execTwiReadNotReady_blk (e : AccessId) (s : State) (hb : β ∉ [Blk.twi]) :
    Keeps β s (execTwiReadNotReady e s) := by
  simp_all [execTwiReadNotReady]

theorem execTwiStartInAck_blk (e : AccessId) (s : State) (hb : β ∉ [Blk.tele]) :
    Keeps β s (execTwiStartInAck e s) := by
  simp_all [execTwiStartInAck]

theorem execTargetTimeout_blk (e : AccessId) (frame unsent : Bool) (s : State) (hb : β ∉ [Blk.evt, .twi, .tele]) :
    Keeps β s (execTargetTimeout e frame unsent s) := by
  simp_all [execTargetTimeout]

theorem execAlertResponse_blk (e : AccessId) (won : Bool) (s : State) (hb : β ∉ [Blk.evt, .tele]) :
    Keeps β s (execAlertResponse e won s) := by
  simp_all [execAlertResponse]

theorem execAlertRedrive_blk (e : AccessId) (s : State) (hb : β ∉ [Blk.evt]) :
    Keeps β s (execAlertRedrive e s) := by
  simp_all [execAlertRedrive]

@[simp ↓] theorem State.onMc_blk (s : State) (d : DieId) (m : Nat) (f : Mc → Mc) (hb : β ∉ [Blk.twi]) :
    (s.onMc d m f).blk β = s.blk β := by
  simp_all [State.onMc]

@[simp ↓] theorem State.twiWait_blk (s : State) (d : DieId) (m : Nat) (hb : β ∉ [Blk.twi]) :
    (s.twiWait d m).blk β = s.blk β := by
  simp_all [State.twiWait]

@[simp ↓] theorem State.twiCommand_blk (s : State) (k : Packet) (op : Nat) (ok : Bool)
    (hb : β ∉ [Blk.twi] ++ carriers) :
    (s.twiCommand k op ok).blk β = s.blk β := by
  simp_all [State.twiCommand]

theorem execTwiTransfer_blk (k : Packet) (s : State) (hb : β ∉ [Blk.twi] ++ carriers) :
    Keeps β s (execTwiTransfer k s) := by
  simp_all [execTwiTransfer]

theorem execModuleIdentify_blk (k : Packet) (s : State) (hb : β ∉ [Blk.twi] ++ carriers) :
    Keeps β s (execModuleIdentify k s) := by
  simp_all [execModuleIdentify]

@[simp ↓] theorem State.twiFinish_blk (s : State) (d : DieId) (m : Nat) (o : Op) (result status : Nat) (acked : Nat)
    (data : List Byte) (stop : Bool) (hb : β ∉ [Blk.twi] ++ carriers) :
    (s.twiFinish d m o result status acked data stop).blk β = s.blk β := by
  simp_all [State.twiFinish]

theorem execTwiTransferEnd_blk (d : DieId) (m : McId) (result : Fin 8) (acked : Byte) (data : List Byte) (s : State)
    (hb : β ∉ [Blk.twi] ++ carriers) :
    Keeps β s (execTwiTransferEnd d m result acked data s) := by
  simp at hb
  simp only [execTwiTransferEnd, keeps_next]
  (repeat' split) <;> simp [hb]

theorem execArbLost_blk (d : DieId) (m : McId) (acked : Byte) (data : List Byte) (s : State)
    (hb : β ∉ [Blk.twi] ++ carriers) :
    Keeps β s (execArbLost d m acked data s) := by
  unfold execArbLost
  split <;> simp_all

theorem execStretchTimeout_blk (d : DieId) (m : McId) (acked : Byte) (data : List Byte) (s : State)
    (hb : β ∉ [Blk.twi] ++ carriers) :
    Keeps β s (execStretchTimeout d m acked data s) := by
  unfold execStretchTimeout
  split <;> simp_all

theorem execBusClear_blk (d : DieId) (m : McId) (pulses : Fin 10) (freed : Bool) (s : State)
    (hb : β ∉ [Blk.twi] ++ carriers) :
    Keeps β s (execBusClear d m pulses freed s) := by
  simp at hb
  simp only [execBusClear, keeps_next]
  (repeat' split) <;> simp [hb]

theorem execBusError_blk (d : DieId) (m : McId) (acked : Byte) (data : List Byte) (s : State)
    (hb : β ∉ [Blk.twi] ++ carriers) :
    Keeps β s (execBusError d m acked data s) := by
  unfold execBusError
  split <;> simp_all

@[simp ↓] theorem State.twiCut_blk (s : State) (d : DieId) (m status : Nat) (stop : Bool)
    (hb : β ∉ [Blk.twi] ++ carriers) :
    (s.twiCut d m status stop).blk β = s.blk β := by
  unfold State.twiCut
  split <;> simp_all

@[simp ↓] theorem State.twiCancel_blk (s : State) (d : DieId) (m : Nat) (o : Op) (hb : β ∉ [Blk.twi] ++ carriers) :
    (s.twiCancel d m o).blk β = s.blk β := by
  simp_all [State.twiCancel]

@[simp ↓] theorem State.mcEnable_blk (s : State) (d : DieId) (m : Nat) (hb : β ∉ [Blk.twi]) :
    (s.mcEnable d m).blk β = s.blk β := by
  simp_all [State.mcEnable]

/-! ### Bist -/

@[simp ↓] theorem State.testStart_blk (s : State) (d : DieId) (t : Test)
    (hb : β ∉ [Blk.slices, .courses, .peg, .evt, .bist, .tele]) :
    (s.testStart d t).blk β = s.blk β := by
  simp_all [State.testStart]

theorem execBistRun_blk (k : Packet) (s : State) (hb : β ∉ [Blk.slices, .txs, .courses, .clk, .bist] ++ carriers) :
    Keeps β s (execBistRun k s) := by
  simp only [execBistRun, keeps_next]
  refine State.command_blk s k _ _ (fun s => ?_) (by simp_all)
  (repeat' split) <;> simp_all

@[simp ↓] theorem State.testRelease_blk (s : State) (d : DieId) (t : Test)
    (hb : β ∉ [Blk.active, .slices, .ports, .courses, .evt, .tele, .cal]) :
    (s.testRelease d t).blk β = s.blk β := by
  simp_all [State.testRelease]

@[simp ↓] theorem State.testCut_blk (s : State) (d : DieId) (t : Test) (r : TestResult) (status : Nat)
    (hb : β ∉ [Blk.active, .slices, .ports, .courses, .bist, .cal, .free] ++ carriers) :
    (s.testCut d t r status).blk β = s.blk β := by
  simp_all [State.testCut]

@[simp ↓] theorem State.testProgress_blk (s : State) (d : DieId) (t u : Test) (hb : β ∉ [Blk.bist] ++ carriers) :
    (s.testProgress d t u).blk β = s.blk β := by
  simp only [State.testProgress]
  (repeat' split) <;> simp_all

@[simp ↓] theorem State.yieldTest_blk (s : State) (d : DieId) (t : Test)
    (hb : β ∉ [Blk.active, .slices, .evt, .bist, .tele, .cal]) :
    (s.yieldTest d t).blk β = s.blk β := by
  simp_all [State.yieldTest]

theorem execWorkSliceEnd_blk (d : DieId) (tag : BitVec 16) (work : Nat) (s : State)
    (hb : β ∉ [Blk.active, .slices, .ports, .courses, .stroke, .bist, .cal, .pos, .free] ++ carriers) :
    Keeps β s (execWorkSliceEnd d tag work s) := by
  simp at hb
  simp only [execWorkSliceEnd, keeps_next]
  (repeat' split) <;> simp [hb]

theorem execSliceAborted_blk (d : DieId) (tag : BitVec 16) (clock : Bool) (s : State)
    (hb : β ∉ [Blk.active, .slices, .evt, .bist, .tele, .cal]) :
    Keeps β s (execSliceAborted d tag clock s) := by
  unfold execSliceAborted
  split <;> simp_all

@[simp ↓] theorem State.repairRecord_blk (s : State) (d : DieId) (m v : Nat) (hb : β ∉ [Blk.evt, .nv, .tele]) :
    (s.repairRecord d m v).1.blk β = s.blk β := by
  unfold State.repairRecord
  split <;> simp_all

@[simp ↓] theorem State.retire_blk (s : State) (d : DieId) (t : Test) (m : Nat)
    (hb : β ∉ [Blk.slices, .courses, .evt, .bist, .nv, .tele]) :
    (s.retire d t m).blk β = s.blk β := by
  unfold State.retire
  split <;> simp_all

@[simp ↓] theorem State.afterFail_blk (s : State) (d : DieId) (t : Test) (loc : Nat) (repaired : Bool)
    (hb : β ∉ [Blk.slices, .courses, .evt, .bist, .nv, .tele]) :
    (s.afterFail d t loc repaired).1.blk β = s.blk β := by
  unfold State.afterFail
  dsimp only
  (repeat' split) <;> simp_all

theorem execTestEnded_blk (d : DieId) (tag : BitVec 16) (result : TestResult) (sig loc : Word) (repaired : Bool)
    (s : State) (hb : β ∉ [Blk.active, .slices, .ports, .courses, .bist, .nv, .cal] ++ carriers) :
    Keeps β s (execTestEnded d tag result sig loc repaired s) := by
  simp at hb
  unfold execTestEnded
  rw [keeps_next]
  split
  · rfl
  · extract_lets -lift x t u r0
    have hu : u.blk β = s.blk β := by unfold u; split <;> simp [hb]
    split
    · rw [State.testRelease_blk _ _ _ (by simp [hb]), State.closeTest_blk _ _ _ _ _ _ _ (by simp [hb])]
      (repeat' split) <;> simp [hb, hu]
    · rfl

theorem execBistResult_blk (k : Packet) (s : State) (hb : β ∉ carriers) :
    Keeps β s (execBistResult k s) := by
  simp only [execBistResult, keeps_next]
  refine State.command0_blk s k _ _ (fun s => ?_) (by simp_all)
  (repeat' split) <;> simp_all

theorem execRepairSoft_blk (k : Packet) (s : State) (hb : β ∉ [Blk.slices, .courses, .bist, .nv] ++ carriers) :
    Keeps β s (execRepairSoft k s) := by
  simp only [execRepairSoft, keeps_next]
  refine State.command_blk s k _ _ (fun s => ?_) (by simp_all)
  (repeat' split) <;> simp_all

theorem execRepairFuse_blk (k : Packet) (s : State) (hb : β ∉ [Blk.bist] ++ carriers) :
    Keeps β s (execRepairFuse k s) := by
  simp only [execRepairFuse, keeps_next]
  refine State.command_blk s k _ _ (fun s => ?_) (by simp_all)
  (repeat' split) <;> simp_all

@[simp ↓] theorem State.nvForget_blk (s : State) (d : DieId) (m : Nat) (hb : β ∉ [Blk.nv]) :
    (s.nvForget d m).blk β = s.blk β := by
  simp_all [State.nvForget]

@[simp ↓] theorem State.fuseEntry_blk (s : State) (d : DieId) (e : Nat × Nat) (hb : β ∉ [Blk.evt, .bist, .tele]) :
    (s.fuseEntry d e).1.blk β = s.blk β := by
  simp_all [State.fuseEntry]

theorem execFuseWritten_blk (d : DieId) (s : State) (hb : β ∉ [Blk.bist, .nv] ++ carriers) :
    Keeps β s (execFuseWritten d s) := by
  simp at hb
  simp only [execFuseWritten, keeps_next]
  (repeat' split) <;> simp [hb]

/-! ### Recovery -/

@[simp ↓] theorem State.fuseCut_blk (s : State) (d : DieId) (o : Op) (status : Nat) (hb : β ∉ [Blk.bist] ++ carriers) :
    (s.fuseCut d o status).blk β = s.blk β := by
  unfold State.fuseCut
  split <;> simp_all

@[simp ↓] theorem State.fwClear_blk (s : State) (hb : β ∉ [Blk.peg, .queues, .images]) :
    (s.fwClear).blk β = s.blk β := by
  simp_all [State.fwClear]

@[simp ↓] theorem Die.stageClear_blk (x : Die) (hb : β ∉ [Blk.peg]) :
    (x.stageClear).blk β = x.blk β := by
  simp_all [Die.stageClear]

@[simp ↓] theorem State.testFinish_blk (s : State) (d : DieId) (t : Test) (status : Nat)
    (hb : β ∉ [Blk.active, .slices, .ports, .courses, .bist, .cal, .free] ++ carriers) :
    (s.testFinish d t status).blk β = s.blk β := by
  simp_all [State.testFinish]

@[simp ↓] theorem State.abortOp_blk (s : State) (d : DieId) (o : Op) (status : Nat)
    (hb : β ∉ [Blk.active, .slices, .ports, .courses, .twi, .bist, .cal, .images, .free] ++ carriers) :
    (s.abortOp d o status).blk β = s.blk β := by
  simp only [State.abortOp]
  (repeat' split) <;> simp_all

@[simp ↓] theorem State.abortOps_blk (s : State) (d : DieId) (f : Op → Bool) (status : Nat)
    (hb : β ∉ [Blk.active, .slices, .ports, .courses, .twi, .bist, .cal, .images, .free] ++ carriers) :
    (s.abortOps d f status).blk β = s.blk β := by
  simp_all [State.abortOps]

@[simp ↓] theorem State.finishLate_blk (s : State) (d : DieId) (op span : Nat) (r : Rec) (hb : β ∉ carriers) :
    (s.finishLate d op span r).blk β = s.blk β := by
  simp_all [State.finishLate]

@[simp ↓] theorem State.settle_blk (s : State) (d : DieId) (swap : Bool)
    (hb : β ∉ [Blk.active, .slices, .ports, .courses, .twi, .bist, .cal, .images, .free] ++ carriers) :
    (s.settle d swap).blk β = s.blk β := by
  simp_all [State.settle]

theorem execWatchdogExpiry_blk (d : DieId) (s : State) (hb : β ∉ [Blk.peg, .tele]) :
    Keeps β s (execWatchdogExpiry d s) := by
  simp_all [execWatchdogExpiry]

@[simp ↓] theorem State.pegStart_blk (s : State) (d : DieId) (hb : β ∉ [Blk.peg]) :
    (s.pegStart d).blk β = s.blk β := by
  simp_all [State.pegStart]

@[simp ↓] theorem State.raiseMin_blk (s : State) (d : DieId) (v : Nat) (hb : β ∉ [Blk.evt, .nv, .tele]) :
    (s.raiseMin d v).blk β = s.blk β := by
  simp_all [State.raiseMin]

@[simp ↓] theorem State.fwFinish_blk (s : State) (hb : β ∉ [Blk.nv, .images] ++ carriers) :
    (s.fwFinish).blk β = s.blk β := by
  simp only [State.fwFinish]
  (repeat' split) <;> simp_all

theorem execPegRestart_blk (d : DieId) (rom : Bool) (s : State)
    (hb : β ∉ [Blk.active, .slices, .ports, .courses, .twi, .bist, .nv, .cal, .images, .free] ++ carriers) :
    Keeps β s (execPegRestart d rom s) := by
  simp at hb
  simp only [execPegRestart, keeps_next]
  (repeat' split) <;> simp [hb]

@[simp ↓] theorem State.cancelOp_blk (s : State) (d : DieId) (o : Op)
    (hb : β ∉ [Blk.slices, .ports, .courses, .twi, .bist, .free] ++ carriers) :
    (s.cancelOp d o).1.blk β = s.blk β := by
  unfold State.cancelOp
  dsimp only
  (repeat' split) <;> simp_all

@[simp ↓] theorem State.cancelsAt_blk (s : State) (d : DieId) (hb : β ∉ carriers) :
    (s.cancelsAt d).blk β = s.blk β := by
  simp_all [State.cancelsAt]

theorem execOpCancel_blk (k : Packet) (s : State)
    (hb : β ∉ [Blk.slices, .ports, .courses, .twi, .bist, .free] ++ carriers) :
    Keeps β s (execOpCancel k s) := by
  simp only [execOpCancel, keeps_next]
  refine State.command0_blk s k _ _ (fun s => ?_) (by simp_all)
  (repeat' split) <;> simp_all

@[simp ↓] theorem State.closeStage_blk (s : State) (d : DieId) (hb : β ∉ [Blk.peg, .evt, .tele]) :
    (s.closeStage d).blk β = s.blk β := by
  simp_all [State.closeStage]

@[simp ↓] theorem Die.stageChunk_blk (x : Die) (k : Packet) (now : Nat) (hb : β ∉ [Blk.peg]) :
    (x.stageChunk k now).blk β = x.blk β := by
  simp_all [Die.stageChunk]

@[simp ↓] theorem State.stageAbort_blk (s : State) (k : Packet) (hb : β ∉ carriers) :
    (s.stageAbort k).blk β = s.blk β := by
  simp only [State.stageAbort]
  (repeat' split) <;> simp_all

@[simp ↓] theorem State.stageChunks_blk (s : State) (k : Packet) (hb : β ∉ carriers) :
    (s.stageChunks k).blk β = s.blk β := by
  simp only [State.stageChunks]
  (repeat' split) <;> simp_all

@[simp ↓] theorem State.fwStage_blk (s : State) (k : Packet) (hb : β ∉ carriers) :
    (s.fwStage k).blk β = s.blk β := by
  simp_all [State.fwStage]

theorem execFwStage_blk (k : Packet) (s : State) (hb : β ∉ carriers) :
    Keeps β s (execFwStage k s) := by
  simp_all [execFwStage]

theorem execFwStageAbort_blk (k : Packet) (s : State) (hb : β ∉ carriers) :
    Keeps β s (execFwStageAbort k s) := by
  simp_all [execFwStageAbort]

theorem execStagingSessionTimeout_blk (s : State)
    (hb : β ∉ [Blk.active, .slices, .ports, .courses, .twi, .bist, .cal, .images, .free] ++ carriers) :
    Keeps β s (execStagingSessionTimeout s) := by
  simp at hb
  simp only [execStagingSessionTimeout, keeps_next]
  (repeat' split) <;> simp [hb]

@[simp ↓] theorem State.fwSend_blk (s : State) (mask : Nat) (hb : β ∉ [Blk.stroke, .brg, .peg, .images, .ring]) :
    (s.fwSend mask).blk β = s.blk β := by
  simp_all [State.fwSend]

theorem execFwActivate_blk (k : Packet) (s : State) (hb : β ∉ [Blk.stroke, .images] ++ carriers) :
    Keeps β s (execFwActivate k s) := by
  simp at hb
  simp only [execFwActivate, keeps_next]
  refine State.command0_blk s k _ _ (fun s => ?_) (by simp [hb])
  (repeat' split) <;> simp [hb]

theorem execFwSwap_blk (d : DieId) (s : State) (hb : β ∉ [Blk.peg, .evt, .tele]) :
    Keeps β s (execFwSwap d s) := by
  unfold execFwSwap
  split <;> simp_all

theorem execFwReverted_blk (d : DieId) (s : State)
    (hb : β ∉ [Blk.active, .slices, .ports, .courses, .twi, .bist, .nv, .cal, .images, .free] ++ carriers) :
    Keeps β s (execFwReverted d s) := by
  simp at hb
  simp only [execFwReverted, keeps_next]
  (repeat' split) <;> simp [hb]

/-! ### Apply -/

@[simp ↓] theorem State.leaveService_blk (s : State) (p : PortId) (hb : β ∉ [Blk.txs, .ports, .courses, .tele, .free]) :
    (s.leaveService p).blk β = s.blk β := by
  simp_all [State.leaveService]

@[simp ↓] theorem State.clearLoss_blk (s : State) (p : PortId) (hb : β ∉ [Blk.txs, .courses, .tele]) :
    (s.clearLoss p).blk β = s.blk β := by
  simp_all [State.clearLoss]

@[simp ↓] theorem State.gbxOff_blk (s : State) (p : PortId) (hb : β ∉ [Blk.courses, .tele]) :
    (s.gbxOff p).blk β = s.blk β := by
  simp_all [State.gbxOff]

@[simp ↓] theorem State.cutChecks_blk (s : State) (p : PortId) (hb : β ∉ [Blk.courses, .free] ++ carriers) :
    (s.cutChecks p).blk β = s.blk β := by
  simp_all [State.cutChecks]

@[simp ↓] theorem State.cutTests_blk (s : State) (p : PortId)
    (hb : β ∉ [Blk.active, .slices, .ports, .courses, .bist, .cal, .free] ++ carriers) :
    (s.cutTests p).blk β = s.blk β := by
  simp_all [State.cutTests]

@[simp ↓] theorem State.portOff_blk (s : State) (p : PortId) (reason : Nat)
    (hb : β ∉ [Blk.active, .slices, .pins, .txs, .ports, .courses, .bist, .cal, .free] ++ carriers) :
    (s.portOff p reason).blk β = s.blk β := by
  simp_all [State.portOff]

/-! ### DieOps -/

@[simp ↓] theorem State.stopDie_blk (s : State) (d : DieId)
    (hb : β ∉ [Blk.active, .slices, .pins, .txs, .ports, .courses, .clk, .twi, .bist, .cal, .images, .free] ++ carriers) :
    (s.stopDie d).blk β = s.blk β := by
  simp at hb
  unfold State.stopDie
  extract_lets -lift u₁ u₂ u₃ u₄ u₅ u₆ u₇ u₈
  have h₁ : u₁.blk β = s.blk β := by
    refine State.foldl_blk _ _ _ fun t c => State.foldl_blk _ _ _ fun t h => ?_
    split <;> simp [hb]
  have h₄ : u₄.blk β = s.blk β := by simp [u₂, u₃, u₄, hb, h₁]
  have h₅ : u₅.blk β = s.blk β := by
    refine (State.foldl_blk _ _ _ fun t c => State.foldl_blk _ _ _ fun t h => ?_).trans h₄
    simp [hb]
  have h₇ : u₇.blk β = s.blk β := by simp [u₆, u₇, hb, h₅]
  simp [u₈, hb, h₇]

theorem execDieIsolate_blk (k : Packet) (s : State) (hb : β ∉ carriers) :
    Keeps β s (execDieIsolate k s) := by
  simp_all [execDieIsolate]

theorem execDieReachableAgain_blk (d : DieId) (s : State)
    (hb : β ∉ [Blk.active, .slices, .pins, .txs, .ports, .courses, .clk, .twi, .bist, .cal, .images, .free] ++ carriers) :
    Keeps β s (execDieReachableAgain d s) := by
  simp_all [execDieReachableAgain]

theorem execDieRestore_blk (k : Packet) (s : State) (hb : β ∉ carriers) :
    Keeps β s (execDieRestore k s) := by
  simp at hb
  simp only [execDieRestore, keeps_next]
  split
  · simp [hb]
  · refine State.command0_blk s k _ _ (fun s => ?_) (by simp [hb])
    (repeat' split) <;> simp [hb]

@[simp ↓] theorem Die.resetMaps_blk (x : Die) (hb : β ∉ [Blk.courses, .tele]) :
    (x.resetMaps).blk β = x.blk β := by
  simp_all [Die.resetMaps]

/-! ### Boundary -/

@[simp ↓] theorem State.resume_blk (s : State) (d : DieId) (hb : β ∉ [Blk.stroke, .peg, .evt, .hk, .tele]) :
    (s.resume d).blk β = s.blk β := by
  simp_all [State.resume]

@[simp ↓] theorem Die.overrun_blk (x : Die) (f left : Nat) (hb : β ∉ [Blk.stroke, .tele]) :
    (x.overrun f left).blk β = x.blk β := by
  simp_all [Die.overrun]

theorem execFretOverrun_blk (d : DieId) (fret : Fin 32) (left : BitVec 16) (s : State)
    (hb : β ∉ [Blk.courses, .stroke, .peg, .evt, .bist, .tele, .pos]) :
    Keeps β s (execFretOverrun d fret left s) := by
  simp_all [execFretOverrun]

theorem execFretOvrClear_blk (d : DieId) (fret : Fin 32) (s : State) (hb : β ∉ [Blk.stroke]) :
    Keeps β s (execFretOvrClear d fret s) := by
  simp_all [execFretOvrClear]

/-! ### Supplies -/

@[simp ↓] theorem State.between_blk (s : State) (v lo hi : Nat) (hb : β ∉ [Blk.free]) :
    (s.between v lo hi).2.blk β = s.blk β := by
  unfold State.between
  (repeat' split) <;> simp_all

theorem execSoundpostReady_blk (d : DieId) (s : State) (hb : β ∉ [Blk.stroke, .clk, .evt, .tele]) :
    Keeps β s (execSoundpostReady d s) := by
  simp_all [execSoundpostReady]

theorem execVddhPowerDown_blk (s : State) (hb : β ∉ [Blk.txs, .evt, .tele, .mode]) :
    Keeps β s (execVddhPowerDown s) := by
  simp_all [execVddhPowerDown]

@[simp ↓] theorem Die.bootRepair_blk (x : Die) (r : Nat × Nat) (hb : β ∉ [Blk.bist]) :
    (x.bootRepair r).blk β = x.blk β := by
  simp_all [Die.bootRepair]

@[simp ↓] theorem Die.bootRetire_blk (x : Die) (t : Nat) (hb : β ∉ [Blk.slices, .courses, .bist, .tele]) :
    (x.bootRetire t).blk β = x.blk β := by
  unfold Die.bootRetire
  split <;> simp_all

@[simp ↓] theorem State.bootRecords_blk (s : State) (m d : DieId) (hb : β ∉ [Blk.slices, .courses, .bist, .tele]) :
    (s.bootRecords m d).blk β = s.blk β := by
  simp_all [State.bootRecords]

@[simp ↓] theorem State.bootProfiles_blk (s : State) (img : List Host.Cell) (d : DieId) (hb : β ∉ [Blk.staging]) :
    (s.bootProfiles img d).blk β = s.blk β := by
  simp at hb
  simp only [State.bootProfiles]
  rw [State.onDie_blk, Die.foldl_blk, State.die_blk, State.setDie_die]
  intro x n
  split <;> simp [hb]

@[simp ↓] theorem State.bootPeg_blk (s : State) (from_ : Option DieId) (img : List Host.Cell) (d : DieId)
    (hb : β ∉ [Blk.peg]) :
    (s.bootPeg from_ img d).blk β = s.blk β := by
  simp_all [State.bootPeg]

@[simp ↓] theorem State.bootBridge_blk (s : State) (d : DieId) (w : Ew) (hb : β ∉ [Blk.brg, .free]) :
    (s.bootBridge d w).blk β = s.blk β := by
  simp_all [State.bootBridge]

@[simp ↓] theorem State.bootNv_blk (s : State) (from_ : Option DieId) (img : List Host.Cell) (d : DieId)
    (hb : β ∉ [Blk.staging, .slices, .courses, .bist, .nv, .tele, .cal]) :
    (s.bootNv from_ img d).blk β = s.blk β := by
  unfold State.bootNv
  split <;> simp_all

@[simp ↓] theorem State.bootDie_blk (s : State) (from_ : Option DieId) (img : List Host.Cell) (d : DieId)
    (hb : β ∉ [Blk.staging, .slices, .courses, .brg, .peg, .bist, .nv, .tele, .cal, .free]) :
    (s.bootDie from_ img d).blk β = s.blk β := by
  simp_all [State.bootDie]

@[simp ↓] theorem State.bootRing_blk (s : State) (d : DieId) (hb : β ∉ [Blk.stroke, .brg, .evt, .tele]) :
    (s.bootRing d).blk β = s.blk β := by
  simp_all [State.bootRing]

@[simp ↓] theorem State.bootSeen_blk (s : State) (readable : Fin 4) (ecc : List (BitVec 18 × EccResult × EccResult))
    (d : DieId) (hb : β ∉ [Blk.nv]) :
    (s.bootSeen readable ecc d).blk β = s.blk β := by
  simp_all [State.bootSeen]

theorem execBoot_blk (straps : Fin 4) (readable : Fin 4) (ecc : List (BitVec 18 × EccResult × EccResult)) (s : State)
        (hb : β ∉ [Blk.staging, .slices, .courses, .stroke, .brg, .peg, .evt, .twi, .bist, .nv, .tele, .cal, .mode, .pos,
      .free]) :
    Keeps β s (execBoot straps readable ecc s) := by
  simp_all [execBoot]

theorem execStandbyEntry_blk (s : State) (hb : β ∉ [Blk.peg, .mode, .pos]) :
    Keeps β s (execStandbyEntry s) := by
  simp_all [execStandbyEntry]

@[simp ↓] theorem State.unstalls_blk (s : State)
    (hb : β ∉ [Blk.staging, .slices, .stroke, .clk, .prot, .twi, .hk, .sram, .endpoints] ++ carriers) :
    (s.unstalls).blk β = s.blk β := by
  simp_all [State.unstalls]

theorem execStandbyWake_blk (source : Fin 4) (ns : Word) (s : State)
    (hb : β ∉ [Blk.staging, .slices, .stroke, .clk, .prot, .twi, .hk, .sram, .mode, .endpoints, .pos, .free] ++ carriers) :
    Keeps β s (execStandbyWake source ns s) := by
  unfold execStandbyWake
  split <;> simp_all

theorem execStandbyExit_blk (s : State) (hb : β ∉ [Blk.evt, .tele, .mode]) :
    Keeps β s (execStandbyExit s) := by
  simp at hb
  simp only [execStandbyExit, keeps_next]
  (repeat' split) <;> simp [hb]

theorem execStandbyMonitorRestart_blk (d : DieId) (s : State) (hb : β ∉ [Blk.stroke]) :
    Keeps β s (execStandbyMonitorRestart d s) := by
  simp at hb
  simp only [execStandbyMonitorRestart, keeps_next]
  (repeat' split) <;> simp [hb]

theorem execJtagInstruction_blk (d : DieId) (code : Byte) (s : State) (hb : β ∉ [Blk.scan]) :
    Keeps β s (execJtagInstruction d code s) := by
  simp_all [execJtagInstruction]

end Sys2Proof.Machine
end

section
/-! SUPPORT. The rows together: the blocks a row may write, from the tables of Safety.lean, and the proof that it writes no
other. -/

set_option Elab.async false

namespace Sys2Proof.Machine

variable {β : Blk}

/-- The rows that may write every block: the resets, and the stroke boundary itself. -/
def writesAll : Instr → Bool
  | .powerOnReset | .brownout .. | .resetN .. | .strokeBoundary .. | .trainBudgetExpired .. => true
  | _ => false

/-- Whether row c may write block b: the tables of Safety.lean, and for a block without a table every row. -/
def Blk.writtenBy (c : Instr) : Blk → Bool
  | .active => writesActive c
  | .staging => writesStaged c
  | .ledger => writesLedger c
  | .slices => writesSlices c
  | .pins => writesPins c
  | .txs => writesTxs c
  | .ports => writesPorts c
  | .courses => writesCourses c
  | .stroke => writesStroke c
  | .clk => writesClk c
  | .prot => writesProt c
  | .peg => writesPeg c
  | .queues => writesQueues c
  | .evt => !postsNothing c
  | .twi => writesTwi c
  | .hk => writesHk c
  | .bist => writesBist c
  | .nv => writesNv c
  | .sram => writesSram c
  | .scan => writesScan c || writesAll c
  | .fixed => writesAll c
  | .mode => writesMode c
  | .endpoints => writesEndpoints c || writesAll c
  | .images => writesImages c
  | .pos => movesPos c
  | .free => takesFree c
  | .brg | .tele | .cal | .ring => true

/-- A block row c does not write is none of those it may write. -/
theorem Blk.notMem_of_writtenBy_eq_false {c : Instr} {l : List Blk} (hl : l.all (writtenBy c) = true)
    (h : β.writtenBy c = false) : β ∉ l := fun hm => by
  simp [List.all_eq_true.mp hl β hm] at h

/-- Each row leaves every block alone but those it may write. -/
theorem exec_keeps (c : Instr) (s : State) (h : β.writtenBy c = false) : Keeps β s (exec c s) := by
  have hfree : ∀ l : List Blk, l.all (Blk.writtenBy c) = true → β ∉ l :=
    fun l hl => Blk.notMem_of_writtenBy_eq_false hl h
  cases c with
  | powerOnReset => cases β <;> cases h
  | brownout => cases β <;> cases h
  | resetN => cases β <;> cases h
  | boot => exact execBoot_blk _ _ _ _ (hfree _ rfl)
  | perst => exact execPerst_blk _ _ (hfree _ rfl)
  | pcieLink => exact execPcieLink_blk _ _ _ _ _ (hfree _ rfl)
  | poisonedTlp => exact execPoisonedTlp_blk _ _ _ (hfree _ rfl)
  | vddhPowerDown => exact execVddhPowerDown_blk _ (hfree _ rfl)
  | soundpostReady => exact execSoundpostReady_blk _ _ (hfree _ rfl)
  | strokeBoundary => cases β <;> cases h
  | fretOverrun => exact execFretOverrun_blk _ _ _ _ (hfree _ rfl)
  | fretOvrClear => exact execFretOvrClear_blk _ _ _ (hfree _ rfl)
  | tuningFret => exact execTuningFret_blk _ _ _ _ _ (hfree _ rfl)
  | converged => exact execConverged_blk _ _ _ (hfree _ rfl)
  | adaptLimit => exact execAdaptLimit_blk _ _ _ _ (hfree _ rfl)
  | sdChange => exact execSdChange_blk _ _ _ _ (hfree _ rfl)
  | lockLost => exact execLockLost_blk _ _ _ _ (hfree _ rfl)
  | lockAcquired => exact execLockAcquired_blk _ _ _ (hfree _ rfl)
  | reacqStart => exact execReacqStart_blk _ _ _ (hfree _ rfl)
  | reacqDone => exact execReacqDone_blk _ _ _ (hfree _ rfl)
  | reacqFailed => exact execReacqFailed_blk _ _ _ (hfree _ rfl)
  | sliceSubstitution => exact execSliceSubstitution_blk _ _ _ (hfree _ rfl)
  | sliceSubstituted => exact execSliceSubstituted_blk _ _ _ _ (hfree _ rfl)
  | capoHostWrite => exact execCapoHostWrite_blk _ _ _ _ (hfree _ rfl)
  | prsAsserted => exact execPrsAsserted_blk _ _ _ (hfree _ rfl)
  | prsDeasserted => exact execPrsDeasserted_blk _ _ _ (hfree _ rfl)
  | segmentPresent => exact execSegmentPresent_blk _ _ _ (hfree _ rfl)
  | segmentAbsent => exact execSegmentAbsent_blk _ _ _ (hfree _ rfl)
  | trainRetry => exact execTrainRetry_blk _ _ (hfree _ rfl)
  | portDefine => exact execPortDefine_blk _ _ (hfree _ rfl)
  | portEnable => exact execPortEnable_blk _ _ (hfree _ rfl)
  | portDisable => exact execPortDisable_blk _ _ (hfree _ rfl)
  | portStatus => exact execPortStatus_blk _ _ (hfree _ rfl)
  | portAttachPolicy => exact execPortAttachPolicy_blk _ _ (hfree _ rfl)
  | laneEqSet => exact execLaneEqSet_blk _ _ (hfree _ rfl)
  | laneEqGet => exact execLaneEqGet_blk _ _ (hfree _ rfl)
  | laneCapo => exact execLaneCapo_blk _ _ (hfree _ rfl)
  | txSet => exact execTxSet_blk _ _ (hfree _ rfl)
  | txPattern => exact execTxPattern_blk _ _ (hfree _ rfl)
  | driverLimit => exact execDriverLimit_blk _ _ _ (hfree _ rfl)
  | prbsCheck => exact execPrbsCheck_blk _ _ (hfree _ rfl)
  | prbsCheckLock => exact execPrbsCheckLock_blk _ _ _ (hfree _ rfl)
  | prbsCheckRelock => exact execPrbsCheckRelock_blk _ _ _ (hfree _ rfl)
  | prbsCheckEnd => exact execPrbsCheckEnd_blk _ _ _ _ _ _ (hfree _ rfl)
  | sympAttach => exact execSympAttach_blk _ _ (hfree _ rfl)
  | sympDetach => exact execSympDetach_blk _ _ (hfree _ rfl)
  | handover => exact execHandover_blk _ _ (hfree _ rfl)
  | handoverAlign => exact execHandoverAlign_blk _ _ _ _ _ (hfree _ rfl)
  | handoverDisagree => exact execHandoverDisagree_blk _ _ _ _ _ (hfree _ rfl)
  | handoverConvTimeout => exact execHandoverConvTimeout_blk _ _ _ _ (hfree _ rfl)
  | retuneInService => exact execRetuneInService_blk _ _ (hfree _ rfl)
  | eyeScan => exact execEyeScan_blk _ _ (hfree _ rfl)
  | capture => exact execCapture_blk _ _ (hfree _ rfl)
  | captureTrigger => exact execCaptureTrigger_blk _ _ _ _ _ (hfree _ rfl)
  | captureTimeout => exact execCaptureTimeout_blk _ _ _ _ (hfree _ rfl)
  | captureRead => exact execCaptureRead_blk _ _ (hfree _ rfl)
  | bankRotationStart => exact execBankRotationStart_blk _ _ _ (hfree _ rfl)
  | bankSwap => exact execBankSwap_blk _ _ _ (hfree _ rfl)
  | trainingEngineFret => exact execTrainingEngineFret_blk _ _ (hfree _ rfl)
  | trainingFrame => exact execTrainingFrame_blk _ _ _ _ _ (hfree _ rfl)
  | frameLock => exact execFrameLock_blk _ _ _ _ _ (hfree _ rfl)
  | frameLockLost => exact execFrameLockLost_blk _ _ _ _ (hfree _ rfl)
  | requestAbandoned => exact execRequestAbandoned_blk _ _ _ _ (hfree _ rfl)
  | trainBudgetExpired => cases β <;> cases h
  | framesInService => exact execFramesInService_blk _ _ _ _ (hfree _ rfl)
  | trainStart => exact execTrainStart_blk _ _ (hfree _ rfl)
  | trainAbort => exact execTrainAbort_blk _ _ (hfree _ rfl)
  | trainStatus => exact execTrainStatus_blk _ _ (hfree _ rfl)
  | fecLockChange => exact execFecLockChange_blk _ _ _ _ _ (hfree _ rfl)
  | fecDegWindowEnd => exact execFecDegWindowEnd_blk _ _ _ (hfree _ rfl)
  | blockLockChange => exact execBlockLockChange_blk _ _ _ _ _ (hfree _ rfl)
  | syndromeWindowEnd => exact execSyndromeWindowEnd_blk _ _ _ _ (hfree _ rfl)
  | latticeRebuild => exact execLatticeRebuild_blk _ _ _ _ _ _ (hfree _ rfl)
  | readmitByAgreement => exact execReadmitByAgreement_blk _ _ _ (hfree _ rfl)
  | autoReadmit => exact execAutoReadmit_blk _ _ _ (hfree _ rfl)
  | serviceWord => exact execServiceWord_blk _ _ _ _ (hfree _ rfl)
  | readmitTrainSwitch => exact execReadmitTrainSwitch_blk _ _ _ (hfree _ rfl)
  | latticeReadmitDone => exact execLatticeReadmitDone_blk _ _ _ _ (hfree _ rfl)
  | latticeReadmitted => exact execLatticeReadmitted_blk _ _ _ _ (hfree _ rfl)
  | latticeReadmitFailed => exact execLatticeReadmitFailed_blk _ _ _ (hfree _ rfl)
  | latticeDisarmed => exact execLatticeDisarmed_blk _ _ _ _ _ _ _ (hfree _ rfl)
  | latticeDisarm => exact execLatticeDisarm_blk _ _ (hfree _ rfl)
  | latticeArm => exact execLatticeArm_blk _ _ (hfree _ rfl)
  | latticeReadmit => exact execLatticeReadmit_blk _ _ (hfree _ rfl)
  | latticeStatus => exact execLatticeStatus_blk _ _ (hfree _ rfl)
  | pairSlip => exact execPairSlip_blk _ _ _ _ _ (hfree _ rfl)
  | phaseSession => exact execPhaseSession_blk _ _ _ _ (hfree _ rfl)
  | phaseRestored => exact execPhaseRestored_blk _ _ _ _ _ (hfree _ rfl)
  | phaseSessionFailed => exact execPhaseSessionFailed_blk _ _ _ _ (hfree _ rfl)
  | qualWindowEnd => exact execQualWindowEnd_blk _ _ _ (hfree _ rfl)
  | refFail => exact execRefFail_blk _ _ _ _ (hfree _ rfl)
  | holdoverAged => exact execHoldoverAged_blk _ _ (hfree _ rfl)
  | autoReturn => exact execAutoReturn_blk _ _ _ (hfree _ rfl)
  | lanePllRelock => exact execLanePllRelock_blk _ _ _ (hfree _ rfl)
  | switchForced => exact execSwitchForced_blk _ _ _ (hfree _ rfl)
  | refFailFallbackDeferred => exact execRefFailFallbackDeferred_blk _ _ _ _ (hfree _ rfl)
  | spNotReady => exact execSpNotReady_blk _ _ (hfree _ rfl)
  | spFail => exact execSpFail_blk _ _ _ _ (hfree _ rfl)
  | lpllUnlock => exact execLpllUnlock_blk _ _ _ _ (hfree _ rfl)
  | clkSwitch => exact execClkSwitch_blk _ _ (hfree _ rfl)
  | clkGate => exact execClkGate_blk _ _ (hfree _ rfl)
  | clkStatus => exact execClkStatus_blk _ _ (hfree _ rfl)
  | gateChange => exact execGateChange_blk _ _ _ _ (hfree _ rfl)
  | standbyEntry => exact execStandbyEntry_blk _ (hfree _ rfl)
  | standbyWake => exact execStandbyWake_blk _ _ _ (hfree _ rfl)
  | standbyExit => exact execStandbyExit_blk _ (hfree _ rfl)
  | standbyMonitorRestart => exact execStandbyMonitorRestart_blk _ _ (hfree _ rfl)
  | sync => exact execSync_blk _ _ _ _ _ _ (hfree _ rfl)
  | syncSend => exact execSyncSend_blk _ (hfree _ rfl)
  | markerMissing => exact execMarkerMissing_blk _ _ (hfree _ rfl)
  | heartbeatSend => exact execHeartbeatSend_blk _ _ (hfree _ rfl)
  | heartbeat => exact execHeartbeat_blk _ _ _ (hfree _ rfl)
  | bridgeDown => exact execBridgeDown_blk _ _ _ (hfree _ rfl)
  | bridgeUp => exact execBridgeUp_blk _ _ _ (hfree _ rfl)
  | bridgeLaneChange => exact execBridgeLaneChange_blk _ _ _ _ _ _ (hfree _ rfl)
  | alignmentBlock => exact execAlignmentBlock_blk _ _ _ _ (hfree _ rfl)
  | ringState => exact execRingState_blk _ _ _ _ (hfree _ rfl)
  | echo => exact execEcho_blk _ _ _ _ (hfree _ rfl)
  | regReq => exact execRegReq_blk _ _ _ _ (hfree _ rfl)
  | regRsp => exact execRegRsp_blk _ _ _ _ (hfree _ rfl)
  | cmdFwd => exact execCmdFwd_blk _ _ _ _ (hfree _ rfl)
  | cmdRsp => exact execCmdRsp_blk _ _ _ _ (hfree _ rfl)
  | evtFwd => exact execEvtFwd_blk _ _ _ _ (hfree _ rfl)
  | ack => exact execAck_blk _ _ _ _ (hfree _ rfl)
  | gcommit => exact execGcommit_blk _ _ _ _ (hfree _ rfl)
  | elect => exact execElect_blk _ _ _ _ (hfree _ rfl)
  | packetResend => exact execPacketResend_blk _ _ _ (hfree _ rfl)
  | packetAbandoned => exact execPacketAbandoned_blk _ _ _ (hfree _ rfl)
  | die0Unavailable => exact execDie0Unavailable_blk _ (hfree _ rfl)
  | leadChanged => exact execLeadChanged_blk _ (hfree _ rfl)
  | leadReturn => exact execLeadReturn_blk _ (hfree _ rfl)
  | dieIsolate => exact execDieIsolate_blk _ _ (hfree _ rfl)
  | dieRestore => exact execDieRestore_blk _ _ (hfree _ rfl)
  | dieReachableAgain => exact execDieReachableAgain_blk _ _ (hfree _ rfl)
  | registerWrite => exact execRegisterWrite_blk _ _ _ _ _ _ (hfree _ rfl)
  | localCommit => exact execLocalCommit_blk _ _ _ _ (hfree _ rfl)
  | globalCommit => exact execGlobalCommit_blk _ _ _ _ (hfree _ rfl)
  | commitDiscard => exact execCommitDiscard_blk _ _ _ _ (hfree _ rfl)
  | wmbSel => exact execWmbSel_blk _ _ _ _ (hfree _ rfl)
  | reservedAccess => exact execReservedAccess_blk _ _ _ _ _ _ (hfree _ rfl)
  | twiWriteFrame => exact execTwiWriteFrame_blk _ _ _ (hfree _ rfl)
  | twiReadFrame => exact execTwiReadFrame_blk _ _ _ (hfree _ rfl)
  | twiWriteBufEmpty => exact execTwiWriteBufEmpty_blk _ _ (hfree _ rfl)
  | twiBusyNack => exact execTwiBusyNack_blk _ _ (hfree _ rfl)
  | twiReadNotReady => exact execTwiReadNotReady_blk _ _ (hfree _ rfl)
  | twiStartInAck => exact execTwiStartInAck_blk _ _ (hfree _ rfl)
  | targetTimeout => exact execTargetTimeout_blk _ _ _ _ (hfree _ rfl)
  | alertResponse => exact execAlertResponse_blk _ _ _ (hfree _ rfl)
  | alertRedrive => exact execAlertRedrive_blk _ _ (hfree _ rfl)
  | parityFault => exact execParityFault_blk _ _ _ _ _ (hfree _ rfl)
  | stagedParityFault => exact execStagedParityFault_blk _ _ _ (hfree _ rfl)
  | ledgerScrubVisit => exact execLedgerScrubVisit_blk _ _ _ _ (hfree _ rfl)
  | crcPassEnd => exact execCrcPassEnd_blk _ _ (hfree _ rfl)
  | sqDoorbell => exact execSqDoorbell_blk _ _ _ _ (hfree _ rfl)
  | cqDoorbell => exact execCqDoorbell_blk _ _ _ _ (hfree _ rfl)
  | lockedSlotWrite => exact execLockedSlotWrite_blk _ _ _ _ (hfree _ rfl)
  | commandFetch => exact execCommandFetch_blk _ _ _ (hfree _ rfl)
  | recordPost => exact execRecordPost_blk _ _ _ (hfree _ rfl)
  | inboxTimeout => exact execInboxTimeout_blk _ _ (hfree _ rfl)
  | nop => exact execNop_blk _ _ (hfree _ rfl)
  | getInfo => exact execGetInfo_blk _ _ (hfree _ rfl)
  | opStatus => exact execOpStatus_blk _ _ (hfree _ rfl)
  | opCancel => exact execOpCancel_blk _ _ (hfree _ rfl)
  | fwStage => exact execFwStage_blk _ _ (hfree _ rfl)
  | fwStageAbort => exact execFwStageAbort_blk _ _ (hfree _ rfl)
  | stagingSessionTimeout => exact execStagingSessionTimeout_blk _ (hfree _ rfl)
  | fwActivate => exact execFwActivate_blk _ _ (hfree _ rfl)
  | fwSwap => exact execFwSwap_blk _ _ (hfree _ rfl)
  | fwReverted => exact execFwReverted_blk _ _ (hfree _ rfl)
  | watchdogExpiry => exact execWatchdogExpiry_blk _ _ (hfree _ rfl)
  | pegRestart => exact execPegRestart_blk _ _ _ (hfree _ rfl)
  | eventCause => exact execEventCause_blk _ _ _ _ _ (hfree _ rfl)
  | eventForward => exact execEventForward_blk _ _ (hfree _ rfl)
  | evtRpWrite => exact execEvtRpWrite_blk _ _ _ (hfree _ rfl)
  | msixEvent => exact execMsixEvent_blk _ _ (hfree _ rfl)
  | twiTransfer => exact execTwiTransfer_blk _ _ (hfree _ rfl)
  | moduleIdentify => exact execModuleIdentify_blk _ _ (hfree _ rfl)
  | arbLost => exact execArbLost_blk _ _ _ _ _ (hfree _ rfl)
  | stretchTimeout => exact execStretchTimeout_blk _ _ _ _ _ (hfree _ rfl)
  | busClear => exact execBusClear_blk _ _ _ _ _ (hfree _ rfl)
  | busError => exact execBusError_blk _ _ _ _ _ (hfree _ rfl)
  | hkConversionEnd => exact execHkConversionEnd_blk _ _ _ (hfree _ rfl)
  | hkStrokeTrigger => exact execHkStrokeTrigger_blk _ _ _ _ (hfree _ rfl)
  | hkPwmEdge => exact execHkPwmEdge_blk _ _ _ _ (hfree _ rfl)
  | hkDelayEnd => exact execHkDelayEnd_blk _ _ _ (hfree _ rfl)
  | overrun => exact execOverrun_blk _ _ _ (hfree _ rfl)
  | hkSeqDefine => exact execHkSeqDefine_blk _ _ (hfree _ rfl)
  | hkInject => exact execHkInject_blk _ _ (hfree _ rfl)
  | hkCalibrate => exact execHkCalibrate_blk _ _ (hfree _ rfl)
  | calDone => exact execCalDone_blk _ _ (hfree _ rfl)
  | hkRpWrite => exact execHkRpWrite_blk _ _ _ (hfree _ rfl)
  | tempCritical => exact execTempCritical_blk _ _ _ (hfree _ rfl)
  | tempCritCleared => exact execTempCritCleared_blk _ _ (hfree _ rfl)
  | pwmLoad => exact execPwmLoad_blk _ _ (hfree _ rfl)
  | pwmWrap => exact execPwmWrap_blk _ _ _ (hfree _ rfl)
  | pwmSet => exact execPwmSet_blk _ _ (hfree _ rfl)
  | liveCopy => exact execLiveCopy_blk _ _ (hfree _ rfl)
  | cntSnapshot => exact execCntSnapshot_blk _ _ (hfree _ rfl)
  | meterWindowEnd => exact execMeterWindowEnd_blk _ _ _ _ (hfree _ rfl)
  | taggedSample => exact execTaggedSample_blk _ _ _ _ _ (hfree _ rfl)
  | profileSample => exact execProfileSample_blk _ _ _ (hfree _ rfl)
  | tagTagging => exact execTagTagging_blk _ _ (hfree _ rfl)
  | tagMeter => exact execTagMeter_blk _ _ (hfree _ rfl)
  | tagProfiling => exact execTagProfiling_blk _ _ (hfree _ rfl)
  | bistRun => exact execBistRun_blk _ _ (hfree _ rfl)
  | workSliceEnd => exact execWorkSliceEnd_blk _ _ _ _ (hfree _ rfl)
  | sliceAborted => exact execSliceAborted_blk _ _ _ _ (hfree _ rfl)
  | testEnded => exact execTestEnded_blk _ _ _ _ _ _ _ (hfree _ rfl)
  | bistResult => exact execBistResult_blk _ _ (hfree _ rfl)
  | repairSoft => exact execRepairSoft_blk _ _ (hfree _ rfl)
  | repairFuse => exact execRepairFuse_blk _ _ (hfree _ rfl)
  | fuseWritten => exact execFuseWritten_blk _ _ (hfree _ rfl)
  | nvRead => exact execNvRead_blk _ _ _ (hfree _ rfl)
  | nvWrite => exact execNvWrite_blk _ _ (hfree _ rfl)
  | nvWorn => exact execNvWorn_blk _ _ (hfree _ rfl)
  | mirrorResync => exact execMirrorResync_blk _ (hfree _ rfl)
  | calRead => exact execCalRead_blk _ _ _ _ (hfree _ rfl)
  | calWrite => exact execCalWrite_blk _ _ (hfree _ rfl)
  | jtagInstruction => exact execJtagInstruction_blk _ _ _ (hfree _ rfl)
  | cdrLocked => exact execCdrLocked_blk _ _ _ _ (hfree _ rfl)
  | outgoingFrameBoundary => exact execOutgoingFrameBoundary_blk _ _ _ _ (hfree _ rfl)
  | twiTransferEnd => exact execTwiTransferEnd_blk _ _ _ _ _ _ (hfree _ rfl)
  | msixUnmask => exact execMsixUnmask_blk _ _ _ (hfree _ rfl)
  | otherAccessDieUnavailable => exact execOtherAccessDieUnavailable_blk _ (hfree _ rfl)

/-- A block that the answer keeps is the same on every die. -/
theorem Keeps.die {s t : State} {r : Result} (hk : Keeps β s r) (ht : r = .next t) (d : DieId) :
    (t.die d).blk β = (s.die d).blk β := by
  rw [State.die_blk, State.die_blk, hk t ht]

end Sys2Proof.Machine
end

section
/-! PROOFS. The configuration of every die. -/

open Sys2Proof Sys2Proof.Machine

/-- Settles O7: each of the three tables names every row that may write its block, so outside it exec_keeps gives the block of
every die back. -/
theorem configurationFrame : Obligations.ConfigurationFrame := by
  unfold Obligations.ConfigurationFrame
  intro c s t ht
  have hkept : ∀ b : Blk, b.writtenBy c = false → ∀ d : DieId, (t.die d).blk b = (s.die d).blk b :=
    fun b hb => (exec_keeps c s hb).die ht
  refine ⟨fun hactive d => ?_, fun hstaged d => ?_, fun hledger d => ?_⟩
  · exact (congrArg Die.active (hkept .active hactive d) :)
  · have hstaging := hkept .staging hstaged d
    exact ⟨(congrArg Die.staged hstaging :), (congrArg Die.pend hstaging :)⟩
  · exact (congrArg Die.ledger (hkept .ledger hledger d) :)
end

section
/-! SUPPORT. The work of fret 0 (R31), function by function: the blocks it may write. The lemmas go on from those of the rows
outside the boundary, down to State.boundary_blk. -/

set_option Elab.async false

namespace Sys2Proof.Machine

variable {β : Blk}

/-- The blocks that the work of fret 0 may write beside the memories, the lead die and the position (R31). -/
def fretZero : List Blk :=
  [.active, .staging, .ledger, .slices, .pins, .txs, .ports, .courses, .stroke, .clk, .prot, .twi, .hk, .bist, .cal, .images,
    .free] ++ carriers

@[simp] theorem mem_fretZero : β ∈ fretZero ↔ β = .active ∨ β = .staging ∨ β = .ledger ∨ β = .slices ∨ β = .pins ∨ β = .txs ∨
    β = .ports ∨ β = .courses ∨ β = .stroke ∨ β = .clk ∨ β = .prot ∨ β = .twi ∨ β = .hk ∨ β = .bist ∨ β = .cal ∨ β = .images ∨
    β = .free ∨ β ∈ carriers := by
  simp [fretZero]

/-- A fold that carries a list beside the state keeps what each of its steps keeps. -/
theorem State.foldl_fst_blk {α γ : Type} (f : State × γ → α → State × γ) (l : List α) (r : State × γ)
    (h : ∀ r a, (f r a).1.blk β = r.1.blk β) : (l.foldl f r).1.blk β = r.1.blk β := by
  induction l generalizing r with
  | nil => rfl
  | cons a l ih => rw [List.foldl_cons, ih, h]

@[simp ↓] theorem Die.setLed_blk (x : Die) (o : Nat) (v : Half) (hb : β ∉ [Blk.ledger, .prot]) :
    (x.setLed o v).blk β = x.blk β := by
  cases β <;> simp at hb <;> rfl

@[simp ↓] theorem State.gatesFor_blk (s : State) (d : DieId) (n : Nat) (hb : β ∉ [Blk.txs, .courses, .clk, .evt, .tele]) :
    (s.gatesFor d n).blk β = s.blk β := by
  simp_all [State.gatesFor]

@[simp ↓] theorem State.dropUnreached_blk (s : State) (d : DieId) (hb : β ∉ [Blk.brg, .evt]) :
    (s.dropUnreached d).blk β = s.blk β := by
  simp_all [State.dropUnreached]

@[simp ↓] theorem State.leadless_blk (s : State) (hb : β ∉ [Blk.stroke, .mode]) :
    (s.leadless).blk β = s.blk β := by
  simp_all [State.leadless]

@[simp ↓] theorem State.resyncAt_blk (s : State) (m : DieId) (hb : β ∉ [Blk.nv]) :
    (s.resyncAt m).blk β = s.blk β := by
  simp_all [State.resyncAt]

@[simp ↓] theorem State.loadCal_blk (s : State) (d : DieId) (hb : β ∉ [Blk.cal]) :
    (s.loadCal d).blk β = s.blk β := by
  simp_all [State.loadCal]

@[simp ↓] theorem State.prsChange_blk (s : State) (o : PrsObs) (hb : β ∉ [Blk.courses, .tele]) :
    (s.prsChange o).blk β = s.blk β := by
  simp_all [State.prsChange]

@[simp ↓] theorem State.limitsAt_blk (s : State) (d : DieId) (on : List Nat) (hb : β ∉ [Blk.txs, .tele]) :
    (s.limitsAt d on).blk β = s.blk β := by
  simp_all [State.limitsAt]

@[simp ↓] theorem Die.loadStart_blk (x : Die) (c : Nat) (h : Side) (n pos start : Nat) (tap : Bool)
    (hb : β ∉ [Blk.active, .slices, .tele]) :
    (x.loadStart c h n pos start tap).blk β = x.blk β := by
  simp_all [Die.loadStart]

@[simp ↓] theorem State.attach_blk (s : State) (d : DieId) (c : Nat) (h : Side)
    (hb : β ∉ [Blk.active, .slices, .txs, .courses, .clk, .evt, .tele]) :
    (s.attach d c h).blk β = s.blk β := by
  simp_all [State.attach]

@[simp ↓] theorem State.hoSwitch_blk (s : State) (d : DieId) (c : Nat) (h : Side)
    (hb : β ∉ [Blk.slices, .courses] ++ carriers) :
    (s.hoSwitch d c h).blk β = s.blk β := by
  simp at hb
  simp only [State.hoSwitch]
  (repeat' split) <;> simp [hb]

@[simp ↓] theorem State.hoProgress_blk (s : State) (d : DieId) (c : Nat) (h : Side) (n : Nat) (hb : β ∉ carriers) :
    (s.hoProgress d c h n).blk β = s.blk β := by
  simp at hb
  simp only [State.hoProgress]
  (repeat' split) <;> simp [hb]

@[simp ↓] theorem State.hoOpen_blk (s : State) (d : DieId) (c : Nat) (h : Side)
    (hb : β ∉ [Blk.slices, .courses, .bist, .free] ++ carriers) :
    (s.hoOpen d c h).blk β = s.blk β := by
  simp_all [State.hoOpen]

@[simp ↓] theorem State.hoStep_blk (s : State) (d : DieId) (c : Nat) (h : Side)
    (hb : β ∉ [Blk.slices, .courses, .bist, .free] ++ carriers) :
    (s.hoStep d c h).blk β = s.blk β := by
  simp_all [State.hoStep]

@[simp ↓] theorem State.eyeBegin_blk (s : State) (d : DieId) (c : Nat) (h : Side) (o : Op)
    (hb : β ∉ [Blk.slices, .peg, .evt, .tele, .sram]) :
    (s.eyeBegin d c h o).blk β = s.blk β := by
  simp_all [State.eyeBegin]

@[simp ↓] theorem State.eyeAt_blk (s : State) (o : EyeObs) (hb : β ∉ [Blk.peg]) :
    (s.eyeAt o).blk β = s.blk β := by
  simp at hb
  simp only [State.eyeAt]
  (repeat' split) <;> simp [hb]

@[simp ↓] theorem State.eyeStepAt_blk (s : State) (d : DieId) (c : Nat) (h : Side) (o : Op)
    (hb : β ∉ [Blk.slices, .courses, .sram] ++ carriers) :
    (s.eyeStepAt d c h o).blk β = s.blk β := by
  simp_all [State.eyeStepAt]

@[simp ↓] theorem State.rotSide_blk (s : State) (d : DieId) (c : Nat) (h : Side) (hb : β ∉ [Blk.sram] ++ fretZero) :
    (s.rotSide d c h).blk β = s.blk β := by
  simp at hb
  unfold State.rotSide
  extract_lets x r why u v w
  have hu : u.blk β = s.blk β := by simp [u, hb]
  have hv : v.blk β = s.blk β := by simp only [v]; split <;> simp [hu, hb]
  have hw : w.blk β = s.blk β := by simp [w, hv, hb]
  (repeat' split) <;> simp [hw, hb]

@[simp ↓] theorem State.trainFail_blk (s : State) (p : PortId) (reason : Nat) (hb : β ∉ [Blk.ports, .courses] ++ carriers) :
    (s.trainFail p reason).blk β = s.blk β := by
  simp_all [State.trainFail]

@[simp ↓] theorem State.laneStart_blk (s : State) (d : DieId) (c : Nat) (h : Side) (j : Nat)
    (hb : β ∉ [Blk.active, .slices, .pins, .evt, .tele]) :
    (s.laneStart d c h j).blk β = s.blk β := by
  simp_all [State.laneStart]

@[simp ↓] theorem State.sessStart_blk (s : State) (p : PortId) (keep : Option Side)
    (hb : β ∉ [Blk.active, .slices, .pins, .ports, .courses, .evt, .tele]) :
    (s.sessStart p keep).blk β = s.blk β := by
  simp at hb
  simp only [State.sessStart]
  (repeat' split) <;> simp [hb]

@[simp ↓] theorem State.sentAt_blk (s : State) (o : SentObs) (hb : β ∉ [Blk.txs, .tele]) :
    (s.sentAt o).blk β = s.blk β := by
  simp at hb
  simp only [State.sentAt]
  (repeat' split) <;> simp [hb]

@[simp ↓] theorem Die.count64_blk (x : Die) (o n : Nat) (hb : β ∉ [Blk.tele]) :
    (x.count64 o n).blk β = x.blk β := by
  simp_all [Die.count64]

@[simp ↓] theorem State.fecCount_blk (s : State) (o : FecObs) (hb : β ∉ [Blk.ports, .tele]) :
    (s.fecCount o).blk β = s.blk β := by
  simp at hb
  unfold State.fecCount
  extract_lets p v a b hist sym u w
  have hu : u.blk β = s.blk β := by simp [u, hb]
  have hw : w.blk β = s.blk β := by simp only [w]; split <;> simp [hu, hb]
  split
  · rfl
  · split
    · split <;> simp [hw, hb]
    · split
      · exact State.foldl_blk s _ _ (fun t k => by simp [hb])
      · rfl

@[simp ↓] theorem State.agreeAt_blk (s : State) (o : AgreeObs) (hb : β ∉ [Blk.courses, .tele]) :
    (s.agreeAt o).blk β = s.blk β := by
  simp at hb
  simp only [State.agreeAt]
  (repeat' split) <;> simp [hb]

@[simp ↓] theorem State.latReturn_blk (s : State) (d : DieId) (c : Nat) (hb : β ∉ [Blk.ports]) :
    (s.latReturn d c).blk β = s.blk β := by
  simp_all [State.latReturn]

@[simp ↓] theorem State.latticesAt_blk (s : State) (d : DieId) (hb : β ∉ [Blk.ports, .courses, .tele]) :
    (s.latticesAt d).blk β = s.blk β := by
  simp_all [State.latticesAt]

@[simp ↓] theorem State.fillAt_blk (s : State) (o : FillObs) (hb : β ∉ [Blk.courses, .tele]) :
    (s.fillAt o).blk β = s.blk β := by
  unfold State.fillAt
  split <;> simp_all

@[simp ↓] theorem State.pairsAt_blk (s : State) (d : DieId) (c : Nat) (hb : β ∉ [Blk.courses, .tele]) :
    (s.pairsAt d c).blk β = s.blk β := by
  simp_all [State.pairsAt]

@[simp ↓] theorem State.startAuto_blk (s : State) (d : DieId) (t : Test) (hb : β ∉ [Blk.bist, .tele]) :
    (s.startAuto d t).blk β = s.blk β := by
  simp_all [State.startAuto]

@[simp ↓] theorem State.substitute_blk (s : State) (d : DieId) (c : Nat) (side : Side)
    (hb : β ∉ [Blk.slices, .ports, .courses, .evt, .bist, .tele]) :
    (s.substitute d c side).blk β = s.blk β := by
  simp_all [State.substitute]

@[simp ↓] theorem State.substAt_blk (s : State) (d : DieId) (c : Nat) (h : Side)
    (hb : β ∉ [Blk.slices, .ports, .courses, .evt, .bist, .tele]) :
    (s.substAt d c h).blk β = s.blk β := by
  simp_all [State.substAt]

@[simp ↓] theorem State.releaseHeld_blk (s : State) (d : DieId) (hb : β ∉ [Blk.stroke, .brg, .peg, .ring]) :
    (s.releaseHeld d).blk β = s.blk β := by
  simp_all [State.releaseHeld]

@[simp ↓] theorem State.relockAt_blk (s : State) (d : DieId) (c : Nat) (hb : β ∉ [Blk.slices, .courses, .evt, .tele]) :
    (s.relockAt d c).blk β = s.blk β := by
  simp_all [State.relockAt]

@[simp ↓] theorem State.clkSelect_blk (s : State) (d : DieId) (sysBad : Bool) (hb : β ∉ [Blk.courses, .clk, .evt, .tele]) :
    (s.clkSelect d sysBad).blk β = s.blk β := by
  simp at hb
  simp only [State.clkSelect]
  (repeat' split) <;> simp [hb]

@[simp ↓] theorem State.clkJudge_blk (s : State) (d : DieId) (sysBad : Bool) (hb : β ∉ [Blk.evt, .tele]) :
    (s.clkJudge d sysBad).blk β = s.blk β := by
  simp_all [State.clkJudge]

@[simp ↓] theorem State.spRestart_blk (s : State) (d : DieId) (hb : β ∉ [Blk.clk, .evt, .tele]) :
    (s.spRestart d).blk β = s.blk β := by
  simp_all [State.spRestart]

@[simp ↓] theorem State.gatesAt_blk (s : State) (d : DieId) (hb : β ∉ [Blk.txs, .courses, .clk, .evt, .tele]) :
    (s.gatesAt d).blk β = s.blk β := by
  simp_all [State.gatesAt]

@[simp ↓] theorem Die.takeSnap_blk (x : Die) (n range : Nat) (hb : β ∉ [Blk.tele]) :
    (x.takeSnap n range).blk β = x.blk β := by
  simp_all [Die.takeSnap]

@[simp ↓] theorem State.snapRelease_blk (s : State) (d : DieId) (hb : β ∉ [Blk.stroke, .brg, .peg, .tele, .ring]) :
    (s.snapRelease d).blk β = s.blk β := by
  unfold State.snapRelease
  split <;> simp_all

@[simp ↓] theorem State.tagApply_blk (s : State) (k : Packet) (hb : β ∉ [Blk.ports, .tele]) :
    (s.tagApply k).blk β = s.blk β := by
  unfold State.tagApply
  split <;> simp_all

@[simp ↓] theorem Die.crcStroke_blk (x : Die) (access : Bool) (hb : β ∉ [Blk.prot]) :
    (x.crcStroke access).blk β = x.blk β := by
  simp_all [Die.crcStroke]

@[simp ↓] theorem Die.crcDirty_blk (x : Die) (hb : β ∉ [Blk.prot]) :
    (x.crcDirty).blk β = x.blk β := by
  simp_all [Die.crcDirty]

@[simp ↓] theorem State.twiBegin_blk (s : State) (d : DieId) (m : Nat) (o : Op) (hb : β ∉ [Blk.peg, .twi, .tele]) :
    (s.twiBegin d m o).blk β = s.blk β := by
  simp_all [State.twiBegin]

@[simp ↓] theorem State.mcDisable_blk (s : State) (d : DieId) (m : Nat) (hb : β ∉ [Blk.twi] ++ carriers) :
    (s.mcDisable d m).blk β = s.blk β := by
  simp_all [State.mcDisable]

@[simp ↓] theorem State.twiSeen_blk (s : State) (l : List TwiObs) (hb : β ∉ [Blk.twi]) :
    (s.twiSeen l).blk β = s.blk β := by
  simp_all [State.twiSeen]

@[simp ↓] theorem State.sclStuck_blk (s : State) (d : DieId) (m : Nat) (hb : β ∉ [Blk.twi] ++ carriers) :
    (s.sclStuck d m).blk β = s.blk β := by
  simp at hb
  simp only [State.sclStuck]
  (repeat' split) <;> simp [hb]

@[simp ↓] theorem State.checkLines_blk (s : State) (d : DieId) (m : Nat) (hb : β ∉ [Blk.twi] ++ carriers) :
    (s.checkLines d m).blk β = s.blk β := by
  simp_all [State.checkLines]

@[simp ↓] theorem State.twiProgress_blk (s : State) (d : DieId) (m : Nat) (hb : β ∉ carriers) :
    (s.twiProgress d m).blk β = s.blk β := by
  unfold State.twiProgress
  split <;> simp_all

@[simp ↓] theorem State.mcAt_blk (s : State) (d : DieId) (m : Nat) (hb : β ∉ [Blk.twi] ++ carriers) :
    (s.mcAt d m).blk β = s.blk β := by
  simp at hb
  simp only [State.mcAt]
  (repeat' split) <;> simp [hb]

@[simp ↓] theorem State.testAt_blk (s : State) (d : DieId) (t : Test) (hb : β ∉ fretZero) :
    (s.testAt d t).blk β = s.blk β := by
  unfold State.testAt
  split <;> simp_all

@[simp ↓] theorem Die.standby_blk (x : Die) (ver sec : Nat) (hb : β ∉ [Blk.peg]) :
    (x.standby ver sec).blk β = x.blk β := by
  simp_all [Die.standby]

@[simp ↓] theorem State.persist_blk (s : State) (d : DieId) (img : SMap Byte) (len : Nat) (hb : β ∉ [Blk.evt, .nv, .tele]) :
    (s.persist d img len).1.blk β = s.blk β := by
  simp_all [State.persist]

@[simp ↓] theorem State.stageDone_blk (s : State) (d : DieId) (o : Op) (hb : β ∉ [Blk.nv] ++ carriers) :
    (s.stageDone d o).blk β = s.blk β := by
  simp at hb
  simp only [State.stageDone]
  (repeat' split) <;> simp [hb]

@[simp ↓] theorem State.stageLast_blk (s : State) (d : DieId) (hb : β ∉ [Blk.nv] ++ carriers) :
    (s.stageLast d).blk β = s.blk β := by
  unfold State.stageLast
  split <;> simp_all

@[simp ↓] theorem State.fwRelease_blk (s : State) (d : DieId) (hb : β ∉ [Blk.stroke, .brg, .peg, .images, .ring]) :
    (s.fwRelease d).blk β = s.blk β := by
  simp_all [State.fwRelease]

@[simp ↓] theorem State.portOn_blk (s : State) (p : PortId) (reason : Nat) (hb : β ∉ [Blk.ports, .courses, .evt, .tele]) :
    (s.portOn p reason).blk β = s.blk β := by
  simp_all [State.portOn]

@[simp ↓] theorem Die.restage_blk (x : Die) (o : Nat) (v : Half) (hb : β ∉ [Blk.staging]) :
    (x.restage o v).blk β = x.blk β := by
  simp_all [Die.restage]

@[simp ↓] theorem Die.unstage1_blk (x : Die) (o : Nat) (hb : β ∉ [Blk.staging]) :
    (x.unstage1 o).blk β = x.blk β := by
  simp_all [Die.unstage1]

@[simp ↓] theorem Die.commit_blk (x : Die) (o : Nat) (v : Half) (hb : β ∉ [Blk.active, .ledger, .prot]) :
    (x.commit o v).blk β = x.blk β := by
  simp_all [Die.commit]

@[simp ↓] theorem State.judgeReg_blk (s : State) (d : DieId) (o : Nat) (hb : β ∉ [Blk.staging, .evt, .tele]) :
    (s.judgeReg d o).blk β = s.blk β := by
  simp at hb
  simp only [State.judgeReg]
  (repeat' split) <;> simp [hb]

@[simp ↓] theorem State.judgeTaps_blk (s : State) (d : DieId) (t : Nat) (hb : β ∉ [Blk.staging, .evt, .tele]) :
    (s.judgeTaps d t).blk β = s.blk β := by
  simp at hb
  simp only [State.judgeTaps]
  (repeat' split) <;> simp [hb]

@[simp ↓] theorem State.judgePwm_blk (s : State) (d : DieId) (p : Nat) (hb : β ∉ [Blk.staging, .evt, .tele]) :
    (s.judgePwm d p).blk β = s.blk β := by
  simp_all [State.judgePwm]

@[simp ↓] theorem State.judgeProfile_blk (s : State) (p : PortId) (hb : β ∉ [Blk.staging, .evt, .tele]) :
    (s.judgeProfile p).blk β = s.blk β := by
  simp at hb
  unfold State.judgeProfile
  simp only
  split
  · refine State.foldl_blk s _ _ (fun t o => ?_)
    (repeat' split) <;> simp [hb]
  · rfl

@[simp ↓] theorem State.offBefore_blk (s : State) (p : PortId) (hb : β ∉ fretZero) :
    (s.offBefore p).1.blk β = s.blk β := by
  simp at hb
  simp only [State.offBefore]
  (repeat' split) <;> simp [hb]

@[simp ↓] theorem Die.clearOvr_blk (x : Die) (l : List Nat) (hb : β ∉ [Blk.active, .ledger, .prot]) :
    (x.clearOvr l).blk β = x.blk β := by
  simp_all [Die.clearOvr]

@[simp ↓] theorem State.profileAt_blk (s : State) (p : PortId) (hb : β ∉ [Blk.ports]) :
    (s.profileAt p).blk β = s.blk β := by
  simp_all [State.profileAt]

@[simp ↓] theorem State.onAfter_blk (s : State) (p : PortId) (hit : Bool) (hb : β ∉ [Blk.ports, .courses, .evt, .tele]) :
    (s.onAfter p hit).blk β = s.blk β := by
  simp_all [State.onAfter]

@[simp ↓] theorem State.onAfterIsolated_blk (s : State) (p : PortId) (hit : Bool) (hb : β ∉ [Blk.evt, .tele]) :
    (s.onAfterIsolated p hit).blk β = s.blk β := by
  simp_all [State.onAfterIsolated]

@[simp ↓] theorem Die.applyRegs_blk (x : Die) (g : Nat) (l : List Nat) (hb : β ∉ [Blk.active, .staging, .ledger, .prot]) :
    (x.applyRegs g l).blk β = x.blk β := by
  simp at hb
  unfold Die.applyRegs
  extract_lets kept y
  have hy : y.blk β = x.blk β := by
    refine Die.foldl_blk x _ _ (fun z o => ?_)
    split <;> simp [hb]
  simp [hy, hb]

@[simp ↓] theorem State.queueAt_blk (s : State) (d : DieId) (n : QueueId) (hb : β ∉ [Blk.brg, .peg, .queues, .ring]) :
    (s.queueAt d n).blk β = s.blk β := by
  simp_all [State.queueAt]

@[simp ↓] theorem State.takeUp_blk (s : State) (d : DieId) (g : Nat) (old : Die) (l : List Nat)
    (hb : β ∉ [Blk.courses, .clk, .twi, .hk] ++ carriers) :
    (s.takeUp d g old l).blk β = s.blk β := by
  simp_all [State.takeUp]

@[simp ↓] theorem State.dpRestart_blk (s : State) (d : DieId) (c : Nat) (l : List Nat) (hb : β ∉ [Blk.ports]) :
    (s.dpRestart d c l).blk β = s.blk β := by
  simp_all [State.dpRestart]

@[simp ↓] theorem State.heldOverrides_blk (s : State) (d : DieId) (l : List Nat) (hb : β ∉ [Blk.evt, .tele]) :
    (s.heldOverrides d l).blk β = s.blk β := by
  simp_all [State.heldOverrides]

@[simp ↓] theorem State.windowHits_blk (s : State) (d : DieId) (c : Nat) (l : List Nat) (hb : β ∉ [Blk.courses, .tele]) :
    (s.windowHits d c l).blk β = s.blk β := by
  simp_all [State.windowHits]

@[simp ↓] theorem State.attachChange_blk (s : State) (p : PortId) (was : Bool) (hb : β ∉ [Blk.ports]) :
    (s.attachChange p was).blk β = s.blk β := by
  simp_all [State.attachChange]

@[simp ↓] theorem State.applyCourse_blk (s : State) (d : DieId) (c : Nat) (hb : β ∉ fretZero) :
    (s.applyCourse d c).blk β = s.blk β := by
  simp at hb
  unfold State.applyCourse
  extract_lets -lift old ports u hits
  have hu : u.blk β = s.blk β := by simp [u, hb]
  have hq := State.foldl_fst_blk (β := β)
    (fun (r : State × List Nat) p => ((r.1.offBefore p).1, r.2 ++ (r.1.offBefore p).2)) ports (u, []) (fun r p => by simp [hb])
  split
  next w txs hw =>
  replace hw : w.blk β = s.blk β := by
    simpa [hw, hu] using hq
  simp [hw, hb]

@[simp ↓] theorem State.applyGroup_blk (s : State) (d : DieId) (g : Nat) (hb : β ∉ fretZero) :
    (s.applyGroup d g).blk β = s.blk β := by
  simp_all [State.applyGroup]

@[simp ↓] theorem State.applyDue_blk (s : State) (d : DieId) (hb : β ∉ fretZero) :
    (s.applyDue d).blk β = s.blk β := by
  simp_all [State.applyDue]

@[simp ↓] theorem State.lossActions_blk (s : State) (p : PortId) (hb : β ∉ [Blk.txs, .tele]) :
    (s.lossActions p).blk β = s.blk β := by
  simp_all [State.lossActions]

@[simp ↓] theorem State.laneEvent_blk (s : State) (p : PortId) (h : Side) (lost : Bool) (j : Nat) (hb : β ∉ [Blk.evt, .tele]) :
    (s.laneEvent p h lost j).blk β = s.blk β := by
  simp_all [State.laneEvent]

@[simp ↓] theorem State.laneEvents_blk (s : State) (p : PortId) (h : Side) (hb : β ∉ [Blk.ports, .courses, .evt, .tele]) :
    (s.laneEvents p h).blk β = s.blk β := by
  simp_all [State.laneEvents]

@[simp ↓] theorem State.departed_blk (s : State) (p : PortId) (hb : β ∉ [Blk.evt, .tele]) :
    (s.departed p).blk β = s.blk β := by
  simp_all [State.departed]

@[simp ↓] theorem State.toVacant_blk (s : State) (p : PortId) (hb : β ∉ [Blk.txs, .ports, .courses] ++ carriers) :
    (s.toVacant p).blk β = s.blk β := by
  simp_all [State.toVacant]

@[simp ↓] theorem State.toDetected_blk (s : State) (p : PortId) (kept : Option Side)
    (hb : β ∉ [Blk.txs, .ports, .courses, .evt, .tele]) :
    (s.toDetected p kept).blk β = s.blk β := by
  simp_all [State.toDetected]

@[simp ↓] theorem State.toCarrying_blk (s : State) (p : PortId) (hb : β ∉ [Blk.txs, .ports, .courses] ++ carriers) :
    (s.toCarrying p).blk β = s.blk β := by
  simp_all [State.toCarrying]

@[simp ↓] theorem State.toLost_blk (s : State) (p : PortId) (line : Bool)
    (hb : β ∉ [Blk.txs, .ports, .courses, .evt, .tele, .free]) :
    (s.toLost p line).blk β = s.blk β := by
  simp_all [State.toLost]

@[simp ↓] theorem State.portAt_blk (s : State) (p : PortId) (hb : β ∉ fretZero) :
    (s.portAt p).blk β = s.blk β := by
  simp at hb
  simp only [State.portAt]
  (repeat' split) <;> simp [hb]

@[simp ↓] theorem Die.portQuiet_blk (x : Die) (n : Nat) (hb : β ∉ [Blk.ports]) :
    (x.portQuiet n).blk β = x.blk β := by
  simp_all [Die.portQuiet]

@[simp ↓] theorem State.portBoundary_blk (s : State) (p : PortId) (hb : β ∉ fretZero) :
    (s.portBoundary p).blk β = s.blk β := by
  simp_all [State.portBoundary]

@[simp ↓] theorem State.markIsol_blk (s : State) (a d : DieId) (on : Bool) (hb : β ∉ [Blk.brg]) :
    (s.markIsol a d on).blk β = s.blk β := by
  simp_all [State.markIsol]

@[simp ↓] theorem State.tellIsolated_blk (s : State) (d : DieId) (lost : Bool) (hb : β ∉ [Blk.brg, .evt, .tele]) :
    (s.tellIsolated d lost).blk β = s.blk β := by
  simp at hb
  simp only [State.tellIsolated]
  (repeat' split) <;> simp [hb]

@[simp ↓] theorem State.isolateAt_blk (s : State) (d : DieId) (hb : β ∉ fretZero) :
    (s.isolateAt d).blk β = s.blk β := by
  simp_all [State.isolateAt]

@[simp ↓] theorem State.lostAt_blk (s : State) (d : DieId) (hb : β ∉ [Blk.brg, .evt, .tele]) :
    (s.lostAt d).blk β = s.blk β := by
  simp_all [State.lostAt]

@[simp ↓] theorem Die.reinit_blk (x : Die) (hb : β ∉ [Blk.active, .slices, .pins, .txs, .ports, .courses]) :
    (x.reinit).blk β = x.blk β := by
  cases β <;> simp at hb <;> rfl

@[simp ↓] theorem State.useLedger_blk (s : State) (d : DieId) (hb : β ∉ [Blk.active, .courses, .clk, .twi, .hk] ++ carriers) :
    (s.useLedger d).blk β = s.blk β := by
  simp at hb
  simp only [State.useLedger]
  (repeat' split) <;> simp [hb]

@[simp ↓] theorem State.loadLedger_blk (s : State) (d : DieId) (hb : β ∉ fretZero) :
    (s.loadLedger d).blk β = s.blk β := by
  simp_all [State.loadLedger]

@[simp ↓] theorem State.adoptCount_blk (s : State) (d : DieId) (hb : β ∉ [Blk.stroke, .brg, .peg]) :
    (s.adoptCount d).blk β = s.blk β := by
  simp_all [State.adoptCount]

@[simp ↓] theorem State.rejoin_blk (s : State) (d : DieId) (o : Op) (hb : β ∉ fretZero) :
    (s.rejoin d o).blk β = s.blk β := by
  simp_all [State.rejoin]

@[simp ↓] theorem State.restoreAt_blk (s : State) (d : DieId) (hb : β ∉ fretZero) :
    (s.restoreAt d).blk β = s.blk β := by
  simp at hb
  simp only [State.restoreAt]
  (repeat' split) <;> simp [hb]

@[simp ↓] theorem State.sliceAt_blk (s : State) (d : DieId) (n : Nat) (o : Option SliceObs)
    (hb : β ∉ [Blk.slices, .evt, .tele]) :
    (s.sliceAt d n o).blk β = s.blk β := by
  unfold State.sliceAt
  split <;> simp_all

@[simp ↓] theorem State.measure_blk (s : State) (obs : BoundaryObs)
    (hb : β ∉ [Blk.slices, .txs, .ports, .courses, .peg, .evt, .twi, .tele]) :
    (s.measure obs).blk β = s.blk β := by
  simp at hb
  unfold State.measure
  extract_lets u1 u2 u3 u4 u5
  have h5 : u5.blk β = s.blk β := by simp [u5, u4, u3, u2, u1, hb]
  refine (State.onAll_blk u5 _ fun t d => State.foldl_blk t _ _ fun v n => ?_).trans h5
  exact State.sliceAt_blk v d n _ (by simp [hb])

@[simp ↓] theorem Die.newStroke_blk (x : Die) (back : Bool) (hb : β ∉ [Blk.stroke, .brg, .evt, .tele]) :
    (x.newStroke back).blk β = x.blk β := by
  simp_all [Die.newStroke]

@[simp ↓] theorem State.snapsAt_blk (s : State) (d : DieId) (hb : β ∉ [Blk.stroke, .tele]) :
    (s.snapsAt d).blk β = s.blk β := by
  simp at hb
  simp only [State.snapsAt]
  (repeat' split) <;> simp [hb]

@[simp ↓] theorem State.routesAt_blk (s : State) (d : DieId) (hb : β ∉ [Blk.brg, .evt, .tele, .ring]) :
    (s.routesAt d).blk β = s.blk β := by
  simp_all [State.routesAt]

@[simp ↓] theorem State.ringAt_blk (s : State) (hb : β ∉ [Blk.stroke, .brg, .peg, .evt, .tele, .mode, .images, .ring]) :
    (s.ringAt).blk β = s.blk β := by
  simp at hb
  simp only [State.ringAt]
  (repeat' split) <;> simp [hb]

@[simp ↓] theorem State.parityAt_blk (s : State) (d : DieId) (hb : β ∉ [Blk.active, .prot, .evt, .tele]) :
    (s.parityAt d).blk β = s.blk β := by
  simp_all [State.parityAt]

@[simp ↓] theorem State.attachPolicy_blk (s : State) (d : DieId) (key : Nat) (hold : Bool)
    (hb : β ∉ [Blk.active, .staging, .ledger, .ports, .prot]) :
    (s.attachPolicy d key hold).blk β = s.blk β := by
  simp at hb
  unfold State.attachPolicy
  extract_lets p o x was put u
  have hu : u.blk β = s.blk β := by
    simp only [u, State.onDie_blk]
    split <;> simp [hb]
  split
  · exact hu
  · simp [hu, hb]

@[simp ↓] theorem State.answerAt_blk (s : State) (d : DieId) (a : Await) (hb : β ∉ [Blk.ports, .hk] ++ carriers) :
    (s.answerAt d a).blk β = s.blk β := by
  simp at hb
  simp only [State.answerAt]
  (repeat' split) <;> simp [hb]

@[simp ↓] theorem State.answersAt_blk (s : State) (d : DieId) (hb : β ∉ [Blk.ports, .hk] ++ carriers) :
    (s.answersAt d).blk β = s.blk β := by
  simp_all [State.answersAt]

@[simp ↓] theorem State.policiesAt_blk (s : State) (d : DieId) (hb : β ∉ [Blk.active, .staging, .ledger, .ports, .prot]) :
    (s.policiesAt d).blk β = s.blk β := by
  simp_all [State.policiesAt]

@[simp ↓] theorem State.disarmsAt_blk (s : State) (d : DieId) (hb : β ∉ [Blk.ports, .courses, .evt, .tele]) :
    (s.disarmsAt d).blk β = s.blk β := by
  simp_all [State.disarmsAt]

@[simp ↓] theorem State.timesAt_blk (s : State) (d : DieId) (hb : β ∉ carriers) :
    (s.timesAt d).blk β = s.blk β := by
  simp_all [State.timesAt]

@[simp ↓] theorem State.tapsAt_blk (s : State) (d : DieId) (c : Nat) (h : Side) (hb : β ∉ [Blk.slices, .courses, .evt, .tele]) :
    (s.tapsAt d c h).blk β = s.blk β := by
  simp_all [State.tapsAt]

@[simp ↓] theorem State.dieAt_blk (s : State) (d : DieId) (hb : β ∉ [Blk.nv, .sram] ++ fretZero) :
    (s.dieAt d).blk β = s.blk β := by
  simp_all [State.dieAt]

@[simp ↓] theorem State.rootAt_blk (s : State) (hb : β ∉ [Blk.stroke, .mode] ++ carriers) :
    (s.rootAt).blk β = s.blk β := by
  simp at hb
  unfold State.rootAt
  split
  · rfl
  · extract_lets u used w
    have hu : u.blk β = s.blk β := by simp [u, hb]
    have hw : w.blk β = s.blk β := by
      refine (State.onAll_blk u _ fun t d => State.foldl_blk t _ _ fun t a => ?_).trans hu
      simp [hb]
    split <;> simp [hw, hb]

@[simp ↓] theorem State.resumesAt_blk (s : State) (hb : β ∉ [Blk.stroke, .peg, .evt, .hk, .tele]) :
    (s.resumesAt).blk β = s.blk β := by
  simp at hb
  unfold State.resumesAt
  refine State.onAll_blk s _ (fun t d => ?_)
  (repeat' split) <;> simp [hb]

@[simp ↓] theorem State.boundary_blk (s : State) (obs : BoundaryObs) (hb : β ∉ [Blk.nv, .sram, .mode, .pos] ++ fretZero) :
    (s.boundary obs).blk β = s.blk β := by
  simp_all [State.boundary]

end Sys2Proof.Machine
end

section
/-! SUPPORT. Answers of a row that meet a property, and the reasoning rules of the shared operations that take a function: what
that function keeps, the operation keeps. -/

set_option Elab.async false

namespace Sys2Proof.Machine

variable {β : Blk}

/-- Every next state that r answers has property P. -/
def Meets (P : State → Prop) (r : Result) : Prop := ∀ t, r = .next t → P t

@[simp] theorem meets_next (P : State → Prop) (t : State) : Meets P (.next t) ↔ P t := by
  simp [Meets]

theorem State.onAll_induction {motive : State → Prop} (s : State) (f : State → DieId → State) (hs : motive s)
    (h : ∀ t d, motive t → motive (f t d)) : motive (s.onAll f) :=
  List.foldlRecOn _ _ hs (fun t ht d _ => h t d ht)

theorem State.onAwake_induction {motive : State → Prop} (s : State) (f : State → DieId → State) (hs : motive s)
    (h : ∀ t d, motive t → motive (f t d)) : motive (s.onAwake f) := by
  refine s.onAll_induction _ hs (fun t d ht => ?_)
  split
  · exact ht
  · exact h t d ht

theorem State.command_induction {motive : State → Prop} (s : State) (k : Packet) (op : Nat) (body : State → State)
    (hb : β ∉ carriers) (hs : motive (s.blk β)) (h : ∀ t, motive (t.blk β) → motive ((body t).blk β)) :
    motive ((s.command k op body).blk β) := by
  simp at hb
  have hbody := h (s.takeInbox k op) (by simpa [hb] using hs)
  unfold State.command
  extract_lets x here u
  (repeat' split) <;> simp [u, hb, hs, hbody]

theorem State.start_induction {motive : State → Prop} (s : State) (k : Packet) (op cls obj : Nat) (data : List Nat)
    (work : State → State) (hb : β ∉ carriers) (hs : motive (s.blk β))
    (h : ∀ t, motive (t.blk β) → motive ((work t).blk β)) :
    motive ((s.start k op cls obj data work).blk β) := by
  simp at hb
  unfold State.start
  split
  · simpa [hb] using hs
  · exact h _ (by simpa [hb] using hs)

theorem State.routed_induction {motive : State → Prop} (s : State) (d : DieId) (p : Flit) (ans : Bool)
    (run : State → State × Option Body) (hb : β ∉ [Blk.brg, .tele, .ring]) (hs : motive (s.blk β))
    (h : ∀ t, motive (t.blk β) → motive ((run t).1.blk β)) : motive ((s.routed d p ans run).blk β) := by
  simp at hb
  have hrun := h (s.arrive p) (by simpa [hb] using hs)
  simp only [State.routed]
  (repeat' split) <;> simp [hb, hs, hrun]

theorem State.ordered_induction {motive : State → Prop} (s : State) (d : DieId) (p : Flit) (ans : Bool)
    (run : State → State × Option Body) (hb : β ∉ [Blk.brg, .tele, .ring]) (hs : motive (s.blk β))
    (h : ∀ t, motive (t.blk β) → motive ((run t).1.blk β)) : motive ((s.ordered d p ans run).blk β) := by
  have hr := s.routed_induction d p ans run hb hs h
  simp at hb
  unfold State.ordered
  (repeat' split) <;> simp [hb, hs, hr]

end Sys2Proof.Machine
end

section
/-! SUPPORT. The canonical form of the memories: the one rule for each function that stores to the SRAM or to the nonvolatile
store, and for each row of writesSram and writesNv. -/

set_option Elab.async false

namespace Sys2Proof.Machine

variable {β : Blk}

/-- The memories of a die stand in their canonical form. -/
def Die.memoriesOk (x : Die) : Prop := Memory.wf x.sram = true ∧ Memory.wf x.nv = true

@[simp] theorem Die.memoriesOk_blk_sram (x : Die) : (x.blk .sram).memoriesOk ↔ Memory.wf x.sram = true := by
  simp [Die.memoriesOk, Die.blk, Memory.wf, SMap.wf, SMap.rising]

@[simp] theorem Die.memoriesOk_blk_nv (x : Die) : (x.blk .nv).memoriesOk ↔ Memory.wf x.nv = true := by
  simp [Die.memoriesOk, Die.blk, Memory.wf, SMap.wf, SMap.rising]

theorem State.memoriesOk_iff_die (s : State) : s.memoriesOk ↔ ∀ d, (s.die d).memoriesOk := Iff.rfl

@[simp] theorem State.memoriesOk_die {s : State} (hs : s.memoriesOk) (d : DieId) : (s.die d).memoriesOk := hs d

/-- A memory write to one die leaves the canonical form where it stood, if it stands in what is written. -/
@[simp] theorem State.memoriesOk_setDie {s : State} (hs : s.memoriesOk) (d : DieId) (x : Die) :
    (s.setDie d x).memoriesOk ↔ x.memoriesOk := by
  rw [State.memoriesOk_iff_die]
  refine ⟨fun h => by simpa using h d, fun hx e => ?_⟩
  rw [State.die_setDie]
  split
  · exact hx
  · exact hs e

@[simp] theorem State.memoriesOk_ite (c : Prop) [Decidable c] (s t : State) :
    (if c then s else t).memoriesOk ↔ if c then s.memoriesOk else t.memoriesOk := by
  split <;> rfl

@[simp] theorem Die.memoriesOk_ite (c : Prop) [Decidable c] (x y : Die) :
    (if c then x else y).memoriesOk ↔ if c then x.memoriesOk else y.memoriesOk := by
  split <;> rfl

@[simp] theorem State.wf_sram {s : State} (h : (s.blk .sram).memoriesOk) (d : DieId) : Memory.wf (s.die d).sram = true := by
  have hd : ((s.blk .sram).die d).memoriesOk := h d
  rwa [← State.die_blk, Die.memoriesOk_blk_sram] at hd

@[simp] theorem State.wf_nv {s : State} (h : (s.blk .nv).memoriesOk) (d : DieId) : Memory.wf (s.die d).nv = true := by
  have hd : ((s.blk .nv).die d).memoriesOk := h d
  rwa [← State.die_blk, Die.memoriesOk_blk_nv] at hd

/-- The memories are those of the two memory blocks. -/
theorem State.memoriesOk_iff_blk (s : State) : s.memoriesOk ↔ (s.blk .sram).memoriesOk ∧ (s.blk .nv).memoriesOk := by
  have hsram : (s.blk .sram).memoriesOk ↔ ∀ d, Memory.wf (s.die d).sram = true := by
    simp only [State.memoriesOk_iff_die, ← State.die_blk, Die.memoriesOk_blk_sram]
  have hnv : (s.blk .nv).memoriesOk ↔ ∀ d, Memory.wf (s.die d).nv = true := by
    simp only [State.memoriesOk_iff_die, ← State.die_blk, Die.memoriesOk_blk_nv]
  rw [hsram, hnv, ← forall_and]
  rfl

/-- Listing fewer bytes keeps the canonical form. -/
theorem Memory.wf_filter (f : Host.Cell → Bool) (m : List Host.Cell) (hm : Memory.wf m = true) :
    Memory.wf (m.filter f) = true := by
  simp only [Memory.wf, SMap.wf, Bool.and_eq_true, List.all_eq_true] at hm ⊢
  exact ⟨SMap.rising_filter f m hm.1, fun p hp => hm.2 p (List.mem_of_mem_filter hp)⟩

@[simp] theorem State.foldl_memoriesOk {α : Type} {b : Blk} {s : State} (hs : (s.blk b).memoriesOk) (f : State → α → State)
    (l : List α) (h : ∀ t a, (t.blk b).memoriesOk → ((f t a).blk b).memoriesOk) : ((l.foldl f s).blk b).memoriesOk :=
  List.foldlRecOn (motive := fun t : State => (t.blk b).memoriesOk) l f hs (fun t ht a _ => h t a ht)

/-! ### SRAM -/

@[simp] theorem State.ringWrite_sram {s : State} (h : (s.blk .sram).memoriesOk) (d : DieId) (r : Evt) :
    ((s.ringWrite d r).blk .sram).memoriesOk := by
  simp [State.ringWrite, h, Memory.wf_writeWords, State.wf_sram h]

@[simp] theorem State.ringTake_sram {s : State} (h : (s.blk .sram).memoriesOk) (d : DieId) (r : Evt) :
    ((s.ringTake d r).blk .sram).memoriesOk := by
  simp [State.ringTake, h]

@[simp] theorem State.ringWrites_sram {s : State} (h : (s.blk .sram).memoriesOk) (d : DieId) (l : List Evt) :
    ((s.ringWrites d l).blk .sram).memoriesOk :=
  State.foldl_memoriesOk h _ l (fun _ r ht => State.ringTake_sram ht d r)

@[simp] theorem State.ringRelease_sram {s : State} (h : (s.blk .sram).memoriesOk) (d : DieId) :
    ((s.ringRelease d).blk .sram).memoriesOk := by
  simp [State.ringRelease, h]

@[simp] theorem State.forwardEvents_sram {s : State} (h : (s.blk .sram).memoriesOk) (d : DieId) :
    ((s.forwardEvents d).blk .sram).memoriesOk := by
  unfold State.forwardEvents
  extract_lets x rest recs u give w
  have hgive : ∀ t a, (t.blk .sram).memoriesOk → ((give t a).blk .sram).memoriesOk := by
    intro t a ht
    simp only [give]
    (repeat' split) <;> simp [ht]
  split
  · exact h
  · have hw : (w.blk .sram).memoriesOk := hgive _ _ (hgive _ _ (by simp [u, h]))
    simp [hw]

theorem execEventForward_sram {s : State} (h : (s.blk .sram).memoriesOk) (d : DieId) :
    Meets (fun t => (t.blk .sram).memoriesOk) (execEventForward d s) := by
  simp [execEventForward, h]

theorem execRecordPost_sram {s : State} (h : (s.blk .sram).memoriesOk) (e : AccessId) (n : QueueId) :
    Meets (fun t => (t.blk .sram).memoriesOk) (execRecordPost e n s) := by
  simp only [execRecordPost, meets_next]
  (repeat' split) <;> simp [h, Memory.wf_writeWords, State.wf_sram h]

theorem execEvtFwd_sram {s : State} (h : (s.blk .sram).memoriesOk) (d src : DieId) (tag : BitVec 16) :
    Meets (fun t => (t.blk .sram).memoriesOk) (execEvtFwd d src tag s) := by
  simp only [execEvtFwd, meets_next]
  split
  · exact h
  next p _ =>
    have hu := s.ordered_induction (motive := State.memoriesOk) d p false
      (fun s => (s.ringWrites d p.body.evts, some (.ack tag.toNat))) (by simp) h (fun t ht => by simp [ht])
    split
    · exact State.ringRelease_sram hu d
    · exact hu

theorem execCaptureTrigger_sram {s : State} (h : (s.blk .sram).memoriesOk) (d : DieId) (c : CourseId) (side : Side)
    (samples : List Byte) : Meets (fun t => (t.blk .sram).memoriesOk) (execCaptureTrigger d c side samples s) := by
  simp only [execCaptureTrigger, meets_next]
  (repeat' split) <;> simp [h, Memory.wf_writeList, State.wf_sram h]

@[simp] theorem State.hkRecord_sram {s : State} (h : (s.blk .sram).memoriesOk) (d : DieId) (word0 : Nat) :
    ((s.hkRecord d word0).blk .sram).memoriesOk := by
  simp [State.hkRecord, h, Memory.wf_writeWords, State.wf_sram h]

@[simp] theorem State.stepEnd_sram {s : State} (h : (s.blk .sram).memoriesOk) (d : DieId) (n code : Nat) :
    ((s.stepEnd d n code).blk .sram).memoriesOk := by
  simp [State.stepEnd, h]

@[simp] theorem State.injEnd_sram {s : State} (h : (s.blk .sram).memoriesOk) (d : DieId) (code input : Nat) (flag : Bool) :
    ((s.injEnd d code input flag).blk .sram).memoriesOk := by
  simp only [State.injEnd]
  (repeat' split) <;> simp [h]

@[simp] theorem State.calEnd_sram {s : State} (h : (s.blk .sram).memoriesOk) (d : DieId) (code input : Nat) :
    ((s.calEnd d code input).blk .sram).memoriesOk := by
  simp [State.calEnd, h]

theorem execHkConversionEnd_sram {s : State} (h : (s.blk .sram).memoriesOk) (d : DieId) (raw : BitVec 12) :
    Meets (fun t => (t.blk .sram).memoriesOk) (execHkConversionEnd d raw s) := by
  simp only [execHkConversionEnd, meets_next]
  (repeat' split) <;> simp [h]

@[simp] theorem State.memWrite_sram {s : State} (h : (s.blk .sram).memoriesOk) (d : DieId) (a : Nat) (w : Word) :
    ((s.memWrite d a w).blk .sram).memoriesOk := by
  simp only [State.memWrite]
  (repeat' split) <;> simp [h, Memory.wf_writeLE, State.wf_sram h]

@[simp] theorem State.busWrite_sram {s : State} (h : (s.blk .sram).memoriesOk) (e : AccessId) (bus : Bus) (win : Window)
    (off : Nat) (w : Word) : ((s.busWrite e bus win off w).blk .sram).memoriesOk := by
  unfold State.busWrite
  split <;> simp [h]

@[simp] theorem State.request_sram {s : State} (h : (s.blk .sram).memoriesOk) (e : AccessId) (t : Tlp) :
    ((s.request e t).blk .sram).memoriesOk := by
  simp only [State.request]
  (repeat' split) <;> simp +contextual [h]

@[simp] theorem State.serve_sram {s : State} (h : (s.blk .sram).memoriesOk) (e : AccessId) (l : List Tlp) :
    ((s.serve e l).blk .sram).memoriesOk := by
  induction l generalizing s with
  | nil => simp [State.serve, h]
  | cons t l ih =>
    unfold State.serve
    simp [h, ih]

@[simp] theorem State.unstall_sram {s : State} (h : (s.blk .sram).memoriesOk) (e : AccessId) :
    ((s.unstall e).blk .sram).memoriesOk := by
  simp [State.unstall, h]

theorem execRegisterWrite_sram {s : State} (h : (s.blk .sram).memoriesOk) (e : AccessId) (b : Bus) (win : Window)
    (addr : BitVec 25) (r : Request) : Meets (fun t => (t.blk .sram).memoriesOk) (execRegisterWrite e b win addr r s) := by
  simp only [execRegisterWrite, meets_next]
  (repeat' split) <;> simp [h]

@[simp] theorem State.crossEnd_sram {s : State} (h : (s.blk .sram).memoriesOk) (d dst : DieId) (body : Body)
    (tag status : Nat) (value : Word) : ((s.crossEnd d dst body tag status value).blk .sram).memoriesOk := by
  unfold State.crossEnd
  split <;> simp [h]

theorem execRegRsp_sram {s : State} (h : (s.blk .sram).memoriesOk) (d src : DieId) (tag : BitVec 16) :
    Meets (fun t => (t.blk .sram).memoriesOk) (execRegRsp d src tag s) := by
  simp only [execRegRsp, meets_next]
  split
  · exact h
  · split
    · refine State.routed_induction _ _ _ _ _ (by simp) h (fun t ht => ?_)
      split <;> simp [ht]
    · exact h

theorem execPacketAbandoned_sram {s : State} (h : (s.blk .sram).memoriesOk) (d : DieId) (tag : BitVec 16) :
    Meets (fun t => (t.blk .sram).memoriesOk) (execPacketAbandoned d tag s) := by
  simp only [execPacketAbandoned, meets_next]
  (repeat' split) <;> simp [h]

/-- The reset of the vector table only lists fewer bytes. -/
theorem Die.msixReset_sram {x : Die} (h : Memory.wf x.sram = true) : Memory.wf x.msixReset.sram = true :=
  Memory.wf_filter _ _ h

theorem execPerst_sram {s : State} (h : (s.blk .sram).memoriesOk) (e : AccessId) :
    Meets (fun t => (t.blk .sram).memoriesOk) (execPerst e s) := by
  have hep : ∀ v, ((s.setEp e v).blk .sram).memoriesOk := fun v => by simpa using h
  unfold execPerst
  extract_lets v u
  rw [meets_next]
  split
  · have hu : (u.blk .sram).memoriesOk := by simp [u, h, Die.msixReset_sram, State.wf_sram (hep _)]
    split <;> simp [hu]
  · exact h

@[simp] theorem State.twiWrite_sram {s : State} (h : (s.blk .sram).memoriesOk) (e : AccessId) (x w : Word) :
    ((s.twiWrite e x w).blk .sram).memoriesOk := by
  simp [State.twiWrite, h]

theorem execTwiWriteFrame_sram {s : State} (h : (s.blk .sram).memoriesOk) (e : AccessId) (bytes : List Byte) :
    Meets (fun t => (t.blk .sram).memoriesOk) (execTwiWriteFrame e bytes s) := by
  simp only [execTwiWriteFrame, meets_next]
  (repeat' split) <;> simp [h]

@[simp] theorem State.unstalls_sram {s : State} (h : (s.blk .sram).memoriesOk) : (s.unstalls.blk .sram).memoriesOk := by
  simp [State.unstalls, h]

theorem execStandbyWake_sram {s : State} (h : (s.blk .sram).memoriesOk) (source : Fin 4) (ns : Word) :
    Meets (fun t => (t.blk .sram).memoriesOk) (execStandbyWake source ns s) := by
  unfold execStandbyWake
  extract_lets r r2 u l
  rw [meets_next]
  have hr : (r.2.blk .sram).memoriesOk := by
    simp only [r]
    split <;> simp [h]
  split
  · refine State.unstalls_sram ?_
    simp [u, r2, hr]
  · split <;> assumption

/-! ### SRAM at the boundary -/

@[simp] theorem State.eyeBegin_sram {s : State} (h : (s.blk .sram).memoriesOk) (d : DieId) (c : Nat) (side : Side) (o : Op) :
    ((s.eyeBegin d c side o).blk .sram).memoriesOk := by
  unfold State.eyeBegin
  extract_lets x r now k u n words
  have hu : (u.blk .sram).memoriesOk := by simp [u, h]
  simp [hu, Memory.wf_writeWords, State.wf_sram hu]

@[simp] theorem State.eyeStepAt_sram {s : State} (h : (s.blk .sram).memoriesOk) (d : DieId) (c : Nat) (side : Side) (o : Op) :
    ((s.eyeStepAt d c side o).blk .sram).memoriesOk := by
  simp [State.eyeStepAt, h, Memory.wf_writeLE, State.wf_sram h]

@[simp] theorem State.rotSide_sram {s : State} (h : (s.blk .sram).memoriesOk) (d : DieId) (c : Nat) (side : Side) :
    ((s.rotSide d c side).blk .sram).memoriesOk := by
  unfold State.rotSide
  extract_lets x r why u v w
  have hu : (u.blk .sram).memoriesOk := by simp [u, h]
  have hv : (v.blk .sram).memoriesOk := by simp only [v]; split <;> simp [hu]
  have hw : (w.blk .sram).memoriesOk := by simp [w, hv]
  (repeat' split) <;> simp [hw, h]

@[simp] theorem State.dieAt_sram {s : State} (h : (s.blk .sram).memoriesOk) (d : DieId) :
    ((s.dieAt d).blk .sram).memoriesOk := by
  unfold State.dieAt
  extract_lets u1 u2 u3 u4 u5 u6 u7 u8 u9 u10 u11
  have h7 : (u7.blk .sram).memoriesOk := by simp [u7, u6, u5, u4, u3, u2, u1, h]
  have h8 : (u8.blk .sram).memoriesOk :=
    State.foldl_memoriesOk h7 _ _ (fun t q ht => by simp [State.rotSide_sram, ht])
  have h10 : (u10.blk .sram).memoriesOk := by
    simp only [u10]
    split <;> simp [u9, h8]
  simp [u11, h10]

theorem State.boundary_sram {s : State} (h : (s.blk .sram).memoriesOk) (obs : BoundaryObs) :
    ((s.boundary obs).blk .sram).memoriesOk := by
  unfold State.boundary
  extract_lets u1 back u2 u3 u4 u5 u6 u7
  have h6 : (u6.blk .sram).memoriesOk := by simp [u6, u5, u4, u3, u2, u1, h]
  have h7 : (u7.blk .sram).memoriesOk := by
    have hdies := State.onAwake_induction (motive := fun t => (t.blk .sram).memoriesOk) u6 (fun s d => s.dieAt d) h6
      (fun t d ht => State.dieAt_sram ht d)
    simp [u7, hdies]
  refine State.onAwake_induction (motive := fun t => (t.blk .sram).memoriesOk) _ _ (by simp [h7]) (fun t d ht => ?_)
  split <;> simp [ht]

@[simp] theorem State.start_memoriesOk {b : Blk} {s : State} (hs : (s.blk b).memoriesOk) (hb : b ∉ carriers) (k : Packet)
    (op cls obj : Nat) (data : List Nat) (work : State → State)
    (h : ∀ t, (t.blk b).memoriesOk → ((work t).blk b).memoriesOk) : ((s.start k op cls obj data work).blk b).memoriesOk :=
  s.start_induction k op cls obj data work hb hs h

/-! ### The nonvolatile store -/

@[simp] theorem Die.nvPut_nv {x : Die} (h : Memory.wf x.nv = true) (off v : Nat) : Memory.wf (x.nvPut off v).nv = true :=
  Memory.wf_writeLE 8 _ _ _ h

@[simp] theorem Die.resyncBlock_nv {x : Die} (h : Memory.wf x.nv = true) (src : List Host.Cell) (b : Nat) :
    Memory.wf (x.resyncBlock src b).nv = true :=
  List.foldlRecOn (motive := fun m => Memory.wf m = true) _ _ (Memory.wf_filter _ _ h)
    (fun m hm p _ => Memory.wf_write m p.1 p.2 hm)

@[simp] theorem State.nvStore_nv {s : State} (h : (s.blk .nv).memoriesOk) (m : DieId) (off v : Nat) :
    ((s.nvStore m off v).blk .nv).memoriesOk := by
  unfold State.nvStore
  extract_lets o b u
  have hu : (u.blk .nv).memoriesOk := by simp [u, h]
  (repeat' split) <;> simp [hu]

@[simp] theorem State.nvStores_nv {s : State} (h : (s.blk .nv).memoriesOk) (m : DieId) (off : Nat) (l : List Nat) :
    ((s.nvStores m off l).1.blk .nv).memoriesOk := by
  induction l generalizing s off with
  | nil => exact h
  | cons v vs ih =>
    unfold State.nvStores
    split
    · simp [State.nvRefuse, h]
    · exact ih (State.nvStore_nv h m off v) (off + 8)

@[simp] theorem State.nvFetch_nv {s : State} (h : (s.blk .nv).memoriesOk) (d : DieId) (off : Nat) (own other : EccResult) :
    ((s.nvFetch d off own other).1.blk .nv).memoriesOk := by
  cases own with
  | clean => simp [State.nvFetch, h]
  | corrected => simp [State.nvFetch, h]
  | uncorrectable =>
    simp only [State.nvFetch]
    split <;> simp [h]

@[simp] theorem State.nvFetches_nv {s : State} (h : (s.blk .nv).memoriesOk) (d : DieId) (ecc : List EccResult)
    (n off c : Nat) : ((s.nvFetches d ecc n off c).1.blk .nv).memoriesOk := by
  induction c generalizing s with
  | zero => exact h
  | succ c ih => exact ih (State.nvFetch_nv h d _ _ _)

theorem execNvRead_nv {s : State} (h : (s.blk .nv).memoriesOk) (k : Packet) (ecc : List EccResult) :
    Meets (fun t => (t.blk .nv).memoriesOk) (execNvRead k ecc s) := by
  simp only [execNvRead, meets_next]
  refine s.command_induction k _ _ (by simp) h (fun t ht => ?_)
  (repeat' split) <;> simp [ht]

@[simp] theorem State.nvWriteCmd_nv {s : State} (h : (s.blk .nv).memoriesOk) (k : Packet) :
    ((s.nvWriteCmd k).blk .nv).memoriesOk := by
  simp only [State.nvWriteCmd]
  (repeat' split) <;> simp [h]

theorem execNvWrite_nv {s : State} (h : (s.blk .nv).memoriesOk) (k : Packet) :
    Meets (fun t => (t.blk .nv).memoriesOk) (execNvWrite k s) :=
  (meets_next _ _).mpr (s.command_induction k _ _ (by simp) h (fun _ ht => State.nvWriteCmd_nv ht k))

theorem execNvWorn_nv {s : State} (h : (s.blk .nv).memoriesOk) (k : Packet) :
    Meets (fun t => (t.blk .nv).memoriesOk) (execNvWorn k s) := by
  unfold execNvWorn
  rw [meets_next]
  split
  · exact s.command_induction k _ _ (by simp) h (fun _ ht => State.nvWriteCmd_nv ht k)
  · exact h

theorem execMirrorResync_nv {s : State} (h : (s.blk .nv).memoriesOk) :
    Meets (fun t => (t.blk .nv).memoriesOk) (execMirrorResync s) := by
  unfold execMirrorResync
  extract_lets go
  have hgo : ∀ u m, (u.blk .nv).memoriesOk → ((go u m).blk .nv).memoriesOk := by
    intro u m hu
    unfold go
    extract_lets o l src recs v w
    split
    · exact hu
    · have hcopy : ∀ x : Die, Memory.wf x.nv = true → Memory.wf (l.foldl (fun x b => x.resyncBlock src b) x).nv = true :=
        fun x hx => List.foldlRecOn (motive := fun y : Die => Memory.wf y.nv = true) _ _ hx
          (fun y hy b _ => Die.resyncBlock_nv hy _ b)
      have hv : (v.blk .nv).memoriesOk := by simp [v, hu, hcopy]
      have hw : (w.blk .nv).memoriesOk := by simp [w, hv]
      simp [hw]
  rw [meets_next]
  split
  · exact hgo _ _ (hgo _ _ h)
  · exact h

@[simp] theorem State.bootWord_nv {s : State} (h : (s.blk .nv).memoriesOk) (ok0 ok1 : Bool) (w : Nat) (e0 e1 : EccResult) :
    ((s.bootWord ok0 ok1 w e0 e1).blk .nv).memoriesOk := by
  unfold State.bootWord
  extract_lets o r0 r1 fix u
  have hfix : ∀ t d r other m, (t.blk .nv).memoriesOk → ((fix t d r other m).blk .nv).memoriesOk := by
    intro t d r other m ht
    simp only [fix]
    (repeat' split) <;> simp [ht]
  have hu : (u.blk .nv).memoriesOk := by
    simp only [u]
    split
    · exact hfix _ _ _ _ _ h
    · exact h
  split
  · exact hfix _ _ _ _ _ hu
  · exact hu

theorem execCalRead_nv {s : State} (h : (s.blk .nv).memoriesOk) (k : Packet) (own other : EccResult) :
    Meets (fun t => (t.blk .nv).memoriesOk) (execCalRead k own other s) := by
  simp only [execCalRead, meets_next]
  refine s.command_induction k _ _ (by simp) h (fun t ht => ?_)
  (repeat' split) <;> simp [ht]

theorem execCalWrite_nv {s : State} (h : (s.blk .nv).memoriesOk) (k : Packet) :
    Meets (fun t => (t.blk .nv).memoriesOk) (execCalWrite k s) := by
  simp only [execCalWrite, meets_next]
  refine s.command_induction k _ _ (by simp) h (fun t ht => ?_)
  (repeat' split) <;> simp [ht]

@[simp] theorem State.nvRepair_nv {s : State} (h : (s.blk .nv).memoriesOk) (d : DieId) (r : Option (Nat × Nat))
    (ret : Option Nat) : ((s.nvRepair d r ret).blk .nv).memoriesOk := by
  unfold State.nvRepair
  extract_lets m o off word keep u v
  have hv : (v.blk .nv).memoriesOk := by simp [v, u, h]
  split <;> simp [hv]

@[simp] theorem State.repairRecord_nv {s : State} (h : (s.blk .nv).memoriesOk) (d : DieId) (m v : Nat) :
    ((s.repairRecord d m v).1.blk .nv).memoriesOk := by
  unfold State.repairRecord
  split <;> simp [h]

@[simp] theorem State.retire_nv {s : State} (h : (s.blk .nv).memoriesOk) (d : DieId) (t : Test) (m : Nat) :
    ((s.retire d t m).blk .nv).memoriesOk := by
  unfold State.retire
  split <;> simp [h]

@[simp] theorem State.afterFail_nv {s : State} (h : (s.blk .nv).memoriesOk) (d : DieId) (t : Test) (loc : Nat)
    (repaired : Bool) : ((s.afterFail d t loc repaired).1.blk .nv).memoriesOk := by
  unfold State.afterFail
  dsimp only
  (repeat' split) <;> simp [h]

theorem execTestEnded_nv {s : State} (h : (s.blk .nv).memoriesOk) (d : DieId) (tag : BitVec 16) (result : TestResult)
    (sig loc : Word) (repaired : Bool) :
    Meets (fun t => (t.blk .nv).memoriesOk) (execTestEnded d tag result sig loc repaired s) := by
  unfold execTestEnded
  rw [meets_next]
  split
  · exact h
  · extract_lets -lift x t u r0
    have hu : (u.blk .nv).memoriesOk := by unfold u; split <;> simp [h]
    split
    · rw [State.testRelease_blk _ _ _ (by simp), State.closeTest_blk _ _ _ _ _ _ _ (by simp)]
      (repeat' split) <;> simp [hu]
    · exact h

theorem execRepairSoft_nv {s : State} (h : (s.blk .nv).memoriesOk) (k : Packet) :
    Meets (fun t => (t.blk .nv).memoriesOk) (execRepairSoft k s) := by
  simp only [execRepairSoft, meets_next]
  refine s.command_induction k _ _ (by simp) h (fun t ht => ?_)
  (repeat' split) <;> simp +contextual [ht]

@[simp] theorem State.nvForget_nv {s : State} (h : (s.blk .nv).memoriesOk) (d : DieId) (m : Nat) :
    ((s.nvForget d m).blk .nv).memoriesOk := by
  unfold State.nvForget
  extract_lets drop a b u
  have hu : (u.blk .nv).memoriesOk := by simp [u, drop, h]
  split <;> simp [drop, hu]

theorem execFuseWritten_nv {s : State} (h : (s.blk .nv).memoriesOk) (d : DieId) :
    Meets (fun t => (t.blk .nv).memoriesOk) (execFuseWritten d s) := by
  simp only [execFuseWritten, meets_next]
  (repeat' split) <;> simp [h]

@[simp] theorem State.raiseMin_nv {s : State} (h : (s.blk .nv).memoriesOk) (d : DieId) (v : Nat) :
    ((s.raiseMin d v).blk .nv).memoriesOk := by
  unfold State.raiseMin
  extract_lets m o up put u
  have hu : (u.blk .nv).memoriesOk := by simp [u, put, h]
  (repeat' split) <;> simp [put, hu, h]

@[simp] theorem State.fwFinish_nv {s : State} (h : (s.blk .nv).memoriesOk) : (s.fwFinish.blk .nv).memoriesOk := by
  simp only [State.fwFinish]
  (repeat' split) <;> simp [h]

theorem execPegRestart_nv {s : State} (h : (s.blk .nv).memoriesOk) (d : DieId) (rom : Bool) :
    Meets (fun t => (t.blk .nv).memoriesOk) (execPegRestart d rom s) := by
  unfold execPegRestart
  extract_lets p u1 u2 v1 v2 v3 v4
  rw [meets_next]
  split
  · split
    · split
      · exact h
      · have h1 : (u1.blk .nv).memoriesOk := by simp [u1, h]
        have h2 : (u2.blk .nv).memoriesOk := by simp [u2, h1]
        exact State.fwFinish_nv (by simp [h2])
    · have h1 : (v1.blk .nv).memoriesOk := by simp [v1, h]
      have h2 : (v2.blk .nv).memoriesOk := by simp only [v2]; split <;> simp [h1]
      have h4 : (v4.blk .nv).memoriesOk := by simp [v4, v3, h2]
      exact State.fwFinish_nv (by simp [h4])
  · exact h

theorem execFwReverted_nv {s : State} (h : (s.blk .nv).memoriesOk) (d : DieId) :
    Meets (fun t => (t.blk .nv).memoriesOk) (execFwReverted d s) := by
  unfold execFwReverted
  rw [meets_next]
  split
  · exact h
  · extract_lets u1 u2 u3 u4
    split
    · have h3 : (u3.blk .nv).memoriesOk := by simp [u3, u2, u1, h]
      have h4 : (u4.blk .nv).memoriesOk := by simp [u4, h3]
      exact State.fwFinish_nv (by simp [h4])
    · exact h

@[simp] theorem Die.resetMaps_nv (x : Die) : x.resetMaps.nv = x.nv := by
  have h : x.resetMaps.blk .nv = x.blk .nv := Die.resetMaps_blk x (by simp)
  simpa only [Die.blk] using congrArg Die.nv h

@[simp] theorem State.bootNv_nv {s : State} (h : (s.blk .nv).memoriesOk) (from_ : Option DieId) (img : List Host.Cell)
    (d : DieId) : ((s.bootNv from_ img d).blk .nv).memoriesOk := by
  unfold State.bootNv
  split <;> simp [h]

@[simp] theorem State.bootDie_nv {s : State} (h : (s.blk .nv).memoriesOk) (from_ : Option DieId) (img : List Host.Cell)
    (d : DieId) : ((s.bootDie from_ img d).blk .nv).memoriesOk := by
  simp [State.bootDie, h]

@[simp] theorem State.bootSeen_nv {s : State} (h : (s.blk .nv).memoriesOk) (readable : Fin 4)
    (ecc : List (BitVec 18 × EccResult × EccResult)) (d : DieId) : ((s.bootSeen readable ecc d).blk .nv).memoriesOk := by
  simp [State.bootSeen, h]

theorem execBoot_nv {s : State} (h : (s.blk .nv).memoriesOk) (straps readable : Fin 4)
    (ecc : List (BitVec 18 × EccResult × EccResult)) :
    Meets (fun t => (t.blk .nv).memoriesOk) (execBoot straps readable ecc s) := by
  unfold execBoot
  rw [meets_next]
  split
  · extract_lets u1 m u2 img u3 u4 u5
    have h1 : (u1.blk .nv).memoriesOk := State.foldl_memoriesOk h _ _ (fun t e ht => State.bootWord_nv ht _ _ _ _ _)
    have h2 : (u2.blk .nv).memoriesOk := u1.onAll_induction (motive := fun t => (t.blk .nv).memoriesOk) _ h1
      (fun t d ht => State.bootSeen_nv ht readable ecc d)
    have h3 : (u3.blk .nv).memoriesOk := u2.onAll_induction (motive := fun t => (t.blk .nv).memoriesOk) _ h2
      (fun t d ht => State.bootDie_nv ht m img d)
    have h5 : (u5.blk .nv).memoriesOk := by simp [u5, u4, h3]
    simp [h5]
  · exact h

@[simp] theorem State.persist_nv {s : State} (h : (s.blk .nv).memoriesOk) (d : DieId) (img : SMap Byte) (len : Nat) :
    ((s.persist d img len).1.blk .nv).memoriesOk := by
  unfold State.persist
  extract_lets n m o up r put u
  have hu : (u.blk .nv).memoriesOk := by simp [u, put, r, h]
  simp only
  split <;> simp [put, hu]

@[simp] theorem State.stageDone_nv {s : State} (h : (s.blk .nv).memoriesOk) (d : DieId) (o : Op) :
    ((s.stageDone d o).blk .nv).memoriesOk := by
  unfold State.stageDone
  extract_lets k p ver mask named got reached u1 u2
  have h2 : (u2.blk .nv).memoriesOk := by simp [u2, u1, h]
  split
  next w kept hw =>
  have hkept : (w.blk .nv).memoriesOk := by
    split at hw
    · exact (Prod.mk.inj hw).1 ▸ State.persist_nv h2 _ _ _
    · exact (Prod.mk.inj hw).1 ▸ h2
  (repeat' split) <;> simp [hkept]

@[simp] theorem State.stageLast_nv {s : State} (h : (s.blk .nv).memoriesOk) (d : DieId) :
    ((s.stageLast d).blk .nv).memoriesOk := by
  simp only [State.stageLast]
  (repeat' split) <;> simp [h]

@[simp] theorem State.dieAt_nv {s : State} (h : (s.blk .nv).memoriesOk) (d : DieId) : ((s.dieAt d).blk .nv).memoriesOk := by
  unfold State.dieAt
  extract_lets u1 u2 u3 u4 u5 u6 u7 u8 u9 u10 u11
  have h9 : (u9.blk .nv).memoriesOk := by simp [u9, u8, u7, u6, u5, u4, u3, u2, u1, h]
  have h10 : (u10.blk .nv).memoriesOk := by
    simp only [u10]
    split <;> simp [h9]
  simp [u11, h10]

@[simp] theorem State.resyncAt_nv {s : State} (h : (s.blk .nv).memoriesOk) (m : DieId) :
    ((s.resyncAt m).blk .nv).memoriesOk := by
  simp [State.resyncAt, h]

theorem State.boundary_nv {s : State} (h : (s.blk .nv).memoriesOk) (obs : BoundaryObs) :
    ((s.boundary obs).blk .nv).memoriesOk := by
  unfold State.boundary
  extract_lets u1 back u2 u3 u4 u5 u6 u7
  have h6 : (u6.blk .nv).memoriesOk := by simp [u6, u5, u4, u3, u2, u1, h]
  have h7 : (u7.blk .nv).memoriesOk := by
    have hdies := State.onAwake_induction (motive := fun t => (t.blk .nv).memoriesOk) u6 (fun s d => s.dieAt d) h6
      (fun t d ht => State.dieAt_nv ht d)
    exact State.fwFinish_nv (by simp [hdies])
  refine State.onAwake_induction (motive := fun t => (t.blk .nv).memoriesOk) _ _ (by simp [h7]) (fun t d ht => ?_)
  split <;> simp [ht]

end Sys2Proof.Machine
end

section
/-! SUPPORT. The position in the stroke, the lead die and the phase: the rule for each function and each row that may write
them. -/

set_option Elab.async false

namespace Sys2Proof.Machine

variable {β : Blk}

/-! ### The position in the stroke -/

/-- The position lies within the stroke (R22). -/
def State.posOk (s : State) : Prop := s.pos ≤ 1279

@[simp] theorem State.posOk_ite (c : Prop) [Decidable c] (s t : State) :
    (if c then s else t).posOk ↔ if c then s.posOk else t.posOk := by
  split <;> rfl

@[simp] theorem State.with_pos_posOk (s : State) (p : Nat) :
    (({ s with pos := p } : State).blk .pos).posOk ↔ p ≤ 1279 := Iff.rfl

/-- No row takes the position past the last system cycle of the stroke. -/
@[simp] theorem State.advance_posOk {s : State} (h : (s.blk .pos).posOk) (p : Nat) : ((s.advance p).blk .pos).posOk := by
  unfold State.advance
  split
  next hp =>
    simp only [Bool.and_eq_true, decide_eq_true_eq] at hp
    simp [hp]
  next => exact h

@[simp] theorem State.toFret_posOk {s : State} (h : (s.blk .pos).posOk) (f : Nat) : ((s.toFret f).blk .pos).posOk := by
  simp [State.toFret, h]

theorem execEventForward_posOk {s : State} (h : (s.blk .pos).posOk) (d : DieId) :
    Meets (fun t => (t.blk .pos).posOk) (execEventForward d s) := by
  simp [execEventForward, h]

theorem execMsixEvent_posOk {s : State} (h : (s.blk .pos).posOk) (e : AccessId) :
    Meets (fun t => (t.blk .pos).posOk) (execMsixEvent e s) := by
  simp [execMsixEvent, h]

theorem execSyncSend_posOk {s : State} (h : (s.blk .pos).posOk) : Meets (fun t => (t.blk .pos).posOk) (execSyncSend s) := by
  simp [execSyncSend, h]

theorem execHeartbeatSend_posOk {s : State} (h : (s.blk .pos).posOk) (d : DieId) :
    Meets (fun t => (t.blk .pos).posOk) (execHeartbeatSend d s) := by
  unfold execHeartbeatSend
  rw [meets_next]
  split
  · extract_lets -lift u x mk v
    have hv : (v.blk .pos).posOk := by simp [u, v, h]
    simp [hv]
  · exact h

theorem execTuningFret_posOk {s : State} (h : (s.blk .pos).posOk) (d : DieId) (c : CourseId) (side : Side)
    (upd : List SliceUpdate) : Meets (fun t => (t.blk .pos).posOk) (execTuningFret d c side upd s) := by
  simp [execTuningFret, h]

theorem execReacqStart_posOk {s : State} (h : (s.blk .pos).posOk) (d : DieId) (n : SliceId) :
    Meets (fun t => (t.blk .pos).posOk) (execReacqStart d n s) := by
  simp [execReacqStart, h]

theorem execLaneEqGet_posOk {s : State} (h : (s.blk .pos).posOk) (k : Packet) :
    Meets (fun t => (t.blk .pos).posOk) (execLaneEqGet k s) := by
  simp only [execLaneEqGet, State.commandSlice, meets_next]
  refine s.command_induction k _ _ (by simp) h (fun t ht => ?_)
  (repeat' split) <;> simp [ht]

theorem execTrainingEngineFret_posOk {s : State} (h : (s.blk .pos).posOk) (d : DieId) :
    Meets (fun t => (t.blk .pos).posOk) (execTrainingEngineFret d s) := by
  unfold execTrainingEngineFret
  rw [meets_next]
  split
  · extract_lets -lift u₁ order k u₂ u₃
    have h2 : (u₂.blk .pos).posOk := by simp [u₁, u₂, h]
    have h3 : (u₃.blk .pos).posOk := by
      refine List.foldlRecOn (motive := fun t : State => (t.blk .pos).posOk) _ _ h2 (fun t ht q _ => ?_)
      split <;> simp [ht]
    refine List.foldlRecOn (motive := fun t : State => (t.blk .pos).posOk) _ _ h3 (fun t ht n _ => ?_)
    extract_lets -lift x
    split
    · exact ht
    · split
      · simp [ht]
      · refine List.foldlRecOn (motive := fun t : State => (t.blk .pos).posOk) _ _ ht (fun t ht j _ => ?_)
        split <;> simp [ht]
  · exact h

theorem execTrainStatus_posOk {s : State} (h : (s.blk .pos).posOk) (k : Packet) :
    Meets (fun t => (t.blk .pos).posOk) (execTrainStatus k s) := by
  simp only [execTrainStatus, State.commandDefined, meets_next]
  refine s.command_induction k _ _ (by simp) h (fun t ht => ?_)
  (repeat' split) <;> simp [ht]

theorem execLatticeStatus_posOk {s : State} (h : (s.blk .pos).posOk) (k : Packet) :
    Meets (fun t => (t.blk .pos).posOk) (execLatticeStatus k s) := by
  simp only [execLatticeStatus, State.commandDefined, meets_next]
  refine s.command_induction k _ _ (by simp) h (fun t ht => ?_)
  (repeat' split) <;> simp [ht]

theorem execClkStatus_posOk {s : State} (h : (s.blk .pos).posOk) (k : Packet) :
    Meets (fun t => (t.blk .pos).posOk) (execClkStatus k s) := by
  simp only [execClkStatus, State.command0, meets_next]
  refine s.command_induction k _ _ (by simp) h (fun t ht => ?_)
  (repeat' split) <;> simp [ht]

theorem execHkStrokeTrigger_posOk {s : State} (h : (s.blk .pos).posOk) (d : DieId) (n : Fin 2) (late : Bool) :
    Meets (fun t => (t.blk .pos).posOk) (execHkStrokeTrigger d n late s) := by
  simp [execHkStrokeTrigger, h]

theorem execPwmLoad_posOk {s : State} (h : (s.blk .pos).posOk) (d : DieId) :
    Meets (fun t => (t.blk .pos).posOk) (execPwmLoad d s) := by
  simp [execPwmLoad, h]

theorem execPwmWrap_posOk {s : State} (h : (s.blk .pos).posOk) (d : DieId) (p : Fin 8) :
    Meets (fun t => (t.blk .pos).posOk) (execPwmWrap d p s) := by
  simp [execPwmWrap, h]

theorem execLiveCopy_posOk {s : State} (h : (s.blk .pos).posOk) (d : DieId) :
    Meets (fun t => (t.blk .pos).posOk) (execLiveCopy d s) := by
  simp [execLiveCopy, h]

theorem execProfileSample_posOk {s : State} (h : (s.blk .pos).posOk) (d : DieId) (pc : Word) :
    Meets (fun t => (t.blk .pos).posOk) (execProfileSample d pc s) := by
  simp [execProfileSample, h]

theorem execWorkSliceEnd_posOk {s : State} (h : (s.blk .pos).posOk) (d : DieId) (tag : BitVec 16) (work : Nat) :
    Meets (fun t => (t.blk .pos).posOk) (execWorkSliceEnd d tag work s) := by
  simp only [execWorkSliceEnd, meets_next]
  (repeat' split) <;> simp [h]

theorem execFretOverrun_posOk {s : State} (h : (s.blk .pos).posOk) (d : DieId) (fret : Fin 32) (left : BitVec 16) :
    Meets (fun t => (t.blk .pos).posOk) (execFretOverrun d fret left s) := by
  simp [execFretOverrun, h]

theorem execBoot_posOk {s : State} (h : (s.blk .pos).posOk) (straps readable : Fin 4)
    (ecc : List (BitVec 18 × EccResult × EccResult)) :
    Meets (fun t => (t.blk .pos).posOk) (execBoot straps readable ecc s) := by
  unfold execBoot
  rw [meets_next]
  split
  · extract_lets u1 m u2 img u3 u4 u5
    have h4 : (u4.blk .pos).posOk := Nat.zero_le 1279
    simp [u5, h4]
  · exact h

theorem execStandbyEntry_posOk {s : State} (h : (s.blk .pos).posOk) :
    Meets (fun t => (t.blk .pos).posOk) (execStandbyEntry s) := by
  unfold execStandbyEntry
  rw [meets_next]
  split
  · exact Nat.zero_le 1279
  · exact h

theorem execStandbyWake_posOk {s : State} (h : (s.blk .pos).posOk) (source : Fin 4) (ns : Word) :
    Meets (fun t => (t.blk .pos).posOk) (execStandbyWake source ns s) := by
  unfold execStandbyWake
  extract_lets r r2 u l
  rw [meets_next]
  have hr : (r.2.blk .pos).posOk := by
    simp only [r]
    split <;> simp [h]
  split
  · have hu : (u.blk .pos).posOk := Nat.zero_le 1279
    simp [hu]
  · split <;> assumption

theorem State.boundary_posOk (s : State) (obs : BoundaryObs) : ((s.boundary obs).blk .pos).posOk := by
  simp [State.boundary]

/-! ### The lead die and the phase -/

/-- The lead die, once chosen, is an access die of part p, and the phase is one of the four (R15, R282, R470). -/
def State.modeOk (p : Part) (s : State) : Prop := (∀ d : DieId, s.lead = some d → isAccess p d = true) ∧ s.phase ≤ 3

variable {p : Part} {s : State}

@[simp] theorem State.modeOk_ite (c : Prop) [Decidable c] (s t : State) :
    (if c then s else t).modeOk p ↔ if c then s.modeOk p else t.modeOk p := by
  split <;> rfl

@[simp] theorem State.with_rootOff_modeOk (s : State) (v : Bool) :
    (({ s with rootOff := v } : State).blk .mode).modeOk p ↔ (s.blk .mode).modeOk p := Iff.rfl

@[simp] theorem State.with_waking_modeOk (s : State) (v : Bool) :
    (({ s with waking := v } : State).blk .mode).modeOk p ↔ (s.blk .mode).modeOk p := Iff.rfl

@[simp] theorem State.with_vddhOff_modeOk (s : State) (v : Bool) :
    (({ s with vddhOff := v } : State).blk .mode).modeOk p ↔ (s.blk .mode).modeOk p := Iff.rfl

/-- A die that takes the lead is an access die of the part, or the lead is given up. -/
@[simp] theorem State.with_lead_modeOk (h : (s.blk .mode).modeOk p) (l : Option DieId) :
    (({ s with lead := l } : State).blk .mode).modeOk p ↔ ∀ d, l = some d → isAccess p d = true :=
  and_iff_left h.2

theorem isAccess_zero (p : Part) : isAccess p 0 = true := rfl

theorem isAccess_otherAccess (p : Part) : isAccess p (otherAccess p) = true := by
  simp [isAccess]

@[simp] theorem State.takeLead_modeOk (h : (s.blk .mode).modeOk p) {c : DieId} (hc : isAccess p c = true) :
    ((s.takeLead c).blk .mode).modeOk p := by
  simp [State.takeLead, h, hc]

theorem execLeadChanged_modeOk (h : (s.blk .mode).modeOk s.part) :
    Meets (fun t => (t.blk .mode).modeOk s.part) (execLeadChanged s) := by
  unfold execLeadChanged
  rw [meets_next]
  split
  · split
    · exact State.takeLead_modeOk h (isAccess_zero _)
    · split
      · exact State.takeLead_modeOk h (isAccess_otherAccess _)
      · exact h
  · exact h

@[simp] theorem State.leadless_modeOk (h : (s.blk .mode).modeOk p) : (s.leadless.blk .mode).modeOk p := by
  unfold State.leadless
  split <;> simp [h]

@[simp] theorem State.ringAt_modeOk (h : (s.blk .mode).modeOk p) : (s.ringAt.blk .mode).modeOk p := by
  unfold State.ringAt
  extract_lets was u v teller w
  have hv : (v.blk .mode).modeOk p := State.leadless_modeOk (by simp [u, h])
  have hw : (w.blk .mode).modeOk p := by
    unfold w
    clear_value teller
    split
    · split <;> simp [hv]
    · exact hv
  simp [hw]

@[simp] theorem State.rootAt_modeOk (h : (s.blk .mode).modeOk p) : (s.rootAt.blk .mode).modeOk p := by
  unfold State.rootAt
  split
  · exact h
  · extract_lets u used w
    have hu : (u.blk .mode).modeOk p := by simp [u, h]
    have hw : (w.blk .mode).modeOk p := by
      have hkept : w.blk .mode = u.blk .mode := State.onAll_blk u _ fun t d => State.foldl_blk t _ _ fun t a => by simp
      rwa [hkept]
    split <;> simp [hw]

theorem State.boundary_modeOk (h : (s.blk .mode).modeOk p) (obs : BoundaryObs) :
    ((s.boundary obs).blk .mode).modeOk p := by
  unfold State.boundary
  extract_lets u1 back u2 u3 u4 u5 u6 u7
  have h3 : (u3.blk .mode).modeOk p := by simp [u3, u2, u1, h]
  have h4 : (u4.blk .mode).modeOk p := State.ringAt_modeOk (by simp [h3])
  have h5 : (u5.blk .mode).modeOk p := State.rootAt_modeOk h4
  simp [u7, u6, h5]

theorem execVddhPowerDown_modeOk (h : (s.blk .mode).modeOk p) :
    Meets (fun t => (t.blk .mode).modeOk p) (execVddhPowerDown s) := by
  simp [execVddhPowerDown, h]

theorem execBoot_modeOk (h : (s.blk .mode).modeOk p) (straps readable : Fin 4)
    (ecc : List (BitVec 18 × EccResult × EccResult)) :
    Meets (fun t => (t.blk .mode).modeOk p) (execBoot straps readable ecc s) := by
  unfold execBoot
  rw [meets_next]
  split
  · extract_lets u1 m u2 img u3 u4 u5
    have h4 : (u4.blk .mode).modeOk p := ⟨fun d hd => Option.some.inj hd ▸ isAccess_zero p, (by decide : (2 : Nat) ≤ 3)⟩
    simp [u5, h4]
  · exact h

theorem execStandbyEntry_modeOk (h : (s.blk .mode).modeOk p) :
    Meets (fun t => (t.blk .mode).modeOk p) (execStandbyEntry s) := by
  unfold execStandbyEntry
  rw [meets_next]
  split
  · extract_lets u
    have hu : (u.blk .mode).modeOk p := by simp [u, h]
    exact ⟨hu.1, (by decide : (3 : Nat) ≤ 3)⟩
  · exact h

theorem execStandbyWake_modeOk (h : (s.blk .mode).modeOk p) (source : Fin 4) (ns : Word) :
    Meets (fun t => (t.blk .mode).modeOk p) (execStandbyWake source ns s) := by
  unfold execStandbyWake
  extract_lets r r2 u l
  rw [meets_next]
  have hr : (r.2.blk .mode).modeOk p := by
    simp only [r]
    split <;> simp [h]
  split
  · have hu : (u.blk .mode).modeOk p := ⟨hr.1, (by decide : (2 : Nat) ≤ 3)⟩
    simp [hu]
  · split <;> assumption

theorem execStandbyExit_modeOk (h : (s.blk .mode).modeOk p) :
    Meets (fun t => (t.blk .mode).modeOk p) (execStandbyExit s) := by
  simp only [execStandbyExit, meets_next]
  (repeat' split) <;> simp [h]

end Sys2Proof.Machine
end

section
/-! SUPPORT. The rows together: every row, and an idle cycle, keeps the memories, the position, the lead die and the phase. -/

set_option Elab.async false

namespace Sys2Proof.Machine

variable {β : Blk}

/-- An answer that keeps a block has every property of that block that the state before had. -/
theorem Keeps.meets {P : State → Prop} {s : State} {r : Result} (hk : Keeps β s r) (h : P (s.blk β)) :
    Meets (fun t => P (t.blk β)) r := fun t ht => by
  simpa only [hk t ht] using h

/-! ### Resets -/

theorem State.resetTo_die (s : State) (ph : Nat) (f : Die → Die) (d : DieId) :
    (s.resetTo ph f).die d = f (s.die d) := by
  simp [State.resetTo, State.die]

theorem State.resetTo_fixed (s : State) (ph : Nat) (f : Die → Die) :
    (s.resetTo ph f).blk .fixed = s.blk .fixed := by
  have hdies : (s.dies.map f).map (·.blk .fixed) = s.dies.map (·.blk .fixed) := by
    rw [Vector.map_map]
    rfl
  simp only [State.blk, State.resetTo, hdies]

theorem State.resetTo_memoriesOk {s : State} (h : s.memoriesOk) (ph : Nat) {f : Die → Die}
    (hf : ∀ x : Die, x.memoriesOk → (f x).memoriesOk) : (s.resetTo ph f).memoriesOk := fun d => by
  rw [State.resetTo_die]
  exact hf _ (h d)

/-- A reset clears the SRAM and keeps the nonvolatile store (R467). -/
theorem Die.kept_memoriesOk {x : Die} (h : x.memoriesOk) : x.kept.memoriesOk := ⟨rfl, h.2⟩

theorem Die.keptOn_memoriesOk {x : Die} (h : x.memoriesOk) : x.keptOn.memoriesOk := ⟨rfl, h.2⟩

theorem State.between_memoriesOk {s : State} (h : s.memoriesOk) (v lo hi : Nat) : (s.between v lo hi).2.memoriesOk := by
  rw [State.memoriesOk_iff_blk] at h ⊢
  obtain ⟨hsram, hnv⟩ := h
  simp [hsram, hnv]

/-- A reset takes the position to 0 and leaves no lead die and the phase it names (R470). -/
theorem State.resetTo_posOk (s : State) (ph : Nat) (f : Die → Die) :
    ((s.resetTo ph f).blk .pos).posOk := Nat.zero_le 1279

theorem State.resetTo_modeOk (s : State) (p : Part) {ph : Nat} (hph : ph ≤ 3) (f : Die → Die) :
    ((s.resetTo ph f).blk .mode).modeOk p := ⟨nofun, hph⟩

/-- BROWNOUT resets the package, or draws its free value alone, or does nothing; RESET_N and the rows of the boundary below
have the same shape. A property that each of these keeps, the row keeps. -/
theorem execBrownout_meets (P : State → Prop) {s : State} (h : P s) (hfree : ∀ v lo hi, P (s.between v lo hi).2)
    (hreset : ∀ t, P t → P (t.resetTo 0 Die.kept)) (d : DieId) (rail : Fin 5) (io33 : Bool) (mv : BitVec 16) (ns : Word) :
    Meets P (execBrownout d rail io33 mv ns s) := by
  unfold execBrownout
  rw [meets_next]
  split
  · extract_lets r
    split
    · exact hreset _ (hfree _ _ _)
    · exact hfree _ _ _
  · exact h

theorem execResetN_meets (P : State → Prop) {s : State} (h : P s) (hfree : ∀ v lo hi, P (s.between v lo hi).2)
    (hreset : ∀ t, P t → P (t.resetTo 1 Die.keptOn)) (ns : Word) : Meets P (execResetN ns s) := by
  unfold execResetN
  extract_lets r
  rw [meets_next]
  (repeat' split)
  · exact h
  · exact hreset _ (hfree _ _ _)
  · exact hfree _ _ _

/-! ### The rows together -/

theorem execStrokeBoundary_meets (P : State → Prop) {s : State} (h : P s) (hb : ∀ obs, P (s.boundary obs))
    (obs : BoundaryObs) :
    Meets P (execStrokeBoundary obs s) := by
  unfold execStrokeBoundary
  rw [meets_next]
  split
  · exact hb obs
  · exact h

theorem execTrainBudgetExpired_meets (P : State → Prop) {s : State} (h : P s) (hb : ∀ obs, P (s.boundary obs))
    (q : PortId) :
    Meets P (execTrainBudgetExpired q s) := by
  unfold execTrainBudgetExpired
  extract_lets v x
  rw [meets_next]
  split
  · exact hb _
  · exact h

theorem Meets.memoriesOk {r : Result} (hsram : Meets (fun t => (t.blk .sram).memoriesOk) r)
    (hnv : Meets (fun t => (t.blk .nv).memoriesOk) r) : Meets State.memoriesOk r := fun t ht =>
  t.memoriesOk_iff_blk.mpr ⟨hsram t ht, hnv t ht⟩

theorem State.boundary_memoriesOk {s : State} (h : s.memoriesOk) (obs : BoundaryObs) : (s.boundary obs).memoriesOk := by
  obtain ⟨hsram, hnv⟩ := s.memoriesOk_iff_blk.mp h
  exact (s.boundary obs).memoriesOk_iff_blk.mpr ⟨State.boundary_sram hsram obs, State.boundary_nv hnv obs⟩

/-- Every row leaves the memories of every die in their canonical form: the tables writesSram and writesNv name the rows that
store at all, and each of those stores through Memory.write or lists fewer bytes. -/
theorem exec_memoriesOk (c : Instr) {s : State} (h : s.memoriesOk) : Meets State.memoriesOk (exec c s) := by
  obtain ⟨hsram, hnv⟩ := s.memoriesOk_iff_blk.mp h
  have keepsSram : writesSram c = false → Meets (fun t => (t.blk .sram).memoriesOk) (exec c s) := fun hw =>
    Keeps.meets (exec_keeps c s hw) hsram
  have keepsNv : writesNv c = false → Meets (fun t => (t.blk .nv).memoriesOk) (exec c s) := fun hw =>
    Keeps.meets (exec_keeps c s hw) hnv
  have hfree : ∀ v lo hi, (s.between v lo hi).2.memoriesOk := State.between_memoriesOk h
  have hreset : ∀ t : State, t.memoriesOk → (t.resetTo 0 Die.kept).memoriesOk := fun t ht =>
    State.resetTo_memoriesOk ht 0 fun _ => Die.kept_memoriesOk
  have hresetOn : ∀ t : State, t.memoriesOk → (t.resetTo 1 Die.keptOn).memoriesOk := fun t ht =>
    State.resetTo_memoriesOk ht 1 fun _ => Die.keptOn_memoriesOk
  cases c with
  | powerOnReset => exact (meets_next _ _).mpr (hreset s h)
  | brownout => exact execBrownout_meets State.memoriesOk h hfree hreset _ _ _ _ _
  | resetN => exact execResetN_meets State.memoriesOk h hfree hresetOn _
  | strokeBoundary => exact execStrokeBoundary_meets State.memoriesOk h (State.boundary_memoriesOk h) _
  | trainBudgetExpired => exact execTrainBudgetExpired_meets State.memoriesOk h (State.boundary_memoriesOk h) _
  | perst => exact (execPerst_sram hsram _).memoriesOk (keepsNv rfl)
  | captureTrigger => exact (execCaptureTrigger_sram hsram _ _ _ _).memoriesOk (keepsNv rfl)
  | standbyWake => exact (execStandbyWake_sram hsram _ _).memoriesOk (keepsNv rfl)
  | regRsp => exact (execRegRsp_sram hsram _ _ _).memoriesOk (keepsNv rfl)
  | evtFwd => exact (execEvtFwd_sram hsram _ _ _).memoriesOk (keepsNv rfl)
  | packetAbandoned => exact (execPacketAbandoned_sram hsram _ _).memoriesOk (keepsNv rfl)
  | registerWrite => exact (execRegisterWrite_sram hsram _ _ _ _ _).memoriesOk (keepsNv rfl)
  | twiWriteFrame => exact (execTwiWriteFrame_sram hsram _ _).memoriesOk (keepsNv rfl)
  | recordPost => exact (execRecordPost_sram hsram _ _).memoriesOk (keepsNv rfl)
  | eventForward => exact (execEventForward_sram hsram _).memoriesOk (keepsNv rfl)
  | hkConversionEnd => exact (execHkConversionEnd_sram hsram _ _).memoriesOk (keepsNv rfl)
  | boot => exact (keepsSram rfl).memoriesOk (execBoot_nv hnv _ _ _)
  | fwReverted => exact (keepsSram rfl).memoriesOk (execFwReverted_nv hnv _)
  | pegRestart => exact (keepsSram rfl).memoriesOk (execPegRestart_nv hnv _ _)
  | testEnded => exact (keepsSram rfl).memoriesOk (execTestEnded_nv hnv _ _ _ _ _ _)
  | repairSoft => exact (keepsSram rfl).memoriesOk (execRepairSoft_nv hnv _)
  | fuseWritten => exact (keepsSram rfl).memoriesOk (execFuseWritten_nv hnv _)
  | nvRead => exact (keepsSram rfl).memoriesOk (execNvRead_nv hnv _ _)
  | nvWrite => exact (keepsSram rfl).memoriesOk (execNvWrite_nv hnv _)
  | nvWorn => exact (keepsSram rfl).memoriesOk (execNvWorn_nv hnv _)
  | mirrorResync => exact (keepsSram rfl).memoriesOk (execMirrorResync_nv hnv)
  | calRead => exact (keepsSram rfl).memoriesOk (execCalRead_nv hnv _ _ _)
  | calWrite => exact (keepsSram rfl).memoriesOk (execCalWrite_nv hnv _)
  | _ => exact (keepsSram rfl).memoriesOk (keepsNv rfl)

/-- No row changes the part or the queue of waiting commands. -/
theorem exec_keeps_fixed (c : Instr) (s : State) : Keeps .fixed s (exec c s) := by
  have hboundary : ∀ obs, (s.boundary obs).blk .fixed = s.blk .fixed := fun obs => State.boundary_blk s obs (by simp)
  have hfree : ∀ v lo hi, (s.between v lo hi).2.blk .fixed = s.blk .fixed := fun v lo hi => by simp
  have hreset : ∀ (ph : Nat) (f : Die → Die) (t : State),
      t.blk .fixed = s.blk .fixed → (t.resetTo ph f).blk .fixed = s.blk .fixed :=
    fun ph f t ht => (t.resetTo_fixed ph f).trans ht
  cases c with
  | powerOnReset => exact (meets_next _ _).mpr (s.resetTo_fixed 0 Die.kept)
  | brownout => exact execBrownout_meets (fun t => t.blk .fixed = s.blk .fixed) rfl hfree (hreset 0 Die.kept) _ _ _ _ _
  | resetN => exact execResetN_meets (fun t => t.blk .fixed = s.blk .fixed) rfl hfree (hreset 1 Die.keptOn) _
  | strokeBoundary => exact execStrokeBoundary_meets (fun t => t.blk .fixed = s.blk .fixed) rfl hboundary _
  | trainBudgetExpired => exact execTrainBudgetExpired_meets (fun t => t.blk .fixed = s.blk .fixed) rfl hboundary _
  | _ => exact exec_keeps _ s rfl

/-- The boundary reaches no PCI Express endpoint: outside writesEndpoints a row leaves both as they were. -/
theorem exec_keeps_endpoints (c : Instr) (s : State) (h : writesEndpoints c = false) : Keeps .endpoints s (exec c s) := by
  have hboundary : ∀ obs, (s.boundary obs).blk .endpoints = s.blk .endpoints := fun obs => State.boundary_blk s obs (by simp)
  cases c with
  | powerOnReset | brownout | resetN => cases h
  | strokeBoundary => exact execStrokeBoundary_meets (fun t => t.blk .endpoints = s.blk .endpoints) rfl hboundary _
  | trainBudgetExpired => exact execTrainBudgetExpired_meets (fun t => t.blk .endpoints = s.blk .endpoints) rfl hboundary _
  | _ => exact exec_keeps _ s (by rw [Blk.writtenBy, h]; rfl)

/-- The position lies within the stroke after every row: a row moves it by State.advance, or to 0. -/
theorem exec_posOk (c : Instr) {s : State} (h : (s.blk .pos).posOk) : Meets (fun t => (t.blk .pos).posOk) (exec c s) := by
  have hkept : movesPos c = false → Meets (fun t => (t.blk .pos).posOk) (exec c s) := fun hw =>
    Keeps.meets (exec_keeps c s hw) h
  have hfree : ∀ v lo hi, ((s.between v lo hi).2.blk .pos).posOk := fun v lo hi => by simp [h]
  cases c with
  | powerOnReset => exact (meets_next _ _).mpr (s.resetTo_posOk 0 Die.kept)
  | brownout => exact execBrownout_meets (fun t => (t.blk .pos).posOk) h hfree (fun t _ => t.resetTo_posOk 0 Die.kept) _ _ _ _ _
  | resetN => exact execResetN_meets (fun t => (t.blk .pos).posOk) h hfree (fun t _ => t.resetTo_posOk 1 Die.keptOn) _
  | boot => exact execBoot_posOk h _ _ _
  | strokeBoundary => exact execStrokeBoundary_meets (fun t => (t.blk .pos).posOk) h s.boundary_posOk _
  | trainBudgetExpired => exact execTrainBudgetExpired_meets (fun t => (t.blk .pos).posOk) h s.boundary_posOk _
  | fretOverrun => exact execFretOverrun_posOk h _ _ _
  | tuningFret => exact execTuningFret_posOk h _ _ _ _
  | reacqStart => exact execReacqStart_posOk h _ _
  | laneEqGet => exact execLaneEqGet_posOk h _
  | trainingEngineFret => exact execTrainingEngineFret_posOk h _
  | trainStatus => exact execTrainStatus_posOk h _
  | latticeStatus => exact execLatticeStatus_posOk h _
  | clkStatus => exact execClkStatus_posOk h _
  | standbyEntry => exact execStandbyEntry_posOk h
  | standbyWake => exact execStandbyWake_posOk h _ _
  | syncSend => exact execSyncSend_posOk h
  | heartbeatSend => exact execHeartbeatSend_posOk h _
  | eventForward => exact execEventForward_posOk h _
  | msixEvent => exact execMsixEvent_posOk h _
  | hkStrokeTrigger => exact execHkStrokeTrigger_posOk h _ _ _
  | pwmLoad => exact execPwmLoad_posOk h _
  | pwmWrap => exact execPwmWrap_posOk h _ _
  | liveCopy => exact execLiveCopy_posOk h _
  | profileSample => exact execProfileSample_posOk h _ _
  | workSliceEnd => exact execWorkSliceEnd_posOk h _ _ _
  | _ => exact hkept rfl

/-- After every row the lead die is an access die of the part, or none is chosen, and the phase is one of the four. -/
theorem exec_modeOk (c : Instr) {s : State} (h : (s.blk .mode).modeOk s.part) :
    Meets (fun t => (t.blk .mode).modeOk s.part) (exec c s) := by
  have hkept : writesMode c = false → Meets (fun t => (t.blk .mode).modeOk s.part) (exec c s) := fun hw =>
    Keeps.meets (exec_keeps c s hw) h
  have hfree : ∀ v lo hi, ((s.between v lo hi).2.blk .mode).modeOk s.part := fun v lo hi => by simp [h]
  have hreset : ∀ ph f, ph ≤ 3 → ∀ t, (t.blk .mode).modeOk s.part → ((State.resetTo t ph f).blk .mode).modeOk s.part :=
    fun ph f hph t _ => t.resetTo_modeOk s.part hph f
  cases c with
  | powerOnReset => exact (meets_next _ _).mpr (hreset 0 Die.kept (by decide) s h)
  | brownout => exact execBrownout_meets (fun t => (t.blk .mode).modeOk s.part) h hfree (hreset 0 Die.kept (by decide)) _ _ _ _ _
  | resetN => exact execResetN_meets (fun t => (t.blk .mode).modeOk s.part) h hfree (hreset 1 Die.keptOn (by decide)) _
  | boot => exact execBoot_modeOk h _ _ _
  | vddhPowerDown => exact execVddhPowerDown_modeOk h
  | strokeBoundary => exact execStrokeBoundary_meets (fun t => (t.blk .mode).modeOk s.part) h (State.boundary_modeOk h) _
  | trainBudgetExpired => exact execTrainBudgetExpired_meets (fun t => (t.blk .mode).modeOk s.part) h (State.boundary_modeOk h) _
  | standbyEntry => exact execStandbyEntry_modeOk h
  | standbyWake => exact execStandbyWake_modeOk h _ _
  | standbyExit => exact execStandbyExit_modeOk h
  | leadChanged => exact execLeadChanged_modeOk h
  | _ => exact hkept rfl

theorem exec_packageOk (c : Instr) {s : State} (h : s.packageOk) : Meets State.packageOk (exec c s) := fun t ht => by
  obtain ⟨hlead, hphase, hpos⟩ := h
  have hfixed := exec_keeps_fixed c s t ht
  have hpart : t.part = s.part := (congrArg State.part hfixed :)
  obtain ⟨hlead', hphase'⟩ := exec_modeOk c (s := s) ⟨hlead, hphase⟩ t ht
  exact ⟨fun d hd => hpart ▸ hlead' d hd, hphase', exec_posOk c (s := s) hpos t ht⟩

/-- One system cycle of idling moves the position on by State.advance (R22), which stores to no memory. -/
theorem State.tick_memoriesOk {s : State} (h : s.memoriesOk) : s.tick.memoriesOk := by
  obtain ⟨hsram, hnv⟩ := s.memoriesOk_iff_blk.mp h
  rw [State.memoriesOk_iff_blk]
  simp [State.tick, hsram, hnv]

theorem State.tick_packageOk {s : State} (h : s.packageOk) : s.tick.packageOk := by
  obtain ⟨hlead, hphase, hpos⟩ := h
  unfold State.tick
  split
  · have hmode : (s.advance (s.pos + 1)).blk .mode = s.blk .mode := State.advance_blk _ _ (by simp)
    have hfixed : (s.advance (s.pos + 1)).blk .fixed = s.blk .fixed := State.advance_blk _ _ (by simp)
    have hlead' : (s.advance (s.pos + 1)).lead = s.lead := (congrArg State.lead hmode :)
    have hphase' : (s.advance (s.pos + 1)).phase = s.phase := (congrArg State.phase hmode :)
    have hpart : (s.advance (s.pos + 1)).part = s.part := (congrArg State.part hfixed :)
    refine ⟨fun d hd => ?_, ?_, State.advance_posOk (s := s) hpos _⟩
    · rw [hpart]
      exact hlead d (hlead' ▸ hd)
    · rw [hphase']
      exact hphase
  · exact ⟨hlead, hphase, hpos⟩

end Sys2Proof.Machine
end

section
/-! PROOFS. The memories and the package: invariants and frames. -/

open Sys2Proof Sys2Proof.Machine

/-- Settles O4: each die of the state after reset is the die of reset, whose memories list nothing; no lead is chosen. -/
theorem resetMeetsTheInvariants : Obligations.ResetMeetsTheInvariants := by
  unfold Obligations.ResetMeetsTheInvariants
  refine ⟨fun d => ?_, nofun, by decide, by decide⟩
  rw [State.reset_die]
  exact ⟨rfl, rfl⟩

/-- Settles O5: every row keeps the canonical form (exec_memoriesOk), and an idle cycle writes no memory. -/
theorem stepKeepsMemoriesCanonical : Obligations.StepKeepsMemoriesCanonical := by
  unfold Obligations.StepKeepsMemoriesCanonical
  intro s t hs ht
  unfold step at ht
  split at ht
  · cases ht
    exact State.tick_memoriesOk hs
  next c rest hp =>
    exact exec_memoriesOk c (s := { s with pending := rest }) hs t ht

/-- Settles O6: every row keeps the three (exec_packageOk), and an idle cycle moves only the position, within the stroke. -/
theorem stepKeepsTheLeadAndPosition : Obligations.StepKeepsTheLeadAndPosition := by
  unfold Obligations.StepKeepsTheLeadAndPosition
  intro s t hs ht
  unfold step at ht
  split at ht
  · cases ht
    exact State.tick_packageOk hs
  next c rest hp =>
    exact exec_packageOk c (s := { s with pending := rest }) hs t ht

/-- Settles O8: writesSram and writesNv name every row that may write the block, so outside them exec_keeps gives the block of
every die back. -/
theorem memoryFrame : Obligations.MemoryFrame := by
  unfold Obligations.MemoryFrame
  intro c s t ht
  refine ⟨fun hsram d => ?_, fun hnv d => ?_⟩
  · exact (congrArg Die.sram (Keeps.die (exec_keeps c s (β := .sram) hsram) ht d) :)
  · have hstore := Keeps.die (exec_keeps c s (β := .nv) hnv) ht d
    exact ⟨(congrArg Die.nv hstore :), (congrArg Die.nvs hstore :)⟩

/-- Settles O12: each table names every row that may write its block; for the endpoints exec_keeps_endpoints covers the rows of
the boundary, which reach no endpoint. -/
theorem packageFrame : Obligations.PackageFrame := by
  unfold Obligations.PackageFrame
  intro c s t ht
  have hkept : ∀ b : Blk, b.writtenBy c = false → t.blk b = s.blk b := fun b hb => exec_keeps c s hb t ht
  refine ⟨fun hmode => ?_, fun hends => ?_, fun himages => ?_, fun hpos => ?_, fun hfree => ?_⟩
  · have h := hkept .mode hmode
    exact ⟨(congrArg State.lead h :), (congrArg State.phase h :), (congrArg State.wake h :), (congrArg State.waking h :),
      (congrArg State.rootOff h :), (congrArg State.vddhOff h :)⟩
  · have h := exec_keeps_endpoints c s hends t ht
    exact ⟨(congrArg State.ep0 h :), (congrArg State.ep1 h :)⟩
  · have h := hkept .images himages
    exact ⟨(congrArg State.gsync h :), (congrArg State.fwHeld h :), (congrArg State.fwOp h :), (congrArg State.fwDone h :),
      (congrArg State.fwBack h :)⟩
  · exact (congrArg State.pos (hkept .pos hpos) :)
  · exact (congrArg State.free (hkept .free hfree) :)
end

section
/-! SUPPORT. A cycle of idling, and a field of a die read back from a block that was kept. -/

set_option Elab.async false

namespace Sys2Proof.Machine

variable {β : Blk}

/-- A cycle of idling lets time pass within the stroke, and so writes no block but those that State.advance may (R22). -/
theorem State.tick_blk (s : State) (hb : β ∉ [Blk.courses, .stroke, .peg, .bist, .tele, .pos]) :
    s.tick.blk β = s.blk β := by
  unfold State.tick
  split
  · exact s.advance_blk _ hb
  · rfl

/-- A cycle of idling moves the position on by one sc while the package runs, and stops at the last sc (R22). -/
theorem State.tick_pos (s : State) :
    s.tick.pos = if s.running = true ∧ s.pos < 1279 then s.pos + 1 else s.pos := by
  unfold State.tick
  by_cases hlast : s.pos < 1279
  · rw [if_pos hlast, State.advance_pos]
    simp [hlast]
  · simp [hlast]

/-! ### Fields of a kept block -/

/-- A block that two states share is the same on each of their dies. -/
theorem State.die_of_blk {s t : State} (h : t.blk β = s.blk β) (d : DieId) : (t.die d).blk β = (s.die d).blk β := by
  rw [State.die_blk, State.die_blk, h]

variable {s t : State}

theorem State.active_of_blk (h : t.blk .active = s.blk .active) (d : DieId) : (t.die d).active = (s.die d).active :=
  (congrArg Die.active (State.die_of_blk h d) :)

theorem State.staged_of_blk (h : t.blk .staging = s.blk .staging) (d : DieId) : (t.die d).staged = (s.die d).staged :=
  (congrArg Die.staged (State.die_of_blk h d) :)

theorem State.ledger_of_blk (h : t.blk .ledger = s.blk .ledger) (d : DieId) : (t.die d).ledger = (s.die d).ledger :=
  (congrArg Die.ledger (State.die_of_blk h d) :)

theorem State.slices_of_blk (h : t.blk .slices = s.blk .slices) (d : DieId) : (t.die d).slices = (s.die d).slices :=
  (congrArg Die.slices (State.die_of_blk h d) :)

theorem State.ports_of_blk (h : t.blk .ports = s.blk .ports) (d : DieId) : (t.die d).ports = (s.die d).ports :=
  (congrArg Die.ports (State.die_of_blk h d) :)

theorem State.stroke_of_blk (h : t.blk .stroke = s.blk .stroke) (d : DieId) : (t.die d).stroke = (s.die d).stroke :=
  (congrArg Die.stroke (State.die_of_blk h d) :)

theorem State.brg_of_blk (h : t.blk .brg = s.blk .brg) (d : DieId) : (t.die d).brg = (s.die d).brg :=
  (congrArg Die.brg (State.die_of_blk h d) :)

theorem State.peg_of_blk (h : t.blk .peg = s.blk .peg) (d : DieId) : (t.die d).peg = (s.die d).peg :=
  (congrArg Die.peg (State.die_of_blk h d) :)

theorem State.evt_of_blk (h : t.blk .evt = s.blk .evt) (d : DieId) : (t.die d).evt = (s.die d).evt :=
  (congrArg Die.evt (State.die_of_blk h d) :)

theorem State.sram_of_blk (h : t.blk .sram = s.blk .sram) (d : DieId) : (t.die d).sram = (s.die d).sram :=
  (congrArg Die.sram (State.die_of_blk h d) :)

theorem State.nv_of_blk (h : t.blk .nv = s.blk .nv) (d : DieId) : (t.die d).nv = (s.die d).nv :=
  (congrArg Die.nv (State.die_of_blk h d) :)

end Sys2Proof.Machine
end

section
/-! PROOFS. The step, and the frame of the pegbox and the stroke. -/

open Sys2Proof Sys2Proof.Machine

/-- Settles O1: with an empty queue the step is State.tick, which writes none of the blocks that the statement names. -/
theorem stepRunsTheFront : Obligations.StepRunsTheFront := by
  unfold Obligations.StepRunsTheFront
  refine ⟨fun s c rest => rfl, fun s hempty => ⟨s.tick, ?_, s.tick_pos, ?_⟩⟩
  · unfold step
    rw [hempty]
  have hfixed : s.tick.blk .fixed = s.blk .fixed := s.tick_blk (by simp)
  have hmode : s.tick.blk .mode = s.blk .mode := s.tick_blk (by simp)
  have hring : s.tick.blk .ring = s.blk .ring := s.tick_blk (by simp)
  refine ⟨(congrArg State.pending hfixed :).trans hempty, (congrArg State.phase hmode :), (congrArg State.lead hmode :),
    (congrArg State.air hring :), fun d => ⟨?_, ?_, ?_, ?_, ?_, ?_⟩⟩
  · exact State.active_of_blk (s.tick_blk (by simp)) d
  · exact State.staged_of_blk (s.tick_blk (by simp)) d
  · exact State.sram_of_blk (s.tick_blk (by simp)) d
  · exact State.nv_of_blk (s.tick_blk (by simp)) d
  · exact State.slices_of_blk (s.tick_blk (by simp)) d
  · exact State.ports_of_blk (s.tick_blk (by simp)) d

/-- Settles O11: each table names every row that may write its block, so outside it exec_keeps gives the block of every die
back. -/
theorem pegboxFrame : Obligations.PegboxFrame := by
  unfold Obligations.PegboxFrame
  intro c s t ht
  refine ⟨fun hqueues d => ?_, fun hpeg => ?_, fun hstroke => ?_, fun hposts => ?_⟩
  · have h := (exec_keeps c s (β := .queues) hqueues).die ht d
    exact ⟨(congrArg Die.q0 h :), (congrArg Die.q1 h :), (congrArg Die.q2 h :)⟩
  · exact State.peg_of_blk (exec_keeps c s (β := .peg) hpeg t ht)
  · exact State.stroke_of_blk (exec_keeps c s (β := .stroke) hstroke t ht)
  · have hevt : Blk.evt.writtenBy c = false := by
      rw [Blk.writtenBy, hposts]
      rfl
    exact State.evt_of_blk (exec_keeps c s hevt t ht)
end

section
/-! SUPPORT. The stroke count of a die, the work its frets have done, and whether it sleeps: what each function of the boundary
that writes the stroke block leaves of them (R21, R22). -/

set_option Elab.async false

namespace Sys2Proof.Machine

/-- Where a die stands in time: its stroke count, the frets whose work has run, and whether it counts strokes at all. -/
def Die.clock (x : Die) : Nat × Nat × Bool := (x.stroke.count, x.stroke.ran, x.stroke.asleep)

/-- The clocks of all dies. -/
def State.clocks (s : State) : DieId → Nat × Nat × Bool := fun d => (s.die d).clock

@[simp] theorem Die.stroke_blk (x : Die) : (x.blk .stroke).stroke = x.stroke := by
  simp only [Die.blk]

@[simp] theorem State.die_stroke_blk (s : State) (d : DieId) : ((s.blk .stroke).die d).stroke = (s.die d).stroke := by
  rw [← State.die_blk, Die.stroke_blk]

theorem State.clocks_blk (s : State) : (s.blk .stroke).clocks = s.clocks := by
  funext d
  simp [State.clocks, Die.clock]

/-- Writing a die moves no clock, when what is written has the die's count, its fret bits and its sleep. -/
@[simp] theorem State.clocks_setDie {s : State} {d : DieId} {x : Die} (hcount : x.stroke.count = (s.die d).stroke.count)
    (hran : x.stroke.ran = (s.die d).stroke.ran) (hasleep : x.stroke.asleep = (s.die d).stroke.asleep) :
    (s.setDie d x).clocks = s.clocks := by
  funext e
  unfold State.clocks
  rw [State.die_setDie]
  split
  next he => rw [he, Die.clock, hcount, hran, hasleep, Die.clock]
  next => rfl

@[simp] theorem State.clocks_ite (c : Prop) [Decidable c] (s t : State) :
    (if c then s else t).clocks = if c then s.clocks else t.clocks := apply_ite State.clocks c s t

@[simp] theorem State.clocks_onAll (s : State) (f : State → DieId → State)
    (h : ∀ t d, ((f t d).blk .stroke).clocks = (t.blk .stroke).clocks) :
    ((s.onAll f).blk .stroke).clocks = (s.blk .stroke).clocks :=
  State.onAll_keeps s (fun t => (t.blk .stroke).clocks) f h

@[simp] theorem State.clocks_onAwake (s : State) (f : State → DieId → State)
    (h : ∀ t d, ((f t d).blk .stroke).clocks = (t.blk .stroke).clocks) :
    ((s.onAwake f).blk .stroke).clocks = (s.blk .stroke).clocks := by
  simp [State.onAwake, h]

/-! ### Functions of fret 0 that reach no stroke block -/

@[simp ↓] theorem State.rotSide_stroke (s : State) (d : DieId) (c : Nat) (h : Side) :
    (s.rotSide d c h).blk .stroke = s.blk .stroke := by
  unfold State.rotSide
  extract_lets x r why u v w
  have hv : v.blk .stroke = s.blk .stroke := by simp only [v, u]; split <;> simp
  (repeat' split) <;> simp [w, hv]

@[simp ↓] theorem State.testAt_stroke (s : State) (d : DieId) (t : Test) : (s.testAt d t).blk .stroke = s.blk .stroke := by
  unfold State.testAt
  extract_lets x w c h put cancel
  (repeat' split) <;> simp [put]

@[simp ↓] theorem State.offBefore_stroke (s : State) (p : PortId) : (s.offBefore p).1.blk .stroke = s.blk .stroke := by
  simp only [State.offBefore]
  split <;> simp

@[simp ↓] theorem State.applyCourse_stroke (s : State) (d : DieId) (c : Nat) :
    (s.applyCourse d c).blk .stroke = s.blk .stroke := by
  unfold State.applyCourse
  extract_lets -lift old ports u hits
  have hu : u.blk .stroke = s.blk .stroke := by simp [u]
  have hq := State.foldl_fst_blk (β := .stroke)
    (fun (r : State × List Nat) p => ((r.1.offBefore p).1, r.2 ++ (r.1.offBefore p).2)) ports (u, []) (fun r p => by simp)
  split
  next w txs hw =>
  replace hw : w.blk .stroke = s.blk .stroke := by simpa [hw, hu] using hq
  simp [hw]

@[simp ↓] theorem State.applyGroup_stroke (s : State) (d : DieId) (g : Nat) :
    (s.applyGroup d g).blk .stroke = s.blk .stroke := by
  simp [State.applyGroup]

@[simp ↓] theorem State.portAt_stroke (s : State) (p : PortId) : (s.portAt p).blk .stroke = s.blk .stroke := by
  simp only [State.portAt]
  (repeat' split) <;> simp

@[simp ↓] theorem State.portBoundary_stroke (s : State) (p : PortId) : (s.portBoundary p).blk .stroke = s.blk .stroke := by
  simp [State.portBoundary]

@[simp ↓] theorem State.isolateAt_stroke (s : State) (d : DieId) : (s.isolateAt d).blk .stroke = s.blk .stroke := by
  simp [State.isolateAt]

@[simp ↓] theorem State.loadLedger_stroke (s : State) (d : DieId) : (s.loadLedger d).blk .stroke = s.blk .stroke := by
  simp [State.loadLedger]

@[simp ↓] theorem State.rejoin_stroke (s : State) (d : DieId) (o : Op) : (s.rejoin d o).blk .stroke = s.blk .stroke := by
  simp [State.rejoin]

/-! ### Functions that write the stroke block -/

theorem Die.schedule_clock (x : Die) (d : DieId) (n mask kind : Nat) :
    (x.schedule d n mask kind).stroke.count = x.stroke.count ∧ (x.schedule d n mask kind).stroke.ran = x.stroke.ran ∧
      (x.schedule d n mask kind).stroke.asleep = x.stroke.asleep := by
  unfold Die.schedule
  (repeat' split) <;> exact ⟨rfl, rfl, rfl⟩

@[simp] theorem State.toTracking_clocks (s : State) (d : DieId) :
    ((s.toTracking d).blk .stroke).clocks = (s.blk .stroke).clocks := by
  simp [State.toTracking]

@[simp] theorem State.realign_clocks (s : State) :
    ((s.realign).blk .stroke).clocks = (s.blk .stroke).clocks := by
  simp [State.realign]

@[simp] theorem State.sysTo_clocks (s : State) (d : DieId) (src : Nat) (forced : Bool) :
    ((s.sysTo d src forced).blk .stroke).clocks = (s.blk .stroke).clocks := by
  simp [State.sysTo]

@[simp] theorem State.switchAt_clocks (s : State) (d : DieId) (m : Domain) (forced : Bool) :
    ((s.switchAt d m forced).blk .stroke).clocks = (s.blk .stroke).clocks := by
  simp only [State.switchAt]
  (repeat' split) <;> simp

@[simp] theorem State.sendGlobal_clocks (s : State) (d : DieId) (mask kind : Nat) :
    ((s.sendGlobal d mask kind).blk .stroke).clocks = (s.blk .stroke).clocks := by
  have hsent : ((s.broadcast d (.gcommit (s.globalDue d) mask kind)).die d).stroke = (s.die d).stroke :=
    State.stroke_of_blk (by simp) d
  simp [State.sendGlobal, Die.schedule_clock, hsent]

@[simp] theorem State.releaseHeld_clocks (s : State) (d : DieId) :
    ((s.releaseHeld d).blk .stroke).clocks = (s.blk .stroke).clocks := by
  simp [State.releaseHeld]

@[simp] theorem State.snapSend_clocks (s : State) (k : Packet) :
    ((s.snapSend k).blk .stroke).clocks = (s.blk .stroke).clocks := by
  simp [State.snapSend]

@[simp] theorem State.snapRelease_clocks (s : State) (d : DieId) :
    ((s.snapRelease d).blk .stroke).clocks = (s.blk .stroke).clocks := by
  unfold State.snapRelease
  split <;> simp

@[simp] theorem State.fwSend_clocks (s : State) (mask : Nat) :
    ((s.fwSend mask).blk .stroke).clocks = (s.blk .stroke).clocks := by
  unfold State.fwSend
  extract_lets l t u
  have hsent : (u.die l).stroke = (s.die l).stroke := State.stroke_of_blk (by simp [u]) l
  simp [u, Die.schedule_clock, hsent]

@[simp] theorem State.fwRelease_clocks (s : State) (d : DieId) :
    ((s.fwRelease d).blk .stroke).clocks = (s.blk .stroke).clocks := by
  simp [State.fwRelease]

@[simp] theorem State.snapsAt_clocks (s : State) (d : DieId) :
    ((s.snapsAt d).blk .stroke).clocks = (s.blk .stroke).clocks := by
  unfold State.snapsAt
  extract_lets n t u due w
  have hu : u.blk .stroke = s.blk .stroke := by
    simp only [u]
    (repeat' split) <;> simp
  have hw : w.blk .stroke = s.blk .stroke := by simp [w, hu]
  have hstroke : (w.die d).stroke = (s.die d).stroke := State.stroke_of_blk hw d
  simp [hw, hstroke]

@[simp] theorem State.leadless_clocks (s : State) :
    ((s.leadless).blk .stroke).clocks = (s.blk .stroke).clocks := by
  simp [State.leadless]

@[simp] theorem State.ringAt_clocks (s : State) :
    ((s.ringAt).blk .stroke).clocks = (s.blk .stroke).clocks := by
  unfold State.ringAt
  extract_lets was u v teller w
  have hw : (w.blk .stroke).clocks = (s.blk .stroke).clocks := by
    unfold w
    clear_value teller
    (repeat' split) <;> simp [v, u]
  simp [hw]

@[simp] theorem State.rootAt_clocks (s : State) :
    ((s.rootAt).blk .stroke).clocks = (s.blk .stroke).clocks := by
  unfold State.rootAt
  split
  · rfl
  · extract_lets u used w
    have hu : (u.blk .stroke).clocks = (s.blk .stroke).clocks := by simp [u]
    have hw : w.blk .stroke = u.blk .stroke :=
      State.onAll_blk u _ fun t d => State.foldl_blk t _ _ fun t a => by simp
    split <;> simp [hw, hu]

@[simp] theorem State.applyDue_clocks (s : State) (d : DieId) :
    ((s.applyDue d).blk .stroke).clocks = (s.blk .stroke).clocks := by
  unfold State.applyDue
  extract_lets x n loc mine glob late doneL doneG bits rest u all u1 u2 u3 u4
  have hu : (u.blk .stroke).clocks = (s.blk .stroke).clocks := by simp [u]
  have h1 : (u1.blk .stroke).clocks = (s.blk .stroke).clocks := by simp [u1, hu]
  have h2 : (u2.blk .stroke).clocks = (s.blk .stroke).clocks := by simp [u2, h1]
  simp [u4, u3, h2]

@[simp] theorem State.dieAt_clocks (s : State) (d : DieId) :
    ((s.dieAt d).blk .stroke).clocks = (s.blk .stroke).clocks := by
  simp [State.dieAt]

/-! ### Restores, and the dies that resume -/

/-- A die that adopts the lead's count keeps its fret bits and its sleep, and no other die moves (R40). -/
theorem State.adoptCount_stroke (s : State) (d : DieId) :
    ((s.adoptCount d).die d).stroke.ran = (s.die d).stroke.ran ∧ ((s.adoptCount d).die d).stroke.asleep = (s.die d).stroke.asleep ∧
      ∀ e, e ≠ d → ((s.adoptCount d).die e).stroke = (s.die e).stroke := by
  unfold State.adoptCount
  simp +contextual

/-- A step of a restore leaves the stroke blocks alone, but for the die that is restored and adopts the lead's count (R40, R286). -/
theorem State.restoreAt_stroke (s : State) (d : DieId) :
    (s.restoreAt d).blk .stroke = s.blk .stroke ∨
      ((s.die d).brg.restoring = true ∧ (s.restoreAt d).blk .stroke = (s.adoptCount d).blk .stroke) := by
  simp only [State.restoreAt]
  (repeat' split) <;> simp_all

theorem State.restoreAt_ran (s : State) (e d : DieId) : ((s.restoreAt e).die d).stroke.ran = (s.die d).stroke.ran := by
  rcases s.restoreAt_stroke e with h | ⟨-, h⟩
  · rw [State.stroke_of_blk h]
  · rw [State.stroke_of_blk h]
    obtain ⟨hran, -, hother⟩ := s.adoptCount_stroke e
    by_cases hd : d = e
    · rw [hd, hran]
    · rw [hother d hd]

theorem State.resume_clock_ne (s : State) {d e : DieId} (h : d ≠ e) : (s.resume e).clocks d = s.clocks d := by
  unfold State.resume
  extract_lets lead n u v
  have hu : u.clocks d = s.clocks d := by simp [u, State.clocks, h]
  have hv : v.clocks d = u.clocks d := by
    unfold v
    split
    · rfl
    · rw [← State.clocks_blk, State.toTracking_clocks, State.clocks_blk]
  split
  · rw [← hu, ← hv, ← State.clocks_blk, ← State.clocks_blk v]
    simp
  · rw [hv, hu]

/-- Resuming moves the clock of no die that is awake (R472). -/
theorem State.resumesAt_clock (s : State) {d : DieId} (h : (s.die d).stroke.asleep = false) :
    s.resumesAt.clocks d = s.clocks d := by
  refine State.onAll_induction (motive := fun t => t.clocks d = s.clocks d) s _ rfl fun t e ht => ?_
  split
  · split
    next hresume =>
      have hd : d ≠ e := by
        rintro rfl
        have hasleep : (t.die d).stroke.asleep = (s.die d).stroke.asleep := (congrArg (fun c => c.2.2) ht :)
        simp [hasleep, h] at hresume
      rw [State.resume_clock_ne t hd, ht]
    · exact ht
  · exact ht

/-- What each die's turn leaves of the others, and makes of its own die, is what the turns together make of a die of the part. -/
theorem State.onAll_die_of {P Q : Die → Prop} (s : State) (f : State → DieId → State) {d : DieId} (hd : present s.part d = true)
    (hother : ∀ t e, e ≠ d → (f t e).die d = t.die d) (hown : ∀ t, P (t.die d) → Q ((f t d).die d)) (hs : P (s.die d)) :
    Q ((s.onAll f).die d) := by
  have hkeep : ∀ (l : List DieId) (t : State), d ∉ l → (l.foldl f t).die d = t.die d := by
    intro l
    induction l with
    | nil => intro t _; rfl
    | cons e l ih =>
      intro t h
      rw [List.mem_cons, not_or] at h
      rw [List.foldl_cons, ih _ h.2, hother t e (Ne.symm h.1)]
  have hmem : d ∈ s.dieList := by simp [State.dieList, hd]
  have hnodup : s.dieList.Nodup := (List.nodup_finRange 8).filter _
  obtain ⟨l₁, l₂, hl⟩ := List.append_of_mem hmem
  rw [hl] at hnodup
  have hafter : d ∉ l₂ := (List.nodup_cons.mp hnodup.of_append_right).1
  have hbefore : d ∉ l₁ := fun h => List.disjoint_of_nodup_append hnodup h List.mem_cons_self
  rw [State.onAll, hl, List.foldl_append, List.foldl_cons, hkeep l₂ _ hafter]
  exact hown _ (by rwa [hkeep l₁ s hbefore])

/-- The same of the dies whose stroke count runs (R472). -/
theorem State.onAwake_die_of {P Q : Die → Prop} (s : State) (f : State → DieId → State) {d : DieId}
    (hd : present s.part d = true) (hother : ∀ t e, e ≠ d → (f t e).die d = t.die d)
    (hown : ∀ t, P (t.die d) → Q ((f t d).die d)) (hs : P (s.die d)) (hawake : (s.die d).stroke.asleep = false) :
    Q ((s.onAwake f).die d) := by
  refine s.onAll_die_of (P := fun x => P x ∧ x.stroke.asleep = false) _ hd (fun t e he => ?_) (fun t ht => ?_) ⟨hs, hawake⟩
  · split
    · rfl
    · exact hother t e he
  · rw [if_neg (by simp [ht.2])]
    exact hown t ht.1

end Sys2Proof.Machine
end

section
/-! SUPPORT. Whether a die is lost and whether it is isolated (R280, R284): of the functions that end a die's work as it is
isolated none changes either, until the die is marked. -/

set_option Elab.async false

namespace Sys2Proof.Machine

/-- Whether a die is lost, and whether it is isolated. -/
def Die.standing (x : Die) : Bool × Bool := (x.brg.lost, x.brg.isolated)

/-- The same of all dies. -/
def State.standing (s : State) : DieId → Bool × Bool := fun d => (s.die d).standing

@[simp] theorem Die.brg_blk (x : Die) : (x.blk .brg).brg = x.brg := by
  simp only [Die.blk]

@[simp] theorem State.die_brg_blk (s : State) (d : DieId) : ((s.blk .brg).die d).brg = (s.die d).brg := by
  rw [← State.die_blk, Die.brg_blk]

theorem State.standing_blk (s : State) : (s.blk .brg).standing = s.standing := by
  funext d
  simp [State.standing, Die.standing]

/-- Writing a die changes no standing, when what is written is as lost and as isolated as the die was. -/
@[simp] theorem State.standing_setDie {s : State} {d : DieId} {x : Die} (hlost : x.brg.lost = (s.die d).brg.lost)
    (hisol : x.brg.isolated = (s.die d).brg.isolated) : (s.setDie d x).standing = s.standing := by
  funext e
  unfold State.standing
  rw [State.die_setDie]
  split
  next he => rw [he, Die.standing, hlost, hisol, Die.standing]
  next => rfl

@[simp] theorem State.standing_ite (c : Prop) [Decidable c] (s t : State) :
    (if c then s else t).standing = if c then s.standing else t.standing := apply_ite State.standing c s t

@[simp] theorem State.standing_foldl {α : Type} (s : State) (f : State → α → State) (l : List α)
    (h : ∀ t a, ((f t a).blk .brg).standing = (t.blk .brg).standing) :
    ((l.foldl f s).blk .brg).standing = (s.blk .brg).standing :=
  State.foldl_keeps s (fun t => (t.blk .brg).standing) f h l

@[simp] theorem Die.mapCourses_brg (x : Die) (f : Course → Course) : (x.mapCourses f).brg = x.brg := by
  have h := congrArg Die.brg (x.mapCourses_blk f (β := .brg) (by simp))
  simpa only [Die.brg_blk] using h

@[simp] theorem State.sendTo_standing (s : State) (a b : DieId) (body : Body) (answered : Bool) :
    ((s.sendTo a b body answered).blk .brg).standing = (s.blk .brg).standing := by
  simp [State.sendTo]

@[simp] theorem State.dispatch_standing (s : State) (d : DieId) (x : Packet × Nat) :
    ((s.dispatch d x).blk .brg).standing = (s.blk .brg).standing := by
  simp [State.dispatch]

@[simp] theorem State.startHeld_standing (s : State) (d : DieId) (n : QueueId) :
    ((s.startHeld d n).blk .brg).standing = (s.blk .brg).standing := by
  simp [State.startHeld]

@[simp] theorem State.receive_standing (s : State) (d : DieId) (r : Rec) :
    ((s.receive d r).blk .brg).standing = (s.blk .brg).standing := by
  simp [State.receive]

@[simp] theorem State.deliver_standing (s : State) (at_ : DieId) (r : Rec) :
    ((s.deliver at_ r).blk .brg).standing = (s.blk .brg).standing := by
  simp [State.deliver]

@[simp] theorem State.endOp_standing (s : State) (d : DieId) (o : Op) (status effect : Nat) (data : List Nat) :
    ((s.endOp d o status effect data).blk .brg).standing = (s.blk .brg).standing := by
  simp [State.endOp]

@[simp] theorem State.conclude_standing (s : State) (d : DieId) (o : Op) (status effect : Nat) (data : List Nat) :
    ((s.conclude d o status effect data).blk .brg).standing = (s.blk .brg).standing := by
  simp [State.conclude]

@[simp] theorem State.closeTest_standing (s : State) (d : DieId) (t : Test) (r : TestResult) (status : Nat)
    (rec extra : List Nat) :
    ((s.closeTest d t r status rec extra).blk .brg).standing = (s.blk .brg).standing := by
  simp only [State.closeTest]
  (repeat' split) <;> simp

@[simp] theorem State.hoFail_standing (s : State) (d : DieId) (c : Nat) (h : Side) (r : SideRot)
    (live reason status : Nat) (kept : Bool) :
    ((s.hoFail d c h r live reason status kept).blk .brg).standing = (s.blk .brg).standing := by
  simp only [State.hoFail]
  (repeat' split) <;> simp

@[simp] theorem State.hoDrop_standing (s : State) (d : DieId) (c : Nat) (h : Side) (status : Nat) :
    ((s.hoDrop d c h status).blk .brg).standing = (s.blk .brg).standing := by
  simp [State.hoDrop]

@[simp] theorem State.workEnd_standing (s : State) (d : DieId) (c : Nat) (h : Side) (o : Op) (why status effect : Nat)
    (data : List Nat) :
    ((s.workEnd d c h o why status effect data).blk .brg).standing = (s.blk .brg).standing := by
  simp [State.workEnd]

@[simp] theorem State.workAbort_standing (s : State) (d : DieId) (c : Nat) (h : Side) (o : Op) (why : Nat) :
    ((s.workAbort d c h o why).blk .brg).standing = (s.blk .brg).standing := by
  simp [State.workAbort]

@[simp] theorem State.endCheck_standing (s : State) (d : DieId) (o : Op) (status : Nat) (data : List Nat) :
    ((s.endCheck d o status data).blk .brg).standing = (s.blk .brg).standing := by
  simp [State.endCheck]

@[simp] theorem State.checkCut_standing (s : State) (d : DieId) (o : Op) (status : Nat) :
    ((s.checkCut d o status).blk .brg).standing = (s.blk .brg).standing := by
  unfold State.checkCut
  split <;> simp

@[simp] theorem State.cutChecks_standing (s : State) (p : PortId) :
    ((s.cutChecks p).blk .brg).standing = (s.blk .brg).standing := by
  simp [State.cutChecks]

@[simp] theorem State.testCut_standing (s : State) (d : DieId) (t : Test) (r : TestResult) (status : Nat) :
    ((s.testCut d t r status).blk .brg).standing = (s.blk .brg).standing := by
  simp [State.testCut]

@[simp] theorem State.testFinish_standing (s : State) (d : DieId) (t : Test) (status : Nat) :
    ((s.testFinish d t status).blk .brg).standing = (s.blk .brg).standing := by
  unfold State.testFinish
  extract_lets u
  simp

@[simp] theorem State.cutTests_standing (s : State) (p : PortId) :
    ((s.cutTests p).blk .brg).standing = (s.blk .brg).standing := by
  simp [State.cutTests]

@[simp] theorem State.fuseCut_standing (s : State) (d : DieId) (o : Op) (status : Nat) :
    ((s.fuseCut d o status).blk .brg).standing = (s.blk .brg).standing := by
  unfold State.fuseCut
  split <;> simp

@[simp] theorem State.twiFinish_standing (s : State) (d : DieId) (m : Nat) (o : Op) (result status : Nat) (acked : Nat)
    (data : List Byte) (stop : Bool) :
    ((s.twiFinish d m o result status acked data stop).blk .brg).standing = (s.blk .brg).standing := by
  simp [State.twiFinish]

@[simp] theorem State.twiCut_standing (s : State) (d : DieId) (m status : Nat) (stop : Bool) :
    ((s.twiCut d m status stop).blk .brg).standing = (s.blk .brg).standing := by
  unfold State.twiCut
  split <;> simp

@[simp] theorem State.abortOp_standing (s : State) (d : DieId) (o : Op) (status : Nat) :
    ((s.abortOp d o status).blk .brg).standing = (s.blk .brg).standing := by
  simp only [State.abortOp]
  (repeat' split) <;> simp

@[simp] theorem State.abortOps_standing (s : State) (d : DieId) (f : Op → Bool) (status : Nat) :
    ((s.abortOps d f status).blk .brg).standing = (s.blk .brg).standing := by
  simp [State.abortOps]

@[simp] theorem State.trainEnd_standing (s : State) (p : PortId) (status effect reason seg : Nat) :
    ((s.trainEnd p status effect reason seg).blk .brg).standing = (s.blk .brg).standing := by
  unfold State.trainEnd
  split <;> simp

@[simp] theorem State.startEnd_standing (s : State) (p : PortId) (status reason seg : Nat) :
    ((s.startEnd p status reason seg).blk .brg).standing = (s.blk .brg).standing := by
  unfold State.startEnd
  split <;> simp

@[simp] theorem State.portOff_standing (s : State) (p : PortId) (reason : Nat) :
    ((s.portOff p reason).blk .brg).standing = (s.blk .brg).standing := by
  unfold State.portOff
  extract_lets -lift d n x v u₁ u₂ u₃ u₄ u₅ u₆
  have h₁ : (u₁.blk .brg).standing = (s.blk .brg).standing := by
    unfold u₁
    split <;> simp
  simp [u₂, u₃, u₄, u₅, u₆, h₁]

/-! ### A die whose work stops -/

theorem State.courses_of_blk {s t : State} (h : t.blk .courses = s.blk .courses) (d : DieId) :
    (t.die d).courses = (s.die d).courses :=
  (congrArg Die.courses (State.die_of_blk h d) :)

/-- The die as the end of its work leaves it (R284): isolated, under no restore, no bank copied; but for its gates. -/
def Die.workStopped (x : Die) : Die :=
  let x := x.mapCourses (fun v => { v with banks := { v.banks with copying := false, copied := 0, src := 7 } })
  { x with brg := { x.brg with isolated := true, isolNext := false, restoring := false, restStep := 0 } }

@[simp] theorem Die.workStopped_brg (x : Die) :
    x.workStopped.brg = { x.brg with isolated := true, isolNext := false, restoring := false, restStep := 0 } := by
  simp only [Die.workStopped, Die.mapCourses_brg]

/-- Before the gates of a die close its long operations, its tests, its ports and its slices have come to their end; that
changes no die's standing. -/
theorem State.stopDie_eq (s : State) (d : DieId) : ∃ u : State, u.standing = s.standing ∧
    s.stopDie d = (courseList.foldl (fun s c => s.gateTo d 2 c true true) (u.onDie d Die.workStopped)).refreshDie d := by
  unfold State.stopDie
  extract_lets -lift u₁ u₂ u₃ u₄ u₅ u₆ u₇ u₈
  refine ⟨u₆, ?_, rfl⟩
  have h₁ : (u₁.blk .brg).standing = (s.blk .brg).standing :=
    State.standing_foldl s _ _ fun t c => State.standing_foldl t _ _ fun t h => by split <;> simp
  have h₃ : (u₃.blk .brg).standing = (u₁.blk .brg).standing := by simp [u₃, u₂]
  have h₄ : (u₄.blk .brg).standing = (u₃.blk .brg).standing := State.standing_foldl u₃ _ _ fun t n => by simp
  have h₆ : (u₆.blk .brg).standing = (u₄.blk .brg).standing := by simp [u₆, u₅]
  rw [← State.standing_blk, ← s.standing_blk, h₆, h₄, h₃, h₁]

/-- A die whose work has stopped is isolated and under no restore, and as lost as it was (R284). -/
theorem State.stopDie_brg (s : State) (d : DieId) : ((s.stopDie d).die d).brg.lost = (s.die d).brg.lost ∧
    ((s.stopDie d).die d).brg.isolated = true ∧ ((s.stopDie d).die d).brg.restoring = false := by
  obtain ⟨u, hstand, heq⟩ := s.stopDie_eq d
  have hbrg : ((s.stopDie d).die d).brg = (u.die d).workStopped.brg := by
    rw [heq, State.brg_of_blk (s := u.onDie d Die.workStopped) (by simp), State.die_onDie_same]
  rw [hbrg, Die.workStopped_brg]
  exact ⟨(congrArg (fun b => (b d).1) hstand :), rfl, rfl⟩

/-! ### The banks of a die whose work has stopped -/

theorem Die.course_foldl_setCourse (f : Course → Course) {l : List Nat} (hl : l.Nodup) (x : Die) (c : Nat) :
    (l.foldl (fun x c => x.setCourse c (f (x.course c))) x).course c = if c ∈ l then f (x.course c) else x.course c := by
  induction l generalizing x with
  | nil => rfl
  | cons e l ih =>
    obtain ⟨hnot, hl⟩ := List.nodup_cons.mp hl
    rw [List.foldl_cons, ih hl]
    by_cases hc : c = e
    · simp [hc, hnot]
    · simp [hc]

theorem Die.course_mapCourses (x : Die) (f : Course → Course) {c : Nat} (hc : c < 8) : (x.mapCourses f).course c = f (x.course c) := by
  rw [Die.mapCourses, courseList, Die.course_foldl_setCourse f List.nodup_range, if_pos (List.mem_range.mpr hc)]

/-- Closing or opening a gate moves no bank. -/
theorem Die.setGate_banks (x : Die) (level node : Nat) (close : Bool) (c : Nat) :
    ((x.setGate level node close).course c).banks = (x.course c).banks := by
  unfold Die.setGate
  split
  case h_2 =>
    split
    · by_cases hc : c = node
      · simp [hc]
      · simp [hc]
    · (repeat' split) <;> rfl
  case h_4 => simp
  all_goals rfl

theorem State.gateTo_banks (s : State) (d : DieId) (level node : Nat) (close dev : Bool) (c : Nat) :
    (((s.gateTo d level node close dev).die d).course c).banks = ((s.die d).course c).banks := by
  unfold State.gateTo
  split
  · rfl
  · have hgate := (s.die d).setGate_banks level node close c
    simpa [State.onClk, Die.course] using hgate

theorem Die.workStopped_course (x : Die) (c : CourseId) : (x.workStopped.course c.val).banks.copying = false := by
  have h (y : Die) (b : Brg) : ({ y with brg := b } : Die).course c.val = y.course c.val := rfl
  rw [Die.workStopped, h, Die.course_mapCourses _ _ c.isLt]

theorem State.refreshDie_course (s : State) (d : DieId) (c : Nat) : ((s.refreshDie d).die d).course c = (s.die d).course c := by
  have h : ((s.refreshDie d).die d).courses = (s.die d).courses := State.courses_of_blk (State.refreshDie_blk s d (by simp)) d
  unfold Die.course
  rw [h]

/-- A die whose work has stopped copies no bank (R284). -/
theorem State.stopDie_banks (s : State) (d : DieId) (c : CourseId) :
    (((s.stopDie d).die d).course c.val).banks.copying = false := by
  obtain ⟨u, -, heq⟩ := s.stopDie_eq d
  have hgates := State.foldl_keeps (u.onDie d Die.workStopped) (fun t => ((t.die d).course c.val).banks.copying)
    (fun t n => t.gateTo d 2 n true true) (fun t n => congrArg Banks.copying (t.gateTo_banks d 2 n true true c.val)) courseList
  have hwork : (((u.onDie d Die.workStopped).die d).course c.val).banks.copying = false := by
    rw [State.die_onDie_same]
    exact (u.die d).workStopped_course c
  rw [heq, State.refreshDie_course]
  exact hgates.trans hwork

end Sys2Proof.Machine
end

section
/-! SUPPORT. The stroke that a boundary opens (R21, R31): its phase, its position and its clocks. -/

set_option Elab.async false

namespace Sys2Proof.Machine

theorem State.advance_clocks (s : State) (p : Nat) : (s.advance p).clocks = s.clocks := by
  funext d
  obtain ⟨m, t, cs, ts, r, h⟩ := State.advance_die (s := s) p d
  simp only [State.clocks, h, Die.clock]

/-! ### The phase -/

section
variable {s : State}

@[simp] theorem State.with_lead_phase (l : Option DieId) : (({ s with lead := l } : State).blk .mode).phase = (s.blk .mode).phase :=
  rfl

@[simp] theorem State.with_rootOff_phase (v : Bool) : (({ s with rootOff := v } : State).blk .mode).phase = (s.blk .mode).phase :=
  rfl

@[simp] theorem State.leadless_phase : (s.leadless.blk .mode).phase = (s.blk .mode).phase := by
  unfold State.leadless
  split <;> simp

@[simp] theorem State.ringAt_phase : (s.ringAt.blk .mode).phase = (s.blk .mode).phase := by
  unfold State.ringAt
  extract_lets was u v teller w
  have hv : (v.blk .mode).phase = (s.blk .mode).phase := by simp [v, u]
  have hw : (w.blk .mode).phase = (v.blk .mode).phase := by
    unfold w
    clear_value teller
    split
    · split <;> simp
    · rfl
  simp [hw, hv]

@[simp] theorem State.rootAt_phase : (s.rootAt.blk .mode).phase = (s.blk .mode).phase := by
  unfold State.rootAt
  split
  · rfl
  · extract_lets u used w
    have hw : w.blk .mode = u.blk .mode := State.onAll_blk u _ fun t d => State.foldl_blk t _ _ fun t a => by simp
    split <;> simp [hw, u]

theorem State.phase_blk (s : State) : (s.blk .mode).phase = s.phase := rfl

theorem State.boundary_phase (s : State) (obs : BoundaryObs) : (s.boundary obs).phase = s.phase := by
  rw [← State.phase_blk, ← s.phase_blk]
  unfold State.boundary
  extract_lets u1 back u2 u3 u4 u5 u6 u7
  have h3 : (u3.blk .mode).phase = (s.blk .mode).phase := by simp [u3, u2, u1]
  have h5 : (u5.blk .mode).phase = (u3.blk .mode).phase := by simp [u5, u4]
  simp [u7, u6, h5, h3]

theorem State.boundary_running (s : State) (obs : BoundaryObs) : (s.boundary obs).running = s.running := by
  rw [State.running, State.boundary_phase, ← State.running]

end

/-! ### The position and the clocks -/

theorem State.pos_of_blk {s t : State} (h : t.blk .pos = s.blk .pos) : t.pos = s.pos := (congrArg State.pos h :)

theorem State.boundary_pos (s : State) (obs : BoundaryObs) : (s.boundary obs).pos = 0 := by
  unfold State.boundary
  extract_lets u1 back u2 u3 u4 u5 u6 u7
  have hlater : (u7.blk .pos) = u3.blk .pos := by simp [u7, u6, u5, u4]
  have hresumed : u3.blk .pos = ({ u2 with pos := 0 } : State).blk .pos := by simp [u3]
  rw [State.pos_of_blk (s := { u2 with pos := 0 })]
  rw [← hresumed, ← hlater]
  simp

/-- The clock of a die is set by its stroke block. -/
theorem State.clocks_of_blk {s t : State} (h : (t.blk .stroke).clocks = (s.blk .stroke).clocks) : t.clocks = s.clocks := by
  rwa [State.clocks_blk, State.clocks_blk] at h

@[simp] theorem Die.crcStroke_stroke (x : Die) (a : Bool) : (x.crcStroke a).stroke = x.stroke := by
  have h : ((x.crcStroke a).blk .stroke).stroke = (x.blk .stroke).stroke := by simp
  rwa [Die.stroke_blk, Die.stroke_blk] at h

/-- A turn of parity, isolation and restore runs no fret. -/
theorem State.restoreTurns_ran (s : State) (d : DieId) :
    ((s.onAwake fun s d => ((s.parityAt d).isolateAt d).restoreAt d).die d).stroke.ran = (s.die d).stroke.ran :=
  State.onAwake_induction (motive := fun t => (t.die d).stroke.ran = (s.die d).stroke.ran) s _ rfl fun t e ht => by
    have hisol : (((t.parityAt e).isolateAt e).die d).stroke = (t.die d).stroke := State.stroke_of_blk (by simp) d
    rw [State.restoreAt_ran, hisol, ht]

theorem Die.newStroke_clock (x : Die) (back : Bool) : (x.newStroke back).clock = (x.stroke.count + 1, 0, x.stroke.asleep) := rfl

/-- A die that is awake enters the stroke with no fret run (R21). -/
theorem State.newStrokes_clock (s : State) (back : Bool) {d : DieId} (hd : present s.part d = true)
    (hawake : (s.die d).stroke.asleep = false) :
    ((s.onAwake fun s d => s.onDie d fun x => (x.crcStroke (isAccess s.part d)).newStroke (back && d = 0)).die d).clock =
      ((s.die d).stroke.count + 1, 0, false) := by
  refine State.onAwake_die_of (P := fun x => x.clock = (s.die d).clock)
    (Q := fun x => x.clock = ((s.die d).stroke.count + 1, 0, false)) s
    (fun s d => s.onDie d fun x => (x.crcStroke (isAccess s.part d)).newStroke (back && d = 0)) hd (fun t e he => ?_)
    (fun t ht => ?_) rfl hawake
  · simp [Ne.symm he]
  · simp only [Die.clock, Prod.mk.injEq] at ht
    rw [State.die_onDie_same, Die.newStroke_clock, Die.crcStroke_stroke, ht.1, ht.2.2, hawake]

/-- At a boundary the frets of a die of the part that is awake are to run anew (R21, R24). -/
theorem State.boundary_ran (s : State) (obs : BoundaryObs) {d : DieId} (hd : present s.part d = true)
    (hawake : (s.die d).stroke.asleep = false) : ((s.boundary obs).die d).stroke.ran = 0 := by
  unfold State.boundary
  extract_lets u1 back u2 u3 u4 u5 u6 u7
  have h1 : u1.clocks = s.clocks := by
    have hmeas : u1.clocks = ((s.advance 1279).onAwake (fun s d => s.onDie d (fun x => x.frets 1))).clocks :=
      State.clocks_of_blk (by simp [u1])
    have hfrets : ((s.advance 1279).onAwake (fun s d => s.onDie d (fun x => x.frets 1))).clocks = (s.advance 1279).clocks :=
      State.clocks_of_blk (by simp)
    rw [hmeas, hfrets, State.advance_clocks]
  have hpart : u1.part = s.part := (congrArg State.part (by simp [u1] : u1.blk .fixed = s.blk .fixed) :)
  clear_value u1 back
  have hawake1 : (u1.die d).stroke.asleep = false := (congrArg (fun c => (c d).2.2) h1 :).trans hawake
  have h2 : u2.clocks d = ((u1.die d).stroke.count + 1, 0, false) := u1.newStrokes_clock back (hpart ▸ hd) hawake1
  clear_value u2
  have h3 : u3.clocks d = u2.clocks d := State.resumesAt_clock _ (congrArg (fun c => c.2.2) h2 :)
  clear_value u3
  have h5 : u5.clocks = u3.clocks := State.clocks_of_blk (by simp [u5, u4])
  have hran5 : (u5.die d).stroke.ran = 0 := (congrArg (fun c => c.2.1) ((congrFun h5 d).trans (h3.trans h2)) :)
  clear_value u5
  have hran6 : (u6.die d).stroke.ran = 0 := (u5.restoreTurns_ran d).trans hran5
  clear_value u6
  have hclocks := State.clocks_of_blk (s := u6) (t := (u7.onAll fun s d => s.snapAnswer d).onAwake fun s d =>
    if isAccess s.part d then (s.ringRelease d).resyncAt d else s) (by simp [u7])
  exact (congrArg (fun c => (c d).2.1) hclocks :).trans hran6

end Sys2Proof.Machine
end

section
/-! SUPPORT. What a commit does to a register, to its ledger word and to its staged value (R303, R310), what an overrun does
to the stroke (R27, R28), and what a row leaves of the registers of every die. -/

set_option Elab.async false

namespace Sys2Proof.Machine

/-! ### The registers of a group that is applied -/

/-- A register at offset o: its value in use, its ledger word and its staged value. -/
def Die.regAt (x : Die) (o : Nat) : Half × Half × Option Half := (x.act o, x.led o, x.stg o)

theorem Die.unstage1_stg_same (x : Die) (o : Nat) : (x.unstage1 o).stg o = none := by
  simp [Die.stg, Die.unstage1]

theorem Die.unstage1_stg_ne (x : Die) {o p : Nat} (h : p ≠ o) : (x.unstage1 o).stg p = x.stg p := by
  unfold Die.stg Die.unstage1
  dsimp only
  rw [List.find?_filter]
  congr 2
  funext q
  by_cases hq : q.1 = p
  · simp [hq, h]
  · simp [hq]

theorem Die.led_setLed_ne (x : Die) {o p : Nat} (v : Half) (h : p ≠ o) : (x.setLed o v).led p = x.led p := by
  simp only [Die.led, Die.setLed, SMap.put]
  split
  · exact SMap.get_del_ne _ _ _ _ h
  · exact SMap.get_ins_ne _ _ _ _ _ h

theorem Die.commit_stg (x : Die) (o p : Nat) (v : Half) : (x.commit o v).stg p = x.stg p := by
  unfold Die.commit
  split <;> rfl

theorem Die.commit_led_same (x : Die) (o : Nat) (v : Half) : (x.commit o v).led o = v := by
  unfold Die.commit
  split <;> simp [Die.led, Die.setLed]

theorem Die.commit_led_ne (x : Die) {o p : Nat} (v : Half) (h : p ≠ o) : (x.commit o v).led p = x.led p := by
  unfold Die.commit
  split <;> simp [Die.led_setLed_ne _ v h]

theorem Die.commit_act_same (x : Die) (o : Nat) (v : Half) :
    (x.commit o v).act o = if x.brg.isolated then x.act o else v := by
  unfold Die.commit
  split <;> simp [Die.act, Die.setAct]

theorem Die.commit_act_ne (x : Die) {o p : Nat} (v : Half) (h : p ≠ o) : (x.commit o v).act p = x.act p := by
  unfold Die.commit
  split
  · rfl
  · exact x.act_setAct_ne o p v h

@[simp] theorem Die.commit_isolated (x : Die) (o : Nat) (v : Half) : (x.commit o v).brg.isolated = x.brg.isolated := by
  unfold Die.commit
  split <;> rfl

/-- A staged value of a register, if there is one, is committed and leaves the staging. -/
def Die.applyReg (x : Die) (o : Nat) : Die :=
  match x.stg o with
  | none => x
  | some v => (x.commit o v).unstage1 o

@[simp] theorem Die.applyReg_isolated (x : Die) (o : Nat) : (x.applyReg o).brg.isolated = x.brg.isolated := by
  unfold Die.applyReg
  split
  · rfl
  · exact x.commit_isolated _ _

theorem Die.applyReg_none (x : Die) {o : Nat} (h : x.stg o = none) : x.applyReg o = x := by
  rw [Die.applyReg, h]

theorem Die.applyReg_same (x : Die) {o : Nat} {v : Half} (h : x.stg o = some v) :
    (x.applyReg o).regAt o = (if x.brg.isolated then x.act o else v, v, none) := by
  have happly : x.applyReg o = (x.commit o v).unstage1 o := by rw [Die.applyReg, h]
  rw [happly, Die.regAt, Die.unstage1_stg_same]
  exact Prod.ext (x.commit_act_same o v) (Prod.ext (x.commit_led_same o v) rfl)

theorem Die.applyReg_ne (x : Die) {o p : Nat} (h : p ≠ o) : (x.applyReg o).regAt p = x.regAt p := by
  unfold Die.applyReg
  split
  · rfl
  next v _ =>
    rw [Die.regAt, Die.unstage1_stg_ne _ h, Die.commit_stg]
    exact Prod.ext (x.commit_act_ne v h) (Prod.ext (x.commit_led_ne v h) rfl)

theorem Die.applyRegs_fold_of_notMem {l : List Nat} {o : Nat} (h : o ∉ l) (x : Die) : (l.foldl Die.applyReg x).regAt o = x.regAt o :=
  List.foldlRecOn (motive := fun y : Die => y.regAt o = x.regAt o) l _ rfl fun y hy p hp => by
    rw [Die.applyReg_ne y (fun he : o = p => h (he ▸ hp)), hy]

/-- A register named twice is applied at its first place: at the next nothing is staged. -/
theorem Die.applyRegs_fold_of_stg_none (l : List Nat) {o : Nat} (x : Die) (h : x.stg o = none) :
    (l.foldl Die.applyReg x).regAt o = x.regAt o :=
  List.foldlRecOn (motive := fun y : Die => y.regAt o = x.regAt o) l _ rfl fun y hy p _ => by
    by_cases hp : o = p
    · have hnone : y.stg o = none := (congrArg (fun r => r.2.2) hy :).trans h
      rw [← hp, Die.applyReg_none y hnone, hy]
    · rw [Die.applyReg_ne y hp, hy]

theorem Die.applyRegs_fold_of_mem {l : List Nat} {o : Nat} {v : Half} (h : o ∈ l) (x : Die) (hv : x.stg o = some v) :
    (l.foldl Die.applyReg x).regAt o = (if x.brg.isolated then x.act o else v, v, none) := by
  induction l generalizing x with
  | nil => simp at h
  | cons p l ih =>
    rw [List.foldl_cons]
    by_cases hp : o = p
    · have happly := x.applyReg_same hv
      rw [← hp, Die.applyRegs_fold_of_stg_none l _ (congrArg (fun r => r.2.2) happly :), happly]
    · have hother := x.applyReg_ne hp
      have hact : (x.applyReg p).act o = x.act o := (congrArg (fun r => r.1) hother :)
      have hstg : (x.applyReg p).stg o = x.stg o := (congrArg (fun r => r.2.2) hother :)
      rw [ih ((List.mem_cons.mp h).resolve_left hp) _ (hstg.trans hv), Die.applyReg_isolated, hact]

theorem Die.regAt_applyRegs (x : Die) (g : Nat) (l : List Nat) (o : Nat) :
    (x.applyRegs g l).regAt o = ((l.filter fun p => !x.keptStaged p).foldl Die.applyReg x).regAt o := by
  have hlist : (l.filter fun p => !(l.filter fun p => x.keptStaged p).contains p) = l.filter fun p => !x.keptStaged p :=
    List.filter_congr fun p hp => by simp [hp]
  unfold Die.applyRegs
  exact congrArg (fun l => (List.foldl Die.applyReg x l).regAt o) hlist

/-- A group that is applied: a staged value that is not kept goes into use, but for an isolated die (R284), and into the ledger. -/
theorem Die.applyRegs_of_mem (x : Die) (g : Nat) {l : List Nat} {o : Nat} {v : Half} (hl : o ∈ l) (hv : x.stg o = some v)
    (hkept : x.keptStaged o = false) : (x.applyRegs g l).regAt o = (if x.brg.isolated then x.act o else v, v, none) := by
  rw [Die.regAt_applyRegs, Die.applyRegs_fold_of_mem (by simp [hl, hkept]) x hv]

theorem Die.applyRegs_of_kept (x : Die) (g : Nat) {l : List Nat} {o : Nat} (h : o ∉ l ∨ x.keptStaged o = true) :
    (x.applyRegs g l).regAt o = x.regAt o := by
  rw [Die.regAt_applyRegs, Die.applyRegs_fold_of_notMem (by rcases h with h | h <;> simp [h])]

/-! ### A boundary at which nothing is due -/

/-- A die no strobe of which is due with staged values applies no group (R31, R303). -/
theorem State.applyDue_idle (s : State) (d : DieId) (hlocal : (s.die d).groupsDue (s.die d).stroke.dueNow = [])
    (hglobal : ∀ q ∈ (s.die d).stroke.gdue, q.2.2 = 0 → (s.die d).stroke.count < q.1) {β : Blk} (hb : β ≠ .stroke) :
    (s.applyDue d).blk β = s.blk β := by
  have hmine : (s.die d).stroke.gdue.filter (fun g => g.2.2 == 0 && g.1 ≤ (s.die d).stroke.count) = [] := by
    rw [List.filter_eq_nil_iff]
    intro q hq hdue
    obtain ⟨hkind, hle⟩ : q.2.2 = 0 ∧ q.1 ≤ (s.die d).stroke.count := by simpa using hdue
    exact absurd hle (Nat.not_le.mpr (hglobal q hq hkind))
  have hnone : (s.die d).groupsDue 0 = [] := by simp [Die.groupsDue, bit]
  unfold State.applyDue
  simp [hmine, hnone, hlocal, hb]

/-! ### Overruns -/

theorem bit_or_pow (n f : Nat) : bit (n ||| 2 ^ f) f = true := by
  simp [bit, Nat.testBit_two_pow_self]

theorem bit_xor_pow {n f : Nat} (h : bit n f = true) : bit (n ^^^ 2 ^ f) f = false := by
  rw [bit] at h
  simp [bit, h, Nat.testBit_two_pow_self]

theorem Die.overrun_ovr (x : Die) (f left : Nat) : (x.overrun f left).stroke.ovr = x.stroke.ovr ||| 2 ^ f := rfl

theorem State.advance_ovr (s : State) (p : Nat) (d : DieId) : ((s.advance p).die d).stroke.ovr = (s.die d).stroke.ovr := by
  obtain ⟨m, t, cs, ts, r, h⟩ := State.advance_die (s := s) p d
  rw [h]

/-- An overrun of a fret that works and has not ended sets the fret's bit (R25, R26, R28). -/
theorem execFretOverrun_ovr {s : State} {d : DieId} {f : Fin 32} (hup : up s d = true) (hlow : 1 ≤ f.val) (hhigh : f.val ≤ 30)
    (hpos : s.pos < 40 * (f.val + 1)) (hbist : (25 ≤ f.val ∧ f.val ≤ 27) → (s.die d).bistOn = true) (left : BitVec 16) :
    ∃ t, execFretOverrun d f left s = .next t ∧ (t.die d).stroke.ovr = (s.die d).stroke.ovr ||| 2 ^ f.val := by
  obtain ⟨hpresent, hrun⟩ := up_iff.mp hup
  have hidle : (25 ≤ f.val && f.val ≤ 27 && !(s.die d).bistOn) = false := by
    by_cases h : 25 ≤ f.val ∧ f.val ≤ 27
    · simp [hbist h]
    · have hnot : (decide (25 ≤ f.val) && decide (f.val ≤ 27)) = false := by simpa using h
      rw [hnot, Bool.false_and]
  refine ⟨_, rfl, ?_⟩
  simp only [hpresent, hrun, hlow, hhigh, hpos, hidle, decide_true, Bool.and_self, Bool.not_false, if_true]
  have hstroke (u : State) (b : Bool) : ((if b then u.post d 375 0x01 (pair f.val left.toNat) else u).die d).stroke = (u.die d).stroke := by
    split
    · exact State.stroke_of_blk (State.post_blk u d _ _ _ (by simp)) d
    · rfl
  rw [hstroke, State.stroke_of_blk (State.count_blk _ d _ _ (by simp)), State.die_onDie_same, Die.overrun_ovr, State.advance_ovr]

end Sys2Proof.Machine
end

section
/-! PROOFS. Commits at a boundary. -/

open Sys2Proof Sys2Proof.Machine

/-- Settles O16: what applying a group does to a register is applyRegs_of_mem and applyRegs_of_kept; at a boundary without a due
strobe applyDue_idle; the row of the boundary, boundary_ran. -/
theorem commitsAtTheBoundary : Obligations.CommitsAtTheBoundary := by
  unfold Obligations.CommitsAtTheBoundary
  refine ⟨fun x g o l v hl hv hkept hisol => ?_, fun x g o l v hl hv hkept hisol => ?_, fun x g o l h => ?_,
    fun s d hlocal hglobal e => ⟨?_, ?_, ?_⟩, fun s obs hrun => ?_, fun s d f left hup hlow hhigh hpos hbist => ?_,
    fun s d f hup hovr hlast => ?_⟩
  · simpa [Die.regAt, hisol] using x.applyRegs_of_mem g hl hv hkept
  · simpa [Die.regAt, hisol] using x.applyRegs_of_mem g hl hv hkept
  · simpa [Die.regAt] using x.applyRegs_of_kept g h
  · exact State.active_of_blk (s.applyDue_idle d hlocal hglobal (by simp)) e
  · exact State.staged_of_blk (s.applyDue_idle d hlocal hglobal (by simp)) e
  · exact State.ledger_of_blk (s.applyDue_idle d hlocal hglobal (by simp)) e
  · refine Completes.of (s.boundary obs) ?_ ⟨s.boundary_pos obs, ?_, fun d hd hawake => s.boundary_ran obs hd hawake⟩
    · change execStrokeBoundary obs s = _
      rw [execStrokeBoundary, if_pos hrun]
    · rw [State.boundary_running, hrun]
  · obtain ⟨t, ht, hovr⟩ := execFretOverrun_ovr hup hlow hhigh hpos hbist left
    refine Completes.of t ht ⟨by rw [hovr, bit_or_pow], fun e => ⟨?_, ?_, ?_⟩⟩
    · exact State.active_of_blk (exec_keeps (.fretOverrun d f left) s (β := .active) rfl t ht) e
    · exact State.staged_of_blk (exec_keeps (.fretOverrun d f left) s (β := .staging) rfl t ht) e
    · exact State.ledger_of_blk (exec_keeps (.fretOverrun d f left) s (β := .ledger) rfl t ht) e
  · obtain ⟨hpresent, hrun⟩ := up_iff.mp hup
    refine Completes.of (s.onDie d fun x => { x with stroke := { (s.die d).stroke with ovr := (s.die d).stroke.ovr ^^^ 2 ^ f.val } })
      ?_ ⟨?_, rfl, fun e => ⟨?_, ?_, ?_⟩⟩
    · change execFretOvrClear d f s = _
      rw [execFretOvrClear, if_pos (by simp [hpresent, hrun, hovr, hlast])]
    · rw [State.die_onDie_same, bit_xor_pow hovr]
    · exact State.active_of_blk (by simp) e
    · exact State.staged_of_blk (by simp) e
    · exact State.ledger_of_blk (by simp) e
end

section
/-! SUPPORT. States on which statements about overruns, ring packets and bridges fail. -/

set_option Elab.async false

namespace Sys2Proof.Machine

/-! ### An overrun whose counter is marked as a level counter -/

/-- A running package in the first sc of a stroke; on die 0 the counter of fret 1's overruns bears a level mark. No row sets such
a mark, but Strokes speaks of every state. -/
def State.overrunMarked : State :=
  ({ State.reset with phase := 2 } : State).onDie 0 fun x => { x with tele := { x.tele with marks := [4] } }

/-- The frets that pass before the overrun count the mark (R400), and the overrun counts itself. -/
theorem State.overrunMarked_count :
    ∃ t, exec (.fretOverrun 0 1 0) State.overrunMarked = .next t ∧ (t.die 0).counter 4 = 2 :=
  ⟨_, rfl, by decide⟩

/-! ### A GCOMMIT that carries no commit of groups -/

/-- The GCOMMIT of an FW_ACTIVATE (kind 3) that names die 0, come from die 1 over die 0's west bridge. -/
def Flit.activates : Flit :=
  { src := 1, dst := 1, bcast := true, tag := 0, ttl := 0, here := 0, dir := .east, body := .gcommit 5 1 3 }

/-- A running package whose die 0 receives the packet over a bridge that is UP. -/
def State.activation : State :=
  { ({ State.reset with phase := 2 } : State).onDie 0 fun x => { x with brg := { x.brg with west := { state := 1 } } } with
    air := [Flit.activates] }

theorem State.activation_arriving : State.activation.arriving 0 1 0 0x8 = some Flit.activates := by decide

/-- Die 0 takes the stroke as the boundary of its activation (R338) and schedules no commit. -/
theorem State.activation_gdue :
    ∃ t, exec (.gcommit 0 1 0) State.activation = .next t ∧ (t.die 0).stroke.gdue = [] ∧ (t.die 0).peg.swapAt = some 5 :=
  ⟨_, rfl, by decide, by decide⟩

/-! ### A heartbeat that tells of lost lanes -/

/-- A bridge that is UP with its four lanes up in both directions, as they have been since the stroke began. -/
def Bridge.fourUp : Bridge :=
  { lock := [(0, { locked := true }), (1, { locked := true }), (2, { locked := true }), (3, { locked := true })],
    aligned := 0xF, rxSet := 0xF, set_ := 0xF, peer := 0xF, state := 1, dip := false }

/-- A heartbeat of die 1 that receives two of die 0's lanes. -/
def Flit.twoLanes : Flit :=
  { src := 1, dst := 0, bcast := false, tag := 0, ttl := 7, here := 0, dir := .west, body := .heartbeat 0 true false 0 0x3 }

/-- A running package whose die 0 receives that heartbeat over its east bridge. -/
def State.lanesLost : State :=
  { ({ State.reset with phase := 2 } : State).onDie 0 fun x => { x with brg := { x.brg with east := Bridge.fourUp } } with
    air := [Flit.twoLanes] }

/-- The bridge keeps that fewer than three of its lanes have been up in this stroke (R271). -/
theorem State.lanesLost_dip : ∃ t, exec (.heartbeat 0 .east) State.lanesLost = .next t ∧ ((t.die 0).bridge .east).dip = true :=
  ⟨_, rfl, by decide⟩

end Sys2Proof.Machine
end

section
/-! PROOFS. The stroke, and the packets and links of the ring. -/

open Sys2Proof Sys2Proof.Machine

/-- Refutes O21: an overrun whose counter bears a level mark is counted twice, once by the frets that pass before it. -/
theorem not_strokes : ¬ Obligations.Strokes := by
  unfold Obligations.Strokes
  rintro ⟨-, hoverrun, -⟩
  obtain ⟨t, ht, -, -, -, -, hcount, -⟩ := hoverrun State.overrunMarked 0 1 0 (by decide) (by decide) (by decide) (by decide) (by decide)
  obtain ⟨u, hu, htwice⟩ := State.overrunMarked_count
  obtain rfl : u = t := Host.Outcome.next.inj (hu.symm.trans ht)
  exact absurd (htwice.symm.trans hcount) (by decide)

/-- Refutes O39: a first GCOMMIT of kind 3, that of an FW_ACTIVATE, schedules no groups on a die that takes part in commits. -/
theorem not_ringPackets : ¬ Obligations.RingPackets := by
  unfold Obligations.RingPackets
  rintro ⟨-, -, -, -, hgcommit, -⟩
  obtain ⟨t, ht, hgdue, -⟩ := hgcommit State.activation 0 1 0 Flit.activates 5 1 3 State.activation_arriving rfl (by decide) (by decide)
  obtain ⟨u, hu, hnone, -⟩ := State.activation_gdue
  obtain rfl : u = t := Host.Outcome.next.inj (hu.symm.trans ht)
  exact absurd (hnone.symm.trans hgdue) (by decide)

/-- Refutes O41: a heartbeat that tells of fewer than three lanes also marks the bridge's stroke with that. -/
theorem not_bridges : ¬ Obligations.Bridges := by
  unfold Obligations.Bridges
  rintro ⟨-, -, -, -, hheartbeat, -⟩
  obtain ⟨t, ht, -, hbridge⟩ := hheartbeat State.lanesLost 0 .east Flit.twoLanes 0 0 0x3 true false (by decide) (Or.inr (by decide))
    (by decide) rfl
  obtain ⟨u, hu, hdip⟩ := State.lanesLost_dip
  obtain rfl : u = t := Host.Outcome.next.inj (hu.symm.trans ht)
  exact absurd (hdip.symm.trans (congrArg Bridge.dip hbridge :)) (by decide)
end

section
/-! SUPPORT. Commit strobes and discards (R33, R36, R304), and the protection of the configuration (R309 to R313). -/

set_option Elab.async false

namespace Sys2Proof.Machine

variable {s : State} {d : DieId}

/-! ### Strobes -/

@[simp] theorem groupMask_zero (h : Bool) : groupMask h 0 = 0 := by
  cases h <;> rfl

theorem groupMask_ne_zero (h : Bool) {m : Byte} (hm : m ≠ 0) : groupMask h m.toNat ≠ 0 := by
  have hnat : m.toNat ≠ 0 := fun h => hm (BitVec.eq_of_toNat_eq h)
  cases h <;> simp [groupMask, hnat]

theorem State.holdCommit_die (s : State) (d : DieId) (half global discard : Bool) :
    ∃ v, (s.holdCommit d half global discard).die d = { s.die d with prot := v } := by
  rw [State.holdCommit, State.die_onDie_same]
  exact ⟨_, rfl⟩

@[simp] theorem State.holdCommit_ownPos (s : State) (d : DieId) (half global discard : Bool) :
    (s.holdCommit d half global discard).ownPos d = s.ownPos d := by
  obtain ⟨v, h⟩ := s.holdCommit_die d half global discard
  simp only [State.ownPos, h]
  rfl

/-- A local strobe is due at the next boundary before the die's sc 960, and at the one after from then on (R33). -/
theorem State.strobe_die (s : State) (d : DieId) (mask : Nat) : (s.strobe d mask).die d =
    if s.ownPos d < 960 then { s.die d with stroke := { (s.die d).stroke with dueNow := (s.die d).stroke.dueNow ||| mask } }
    else { s.die d with stroke := { (s.die d).stroke with dueNext := (s.die d).stroke.dueNext ||| mask } } := by
  rw [State.strobe, State.die_onDie_same]

@[simp] theorem State.holdCommit_globalHeld (s : State) (half global discard : Bool) :
    (s.holdCommit d half global discard).globalHeld d = s.globalHeld d := by
  obtain ⟨v, h⟩ := s.holdCommit_die d half global discard
  simp only [State.globalHeld, h]
  rfl

theorem State.leave_dies (s : State) (a : DieId) (w : Ew) (f : Flit) : (s.leave a w f).dies = s.dies := by
  unfold State.leave
  split <;> rfl

theorem State.leave_die (s : State) (a : DieId) (w : Ew) (f : Flit) (e : DieId) : (s.leave a w f).die e = s.die e := by
  rw [State.die, State.leave_dies, ← State.die]

/-- A broadcast takes one number of its die's packets (R272). -/
theorem State.broadcast_die (s : State) (d : DieId) (body : Body) : (s.broadcast d body).die d =
    { s.die d with brg := { (s.die d).brg with nextTag := ((s.die d).brg.nextTag + 1) % 65536 } } := by
  unfold State.broadcast
  dsimp only
  rw [State.leave_die, State.leave_die, State.die_onDie_same]

@[simp] theorem State.holdCommit_globalDue (s : State) (half global discard : Bool) :
    (s.holdCommit d half global discard).globalDue d = s.globalDue d := by
  obtain ⟨v, h⟩ := s.holdCommit_die d half global discard
  simp only [State.globalDue, State.holdCommit_ownPos, State.stroke, h]

/-- A global strobe is scheduled on its own die, where that takes part in commits (R36, R37). -/
theorem State.sendGlobal_gdue (s : State) (mask : Nat) (h : (s.die d).inCommits = true) :
    ((s.sendGlobal d mask 0).die d).stroke.gdue = (s.die d).stroke.gdue ++ [(s.globalDue d, mask, 0)] := by
  have hin : ((s.broadcast d (.gcommit (s.globalDue d) mask 0)).die d).inCommits = true := by
    rw [State.broadcast_die]
    exact h
  rw [State.sendGlobal, State.die_onDie_same, Die.schedule, if_neg (by decide), hin, Bool.true_or, if_pos rfl, State.broadcast_die]

/-! ### Discards -/

theorem Die.dropGroup_stg (x : Die) (g o : Nat) : (x.dropGroup g).stg o = if groupOf o = some g then none else x.stg o := by
  unfold Die.stg Die.dropGroup
  dsimp only
  rw [List.find?_filter]
  split
  next h =>
    rw [List.find?_eq_none.mpr fun q _ => by by_cases hq : q.1 = o <;> simp [hq, h]]
    rfl
  next h =>
    congr 2
    funext q
    by_cases hq : q.1 = o
    · simp [hq, h]
    · simp [hq]

theorem bit_and_not_pow {n p : Nat} (hn : n < 16) : bit (p &&& (0xFFFF ^^^ 2 ^ n)) n = false := by
  have hlow : (0xFFFF : Nat).testBit n = true := by
    rw [show (0xFFFF : Nat) = 2 ^ 16 - 1 from rfl, Nat.testBit_two_pow_sub_one, decide_eq_true hn]
  simp [bit, hlow, Nat.testBit_two_pow_self]

theorem bit_and_false {a b n : Nat} (h : bit a n = false) : bit (a &&& b) n = false := by
  rw [bit] at h ⊢
  rw [Nat.testBit_and, h, Bool.false_and]

/-- Group n holds no staged value. -/
def Die.unstaged (n : Nat) (x : Die) : Prop := bit x.pend n = false ∧ ∀ o, groupOf o = some n → x.stg o = none

theorem Die.dropGroup_unstaged (x : Die) {n : Nat} (hn : n < 16) : (x.dropGroup n).unstaged n :=
  ⟨bit_and_not_pow hn, fun o ho => by rw [Die.dropGroup_stg, if_pos ho]⟩

/-- A group without staged values stays so as another's are dropped. -/
theorem Die.unstaged.dropGroup {x : Die} {n : Nat} (h : x.unstaged n) (g : Nat) : (x.dropGroup g).unstaged n :=
  ⟨bit_and_false h.1, fun o ho => by rw [Die.dropGroup_stg, h.2 o ho, ite_self]⟩

/-- The die with the staged values of the groups of a mask dropped. -/
def Die.dropGroups (x : Die) (mask : Nat) : Die := (List.range 16).foldl (fun x g => if bit mask g then x.dropGroup g else x) x

theorem Die.dropGroups_unstaged (x : Die) {mask n : Nat} (hn : n < 16) (hmask : bit mask n = true) : (x.dropGroups mask).unstaged n := by
  obtain ⟨before, after, hsplit⟩ := List.append_of_mem (List.mem_range.mpr hn)
  rw [Die.dropGroups, hsplit, List.foldl_append, List.foldl_cons, if_pos hmask]
  refine List.foldlRecOn (motive := Die.unstaged n) after _ (Die.dropGroup_unstaged _ hn) fun y hy g _ => ?_
  split
  · exact hy.dropGroup g
  · exact hy

theorem State.discard_die (s : State) (mask : Nat) : ∃ v, (s.discard d mask).die d = { (s.die d).dropGroups mask with clk := v } := by
  unfold State.discard
  dsimp only
  split
  · rw [State.die_onDie_same, State.die_onDie_same]
    exact ⟨_, rfl⟩
  · rw [State.die_onDie_same]
    exact ⟨_, rfl⟩

/-! ### Parity -/

/-- What a list notes once it contains. -/
theorem contains_noted (l : List Nat) (o : Nat) : (if l.contains o then l else l ++ [o]).contains o = true := by
  split
  next h => exact h
  next => simp

theorem State.parityPost_prot (s : State) (o : Nat) (staged unrec : Bool) : ((s.parityPost d o staged unrec).die d).prot =
    { (s.die d).prot with parAddr := o, parStaged := staged, parUnrec := unrec } := by
  simp [State.parityPost]

theorem State.parityPost_act (s : State) (o p : Nat) (staged unrec : Bool) :
    ((s.parityPost d o staged unrec).die d).act p = (s.die d).act p := by
  unfold Die.act
  rw [State.active_of_blk (s.parityPost_blk d o staged unrec (by simp)) d]

theorem State.parityPost_ledger (s : State) (o : Nat) (staged unrec : Bool) :
    ((s.parityPost d o staged unrec).die d).ledger = (s.die d).ledger :=
  State.ledger_of_blk (s.parityPost_blk d o staged unrec (by simp)) d

theorem Die.unstage_stg (x : Die) (o : Nat) : (x.unstage o).stg o = none := by
  have hstaged : (x.unstage o).staged = x.staged.filter fun p => p.1 != o := by
    unfold Die.unstage
    dsimp only
    (repeat' split) <;> rfl
  simp [Die.stg, hstaged]

theorem Die.unstage_active (x : Die) (o : Nat) : (x.unstage o).active = x.active := by
  unfold Die.unstage
  dsimp only
  (repeat' split) <;> rfl

theorem State.parityLost_prot (s : State) (o : Nat) : ((s.parityLost d o).die d).prot =
    { (s.die d).prot with
      bad := if (s.die d).prot.bad.contains o then (s.die d).prot.bad else (s.die d).prot.bad ++ [o], parAddr := o,
      parStaged := false, parUnrec := true } := by
  rw [State.parityLost, State.count_die_prot, State.parityPost_prot, State.die_onDie_same]

theorem State.parityLost_act (s : State) (o p : Nat) : ((s.parityLost d o).die d).act p = (s.die d).act p := by
  unfold Die.act
  rw [State.active_of_blk (s.parityLost_blk d o (by simp)) d]

theorem State.parityLost_ledger (s : State) (o : Nat) : ((s.parityLost d o).die d).ledger = (s.die d).ledger :=
  State.ledger_of_blk (s.parityLost_blk d o (by simp)) d

/-- The end of a clean CRC pass that has found v (R313). -/
def State.crcPassed (s : State) (d : DieId) (v : Nat) : State :=
  let bad := v != (s.die d).crcRef
  let s := s.onDie d fun x =>
    ({ x with prot := { x.prot with passEnd := none, dirty := false, crcLast := v, mismatch := bad } }).count (cProt + 0x14)
  if bad then (s.count d (cProt + 0x18)).post d 444 0x03 v else s

/-! ### The rows, on a die that is up -/

section
variable (hup : up s d = true)
include hup

theorem execLocalCommit_eq (h : Bool) {m : Byte} (hm : m ≠ 0) :
    execLocalCommit d h m s = .next ((s.holdCommit d h false false).strobe d (groupMask h m.toNat)) := by
  obtain ⟨hpresent, hrun⟩ := up_iff.mp hup
  simp [execLocalCommit, hpresent, hrun, State.localStrobe, groupMask_ne_zero h hm]

/-- A local strobe of no group leaves what DIE_COMMIT holds of it (R304). -/
theorem execLocalCommit_zero (h : Bool) : execLocalCommit d h 0 s = .next (s.holdCommit d h false false) := by
  obtain ⟨hpresent, hrun⟩ := up_iff.mp hup
  simp [execLocalCommit, hpresent, hrun, State.localStrobe]

theorem execGlobalCommit_sent (h : Bool) {m : Byte} (hm : m ≠ 0) (hheld : s.globalHeld d = false) :
    execGlobalCommit d h m s = .next ((s.holdCommit d h true false).sendGlobal d (groupMask h m.toNat) 0) := by
  obtain ⟨hpresent, hrun⟩ := up_iff.mp hup
  simp [execGlobalCommit, hpresent, hrun, State.globalStrobe, groupMask_ne_zero h hm, hheld]

theorem execGlobalCommit_held (h : Bool) {m : Byte} (hm : m ≠ 0) (hheld : s.globalHeld d = true) :
    execGlobalCommit d h m s = .next (((s.holdCommit d h true false).onDie d fun x =>
      { x with stroke := { x.stroke with held := x.stroke.held ||| groupMask h m.toNat, gcHeld := true } }).post
        d 375 0x06 (groupMask h m.toNat)) := by
  obtain ⟨hpresent, hrun⟩ := up_iff.mp hup
  simp [execGlobalCommit, hpresent, hrun, State.globalStrobe, groupMask_ne_zero h hm, hheld]

theorem execCommitDiscard_eq (h : Bool) (m : Byte) :
    execCommitDiscard d h m s = .next ((s.holdCommit d h false true).discard d (groupMask h m.toNat)) := by
  obtain ⟨hpresent, hrun⟩ := up_iff.mp hup
  simp [execCommitDiscard, hpresent, hrun]

/-- A parity fault whose ledger word is good marks its register for restoration (R310). -/
theorem execParityFault_restores {o : BitVec 20} {v : Half} {sel : RegSel} {c : EccResult}
    (hsel : s.register d o.toNat = some sel)
    (hodd : oddBits ((s.die d).act o.toNat ^^^ mergeMask ((s.die d).act o.toNat) v sel.rws) = true)
    (hbad : (s.die d).prot.bad.contains o.toNat = false) (hecc : c ≠ .uncorrectable) :
    execParityFault d o v c s = .next (((s.onDie d fun x =>
      x.setAct o.toNat (mergeMask ((s.die d).act o.toNat) v sel.rws)).onDie d fun x => { x with prot := { x.prot with
        restore := if x.prot.restore.contains o.toNat then x.prot.restore else x.prot.restore ++ [o.toNat] } }).parityPost
          d o.toNat false false) := by
  obtain ⟨hpresent, hrun⟩ := up_iff.mp hup
  simp only [execParityFault, hsel, hpresent, hrun, hodd, hbad]
  simp [hecc]

/-- One whose ledger word proves uncorrectable leaves it faulty (R311). -/
theorem execParityFault_lost {o : BitVec 20} {v : Half} {sel : RegSel} (hsel : s.register d o.toNat = some sel)
    (hodd : oddBits ((s.die d).act o.toNat ^^^ mergeMask ((s.die d).act o.toNat) v sel.rws) = true) :
    execParityFault d o v .uncorrectable s = .next ((s.onDie d fun x =>
      x.setAct o.toNat (mergeMask ((s.die d).act o.toNat) v sel.rws)).parityLost d o.toNat) := by
  obtain ⟨hpresent, hrun⟩ := up_iff.mp hup
  simp only [execParityFault, hsel, hpresent, hrun, hodd]
  simp

theorem execStagedParityFault_eq {o : BitVec 20} (hstg : ((s.die d).stg o.toNat).isSome = true) :
    execStagedParityFault d o s = .next (((s.onDie d (fun x => x.unstage o.toNat)).onDie d fun x =>
      ({ x with prot := { x.prot with parAddr := o.toNat, parStaged := true, parUnrec := false } }).count (cProt + 8)).post
        d 444 0x01 (o.toNat + 2 ^ 20)) := by
  obtain ⟨hpresent, hrun⟩ := up_iff.mp hup
  simp [execStagedParityFault, hpresent, hrun, hstg, State.parityPost, b2n]

theorem execLedgerScrubVisit_corrected {o : BitVec 20} {sel : RegSel} (hsel : s.register d o.toNat = some sel)
    (hrws : sel.rws ≠ 0) : execLedgerScrubVisit d o .corrected s = .next (s.count d (cProt + 0xC)) := by
  obtain ⟨hpresent, hrun⟩ := up_iff.mp hup
  simp only [execLedgerScrubVisit, hsel, hpresent, hrun, bne_iff_ne.mpr hrws]
  rfl

theorem execLedgerScrubVisit_uncorrectable {o : BitVec 20} {sel : RegSel} (hsel : s.register d o.toNat = some sel)
    (hrws : sel.rws ≠ 0) : execLedgerScrubVisit d o .uncorrectable s =
      .next (((s.takeFree.2.onDie d fun x => { x with prot := { x.prot with
        bad := if x.prot.bad.contains o.toNat then x.prot.bad else x.prot.bad ++ [o.toNat] } }).count d (cProt + 0x10)).post
          d 444 0x02 (s.takeFree.1.toNat % 65536)) := by
  obtain ⟨hpresent, hrun⟩ := up_iff.mp hup
  simp only [execLedgerScrubVisit, hsel, hpresent, hrun, bne_iff_ne.mpr hrws]
  rfl

/-- The end of a clean pass: its CRC is kept and compared (R313). -/
theorem execCrcPassEnd_clean {v : Nat} (hpass : (s.die d).prot.passEnd = some (v, false)) :
    execCrcPassEnd d s = .next (s.crcPassed d v) := by
  obtain ⟨hpresent, hrun⟩ := up_iff.mp hup
  simp [execCrcPassEnd, hpresent, hrun, hpass, State.crcPassed]

/-- The end of a dirty pass: it is not compared (R313). -/
theorem execCrcPassEnd_dirty {v : Nat} (hpass : (s.die d).prot.passEnd = some (v, true)) :
    execCrcPassEnd d s = .next (s.onDie d fun x => { x with prot := { x.prot with passEnd := none, dirty := true } }) := by
  obtain ⟨hpresent, hrun⟩ := up_iff.mp hup
  simp [execCrcPassEnd, hpresent, hrun, hpass]

end

theorem State.crcPassed_prot (s : State) (v : Nat) : ((s.crcPassed d v).die d).prot =
    { (s.die d).prot with passEnd := none, dirty := false, crcLast := v, mismatch := v != (s.die d).crcRef } := by
  rw [State.crcPassed]
  split
  · rw [State.post_die_prot, State.count_die_prot, State.die_onDie_same, Die.count_prot]
  · rw [State.die_onDie_same, Die.count_prot]

end Sys2Proof.Machine
end

section
/-! PROOFS. Commits and the protection of the configuration. -/

open Sys2Proof Sys2Proof.Machine

/-- Settles O44: each clause is what its row leaves on a die that is up, by the rule of the strobe, the discard or the fault. -/
theorem commitsAndProtection : Obligations.CommitsAndProtection := by
  unfold Obligations.CommitsAndProtection
  refine ⟨fun s d h m hup hm => ?_, fun s d h hup => Completes.of _ (execLocalCommit_zero hup h) rfl,
    fun s d h m hup hm hheld hin => ?_, fun s d h m hup hm hheld => ?_,
    fun s d h m hup => ?_, fun s d o v sel c hup hsel hodd hbad hecc => ?_, fun s d o v sel hup hsel hodd => ?_,
    fun s d o hup hstg => ?_, fun s d o sel hup hsel hrws => Completes.of _ (execLedgerScrubVisit_corrected hup hsel hrws) rfl,
    fun s d o sel hup hsel hrws => ?_, fun s d v hup hpass => ?_,
    fun s d v hup hpass => Completes.of _ (execCrcPassEnd_dirty hup hpass) rfl⟩
  · obtain ⟨v, hdie⟩ := s.holdCommit_die d h false false
    refine Completes.of _ (execLocalCommit_eq hup h hm) ?_
    rw [State.strobe_die, State.holdCommit_ownPos, hdie]
    split
    next hpos => exact ⟨rfl, rfl, fun _ => ⟨rfl, rfl⟩, fun hlate => absurd hpos (Nat.not_lt.mpr hlate)⟩
    next hpos => exact ⟨rfl, rfl, fun hearly => absurd hearly hpos, fun _ => ⟨rfl, rfl⟩⟩
  · obtain ⟨v, hdie⟩ := s.holdCommit_die d h true false
    have hin' : ((s.holdCommit d h true false).die d).inCommits = true := by
      rw [hdie]
      exact hin
    refine Completes.of _ (execGlobalCommit_sent hup h hm hheld) ⟨rfl, ?_⟩
    rw [State.sendGlobal_gdue _ _ hin', State.holdCommit_globalDue, hdie]
  · obtain ⟨v, hdie⟩ := s.holdCommit_die d h true false
    refine Posts.of _ (execGlobalCommit_held hup h hm hheld) ?_
    rw [State.die_onDie_same, hdie]
    exact ⟨rfl, rfl, rfl⟩
  · have hexec : exec (.commitDiscard d h m) s = _ := execCommitDiscard_eq hup h m
    refine Completes.of _ hexec ⟨?_, ?_, fun n hn hmask => ?_⟩
    · exact State.active_of_blk (exec_keeps (.commitDiscard d h m) s (β := .active) rfl _ hexec) d
    · exact State.ledger_of_blk (exec_keeps (.commitDiscard d h m) s (β := .ledger) rfl _ hexec) d
    · obtain ⟨v, hdie⟩ := (s.holdCommit d h false true).discard_die (d := d) (groupMask h m.toNat)
      rw [hdie]
      exact Die.dropGroups_unstaged _ hn hmask
  · refine Completes.of _ (execParityFault_restores hup hsel hodd hbad hecc) ?_
    rw [State.parityPost_prot, State.parityPost_act, State.parityPost_ledger, State.die_onDie_same, State.die_onDie_same]
    exact ⟨Die.act_setAct_same _ _ _, contains_noted _ _, rfl, rfl, rfl, rfl⟩
  · refine Completes.of _ (execParityFault_lost hup hsel hodd) ?_
    rw [State.parityLost_prot, State.parityLost_act, State.parityLost_ledger, State.die_onDie_same]
    exact ⟨Die.act_setAct_same _ _ _, rfl, contains_noted _ _, rfl, rfl, rfl⟩
  · refine Posts.of _ (execStagedParityFault_eq hup hstg) ?_
    rw [State.die_onDie_same, State.die_onDie_same]
    exact ⟨Die.unstage_stg _ _, Die.unstage_active _ _, rfl, rfl⟩
  · have hexec : exec (.ledgerScrubVisit d o .uncorrectable) s = _ := execLedgerScrubVisit_uncorrectable hup hsel hrws
    refine Completes.of _ hexec ⟨?_, ?_, ?_⟩
    · rw [State.post_die_prot, State.count_die_prot, State.die_onDie_same]
      exact contains_noted _ _
    · exact State.active_of_blk (exec_keeps (.ledgerScrubVisit d o .uncorrectable) s (β := .active) rfl _ hexec) d
    · exact State.ledger_of_blk (exec_keeps (.ledgerScrubVisit d o .uncorrectable) s (β := .ledger) rfl _ hexec) d
  · refine Completes.of _ (execCrcPassEnd_clean hup hpass) ⟨s.crcPassed_prot v, fun hclean => ?_⟩
    simp [State.crcPassed, hclean]
end

section
/-! SUPPORT. The election of a lead die (R41, R282), and the isolation and the restore of a die (R284, R286). -/

set_option Elab.async false

namespace Sys2Proof.Machine

variable {s : State}

/-! ### Candidates -/

theorem State.broadcast_lead (s : State) (d : DieId) (body : Body) : (s.broadcast d body).lead = s.lead :=
  (congrArg State.lead (s.broadcast_blk d body (β := .mode) (by simp)) :)

theorem State.sendElect_lead (s : State) (c : DieId) : (s.sendElect c).lead = s.lead := by
  unfold State.sendElect
  extract_lets n tag body wait u v
  rw [State.broadcast_lead]
  simp [v, u]

/-- A candidate that sends ELECT counts its answers afresh, under the number of the packet that leaves; the lead is as it was
(R282). -/
theorem State.sendElect_opens (s : State) (c : DieId) : ((s.sendElect c).die c).brg.elect = some (s.stroke c) ∧
    ((s.sendElect c).die c).brg.electTag = (s.die c).brg.nextTag ∧ ((s.sendElect c).die c).brg.acks = 0 ∧
    (s.sendElect c).lead = s.lead := by
  rw [State.sendElect_lead]
  unfold State.sendElect
  extract_lets n tag body wait u v
  have hv : (v.die c).brg = (u.die c).brg := by simp [v]
  rw [State.broadcast_die]
  dsimp only
  rw [hv]
  simp [u, n, tag]

/-! ### The lead changes -/

theorem State.toTracking_die_ne (s : State) {d e : DieId} (h : e ≠ d) : (s.toTracking d).die e = s.die e := by
  unfold State.toTracking
  extract_lets b u v
  split
  · rfl
  · have hv : v.die e = s.die e := by
      unfold v
      split <;> simp [u, State.count, h]
    simp [h, hv]

theorem State.toTracking_lead (s : State) (d e : DieId) : ((s.toTracking d).die e).stroke.lead = (s.die e).stroke.lead := by
  by_cases he : e = d
  · subst he
    unfold State.toTracking
    extract_lets b u v
    split
    · rfl
    · have hv : (v.die e).stroke = (u.die e).stroke := by
        unfold v
        split <;> simp
      simp [hv, u]
  · rw [s.toTracking_die_ne he]

theorem State.realign_lead (s : State) (d : DieId) : (s.realign.die d).stroke.lead = (s.die d).stroke.lead :=
  State.onAll_induction (motive := fun t => (t.die d).stroke.lead = (s.die d).stroke.lead) s _ rfl fun t e ht => by
    dsimp only
    split
    · rw [State.toTracking_lead, ht]
    · exact ht

/-- A die that leads is LOCKED to itself: no realignment changes its stroke block. -/
theorem State.realign_leading (s : State) {d : DieId} (h : (s.die d).stroke.state = 3) : (s.realign.die d).stroke = (s.die d).stroke :=
  State.onAll_induction (motive := fun t => (t.die d).stroke = (s.die d).stroke) s _ rfl fun t e ht => by
    dsimp only
    split
    next hlocked =>
      have hne : d ≠ e := by
        rintro rfl
        simp [ht, h] at hlocked
      rw [State.toTracking_die_ne t hne, ht]
    next => exact ht

theorem State.stepDown_die_ne (s : State) {d e : DieId} (h : e ≠ d) (c : DieId) : (s.stepDown d c).die e = s.die e := by
  unfold State.stepDown
  (repeat' split)
  · simp [h]
  · exact s.toTracking_die_ne h
  · rfl

/-- The turn of die d as c takes the lead, which c reaches by this mask. -/
def State.follows (c : DieId) (reach data : Nat) (s : State) (d : DieId) : State :=
  if bit reach d.val then
    let s := s.stepDown d c
    let s := s.onDie d (fun x => { x with stroke := { x.stroke with lead := c } })
    let s := if d = c then s.onDie d (fun x => { x with stroke := { x.stroke with state := 3, mloss := false, misses := 0 } }) else s
    s.post d 375 0x08 data
  else s

theorem State.takeLead_eq (s : State) (c : DieId) : s.takeLead c =
    (((({ s with lead := some c } : State).onAll (State.follows c (s.reachMask c) (c.val + 256 * (s.die c).stroke.lead.val))).onDie c
      fun x => { x with brg := { x.brg with elect := none, acks := 0 } }).realign).epoch c 7 (s.reachMask c) := rfl

theorem State.follows_die_ne (c : DieId) (reach data : Nat) (s : State) {d e : DieId} (h : d ≠ e) :
    (s.follows c reach data e).die d = s.die d := by
  unfold State.follows
  split
  · extract_lets u v w
    have hw : w.die d = v.die d := by
      unfold w
      split <;> simp [h]
    simp [h, hw, v, u, State.stepDown_die_ne]
  · rfl

theorem State.follows_stroke (c : DieId) {reach : Nat} (data : Nat) (s : State) {d : DieId} (h : bit reach d.val = true) :
    ((s.follows c reach data d).die d).stroke.lead = c ∧
      (d = c → ((s.follows c reach data d).die d).stroke.state = 3 ∧ ((s.follows c reach data d).die d).stroke.mloss = false) := by
  unfold State.follows
  rw [if_pos h]
  extract_lets u v w
  have hv : (v.die d).stroke.lead = c := by simp [v]
  by_cases hd : d = c
  · have hw : (w.die d).stroke = { (v.die d).stroke with state := 3, mloss := false, misses := 0 } := by
      unfold w
      rw [if_pos hd, State.die_onDie_same]
    simp [hw, hv]
  · have hw : w = v := if_neg hd
    simp [hw, hv, hd]

theorem State.follows_lead (c : DieId) (reach data : Nat) (s : State) (d : DieId) : (s.follows c reach data d).lead = s.lead := by
  have h : (s.follows c reach data d).blk .mode = s.blk .mode := by
    unfold State.follows
    split
    · extract_lets u v w
      have hw : w.blk .mode = v.blk .mode := by
        unfold w
        split <;> simp
      simp [hw, v, u]
    · rfl
  exact (congrArg State.lead h :)

/-- The state in which every die has taken its turn as c takes the lead. -/
def State.followed (s : State) (c : DieId) : State :=
  ({ s with lead := some c } : State).onAll (State.follows c (s.reachMask c) (c.val + 256 * (s.die c).stroke.lead.val))

theorem State.followed_stroke (s : State) (c : DieId) {d : DieId} (hd : present s.part d = true)
    (hreach : bit (s.reachMask c) d.val = true) : ((s.followed c).die d).stroke.lead = c ∧
      (d = c → ((s.followed c).die d).stroke.state = 3 ∧ ((s.followed c).die d).stroke.mloss = false) :=
  State.onAll_die_of (P := fun _ => True)
    (Q := fun x => x.stroke.lead = c ∧ (d = c → x.stroke.state = 3 ∧ x.stroke.mloss = false)) { s with lead := some c } _ hd
    (fun t _ he => State.follows_die_ne c _ _ t he.symm) (fun t _ => State.follows_stroke c _ t hreach) trivial

theorem State.takeLead_stroke (s : State) (c d : DieId) : ((s.takeLead c).die d).stroke =
    ((((s.followed c).onDie c fun x => { x with brg := { x.brg with elect := none, acks := 0 } }).realign).die d).stroke :=
  State.stroke_of_blk (State.epoch_blk _ c 7 _ (by simp)) d

theorem State.electionOver_stroke (s : State) (c d : DieId) :
    ((s.onDie c fun x => { x with brg := { x.brg with elect := none, acks := 0 } }).die d).stroke = (s.die d).stroke :=
  State.stroke_of_blk (by simp) d

/-- Every die of the part that the new lead reaches follows it. -/
theorem State.takeLead_follows (s : State) (c : DieId) {d : DieId} (hd : present s.part d = true)
    (hreach : bit (s.reachMask c) d.val = true) : ((s.takeLead c).die d).stroke.lead = c := by
  rw [State.takeLead_stroke, State.realign_lead, State.electionOver_stroke]
  exact (s.followed_stroke c hd hreach).1

/-- The new lead is LOCKED to itself, and its election is over (R41, R282). -/
theorem State.takeLead_leads (s : State) {c : DieId} (hc : present s.part c = true) (hreach : bit (s.reachMask c) c.val = true) :
    (s.takeLead c).lead = some c ∧ ((s.takeLead c).die c).stroke.state = 3 ∧ ((s.takeLead c).die c).stroke.mloss = false ∧
      ((s.takeLead c).die c).brg.elect = none := by
  obtain ⟨hstate, hmloss⟩ := (s.followed_stroke c hc hreach).2 rfl
  have hstroke : ((s.takeLead c).die c).stroke = ((s.followed c).die c).stroke := by
    rw [State.takeLead_stroke, State.realign_leading, State.electionOver_stroke]
    rw [State.electionOver_stroke]
    exact hstate
  rw [hstroke]
  refine ⟨?_, hstate, hmloss, ?_⟩
  · have hfollowed : (s.followed c).lead = some c :=
      State.onAll_induction (motive := fun t => t.lead = some c) _ _ rfl fun t d ht => (State.follows_lead c _ _ t d).trans ht
    have hmode : (s.takeLead c).blk .mode = (s.followed c).blk .mode := by
      rw [State.takeLead_eq, ← State.followed]
      simp
    exact (congrArg State.lead hmode :).trans hfollowed
  · have hbrg : ((s.takeLead c).die c).brg =
        (((s.followed c).onDie c fun x => { x with brg := { x.brg with elect := none, acks := 0 } }).die c).brg :=
      State.brg_of_blk (by rw [State.takeLead_eq, ← State.followed]; simp) c
    rw [hbrg, State.die_onDie_same]

/-! ### Isolation and restore -/

theorem ready_pegRuns {k : Packet} {op : Nat} (h : ready s k op = true) : (s.die k.die).pegRuns = true := by
  simp only [ready, comes, Bool.and_eq_true] at h
  obtain ⟨⟨⟨-, hruns, -⟩, -⟩, -⟩ := h
  exact hruns.1

/-- A record handed on leaves the die's long operations and its standing. -/
theorem State.deliver_kept (s : State) (d : DieId) (r : Rec) : ((s.deliver d r).die d).peg.ops = (s.die d).peg.ops ∧
    ((s.deliver d r).die d).brg.isolated = (s.die d).brg.isolated := by
  obtain ⟨⟨g, p, a, b, c, v, t, h⟩, -, -⟩ := s.carried_deliver d r
  refine ⟨by rw [h], ?_⟩
  have hstand := s.deliver_standing d r
  rw [State.standing_blk, State.standing_blk] at hstand
  exact (congrArg (fun f => (f d).2) hstand :)

/-- An operation that its die has room for is entered, and its work starts on a die as isolated as it was. -/
theorem State.accept_enters (s : State) (k : Packet) (op cls obj : Nat) (data : List Nat) (hroom : (s.die k.die).peg.ops.length < 64) :
    runsOp (s.accept k op cls obj data) k op cls obj = true ∧
      ((s.accept k op cls obj data).die k.die).brg.isolated = (s.die k.die).brg.isolated := by
  unfold State.accept
  rw [if_neg (Nat.not_le.mpr hroom)]
  extract_lets now o u
  obtain ⟨hops, hisol⟩ := u.deliver_kept k.die { mkRec k stAccepted 0 [] with final := false }
  rw [runsOp, hops, hisol]
  refine ⟨?_, by simp [u]⟩
  simp [u, o, Op.is]

/-! ### The rows -/

theorem execDie0Unavailable_elects (hun : s.unavailable (otherAccess s.part) 0 = true) (hmay : s.mayElect (otherAccess s.part) = true) :
    execDie0Unavailable s = .next (s.sendElect (otherAccess s.part)) := by
  simp [execDie0Unavailable, hun, hmay]

theorem execOtherAccessDieUnavailable_elects (hlead : s.lead = some (otherAccess s.part)) (hlinked : (s.die 0).linked = true)
    (hun : s.unavailable 0 (otherAccess s.part) = true) (hmay : s.mayElect 0 = true) :
    execOtherAccessDieUnavailable s = .next (s.sendElect 0) := by
  simp [execOtherAccessDieUnavailable, hlead, hlinked, hun, hmay]

theorem execLeadReturn_elects (hrun : 1024 ≤ (s.die 0).brg.run0) (hcount : s.stroke 0 = s.stroke s.leadDie)
    (hmay : s.mayElect 0 = true) : execLeadReturn s = .next (s.sendElect 0) := by
  simp [execLeadReturn, hrun, hcount, hmay]

theorem execLeadChanged_leads {c : DieId} (hrun : s.running = true) (hpos : s.pos = 0)
    (helected : (s.elected 0 = true ∧ c = 0) ∨ (s.elected 0 = false ∧ s.elected (otherAccess s.part) = true ∧ c = otherAccess s.part)) :
    execLeadChanged s = .next (s.takeLead c) := by
  rcases helected with ⟨h0, rfl⟩ | ⟨h0, hother, rfl⟩
  · simp [execLeadChanged, hrun, hpos, h0]
  · simp [execLeadChanged, hrun, hpos, h0, hother]

section
variable {u : State} {k : Packet}

theorem execDieIsolate_isolates (htakes : takes0 s u k 0x0D01 = true) (hforce : k.w 4 ≤ 1)
    (hrest : (u.die k.die).brg.restoring = false) (hisol : (u.die k.die).brg.isolated = false)
    (hports : (u.die k.die).anyPort = false ∨ k.w 4 = 1) :
    execDieIsolate k s = .next ((u.onDie k.die (fun x => { x with brg := { x.brg with isolNext := true } })).await k 0x0D01
      (u.stroke k.die + 1) 0) := by
  have hfree : ((u.die k.die).anyPort && decide (k.w 4 = 0)) = false := by
    rcases hports with h | h <;> simp [h]
  rw [execDieIsolate, State.command0_takes _ htakes]
  simp [Nat.not_le.mpr (Nat.lt_succ_of_le hforce), hrest, hisol, hfree]

theorem execDieIsolate_isolated (htakes : takes0 s u k 0x0D01 = true) (hforce : k.w 4 ≤ 1)
    (hrest : (u.die k.die).brg.restoring = false) (hisol : (u.die k.die).brg.isolated = true) :
    execDieIsolate k s = .next (u.finish k 0x0D01 (mkRec k stDone 0 [])) := by
  rw [execDieIsolate, State.command0_takes _ htakes]
  simp [Nat.not_le.mpr (Nat.lt_succ_of_le hforce), hrest, hisol, State.done, stDone]

theorem execDieRestore_starts (htakes : takes0 s u k 0x0D02 = true) (hisol : (u.die k.die).brg.isolated = true)
    (hrest : (u.die k.die).brg.restoring = false) (hroom : (u.die k.die).peg.ops.length < 64) :
    execDieRestore k s = .next ((u.accept k 0x0D02 0 0 []).onDie k.die fun x =>
      { x with brg := { x.brg with restoring := true, restStep := 0, restFrom := x.stroke.count, restSpent := 0 } }) := by
  have hruns := ready_pegRuns (takes0_iff.mp htakes).1
  simp only [execDieRestore, hruns]
  rw [State.command0_takes _ htakes]
  simp [hisol, hrest, State.start, Nat.not_le.mpr hroom]

end

theorem execDieReachableAgain_isolates {d : DieId} (hup : up s d = true) (hpos : s.pos = 0) (hlost : (s.die d).brg.lost = true)
    (hlinked : (s.die d).brg.east.state ≠ 0 ∨ (s.die d).brg.west.state ≠ 0) :
    execDieReachableAgain d s = .next ((s.onDie d fun x => { x with brg := { x.brg with lost := false } }).stopDie d) := by
  obtain ⟨hpresent, hrun⟩ := up_iff.mp hup
  rw [execDieReachableAgain, if_pos (by simpa [hpresent, hrun, hpos, hlost] using hlinked)]

end Sys2Proof.Machine
end

section
/-! PROOFS. Elections, isolation and restore. -/

open Sys2Proof Sys2Proof.Machine

/-- Settles O42: an election is sendElect_opens, its end takeLead_leads and takeLead_follows; a die that is reached again is what
stopDie leaves of it. -/
theorem elections : Obligations.Elections := by
  unfold Obligations.Elections
  refine ⟨fun s hun hmay => ?_, fun s hlead hlinked hun hmay => ?_, fun s hrun hcount hlead hmay => ?_,
    fun s c hrun hpos helected hc hreach => ?_,
    fun s u k htakes hforce hrest hisol hports => Completes.of _ (execDieIsolate_isolates htakes hforce hrest hisol hports) rfl,
    fun s u k htakes hforce hrest hisol => Answers.of u (execDieIsolate_isolated htakes hforce hrest hisol) rfl,
    fun s u k htakes hisol hrest hroom => ?_, fun s d hup hpos hlost hlinked => ?_⟩
  · refine Completes.of (s.sendElect _) ?_ (s.sendElect_opens _)
    exact execDie0Unavailable_elects hun hmay
  · refine Completes.of (s.sendElect _) ?_ (s.sendElect_opens _)
    exact execOtherAccessDieUnavailable_elects hlead hlinked hun hmay
  · refine Completes.of (s.sendElect _) ?_ (s.sendElect_opens _)
    exact execLeadReturn_elects hrun hcount hmay
  · obtain ⟨hlead, hstate, hmloss, helect⟩ := s.takeLead_leads hc hreach
    refine Completes.of _ (execLeadChanged_leads hrun hpos helected) ?_
    exact ⟨hlead, hstate, hmloss, helect, fun d hd hbit => s.takeLead_follows c hd hbit⟩
  · obtain ⟨hentered, hkept⟩ := u.accept_enters k 0x0D02 0 0 [] hroom
    refine Completes.of _ (execDieRestore_starts htakes hisol hrest hroom) ?_
    generalize u.accept k 0x0D02 0 0 [] = w at hentered hkept ⊢
    rw [runsOp, State.die_onDie_same]
    exact ⟨hentered, rfl, rfl, hkept.trans hisol⟩
  · have hfound : ((s.onDie d fun x => { x with brg := { x.brg with lost := false } }).die d).brg.lost = false := by
      rw [State.die_onDie_same]
    refine Completes.of _ (execDieReachableAgain_isolates hup hpos hlost hlinked) ?_
    generalize (s.onDie d fun x => { x with brg := { x.brg with lost := false } }) = u at hfound ⊢
    obtain ⟨hkept, hisolated, hrestoring⟩ := u.stopDie_brg d
    exact ⟨hkept.trans hfound, hisolated, hrestoring, u.stopDie_banks d⟩
end

section
/-! SUPPORT. The tuning engine in its fret (R24, R27, R85 to R87, R96): what an update changes of its slice, and what it leaves of the
others, of the roles and of the stroke. -/

set_option Elab.async false

namespace Sys2Proof.Machine

/-! ### The count of a slice's updates -/

/-- What an update counts: the updates, the SNR seen at the last, and the SNR there is to see. -/
def Slice.progress (v : Slice) : Nat × Nat × Nat := (v.updates, v.snrAtUpd, v.snrNow)

@[simp] theorem Slice.offLimit_progress (v : Slice) (id : Nat) : (v.offLimit id).progress = v.progress := rfl

@[simp] theorem Slice.atLimit_progress (v : Slice) (id : Nat) (was now : Bool) : (v.atLimit id was now).progress = v.progress := by
  unfold Slice.atLimit
  extract_lets u
  have hu : u.progress = v.progress := by
    unfold u
    split
    · rfl
    · exact v.offLimit_progress id
  split
  · exact hu
  · rw [Slice.offLimit_progress, hu]

@[simp] theorem Die.trimUpdate_progress (x : Die) (n m : Nat) (l : List Int) (v : Slice) :
    (x.trimUpdate n m l v).progress = v.progress := by
  fun_induction Die.trimUpdate x n m l v
  case case1 => rfl
  case case2 ih => exact ih
  case case3 => rfl

/-! ### An update of a slice -/

theorem Die.ffeUpdate_slices (x : Die) (n : Nat) (held : List Nat) (k : Nat) (l : List Int) :
    (x.ffeUpdate n held k l).1.slices = x.slices := by
  fun_induction Die.ffeUpdate x n held k l
  case case1 => rfl
  case case2 => rfl
  case case3 ih => exact ih

/-- The registers of the slices lie from 0x20000 on: none below is a tap. -/
theorem Die.ffeUpdate_act (x : Die) (n : Nat) (held : List Nat) (k : Nat) (l : List Int) {o : Nat} (ho : o < 0x20000) :
    (x.ffeUpdate n held k l).1.act o = x.act o := by
  have hne (j : Nat) : o ≠ oFfe n j := by
    unfold oFfe oRx
    omega
  fun_induction Die.ffeUpdate x n held k l
  case case1 => rfl
  case case2 => rfl
  case case3 ih => exact ih.trans (Die.act_setAct_ne _ _ _ _ (hne _))

/-- An update writes its slice once, after coefficients in use have moved: it counts itself, with the SNR it saw (R85, R86). -/
theorem Die.tune_eq (x : Die) (n : Nat) (u : SliceUpdate) : ∃ (y : Die) (v : Slice) (run : Nat), v.progress = (x.slice n).progress ∧
    y.slices = x.slices ∧ (∀ o, o < 0x20000 → y.act o = x.act o) ∧ x.tune n u = y.setSlice n { v with convRun := run, updates := v.updates + 1, snrAtUpd := v.snrNow } := by
  unfold Die.tune
  extract_lets v₀ rh ctle vga ad step held peakOn peakWas peak gainOn gainWas gain y₁ v₁ v₂ v₃ ffeOn f y₂ v₄ dfeOn old dfe y₃ v₅
  have h₁ : v₁.progress = v₀.progress := by
    unfold v₁
    split <;> rfl
  have h₂ : v₂.progress = v₁.progress := by
    unfold v₂
    split <;> simp
  have h₃ : v₃.progress = v₂.progress := by
    unfold v₃
    split <;> simp
  have h₄ : v₄.progress = v₃.progress :=
    List.foldlRecOn (motive := fun v : Slice => v.progress = v₃.progress) f.2.1 _ rfl fun v hv p _ => by
      rw [Slice.atLimit_progress, hv]
  have h₅ : v₅.progress = v₄.progress := by
    unfold v₅
    split <;> simp
  have hslices : y₃.slices = x.slices := by
    have hf : f.1.slices = y₁.slices := by
      unfold f
      split
      · exact Die.ffeUpdate_slices _ _ _ _ _
      · rfl
    exact hf
  have hact (o : Nat) (ho : o < 0x20000) : y₃.act o = x.act o := by
    have hrx (r : Nat) : o ≠ oRx n r := by
      unfold oRx
      omega
    have hf : f.1.act o = y₁.act o := by
      unfold f
      split
      · exact Die.ffeUpdate_act _ _ _ _ _ ho
      · rfl
    simp only [y₃, y₂, y₁, Die.act_setAct_ne _ _ _ _ (hrx _), hf]
  refine ⟨y₃, _, _, ?_, hslices, hact, rfl⟩
  rw [Die.trimUpdate_progress]
  have hlimits (b : Bool) (w₁ w₂ e₁ e₂ : Bool) :
      (if b then (v₅.atLimit 0x41 w₁ e₁).atLimit 0x42 w₂ e₂ else v₅).progress = v₅.progress := by
    split <;> simp
  exact (hlimits _ _ _ _ _).trans (h₅.trans (h₄.trans (h₃.trans (h₂.trans h₁))))

theorem Die.tune_slice_ne (x : Die) {n m : Nat} (u : SliceUpdate) (h : m ≠ n) : (x.tune n u).slice m = x.slice m := by
  obtain ⟨y, v, run, -, hslices, -, heq⟩ := x.tune_eq n u
  rw [heq, Die.slice_setSlice_ne _ _ _ _ h, Die.slice, hslices, ← Die.slice]

theorem Die.tune_progress (x : Die) (n : Nat) (u : SliceUpdate) :
    ((x.tune n u).slice n).progress = ((x.slice n).updates + 1, (x.slice n).snrNow, (x.slice n).snrNow) := by
  obtain ⟨y, v, run, hv, -, -, heq⟩ := x.tune_eq n u
  simp only [Slice.progress, Prod.mk.injEq] at hv
  rw [heq, Die.slice_setSlice_same, Slice.progress, hv.1, hv.2.2]

theorem Die.tune_act (x : Die) (n : Nat) (u : SliceUpdate) {o : Nat} (ho : o < 0x20000) : (x.tune n u).act o = x.act o := by
  obtain ⟨y, v, run, -, -, hact, heq⟩ := x.tune_eq n u
  rw [heq, Die.act_setSlice, hact o ho]

/-! ### The roles of the slices -/

/-- On y the slices have the roles they have on x: its tests, its rotation sides and its ports are the same, and the registers
that lie below those of the slices. -/
structure Die.sameRoles (x y : Die) : Prop where
  bist : y.bist = x.bist
  courses : y.courses = x.courses
  ports : y.ports = x.ports
  act : ∀ o, o < 0x20000 → y.act o = x.act o

theorem Die.sameRoles.refl (x : Die) : x.sameRoles x := ⟨rfl, rfl, rfl, fun _ _ => rfl⟩

theorem Die.tune_sameRoles (x : Die) (n : Nat) (u : SliceUpdate) : x.sameRoles (x.tune n u) where
  bist := (congrArg Die.bist (x.tune_blk n u (β := .bist) (by simp)) :)
  courses := (congrArg Die.courses (x.tune_blk n u (β := .courses) (by simp)) :)
  ports := (congrArg Die.ports (x.tune_blk n u (β := .ports) (by simp)) :)
  act _ ho := x.tune_act n u ho

section
variable {x y : Die} (h : x.sameRoles y)
include h

theorem Die.sameRoles.sideOf (n : Nat) : y.sideOf n = x.sideOf n := by
  unfold Die.sideOf Die.course
  rw [h.courses]

theorem Die.sameRoles.posOf (n : Nat) : y.posOf n = x.posOf n := by
  unfold Die.posOf
  rw [h.sideOf]

/-- The registers of the ports lie below those of the slices. -/
theorem Die.sameRoles.port_act {n r : Nat} (hn : n < 64) (hr : r < 0x20) : y.act (oPort (n / 8) (n % 8) r) = x.act (oPort (n / 8) (n % 8) r) :=
  h.act _ (by unfold oPort; omega)

theorem Die.sameRoles.owner {c : Nat} (hc : c < 8) (side : Side) (j : Nat) : y.owner c side j = x.owner c side j := by
  refine List.find?_congr fun n hn => ?_
  obtain ⟨i, hi, rfl⟩ := List.mem_map.mp hn
  have hport : 8 * c + i < 64 := by
    have := List.mem_range.mp hi
    omega
  have hcfga : y.cfga (8 * c + i) = x.cfga (8 * c + i) := h.port_act hport (by decide)
  have hlo : y.act (oMapLo _ _) = x.act (oMapLo _ _) := h.port_act hport (r := 0x0C) (by decide)
  have hhi : y.act (oMapHi _ _) = x.act (oMapHi _ _) := h.port_act hport (r := 0x10) (by decide)
  simp only [Die.port, h.ports, Die.portHost, Die.portLine, hcfga, hlo, hhi]

theorem Die.sameRoles.role {n : Nat} (hn : n < 152) : y.role n = x.role n := by
  have hcourse : sliceCourse n < 8 := by
    unfold sliceCourse
    split <;> omega
  unfold Die.role Die.sliceTest Die.slicePort
  simp only [h.bist, h.posOf, h.sideOf, h.owner hcourse]

/-- A slice that the engine may update stays so while other slices are updated. -/
theorem Die.sameRoles.tunable {n : Nat} (hn : n < 152) (hslice : y.slice n = x.slice n) : y.tunable n = x.tunable n := by
  unfold Die.tunable
  simp only [h.role hn, h.sideOf, hslice]

end

/-! ### The engine's fret -/

/-- The engine comes to slice n of its order. -/
def Die.tuneNext (upd : List SliceUpdate) (x : Die) (n : Nat) : Die :=
  if x.tunable n then x.tune n ((upd.find? (fun u => u.slice.val == n)).getD SliceUpdate.still) else x

theorem Die.tuneNext_sameRoles (upd : List SliceUpdate) (x : Die) (n : Nat) : x.sameRoles (x.tuneNext upd n) := by
  unfold Die.tuneNext
  split
  · exact x.tune_sameRoles n _
  · exact .refl x

theorem Die.tuneNext_slice_ne (upd : List SliceUpdate) (x : Die) {n m : Nat} (h : m ≠ n) : (x.tuneNext upd n).slice m = x.slice m := by
  unfold Die.tuneNext
  split
  · exact x.tune_slice_ne _ h
  · rfl

theorem Die.tuneNext_stroke (upd : List SliceUpdate) (x : Die) (n : Nat) : (x.tuneNext upd n).stroke = x.stroke := by
  unfold Die.tuneNext
  split
  · exact (congrArg Die.stroke (x.tune_blk n _ (β := .stroke) (by simp)) :)
  · rfl

/-- In an order that names no slice twice, one that the engine may update counts one update, with the SNR it saw. -/
theorem Die.tuneNext_fold (upd : List SliceUpdate) {l : List Nat} (hl : l.Nodup) {n : Nat} (hn : n ∈ l) (hslice : n < 152) (x : Die)
    (htune : x.tunable n = true) : ((l.foldl (Die.tuneNext upd) x).slice n).progress =
      ((x.slice n).updates + 1, (x.slice n).snrNow, (x.slice n).snrNow) := by
  induction l generalizing x with
  | nil => simp at hn
  | cons e l ih =>
    obtain ⟨hnot, hl⟩ := List.nodup_cons.mp hl
    rw [List.foldl_cons]
    by_cases he : n = e
    · have hrest : (l.foldl (Die.tuneNext upd) (x.tuneNext upd e)).slice n = (x.tuneNext upd e).slice n :=
        List.foldlRecOn (motive := fun y : Die => y.slice n = (x.tuneNext upd e).slice n) l _ rfl fun y hy m hm => by
          rw [Die.tuneNext_slice_ne upd y (fun h : n = m => hnot (he ▸ h ▸ hm)), hy]
      rw [hrest, ← he, Die.tuneNext, if_pos htune, Die.tune_progress]
    · have hkept := Die.tuneNext_slice_ne upd x he
      have hmay : (x.tuneNext upd e).tunable n = true := by
        rw [(x.tuneNext_sameRoles upd e).tunable hslice hkept, htune]
      rw [ih hl ((List.mem_cons.mp hn).resolve_left he) _ hmay, hkept]

theorem Die.pinRecord_progress (x : Die) (m now n : Nat) : ((x.pinRecord m now).slice n).progress = (x.slice n).progress := by
  unfold Die.pinRecord
  split
  · rfl
  · dsimp only
    split
    · by_cases h : n = m
      · rw [h, Die.slice_setSlice_same]
        rfl
      · rw [Die.slice_setSlice_ne _ _ _ _ h]
        rfl
    · rfl

theorem Die.pinRecord_stroke (x : Die) (n now : Nat) : (x.pinRecord n now).stroke = x.stroke :=
  (congrArg Die.stroke (x.pinRecord_blk n now (β := .stroke) (by simp)) :)

theorem sideSlices_nodup (c : Nat) (side : Side) : (sideSlices c side).Nodup := by
  refine List.Nodup.map (fun a b h => ?_) List.nodup_range
  cases side <;> simpa [sliceOf] using h

theorem sideSlices_lt (c : CourseId) (side : Side) {n : Nat} (h : n ∈ sideSlices c.val side) : n < 152 := by
  obtain ⟨j, hj, rfl⟩ := List.mem_map.mp h
  have hj := List.mem_range.mp hj
  have hc := c.isLt
  cases side <;> simp only [sliceOf, sidePins] at hj ⊢ <;> omega

/-- The slices left over come first, and none comes twice (R27). -/
theorem Die.tuningOrder_nodup (x : Die) (c : Nat) (side : Side) : (x.tuningOrder c side).Nodup :=
  (((List.filter_append_perm (fun n => x.stroke.left.contains n) (sideSlices c side)).nodup_iff).mpr (sideSlices_nodup c side)).filter _

theorem Die.mem_tuningOrder (x : Die) {c : Nat} {side : Side} {n : Nat} (h : n ∈ sideSlices c side)
    (hcut : x.stroke.cut.contains n = false) : n ∈ x.tuningOrder c side := by
  refine List.mem_filter.mpr ⟨?_, by rw [hcut]; rfl⟩
  exact (List.filter_append_perm (fun n => x.stroke.left.contains n) (sideSlices c side)).mem_iff.mpr h

/-- In a course side's fret each of its slices that the engine may update, and that no overrun leaves over, counts one update
(R24, R27, R85). -/
theorem Die.tuneSide_progress (x : Die) (c : CourseId) (side : Side) (upd : List SliceUpdate) {n : Nat}
    (hn : n ∈ sideSlices c.val side) (hcut : x.stroke.cut.contains n = false) (htune : x.tunable n = true) :
    ((x.tuneSide c.val side upd).slice n).progress = ((x.slice n).updates + 1, (x.slice n).snrNow, (x.slice n).snrNow) := by
  rw [← Die.tuneNext_fold upd (x.tuningOrder_nodup c.val side) (x.mem_tuningOrder hn hcut) (sideSlices_lt c side hn) x htune]
  exact List.foldlRecOn (motive := fun y : Die => (y.slice n).progress =
      (((x.tuningOrder c.val side).foldl (Die.tuneNext upd) x).slice n).progress) (sideSlices c.val side) _ rfl
    fun y hy m _ => (y.pinRecord_progress m _ n).trans hy

theorem Die.tuneSide_ran (x : Die) (c : Nat) (side : Side) (upd : List SliceUpdate) :
    (x.tuneSide c side upd).stroke.ran = x.stroke.ran := by
  have hfold : ((x.tuningOrder c side).foldl (Die.tuneNext upd) x).stroke = x.stroke :=
    List.foldlRecOn (motive := fun y : Die => y.stroke = x.stroke) _ _ rfl fun y hy n _ => (y.tuneNext_stroke upd n).trans hy
  have hpins : ((sideSlices c side).foldl (fun y n => y.pinRecord n x.stroke.count)
      ((x.tuningOrder c side).foldl (Die.tuneNext upd) x)).stroke = x.stroke :=
    List.foldlRecOn (motive := fun y : Die => y.stroke = x.stroke) _ _ hfold fun y hy n _ => (y.pinRecord_stroke n _).trans hy
  exact (congrArg StrokeBlk.ran hpins :)

/-! ### The tuning fret -/

/-- Up to the start of fret 17 time passing changes a die's telemetry alone (R22, R400). -/
theorem State.advance_early (s : State) {p : Nat} (hp : p < 680) (d : DieId) : ∃ t, (s.advance p).die d = { s.die d with tele := t } := by
  unfold State.advance
  split
  next h =>
    have hmiss : decide (680 ≤ p) = false := by simpa using hp
    have hsnap : decide (840 ≤ p) = false := by
      simp only [decide_eq_false_iff_not]
      omega
    have hcopy : decide (1000 ≤ p) = false := by
      simp only [decide_eq_false_iff_not]
      omega
    have hbank : decide (1120 ≤ p) = false := by
      simp only [decide_eq_false_iff_not]
      omega
    simp only [hmiss, hsnap, hcopy, hbank, Bool.and_false, decide_false, Bool.false_eq_true, if_false]
    change ∃ t, (s.onAwake fun s e => s.onDie e fun x => x.frets _).die d = { s.die d with tele := t }
    rw [State.die_onAwake]
    split
    · exact (s.die d).frets_eq _
    · exact ⟨_, rfl⟩
  next => exact ⟨_, rfl⟩

theorem tuningFretOf_le (c : CourseId) (side : Side) : tuningFretOf c.val side ≤ 16 := by
  have hc := c.isLt
  cases side <;> simp only [tuningFretOf] <;> omega

theorem State.toFret_pos (s : State) (hrun : s.running = true) {f : Nat} (hf : f ≤ 31) : (s.toFret f).pos = max s.pos (40 * f) := by
  have hlast : 40 * f ≤ 1279 := by omega
  rw [State.toFret, State.advance_pos]
  by_cases h : s.pos < 40 * f
  · simp [hrun, h, hlast, Nat.max_eq_right h.le]
  · simp [h, Nat.max_eq_left (Nat.not_lt.mp h)]

theorem State.laneCapos_idle {s : State} {d : DieId} (h : (s.die d).peg.awaits = []) (c : Nat) (side : Side) :
    s.laneCapos d c side = s := by
  unfold State.laneCapos
  rw [h]
  split <;> rfl

/-- s in fret f, or where it stands in the stroke if f has begun, with f's work of die d run. -/
def State.inFret (s : State) (d : DieId) (f : Nat) : State := (s.toFret f).onDie d fun x => x.didFret f

/-- The die of a tuning fret, as the fret starts: its telemetry has moved on, and the fret's work has run. -/
theorem State.tuningFret_die (s : State) (d : DieId) {f : Nat} (hf : f ≤ 16) : ∃ t, (s.inFret d f).die d =
    { s.die d with tele := t, stroke := { (s.die d).stroke with ran := (s.die d).stroke.ran ||| 2 ^ f } } := by
  obtain ⟨t, h⟩ := s.advance_early (p := 40 * f) (by omega) d
  rw [State.inFret, State.die_onDie_same, State.toFret, h]
  exact ⟨t, rfl⟩

/-- A fret that is open runs the engine once, where the engine runs and no LANE_CAPO waits (R24, R26, R85). -/
theorem execTuningFret_eq {s : State} {d : DieId} {c : CourseId} {side : Side} (hup : up s d = true)
    (htunes : (s.die d).tuningRuns = true) (hawaits : (s.die d).peg.awaits = [])
    (hopen : s.fretOpen d (tuningFretOf c.val side) (tuningFretOf c.val side) = true) (upd : List SliceUpdate) :
    execTuningFret d c side upd s = .next ((s.inFret d (tuningFretOf c.val side)).onDie d fun x => x.tuneSide c.val side upd) := by
  obtain ⟨hpresent, hrun⟩ := up_iff.mp hup
  obtain ⟨t, hdie⟩ := s.tuningFret_die d (tuningFretOf_le c side)
  have hidle := State.laneCapos_idle (s := s.inFret d (tuningFretOf c.val side))
    (d := d) (by rw [hdie]; exact hawaits) c.val side
  have hruns : ((s.inFret d (tuningFretOf c.val side)).die d).tuningRuns = true := by
    rw [hdie]
    exact htunes
  unfold execTuningFret
  dsimp only
  rw [if_pos (by rw [hpresent, hrun, hopen]; rfl)]
  rw [← State.inFret, hidle, hruns]
  rfl

/-! ### Writing a slice -/

theorem State.onSlice_eq {s : State} {d : DieId} {n : Nat} {f : Slice → Slice} (h : ((s.die d).slice n).capo = (f ((s.die d).slice n)).capo) :
    s.onSlice d n f = s.setSlice d n (f ((s.die d).slice n)) := by
  unfold State.onSlice
  rw [if_pos h]

theorem State.setSlice_slice (s : State) (d : DieId) (n : Nat) (v : Slice) : ((s.setSlice d n v).die d).slice n = v := by
  simp

theorem execConverged_eq {s : State} {d : DieId} {n : SliceId} (hup : up s d = true) (hparked : (s.die d).parked n.val = false)
    (hconv : ((s.die d).slice n.val).converged = false) (hrun : 256 ≤ ((s.die d).slice n.val).convRun) :
    execConverged d n s = .next ((s.setSlice d n.val { (s.die d).slice n.val with converged := true, acquiring := false }).post
      d n.val 0x04 (pair ((s.die d).slice n.val).snrNow (sat16 ((s.die d).slice n.val).updates))) := by
  obtain ⟨hpresent, hrunning⟩ := up_iff.mp hup
  have hslice := State.onSlice_eq (s := s) (d := d) (n := n.val) (f := fun v => { v with converged := true, acquiring := false }) rfl
  simp [execConverged, hpresent, hrunning, hparked, hconv, hrun, hslice, State.postRx]

theorem execAdaptLimit_eq {s : State} {d : DieId} {n : SliceId} {coef : Fin 69} (hup : up s d = true)
    (hlimit : 64 ≤ SMap.get 0 ((s.die d).slice n.val).limits coef.val)
    (hnew : ((s.die d).slice n.val).limited.contains coef.val = false) :
    execAdaptLimit d n coef s = .next (((s.setSlice d n.val
      { (s.die d).slice n.val with limited := coef.val :: ((s.die d).slice n.val).limited }).count d (cRx n.val + 0x18)).post
        d n.val 0x06 coef.val) := by
  obtain ⟨hpresent, hrunning⟩ := up_iff.mp hup
  have hslice := State.onSlice_eq (s := s) (d := d) (n := n.val) (f := fun v => { v with limited := coef.val :: v.limited }) rfl
  unfold execAdaptLimit
  extract_lets v
  rw [if_pos (by simpa [hpresent, hrunning, hlimit, v] using hnew), hslice, State.postRx]

/-- Setting the HOST capo source changes no other slice (R90). -/
theorem State.capoHost_slice (s : State) (d : DieId) (n m : Nat) (level : Bool) : ((s.capoHost d n level).die d).slice m =
    if m = n then { (s.die d).slice n with capoHost := level } else (s.die d).slice m := by
  have hset (v : Slice) : ((s.setSlice d n v).die d).slice m = if m = n then v else (s.die d).slice m := by
    split
    next h => rw [h, State.setSlice_slice]
    next h => simp [h]
  have hpost (t : State) (data : Nat) : ((t.postRx d n 0x09 data).die d).slice m = (t.die d).slice m := by
    simp [State.postRx]
  unfold State.capoHost State.onSlice
  dsimp only
  split
  · rw [hset]
  · rw [hpost, hset]

end Sys2Proof.Machine
end

section
/-! PROOFS. The adaptation of the slices. -/

open Sys2Proof Sys2Proof.Machine

/-- Settles O22: the engine's fret is tuneSide_progress on the die that tuningFret_die gives; the other rows write one slice. -/
theorem sliceAdaptation : Obligations.SliceAdaptation := by
  unfold Obligations.SliceAdaptation
  refine ⟨fun s d c side upd hup htunes hawaits hopen => ?_, fun s d c side upd hran => ?_, fun s d n hup hparked hconv hrun => ?_,
    fun s d n coef hup hlimit hnew => ?_, fun s d n level hup => ?_⟩
  · obtain ⟨t, hdie⟩ := s.tuningFret_die d (tuningFretOf_le c side)
    refine Completes.of _ (execTuningFret_eq hup htunes hawaits hopen upd)
      ⟨s.toFret_pos (up_iff.mp hup).2 ((tuningFretOf_le c side).trans (by decide)), ?_, fun n hn hcut htune => ?_⟩
    · rw [State.die_onDie_same, Die.tuneSide_ran, hdie, bit_or_pow]
    · have hroles : (s.die d).sameRoles ((s.inFret d (tuningFretOf c.val side)).die d) := by
        rw [hdie]
        exact ⟨rfl, rfl, rfl, fun _ _ => rfl⟩
      have hslice : ((s.inFret d (tuningFretOf c.val side)).die d).slice n =
          (s.die d).slice n := by
        rw [hdie]
        rfl
      have hcounts := Die.tuneSide_progress _ c side upd hn (by rw [hdie]; exact hcut)
        ((hroles.tunable (sideSlices_lt c side hn) hslice).trans htune)
      rw [hslice] at hcounts
      simp only [Slice.progress, Prod.mk.injEq] at hcounts
      rw [State.die_onDie_same]
      exact ⟨hcounts.1, hcounts.2.1⟩
  · refine Completes.of s ?_ rfl
    change execTuningFret d c side upd s = _
    simp [execTuningFret, State.fretOpen, hran]
  · exact Posts.of _ (execConverged_eq hup hparked hconv hrun) (s.setSlice_slice d _ _)
  · refine Posts.of _ (execAdaptLimit_eq hup hlimit hnew) ?_
    simp [State.count]
  · refine Completes.of (s.capoHost d n.val level) ?_ ⟨?_, fun m hm => ?_⟩
    · obtain ⟨hpresent, hrunning⟩ := up_iff.mp hup
      change execCapoHostWrite d n level s = _
      simp [execCapoHostWrite, hpresent, hrunning]
    · rw [State.capoHost_slice, if_pos rfl]
    · rw [State.capoHost_slice, if_neg (fun h => hm (Fin.ext h))]
end

section
/-! SUPPORT. Writing one port, the debounced level of PRS_N (R54), the line segments it gates (R53), and the session of a
single lane at its start (R161, R221). -/

set_option Elab.async false

namespace Sys2Proof.Machine

/-! ### Fields of a kept block -/

theorem State.txs_of_blk {s t : State} (h : t.blk .txs = s.blk .txs) (d : DieId) : (t.die d).txs = (s.die d).txs :=
  (congrArg Die.txs (State.die_of_blk h d) :)

theorem State.pins_of_blk {s t : State} (h : t.blk .pins = s.blk .pins) (d : DieId) : (t.die d).pins = (s.die d).pins :=
  (congrArg Die.pins (State.die_of_blk h d) :)

/-! ### One port of a die -/

/-- Ports of one die differ in their keys. -/
theorem PortId.eq_of_key {p q : PortId} (hdie : q.die = p.die) (hkey : q.key = p.key) : q = p := by
  obtain ⟨pd, pc, pi⟩ := p
  obtain ⟨qd, qc, qi⟩ := q
  have hpi := pi.isLt
  have hqi := qi.isLt
  simp only [PortId.key] at hkey hdie
  have hc : qc = pc := Fin.ext (by omega)
  have hi : qi = pi := Fin.ext (by omega)
  rw [hdie, hc, hi]

@[simp] theorem portId_key (d : DieId) {n : Nat} (hn : n < 64) : (portId d n).key = n := by
  simp only [portId, PortId.key]
  omega

theorem State.onPort_port_same (s : State) (p : PortId) (f : Port → Port) : (s.onPort p f).port p = f (s.port p) :=
  s.port_setPort_same p _

theorem State.onPort_port_ne (s : State) {p q : PortId} (f : Port → Port) (h : q ≠ p) : (s.onPort p f).port q = s.port q := by
  by_cases hdie : q.die = p.die
  · have hkey : q.key ≠ p.key := fun hkey => h (PortId.eq_of_key hdie hkey)
    simp [State.port, State.onPort, State.setPort, hdie, hkey]
  · simp [State.port, State.onPort, State.setPort, hdie]

/-! ### Presence -/

@[simp] theorem Port.pres_setPres (v : Port) (h : Side) (on : Bool) : (v.setPres h on).pres h = on := by
  cases h <;> rfl

@[simp] theorem Port.enabled_setPres (v : Port) (h : Side) (on : Bool) : (v.setPres h on).enabled = v.enabled := by
  cases h <;> rfl

/-- Moving the presence of one segment touches that port alone. -/
theorem State.onPort_setPres (s : State) (p : PortId) (h : Side) (on : Bool) :
    let t := s.onPort p (fun v => v.setPres h on)
    t.port p = (s.port p).setPres h on ∧ (t.port p).pres h = on ∧ ∀ q : PortId, q ≠ p → t.port q = s.port q := by
  dsimp only
  rw [s.onPort_port_same p]
  exact ⟨rfl, Port.pres_setPres _ _ _, fun q hq => s.onPort_port_ne _ hq⟩

/-- The debounced level of course c takes a value (R54). -/
def State.prsLevel (s : State) (d : DieId) (c : Nat) (level : Bool) : State :=
  s.setCourse d c { (s.die d).course c with present := level }

theorem State.prsLevel_course (s : State) (d : DieId) (c : Nat) (level : Bool) :
    ((s.prsLevel d c level).die d).course c = { (s.die d).course c with present := level } := by
  simp [State.prsLevel, State.setCourse]

/-- The level gates the line segment of port n, which is enabled and takes its presence from PRS_N (R53). -/
def State.gates (s : State) (d : DieId) (n : Nat) : Bool := ((s.die d).port n).enabled && prsEn ((s.die d).cfgb n)

/-- What a falling level does to port n of its course: a line segment that it gates is absent (R53). -/
def State.gateLine (d : DieId) (s : State) (n : Nat) : State :=
  if s.gates d n then s.onPort (portId d n) (fun v => v.setPres .line false) else s

/-- The line segment of port n is absent, and so of no kind (R55). -/
def State.lineGone (s : State) (d : DieId) (n : Nat) : Prop :=
  ((s.die d).port n).linePres = false ∧ ((s.die d).port n).kind = 0

theorem State.gates_iff {s : State} {d : DieId} {n : Nat} :
    s.gates d n = true ↔ ((s.die d).port n).enabled = true ∧ prsEn ((s.die d).cfgb n) = true := by
  simp [State.gates]

theorem State.gateLine_port (s : State) (d : DieId) {n : Nat} (hn : n < 64) (m : Nat) : ((s.gateLine d n).die d).port m =
    if m = n ∧ s.gates d n = true then ((s.die d).port n).setPres .line false else (s.die d).port m := by
  unfold State.gateLine
  by_cases hgates : s.gates d n = true
  · have hdie : (portId d n).die = d := rfl
    rw [if_pos hgates, State.onPort, State.setPort, State.port, hdie, portId_key d hn, State.die_onDie_same]
    by_cases hm : m = n
    · rw [if_pos ⟨hm, hgates⟩, hm, Die.port_setPort_same]
    · rw [if_neg (fun h => hm h.1), Die.port_setPort_ne _ _ _ _ hm]
  · rw [if_neg hgates, if_neg (fun h => hgates h.2)]

theorem State.gateLine_active (s : State) (d : DieId) (n : Nat) : ((s.gateLine d n).die d).active = (s.die d).active := by
  unfold State.gateLine
  split
  · exact State.active_of_blk (s.onPort_blk _ _ (by simp)) d
  · rfl

theorem State.gateLine_courses (s : State) (d : DieId) (n : Nat) : ((s.gateLine d n).die d).courses = (s.die d).courses := by
  unfold State.gateLine
  split
  · exact State.courses_of_blk (s.onPort_blk _ _ (by simp)) d
  · rfl

theorem State.gateLine_gates {s : State} {d : DieId} {n m : Nat} (hn : n < 64) (h : s.gates d m = true) :
    (s.gateLine d n).gates d m = true := by
  have hcfgb : ((s.gateLine d n).die d).cfgb m = (s.die d).cfgb m := by
    rw [Die.cfgb, Die.act, State.gateLine_active, ← Die.act, ← Die.cfgb]
  have henabled : (((s.gateLine d n).die d).port m).enabled = ((s.die d).port m).enabled := by
    rw [State.gateLine_port s d hn]
    split
    next hm => rw [Port.enabled_setPres, hm.1]
    next => rfl
  rwa [State.gates, henabled, hcfgb]

theorem State.gateLine_lineGone {s : State} {d : DieId} {n m : Nat} (hn : n < 64) (h : s.lineGone d m) :
    (s.gateLine d n).lineGone d m := by
  unfold State.lineGone
  rw [State.gateLine_port s d hn]
  split
  · exact ⟨rfl, rfl⟩
  · exact h

/-- The falling level makes the line segment of every listed port that it gates absent. -/
theorem State.gateLine_fold {d : DieId} {l : List Nat} (hl : ∀ n ∈ l, n < 64) {m : Nat} (hm : m ∈ l) (s : State)
    (h : s.gates d m = true) : (l.foldl (State.gateLine d) s).lineGone d m := by
  induction l generalizing s with
  | nil => simp at hm
  | cons n l ih =>
    have hn : n < 64 := hl n (by simp)
    have hrest : ∀ e ∈ l, e < 64 := fun e he => hl e (by simp [he])
    rw [List.foldl_cons]
    by_cases heq : m = n
    · have hgone : (s.gateLine d n).lineGone d m := by
        unfold State.lineGone
        rw [State.gateLine_port s d hn, if_pos ⟨heq, heq ▸ h⟩]
        exact ⟨rfl, rfl⟩
      exact List.foldlRecOn (motive := fun t : State => t.lineGone d m) l _ hgone
        fun t ht e he => State.gateLine_lineGone (hrest e he) ht
    · exact ih hrest ((List.mem_cons.mp hm).resolve_left heq) _ (State.gateLine_gates hn h)

theorem State.gateLine_fold_courses (s : State) (d : DieId) (l : List Nat) :
    ((l.foldl (State.gateLine d) s).die d).courses = (s.die d).courses :=
  State.foldl_keeps s (fun t => (t.die d).courses) _ (fun t n => t.gateLine_courses d n) l

theorem coursePorts_lt (c : CourseId) {n : Nat} (h : n ∈ coursePorts c.val) : n < 64 := by
  obtain ⟨i, hi, rfl⟩ := List.mem_map.mp h
  have hi := List.mem_range.mp hi
  have hc := c.isLt
  omega

section
variable {s : State} {d : DieId} {c : CourseId} (hup : up s d = true)
include hup

theorem execPrsAsserted_eq (hlevel : ((s.die d).course c.val).present = false) (hraw : ((s.die d).course c.val).prsRaw = true)
    (hfor : s.prsFor d c.val (if (s.die d).prsDb c.val = 0 then 16 else 1024 * (s.die d).prsDb c.val) = true) :
    execPrsAsserted d c s = .next ((s.prsLevel d c.val true).post d (288 + c.val) 0x01 ((s.die d).prsDb c.val)) := by
  obtain ⟨hpresent, hrun⟩ := up_iff.mp hup
  unfold execPrsAsserted
  dsimp only
  rw [if_pos (by simp only [hpresent, hrun, hlevel, hraw, hfor, Bool.not_false, Bool.and_self])]
  rfl

theorem execPrsDeasserted_eq (hlevel : ((s.die d).course c.val).present = true)
    (hraw : ((s.die d).course c.val).prsRaw = false) (hfor : s.prsFor d c.val 16 = true) :
    execPrsDeasserted d c s =
      .next ((coursePorts c.val).foldl (State.gateLine d) ((s.prsLevel d c.val false).post d (288 + c.val) 0x02 0)) := by
  obtain ⟨hpresent, hrun⟩ := up_iff.mp hup
  unfold execPrsDeasserted
  dsimp only
  rw [if_pos (by simp only [hpresent, hrun, hlevel, hraw, hfor, Bool.not_false, Bool.and_self])]
  rfl

end

/-- The level and its post change no port and no active value, so the level gates the ports it did. -/
theorem State.prsLevel_gates (s : State) (d : DieId) (c n : Nat) (level : Bool) (src cause data : Nat) :
    ((s.prsLevel d c level).post d src cause data).gates d n = s.gates d n := by
  simp [State.gates, State.prsLevel, Die.port, Die.cfgb, Die.act]

section
variable {s : State} {p : PortId} (hup : up s p.die = true) (henabled : (s.port p).enabled = true)
include hup henabled

theorem execSegmentPresent_eq {h : Side} (hpres : (s.port p).pres h = false) (hseen : (s.die p.die).seen p.key h s.pos = true) :
    execSegmentPresent p h s = .next (s.onPort p fun v => v.setPres h true) := by
  obtain ⟨hpresent, hrun⟩ := up_iff.mp hup
  simp [execSegmentPresent, hpresent, hrun, henabled, hpres, hseen]

theorem execSegmentAbsent_eq {h : Side} (hpres : (s.port p).pres h = true) (hunseen : (s.die p.die).unseen p.key h s.pos = true) :
    execSegmentAbsent p h s = .next (s.onPort p fun v => v.setPres h false) := by
  obtain ⟨hpresent, hrun⟩ := up_iff.mp hup
  simp [execSegmentAbsent, hpresent, hrun, henabled, hpres, hunseen]

end

/-! ### The single-lane session of a retry -/

theorem State.onLat_lat (s : State) (d : DieId) (c : Nat) (f : Lattice → Lattice) :
    (((s.onLat d c f).die d).course c).lat = f ((s.die d).course c).lat := by
  simp [State.onLat, State.setCourse]

theorem State.latMove_lat (s : State) (d : DieId) (c new : Nat) : (((s.latMove d c new).die d).course c).lat =
    { ((s.die d).course c).lat with state := new, changed := s.stroke d } :=
  s.onLat_lat d c _

/-- Two states with one block of courses have the same lattice on each course. -/
theorem State.lat_of_blk {s t : State} (h : t.blk .courses = s.blk .courses) (d : DieId) (c : Nat) :
    ((t.die d).course c).lat = ((s.die d).course c).lat := by
  rw [Die.course, State.courses_of_blk h, ← Die.course]

/-- The lane of the single-lane session may be written as a frame begins, and nothing else of a lattice. -/
theorem State.frameBegin_lat (s : State) (d : DieId) (n : Nat) (h : Side) (j c : Nat) :
    ∃ l, (((s.frameBegin d n h j .lattice).die d).course c).lat = { ((s.die d).course c).lat with lane := l } := by
  unfold State.frameBegin
  dsimp only
  split
  · rw [State.setLane, State.setCourse, State.die_onDie_same]
    by_cases hc : c = n / 8
    · rw [hc, Die.course_setCourse_same]
      exact ⟨_, rfl⟩
    · rw [Die.course_setCourse_ne _ _ _ _ hc]
      exact ⟨_, rfl⟩
  · exact ⟨_, rfl⟩

/-- A single-lane session of a course that is not disarmed enters READMIT on its position, with no retry due (R161, R221). -/
theorem State.singleStart_lat (s : State) (d : DieId) (c pos : Nat) (harmed : ((s.die d).course c).lat.state ≠ 7) :
    let l := (((s.singleStart d c pos).die d).course c).lat
    l.state = 5 ∧ l.sess = true ∧ l.retryAt = none ∧ l.pos = pos := by
  unfold State.singleStart
  extract_lets n lat own moved started opened numbered framed
  have hmoved : ((moved.die d).course c).lat = { lat with state := 5, changed := s.stroke d, pos := pos } := by
    have hcond : (decide (lat.state = 7) && !(decide (lat.dreason = 4) && decide (pos = 8)) && lat.txFrames) = false := by
      rw [decide_eq_false harmed]
      rfl
    unfold moved
    rw [hcond, if_neg Bool.false_ne_true, State.onLat_lat, State.latMove_lat]
  have hstarted : ((started.die d).course c).lat = ((moved.die d).course c).lat := by
    have htaps := (moved.sliceSession d c .line pos).tapsStart_blk d n .line pos (β := .courses) (by simp)
    exact State.lat_of_blk (htaps.trans (moved.sliceSession_blk d c .line pos (β := .courses) (by simp))) d c
  have hnumbered : ((numbered.die d).course c).lat = ((opened.die d).course c).lat :=
    State.lat_of_blk (opened.onPort_blk _ _ (by simp)) d c
  obtain ⟨lane, hframe⟩ := numbered.frameBegin_lat d n .line pos c
  unfold framed
  rw [hframe, hnumbered]
  unfold opened
  rw [State.onLat_lat, hstarted, hmoved]
  exact ⟨rfl, rfl, rfl, rfl⟩

section
variable {s : State} {p : PortId} (hup : up s p.die = true) {t₀ : Nat} (hdue : t₀ ≤ s.stroke p.die)
include hup hdue

theorem execTrainRetry_detected (hstate : (s.port p).state = 2) (hauto : isHold ((s.die p.die).cfga p.key) = false)
    (hretry : (s.port p).retryAt = some t₀) : execTrainRetry p s =
      .next (s.onPort p fun v => { v with retryAt := none, failed := false, startAt := some (s.stroke p.die + 1) }) := by
  obtain ⟨hpresent, hrun⟩ := up_iff.mp hup
  simp [execTrainRetry, hpresent, hrun, hstate, hauto, hretry, hdue]

theorem execTrainRetry_rebuilding (hstate : (s.port p).state ≠ 2) (hkey : (s.die p.die).latKey p.course.val = p.key)
    (hlat : ((s.die p.die).course p.course.val).lat.state = 4) (hsess : ((s.die p.die).course p.course.val).lat.sess = false)
    (hretry : ((s.die p.die).course p.course.val).lat.retryAt = some t₀) : execTrainRetry p s =
      .next (s.singleStart p.die p.course.val ((s.die p.die).course p.course.val).lat.spos) := by
  obtain ⟨hpresent, hrun⟩ := up_iff.mp hup
  simp [execTrainRetry, hpresent, hrun, hstate, hkey, Lattice.awaits, hlat, hsess, hretry, hdue]

end

end Sys2Proof.Machine
end

section
/-! SUPPORT. A port's registers in the map, and the commands whose TARGET is a port (R5, R65, R66). -/

set_option Elab.async false

namespace Sys2Proof.Machine

/-- The eight configuration registers of a port are in the commit group of its course (R299). -/
theorem groupOf_oPort : ∀ (c : CourseId) (i : PortIx) (r : Fin 8), groupOf (oPort c.val i.val (4 * r.val)) = some (8 + c.val) := by
  decide +kernel

theorem lookup_of_groupOf {o g : Nat} (h : groupOf o = some g) : ∃ sel, lookup o = some sel ∧ sel.group = some g :=
  Option.bind_eq_some_iff.mp h

/-- Register r of a port, its offset a multiple of 4 below 0x20, is in the map, in the group of its course. -/
theorem lookup_oPort (c : CourseId) (i : PortIx) {r : Nat} (hr : r < 0x20) (h4 : r % 4 = 0) :
    ∃ sel, lookup (oPort c.val i.val r) = some sel ∧ sel.group = some (8 + c.val) := by
  have hreg : 4 * (r / 4) = r := by omega
  exact lookup_of_groupOf (hreg ▸ groupOf_oPort c i ⟨r / 4, by omega⟩)

/-- A command on a port that its die takes up runs its row's body on the port that TARGET names, defined or not. -/
theorem State.commandPort_named {s u : State} {k : Packet} {op : Nat} {p : PortId} (body : State → PortId → State)
    (h : takes s u k op = true) (hp : portOf u k k.target.toNat = some p) : s.commandPort k op body = body u p := by
  obtain ⟨hready, hu⟩ := takes_iff.mp h
  rw [State.commandPort, State.command_ready _ hready, ← hu, hp]

/-- A command on a defined port that its die takes up runs its row's body on that port. -/
theorem State.commandDefined_takes {s u : State} {k : Packet} {op : Nat} {p : PortId} (body : State → PortId → State)
    (h : takesPort s u k op p = true) : s.commandDefined k op body = body u p := by
  obtain ⟨-, -, -, hdefined⟩ := takesPort_iff.mp h
  rw [State.commandDefined, State.commandPort_takes _ h, if_pos hdefined]

/-- A command that stages registers of one port, each once, waits for the boundary that applies the group of its course (R65). -/
theorem State.commitAnswer_port (u : State) (k : Packet) (op arg : Nat) (c : CourseId) (i : PortIx) (l : List (Nat × Half))
    (hnodup : (l.map (·.1)).Nodup) (hregs : ∀ q ∈ l, ∃ r, r < 0x20 ∧ r % 4 = 0 ∧ q.1 = oPort c.val i.val r) :
    StagesAndWaits u (u.commitAnswer k op (8 + c.val) l arg) k op (8 + c.val) l arg := by
  refine u.commitAnswer_stages k op (8 + c.val) l arg hnodup fun q hq => ?_
  obtain ⟨r, hr, h4, hoff⟩ := hregs q hq
  exact hoff ▸ lookup_oPort c i hr h4

theorem State.commitAnswer_ctl (u : State) (k : Packet) (op : Nat) (c : CourseId) (i : PortIx) (v : Half) :
    StagesAndWaits u (u.commitAnswer k op (8 + c.val) [(oPctl c.val i.val, v)]) k op (8 + c.val) [(oPctl c.val i.val, v)] 0 := by
  refine u.commitAnswer_port k op 0 c i _ (List.nodup_singleton _) fun q hq => ?_
  rw [List.mem_singleton.mp hq]
  exact ⟨0x1C, by decide, by decide, rfl⟩

/-- What PORT_DEFINE stages: the profile of its packet, and the two polarity registers (R65). -/
def defineStages (k : Packet) (p : PortId) : List (Nat × Half) :=
  let c := p.course.val
  let i := p.idx.val
  let f := Packet.profile k
  [(oCfga c i, f.a), (oCfgb c i, f.b), (oBudget c i, f.bu), (oMapLo c i, f.lo), (oMapHi c i, f.hi),
    (oPolh c i, BitVec.ofNat 16 (k.w 7)), (oPoll c i, BitVec.ofNat 16 (k.w 7 / 65536))]

theorem defineStages_offsets (k : Packet) (p : PortId) :
    (defineStages k p).map (·.1) = [0x00, 0x04, 0x08, 0x0C, 0x10, 0x14, 0x18].map (oPort p.course.val p.idx.val) := rfl

theorem oPort_injective (c i : Nat) : Function.Injective (oPort c i) := fun _ _ h => Nat.add_left_cancel h

theorem State.commitAnswer_define (u : State) (k : Packet) (p : PortId) :
    StagesAndWaits u (u.commitAnswer k 0x0101 (8 + p.course.val) (defineStages k p)) k 0x0101 (8 + p.course.val)
      (defineStages k p) 0 := by
  refine u.commitAnswer_port k 0x0101 0 p.course p.idx _ ?_ fun q hq => ?_
  · rw [defineStages_offsets]
    exact List.Nodup.map (oPort_injective _ _) (by decide)
  · have hoff := List.mem_map_of_mem (f := (·.1)) hq
    rw [defineStages_offsets] at hoff
    obtain ⟨r, hr, hrq⟩ := List.mem_map.mp hoff
    have haligned : ∀ r ∈ [0x00, 0x04, 0x08, 0x0C, 0x10, 0x14, 0x18], r < 0x20 ∧ r % 4 = 0 := by decide
    exact ⟨r, (haligned r hr).1, (haligned r hr).2, hrq.symm⟩

/-! ### The rows, on a port that TARGET names -/

section
variable {s u : State} {k : Packet} {p : PortId}

theorem execPortDefine_eq (h : takes s u k 0x0101 = true) (hp : portOf u k k.target.toNat = some p) (hstate : (u.port p).state = 0)
    (hrule : profileRule (Packet.profile k) ((u.die p.die).plannedOthers p.course.val p.idx.val) = 0) :
    execPortDefine k s = .next (u.commitAnswer k 0x0101 (8 + p.course.val) (defineStages k p)) := by
  rw [execPortDefine, State.commandPort_named _ h hp]
  exact congrArg Host.Outcome.next ((if_neg (not_not.mpr hstate)).trans (if_neg (not_not.mpr hrule)))

theorem execPortEnable_disabled (h : takesPort s u k 0x0102 p = true) (hoff : (u.port p).enabled = false)
    (hrule : (u.die p.die).plannedRule p.course.val p.idx.val = 0) :
    execPortEnable k s = .next (u.commitAnswer k 0x0102 (8 + p.course.val) [(oPctl p.course.val p.idx.val, 1)]) := by
  rw [execPortEnable, State.commandDefined_takes _ h]
  simp [hoff, hrule]

theorem execPortEnable_enabled (h : takesPort s u k 0x0102 p = true) (hon : (u.port p).enabled = true) :
    execPortEnable k s = .next (u.done k 0x0102 0 []) := by
  rw [execPortEnable, State.commandDefined_takes _ h]
  simp [hon]

theorem execPortDisable_enabled (h : takesPort s u k 0x0103 p = true) (hon : (u.port p).enabled = true) :
    execPortDisable k s = .next (u.commitAnswer k 0x0103 (8 + p.course.val) [(oPctl p.course.val p.idx.val, 0)]) := by
  rw [execPortDisable, State.commandDefined_takes _ h]
  simp [hon]

theorem execPortDisable_disabled (h : takesPort s u k 0x0103 p = true) (hoff : (u.port p).enabled = false) :
    execPortDisable k s = .next (u.done k 0x0103 0 []) := by
  rw [execPortDisable, State.commandDefined_takes _ h]
  simp [hoff]

theorem execPortStatus_eq (h : takesPort s u k 0x0104 p = true) : execPortStatus k s = .next (u.done k 0x0104 3 (u.portStatus p)) := by
  rw [execPortStatus, State.commandDefined_takes _ h]

theorem execPortAttachPolicy_eq (h : takesPort s u k 0x0105 p = true) (hattach : k.w 4 ≤ 1) :
    execPortAttachPolicy k s = .next (u.await k 0x0105 (u.stroke p.die + 1) (p.key * 2 + k.w 4)) := by
  rw [execPortAttachPolicy, State.commandDefined_takes _ h, if_neg (by omega)]

end

end Sys2Proof.Machine
end

section
/-! PROOFS. The frame of the lanes, presence, and the port commands. -/

open Sys2Proof Sys2Proof.Machine

/-- Settles O9: each of the five tables names every row that may write its block, so outside it exec_keeps gives the block of every
die back. -/
theorem laneFrame : Obligations.LaneFrame := by
  unfold Obligations.LaneFrame
  intro c s t ht
  have hkept : ∀ b : Blk, b.writtenBy c = false → t.blk b = s.blk b := fun b hb => exec_keeps c s hb t ht
  refine ⟨fun hslices => ?_, fun htxs => ?_, fun hports => ?_, fun hcourses => ?_, fun hpins => ?_⟩
  · exact State.slices_of_blk (hkept .slices hslices)
  · exact State.txs_of_blk (hkept .txs htxs)
  · exact State.ports_of_blk (hkept .ports hports)
  · exact State.courses_of_blk (hkept .courses hcourses)
  · exact State.pins_of_blk (hkept .pins hpins)

/-- Settles O25: a falling level gates its ports one after another (gateLine_fold), a segment's presence is one write to its port,
and a retry opens the port's sessions or, by singleStart_lat, the session of the failed position. -/
theorem presence : Obligations.Presence := by
  unfold Obligations.Presence
  refine ⟨fun s d c hup hlevel hraw hfor => ?_, fun s d c hup hlevel hraw hfor => ?_, fun s p h hup henabled hpres hseen => ?_,
    fun s p h hup henabled hpres hunseen => ?_, fun s p t₀ hup hstate hauto hretry hdue => ?_,
    fun s p t₀ hup hstate hkey hlat hsess hretry hdue => ?_⟩
  · refine Posts.of _ (execPrsAsserted_eq hup hlevel hraw hfor) ?_
    rw [State.prsLevel_course]
    exact ⟨rfl, hraw, State.setCourse_die_ports _ _ _ _ _⟩
  · refine Completes.of _ (execPrsDeasserted_eq hup hlevel hraw hfor) ⟨?_, fun n hn henabled hprs => ?_⟩
    · rw [Die.course, State.gateLine_fold_courses, ← Die.course, State.post_die_course, State.prsLevel_course]
    · exact State.gateLine_fold (fun m => coursePorts_lt c) hn _
        ((s.prsLevel_gates _ _ _ _ _ _ _).trans (State.gates_iff.mpr ⟨henabled, hprs⟩))
  · exact Completes.of _ (execSegmentPresent_eq hup henabled hpres hseen) (s.onPort_setPres p h true)
  · exact Completes.of _ (execSegmentAbsent_eq hup henabled hpres hunseen) (s.onPort_setPres p h false)
  · exact Completes.of _ (execTrainRetry_detected hup hdue hstate hauto hretry) (s.onPort_port_same p _)
  · exact Completes.of _ (execTrainRetry_rebuilding hup hdue hstate hkey hlat hsess hretry)
      (s.singleStart_lat _ _ _ (by rw [hlat]; decide))

/-- Settles O26: each command runs its row's body on the port that TARGET names (commandDefined_takes), and what it stages is in the
group of that port's course (commitAnswer_port). -/
theorem portCommands : Obligations.PortCommands := by
  unfold Obligations.PortCommands
  refine ⟨fun s u k p htakes hp hstate hrule => ?_, fun s u k p htakes hoff hrule => ?_, fun s u k p htakes hon => ?_,
    fun s u k p htakes hon => ?_, fun s u k p htakes hoff => ?_, fun s u k p htakes => ?_, fun s u k p htakes hattach => ?_⟩
  · exact Completes.of _ (execPortDefine_eq htakes hp hstate hrule) (u.commitAnswer_define k p)
  · exact Completes.of _ (execPortEnable_disabled htakes hoff hrule) (u.commitAnswer_ctl k 0x0102 p.course p.idx 1)
  · exact Answers.of u (execPortEnable_enabled htakes hon) rfl
  · exact Completes.of _ (execPortDisable_enabled htakes hon) (u.commitAnswer_ctl k 0x0103 p.course p.idx 0)
  · exact Answers.of u (execPortDisable_disabled htakes hoff) rfl
  · exact Answers.of u (execPortStatus_eq htakes) rfl
  · exact Completes.of _ (execPortAttachPolicy_eq htakes hattach) rfl
end

section
/-! SUPPORT. Signal detect, the CDR and the lock of a slice (R92 to R94, R97): what each row leaves in its slice, and that the ports,
the lattice and the gearbox, which hear of it, write no slice. -/

set_option Elab.async false

namespace Sys2Proof.Machine

/-! ### A slice read back -/

theorem State.slice_of_blk {s t : State} (h : t.blk .slices = s.blk .slices) (d : DieId) (n : Nat) :
    (t.die d).slice n = (s.die d).slice n := by
  rw [Die.slice, State.slices_of_blk h, ← Die.slice]

@[simp] theorem State.onSlice_slice (s : State) (d : DieId) (n : Nat) (f : Slice → Slice) :
    ((s.onSlice d n f).die d).slice n = f ((s.die d).slice n) := by
  unfold State.onSlice
  dsimp only
  split
  · exact s.setSlice_slice d n _
  · rw [State.slice_of_blk (State.postRx_blk _ _ _ _ _ (by simp)), s.setSlice_slice]

/-- An operation that leaves the slices' block alone, after a change of a slice, leaves that slice as it was changed. -/
theorem State.onSlice_slice_kept {s t : State} {d : DieId} {n : Nat} {f : Slice → Slice}
    (h : t.blk .slices = (s.onSlice d n f).blk .slices) : (t.die d).slice n = f ((s.die d).slice n) := by
  rw [State.slice_of_blk h, State.onSlice_slice]

/-- A slice that acquires afresh in a session forgets what it adapted to and ends its reacquisition (R86, R97). -/
theorem State.acquireAfresh_slice (s : State) (d : DieId) (n : Nat) : ((s.acquireAfresh d n).die d).slice n =
    { (s.die d).slice n with
      acquiring := true, converged := false, convRun := 0, updates := 0, limits := [], limited := [],
      reacq := false, reacqOn := false, reacqFree := false, capoLoss := false, afresh := false } := by
  have hslices : ((s.die d).committedRx n).slices = (s.die d).slices :=
    (congrArg Die.slices ((s.die d).committedRx_blk n (β := .slices) (by simp)) :)
  rw [State.acquireAfresh, State.onSlice_slice, State.die_onDie_same, Die.slice, hslices, ← Die.slice]

/-! ### Signal detect (R92) -/

/-- What SD_CHANGE may move of a slice, and its lock: signal detect, its count of strokes, the CDR, and the loss to be declared. -/
def Slice.detection (v : Slice) : Bool × Nat × Bool × Bool × Bool := (v.sd, v.sdStrokes, v.cdrLock, v.sdLost, v.locked)

/-- The detection of a slice after its signal detect has taken a level: a falling one drops the CDR, and is a loss to be declared. -/
def Slice.detectionAt (v : Slice) (level : Bool) : Bool × Nat × Bool × Bool × Bool :=
  if level then (true, 0, v.cdrLock, v.sdLost, v.locked) else (false, 0, false, true, v.locked)

theorem State.acquireAfresh_detection (s : State) (d : DieId) (n : Nat) :
    (((s.acquireAfresh d n).die d).slice n).detection = ((s.die d).slice n).detection := by
  rw [State.acquireAfresh_slice]
  rfl

theorem Die.sdLevel_rises {x : Die} {n mv : Nat} (hsd : (x.slice n).sd = false)
    (hmv : 4 * fld (x.act (oRx n 0x18)) 5 0 < mv) : x.sdLevel n mv = true := by
  simp [Die.sdLevel, hsd, hmv]

theorem Die.sdLevel_falls {x : Die} {n mv : Nat} (hsd : (x.slice n).sd = true)
    (hmv : mv < 4 * fld (x.act (oRx n 0x18)) 11 6) : x.sdLevel n mv = false := by
  simp [Die.sdLevel, hsd, hmv]

/-- An amplitude that does not lie beyond the threshold of the slice's level moves nothing (R92). -/
theorem Die.sdLevel_stays {x : Die} {n mv : Nat} (hmv : if (x.slice n).sd then 4 * fld (x.act (oRx n 0x18)) 11 6 ≤ mv
    else mv ≤ 4 * fld (x.act (oRx n 0x18)) 5 0) : x.sdLevel n mv = (x.slice n).sd := by
  cases hsd : (x.slice n).sd <;> simp only [hsd, Bool.false_eq_true, if_true, if_false] at hmv <;> simp [Die.sdLevel, hsd, hmv]

theorem execSdChange_between {s : State} {d : DieId} {n : SliceId} {mv : BitVec 16}
    (hmv : if ((s.die d).slice n.val).sd then 4 * fld ((s.die d).act (oRx n.val 0x18)) 11 6 ≤ mv.toNat
      else mv.toNat ≤ 4 * fld ((s.die d).act (oRx n.val 0x18)) 5 0) : execSdChange d n mv s = .next s := by
  unfold execSdChange
  extract_lets level
  rw [if_neg (by simp [level, Die.sdLevel_stays hmv])]

section
variable {s : State} {d : DieId} {n : SliceId} (hup : up s d = true)
include hup

/-- A level that differs from the slice's signal detect is taken, and posted last; acquiring afresh on a rising one moves nothing of
the detection. -/
theorem execSdChange_moves {mv : BitVec 16} (hrole : (s.die d).role n.val < 2) {level : Bool}
    (hlevel : (s.die d).sdLevel n.val mv.toNat = level) (hmoves : (((s.die d).slice n.val).sd != level) = true) :
    ∃ u : State, execSdChange d n mv s = .next (u.post d n.val 0x03 (b2n level)) ∧
      ((u.die d).slice n.val).detection = ((s.die d).slice n.val).detectionAt level := by
  obtain ⟨hpresent, hrun⟩ := up_iff.mp hup
  subst hlevel
  unfold execSdChange
  extract_lets level pos moved counted heard afresh
  rw [if_pos (by simp [hpresent, hrun, hrole, level, hmoves])]
  refine ⟨afresh, rfl, ?_⟩
  have hmoved : ((moved.die d).slice n.val).detection = ((s.die d).slice n.val).detectionAt level := by
    unfold moved
    rw [State.onSlice_slice]
    unfold Slice.detectionAt
    split <;> rfl
  have hcounted : counted.blk .slices = moved.blk .slices := by
    unfold counted
    split
    · rfl
    · exact State.count_blk _ _ _ _ (by simp)
  have hheard : heard.blk .slices = counted.blk .slices := by
    unfold heard
    split
    · rfl
    · exact State.onPort_blk _ _ _ (by simp)
  have hafresh : ((afresh.die d).slice n.val).detection = ((heard.die d).slice n.val).detection := by
    unfold afresh
    split
    · exact heard.acquireAfresh_detection d n.val
    · rfl
  rw [hafresh, State.slice_of_blk (hheard.trans hcounted), hmoved]

/-! ### The CDR and the lock (R93, R94, R97) -/

theorem execCdrLocked_eq {freq : Half} (hrole : (s.die d).role n.val < 2) (hsd : ((s.die d).slice n.val).sd = true)
    (hcdr : ((s.die d).slice n.val).cdrLock = false)
    (hreacq : ((s.die d).slice n.val).reacq = true → ((s.die d).slice n.val).reacqOn = true) :
    execCdrLocked d n freq s = .next (s.onSlice d n.val fun v =>
      { v with cdrLock := true, freq := satFreq freq, capoLoss := v.capoLoss && !v.reacqOn,
               acquiring := v.acquiring && !(v.reacqOn && v.reacqRec && !v.reacqFree) }) := by
  obtain ⟨hpresent, hrun⟩ := up_iff.mp hup
  have hmay : (!((s.die d).slice n.val).reacq || ((s.die d).slice n.val).reacqOn) = true := by
    cases hr : ((s.die d).slice n.val).reacq
    · rfl
    · rw [hreacq hr]
      rfl
  unfold execCdrLocked
  dsimp only
  rw [if_pos (by simp [hpresent, hrun, hrole, hsd, hcdr, hmay])]

/-! ### The loss and the return of LOCKED (R93, R94, R97) -/

theorem execLockLost_sympathetic {reason : Fin 3} (hrole : (s.die d).role n.val = 1)
    (hlost : (if reason = 0 then ((s.die d).slice n.val).sdLost else ((s.die d).slice n.val).locked) = true) :
    execLockLost d n reason s = .next (s.onSlice d n.val fun v =>
      { v with locked := false, converged := false, convRun := 0, acquiring := true, good := false, sdLost := false,
               cdrLock := v.cdrLock && reason.val != 1 }) := by
  obtain ⟨hpresent, hrun⟩ := up_iff.mp hup
  unfold execLockLost
  extract_lets x v
  rw [if_pos (by rw [hpresent, hrun, hlost]; rfl), if_pos hrole]

end

/-- A declaration of loss has cleared the lock of a slice, in a session or outside one (R93). -/
def Slice.lockGone (v : Slice) : Prop := v.locked = false ∧ v.converged = false ∧ v.sdLost = false

theorem Slice.lose_lockGone (v : Slice) (sess : Bool) : (v.lose sess).lockGone := by
  cases sess <;> exact ⟨rfl, rfl, rfl⟩

/-- What a session does with a slice that was lost in it sets no lock again. -/
theorem State.lostInSession_lockGone {s : State} {d : DieId} {n : Nat} (h : ((s.die d).slice n).lockGone) :
    (((s.lostInSession d n).die d).slice n).lockGone := by
  obtain ⟨hlocked, hconverged, hlost⟩ := h
  unfold State.lostInSession
  split
  · rw [State.acquireAfresh_slice]
    exact ⟨hlocked, rfl, hlost⟩
  · rw [State.onSlice_slice]
    exact ⟨hlocked, hconverged, hlost⟩

section
variable {s : State} {d : DieId} {n : SliceId} (hup : up s d = true)
include hup

/-- A live slice loses its lock: outside a session it takes the LOSS source and starts to reacquire, in one it acquires afresh; what its
port and its lattice make of that touches no slice. -/
theorem execLockLost_live {reason : Fin 3} (hrole : (s.die d).role n.val = 0)
    (hlost : (if reason = 0 then ((s.die d).slice n.val).sdLost else ((s.die d).slice n.val).locked) = true) :
    ∃ t : State, execLockLost d n reason s = .next t ∧ ((t.die d).slice n.val).lockGone ∧
      ((s.die d).inSession n.val = false → ((t.die d).slice n.val).capoLoss = true ∧ ((t.die d).slice n.val).reacq = true) := by
  obtain ⟨hpresent, hrun⟩ := up_iff.mp hup
  unfold execLockLost
  extract_lets x v sess cleared begun posted phased
  rw [if_pos (by rw [hpresent, hrun, hlost]; rfl), if_neg (by rw [hrole]; decide), if_pos hrole]
  refine ⟨_, rfl, ?_⟩
  have hcleared : (cleared.die d).slice n.val =
      { v.lose sess with cdrLock := (v.lose sess).cdrLock && reason.val != 1 } := s.onSlice_slice d n.val _
  have hgone : ((cleared.die d).slice n.val).lockGone := by
    rw [hcleared]
    exact v.lose_lockGone sess
  have hphased : phased.blk .slices = begun.blk .slices := calc
    phased.blk .slices = posted.blk .slices := posted.slicePhase_blk d n.val (by simp)
    _ = (begun.count d (cRx n.val)).blk .slices := State.postRx_blk _ _ _ _ _ (by simp)
    _ = begun.blk .slices := State.count_blk _ _ _ _ (by simp)
  cases hsess : sess with
  | true =>
    refine ⟨?_, fun hout => absurd (hsess.symm.trans hout) (by decide)⟩
    rw [if_pos rfl, State.slice_of_blk hphased]
    unfold begun
    rw [if_pos hsess]
    exact State.lostInSession_lockGone hgone
  | false =>
    have hslice : ((phased.laneLost d n.val).die d).slice n.val = (cleared.die d).slice n.val := by
      rw [State.slice_of_blk ((phased.laneLost_blk d n.val (by simp)).trans hphased)]
      unfold begun
      rw [hsess, if_neg (by decide)]
    rw [if_neg (by decide), hslice]
    refine ⟨hgone, fun _ => ?_⟩
    rw [hcleared, hsess]
    exact ⟨rfl, rfl⟩

end

/-- The slice is LOCKED, and that is posted (R94). -/
def State.lockTaken (s : State) (d : DieId) (n : Nat) : State :=
  (s.onSlice d n fun v => { v with locked := true }).postRx d n 0x01 ((s.die d).rxPin n + 256 * ((s.die d).slice n).snrNow)

theorem State.lockTaken_blk_slices (s : State) (d : DieId) (n : Nat) :
    (s.lockTaken d n).blk .slices = (s.onSlice d n fun v => { v with locked := true }).blk .slices :=
  State.postRx_blk _ _ _ _ _ (by simp)

section
variable {s : State} {d : DieId} {n : SliceId} (hup : up s d = true) (hgood : ((s.die d).slice n.val).good = true)
  (hlocked : ((s.die d).slice n.val).locked = false)
include hup hgood hlocked

theorem execLockAcquired_eq (hrole : (s.die d).role n.val < 2) : execLockAcquired d n s =
    .next (if (s.die d).role n.val = 0 then ((s.lockTaken d n.val).laneBack d n.val).latAutoArm d (sliceCourse n.val)
      else s.lockTaken d n.val) := by
  obtain ⟨hpresent, hrun⟩ := up_iff.mp hup
  unfold execLockAcquired
  extract_lets x v
  rw [if_pos (by simp [hpresent, hrun, x, v, hrole, hgood, hlocked])]
  rfl

/-- What the port and the lattice of a live slice make of its lock touches no slice. -/
theorem execLockAcquired_slice (hrole : (s.die d).role n.val < 2) :
    ∃ t : State, execLockAcquired d n s = .next t ∧ (t.die d).slice n.val = { (s.die d).slice n.val with locked := true } := by
  refine ⟨_, execLockAcquired_eq hup hgood hlocked hrole, State.onSlice_slice_kept (f := fun v => { v with locked := true }) ?_⟩
  split
  · exact (State.latAutoArm_blk _ _ _ (by simp)).trans ((State.laneBack_blk _ _ _ (by simp)).trans (s.lockTaken_blk_slices d n.val))
  · exact s.lockTaken_blk_slices d n.val

end

end Sys2Proof.Machine
end

section
/-! PROOFS. Signal detect, the CDR and the lock of the slices. -/

open Sys2Proof Sys2Proof.Machine

/-- Settles O23: execSdChange_moves gives what a level leaves of its slice; a loss and a return of lock are those of the slice's role, and
what its port and lattice make of them touches no slice. -/
theorem sliceDetection : Obligations.SliceDetection := by
  unfold Obligations.SliceDetection
  refine ⟨fun s d n mv hup hrole hsd hmv => ?_, fun s d n mv hup hrole hsd hmv => ?_, fun s d n mv hmv => ?_,
    fun s d n freq hup hrole hsd hcdr hreacq => ?_, fun s d n reason hup hlost hrole => ?_,
    fun s d n hup hrole hgood hlocked => ?_, fun s d n hup hrole hgood hlocked => ?_⟩
  · obtain ⟨u, heq, hslice⟩ := execSdChange_moves (mv := mv) hup hrole (level := true) (Die.sdLevel_rises hsd hmv) (by rw [hsd]; rfl)
    simp only [Slice.detection, Slice.detectionAt, if_true, Prod.mk.injEq] at hslice
    obtain ⟨hon, hstrokes, hcdr, -, hlocked⟩ := hslice
    exact Posts.of u heq ⟨hon, hstrokes, hcdr, hlocked⟩
  · obtain ⟨u, heq, hslice⟩ := execSdChange_moves (mv := mv) hup hrole (level := false) (Die.sdLevel_falls hsd hmv) (by rw [hsd]; rfl)
    simp only [Slice.detection, Slice.detectionAt, Bool.false_eq_true, if_false, Prod.mk.injEq] at hslice
    exact Posts.of u heq hslice
  · exact Completes.of s (execSdChange_between hmv) rfl
  · refine Completes.of _ (execCdrLocked_eq hup hrole hsd hcdr hreacq) ?_
    rw [State.onSlice_slice]
    refine ⟨rfl, rfl, fun hon => ?_⟩
    dsimp only
    rw [hon]
    exact Bool.and_false _
  · obtain hlive | hsymp : (s.die d).role n.val = 0 ∨ (s.die d).role n.val = 1 := by omega
    · obtain ⟨t, heq, ⟨hlocked, hconverged, hsdLost⟩, hloss⟩ := execLockLost_live hup hlive hlost
      exact Completes.of t heq ⟨hlocked, hconverged, hsdLost, fun _ hout => hloss hout⟩
    · refine Completes.of _ (execLockLost_sympathetic hup hsymp hlost) ?_
      rw [State.onSlice_slice]
      exact ⟨rfl, rfl, rfl, fun hlive => absurd (hsymp.symm.trans hlive) (by decide)⟩
  · obtain ⟨t, heq, hslice⟩ := execLockAcquired_slice hup hgood hlocked hrole
    exact Completes.of t heq hslice
  · have heq := execLockAcquired_eq hup hgood hlocked (by rw [hrole]; decide)
    rw [if_neg (by rw [hrole]; decide)] at heq
    exact Posts.of _ heq (s.onSlice_slice d n.val _)
end

section
/-! SUPPORT. Reacquiring a lane (R96 to R98), and the substitution of its slice by the free sympathetic one (R445). -/

set_option Elab.async false

namespace Sys2Proof.Machine

/-! ### The start of a reacquisition (R97 step 2) -/

theorem sliceCourse_lt (n : SliceId) : sliceCourse n.val < 8 := by
  have hn := n.isLt
  unfold sliceCourse
  split <;> omega

/-- The tuning fret of a slice's side is one of the first sixteen after fret 0 (R24). -/
theorem tuningFretOf_slice_le (n : SliceId) : tuningFretOf (sliceCourse n.val) (sliceSide n.val) ≤ 16 :=
  tuningFretOf_le ⟨_, sliceCourse_lt n⟩ _

/-- A record puts H1, H2 and the frequency into a slice, and its own record the corrections of its sub-ADCs (R96). -/
theorem Die.loadRecord_slice (x : Die) (n : Nat) : ∃ h₁ h₂ f,
    (x.loadRecord n).slice n = { x.slice n with h1 := h₁, h2 := h₂, freq := f, corr := (x.slice n).stored } := by
  unfold Die.loadRecord
  extract_lets v r
  split
  · exact ⟨r.h1, r.h2, r.freq, Die.slice_setSlice_same _ _ _⟩
  · exact ⟨v.h1, v.h2, v.freq, Die.slice_setSlice_same _ _ _⟩

theorem Die.loadRecord_stroke (x : Die) (n : Nat) : (x.loadRecord n).stroke = x.stroke :=
  (congrArg Die.stroke (x.loadRecord_blk n (β := .stroke) (by simp)) :)

/-- The state in slice n's tuning fret, what a reacquisition starts from loaded into the slice. -/
def State.reacqLoaded (s : State) (d : DieId) (n : SliceId) : State :=
  (s.toFret (tuningFretOf (sliceCourse n.val) (sliceSide n.val))).onDie d fun x => x.loadRecord n.val

section
variable (s : State) (d : DieId) (n : SliceId)

theorem State.reacqLoaded_stroke : (s.reacqLoaded d n).stroke d = s.stroke d := by
  have hfret := tuningFretOf_slice_le n
  obtain ⟨t, ht⟩ := s.advance_early (p := 40 * tuningFretOf (sliceCourse n.val) (sliceSide n.val)) (by omega) d
  rw [State.stroke, State.reacqLoaded, State.die_onDie_same, Die.loadRecord_stroke, State.toFret, ht]
  rfl

theorem State.reacqLoaded_slice : ∃ h₁ h₂ f, ((s.reacqLoaded d n).die d).slice n.val =
    { (s.die d).slice n.val with h1 := h₁, h2 := h₂, freq := f, corr := ((s.die d).slice n.val).stored } := by
  have hfret := tuningFretOf_slice_le n
  obtain ⟨t, ht⟩ := s.advance_early (p := 40 * tuningFretOf (sliceCourse n.val) (sliceSide n.val)) (by omega) d
  rw [State.reacqLoaded, State.die_onDie_same, State.toFret, ht]
  exact Die.loadRecord_slice _ n.val

end

section
variable {s : State} {d : DieId} {n : SliceId} (hup : up s d = true)
include hup

theorem execReacqStart_eq (hrole : (s.die d).role n.val = 0) (hreacq : ((s.die d).slice n.val).reacq = true)
    (hsd : ((s.die d).slice n.val).sd = true) (hoff : ((s.die d).slice n.val).reacqOn = false)
    (hsess : (s.die d).inSession n.val = false)
    (hpos : s.pos < 40 * (tuningFretOf (sliceCourse n.val) (sliceSide n.val) + 1)) :
    execReacqStart d n s = .next ((s.reacqLoaded d n).onSlice d n.val fun v =>
      { v with reacqOn := true, cdrLock := false, reacqRec := (s.die d).recordValid n.val,
               acquiring := !(s.die d).recordValid n.val || v.reacqFree, reacqFrom := s.stroke d, updates := 0 }) := by
  obtain ⟨hpresent, hrun⟩ := up_iff.mp hup
  unfold execReacqStart
  extract_lets x v f fret ok loaded now
  have hnow : now = s.stroke d := s.reacqLoaded_stroke d n
  rw [if_pos (by simp [hpresent, hrun, x, v, f, hrole, hreacq, hsd, hoff, hsess, hpos]), hnow]
  rfl

/-! ### The end of a reacquisition, and of its window (R97 step 4, R98) -/

theorem execReacqDone_eq (hreacq : ((s.die d).slice n.val).reacq = true) (hon : ((s.die d).slice n.val).reacqOn = true)
    (hlocked : ((s.die d).slice n.val).locked = true) :
    execReacqDone d n s = .next (((s.setSlice d n.val { (s.die d).slice n.val with
        reacq := false, reacqOn := false, reacqFree := false }).count d (cRx n.val + 8)).post d n.val 0x07
      (sat16 (s.stroke d - ((s.die d).slice n.val).reacqFrom) + 65536 * b2n ((s.die d).slice n.val).reacqRec)) := by
  obtain ⟨hpresent, hrun⟩ := up_iff.mp hup
  have hslice := State.onSlice_eq (s := s) (d := d) (n := n.val)
    (f := fun v => { v with reacq := false, reacqOn := false, reacqFree := false }) rfl
  unfold execReacqDone
  dsimp only
  rw [if_pos (by simp [hpresent, hrun, hreacq, hon, hlocked]), hslice, State.postRx]
  simp

/-- The slice after its window has expired: it waits for its next tuning fret, with MU_ACQ and without a time limit (R98). -/
def Slice.windowOver (v : Slice) (now : Nat) : Slice :=
  { v with reacqFree := true, reacqOn := false, cdrLock := false, good := false, acquiring := true, converged := false,
           convRun := 0, reacqFrom := now, updates := 0 }

theorem execReacqFailed_eq (hreacq : ((s.die d).slice n.val).reacq = true) (hon : ((s.die d).slice n.val).reacqOn = true)
    (hlocked : ((s.die d).slice n.val).locked = false) (hfree : ((s.die d).slice n.val).reacqFree = false)
    (hwin : 0 < fld ((s.die d).act (oRx n.val 0x24)) 9 0)
    (hover : ((s.die d).slice n.val).reacqFrom + fld ((s.die d).act (oRx n.val 0x24)) 9 0 ≤ s.stroke d) :
    execReacqFailed d n s = .next (((s.setSlice d n.val (((s.die d).slice n.val).windowOver (s.stroke d))).count d
      (cRx n.val + 0xC)).post d n.val 0x08 (fld ((s.die d).act (oRx n.val 0x24)) 9 0)) := by
  obtain ⟨hpresent, hrun⟩ := up_iff.mp hup
  have hslice := State.onSlice_eq (s := s) (d := d) (n := n.val) (f := fun v => v.windowOver (s.stroke d)) rfl
  unfold execReacqFailed
  dsimp only
  rw [if_pos (by simp [hpresent, hrun, hreacq, hon, hlocked, hfree, hwin, hover])]
  exact congrArg (fun t : State => Host.Outcome.next ((t.count d (cRx n.val + 0xC)).post d n.val 0x08 _)) hslice

end

/-! ### One side of a course -/

@[simp] theorem Course.side_setSide (v : Course) (h : Side) (r : SideRot) : (v.setSide h r).side h = r := by
  cases h <;> rfl

@[simp] theorem State.setSide_rot (s : State) (d : DieId) (c : Nat) (h : Side) (r : SideRot) :
    ((s.setSide d c h r).die d).rot c h = r := by
  simp [State.setSide, State.setCourse, Die.rot]

theorem State.onSide_rot (s : State) (d : DieId) (c : Nat) (h : Side) (f : SideRot → SideRot) :
    ((s.onSide d c h f).die d).rot c h = f ((s.die d).rot c h) :=
  s.setSide_rot d c h _

theorem State.rot_of_blk {s t : State} (h : t.blk .courses = s.blk .courses) (d : DieId) (c : Nat) (side : Side) :
    (t.die d).rot c side = (s.die d).rot c side := by
  rw [Die.rot, Die.course, State.courses_of_blk h, ← Die.course, ← Die.rot]

theorem State.bist_of_blk {s t : State} (h : t.blk .bist = s.blk .bist) (d : DieId) : (t.die d).bist = (s.die d).bist :=
  (congrArg Die.bist (State.die_of_blk h d) :)

/-! ### Substitution (R445) -/

theorem execSliceSubstitution_eq {s : State} {d : DieId} {n : SliceId} {j : Nat} (hup : up s d = true)
    (hpos : (s.die d).posOf n.val = some j) (hrole : (s.die d).role n.val = 0) (hreacq : ((s.die d).slice n.val).reacq = true)
    (hfree : ((s.die d).slice n.val).reacqFree = true) (hoff : ((s.die d).slice n.val).reacqOn = false)
    (hlocked : ((s.die d).slice n.val).locked = false) (hfrom : ((s.die d).slice n.val).reacqFrom = s.stroke d)
    (hsymp : ((s.die d).sympDenied (sliceCourse n.val) (sliceSide n.val) false).isNone = true) :
    execSliceSubstitution d n s = .next ((s.attachNext d (sliceCourse n.val) (sliceSide n.val) j false
      ((s.die d).sliceRh n.val) 2 0 true).onSide d (sliceCourse n.val) (sliceSide n.val) fun r => { r with subst := true }) := by
  obtain ⟨hpresent, hrun⟩ := up_iff.mp hup
  unfold execSliceSubstitution
  dsimp only
  rw [hpos]
  dsimp only
  rw [if_pos (by simp [hpresent, hrun, hrole, hreacq, hfree, hoff, hlocked, hfrom, hsymp])]

theorem execSliceSubstituted_eq {s : State} {d : DieId} {c : CourseId} {side : Side} (hup : up s d = true)
    (hsubst : ((s.die d).rot c.val side).subst = true) (hattached : ((s.die d).rot c.val side).attached = true)
    (hsymp : ((s.die d).slice ((s.die d).sympSlice c.val side)).locked = true)
    (hfailing : ((s.die d).slice ((s.die d).serving c.val side ((s.die d).rot c.val side).pos)).locked = false)
    (hopen : (s.die d).substOpen c.val side (s.stroke d) = true) :
    execSliceSubstituted d c side s = .next (s.onSide d c.val side fun r => { r with substNow := true }) := by
  obtain ⟨hpresent, hrun⟩ := up_iff.mp hup
  unfold execSliceSubstituted
  dsimp only
  rw [if_pos (by simp [hpresent, hrun, hsubst, hattached, hsymp, hfailing, hopen])]

/-- A boundary at which the substitute is LOCKED on a port's pin, and the failing slice is not, moves the pin (R445 steps 2 to 5). -/
theorem State.substAt_moves {s : State} {d : DieId} {c : Nat} {side : Side} (hsubst : ((s.die d).rot c side).subst = true)
    (hnow : ((s.die d).rot c side).substNow = true) (hattached : ((s.die d).rot c side).attached = true)
    (hpin : (s.die d).tapDead c side ((s.die d).rot c side).pos false = false)
    (hsymp : ((s.die d).slice ((s.die d).sympSlice c side)).locked = true)
    (hfailing : ((s.die d).slice ((s.die d).serving c side ((s.die d).rot c side).pos)).locked = false) :
    s.substAt d c side = s.substitute d c side := by
  simp [State.substAt, hsubst, hnow, hattached, hpin, hsymp, hfailing]

/-- A side after a substitution: the pin is the substitute's, the former slice is the sympathetic one, and it is parked (R135, R445). -/
def SideRot.substituted (r : SideRot) (old : Nat) : SideRot :=
  { r with
    map := r.map.set r.pos r.symp, symp := sliceIndex old, gen := (r.gen + 1) % 256, state := 0, tap := false, pos := 0,
    mode := false, aligned := false, owner := 0, d := 0, want := 0, phase := 0, subst := false, substNow := false, cfgHit := false }

section
variable (s : State) (d : DieId) (c : Nat) (side : Side)

theorem State.startAuto_tests (t : Test) : ((s.startAuto d t).die d).bist.tests.length = (s.die d).bist.tests.length + 1 := by
  simp [State.startAuto]

theorem State.substitute_rot : ((s.substitute d c side).die d).rot c side =
    ((s.die d).rot c side).substituted ((s.die d).serving c side ((s.die d).rot c side).pos) := by
  unfold State.substitute
  extract_lets x r new old moved parked posted
  have hkept : ((posted.laneBack d new).startAuto d (autoTest d (0xFFD0 + sideObj c side) 1 old)).blk .courses = moved.blk .courses := calc
    _ = (posted.laneBack d new).blk .courses := State.startAuto_blk _ _ _ (by simp)
    _ = posted.blk .courses := State.laneBack_blk _ _ _ (by simp)
    _ = parked.blk .courses := State.postCourse_blk _ _ _ _ _ (by simp)
    _ = moved.blk .courses := State.parkSlice_blk _ _ _ (by simp)
  rw [State.rot_of_blk hkept]
  exact s.onSide_rot d c side fun r => r.substituted old

/-- The former slice is tested, by one test more (R445 step 5). -/
theorem State.substitute_tests :
    ((s.substitute d c side).die d).bist.tests.length = (s.die d).bist.tests.length + 1 := by
  unfold State.substitute
  extract_lets x r new old moved parked posted
  have hkept : (posted.laneBack d new).blk .bist = s.blk .bist := calc
    _ = posted.blk .bist := State.laneBack_blk _ _ _ (by simp)
    _ = parked.blk .bist := State.postCourse_blk _ _ _ _ _ (by simp)
    _ = moved.blk .bist := State.parkSlice_blk _ _ _ (by simp)
    _ = s.blk .bist := State.onSide_blk _ _ _ _ _ (by simp)
  rw [State.startAuto_tests, State.bist_of_blk hkept]

end

end Sys2Proof.Machine
end

section
/-! PROOFS. Reacquisition and substitution. -/

open Sys2Proof Sys2Proof.Machine

/-- Settles O24: REACQ_START changes its slice in the state that reacqLoaded gives, its end and its failure one slice, and a
substitution one side of the course, up to the boundary, whose move is substitute_rot and substitute_tests. -/
theorem reacquisition : Obligations.Reacquisition := by
  unfold Obligations.Reacquisition
  refine ⟨fun s d n hup hrole hreacq hsd hoff hsess hpos => ?_, fun s d n hup hreacq hon hlocked => ?_,
    fun s d n hup hreacq hon hlocked hfree hwin hover => ?_,
    fun s d n j hup hpos hrole hreacq hfree hoff hlocked hfrom hsymp => ?_,
    fun s d c side hup hsubst hattached hsymp hfailing hopen => ?_,
    fun s d c side hsubst hnow hattached hpin hsymp hfailing => ?_⟩
  · obtain ⟨h₁, h₂, f, hslice⟩ := s.reacqLoaded_slice d n
    refine Completes.of _ (execReacqStart_eq hup hrole hreacq hsd hoff hsess hpos) ?_
    rw [State.onSlice_slice, hslice]
    refine ⟨rfl, ?_, rfl, rfl, rfl, rfl, rfl⟩
    have hfret := s.toFret_pos (up_iff.mp hup).2 ((tuningFretOf_slice_le n).trans (by decide))
    exact (State.pos_of_blk (State.onSlice_blk _ _ _ _ (by simp))).trans hfret
  · refine Posts.of _ (execReacqDone_eq hup hreacq hon hlocked) ?_
    simp [State.count]
  · refine Posts.of _ (execReacqFailed_eq hup hreacq hon hlocked hfree hwin hover) ?_
    rw [State.slice_of_blk (State.count_blk _ _ _ _ (by simp)), State.setSlice_slice]
    exact ⟨rfl, rfl, rfl, rfl, rfl⟩
  · refine Completes.of _ (execSliceSubstitution_eq hup hpos hrole hreacq hfree hoff hlocked hfrom hsymp) ?_
    have hstroke := State.stroke_of_blk (s := s) (t := (s.attachNext d (sliceCourse n.val) (sliceSide n.val) j false
      ((s.die d).sliceRh n.val) 2 0 true).onSide d (sliceCourse n.val) (sliceSide n.val) fun r => { r with subst := true }) (by simp) d
    rw [State.onSide_rot, State.attachNext, State.setSide_rot]
    exact ⟨rfl, rfl, rfl, rfl, congrArg StrokeBlk.count hstroke⟩
  · exact Completes.of _ (execSliceSubstituted_eq hup hsubst hattached hsymp hfailing hopen) rfl
  · rw [State.substAt_moves hsubst hnow hattached hpin hsymp hfailing, State.substitute_rot]
    exact ⟨rfl, rfl, rfl, rfl, s.substitute_tests d c.val side⟩
end

section
/-! SUPPORT. A state on which the statement about the slice commands fails. -/

set_option Elab.async false

namespace Sys2Proof.Machine

/-- A running package whose rotation map names index 200 for host position 0 of course 0. No row puts such an index into a map, but
LaneCommands speaks of every state. -/
def State.mapAstray : State :=
  ({ State.reset with phase := 2 } : State).onDie 0 fun x =>
    ({ x with peg := { x.peg with state := 1 } }).setCourse 0 { x.course 0 with host := { (x.course 0).host with map := [200] } }

/-- LANE_EQ_SET of the CTLE of the slice that serves that position. -/
def Packet.ctleAstray : Packet :=
  { origin := 0, queue := 0, tag := 7, length := 7, die := 0, fence := false, noprog := false, irq := false,
    target := 0x40000000, cookie := 0, words := [1, 0, 0] }

/-- Slice 200 has no registers: its CTLE would lie among those of the transmitters, where no register is. -/
theorem lookup_ctleAstray : lookup (oRx 200 0x08) = none := by decide

end Sys2Proof.Machine
end

section
/-! PROOFS. The slice and transmitter commands. -/

open Sys2Proof Sys2Proof.Machine

/-- Refutes O27: where a rotation map names a slice that the die does not have, LANE_EQ_SET of that position is taken up, and the
register it would stage is not in the map. -/
theorem not_laneCommands : ¬ Obligations.LaneCommands := by
  unfold Obligations.LaneCommands
  rintro ⟨hset, -⟩
  obtain ⟨t, -, hstaged, -⟩ := hset State.mapAstray (State.mapAstray.takeInbox Packet.ctleAstray 0x0201) Packet.ctleAstray 200
    (by decide) (by decide) (by decide) (by decide) (by decide) (by decide) (by decide) (Or.inl (by decide)) (by decide)
  obtain ⟨sel, hsel, -⟩ := hstaged (oRx 200 0x08, 0) (by decide)
  exact absurd (lookup_ctleAstray.symm.trans hsel) (by simp)
end

section
/-! SUPPORT. The PRBS check of a slice (R125 to R127): its command, the operation it is, and the rows that move and end it. -/

set_option Elab.async false

namespace Sys2Proof.Machine

/-- The check of a slice is one of its die's long operations. -/
theorem Die.check?_mem {x : Die} {n : Nat} {o : Op} (h : x.check? n = some o) : o ∈ x.peg.ops :=
  List.mem_of_find?_eq_some h

/-- An operation of the die is brought to what the update of just that operation makes of it. -/
theorem Die.mapOps_mem {x : Die} {o : Op} (h : o ∈ x.peg.ops) (g : Op → Op) : g o ∈ (x.mapOps (fun z => z == o) g).peg.ops :=
  List.mem_map.mpr ⟨o, h, if_pos (beq_self_eq_true o)⟩

/-- While its pegbox runs, a check of a slice ends with its final record alone: there is no sympathetic slice to give back. -/
theorem State.endCheck_slice {s : State} {d : DieId} {o : Op} (status : Nat) (data : List Nat) (htap : o.byTap = false)
    (hruns : (s.die d).pegRuns = true) : s.endCheck d o status data = s.endOp d o status 3 data := by
  rw [State.endCheck, htap, if_neg Bool.false_ne_true, State.conclude, if_pos hruns]

/-! ### The rows -/

theorem execPrbsCheck_slice {s u : State} {k : Packet} {n : Nat} (htakes : takes s u k 0x0503 = true)
    (hform : k.target.toNat / 2 ^ 30 ≠ 3) (hslice : (u.die k.die).targetSlice k.target.toNat = some n) (hpattern : k.w 4 < 4)
    (hsome : 0 < k.w 5) (hlong : k.w 5 < 2 ^ 24) (htest : (u.die k.die).sliceTest n = none)
    (hparked : (u.die k.die).parked n = false) (hchecking : (u.die k.die).checking n = false) :
    execPrbsCheck k s = .next (u.accept k 0x0503 1 n [0]) := by
  obtain ⟨hready, hu⟩ := takes_iff.mp htakes
  have hgood : (decide (4 ≤ k.w 4) || decide (k.w 5 = 0) || decide (2 ^ 24 ≤ k.w 5)) = false := by
    simp only [Bool.or_eq_false_iff, decide_eq_false_iff_not]
    omega
  rw [execPrbsCheck, State.command_ready _ hready, ← hu]
  dsimp only
  rw [if_neg hform, hslice]
  dsimp only
  rw [hgood, if_neg Bool.false_ne_true, htest]
  dsimp only
  rw [hparked, if_neg Bool.false_ne_true, hchecking, if_neg Bool.false_ne_true]

section
variable {s : State} {d : DieId} {n : SliceId} {o : Op} (hrun : s.running = true) (hcheck : (s.die d).check? n.val = some o)
include hrun hcheck

theorem execPrbsCheckLock_eq (hphase : o.phase = 0) (hparked : (s.die d).parked n.val = false)
    (hearly : s.stroke d < o.start + 1024) : execPrbsCheckLock d n s =
      .next (s.onDie d fun x => x.mapOps (fun z => z == o) fun z => { z with phase := 1, from_ := s.stroke d + 1 }) := by
  simp [execPrbsCheckLock, hcheck, hrun, hphase, hparked, hearly]

theorem execPrbsCheckRelock_eq (hphase : o.phase = 1) : execPrbsCheckRelock d n s =
    .next (s.onDie d fun x => x.mapOps (fun z => z == o) fun z => { z with data := [(z.data.head?).getD 0 + 1] }) := by
  simp [execPrbsCheckRelock, hcheck, hrun, hphase]

variable (htap : o.byTap = false) (hruns : (s.die d).pegRuns = true) (symbols bitErrs : BitVec 64) (symErrs : Word)
include htap hruns

theorem execPrbsCheckEnd_done (hphase : o.phase = 1) (hover : o.from_ + o.packet.w 5 ≤ s.stroke d) :
    execPrbsCheckEnd d n symbols bitErrs symErrs s = .next (s.endOp d { o with position := 1000 } stDone 3
      (checkData o ((s.die d).checkCompared o (o.packet.w 5) symbols.toNat) bitErrs.toNat symErrs.toNat)) := by
  unfold execPrbsCheckEnd
  simp only [hcheck]
  rw [if_neg (by simp [hrun]), if_pos (by simp [hphase, hover]), State.endCheck_slice _ _ (o := { o with position := 1000 }) htap hruns]

theorem execPrbsCheckEnd_timeout (hphase : o.phase = 0) (hlate : o.start + 1024 ≤ s.stroke d) :
    execPrbsCheckEnd d n symbols bitErrs symErrs s = .next (s.endOp d o stTimeout 3 (checkData o 0 0 0)) := by
  unfold execPrbsCheckEnd
  simp only [hcheck]
  rw [if_neg (by simp [hrun]), if_neg (by simp [hphase]), if_pos (by simp [hphase, hlate]), State.endCheck_slice _ _ htap hruns]

end

end Sys2Proof.Machine
end

section
/-! PROOFS. The PRBS check of a slice. -/

open Sys2Proof Sys2Proof.Machine

/-- Settles O28: the command is accept_enters, the lock and the relock update the one operation that the check is, and the check
ends as endOp ends it. -/
theorem patternChecks : Obligations.PatternChecks := by
  unfold Obligations.PatternChecks
  refine ⟨fun s u k n htakes hform hslice hpattern hsome hlong htest hparked hchecking hroom => ?_,
    fun s d n o hrun hcheck hphase hparked hearly => ?_, fun s d n o hrun hcheck hphase => ?_,
    fun s d n o symbols bitErrs symErrs hrun hcheck htap hphase hover hruns =>
      Completes.of _ (execPrbsCheckEnd_done hrun hcheck htap hruns symbols bitErrs symErrs hphase hover) rfl,
    fun s d n o symbols bitErrs symErrs hrun hcheck htap hphase hlate hruns =>
      Completes.of _ (execPrbsCheckEnd_timeout hrun hcheck htap hruns symbols bitErrs symErrs hphase hlate) rfl⟩
  · obtain ⟨hentered, -⟩ := u.accept_enters k 0x0503 1 n [0] hroom
    refine Completes.of _ (execPrbsCheck_slice htakes hform hslice hpattern hsome hlong htest hparked hchecking) ⟨hentered, ?_⟩
    exact State.slices_of_blk (u.accept_blk k 0x0503 1 n [0] (by simp)) k.die
  · refine Completes.of _ (execPrbsCheckLock_eq hrun hcheck hphase hparked hearly) ?_
    rw [State.die_onDie_same]
    exact Die.mapOps_mem (Die.check?_mem hcheck) fun z => { z with phase := 1, from_ := s.stroke d + 1 }
  · refine Completes.of _ (execPrbsCheckRelock_eq hrun hcheck hphase) ?_
    rw [State.die_onDie_same]
    exact Die.mapOps_mem (Die.check?_mem hcheck) fun z => { z with data := [(z.data.head?).getD 0 + 1] }
end

section
/-! SUPPORT. SYMP_DETACH of a slice that a PRBS check uses (R149), and a state in which a command has attached that slice. -/

set_option Elab.async false

namespace Sys2Proof.Machine

/-- SYMP_DETACH of a sympathetic slice under a PRBS check is turned away, whatever attached the slice (R149). -/
theorem execSympDetach_checking {s u : State} {k : Packet} {c : Nat} {h : Side} (htakes : takes s u k 0x0402 = true)
    (hside : sideTarget k.target.toNat = some (c, h)) (htest : (u.die k.die).sliceTest ((u.die k.die).sympSlice c h) = none)
    (hcheck : (u.die k.die).checking ((u.die k.die).sympSlice c h) = true) :
    execSympDetach k s = .next (u.refuse k 0x0402 stBusy) := by
  obtain ⟨hready, hu⟩ := takes_iff.mp htakes
  rw [execSympDetach, State.command_ready _ hready, ← hu]
  dsimp only
  rw [hside]
  dsimp only
  rw [htest]
  dsimp only
  rw [if_pos (by simp [hcheck])]

/-- A PRBS_CHECK of slice 8 of die 0, with tag 7. -/
def Packet.checkSymp : Packet :=
  { origin := 0, queue := 0, tag := 7, length := 6, die := 0, fence := false, noprog := false, irq := false,
    target := 8, cookie := 0, words := [0, 1000] }

/-- That check after its first lock. -/
def Op.checkSymp : Op :=
  { origin := 0, queue := 0, tag := 7, opcode := 0x0503, packet := Packet.checkSymp, cls := 1, obj := 8, phase := 1, position := 0,
    start := 0, lastProg := none, status := stAccepted, effect := 0, cancel := false, from_ := 1, data := [0] }

/-- A running package on whose die 0 a command has attached slice 8, the sympathetic one of the host side of course 0, and a PRBS
check of that slice is under way. -/
def State.checkedSymp : State :=
  ({ State.reset with phase := 2 } : State).onDie 0 fun x =>
    ({ x with peg := { x.peg with state := 1, ops := [Op.checkSymp] } }).setCourse 0
      { x.course 0 with host := { (x.course 0).host with state := 2, owner := 1 } }

/-- SYMP_DETACH of that side. -/
def Packet.detachSymp : Packet :=
  { origin := 0, queue := 0, tag := 8, length := 4, die := 0, fence := false, noprog := false, irq := false,
    target := 0, cookie := 0, words := [] }

end Sys2Proof.Machine
end

section
/-! PROOFS. The commands of the sympathetic receivers. -/

open Sys2Proof Sys2Proof.Machine

/-- Refutes O29: SYMP_DETACH of a slice that a command attached is answered BUSY while a PRBS check uses the slice (R149), and then
nothing orders the slice parked. -/
theorem not_rotationCommands : ¬ Obligations.RotationCommands := by
  unfold Obligations.RotationCommands
  rintro ⟨-, hdetach, -⟩
  let u := State.checkedSymp.takeInbox Packet.detachSymp 0x0402
  have htakes : takes State.checkedSymp u Packet.detachSymp 0x0402 = true := by decide
  have htest : (u.die 0).sliceTest ((u.die 0).sympSlice 0 .host) = none := by decide
  obtain ⟨t, hexec, hwant, -⟩ := hdetach State.checkedSymp u Packet.detachSymp 0 .host htakes (by decide) htest
    (by decide) (by decide) (by decide) (by decide)
  have hbusy : exec (.sympDetach Packet.detachSymp) State.checkedSymp = .next (u.refuse Packet.detachSymp 0x0402 stBusy) :=
    execSympDetach_checking htakes (by decide) htest (by decide)
  obtain rfl : t = u.refuse Packet.detachSymp 0x0402 stBusy := Host.Outcome.next.inj (hexec.symm.trans hbusy)
  rw [State.rot_of_blk (s := u) (State.refuse_blk _ _ _ _ _ (by simp))] at hwant
  exact absurd hwant (by decide)
end

section
/-! SUPPORT. A course side whose sympathetic slice parks, the refusal of a handover (R140), the memory a capture stores (R145), and the
banks of a course (R146). -/

set_option Elab.async false

namespace Sys2Proof.Machine

/-! ### Bytes written -/

/-- A byte among the ones written reads back. -/
theorem Memory.read_writeList_mem (l : List Byte) : ∀ (m : List Host.Cell) (a i : Nat), i < l.length →
    Memory.read (Memory.writeList m a l) (a + i) = (l[i]?).getD 0 := by
  induction l with
  | nil => intro m a i hi; exact absurd hi (Nat.not_lt_zero i)
  | cons v l ih =>
    intro m a i hi
    cases i with
    | zero =>
      rw [Memory.writeList, Memory.read_writeList_ne _ _ _ _ (Or.inl (by omega))]
      exact Memory.read_write_same m a v
    | succ i =>
      rw [Memory.writeList, show a + (i + 1) = a + 1 + i by omega, ih _ _ _ (Nat.lt_of_succ_lt_succ hi)]
      rfl

/-! ### A course read back -/

theorem State.course_of_blk {s t : State} (h : t.blk .courses = s.blk .courses) (d : DieId) (c : Nat) :
    (t.die d).course c = (s.die d).course c := by
  rw [Die.course, State.courses_of_blk h, ← Die.course]

theorem State.setCourse_course (s : State) (d : DieId) (c : Nat) (v : Course) : ((s.setCourse d c v).die d).course c = v := by
  rw [State.setCourse, State.die_onDie_same, Die.course_setCourse_same]

@[simp] theorem Course.half_setSide (v : Course) (h g : Side) (r : SideRot) : (v.setSide h r).half g = v.half g := by
  cases h <;> cases g <;> rfl

@[simp] theorem Course.half_setHalf (v : Course) (h : Side) (k : CapHalf) : (v.setHalf h k).half h = k := by
  cases h <;> rfl

@[simp] theorem Course.side_setHalf (v : Course) (h g : Side) (k : CapHalf) : (v.setHalf h k).side g = v.side g := by
  cases h <;> cases g <;> rfl

/-! ### The sympathetic slice parks (log entry 22) -/

/-- A side whose sympathetic slice has parked: the map and the last handover's figures stay. -/
def SideRot.parked (r : SideRot) : SideRot :=
  { r with
    state := 0, tap := false, pos := 0, mode := false, aligned := false, owner := 0, d := 0, want := 0, phase := 0,
    winLeft := 0, cfgHit := false, adapt := true, subst := false, substNow := false }

section
variable (s : State) (d : DieId) (c : Nat) (h : Side)

theorem State.detach_course (why : Nat) :
    ((s.detach d c h why).die d).course c = ((s.die d).course c).setSide h ((s.die d).rot c h).parked := by
  unfold State.detach
  extract_lets r n held moved
  have hmoved : (moved.die d).course c = ((s.die d).course c).setSide h ((s.die d).rot c h).parked := by
    have hheld : held.blk .courses = s.blk .courses := State.parkSlice_blk _ _ _ (by simp)
    rw [← State.course_of_blk hheld, ← State.rot_of_blk hheld]
    exact State.setCourse_course _ _ _ _
  split
  · rw [State.course_of_blk (State.postCourse_blk _ _ _ _ _ (by simp)), hmoved]
  · exact hmoved

theorem State.detach_rot (why : Nat) : ((s.detach d c h why).die d).rot c h = ((s.die d).rot c h).parked := by
  rw [Die.rot, State.detach_course, Course.side_setSide]

/-- A scan or capture that ends parks the slice of its side (R151 to R153). -/
theorem State.workEnd_course (o : Op) (why status effect : Nat) (data : List Nat) :
    ((s.workEnd d c h o why status effect data).die d).course c =
      ((s.die d).course c).setSide h ((s.die d).rot c h).parked := by
  rw [State.workEnd, State.course_of_blk (State.conclude_blk _ _ _ _ _ _ (by simp)), State.detach_course]

theorem State.workEnd_sram (o : Op) (why status effect : Nat) (data : List Nat) :
    ((s.workEnd d c h o why status effect data).die d).sram = (s.die d).sram :=
  State.sram_of_blk (State.workEnd_blk _ _ _ _ _ _ _ _ _ (by simp)) d

/-! ### Handovers (R137, R138, R140) -/

/-- A refused handover leaves its side parked, or wanted again by a retune that has attempts left (R140, R142). -/
theorem State.hoRefuse_rot (reason : Nat) : ∃ w p, ((s.hoRefuse d c h reason).die d).rot c h =
    { ((s.die d).rot c h).parked with want := w, phase := p } := by
  unfold State.hoRefuse
  extract_lets x r live uncapped parked counted posted
  have hposted : (posted.die d).rot c h = ((s.die d).rot c h).parked := by
    have hcounted : posted.blk .courses = parked.blk .courses :=
      (State.postCourse_blk _ _ _ _ _ (by simp)).trans (State.count_blk _ _ _ _ (by simp))
    have huncapped : uncapped.blk .courses = s.blk .courses := State.uncapHo_blk _ _ _ _ (by simp)
    rw [State.rot_of_blk hcounted, State.detach_rot, State.rot_of_blk huncapped]
  have hfail (live status : Nat) : ((posted.hoFail d c h r live reason status false).die d).rot c h =
      ((s.die d).rot c h).parked := by
    rw [State.rot_of_blk (State.hoFail_blk _ _ _ _ _ _ _ _ _ (by simp)), hposted]
  split
  · split
    · exact ⟨1, 1, by rw [State.onSide_rot, hposted]⟩
    · exact ⟨0, 0, hfail _ _⟩
  · exact ⟨0, 0, hfail _ _⟩

end

section
variable {s : State} {d : DieId} {c : CourseId} {side : Side} (hup : up s d = true)
include hup

theorem execHandoverAlign_inRange {n : Int} (haligning : (s.die d).aligning c.val side = true)
    (hnew : ((s.die d).rot c.val side).aligned = false) (hlo : -256 ≤ n) (hhi : n ≤ 255) :
    execHandoverAlign d c side (some n) s = .next (s.onSide d c.val side fun r => { r with aligned := true, d := n }) := by
  obtain ⟨hpresent, hrun⟩ := up_iff.mp hup
  simp [execHandoverAlign, hpresent, hrun, haligning, hnew, hlo, hhi]

theorem execHandoverDisagree_eq (compared : Word) (hphase : ((s.die d).rot c.val side).phase = 4) :
    execHandoverDisagree d c side compared s =
      .next ((s.onSide d c.val side fun r => { r with compared := compared.toNat }).hoRefuse d c.val side 1) := by
  obtain ⟨hpresent, hrun⟩ := up_iff.mp hup
  simp [execHandoverDisagree, hpresent, hrun, hphase]

theorem execHandoverConvTimeout_eq (hphase : ((s.die d).rot c.val side).phase = 2)
    (hconv : ((s.die d).slice ((s.die d).sympSlice c.val side)).converged = false)
    (hover : ((s.die d).rot c.val side).attachAt + ((s.die d).rot c.val side).convLim * 1024 ≤ s.stroke d) :
    execHandoverConvTimeout d c side s = .next (s.hoRefuse d c.val side 10) := by
  obtain ⟨hpresent, hrun⟩ := up_iff.mp hup
  simp [execHandoverConvTimeout, hpresent, hrun, hphase, hconv, hover]

end

/-! ### Captures (R145, R152) -/

/-- The scan or capture of a side is one of its die's long operations. -/
theorem Die.workOp_mem {x : Die} {c : Nat} {h : Side} {o : Op} (ho : x.workOp c h = some o) : o ∈ x.peg.ops :=
  List.mem_of_find?_eq_some ho

/-- The first bytes of a capture are in its half, which holds valid data from then on (R144, R145). -/
def State.capStore (s : State) (d : DieId) (c : Nat) (h : Side) (bytes : List Byte) : State :=
  let s := s.onDie d fun x => { x with sram := Memory.writeList x.sram (capBase c h) bytes }
  s.setCourse d c (((s.die d).course c).setHalf h { ((s.die d).course c).half h with valid := true })

section
variable (s : State) (d : DieId) (c : Nat) (h : Side) (bytes : List Byte)

theorem State.capStore_course : ((s.capStore d c h bytes).die d).course c =
    ((s.die d).course c).setHalf h { ((s.die d).course c).half h with valid := true } := by
  unfold State.capStore
  dsimp only
  rw [State.setCourse_course]
  simp only [State.die_onDie_same]
  rfl

@[simp] theorem State.capStore_rot : ((s.capStore d c h bytes).die d).rot c h = (s.die d).rot c h := by
  rw [Die.rot, State.capStore_course, Course.side_setHalf, ← Die.rot]

theorem State.capStore_half : (((s.capStore d c h bytes).die d).course c).half h =
    { ((s.die d).course c).half h with valid := true } := by
  rw [State.capStore_course, Course.half_setHalf]

theorem State.capStore_sram :
    ((s.capStore d c h bytes).die d).sram = Memory.writeList (s.die d).sram (capBase c h) bytes := by
  simp [State.capStore, State.setCourse]

theorem State.capStore_peg : ((s.capStore d c h bytes).die d).peg = (s.die d).peg :=
  State.peg_of_blk (by simp [State.capStore]) d

end

section
variable {s : State} {d : DieId} {c : CourseId} {side : Side} {o : Op} (hup : up s d = true)
  (hattached : ((s.die d).rot c.val side).attached = true) (howner : ((s.die d).rot c.val side).owner = 4)
  (hop : (s.die d).workOp c.val side = some o) (hwaits : o.data = [])
include hup hattached howner hop hwaits

section
variable {samples bytes : List Byte} (hfires : (s.die d).capFires c.val side o.packet samples = true)
  (hbytes : (s.die d).captured ((s.die d).sympSlice c.val side) (capContent o.packet) samples = bytes)
include hfires hbytes

/-- The trigger of a capture whose samples fill its recording ends it (R145, R153). -/
theorem execCaptureTrigger_ends (hall : capBytes (capLen o.packet) ≤ bytes.length) : ∃ data, execCaptureTrigger d c side samples s =
    .next ((s.capStore d c.val side (bytes.take (capBytes (capLen o.packet)))).workEnd d c.val side
      { o with position := 1000 } 1 stDone 1 data) := by
  obtain ⟨hpresent, hrun⟩ := up_iff.mp hup
  unfold execCaptureTrigger
  extract_lets x r
  rw [if_pos (by simp [hpresent, hrun, r, x, hattached, howner])]
  simp [x, hop, hwaits, hfires, hbytes, hall, State.capStore]

/-- The trigger of a capture whose samples end earlier says how far it has come (R145, R153). -/
theorem execCaptureTrigger_goesOn (hshort : bytes.length < capBytes (capLen o.packet)) : execCaptureTrigger d c side samples s =
    .next ((s.capStore d c.val side bytes).onDie d fun x => x.mapOps (fun z => z == o) fun z => { z with
      data := [bytes.length, (if capTrig o.packet = 0 then ((s.die d).rot c.val side).attachAt else s.stroke d) % 4294967296,
        capBytes (capPre o.packet)],
      position := bytes.length * 1000 / capBytes (capLen o.packet) }) := by
  obtain ⟨hpresent, hrun⟩ := up_iff.mp hup
  unfold execCaptureTrigger
  extract_lets x r
  rw [if_pos (by simp [hpresent, hrun, r, x, hattached, howner])]
  simp [x, r, hop, hwaits, hfires, hbytes, hshort, List.take_of_length_le hshort.le, State.capStore]

end

theorem execCaptureTimeout_eq (htrig : capTrig o.packet ≠ 0)
    (hover : ((s.die d).rot c.val side).attachAt + o.packet.w 6 ≤ s.stroke d) :
    execCaptureTimeout d c side s = .next (s.workEnd d c.val side o 1 stTimeout 0 [0, 0, 0]) := by
  obtain ⟨hpresent, hrun⟩ := up_iff.mp hup
  unfold execCaptureTimeout
  extract_lets x r
  rw [if_pos (by simp [hpresent, hrun, r, x, hattached, howner])]
  simp [x, r, hop, hwaits, htrig, hover]

end

/-- With content 0 a capture records the samples that it is given, but for the FFE's reach at either end (R145). -/
theorem Die.captured_samples (x : Die) {n i : Nat} {samples : List Byte} (hreach : taps n + i + 15 < samples.length) :
    (x.captured n 0 samples)[i]? = samples[taps n + i]? := by
  unfold Die.captured
  dsimp only
  rw [if_pos rfl, List.getElem?_take_of_lt (by omega), List.getElem?_drop]

/-! ### Banks (R146, R147) -/

/-- The banks of a course once its next logical bank is being copied (R146 step 1). -/
def Banks.started (b : Banks) (now : Nat) : Banks :=
  { b with copying := true, src := (b.map[b.nextLog]?).getD 0, logical := b.nextLog, nextLog := (b.nextLog + 1) % 6, copied := 0,
           lastRot := now }

/-- The banks of a course once the former spare serves the logical bank that was copied (R146 step 3). -/
def Banks.swapped (b : Banks) : Banks :=
  { b with map := b.map.set b.logical b.spare, spare := b.src, src := 7, copying := false, copied := 0 }

section
variable {s : State} {d : DieId} {c : CourseId} (hup : up s d = true) (hbist : (s.die d).bistOn = true)
include hup hbist

theorem execBankRotationStart_eq (hisolated : (s.die d).brg.isolated = false)
    (henabled : fld ((s.die d).act (oBank c.val)) 0 0 = 1) (hstopped : ((s.die d).course c.val).banks.stopped = false)
    (hcopying : ((s.die d).course c.val).banks.copying = false) (hspare : ((s.die d).course c.val).banks.spare ≠ 7)
    (htest : (s.die d).bankTest c.val = false)
    (hdue : ((s.die d).course c.val).banks.lastRot + fld ((s.die d).act (oBank c.val)) 10 1 * 1024 ≤ s.stroke d) :
    execBankRotationStart d c s = .next ((if (s.die d).gated 2 10 then s.gateOpen d 2 10 else s).setCourse d c.val
      { (s.die d).course c.val with banks := ((s.die d).course c.val).banks.started (s.stroke d) }) := by
  obtain ⟨hpresent, hrun⟩ := up_iff.mp hup
  unfold execBankRotationStart
  extract_lets x v b cfg
  rw [if_pos (by simp [hpresent, hrun, hisolated, hbist, henabled, hstopped, hcopying, hspare, htest, hdue, x, v, b, cfg])]
  rfl

/-- A swap moves the banks of its course, and the device tests the new spare by one test more (R146 step 4, R147). -/
theorem execBankSwap_completes (hpos : s.pos = 0) (hcopying : ((s.die d).course c.val).banks.copying = true)
    (hend : ((s.die d).course c.val).banks.copyEnd < s.stroke d) (hcopied : ((s.die d).course c.val).banks.copied = bankSize) :
    Completes (.bankSwap d c) s fun t => ((t.die d).course c.val).banks = ((s.die d).course c.val).banks.swapped ∧
      (t.die d).bist.tests.length = (s.die d).bist.tests.length + 1 := by
  obtain ⟨hpresent, hrun⟩ := up_iff.mp hup
  rw [Completes, show exec (.bankSwap d c) s = execBankSwap d c s from rfl]
  unfold execBankSwap
  extract_lets x v b swapped counted posted k test tested
  rw [if_pos (by simp [hpresent, hrun, hbist, hpos, hcopying, hend, hcopied, x, v, b])]
  refine ⟨_, rfl, ?_, ?_⟩
  · have hkept : (tested.count d cBist).blk .courses = swapped.blk .courses := by simp [tested, posted, counted]
    rw [State.course_of_blk hkept, State.setCourse_course]
    rfl
  · have hkept : posted.blk .bist = s.blk .bist := by simp [posted, counted, swapped]
    rw [State.bist_of_blk (State.count_blk _ _ _ _ (by simp)), State.die_onDie_same]
    simp [Die.lowered, State.bist_of_blk hkept]

end

end Sys2Proof.Machine
end

section
/-! PROOFS. Handover events, captures and the banks of a course. -/

open Sys2Proof Sys2Proof.Machine

/-- Settles O30: a refused handover leaves its side parked or wanted again, capStore is what a trigger stores, and the course of a
rotation or a swap reads back as it was written. -/
theorem rotationEvents : Obligations.RotationEvents := by
  unfold Obligations.RotationEvents
  refine ⟨fun s d c side n hup haligning hnew hlo hhi => ?align, fun s d c side compared hup hphase => ?disagree,
    fun s d c side hup hphase hconv hover => ?convTimeout,
    fun s d c side samples o hup hattached howner hop hwaits hfires hall => ?ends,
    fun s d c side samples o hup hattached howner hop hwaits hfires hshort => ?goesOn,
    fun x n samples i hreach => x.captured_samples hreach,
    fun s d c side o hup hattached howner hop hwaits htrig hover => ?timeout,
    fun s d c hup hisolated hbist henabled hstopped hcopying hspare htest hdue => ?start,
    fun s d c hup hbist hpos hcopying hend hcopied => execBankSwap_completes hup hbist hpos hcopying hend hcopied⟩
  case align =>
    refine Completes.of _ (execHandoverAlign_inRange hup haligning hnew hlo hhi) ⟨s.onSide_rot d c.val side _, ?_⟩
    exact State.slices_of_blk (State.onSide_blk _ _ _ _ _ (by simp)) d
  case disagree =>
    let u := s.onSide d c.val side fun r => { r with compared := compared.toNat }
    obtain ⟨w, p, hrot⟩ := u.hoRefuse_rot d c.val side 1
    refine Completes.of _ (execHandoverDisagree_eq hup compared hphase) ?_
    rw [hrot, State.onSide_rot]
    exact ⟨rfl, rfl, rfl, rfl⟩
  case convTimeout =>
    obtain ⟨w, p, hrot⟩ := s.hoRefuse_rot d c.val side 10
    refine Completes.of _ (execHandoverConvTimeout_eq hup hphase hconv hover) ?_
    rw [hrot]
    exact ⟨rfl, rfl, rfl⟩
  case ends =>
    obtain ⟨data, hexec⟩ := execCaptureTrigger_ends hup hattached howner hop hwaits hfires rfl hall
    have hlength := List.length_take_of_le hall
    refine Completes.of _ hexec ⟨?_, ?_, fun i hi => ?_, fun a ha => ?_⟩
    · rw [State.workEnd_course, Course.half_setSide, State.capStore_half]
    · rw [Die.rot, State.workEnd_course, Course.side_setSide]
      rfl
    · rw [State.workEnd_sram, State.capStore_sram, Memory.read_writeList_mem _ _ _ _ (hlength.symm ▸ hi), List.getElem?_take_of_lt hi]
    · rw [State.workEnd_sram, State.capStore_sram, Memory.read_writeList_ne _ _ _ _ (hlength.symm ▸ ha)]
  case goesOn =>
    refine Completes.of _ (execCaptureTrigger_goesOn hup hattached howner hop hwaits hfires rfl hshort) ?_
    rw [State.die_onDie_same]
    refine ⟨congrArg CapHalf.valid (s.capStore_half d c.val side _), ?_, fun i hi => ?_, fun a ha => ?_, ?_⟩
    · exact (congrArg SideRot.attached (s.capStore_rot d c.val side _)).trans hattached
    · rw [Die.mapOps_sram, State.capStore_sram, Memory.read_writeList_mem _ _ _ _ hi]
    · rw [Die.mapOps_sram, State.capStore_sram, Memory.read_writeList_ne _ _ _ _ ha]
    · refine Die.mapOps_mem ?_ _
      rw [State.capStore_peg]
      exact Die.workOp_mem hop
  case timeout =>
    refine Completes.of _ (execCaptureTimeout_eq hup hattached howner hop hwaits htrig hover) ⟨?_, s.workEnd_sram d c.val side _ _ _ _ _, rfl⟩
    rw [Die.rot, State.workEnd_course, Course.side_setSide]
    rfl
  case start =>
    refine Completes.of _ (execBankRotationStart_eq hup hbist hisolated henabled hstopped hcopying hspare htest hdue) ?_
    rw [State.setCourse_course]
    rfl
end

section
/-! SUPPORT. Peer frames: the fields of a word, the CRC and its single errors (R172), the pairs of levels (R171), what a framer reads of
a header (R170, R174), and the fields that a lane sends (R175, R176). -/

namespace Sys2Proof.Machine

/-! ### Fields of a word (R175, R176) -/

theorem testBit_bits (n hi lo k : Nat) : (bits n hi lo).testBit k = (decide (k < hi + 1 - lo) && n.testBit (lo + k)) := by
  simp [bits, Nat.testBit_mod_two_pow, Nat.testBit_shiftRight]

theorem bits_zero_eq_mod (v b : Nat) : bits v b 0 = v % 2 ^ (b + 1) := by simp [bits]

theorem testBit_packFields_cons (w v : Nat) (l : List (Nat × Nat)) (k : Nat) :
    (packFields ((w, v) :: l)).testBit k = if k < w then v.testBit k else (packFields l).testBit (k - w) := by
  have h : packFields ((w, v) :: l) = 2 ^ w * packFields l + v % 2 ^ w := Nat.add_comm _ _
  rw [h, Nat.testBit_two_pow_mul_add _ (Nat.mod_lt _ (Nat.two_pow_pos w))]
  split
  · next hk => simp [Nat.testBit_mod_two_pow, hk]
  · rfl

theorem testBit_packFields_append (l m : List (Nat × Nat)) (k : Nat) :
    (packFields (l ++ m)).testBit ((l.map Prod.fst).sum + k) = (packFields m).testBit k := by
  induction l generalizing k with
  | nil => simp
  | cons p l ih =>
    rw [List.cons_append, testBit_packFields_cons, if_neg (by simp; omega)]
    simp only [List.map_cons, List.sum_cons]
    rw [show p.1 + (l.map Prod.fst).sum + k - p.1 = (l.map Prod.fst).sum + k by omega, ih]

theorem testBit_packFields {l : List (Nat × Nat)} {i w v k n : Nat} (hi : l[i]? = some (w, v)) (hk : k < w)
    (hn : n = ((l.take i).map Prod.fst).sum + k) : (packFields l).testBit n = v.testBit k := by
  obtain ⟨hlt, hget⟩ := List.getElem?_eq_some_iff.mp hi
  have hl : l = l.take i ++ (w, v) :: l.drop (i + 1) := by rw [← hget, List.getElem_cons_drop, List.take_append_drop]
  rw [hn, hl, List.take_left' (by simp; omega), testBit_packFields_append, testBit_packFields_cons, if_pos hk]

section
variable {l : List (Nat × Nat)} {v : Nat}

/-- A run of bits inside the field at index i, which begins at bit o. -/
theorem bits_packFields (i o w : Nat) {a b : Nat} (hb : b < w) (hi : l[i]? = some (w, v) := by rfl)
    (ho : o = ((l.take i).map Prod.fst).sum := by simp) (h64 : o + w ≤ 64 := by decide) :
    bits (BitVec.ofNat 64 (packFields l)).toNat (o + b) (o + a) = bits v b a := by
  refine Nat.eq_of_testBit_eq fun k => ?_
  rw [testBit_bits, testBit_bits, show o + b + 1 - (o + a) = b + 1 - a by omega, BitVec.testBit_toNat, BitVec.getLsbD_ofNat]
  by_cases hk : k < b + 1 - a
  · rw [Nat.add_assoc o, testBit_packFields hi (k := a + k) (by omega) (by omega)]
    simp only [show o + (a + k) < 64 by omega, hk, decide_true, Bool.true_and]
  · simp only [hk, decide_false, Bool.false_and]

/-- The whole field at index i. -/
theorem field_packFields (i o w : Nat) (hw : 0 < w := by decide) (hi : l[i]? = some (w, v) := by rfl)
    (ho : o = ((l.take i).map Prod.fst).sum := by simp) (h64 : o + w ≤ 64 := by decide) :
    bits (BitVec.ofNat 64 (packFields l)).toNat (o + (w - 1)) o = v % 2 ^ w := by
  have h := bits_packFields i o w (a := 0) (b := w - 1) (by omega) hi ho h64
  rwa [bits_zero_eq_mod, Nat.sub_add_cancel hw] at h

/-- Bit k of the field at index i. -/
theorem getLsbD_packFields (i o w k : Nat) (hk : k < w) (hi : l[i]? = some (w, v) := by rfl)
    (ho : o = ((l.take i).map Prod.fst).sum := by simp) (h64 : o + w ≤ 64 := by decide) :
    (BitVec.ofNat 64 (packFields l)).getLsbD (o + k) = bit v k := by
  rw [BitVec.getLsbD_ofNat, testBit_packFields hi hk (ho ▸ rfl), decide_eq_true (by omega : o + k < 64), Bool.true_and, bit]

/-- The field of one bit at index i. -/
theorem flag_packFields {f : Bool} (i o : Nat) (hi : l[i]? = some (1, b2n f) := by rfl)
    (ho : o = ((l.take i).map Prod.fst).sum := by simp) (h64 : o + 1 ≤ 64 := by decide) :
    (BitVec.ofNat 64 (packFields l)).getLsbD o = f :=
  (getLsbD_packFields i o 1 0 Nat.one_pos hi ho h64).trans (by cases f <;> rfl)

end

/-! ### The CRC of a frame (R172) -/

/-- A CRC step shifts, and adds the polynomial where the bit that leaves is not the bit that comes. -/
theorem crcStep_eq (c : Nat) (b : Bool) : crcStep 16 0x1021 c b = c * 2 % 2 ^ 16 ^^^ if bit c 15 != b then 0x1021 else 0 := by
  unfold crcStep
  by_cases h : (bit c 15 != b) = true <;> simp [h]

theorem crcStep_lt (c : Nat) (b : Bool) : crcStep 16 0x1021 c b < 2 ^ 16 := by
  rw [crcStep_eq]
  refine Nat.xor_lt_two_pow (Nat.mod_lt _ (by decide)) ?_
  split <;> decide

/-- The lowest bit after a step tells whether the polynomial was added. -/
theorem bit_zero_crcStep (c : Nat) (b : Bool) : bit (crcStep 16 0x1021 c b) 0 = (bit c 15 != b) := by
  rw [crcStep_eq, bit, Nat.testBit_xor]
  have h : (c * 2 % 2 ^ 16).testBit 0 = false := by rw [Nat.testBit_zero]; simp
  rw [h]
  by_cases hb : (bit c 15 != b) = true <;> simp [hb]

theorem bit_fifteen (c : Nat) (h : c < 2 ^ 16) : bit c 15 = decide (2 ^ 15 ≤ c) := by
  rw [bit, Nat.testBit_eq_decide_div_mod_eq]
  congr 1
  apply propext
  omega

theorem crcStep_injective {a c : Nat} (ha : a < 2 ^ 16) (hc : c < 2 ^ 16) {b : Bool} (h : crcStep 16 0x1021 a b = crcStep 16 0x1021 c b) : a = c := by
  have hout : (bit a 15 != b) = (bit c 15 != b) := by rw [← bit_zero_crcStep, h, bit_zero_crcStep]
  have hshift : a * 2 % 2 ^ 16 = c * 2 % 2 ^ 16 := by
    rw [crcStep_eq, crcStep_eq, hout] at h
    exact Nat.xor_left_injective h
  have htop : (2 ^ 15 ≤ a) ↔ (2 ^ 15 ≤ c) := by
    rw [bit_fifteen a ha, bit_fifteen c hc] at hout
    simpa using hout
  omega

theorem crcStep_not_ne (c : Nat) (b : Bool) : crcStep 16 0x1021 c (!b) ≠ crcStep 16 0x1021 c b := by
  intro h
  have := congrArg (bit · 0) h
  simp [bit_zero_crcStep] at this

/-- Registers that differ still differ after the same bits. -/
theorem crc_foldl_injective {a c : Nat} (ha : a < 2 ^ 16) (hc : c < 2 ^ 16) (l : List Bool)
    (h : l.foldl (crcStep 16 0x1021) a = l.foldl (crcStep 16 0x1021) c) : a = c := by
  induction l generalizing a c with
  | nil => exact h
  | cons b l ih => exact crcStep_injective ha hc (ih (crcStep_lt a b) (crcStep_lt c b) h)

/-- One bit inverted gives another register. -/
theorem crc_foldl_set_not_ne (l : List Bool) (i : Nat) (hi : i < l.length) (c : Nat) :
    (l.set i (!(l[i]?).getD false)).foldl (crcStep 16 0x1021) c ≠ l.foldl (crcStep 16 0x1021) c := by
  induction l generalizing i c with
  | nil => simp at hi
  | cons b l ih =>
    cases i with
    | zero => exact fun h => crcStep_not_ne c b (crc_foldl_injective (crcStep_lt ..) (crcStep_lt ..) l h)
    | succ i => exact ih i (by simpa using hi) (crcStep 16 0x1021 c b)

/-- The register's own bits, most significant first, shift it out. -/
theorem crc_foldl_own_bits {c : Nat} (hc : c < 2 ^ 16) (m : Nat) (hm : m ≤ 16) :
    ((List.range m).map (fun k => bit c (15 - k))).foldl (crcStep 16 0x1021) c = c * 2 ^ m % 2 ^ 16 := by
  induction m with
  | zero => rw [Nat.pow_zero, Nat.mul_one, Nat.mod_eq_of_lt hc]; rfl
  | succ m ih =>
    have hout : bit (c * 2 ^ m % 2 ^ 16) 15 = bit c (15 - m) := by
      rw [bit, Nat.testBit_mod_two_pow, Nat.testBit_mul_two_pow, decide_eq_true (by omega : 15 < 16), decide_eq_true (by omega : m ≤ 15)]
      rfl
    rw [List.range_succ, List.map_append, List.foldl_append, ih (by omega)]
    simp only [List.map_cons, List.map_nil, List.foldl_cons, List.foldl_nil, crcStep_eq, hout, bne_self_eq_false, Bool.false_eq_true,
      if_false, Nat.xor_zero]
    rw [Nat.mod_mul_mod, Nat.mul_assoc, ← Nat.pow_succ]

theorem crc_foldl_lt {c : Nat} (hc : c < 2 ^ 16) (l : List Bool) : l.foldl (crcStep 16 0x1021) c < 2 ^ 16 := by
  induction l generalizing c with
  | nil => exact hc
  | cons b l ih => exact ih (crcStep_lt c b)

/-- The CRC of bits followed by their CRC is 0. -/
theorem frameCrc_append_crcBits (l : List Bool) : frameCrc (l ++ crcBits (frameCrc l)) = 0 := by
  have h := crc_foldl_own_bits (crc_foldl_lt (c := 0xFFFF) (by decide) l) 16 (Nat.le_refl 16)
  rw [Nat.mul_mod_left] at h
  unfold frameCrc crcBits
  rw [List.foldl_append]
  exact h

/-! ### Pairs of levels (R171) -/

theorem fieldLevels_cons (b : Bool) (l : List Bool) : fieldLevels (b :: l) = bitLevels b ++ fieldLevels l := rfl

@[simp] theorem bitLevels_length (b : Bool) : (bitLevels b).length = 2 := by cases b <;> rfl

@[simp] theorem fieldLevels_length (l : List Bool) : (fieldLevels l).length = 2 * l.length := by
  simp [fieldLevels, List.length_flatMap, Nat.mul_comm]

theorem fieldLevels_append (l m : List Bool) : fieldLevels (l ++ m) = fieldLevels l ++ fieldLevels m := List.flatMap_append

/-- The pair of levels of the bit at place i. -/
theorem take_two_drop_fieldLevels (l : List Bool) (i : Nat) (b : Bool) (h : l[i]? = some b) :
    ((fieldLevels l).drop (2 * i)).take 2 = bitLevels b := by
  obtain ⟨hi, rfl⟩ := List.getElem?_eq_some_iff.mp h
  have hsplit : fieldLevels l = fieldLevels (l.take i) ++ (bitLevels l[i] ++ fieldLevels (l.drop (i + 1))) := by
    rw [← fieldLevels_cons, ← fieldLevels_append, List.getElem_cons_drop, List.take_append_drop]
  rw [hsplit, List.drop_left' (by simp; omega), List.take_left' (by simp)]

theorem pairBits_fieldLevels (l : List Bool) : pairBits (fieldLevels l) = some l := by
  induction l with
  | nil => rfl
  | cons b l ih => cases b <;> exact congrArg (Option.map _) ih

/-- Two levels are read as a bit only where they are the pair of one. -/
theorem pairBits_cons_ne_none {a b : Nat} {l : List Nat} (h : pairBits (a :: b :: l) ≠ none) :
    (a = 3 ∧ b = 0 ∨ a = 0 ∧ b = 3) ∧ pairBits l ≠ none := by
  unfold pairBits at h
  split at h <;> simp_all

/-- With one level of a field at another level, some pair is no bit. -/
theorem pairBits_set_none (l : List Bool) (i v : Nat) (hi : i < 2 * l.length) (hv : (fieldLevels l)[i]? ≠ some v) :
    pairBits ((fieldLevels l).set i v) = none := by
  by_contra h
  induction l generalizing i with
  | nil => simp at hi
  | cons b l ih =>
    match i with
    | 0 | 1 =>
      cases b <;> have := (pairBits_cons_ne_none h).1 <;> simp_all [fieldLevels_cons, bitLevels]
    | i + 2 =>
      have hnext : (fieldLevels (b :: l)).set (i + 2) v = bitLevels b ++ (fieldLevels l).set i v := by cases b <;> rfl
      rw [hnext] at h
      refine ih i (by simp at hi; omega) ?_ ?_
      · cases b <;> exact hv
      · cases b <;> exact (pairBits_cons_ne_none h).2

/-! ### Fields (R171, R172) -/

@[simp] theorem fieldBits_length (w : BitVec 64) : (fieldBits w).length = 64 := by simp [fieldBits]
@[simp] theorem frameBits_length (c w : BitVec 64) : (frameBits c w).length = 128 := by simp [frameBits]
@[simp] theorem crcBits_length (crc : Nat) : (crcBits crc).length = 16 := by simp [crcBits]

theorem foldl_bits (l : List Bool) (k n : Nat) :
    (l.zipIdx k).foldl (fun n b => n + b2n b.1 * 2 ^ b.2) n = n + 2 ^ k * packFields (l.map fun b => (1, b2n b)) := by
  induction l generalizing k n with
  | nil => rfl
  | cons b l ih =>
    have hcons : packFields ((b :: l).map fun b => (1, b2n b)) = b2n b + 2 * packFields (l.map fun b => (1, b2n b)) := by
      cases b <;> rfl
    rw [List.zipIdx_cons, List.foldl_cons, ih, hcons]
    ring

theorem fieldOf_fieldBits (w : BitVec 64) : fieldOf (fieldBits w) = w := by
  refine BitVec.eq_of_getLsbD_eq fun i hi => ?_
  rw [fieldOf, foldl_bits, Nat.zero_add, Nat.pow_zero, Nat.one_mul]
  refine flag_packFields i i ?_ ?_ hi
  · simp [fieldBits, hi]
  · simp [fieldBits, Nat.min_eq_left hi.le, ← List.map_take, Function.comp_def]

/-! ### Frames (R170 to R172, R174) -/

@[simp] theorem markerLevels_length : markerLevels.length = 64 := rfl

/-- What a framer reads after a marker: the fields of 144 bits with a good CRC. -/
theorem readFrame_markerLevels (l : List Bool) :
    readFrame (markerLevels ++ fieldLevels l) =
      if l.length = 144 ∧ frameCrc l = 0 then some (fieldOf (l.take 64), fieldOf ((l.drop 64).take 64)) else none := by
  unfold readFrame
  rw [List.take_left' markerLevels_length, List.drop_left' markerLevels_length, pairBits_fieldLevels]
  simp

theorem readFrame_peerHeader (c w : BitVec 64) : readFrame (peerHeader c w) = some (c, w) := by
  have hc : (frameBits c w ++ crcBits (frameCrc (frameBits c w))).take 64 = fieldBits c := by
    rw [frameBits, List.append_assoc, List.take_left' (fieldBits_length c)]
  have hw : ((frameBits c w ++ crcBits (frameCrc (frameBits c w))).drop 64).take 64 = fieldBits w := by
    rw [frameBits, List.append_assoc, List.drop_left' (fieldBits_length c), List.take_left' (fieldBits_length w)]
  rw [peerHeader, readFrame_markerLevels, if_pos ⟨by simp, frameCrc_append_crcBits _⟩, hc, hw, fieldOf_fieldBits, fieldOf_fieldBits]

theorem readFrame_none_of_marker {l : List Nat} (h : l.take 64 ≠ markerLevels) : readFrame l = none := by
  simp [readFrame, h]

theorem readFrame_none_of_pairs {l : List Nat} (h : pairBits (l.drop 64) = none) : readFrame l = none := by
  unfold readFrame
  rw [h]
  simp

@[simp] theorem peerHeader_length (c w : BitVec 64) : (peerHeader c w).length = 352 := by simp [peerHeader]

/-- One symbol at another level: the marker is bad, or a pair is no bit. -/
theorem readFrame_set_none (c w : BitVec 64) (i v : Nat) (hi : i < 352) (hv : (peerHeader c w)[i]? ≠ some v) :
    readFrame ((peerHeader c w).set i v) = none := by
  unfold peerHeader at hv ⊢
  by_cases hmark : i < 64
  · refine readFrame_none_of_marker ?_
    rw [List.set_append_left _ _ hmark, List.take_left' (by simp)]
    rw [List.getElem?_append_left hmark] at hv
    intro h
    rw [← h, List.getElem?_set_self hmark] at hv
    exact hv rfl
  · have hle : 64 ≤ i := Nat.le_of_not_lt hmark
    refine readFrame_none_of_pairs ?_
    rw [List.set_append_right _ _ hle, List.drop_left' markerLevels_length]
    rw [List.getElem?_append_right hle] at hv
    exact pairBits_set_none _ _ v (by simp; omega) hv

/-- One bit inverted: the CRC is bad. -/
theorem readFrame_inverted_none (c w : BitVec 64) (b : Nat) (l : List Bool) (hb : b < 144)
    (hl : l = frameBits c w ++ crcBits (frameCrc (frameBits c w))) :
    readFrame (markerLevels ++ fieldLevels (l.set b (!(l[b]?).getD false))) = none := by
  have hgood : frameCrc l = 0 := hl ▸ frameCrc_append_crcBits _
  have hbad : frameCrc (l.set b (!(l[b]?).getD false)) ≠ 0 := hgood ▸ crc_foldl_set_not_ne l b (by simpa [hl] using hb) 0xFFFF
  rw [readFrame_markerLevels, if_neg fun h => hbad h.2]

@[simp] theorem prbsLevels_length (n26 : Bool) (sel k reg : Nat) : (prbsLevels n26 sel k reg).length = k := by
  induction k generalizing reg with
  | zero => rfl
  | succ k ih => exact congrArg Nat.succ (ih _)

/-- The levels of a header are 3 and 0, which N26 sends as the bits 1 and 0. -/
theorem three_mul_peerHeader (c w : BitVec 64) : ((peerHeader c w).map (fun l => l / 3)).map (fun l => 3 * l) = peerHeader c w := by
  have hmark (a : Nat) (h : a ∈ markerLevels) : a = 3 ∨ a = 0 := by simpa [markerLevels] using h
  have hfield (l : List Bool) (a : Nat) (h : a ∈ fieldLevels l) : a = 3 ∨ a = 0 := by
    obtain ⟨b, -, ha⟩ := List.mem_flatMap.mp h
    cases b <;> simp [bitLevels] at ha <;> omega
  rw [List.map_map]
  refine (List.map_congr_left fun a ha => ?_).trans (List.map_id _)
  obtain rfl | rfl := (List.mem_append.mp ha).elim (hmark a) (hfield _ a) <;> rfl

/-- The pair of levels at which a header carries the bit at place i of its fields and CRC. -/
theorem peerHeader_pair (c w : BitVec 64) (i : Nat) (b : Bool)
    (h : (frameBits c w ++ crcBits (frameCrc (frameBits c w)))[i]? = some b) :
    ((peerHeader c w).drop (64 + 2 * i)).take 2 = bitLevels b := by
  rw [peerHeader, ← List.drop_drop, List.drop_left' markerLevels_length]
  exact take_two_drop_fieldLevels _ i b h

theorem fieldBits_getElem? (w : BitVec 64) (b : Fin 64) : (fieldBits w)[b.val]? = some (w.getLsbD b.val) := by
  simp [fieldBits]

theorem frameBits_control (c w : BitVec 64) (b : Fin 64) (l : List Bool) : (frameBits c w ++ l)[b.val]? = some (c.getLsbD b.val) := by
  rw [frameBits, List.append_assoc, List.getElem?_append_left (by simp), fieldBits_getElem?]

theorem frameBits_status (c w : BitVec 64) (b : Fin 64) (l : List Bool) : (frameBits c w ++ l)[64 + b.val]? = some (w.getLsbD b.val) := by
  rw [List.getElem?_append_left (by simp; omega), frameBits, List.getElem?_append_right (by simp), fieldBits_length, Nat.add_sub_cancel_left,
    fieldBits_getElem?]

/-! ### The fields of a lane's frames (R175, R176) -/

theorem rate_lt (a : Half) : rate a < 8 := Nat.mod_lt _ (by decide)

section
variable (x : Die) (n j : Nat) (l : LaneSess) (w : BitVec 64)

/-- The request in the control field of a lane's frames: the one outstanding, or none (R175, R177). -/
theorem Die.peerFields_request (f : Frame) (hf : f = peerFields (x.control n j l) w) (code : Nat) (hcode : code = if l.reqOpen then l.reqCode else 6) :
    f.reqTap = code % 8 ∧ f.reqOp = code / 8 % 4 ∧ f.reqPreset = code / 32 % 8 := by
  subst hf hcode
  refine ⟨(bits_packFields 0 0 8 (a := 0) (b := 2) (by decide)).trans ?_, (bits_packFields 0 0 8 (a := 3) (b := 4) (by decide)).trans ?_,
    (bits_packFields 0 0 8 (a := 5) (b := 7) (by decide)).trans ?_⟩ <;> simp [bits, Nat.shiftRight_eq_div_pow]

/-- What a framer reads in the control field of a lane's frames besides the request (R175). -/
theorem Die.peerFields_control (f : Frame) (hf : f = peerFields (x.control n j l) w) (hj : j < 16) :
    f.reqSeq = l.reqSeq % 16 ∧ f.reqP425 = hasGearbox (x.cfga n) ∧ f.reqLattice = hasLattice (x.cfga n) ∧ f.beaconVer = 1 ∧ f.ptype = 0 ∧
    f.capLattice = true ∧ f.capP425 = true ∧ f.capRotation = true ∧ f.lanePos = j ∧
    f.rate = (if hasGearbox (x.cfga n) then 4 else rate (x.cfga n)) ∧ f.session = l.ownId % 256 := by
  subst hf
  have hptype : bits (x.control n j l).toNat 21 20 = 0 := field_packFields (v := 0) 7 20 2
  have hrate : (if hasGearbox (x.cfga n) then 4 else rate (x.cfga n)) < 16 := by
    have := rate_lt (x.cfga n)
    split <;> omega
  refine ⟨field_packFields 1 8 4, flag_packFields 3 13, flag_packFields 4 14, field_packFields (v := 1) 6 16 4, by simp [peerFields, hptype],
    flag_packFields (f := true) 8 22, flag_packFields (f := true) 9 23, flag_packFields (f := true) 10 24,
    (field_packFields 12 32 4).trans (Nat.mod_eq_of_lt hj), (field_packFields 13 36 4).trans (Nat.mod_eq_of_lt hrate), field_packFields 14 40 8⟩

/-- What a framer reads in the status field of a lane's frames (R176, R180). -/
theorem Die.peerFields_status (f : Frame) (hf : f = peerFields w (x.status n j l)) :
    f.ackTap = l.ackTap % 8 ∧ f.tapStatus = l.tapStat % 8 ∧ f.ackSeq = l.answered.getD 0 % 16 ∧ f.rxReady = l.rrTx ∧
    f.latReady = bit l.bits 0 ∧ f.phaseLock = bit l.bits 1 ∧ f.precodeOn = bit l.bits 2 ∧ f.p425Grant = bit l.bits 3 ∧
    f.latGrant = bit l.bits 4 ∧ f.rxSnr = min 255 ((x.slice (x.serving (n / 8) .line j)).snrNow * 2 / 5) ∧
    f.countdown = (if l.state = 5 ∧ l.count ≤ 16 then l.count else 0) ∧ f.done = decide (l.state = 6) ∧
    f.echo = (match l.frame with | some q => q.session % 256 | none => 0) := by
  subst hf
  have hbit (k : Nat) (hk : k < 5) : (x.status n j l).getLsbD (11 + k) = bit l.bits k := getLsbD_packFields 4 11 5 k hk
  refine ⟨field_packFields 0 0 3, field_packFields 1 3 3, field_packFields 2 6 4, flag_packFields 3 10, hbit 0 (by decide), hbit 1 (by decide),
    hbit 2 (by decide), hbit 3 (by decide), hbit 4 (by decide), (field_packFields 5 16 8).trans (Nat.mod_eq_of_lt (by omega)), ?countdown,
    flag_packFields 7 29, ?echo⟩
  case countdown =>
    refine (field_packFields 6 24 5).trans ?_
    by_cases h : l.state = 5 ∧ l.count ≤ 16
    · simp [h, Nat.mod_eq_of_lt (show l.count < 32 by omega)]
    · simp [h]
  case echo =>
    refine (field_packFields 9 32 8).trans ?_
    cases l.frame <;> rfl

/-- The bits an engine fret decides for a lane, one by one (R159, R176). -/
theorem Die.laneBits_bits (k : LaneKind) :
    bit (x.laneBits n k l) 0 = x.latReady n ∧ bit (x.laneBits n k l) 1 = l.flock ∧ bit (x.laneBits n k l) 2 = l.reqPre ∧
    bit (x.laneBits n k l) 3 = (if k = .session then x.grants n else (bit (x.port n).modes 1, bit (x.port n).modes 0)).1 ∧
    bit (x.laneBits n k l) 4 = (if k = .session then x.grants n else (bit (x.port n).modes 1, bit (x.port n).modes 0)).2 ∧
    x.laneBits n k l < 32 := by
  unfold Die.laneBits
  generalize (if k = .session then x.grants n else (bit (x.port n).modes 1, bit (x.port n).modes 0)) = g
  obtain ⟨p425, lattice⟩ := g
  cases x.latReady n <;> cases l.flock <;> cases l.reqPre <;> cases p425 <;> cases lattice <;> decide

end

end Sys2Proof.Machine
end

section
/-! PROOFS. Peer frames. -/

open Sys2Proof Sys2Proof.Machine

/-- Settles O60: a framer's reading of fields after a marker, the CRC that one inverted bit always changes, and the fields of a word
one by one. -/
theorem peerFrames : Obligations.PeerFrames := by
  unfold Obligations.PeerFrames
  refine ⟨readFrame_peerHeader, fun c w reg => ?layout, readFrame_set_none, readFrame_inverted_none, fun x n j l f hf hj => ?fields,
    fun x n k l b hb => ?bits⟩
  case layout =>
    refine ⟨by simp [peerFrame, patternSymbols], List.take_left' (peerHeader_length c w), List.take_left' markerLevels_length, fun b => ⟨?_, ?_⟩,
      by simp [peerFrame26, patternSymbols], ?_⟩
    · exact peerHeader_pair c w b.val _ (frameBits_control c w b _)
    · rw [show 192 + 2 * b.val = 64 + 2 * (64 + b.val) by omega]
      exact peerHeader_pair c w (64 + b.val) _ (frameBits_status c w b _)
    · rw [peerFrame26, List.take_left' (by simp)]
      exact three_mul_peerHeader c w
  case fields =>
    obtain ⟨htap, hop, hpreset⟩ := x.peerFields_request n j l _ f hf _ rfl
    obtain ⟨hseq, hp425, hlattice, hversion, hkind, hcapLattice, hcapP425, hcapRotation, hpos, hrate, hsession⟩ :=
      x.peerFields_control n j l _ f hf hj
    obtain ⟨hackTap, hstat, hackSeq, hready, hlatReady, hlock, hpre, hgrant, hlatGrant, hsnr, hcount, hdone, hecho⟩ :=
      x.peerFields_status n j l _ f hf
    refine ⟨by rw [hf]; rfl, fun h => ?_, fun h => ?_, hseq, hpos, hsession, hversion, hkind, hcapLattice, hcapP425, hcapRotation, hlattice,
      hp425, hrate, hackTap, hstat, hackSeq, hready, hlatReady, hlock, hpre, hgrant, hlatGrant, hcount, hdone, hecho, hsnr⟩
    · rw [if_pos h] at htap hop hpreset
      exact ⟨htap, hop, hpreset⟩
    · rw [if_neg (by simp [h])] at htap hop hpreset
      exact ⟨htap, hop, hpreset⟩
  case bits =>
    obtain ⟨hready, hlock, hpre, hp425, hlattice, hlt⟩ := x.laneBits_bits n l k
    subst hb
    refine ⟨hready, hlock, hpre, hlt, fun hk => ?_, fun hk => ?_⟩
    · rw [if_pos hk] at hp425 hlattice
      exact ⟨hp425, hlattice⟩
    · rw [if_neg hk] at hp425 hlattice
      exact ⟨hp425, hlattice⟩
end

section
/-! SUPPORT. Training events: the lanes of a session and the port they are kept in, valid frames (R159, R174), frame lock (R161, R236, R237),
frames in service (R168), and the ends of outgoing frames (R160, R164, R175, R176, R180). -/

set_option Elab.async false

namespace Sys2Proof.Machine

/-! ### Ports and their keys -/

@[simp] theorem portId_of_key (p : PortId) : portId p.die p.key = p :=
  PortId.eq_of_key rfl (portId_key p.die (by have := p.course.isLt; have := p.idx.isLt; unfold PortId.key; omega))

theorem PortId.key_lt (p : PortId) : p.key < 64 := by
  have := p.course.isLt
  have := p.idx.isLt
  unfold PortId.key
  omega

theorem PortId.key_div (p : PortId) : p.key / 8 = p.course.val := by
  have := p.idx.isLt
  unfold PortId.key
  omega

theorem State.port_of_blk {s t : State} (h : t.blk .ports = s.blk .ports) (p : PortId) : t.port p = s.port p := by
  rw [State.port, State.port, Die.port, Die.port, State.ports_of_blk h]

/-! ### The lane of a session, read back -/

@[simp] theorem Port.lanes_setLanes (v : Port) (h : Side) (m : SMap LaneSess) : (v.setLanes h m).lanes h = m := by
  cases h <;> rfl

@[simp] theorem Port.framer_setFramer (v : Port) (h : Side) (j : Nat) (f : Framer) : (v.setFramer h j f).framer h j = f := by
  cases h <;> simp [Port.framer, Port.framers, Port.setFramer]

@[simp] theorem Port.lanes_setFramer (v : Port) (h g : Side) (j : Nat) (f : Framer) : (v.setFramer h j f).lanes g = v.lanes g := by
  cases h <;> cases g <;> rfl

@[simp] theorem Port.framer_setLanes (v : Port) (h g : Side) (j : Nat) (m : SMap LaneSess) : (v.setLanes h m).framer g j = v.framer g j := by
  cases h <;> cases g <;> rfl

theorem Course.gbxLane_setIfInBounds (v : Course) {k : Nat} (hk : k < 4) (g : Gbx) :
    ({ v with gbx := v.gbx.setIfInBounds k g } : Course).gbxLane k = g := by
  simp [Course.gbxLane, hk]

/-- A lane that has a place in its session's record reads back as it was written. -/
theorem State.setLane_lane (s : State) (d : DieId) {n : Nat} (hn : n < 64) (h : Side) {j : Nat} {k : LaneKind} (hj : k = .phase → j < 4)
    (l : LaneSess) : ((s.setLane d n h j k l).die d).lane n h j k = l := by
  cases k with
  | session =>
    have hport := (s.onPort_port_same (portId d n) fun p => p.setLanes h (SMap.put {} (p.lanes h) j l))
    rw [State.port, portId_key d hn] at hport
    simp only [State.setLane, Die.lane]
    rw [show (portId d n).die = d from rfl] at hport
    rw [hport, Port.lanes_setLanes, SMap.get_put_same]
  | lattice => simp [State.setLane, Die.lane, State.setCourse]
  | phase => simp [State.setLane, Die.lane, State.setCourse, Course.gbxLane_setIfInBounds _ (hj rfl)]

/-- A line position beyond the gearbox lanes is in no phase session. -/
theorem Die.phase_lt {x : Die} {n : Nat} {h : Side} {j : Nat} {k : LaneKind} (hkind : x.laneKind n h j = some k) (hk : k = .phase) : j < 4 := by
  subst hk
  unfold Die.laneKind at hkind
  dsimp only at hkind
  split at hkind
  · split at hkind <;> simp at hkind
  · split at hkind
    · simp at hkind
    · by_contra hj
      have hnone : ((x.course (n / 8)).gbx)[j]? = none := by simp; omega
      simp [hnone] at hkind

/-- What of a port tells which session its lanes are in. -/
def Port.inSession (v : Port) : Nat × Bool × Bool := (v.state, v.sess, v.latUnav)

theorem Die.act_congr {x y : Die} (h : y.active = x.active) (o : Nat) : y.act o = x.act o := by rw [Die.act, h, Die.act]

theorem Die.cfga_congr {x y : Die} (h : y.active = x.active) (n : Nat) : y.cfga n = x.cfga n := Die.act_congr h _

theorem Die.peerSeg_congr {x y : Die} (hactive : y.active = x.active) (n : Nat) (h : Side) : y.peerSeg n h = x.peerSeg n h := by
  rw [Die.peerSeg, Die.peerSeg, Die.cfgb, Die.cfgb, Die.act_congr hactive]

theorem Die.portLine_congr {x y : Die} (h : y.active = x.active) (n : Nat) : y.portLine n = x.portLine n := by
  rw [Die.portLine, Die.portLine, Die.cfga_congr h, Die.act_congr h, Die.act_congr h]

/-- The positions of a segment are told by the configuration and by whether lattice is refused. -/
theorem Die.segPos_congr {x y : Die} {n : Nat} (hactive : y.active = x.active) (hunav : (y.port n).latUnav = (x.port n).latUnav)
    (h : Side) : y.segPos n h = x.segPos n h := by
  cases h
  · rw [Die.segPos, Die.segPos, Die.portHost, Die.portHost, Die.cfga_congr hactive]
  · rw [Die.segPos, Die.segPos, Die.portLineAll, Die.portLineAll, Die.cfga_congr hactive, Die.portLine_congr hactive, hunav]

theorem Die.course_congr {x y : Die} (h : y.courses = x.courses) (c : Nat) : y.course c = x.course c := by
  rw [Die.course, Die.course, h]

/-- The sessions of the lanes are told by the configuration, the courses, and the port. -/
theorem Die.laneKind_congr {x y : Die} {n : Nat} (hactive : y.active = x.active) (hcourses : y.courses = x.courses)
    (hport : (y.port n).inSession = (x.port n).inSession) (h : Side) (j : Nat) : y.laneKind n h j = x.laneKind n h j := by
  simp only [Port.inSession, Prod.mk.injEq] at hport
  obtain ⟨hstate, hsess, hunav⟩ := hport
  unfold Die.laneKind Port.enabled
  rw [Die.course_congr hcourses, Die.cfga_congr hactive, Die.portLine_congr hactive, Die.segPos_congr hactive hunav, hstate, hsess]

/-- A lane's session is kept in its port, or in its course. -/
theorem Die.lane_congr {x y : Die} {n : Nat} {h : Side} (hcourses : y.courses = x.courses)
    (hport : (y.port n).lanes h = (x.port n).lanes h) (j : Nat) (k : LaneKind) : y.lane n h j k = x.lane n h j k := by
  unfold Die.lane
  rw [Die.course_congr hcourses, hport]

/-- A lane of a port's own session is kept in the port alone. -/
theorem Die.lane_session_congr {x y : Die} {n : Nat} {h : Side} (hport : (y.port n).lanes h = (x.port n).lanes h) (j : Nat) :
    y.lane n h j .session = x.lane n h j .session := by
  rw [Die.lane, Die.lane, hport]

/-- Writing a lane changes nothing of a port but its lanes. -/
theorem State.setLane_port (s : State) (p : PortId) (h : Side) (j : Nat) (k : LaneKind) (l : LaneSess) :
    ∃ m, (s.setLane p.die p.key h j k l).port p = (s.port p).setLanes h m := by
  have hkept : (s.port p).setLanes h ((s.port p).lanes h) = s.port p := by cases h <;> rfl
  cases k with
  | session => exact ⟨_, by simp only [State.setLane, portId_of_key, State.onPort_port_same]; rfl⟩
  | lattice => exact ⟨(s.port p).lanes h, by rw [hkept, State.port_of_blk (s := s) (by simp [State.setLane])]⟩
  | phase => exact ⟨(s.port p).lanes h, by rw [hkept, State.port_of_blk (s := s) (by simp [State.setLane])]⟩

@[simp] theorem Port.inSession_setLanes (v : Port) (h : Side) (m : SMap LaneSess) : (v.setLanes h m).inSession = v.inSession := by
  cases h <;> rfl

@[simp] theorem Port.trn_setLanes (v : Port) (h : Side) (m : SMap LaneSess) : (v.setLanes h m).trn = v.trn := by
  cases h <;> rfl

@[simp] theorem Port.framed_setLanes (v : Port) (h g : Side) (m : SMap LaneSess) : (v.setLanes h m).framed g = v.framed g := by
  cases h <;> cases g <;> rfl

@[simp] theorem Port.inSession_setFramer (v : Port) (h : Side) (j : Nat) (f : Framer) : (v.setFramer h j f).inSession = v.inSession := by
  cases h <;> rfl

@[simp] theorem Port.framed_setFramer (v : Port) (h g : Side) (j : Nat) (f : Framer) : (v.setFramer h j f).framed g = v.framed g := by
  cases h <;> cases g <;> rfl

/-! ### Valid frames (R53, R55, R159, R174) -/

/-- What of a port the frames of one segment concern: its sessions, the segment's lanes and framers, and that frames came. -/
def Port.segment (v : Port) (h : Side) : (Nat × Bool × Bool) × SMap LaneSess × SMap Framer × Bool :=
  (v.inSession, v.lanes h, v.framers h, v.framed h)

theorem Port.segment_eq_iff {v w : Port} {h : Side} : w.segment h = v.segment h ↔
    w.inSession = v.inSession ∧ w.lanes h = v.lanes h ∧ w.framers h = v.framers h ∧ w.framed h = v.framed h := by
  simp [Port.segment]

theorem Port.framer_congr {v w : Port} {h : Side} (hframers : w.framers h = v.framers h) (j : Nat) : w.framer h j = v.framer h j := by
  rw [Port.framer, Port.framer, hframers]

/-- A valid frame of the line segment's own protocol tells LINE_KIND and the capabilities at most, and ends nothing (R55). -/
theorem State.identify_segment {s : State} {p : PortId} {f : Frame} (hfits : (s.die p.die).frameFits p.key .line f = true) (h : Side) :
    ((s.identify p f).port p).segment h = (s.port p).segment h := by
  unfold State.identify
  extract_lets x fits here t
  split
  · rfl
  · simp only [t, State.onPort_port_same]
    cases h <;> rfl

/-- The port that heard a valid frame of its segment's protocol on a lane (R53, R174). -/
def Port.hears (v : Port) (h : Side) (j pos : Nat) : Port :=
  let w := match h with | .host => { v.heard .host pos with hFrame := true } | .line => { v.heard .line pos with lFrame := true }
  w.setFramer h j ((w.framer h j).take true)

section
variable (v : Port) (h : Side) (j pos : Nat)

@[simp] theorem Port.inSession_hears : (v.hears h j pos).inSession = v.inSession := by cases h <;> rfl

@[simp] theorem Port.lanes_hears : (v.hears h j pos).lanes h = v.lanes h := by cases h <;> rfl

@[simp] theorem Port.framed_hears : (v.hears h j pos).framed h = true := by cases h <;> rfl

@[simp] theorem Port.framer_hears : (v.hears h j pos).framer h j = (v.framer h j).take true := by
  unfold Port.hears
  extract_lets w
  rw [Port.framer_setFramer]
  cases h <;> rfl

@[simp] theorem Port.framers_setLanes (g : Side) (m : SMap LaneSess) : (v.setLanes g m).framers h = v.framers h := by
  cases g <;> cases h <;> rfl

end

theorem Die.frameFits_congr {x y : Die} (hactive : y.active = x.active) (n : Nat) (h : Side) (f : Frame) :
    y.frameFits n h f = x.frameFits n h f := by
  rw [Die.frameFits, Die.frameFits, Die.peerSeg_congr hactive]

/-- What is done for a port's own session alone, and leaves the ports, leaves each lane of the port. -/
theorem State.ifSession_keeps {s t : State} {c : Bool} {k : LaneKind} (hports : t.blk .ports = s.blk .ports) (hc : c = true → k = .session)
    (p : PortId) (h : Side) (j : Nat) : ((if c then t else s).port p = s.port p) ∧
      ((if c then t else s).die p.die).lane p.key h j k = (s.die p.die).lane p.key h j k := by
  split
  · next hyes =>
    obtain rfl := hc hyes
    have hport := State.port_of_blk hports p
    exact ⟨hport, Die.lane_session_congr (congrArg (Port.lanes · h) hport) j⟩
  · exact ⟨rfl, rfl⟩

/-- The fields of a valid frame reach the engine of a lane in a session of kind k, as TRAINING_FRAME has them (R159, R236). -/
def State.presents (s : State) (p : PortId) (h : Side) (j : Nat) (k : LaneKind) (f : Frame) : State :=
  let l := (s.die p.die).lane p.key h j k
  let s := s.setLane p.die p.key h j k (l.present f)
  let s := if k = .session && h == .line && hasGearbox ((s.die p.die).cfga p.key) && j < 4 && ((s.port p).framer h j).locked
      && !(((s.die p.die).course (p.key / 8)).gbxLane j).phase then s.phaseBack p.die p.key j false else s
  if f.peer then s.onPort p (fun v => { v with partnerId := f.session }) else s

/-- The engine has the fields, a peer frame tells the partner's session, and the port and its framers stand (R159, R174). -/
theorem State.presents_spec (s : State) (p : PortId) (h : Side) (j : Nat) (k : LaneKind) (f : Frame)
    (hkind : (s.die p.die).laneKind p.key h j = some k) :
    ((s.presents p h j k f).die p.die).lane p.key h j k = ((s.die p.die).lane p.key h j k).present f ∧
    ((s.presents p h j k f).port p).framers h = (s.port p).framers h ∧
    ((s.presents p h j k f).port p).framed h = (s.port p).framed h ∧
    (f.peer = true → ((s.presents p h j k f).port p).partnerId = f.session) ∧
    ((s.presents p h j k f).die p.die).slices = (s.die p.die).slices := by
  unfold State.presents
  extract_lets l given phased
  have hgiven : (given.die p.die).lane p.key h j k = l.present f :=
    s.setLane_lane p.die (PortId.key_lt p) h (fun hk => Die.phase_lt hkind hk) _
  obtain ⟨m, hm⟩ := s.setLane_port p h j k (l.present f)
  obtain ⟨hport, hlane⟩ := State.ifSession_keeps (s := given) (t := given.phaseBack p.die p.key j false) (k := k)
    (c := decide (k = .session) && h == .line && hasGearbox ((given.die p.die).cfga p.key) && decide (j < 4)
      && ((given.port p).framer h j).locked && !(((given.die p.die).course (p.key / 8)).gbxLane j).phase) (by simp)
    (fun hc => by simp at hc; exact hc.1.1.1.1.1) p h j
  replace hport : phased.port p = (s.port p).setLanes h m := hport.trans hm
  replace hlane : (phased.die p.die).lane p.key h j k = l.present f := hlane.trans hgiven
  have hslices : (phased.die p.die).slices = (s.die p.die).slices :=
    State.slices_of_blk (by unfold phased; split <;> simp [given]) p.die
  clear_value phased
  split
  · have hnoted : ((phased.onPort p fun v => { v with partnerId := f.session }).port p) = { phased.port p with partnerId := f.session } :=
      State.onPort_port_same ..
    refine ⟨?_, ?_, ?_, fun _ => by rw [hnoted], (State.slices_of_blk (by simp) _).trans hslices⟩
    · rw [← hlane]
      exact Die.lane_congr (State.courses_of_blk (by simp) _) (by rw [← State.port, hnoted]; cases h <;> rfl) _ _
    · rw [hnoted, hport]
      cases h <;> rfl
    · rw [hnoted, hport]
      cases h <;> rfl
  · next hp =>
    rw [hport]
    exact ⟨hlane, Port.framers_setLanes .., Port.framed_setLanes .., fun h => absurd h hp, hslices⟩

/-- A valid frame of its segment's protocol, on a lane in a session: the port hears it, the line partner is identified, and
the engine has its fields (R53, R55, R159, R174). -/
theorem execTrainingFrame_valid {s : State} {p : PortId} {h : Side} {j : Pos} {rx : RxFrame} {f : Frame} {k : LaneKind}
    (hup : up s p.die = true) (hen : (s.port p).enabled = true) (hpos : ((s.die p.die).segPos p.key h).contains j.val = true)
    (htest : (s.die p.die).framerTest p.key = false) (hread : readRx rx = some f) (hfits : (s.die p.die).frameFits p.key h f = true)
    (hbeacon : f.peer = true → f.beaconVer ≠ 0) (hkind : (s.die p.die).laneKind p.key h j.val = some k) :
    Completes (.trainingFrame p h j rx) s (fun t =>
      (t.die p.die).lane p.key h j.val k = ((s.die p.die).lane p.key h j.val k).present f ∧
      (t.port p).framer h j.val = ((s.port p).framer h j.val).take true ∧ (t.port p).framed h = true ∧
      (f.peer = true → (t.port p).partnerId = f.session) ∧ (t.die p.die).slices = (s.die p.die).slices) := by
  obtain ⟨hhere, hrun⟩ := up_iff.mp hup
  suffices ∃ t, execTrainingFrame p h j rx s = .next t ∧ _ from this
  have hcond : (present s.part p.die && s.running && (s.port p).enabled && ((s.die p.die).segPos p.key h).contains j.val
    && !(s.die p.die).framerTest p.key) = true := by simp only [hhere, hrun, hen, hpos, htest]; rfl
  unfold execTrainingFrame
  extract_lets d n i bad seen
  rw [if_pos hcond]
  refine ⟨_, rfl, ?_⟩
  split
  · next hnone => simp [hread] at hnone
  next g hg =>
  obtain rfl : f = g := Option.some.inj (hread.symm.trans hg)
  extract_lets fits heard told
  have hfit : fits = true := (Die.frameFits_congr (State.active_of_blk (by simp [seen]) _) _ _ _).trans hfits
  have hheard : heard.port p = (s.port p).hears h j.val s.pos := by
    simp only [heard, seen, State.onPort_port_same, hfit]
    rfl
  have hactive' : (heard.die d).active = (s.die d).active := State.active_of_blk (by simp [heard, seen]) _
  have htold : (told.port p).segment h = ((s.port p).hears h j.val s.pos).segment h := by
    rw [← hheard]
    cases h
    · rfl
    · exact State.identify_segment ((Die.frameFits_congr hactive' _ _ _).trans hfits) _
  have hactive : (told.die d).active = (s.die d).active := State.active_of_blk (by simp [told, heard, seen]) _
  have hcourses : (told.die d).courses = (s.die d).courses := State.courses_of_blk (by simp [told, heard, seen]) _
  have hslices : (told.die d).slices = (s.die d).slices := State.slices_of_blk (by simp [told, heard, seen]) _
  clear_value told heard fits seen bad
  subst hfit
  obtain ⟨hsess, hlanes, hframers, hframed⟩ := Port.segment_eq_iff.mp htold
  have hkind' : (told.die d).laneKind n h i = some k := by
    rw [← hkind]
    exact Die.laneKind_congr hactive hcourses (hsess.trans (Port.inSession_hears ..)) _ _
  have hlane : (told.die d).lane n h i k = (s.die d).lane n h i k :=
    Die.lane_congr hcourses (hlanes.trans (Port.lanes_hears ..)) _ _
  rw [if_neg (by simpa using hbeacon), if_neg (by decide)]
  split
  · next hnone => simp [hkind'] at hnone
  next g hg =>
  obtain rfl : k = g := Option.some.inj (hkind'.symm.trans hg)
  obtain ⟨hpresent, hframers', hframed', hpartner, hslices'⟩ := told.presents_spec p h i k f hkind'
  refine ⟨?_, ?_, hframed'.trans (hframed.trans (Port.framed_hears ..)), hpartner, hslices'.trans hslices⟩
  · exact hpresent.trans (congrArg (LaneSess.present · f) hlane)
  · exact (Port.framer_congr (hframers'.trans hframers) _).trans (Port.framer_hears ..)

/-- A peer segment is a line segment. -/
theorem Die.peerSeg_line {x : Die} {n : Nat} {h : Side} (hpeer : x.peerSeg n h = true) : h = .line := by
  simp only [Die.peerSeg, Bool.and_eq_true, beq_iff_eq] at hpeer
  exact hpeer.1

theorem Completes.mono {c : Instr} {s : State} {P Q : State → Prop} (h : Completes c s P) (hpq : ∀ t, P t → Q t) : Completes c s Q :=
  let ⟨t, ht, hp⟩ := h
  ⟨t, ht, hpq t hp⟩

theorem trainingFrame_standard {s : State} {p : PortId} {h : Side} {j : Pos} {f : StdFrame} {k : LaneKind}
    (hup : up s p.die = true) (hen : (s.port p).enabled = true) (hpos : ((s.die p.die).segPos p.key h).contains j.val = true)
    (htest : (s.die p.die).framerTest p.key = false) (hok : f.ok = true) (hseg : (s.die p.die).peerSeg p.key h = false)
    (hkind : (s.die p.die).laneKind p.key h j.val = some k) :
    Completes (.trainingFrame p h j (.standard f)) s (fun t =>
      (t.die p.die).lane p.key h j.val k = ((s.die p.die).lane p.key h j.val k).present (stdFields f) ∧
      (t.port p).framer h j.val = ((s.port p).framer h j.val).take true ∧
      (t.port p).framed h = true ∧ (t.die p.die).slices = (s.die p.die).slices) := by
  have hread : readRx (.standard f) = some (stdFields f) := by simp [readRx, hok]
  have hfits : (s.die p.die).frameFits p.key h (stdFields f) = true := by simp [Die.frameFits, stdFields, hseg]
  refine (execTrainingFrame_valid hup hen hpos htest hread hfits (fun hp => by simp [stdFields] at hp) hkind).mono ?_
  rintro t ⟨hlane, hframer, hframed, -, hslices⟩
  exact ⟨hlane, hframer, hframed, hslices⟩

theorem trainingFrame_peer {s : State} {p : PortId} {h : Side} {j : Pos} {l : List (Fin 4)} {c w : BitVec 64} {k : LaneKind}
    (hup : up s p.die = true) (hen : (s.port p).enabled = true) (hpos : ((s.die p.die).segPos p.key h).contains j.val = true)
    (htest : (s.die p.die).framerTest p.key = false) (hread : readFrame (l.map (·.val)) = some (c, w))
    (hbeacon : (peerFields c w).beaconVer ≠ 0) (hseg : (s.die p.die).peerSeg p.key h = true)
    (hkind : (s.die p.die).laneKind p.key h j.val = some k) :
    Completes (.trainingFrame p h j (.peer l)) s (fun t =>
      (t.die p.die).lane p.key h j.val k = ((s.die p.die).lane p.key h j.val k).present (peerFields c w) ∧
      (t.port p).framer h j.val = ((s.port p).framer h j.val).take true ∧ (t.port p).partnerId = (peerFields c w).session ∧
      (t.port p).lFrame = true ∧ (t.die p.die).slices = (s.die p.die).slices) := by
  obtain rfl := Die.peerSeg_line hseg
  have hread' : readRx (.peer l) = some (peerFields c w) := by simp [readRx, hread]
  have hfits : (s.die p.die).frameFits p.key .line (peerFields c w) = true := by simp [Die.frameFits, peerFields, hseg]
  refine (execTrainingFrame_valid hup hen hpos htest hread' hfits (fun _ => hbeacon) hkind).mono ?_
  rintro t ⟨hlane, hframer, hframed, hpartner, hslices⟩
  exact ⟨hlane, hframer, hpartner rfl, hframed, hslices⟩

/-- A bad frame is discarded, and counted by the framer and the port (R159, R174). -/
theorem trainingFrame_bad {s : State} {p : PortId} {h : Side} {j : Pos} {f : RxFrame}
    (hup : up s p.die = true) (hen : (s.port p).enabled = true) (hpos : ((s.die p.die).segPos p.key h).contains j.val = true)
    (htest : (s.die p.die).framerTest p.key = false) (hread : readRx f = none) :
    Completes (.trainingFrame p h j f) s (fun t =>
      t = (s.onPort p (fun v => v.setFramer h j.val ((v.framer h j.val).take false))).count p.die (cTrain p.course.val p.idx.val + 0xC)) := by
  obtain ⟨hhere, hrun⟩ := up_iff.mp hup
  have hcond : (present s.part p.die && s.running && (s.port p).enabled && ((s.die p.die).segPos p.key h).contains j.val
    && !(s.die p.die).framerTest p.key) = true := by simp only [hhere, hrun, hen, hpos, htest]; rfl
  suffices ∃ t, execTrainingFrame p h j f s = .next t ∧ _ from this
  unfold execTrainingFrame
  extract_lets d n i bad seen
  rw [if_pos hcond]
  refine ⟨_, rfl, ?_⟩
  split
  · rfl
  · next hsome => simp [hread] at hsome

/-! ### Frame lock -/

/-- FRAME_LOCK in a session: the lane leaves SEEK, for HOLD on the segment that kept its lanes (R161, R174, R182). -/
theorem frameLock_session {s : State} {p : PortId} {h : Side} {j : Pos} {a : Nat} {k : LaneKind}
    (hup : up s p.die = true) (hen : (s.port p).enabled = true) (hpos : ((s.die p.die).segPos p.key h).contains j.val = true)
    (hopen : ((s.port p).framer h j.val).locked = false)
    (hvalid : (s.die p.die).lockFrames p.key h ≤ ((s.port p).framer h j.val).valid)
    (hkind : (s.die p.die).laneKind p.key h j.val = some k) (hseek : ((s.die p.die).lane p.key h j.val k).state = 1) :
    Completes (.frameLock p h j a) s (fun t =>
      (t.port p).framer h j.val = { ((s.port p).framer h j.val) with locked := true, arrival := a } ∧
      (t.die p.die).lane p.key h j.val k = { (s.die p.die).lane p.key h j.val k with
        flock := true, arrival := a, state := if k = .session ∧ (s.port p).kept = some h then 3 else 2 }) := by
  obtain ⟨hhere, hrun⟩ := up_iff.mp hup
  suffices ∃ t, execFrameLock p h j a s = .next t ∧ _ from this
  have hcond : (present s.part p.die && s.running && (s.port p).enabled && ((s.die p.die).segPos p.key h).contains j.val
    && !((s.port p).framer h j.val).locked && decide ((s.die p.die).lockFrames p.key h ≤ ((s.port p).framer h j.val).valid)) = true := by
    simp only [hhere, hrun, hen, hpos, hopen, hvalid]
    rfl
  unfold execFrameLock
  extract_lets d n i f locked
  rw [if_pos hcond]
  refine ⟨_, rfl, ?_⟩
  have hport : locked.port p = (s.port p).setFramer h i { f with locked := true, arrival := a } := State.onPort_port_same ..
  have hcourses : (locked.die d).courses = (s.die d).courses := State.courses_of_blk (by simp [locked]) _
  have hkind' : (locked.die d).laneKind n h i = some k := by
    rw [← hkind]
    exact Die.laneKind_congr (State.active_of_blk (by simp [locked]) _) hcourses
      (by rw [← State.port, hport]; exact Port.inSession_setFramer ..) _ _
  have hlane : (locked.die d).lane n h i k = (s.die d).lane n h i k :=
    Die.lane_congr hcourses (by rw [← State.port, hport]; exact Port.lanes_setFramer ..) _ _
  split
  case h_2 hnone => simp [hkind'] at hnone
  next g hg =>
  obtain rfl : k = g := Option.some.inj (hkind'.symm.trans hg)
  extract_lets l state moved measured
  have hstate : l.state = 1 := by rw [← hseek]; exact congrArg LaneSess.state hlane
  have hmoved : (moved.die d).lane n h i k = { l with flock := true, state := state, arrival := a } :=
    locked.setLane_lane d (PortId.key_lt p) h (fun hk => Die.phase_lt hkind' hk) _
  have hstate' : state = if k = .session ∧ (s.port p).kept = some h then 3 else 2 := by
    have hkept : (locked.port p).kept = (s.port p).kept := by rw [hport]; cases h <;> rfl
    simp only [state, hstate, hkept, Bool.and_eq_true, decide_eq_true_eq]
    rfl
  obtain ⟨m, hm⟩ := locked.setLane_port p h i k { l with flock := true, state := state, arrival := a }
  have hmeasured := State.ifSession_keeps (s := moved) (t := moved.latMeasure d n) (k := k)
    (c := decide (k = .session) && h == .line) (by simp) (fun hc => by simp at hc; exact hc.1) p h i
  have hphased := State.ifSession_keeps (s := measured) (t := measured.phaseBack d n i false) (k := k)
    (c := decide (k = .session) && h == .line && hasGearbox ((measured.die d).cfga n) && decide (i < 4)) (by simp)
    (fun hc => by simp at hc; exact hc.1.1.1) p h i
  rw [if_neg (by simp [hstate])]
  constructor
  · rw [hphased.1, hmeasured.1, hm, hport, Port.framer_setLanes, Port.framer_setFramer]
  · rw [hphased.2, hmeasured.2, hmoved, hstate', show l = _ from hlane]

/-! ### Frames outside a session, and what ends (R161, R177, R237) -/

theorem Port.enabled_of_carrying {v : Port} (h : v.carrying = true) : v.enabled = true := by
  simp only [Port.carrying, Bool.or_eq_true, beq_iff_eq] at h
  simp only [Port.enabled, bne_iff_ne]
  omega

/-- A port without lattice is not its course's lattice port. -/
theorem Die.lattice_acts_false {x : Die} {n c : Nat} (hlat : hasLattice (x.cfga n) = false) (b : Bool) :
    (x.latOn c && decide (x.latKey c = n) && b) = false := by
  by_cases hkey : x.latKey c = n
  · simp [Die.latOn, hkey, hlat]
  · simp [hkey]

/-- A gearbox lane whose phase is held is one of the four. -/
theorem Course.gbxLane_lt {v : Course} {k : Nat} (h : (v.gbxLane k).phase = true) : k < 4 := by
  by_contra hk
  have hnone : v.gbx[k]? = none := by simp; omega
  simp [Course.gbxLane, hnone] at h

/-- A phase that is lost is not held (R237). -/
theorem State.phaseLost_phase (s : State) (p : PortId) {j : Nat} (hj : j < 4) :
    ((((s.phaseLost p.die p.key j).die p.die).course p.course.val).gbxLane j).phase = false := by
  unfold State.phaseLost
  extract_lets c g lost counted
  split
  · next hphase => simpa [g, c, PortId.key_div] using hphase
  · have hcourses : ((counted.postPort (portId p.die p.key) 0x41 j).die p.die).courses = (lost.die p.die).courses :=
      State.courses_of_blk (by simp [counted]) _
    rw [Die.course_congr hcourses]
    simp [lost, State.setCourse, PortId.key_div, Course.gbxLane_setIfInBounds _ hj]

/-- A lane of a carrying gearbox port whose phase is held: what a framer that locks there brings (R236, R237). -/
theorem State.lockActs_gearbox (s : State) (p : PortId) {j : Nat} (hj : j < 4) (hlat : hasLattice ((s.die p.die).cfga p.key) = false)
    (hphase : (((s.die p.die).course p.course.val).gbxLane j).phase = true) :
    ((((s.lockActs p.die p.key j).die p.die).course p.course.val).gbxLane j).phase = false ∧
      bit ((s.lockActs p.die p.key j).port p).lLost j = true := by
  unfold State.lockActs
  extract_lets c x
  have hc : c = p.course.val := PortId.key_div p
  rw [if_neg (by rw [Die.lattice_acts_false hlat]; decide), if_pos (by simpa only [hc, x] using hphase), portId_of_key]
  have hlose (t : State) : ((t.loseLanes p [j]).die p.die).courses = (t.die p.die).courses := State.courses_of_blk (by simp) _
  constructor
  · rw [Die.course_congr (hlose _)]
    exact s.phaseLost_phase p hj
  · rw [State.loseLanes, State.onPort_port_same]
    simp only [List.foldl_cons, List.foldl_nil]
    split
    · assumption
    · simp [bit]

/-- What a framer that locks does outside any session, on a gearbox lane that carries: the lane is lost with its phase (R237). -/
theorem frameLock_gearbox {s : State} {p : PortId} {j : Pos} {a : Nat}
    (hup : up s p.die = true) (hcarry : (s.port p).carrying = true) (hpos : ((s.die p.die).segPos p.key .line).contains j.val = true)
    (hopen : ((s.port p).framer .line j.val).locked = false)
    (hvalid : (s.die p.die).lockFrames p.key .line ≤ ((s.port p).framer .line j.val).valid)
    (hkind : (s.die p.die).laneKind p.key .line j.val = none) (hgbx : hasGearbox ((s.die p.die).cfga p.key) = true)
    (hlat : hasLattice ((s.die p.die).cfga p.key) = false) (hline : ((s.die p.die).portLine p.key).contains j.val = true)
    (hphase : (((s.die p.die).course p.course.val).gbxLane j.val).phase = true) :
    Completes (.frameLock p .line j a) s (fun t =>
      (((t.die p.die).course p.course.val).gbxLane j.val).phase = false ∧ bit (t.port p).lLost j.val = true) := by
  obtain ⟨hhere, hrun⟩ := up_iff.mp hup
  suffices ∃ t, execFrameLock p .line j a s = .next t ∧ _ from this
  have hcond : (present s.part p.die && s.running && (s.port p).enabled && ((s.die p.die).segPos p.key .line).contains j.val
    && !((s.port p).framer .line j.val).locked
    && decide ((s.die p.die).lockFrames p.key .line ≤ ((s.port p).framer .line j.val).valid)) = true := by
    simp only [hhere, hrun, Port.enabled_of_carrying hcarry, hpos, hopen, hvalid]
    rfl
  unfold execFrameLock
  extract_lets d n i f locked
  rw [if_pos hcond]
  refine ⟨_, rfl, ?_⟩
  have hport : locked.port p = (s.port p).setFramer .line i { f with locked := true, arrival := a } := State.onPort_port_same ..
  have hactive : (locked.die d).active = (s.die d).active := State.active_of_blk (by simp [locked]) _
  have hcourses : (locked.die d).courses = (s.die d).courses := State.courses_of_blk (by simp [locked]) _
  have hsess : (locked.port p).inSession = (s.port p).inSession := by rw [hport]; exact Port.inSession_setFramer ..
  have hnone : (locked.die d).laneKind n .line i = none := (Die.laneKind_congr hactive hcourses hsess _ _).trans hkind
  have hlat' : hasLattice ((locked.die d).cfga n) = false := by rw [Die.cfga_congr hactive]; exact hlat
  have hacts : (locked.die d).lockActs n .line i = true := by
    have hcarry' : ((locked.die d).port n).carrying = true := by rw [← State.port, hport]; exact hcarry
    unfold Die.lockActs
    extract_lets c
    rw [if_neg (by rw [Die.lattice_acts_false hlat']; decide), hcarry', Die.cfga_congr hactive, Die.portLine_congr hactive, hgbx, hline]
    rfl
  have hphase' : (((locked.die d).course p.course.val).gbxLane i).phase = true := by rw [Die.course_congr hcourses]; exact hphase
  split
  · next hsome => simp [hnone] at hsome
  · rw [if_pos hacts]
    exact locked.lockActs_gearbox p (Course.gbxLane_lt hphase) hlat' hphase'

/-- FRAME_LOCK_LOST of a lane in ACQUIRE, HOLD or READY returns it to SEEK (R161, R174). -/
theorem frameLockLost_session {s : State} {p : PortId} {h : Side} {j : Pos} {k : LaneKind}
    (hup : up s p.die = true) (hen : (s.port p).enabled = true) (hlocked : ((s.port p).framer h j.val).locked = true)
    (hbad : (s.die p.die).loseFrames p.key h ≤ ((s.port p).framer h j.val).bad)
    (hkind : (s.die p.die).laneKind p.key h j.val = some k) (hflock : ((s.die p.die).lane p.key h j.val k).flock = true)
    (hlow : 2 ≤ ((s.die p.die).lane p.key h j.val k).state) (hhigh : ((s.die p.die).lane p.key h j.val k).state ≤ 4) :
    Completes (.frameLockLost p h j) s (fun t => ((t.port p).framer h j.val).locked = false ∧
      (t.die p.die).lane p.key h j.val k = { (s.die p.die).lane p.key h j.val k with flock := false, state := 1, rrTx := false }) := by
  obtain ⟨hhere, hrun⟩ := up_iff.mp hup
  suffices ∃ t, execFrameLockLost p h j s = .next t ∧ _ from this
  have hcond : (present s.part p.die && s.running && (s.port p).enabled && ((s.port p).framer h j.val).locked
    && decide ((s.die p.die).loseFrames p.key h ≤ ((s.port p).framer h j.val).bad)) = true := by
    simp only [hhere, hrun, hen, hlocked, hbad]
    rfl
  unfold execFrameLockLost
  extract_lets d n f lost
  rw [if_pos hcond]
  refine ⟨_, rfl, ?_⟩
  have hport : lost.port p = (s.port p).setFramer h j.val { f with locked := false } := State.onPort_port_same ..
  have hcourses : (lost.die d).courses = (s.die d).courses := State.courses_of_blk (by simp [lost]) _
  have hkind' : (lost.die d).laneKind n h j.val = some k := by
    rw [← hkind]
    exact Die.laneKind_congr (State.active_of_blk (by simp [lost]) _) hcourses
      (by rw [← State.port, hport]; exact Port.inSession_setFramer ..) _ _
  have hlane : (lost.die d).lane n h j.val k = (s.die d).lane n h j.val k :=
    Die.lane_congr hcourses (by rw [← State.port, hport]; exact Port.lanes_setFramer ..) _ _
  split
  · next hnone => simp [hkind'] at hnone
  next g hg =>
  obtain rfl : k = g := Option.some.inj (hkind'.symm.trans hg)
  extract_lets l back
  have hl : l = (s.die p.die).lane p.key h j.val k := hlane
  have hback : back = true := by simp [back, hl, hlow, hhigh]
  rw [if_neg (by simp [hl, hflock])]
  obtain ⟨m, hm⟩ := lost.setLane_port p h j.val k { l with flock := false, state := if back = true then 1 else l.state, rrTx := l.rrTx && !back }
  constructor
  · rw [hm, hport, Port.framer_setLanes, Port.framer_setFramer]
  · rw [lost.setLane_lane d (PortId.key_lt p) h (fun hk => Die.phase_lt hkind' hk), hback, hl, if_pos rfl, Bool.not_true, Bool.and_false]

/-- A request unanswered for 1,024 strokes ends the device's requests (R177). -/
theorem requestAbandoned_session {s : State} {p : PortId} {h : Side} {j : Pos} {k : LaneKind}
    (hup : up s p.die = true) (hkind : (s.die p.die).laneKind p.key h j.val = some k)
    (hopen : ((s.die p.die).lane p.key h j.val k).reqOpen = true)
    (hfrom : ((s.die p.die).lane p.key h j.val k).reqFrom + 1024 ≤ s.stroke p.die) :
    Completes (.requestAbandoned p h j) s (fun t =>
      (t.die p.die).lane p.key h j.val k = { (s.die p.die).lane p.key h j.val k with reqOpen := false, reqDone := true }) := by
  obtain ⟨hhere, hrun⟩ := up_iff.mp hup
  suffices ∃ t, execRequestAbandoned p h j s = .next t ∧ _ from this
  unfold execRequestAbandoned
  extract_lets d
  rw [if_pos (by rw [hhere, hrun]; rfl)]
  refine ⟨_, rfl, ?_⟩
  split
  · next hnone => cases hkind.symm.trans hnone
  next g hg =>
  obtain rfl : k = g := Option.some.inj (hkind.symm.trans hg)
  extract_lets l
  rw [if_pos (by rw [Bool.and_eq_true, decide_eq_true_eq]; exact ⟨hopen, hfrom⟩)]
  exact s.setLane_lane d (PortId.key_lt p) h (fun hk => Die.phase_lt hkind hk) _

/-! ### Frames in service (R168) -/

/-- The lanes of a segment on which frames have been seen in service (R168). -/
def Port.inService (v : Port) : Side → Nat
  | .host => v.svcH
  | .line => v.svcL

/-- The port that has noted frames in service on a lane. -/
def Port.service (v : Port) (j : Nat) : Side → Port
  | .host => { v with svcH := v.svcH ||| 2 ^ j }
  | .line => { v with svcL := v.svcL ||| 2 ^ j }

@[simp] theorem Port.inService_service (v : Port) (j : Nat) (h : Side) : (v.service j h).inService h = v.inService h ||| 2 ^ j := by
  cases h <;> rfl

@[simp] theorem Port.state_service (v : Port) (j : Nat) (h : Side) : (v.service j h).state = v.state := by cases h <;> rfl

/-- Frames in service on a lane are noted, and told for the first lane of the segment (R168). -/
theorem framesInService_next {s : State} {p : PortId} {h : Side} {j : Pos}
    (hup : up s p.die = true) (hcarry : (s.port p).carrying = true) (hpos : ((s.die p.die).segPos p.key h).contains j.val = true)
    (hkind : (s.die p.die).laneKind p.key h j.val = none) (hacts : (s.die p.die).lockActs p.key h j.val = false)
    (hvalid : (s.die p.die).lockFrames p.key h ≤ ((s.port p).framer h j.val).valid)
    (hnew : bit ((s.port p).inService h) j.val = false) :
    exec (.framesInService p h j) s = .next (if (s.port p).inService h = 0 then
      (s.onPort p (fun v => v.service j.val h)).postPort p 0x14 (Side.code h + 2 * j.val) else s.onPort p (fun v => v.service j.val h)) := by
  obtain ⟨hhere, hrun⟩ := up_iff.mp hup
  have hcond : (present s.part p.die && s.running && (s.port p).carrying && !bit ((s.port p).inService h) j.val
      && ((s.die p.die).segPos p.key h).contains j.val && ((s.die p.die).laneKind p.key h j.val).isNone
      && !(s.die p.die).lockActs p.key h j.val && decide ((s.die p.die).lockFrames p.key h ≤ ((s.port p).framer h j.val).valid)) = true := by
    simp only [hhere, hrun, hcarry, hnew, hpos, hkind, hacts, hvalid]
    rfl
  change execFramesInService p h j s = _
  unfold execFramesInService
  cases h
  all_goals
    extract_lets v i seen noted
    exact congrArg _ (if_pos hcond)

theorem framesInService_first {s : State} {p : PortId} {h : Side} {j : Pos}
    (hup : up s p.die = true) (hcarry : (s.port p).carrying = true) (hpos : ((s.die p.die).segPos p.key h).contains j.val = true)
    (hkind : (s.die p.die).laneKind p.key h j.val = none) (hacts : (s.die p.die).lockActs p.key h j.val = false)
    (hvalid : (s.die p.die).lockFrames p.key h ≤ ((s.port p).framer h j.val).valid) (hnone : (s.port p).inService h = 0) :
    Posts (.framesInService p h j) s p.die (296 + p.key) 0x14 (Side.code h + 2 * j.val) (fun u =>
      (u.port p).inService h = 2 ^ j.val ∧ (u.port p).state = (s.port p).state) := by
  refine Posts.of _ ((framesInService_next hup hcarry hpos hkind hacts hvalid (by simp [hnone, bit])).trans (congrArg _ (if_pos hnone))) ?_
  rw [State.onPort_port_same, Port.inService_service, hnone, Port.state_service]
  simp

theorem framesInService_again {s : State} {p : PortId} {h : Side} {j : Pos}
    (hup : up s p.die = true) (hcarry : (s.port p).carrying = true) (hpos : ((s.die p.die).segPos p.key h).contains j.val = true)
    (hkind : (s.die p.die).laneKind p.key h j.val = none) (hacts : (s.die p.die).lockActs p.key h j.val = false)
    (hvalid : (s.die p.die).lockFrames p.key h ≤ ((s.port p).framer h j.val).valid) (hsome : (s.port p).inService h ≠ 0)
    (hnew : bit ((s.port p).inService h) j.val = false) :
    Completes (.framesInService p h j) s (fun t => (t.port p).inService h = (s.port p).inService h ||| 2 ^ j.val ∧
      (t.port p).state = (s.port p).state ∧ ∀ d : DieId, (t.die d).evt = (s.die d).evt) := by
  refine Completes.of _ ((framesInService_next hup hcarry hpos hkind hacts hvalid hnew).trans (congrArg _ (if_neg hsome))) ?_
  rw [State.onPort_port_same, Port.inService_service, Port.state_service]
  exact ⟨rfl, rfl, State.evt_of_blk (by simp)⟩

/-! ### Outgoing frames (R160, R175, R176, R180) -/

/-- The taps of a transmitter are registers of its own. -/
theorem Die.act_setTaps (x : Die) (t : Nat) (l : List Half) {o : Nat} (ho : o < 0x50000) : (x.setTaps t l).act o = x.act o := by
  unfold Die.setTaps
  generalize (List.range 6).zip l = ps
  induction ps generalizing x with
  | nil => rfl
  | cons q ps ih =>
    rw [List.foldl_cons, ih]
    exact Die.act_setAct_ne _ _ _ _ (by unfold oTap oTx; omega)

theorem Die.peerSeg_setTaps (x : Die) (p : PortId) (t : Nat) (l : List Half) (h : Side) :
    (x.setTaps t l).peerSeg p.key h = x.peerSeg p.key h := by
  have := PortId.key_lt p
  rw [Die.peerSeg, Die.peerSeg, Die.cfgb, Die.cfgb, Die.act_setTaps _ _ _ (by unfold oCfgb oPort; omega)]

theorem Die.serving_congr {x y : Die} (hside : ∀ c h, (y.course c).side h = (x.course c).side h) (c : Nat) (h : Side) (j : Nat) :
    y.serving c h j = x.serving c h j := by
  rw [Die.serving, Die.serving, hside]

/-- A course written with the sides it has: each course has the sides it had. -/
theorem State.setCourse_side (s : State) (d : DieId) (a : Nat) {v : Course} (hv : ∀ g, v.side g = ((s.die d).course a).side g) (c : Nat)
    (g : Side) : (((s.setCourse d a v).die d).course c).side g = ((s.die d).course c).side g := by
  by_cases hc : c = a
  · subst hc
    simp [State.setCourse, hv]
  · simp [State.setCourse, hc]

/-- Writing a lane leaves the sides of the courses. -/
theorem State.setLane_side (s : State) (d : DieId) (n : Nat) (h : Side) (j : Nat) (k : LaneKind) (l : LaneSess) (c : Nat) (g : Side) :
    (((s.setLane d n h j k l).die d).course c).side g = ((s.die d).course c).side g := by
  cases k with
  | session => rw [Die.course_congr (State.courses_of_blk (s := s) (by simp [State.setLane]) d)]
  | lattice => exact s.setCourse_side d _ (fun g => by cases g <;> rfl) c g
  | phase => exact s.setCourse_side d _ (fun g => by cases g <;> rfl) c g

theorem Die.control_congr {x y : Die} {n : Nat} (hactive : y.active = x.active) (htrn : (y.port n).trn = (x.port n).trn) (j : Nat)
    (l : LaneSess) : y.control n j l = x.control n j l := by
  unfold Die.control Die.trnCfg
  rw [Die.cfga_congr hactive, htrn]

theorem Die.status_congr {x y : Die} {n : Nat} (hslices : y.slices = x.slices)
    (hside : ∀ c h, (y.course c).side h = (x.course c).side h) (j : Nat) (l : LaneSess) : y.status n j l = x.status n j l := by
  unfold Die.status
  rw [Die.serving_congr hside, Die.slice, hslices, ← Die.slice]

/-- Writing a lane leaves the control field that its session gives. -/
theorem State.setLane_control (s : State) (p : PortId) (h : Side) (j : Nat) (k : LaneKind) (l : LaneSess) (i : Nat) (m : LaneSess) :
    ((s.setLane p.die p.key h j k l).die p.die).control p.key i m = (s.die p.die).control p.key i m := by
  obtain ⟨lanes, hport⟩ := s.setLane_port p h j k l
  exact Die.control_congr (State.active_of_blk (by simp) _) ((congrArg Port.trn hport).trans (Port.trn_setLanes ..)) i m

/-- Writing a lane leaves the status field that its session gives. -/
theorem State.setLane_status (s : State) (p : PortId) (h : Side) (j : Nat) (k : LaneKind) (l : LaneSess) (i : Nat) (m : LaneSess) :
    ((s.setLane p.die p.key h j k l).die p.die).status p.key i m = (s.die p.die).status p.key i m :=
  Die.status_congr (State.slices_of_blk (by simp) _) (s.setLane_side p.die p.key h j k l) i m

/-- The peer frame being sent on a lane carries the control and status fields of this moment. -/
def State.framed (s : State) (p : PortId) (h : Side) (j : Nat) (k : LaneKind) : Prop :=
  ((s.die p.die).lane p.key h j k).sentCtl = (s.die p.die).control p.key j ((s.die p.die).lane p.key h j k) ∧
  ((s.die p.die).lane p.key h j k).sentSts = (s.die p.die).status p.key j ((s.die p.die).lane p.key h j k)

/-- The frame that begins on a lane changes nothing of its session but the fields sent, and they are those of this moment. -/
theorem State.frameBegin_lane (s : State) (p : PortId) (h : Side) {j : Nat} {k : LaneKind} (hj : k = .phase → j < 4) :
    ((s.frameBegin p.die p.key h j k).die p.die).lane p.key h j k = { (s.die p.die).lane p.key h j k with
      sentCtl := (((s.frameBegin p.die p.key h j k).die p.die).lane p.key h j k).sentCtl,
      sentSts := (((s.frameBegin p.die p.key h j k).die p.die).lane p.key h j k).sentSts } ∧
    ((s.die p.die).peerSeg p.key h = true → (s.frameBegin p.die p.key h j k).framed p h j k) := by
  unfold State.framed State.frameBegin
  extract_lets x l
  split
  · rw [s.setLane_lane p.die (PortId.key_lt p) h hj, s.setLane_control, s.setLane_status]
    exact ⟨rfl, fun _ => ⟨rfl, rfl⟩⟩
  · next hstd => exact ⟨rfl, fun hpeer => absurd hpeer hstd⟩

/-- A lane with the control and status fields of the frame that it begins. -/
def LaneSess.sending (l : LaneSess) (c w : BitVec 64) : LaneSess := { l with sentCtl := c, sentSts := w }

/-- A lane is written, and its next frame begins. -/
theorem State.frameBegin_setLane (s : State) (p : PortId) (h : Side) {j : Nat} {k : LaneKind} (hj : k = .phase → j < 4) (m : LaneSess) :
    ∃ c w, (((s.setLane p.die p.key h j k m).frameBegin p.die p.key h j k).die p.die).lane p.key h j k = m.sending c w ∧
      ((s.die p.die).peerSeg p.key h = true → ((s.setLane p.die p.key h j k m).frameBegin p.die p.key h j k).framed p h j k) := by
  obtain ⟨hlane, hframed⟩ := (s.setLane p.die p.key h j k m).frameBegin_lane p h hj
  rw [s.setLane_lane p.die (PortId.key_lt p) h hj] at hlane
  rw [Die.peerSeg_congr (State.active_of_blk (s := s) (by simp) _)] at hframed
  exact ⟨_, _, hlane, hframed⟩

theorem State.segReady_port (s : State) (p : PortId) (h : Side) :
    ((s.segReady p h).port p).trn = (s.port p).trn ∧ ∀ g, ((s.segReady p h).port p).lanes g = (s.port p).lanes g := by
  unfold State.segReady
  extract_lets v had t ready
  have hready : (ready.port p).trn = (s.port p).trn ∧ ∀ g, (ready.port p).lanes g = (s.port p).lanes g := by
    simp only [ready, State.onPort_port_same]
    cases h <;> exact ⟨rfl, fun g => by cases g <;> rfl⟩
  split
  · exact ⟨rfl, fun _ => rfl⟩
  · have hport : (ready.postPort p 0x11 (Side.code h + 256 * min t 16777215)).port p = ready.port p := State.port_of_blk (by simp) p
    rw [hport]
    exact hready

/-- That a segment becomes ready changes no lane, and nothing that its frames say. -/
theorem State.segReady_lane (s : State) (p : PortId) (h : Side) (j : Nat) (k : LaneKind) :
    ((s.segReady p h).die p.die).lane p.key h j k = (s.die p.die).lane p.key h j k ∧
      (s.framed p h j k → (s.segReady p h).framed p h j k) := by
  obtain ⟨htrn, hlanes⟩ := s.segReady_port p h
  have hactive : ((s.segReady p h).die p.die).active = (s.die p.die).active := State.active_of_blk (by simp) _
  have hcourses : ((s.segReady p h).die p.die).courses = (s.die p.die).courses := State.courses_of_blk (by simp) _
  have hslices : ((s.segReady p h).die p.die).slices = (s.die p.die).slices := State.slices_of_blk (by simp) _
  have hlane : ((s.segReady p h).die p.die).lane p.key h j k = (s.die p.die).lane p.key h j k := Die.lane_congr hcourses (hlanes h) j k
  refine ⟨hlane, fun hframed => ?_⟩
  unfold State.framed
  rw [hlane, Die.control_congr hactive htrn, Die.status_congr hslices fun c g => by rw [Die.course_congr hcourses]]
  exact hframed

/-- What a lane's frame ends with: the taps that answered a request take effect, and the last symbol is noted (R160, R167). -/
def State.frameOver (s : State) (p : PortId) (h : Side) (j : Nat) (k : LaneKind) (l : LaneSess) : State :=
  (match l.pendTaps with | some w => s.onDie p.die (fun x => x.setTaps (txOf (p.key / 8) h j) w) | none => s).frameEnd p.die p.key h j k l

theorem State.frameOver_peerSeg (s : State) (p : PortId) (h : Side) (j : Nat) (k : LaneKind) (l : LaneSess) :
    ((s.frameOver p h j k l).die p.die).peerSeg p.key h = (s.die p.die).peerSeg p.key h := by
  unfold State.frameOver
  rw [Die.peerSeg_congr (State.active_of_blk (State.frameEnd_blk _ _ _ _ _ _ _ (by simp)) _)]
  cases l.pendTaps with
  | none => rfl
  | some w => simp only [State.die_onDie_same, Die.peerSeg_setTaps]

/-- A lane in ENDING after the end of a frame: the countdown goes down, and the last makes it DONE (R164, R180). -/
def LaneSess.countedDown (l : LaneSess) : LaneSess :=
  if 1 < l.count then { l with pendTaps := none, frames := l.frames + 1, count := l.count - 1 }
  else { l with pendTaps := none, frames := l.frames + 1, count := 0, state := 6 }

/-- At the end of an outgoing frame in ENDING the countdown goes down, and the next peer frame carries the fields of this moment
(R160, R164, R175, R176, R180). -/
theorem outgoingFrameBoundary_ending {s : State} {p : PortId} {h : Side} {j : Pos} {k : LaneKind}
    (hup : up s p.die = true) (hkind : (s.die p.die).laneKind p.key h j.val = some k)
    (hending : ((s.die p.die).lane p.key h j.val k).state = 5) :
    Completes (.outgoingFrameBoundary p h j) s (fun t =>
      (∃ c w, (t.die p.die).lane p.key h j.val k = ((s.die p.die).lane p.key h j.val k).countedDown.sending c w) ∧
      ((s.die p.die).peerSeg p.key h = true → t.framed p h j.val k)) := by
  obtain ⟨hhere, hrun⟩ := up_iff.mp hup
  suffices ∃ t, execOutgoingFrameBoundary p h j s = .next t ∧ _ from this
  unfold execOutgoingFrameBoundary
  extract_lets d n i t
  rw [if_pos (by rw [hhere, hrun]; rfl)]
  refine ⟨_, rfl, ?_⟩
  split
  · next hnone => cases hkind.symm.trans hnone
  next g hg =>
  obtain rfl : k = g := Option.some.inj (hkind.symm.trans hg)
  have hj : k = .phase → i < 4 := fun hk => Die.phase_lt hkind hk
  extract_lets l tapped gone ended last
  have hpeer : (gone.die d).peerSeg n h = (s.die d).peerSeg n h := s.frameOver_peerSeg p h i k l
  clear_value gone
  rw [if_pos hending]
  split
  · next hmany =>
    obtain ⟨c, w, hlane, hframed⟩ := gone.frameBegin_setLane p h hj { ended with count := ended.count - 1 }
    refine ⟨⟨c, w, ?_⟩, fun hp => hframed (hpeer.trans hp)⟩
    unfold LaneSess.countedDown
    rw [if_pos hmany]
    exact hlane
  · next hlast =>
    obtain ⟨c, w, hlane, hframed⟩ := gone.frameBegin_setLane p h hj { ended with count := 0, state := 6 }
    replace hlane : (last.die d).lane n h i k = ((s.die p.die).lane p.key h j.val k).countedDown.sending c w := by
      unfold LaneSess.countedDown
      rw [if_neg hlast]
      exact hlane
    obtain ⟨hlane', hframed'⟩ := last.segReady_lane p h i k
    split
    · exact ⟨⟨c, w, hlane'.trans hlane⟩, fun hp => hframed' (hframed (hpeer.trans hp))⟩
    · exact ⟨⟨c, w, hlane⟩, fun hp => hframed (hpeer.trans hp)⟩

end Sys2Proof.Machine
end

section
/-! PROOFS. Training events (R159 to R161, R164, R168, R174 to R177, R180, R236, R237). -/

open Sys2Proof Sys2Proof.Machine

/-- Settles O31: frames, frame lock and requests of a lane in a session, and the ends of its outgoing frames. -/
theorem trainingEvents : Obligations.TrainingEvents := by
  unfold Obligations.TrainingEvents
  refine ⟨?_, ?_, ?_, ?_, ?_, ?_, ?_, ?_, ?_, ?_, ?_⟩
  · intro s p h j f k hup hen hpos htest hok hseg hkind
    exact trainingFrame_standard hup hen hpos htest hok hseg hkind
  · intro s p h j l c w k hup hen hpos htest hread hbeacon hseg hkind
    exact trainingFrame_peer hup hen hpos htest hread hbeacon hseg hkind
  · intro s p h j f hup hen hpos htest hread
    exact trainingFrame_bad hup hen hpos htest hread
  · intro s p h j a k hup hen hpos hopen hvalid hkind hseek
    exact frameLock_session hup hen hpos hopen hvalid hkind hseek
  · intro s p j a hup hcarry hpos hopen hvalid hkind hgbx hlat hline hphase
    exact frameLock_gearbox hup hcarry hpos hopen hvalid hkind hgbx hlat hline hphase
  · intro s p h j k hup hen hlocked hbad hkind hflock hlow hhigh
    exact frameLockLost_session hup hen hlocked hbad hkind hflock hlow hhigh
  · intro s p h j k hup hkind hopen hfrom
    exact requestAbandoned_session hup hkind hopen hfrom
  · intro s p h j hup hcarry hpos hkind hacts hvalid hnone
    cases h <;> exact framesInService_first hup hcarry hpos hkind hacts hvalid hnone
  · intro s p h j hup hcarry hpos hkind hacts hvalid hsome hnew
    cases h <;> exact framesInService_again hup hcarry hpos hkind hacts hvalid hsome hnew
  · intro s p h j k hup hkind hending hmany
    refine (outgoingFrameBoundary_ending hup hkind hending).mono ?_
    rintro t ⟨⟨c, w, hlane⟩, hframed⟩
    refine ⟨?_, hframed⟩
    rw [hlane, LaneSess.countedDown, if_pos hmany]
    rfl
  · intro s p h j k hup hkind hending hlast
    refine (outgoingFrameBoundary_ending hup hkind hending).mono ?_
    rintro t ⟨⟨c, w, hlane⟩, hframed⟩
    refine ⟨?_, hframed⟩
    rw [hlane, LaneSess.countedDown, if_neg (Nat.not_lt.mpr hlast)]
    rfl

end

section
/-! SUPPORT. Training sessions: the commands (R183 to R185) and the end of a session that fails (R158, R181). -/

set_option Elab.async false

namespace Sys2Proof.Machine

/-! ### TRAIN_START, TRAIN_ABORT and TRAIN_STATUS (R183 to R185) -/

section
variable {s u : State} {k : Packet} {p : PortId}

theorem execTrainStart_starts (htakes : takesPort s u k 0x0301 p = true) (hstate : (u.port p).state = 2)
    (hbusy : (u.die p.die).busy 3 p.key = false) (hover : (u.die p.die).overridden p.key = false) (hholds : (u.die p.die).holds p.key = false)
    (hroom : (u.die k.die).peg.ops.length < 64) :
    execTrainStart k s = .next ((u.accept k 0x0301 3 p.key []).onPort p fun v =>
      { v with retryAt := none, startAt := some ((u.accept k 0x0301 3 p.key []).stroke p.die + 1), startOp := true }) := by
  rw [execTrainStart, State.commandDefined_takes _ htakes]
  simp [hstate, hbusy, hover, hholds, State.start, Nat.not_le.mpr hroom]

theorem execTrainStart_running (htakes : takesPort s u k 0x0301 p = true) (hlow : 3 ≤ (u.port p).state) (hhigh : (u.port p).state < 6) :
    execTrainStart k s = .next (u.finish k 0x0301 (mkRec k stInUse 0 [])) := by
  rw [execTrainStart, State.commandDefined_takes _ htakes]
  extract_lets x v
  rw [if_neg, if_neg, if_pos hlow]
  · rfl
  · simp [v]
    omega
  · simp [v]
    omega

theorem execTrainAbort_session (htakes : takesPort s u k 0x0302 p = true) (hcount : k.w 4 ≤ 1) (hsess : (u.port p).sess = true) :
    execTrainAbort k s = .next ((u.setPort p { u.port p with abort := 7, noRetry := (u.port p).noRetry || k.w 4 == 1 }).await k 0x0302
      (u.stroke p.die + 1) p.key) := by
  rw [execTrainAbort, State.commandDefined_takes _ htakes]
  extract_lets v no
  rw [if_neg (by omega), if_pos hsess]
  rfl

theorem execTrainStatus_done (htakes : takesPort s u k 0x0303 p = true) :
    execTrainStatus k s = .next ((u.toFret 21).finish k 0x0303 (mkRec k stDone 3 ((u.toFret 21).trainStatus p))) := by
  rw [execTrainStatus, State.commandDefined_takes _ htakes]
  rfl

/-- A training that starts is a long operation, and its sessions start at the next boundary. -/
theorem trainStart_enters (htakes : takesPort s u k 0x0301 p = true) (hstate : (u.port p).state = 2)
    (hbusy : (u.die p.die).busy 3 p.key = false) (hover : (u.die p.die).overridden p.key = false) (hholds : (u.die p.die).holds p.key = false)
    (hroom : (u.die k.die).peg.ops.length < 64) :
    Completes (.trainStart k) s (fun t => runsOp t k 0x0301 3 p.key = true ∧
      t.port p = { u.port p with retryAt := none, startAt := some (u.stroke p.die + 1), startOp := true }) := by
  refine Completes.of _ (execTrainStart_starts htakes hstate hbusy hover hholds hroom) ?_
  have hstroke : (u.accept k 0x0301 3 p.key []).stroke p.die = u.stroke p.die :=
    congrArg StrokeBlk.count (State.stroke_of_blk (State.accept_blk _ _ _ _ _ _ (by simp [carriers])) p.die)
  have hport : (u.accept k 0x0301 3 p.key []).port p = u.port p := State.port_of_blk (State.accept_blk _ _ _ _ _ _ (by simp [carriers])) p
  constructor
  · rw [runsOp, State.peg_of_blk (State.onPort_blk _ _ _ (by simp))]
    exact (u.accept_enters k 0x0301 3 p.key [] hroom).1
  · rw [State.onPort_port_same, hport, hstroke]

end

/-! ### The end of a session that fails (R158, R181) -/

theorem State.portMove_port (s : State) (p : PortId) (new why : Nat) :
    (s.portMove p new why).port p = { s.port p with
      state := new, lastChg := s.stroke p.die, lastWhy := why, losts := if new = 6 then (s.port p).losts + 1 else (s.port p).losts } := by
  unfold State.portMove
  extract_lets v now moved counted lost
  rw [State.port_of_blk (s := moved) (by simp [lost, counted]) p]
  exact State.onPort_port_same ..

/-- A port whose sessions fail is DETECTED again, with the reason (R181). -/
theorem State.trainFail_port (s : State) (p : PortId) (reason : Nat) :
    ((s.trainFail p reason).port p).state = 2 ∧ ((s.trainFail p reason).port p).sess = false ∧
    ((s.trainFail p reason).port p).failed = true ∧ ((s.trainFail p reason).port p).reason = reason ∧
    ((s.trainFail p reason).port p).startAt = none := by
  unfold State.trainFail
  extract_lets v now seg a n ended moved counted told c lat latOff
  have hport : (latOff.trainEnd p (trainStatusOf reason) (if reason = 7 then 2 else 1) reason seg).port p = moved.port p :=
    State.port_of_blk (by unfold latOff; split <;> simp [told, counted, carriers]) p
  rw [hport, State.portMove_port, State.onPort_port_same]
  exact ⟨rfl, rfl, rfl, rfl, rfl⟩

/-- At a boundary at which the budget has run out, a port in TRAINING of which nothing else comes fails with the reason of its lanes. -/
theorem State.portAt_budget {s : State} {p : PortId} (hstate : (s.port p).state = 3)
    (hpres : (s.port p).hostPres = true ∧ (s.port p).linePres = true) (hgoes : (s.port p).abort = 0 ∧ (s.port p).ready = false)
    (hover : (s.port p).begun + (s.die p.die).budget p.key ≤ s.stroke p.die) (hreason : (s.die p.die).budgetReason p.key ≠ 0) :
    s.portAt p = s.trainFail p ((s.die p.die).budgetReason p.key) := by
  rw [State.port] at hstate hpres hgoes hover
  unfold State.portAt
  extract_lets d n x v both now
  rw [show v.state = 3 from hstate]
  refine (if_neg ?_).trans ((if_neg ?_).trans ((if_neg ?_).trans (if_pos ?_)))
  · rw [show both = true from Bool.and_eq_true_iff.mpr hpres]
    decide
  · exact fun h => h hgoes.1
  · rw [show v.ready = false from hgoes.2]
    decide
  · rw [Bool.and_eq_true, decide_eq_true_eq, bne_iff_ne]
    exact ⟨hover, hreason⟩

/-- A lane in SEEK is told as the reason SEEK. -/
theorem Die.budgetReason_seek {x : Die} {n : Nat} (h : min (segState (x.port n).hlanes) (segState (x.port n).llanes) = 1) :
    x.budgetReason n = 1 := by
  unfold Die.budgetReason
  extract_lets v wait
  simp only [v, h]

end Sys2Proof.Machine
end

section
/-! SUPPORT. The training engine's fret (R159): a die without enabled ports, and a port one lane wide whose two lanes go to EXIT
together (R161, R163, R164, R180). -/

set_option Elab.async false

namespace Sys2Proof.Machine

/-! ### The training engine (R159) -/

/-- No port of a die is enabled. -/
def Die.noPort (x : Die) : Prop := ∀ i : PortIx, ∀ c : CourseId, (x.port (8 * c.val + i.val)).enabled = false

theorem Die.noPort_port {x : Die} (h : x.noPort) {n : Nat} (hn : n < 64) : (x.port n).enabled = false := by
  have := h ⟨n % 8, by omega⟩ ⟨n / 8, by omega⟩
  rwa [show 8 * (n / 8) + n % 8 = n by omega] at this

theorem txCourse_lt {q : Nat} (hq : q < 136) : txCourse q < 8 := by
  unfold txCourse
  split <;> omega

/-- An engine without enabled ports has no lane to decide. -/
theorem Die.engineAt_noPort {x : Die} (h : x.noPort) {q : Nat} (hq : q < 136) : x.engineAt q = none := by
  have howner : x.owner (txCourse q) (txSide q) (txPos q) = none := by
    refine List.find?_eq_none.mpr fun n hn => ?_
    obtain ⟨i, hi, rfl⟩ := List.mem_map.mp hn
    have := txCourse_lt hq
    have := List.mem_range.mp hi
    rw [Die.noPort_port h (by omega)]
    simp
  rw [Die.engineAt, howner]

theorem Die.engineOrder_noPort {x : Die} (h : x.noPort) : x.engineOrder = [] := by
  have hall : (List.range 136).filter (fun q => (x.engineAt q).isSome) = [] :=
    List.filter_eq_nil_iff.mpr fun q hq => by simp [Die.engineAt_noPort h (List.mem_range.mp hq)]
  simp only [Die.engineOrder, hall, List.filter_nil, List.append_nil]

theorem foldl_idle {α β : Type} {f : α → β → α} {a : α} {l : List β} (h : ∀ b ∈ l, f a b = a) : l.foldl f a = a :=
  List.foldlRecOn (motive := fun c => c = a) l f rfl fun c hc b hb => by rw [hc, h b hb]

theorem State.onDie_onDie (s : State) (d : DieId) (f g : Die → Die) : (s.onDie d f).onDie d g = s.onDie d (fun x => g (f x)) := by
  rw [State.onDie, State.die_onDie_same]
  simp [State.onDie, State.setDie]

/-- The decision of the lane of transmitter q, as the engine's fret has it. -/
def State.engineDecides (s : State) (d : DieId) (q : Nat) : State :=
  match (s.die d).engineAt q with
  | none => s
  | some (n, h, j) => s.engineLane d n h j

/-- What the engine does for port n of a die after the lanes, as its fret has it. -/
def State.engineEnds (s : State) (d : DieId) (n : Nat) : State :=
  if !((s.die d).port n).enabled then s
  else if ((s.die d).port n).sess then s.enginePort (portId d n)
  else (((s.die d).segPos n .line).filter ((s.die d).decided n .line)).foldl (fun s j =>
    match (s.die d).laneKind n .line j with
    | none => s
    | some k => s.engineSingle d n j k) s

/-- The engine's fret has begun, and its lanes are told from those that an overrun carries over. -/
def State.engineOpens (s : State) (d : DieId) (left : List Nat) : State :=
  ((s.toFret 17).onDie d (fun x => x.didFret 17)).onDie d (fun x => { x with stroke := { x.stroke with trainLeft := left } })

/-- The engine's fret: its lanes in their order, then its ports (R159). -/
theorem execTrainingEngineFret_next {s : State} {d : DieId} (hup : up s d = true) (hruns : (s.die d).trainRuns = true)
    (hopen : s.fretOpen d 17 20 = true) {order : List Nat}
    (horder : (((s.toFret 17).onDie d (fun x => x.didFret 17)).die d).engineOrder = order) {k : Nat}
    (hk : order.length - (((s.toFret 17).onDie d (fun x => x.didFret 17)).die d).stroke.trainCut = k) :
    execTrainingEngineFret d s = .next ((List.range 64).foldl (fun t n => t.engineEnds d n)
      ((order.take k).foldl (fun t q => t.engineDecides d q) (s.engineOpens d (order.drop k)))) := by
  obtain ⟨hhere, hrun⟩ := up_iff.mp hup
  subst horder hk
  unfold execTrainingEngineFret
  rw [if_pos (by rw [hhere, hrun, hruns, hopen]; rfl)]
  rfl

/-- On a die without enabled ports the engine's fret is done, and no more (R24, R159). -/
theorem trainingEngineFret_noPort {s : State} {d : DieId} (hup : up s d = true) (hruns : (s.die d).trainRuns = true)
    (hopen : s.fretOpen d 17 20 = true) (hports : (s.die d).noPort) :
    Completes (.trainingEngineFret d) s (fun t =>
      t = (s.toFret 17).onDie d (fun x => { x with stroke := { x.stroke with ran := x.stroke.ran ||| 2 ^ 17, trainLeft := [] } })) := by
  have hnone (t : State) (ht : t.blk .ports = s.blk .ports) : (t.die d).noPort := fun i c => by
    rw [Die.port, State.ports_of_blk ht]
    exact hports i c
  have horder := Die.engineOrder_noPort (hnone ((s.toFret 17).onDie d fun x => x.didFret 17) (by simp))
  have hidle : ∀ n ∈ List.range 64, (s.engineOpens d []).engineEnds d n = s.engineOpens d [] := fun n hn => by
    have hoff := Die.noPort_port (hnone (s.engineOpens d []) (by simp [State.engineOpens])) (List.mem_range.mp hn)
    rw [State.engineEnds, hoff]
    rfl
  refine Completes.of _ ((execTrainingEngineFret_next hup hruns hopen horder rfl).trans ?_) rfl
  rw [List.take_nil, List.drop_nil, List.foldl_nil, foldl_idle hidle, State.engineOpens, State.onDie_onDie]
  rfl

/-! #### A die whose port alone changes -/

theorem Die.courses_if {x : Die} {f : Die → Die} (b : Bool) (h : ∀ y : Die, (f y).courses = y.courses) :
    (if b then f x else x).courses = x.courses := by
  cases b
  · rfl
  · exact h x

/-- Up to the banks' step in fret 28 time passing leaves the courses (R22, R146). -/
theorem State.advance_courses (s : State) {p : Nat} (hp : p < 1120) (d : DieId) : ((s.advance p).die d).courses = (s.die d).courses := by
  unfold State.advance
  split
  next h =>
    have hbank : decide (1120 ≤ p) = false := by simpa using hp
    simp only [hbank, Bool.and_false, decide_false, Bool.false_eq_true, if_false]
    generalize hf : (fun x : Die => _) = f
    have hkeep (x : Die) : (f x).courses = x.courses := by
      subst hf
      refine (Die.courses_if _ fun y => ?_).trans ((Die.courses_if _ fun y => ?_).trans ((Die.courses_if _ fun y => ?_).trans ?_))
      · obtain ⟨t, h⟩ := y.copyDone_eq
        rw [h]
      · obtain ⟨t, h⟩ := y.snapDone_eq
        rw [h]
      · obtain ⟨m, t, h⟩ := y.markerDue_eq
        rw [h]
      · obtain ⟨t, h⟩ := x.frets_eq (p / 40 - s.pos / 40)
        rw [h]
    change ((s.onAwake fun s e => s.onDie e f).die d).courses = _
    rw [State.die_onAwake]
    split
    · exact hkeep _
    · rfl
  next => rfl

theorem Die.port_congr {x y : Die} (h : y.ports = x.ports) (n : Nat) : y.port n = x.port n := by rw [Die.port, Die.port, h]

/-- y is x but for its port n, which is v: what its training engine sees. -/
structure Die.Retrained (x : Die) (n : Nat) (v : Port) (y : Die) : Prop where
  active : y.active = x.active
  slices : y.slices = x.slices
  courses : y.courses = x.courses
  stroke : y.stroke = x.stroke
  port : y.port n = v
  others : ∀ m, m < 64 → m ≠ n → y.port m = x.port m

namespace Die.Retrained
variable {x y : Die} {n : Nat} {v : Port} (h : x.Retrained n v y)
include h

theorem cfga (m : Nat) : y.cfga m = x.cfga m := Die.cfga_congr h.active m

theorem peerSeg (m : Nat) (g : Side) : y.peerSeg m g = x.peerSeg m g := Die.peerSeg_congr h.active m g

theorem laneConv (g : Side) (j : Nat) : y.laneConv n g j = x.laneConv n g j := by
  have hserving : y.serving (n / 8) g j = x.serving (n / 8) g j := Die.serving_congr (fun c g => by rw [Die.course_congr h.courses]) _ _ _
  rw [Die.laneConv, Die.laneConv, hserving, Die.slice, Die.slice, h.slices]

end Die.Retrained

/-- A change of the port alone. -/
theorem State.onPort_retrained {s : State} {x : Die} {p : PortId} {v : Port} (h : x.Retrained p.key v (s.die p.die)) (f : Port → Port) :
    x.Retrained p.key (f v) ((s.onPort p f).die p.die) where
  active := (State.active_of_blk (by simp) _).trans h.active
  slices := (State.slices_of_blk (by simp) _).trans h.slices
  courses := (State.courses_of_blk (by simp) _).trans h.courses
  stroke := (State.stroke_of_blk (by simp) _).trans h.stroke
  port := by rw [← h.port, ← State.port, ← State.port, State.onPort_port_same]
  others m hm hne := by
    rw [← h.others m hm hne]
    simp [State.onPort, State.setPort, hne]

/-- An event of the port. -/
theorem State.postPort_retrained {s : State} {x : Die} {p : PortId} {v : Port} (h : x.Retrained p.key v (s.die p.die)) (cause data : Nat) :
    x.Retrained p.key v ((s.postPort p cause data).die p.die) where
  active := (State.active_of_blk (by simp) _).trans h.active
  slices := (State.slices_of_blk (by simp) _).trans h.slices
  courses := (State.courses_of_blk (by simp) _).trans h.courses
  stroke := (State.stroke_of_blk (by simp) _).trans h.stroke
  port := (State.port_of_blk (s := s) (by simp) p).trans h.port
  others m hm hne := (Die.port_congr (State.ports_of_blk (s := s) (by simp) p.die) m).trans (h.others m hm hne)

/-! #### The decision of a lane in HOLD -/

/-- A lane in HOLD after the engine's decision, of a port without lattice and gearbox: RR not yet set (R161, R176). -/
def LaneSess.held (l : LaneSess) : LaneSess := { l with rrTx := false, bits := 2 * b2n l.flock + 4 * b2n l.reqPre }

theorem LaneSess.held_eq {l : LaneSess} (hstate : l.state = 3) (hfresh : l.fresh = false) :
    { l with state := 3, rrTx := l.rrTx && decide (4 ≤ 3), fresh := false, bits := 2 * b2n l.flock + 4 * b2n l.reqPre } = l.held := by
  obtain ⟨⟩ := l
  subst hstate hfresh
  simp [LaneSess.held]

section
variable {s : State} {d : DieId} {n : Nat} {h : Side} {j : Nat} {k : LaneKind} {l : LaneSess}

theorem State.laneRestart_stale (hlane : (s.die d).lane n h j k = l) (hfresh : l.fresh = false) : s.laneRestart d n h j k = s := by
  unfold State.laneRestart
  rw [hlane]
  extract_lets l'
  split
  · rfl
  · exact if_pos (by simp [l', hfresh])

theorem State.laneAnswer_stale (hlane : (s.die d).lane n h j k = l) (hfresh : l.fresh = false) : s.laneAnswer d n h j k = s := by
  unfold State.laneAnswer
  extract_lets x l'
  have hl : l'.fresh = false := by rw [← hfresh, ← hlane]
  split
  · rfl
  · exact if_pos (by simp [hl])

theorem State.laneRequest_held (hlane : (s.die d).lane n h j k = l) (hstate : l.state = 3) : s.laneRequest d n h j k = s := by
  unfold State.laneRequest
  extract_lets x l'
  have hl : l'.state = 3 := by rw [← hstate, ← hlane]
  exact if_pos (by simp [hl])

theorem Die.laneBits_plain {x : Die} (hlat : hasLattice (x.cfga n) = false) (hgbx : hasGearbox (x.cfga n) = false) (l : LaneSess) :
    x.laneBits n .session l = 2 * b2n l.flock + 4 * b2n l.reqPre := by
  simp [Die.laneBits, Die.latReady, Die.grants, hlat, hgbx, b2n]

theorem State.laneMove_held (hlane : (s.die d).lane n h j .session = l) (hstate : l.state = 3) (hfresh : l.fresh = false)
    (hconv : (s.die d).laneConv n h j = true) (hlat : hasLattice ((s.die d).cfga n) = false)
    (hgbx : hasGearbox ((s.die d).cfga n) = false) : s.laneMove d n h j .session = s.setLane d n h j .session l.held := by
  unfold State.laneMove
  extract_lets x l' ok capo s1
  have hl : l' = l := hlane
  have hok : ok = true := hconv
  have hs1 : s1 = 3 := by simp [s1, hl, hstate, hok]
  rw [hs1, hl, Die.laneBits_plain hlat hgbx, LaneSess.held_eq hstate hfresh]

/-- The engine's decision of a converged lane in HOLD (R159, R161). -/
theorem State.engineLane_held (hkind : (s.die d).laneKind n h j = some .session) (hlane : (s.die d).lane n h j .session = l)
    (hstate : l.state = 3) (hfresh : l.fresh = false) (hconv : (s.die d).laneConv n h j = true)
    (hlat : hasLattice ((s.die d).cfga n) = false) (hgbx : hasGearbox ((s.die d).cfga n) = false) :
    s.engineLane d n h j = s.setLane d n h j .session l.held := by
  rw [State.engineLane, hkind]
  dsimp only
  rw [State.laneRestart_stale hlane hfresh, State.laneAnswer_stale hlane hfresh, State.laneRequest_held hlane hstate,
    State.laneMove_held hlane hstate hfresh hconv hlat hgbx]

end

/-! #### Transmitters and their lanes -/

theorem fld_three_lt (v : Half) (lo : Nat) : fld v (lo + 2) lo < 8 := by
  unfold fld bits
  rw [show lo + 2 + 1 - lo = 3 by omega]
  exact Nat.mod_lt _ (by decide)

theorem mapEntry_lt (lo hi : Half) (j : Nat) : mapEntry lo hi j < 8 := by
  unfold mapEntry
  split <;> exact fld_three_lt _ _

/-- The host position of a port one lane wide. -/
theorem hostPos_single_lt {a : Half} {i : Nat} (h : hostPos a = [i]) : i < 8 := by
  have hlen : width a = 1 := by simpa [hostPos] using congrArg List.length h
  have hi : hostBase a = i := by simpa [hostPos, hlen] using h
  rw [← hi]
  exact fld_three_lt a 2

/-- The line position of a port without gearbox. -/
theorem linePos_single_lt {a lo hi : Half} {j : Nat} (hgbx : hasGearbox a = false) (h : linePos a lo hi = [j]) : j < 8 := by
  rw [linePos, if_neg (by simp [hgbx])] at h
  have hj : j ∈ (hostPos a).map (mapEntry lo hi) := by simp [h]
  obtain ⟨i, -, rfl⟩ := List.mem_map.mp hj
  exact mapEntry_lt lo hi i

theorem txOf_parts {q : Nat} (hq : q < 136) : txOf (txCourse q) (txSide q) (txPos q) = q := by
  unfold txCourse txSide txPos
  split
  · simp only [txOf, pinKey]
    omega
  · simp only [txOf, pinKey]
    omega

theorem txOf_host_parts {c i : Nat} (hc : c < 8) (hi : i < 8) :
    txOf c .host i < 64 ∧ txCourse (txOf c .host i) = c ∧ txSide (txOf c .host i) = .host ∧ txPos (txOf c .host i) = i := by
  have h : txOf c .host i = 8 * c + i := rfl
  rw [h, txCourse, txSide, txPos, if_pos (by omega), if_pos (by omega), if_pos (by omega)]
  exact ⟨by omega, by omega, rfl, by omega⟩

theorem txOf_line_parts {c j : Nat} (hc : c < 8) (hj : j < 8) :
    64 ≤ txOf c .line j ∧ txOf c .line j < 136 ∧ txCourse (txOf c .line j) = c ∧ txSide (txOf c .line j) = .line ∧
      txPos (txOf c .line j) = j := by
  have h : txOf c .line j = 64 + 9 * c + j := rfl
  rw [h, txCourse, txSide, txPos, if_neg (by omega), if_neg (by omega), if_neg (by omega)]
  exact ⟨by omega, by omega, by omega, rfl, by omega⟩

/-! #### A die on which one port trains, one lane wide -/

/-- Port n of die x is the only one enabled, one lane wide without lattice and gearbox, its session runs, and both its receivers
have converged. -/
structure Die.Single (x : Die) (n i j : Nat) : Prop where
  lt : n < 64
  enabled : (x.port n).enabled = true
  sess : (x.port n).sess = true
  others : ∀ m, m < 64 → m ≠ n → (x.port m).enabled = false
  host : x.segPos n .host = [i]
  line : x.segPos n .line = [j]
  lattice : hasLattice (x.cfga n) = false
  gearbox : hasGearbox (x.cfga n) = false
  convHost : x.laneConv n .host i = true
  convLine : x.laneConv n .line j = true

/-- Port n owns position m of its course's side g, if it is enabled. -/
def Die.owns (x : Die) (g : Side) (m n : Nat) : Bool :=
  (x.port n).enabled && (match g with
    | .host => (x.portHost n).contains m
    | .line => (x.portLine n).contains m || (m == 8 && hasLattice (x.cfga n)))

namespace Die.Single
variable {x y : Die} {n i j : Nat} (hx : x.Single n i j)
include hx

theorem portLine : x.portLine n = [j] := by
  have h := hx.line
  rwa [Die.segPos, Die.portLineAll, hx.lattice, Bool.false_and, if_neg (by decide)] at h

theorem host_lt : i < 8 := hostPos_single_lt hx.host

theorem line_lt : j < 8 := linePos_single_lt hx.gearbox hx.portLine

theorem retrained {v : Port} (h : x.Retrained n v y) (hv : v.inSession = (x.port n).inSession) : y.Single n i j := by
  simp only [Port.inSession, Prod.mk.injEq] at hv
  obtain ⟨hstate, hsess, hunav⟩ := hv
  have hseg (g : Side) : y.segPos n g = x.segPos n g := Die.segPos_congr h.active (by rw [h.port, hunav]) g
  exact {
    lt := hx.lt
    enabled := by rw [h.port, Port.enabled, hstate]; exact hx.enabled
    sess := by rw [h.port, hsess]; exact hx.sess
    others := fun m hm hne => by rw [h.others m hm hne]; exact hx.others m hm hne
    host := (hseg _).trans hx.host
    line := (hseg _).trans hx.line
    lattice := by rw [h.cfga]; exact hx.lattice
    gearbox := by rw [h.cfga]; exact hx.gearbox
    convHost := by rw [h.laneConv]; exact hx.convHost
    convLine := by rw [h.laneConv]; exact hx.convLine }

theorem laneKind (g : Side) (m : Nat) : x.laneKind n g m = if (x.segPos n g).contains m then some .session else none := by
  unfold Die.laneKind
  extract_lets v
  exact if_pos hx.sess

theorem owns_self (g : Side) (m : Nat) : x.owns g m n = (x.segPos n g).contains m := by
  unfold Die.owns
  rw [hx.enabled, Bool.true_and]
  cases g
  · rfl
  · simp [Die.segPos, Die.portLineAll, hx.lattice]

/-- A position has an owner where it is one of the port's, and that is the port. -/
theorem owner_eq {c : Nat} (hc : c < 8) (g : Side) (m : Nat) :
    x.owner c g m = if c = n / 8 ∧ (x.segPos n g).contains m = true then some n else none := by
  have honly : ∀ a ∈ (List.range 8).map (fun i => 8 * c + i), x.owns g m a = true → a = n := fun a ha hown => by
    obtain ⟨i, hi, rfl⟩ := List.mem_map.mp ha
    have := List.mem_range.mp hi
    by_contra hne
    have hon := (Bool.and_eq_true_iff.mp hown).1
    rw [hx.others _ (by omega) hne] at hon
    cases hon
  change ((List.range 8).map (fun i => 8 * c + i)).find? (x.owns g m) = _
  by_cases hown : c = n / 8 ∧ (x.segPos n g).contains m = true
  · rw [if_pos hown]
    obtain ⟨rfl, hin⟩ := hown
    have hlt := hx.lt
    have hmem : n ∈ (List.range 8).map (fun i => 8 * (n / 8) + i) := List.mem_map.mpr ⟨n % 8, List.mem_range.mpr (by omega), by omega⟩
    obtain ⟨a, ha⟩ := Option.isSome_iff_exists.mp (List.find?_isSome.mpr ⟨n, hmem, (hx.owns_self g m).trans hin⟩)
    rw [ha, honly a (List.mem_of_find?_eq_some ha) (List.find?_some ha)]
  · rw [if_neg hown]
    refine List.find?_eq_none.mpr fun a ha hmine => hown ?_
    obtain rfl := honly a ha hmine
    obtain ⟨i, hi, hai⟩ := List.mem_map.mp ha
    have := List.mem_range.mp hi
    exact ⟨by omega, (hx.owns_self g m).symm.trans hmine⟩

/-- The engine's lanes are the port's two. -/
theorem engineAt_eq {q : Nat} (hq : q < 136) : x.engineAt q =
    if q = txOf (n / 8) .host i then some (n, .host, i) else if q = txOf (n / 8) .line j then some (n, .line, j) else none := by
  have hc : n / 8 < 8 := by have := hx.lt; omega
  obtain ⟨hhigh, -, hcl, hsl, hpl⟩ := txOf_line_parts hc hx.line_lt
  obtain ⟨hlow, hch, hsh, hph⟩ := txOf_host_parts hc hx.host_lt
  have hseg : ∀ g m, (x.segPos n g).contains m = true ↔ m = (match g with | .host => i | .line => j) := fun g m => by
    cases g
    · simp [hx.host, eq_comm]
    · simp [hx.line, eq_comm]
  unfold Die.engineAt
  rw [hx.owner_eq (txCourse_lt hq)]
  by_cases hown : txCourse q = n / 8 ∧ (x.segPos n (txSide q)).contains (txPos q) = true
  · rw [if_pos hown]
    obtain ⟨hcq, hin⟩ := hown
    have hq' := txOf_parts hq
    have hpq := (hseg _ _).mp hin
    dsimp only
    rw [hx.laneKind, if_pos hin, Option.isSome_some, if_pos rfl]
    cases hs : txSide q with
    | host =>
      rw [hs] at hpq hq'
      dsimp only at hpq
      rw [hcq, hpq] at hq'
      rw [if_pos hq'.symm, hpq]
    | line =>
      rw [hs] at hpq hq'
      dsimp only at hpq
      rw [hcq, hpq] at hq'
      rw [if_neg (by omega), if_pos hq'.symm, hpq]
  · rw [if_neg hown, if_neg, if_neg]
    · rintro rfl
      exact hown ⟨hcl, (hseg _ _).mpr (by rw [hsl, hpl])⟩
    · rintro rfl
      exact hown ⟨hch, (hseg _ _).mpr (by rw [hsh, hph])⟩

end Die.Single

/-! #### The decisions of all lanes -/

/-- A port with one lane in session on each segment. -/
def Port.lanePair (v : Port) (i j : Nat) (a b : LaneSess) : Port := { v with hlanes := [(i, a)], llanes := [(j, b)] }

theorem SMap.put_single {k : Nat} {l m : LaneSess} (hm : m.state = 3) : SMap.put {} [(k, l)] k m = [(k, m)] := by
  rw [SMap.put, if_neg (fun h => by rw [h] at hm; cases hm)]
  simp [SMap.ins]

section
variable {s : State} {x : Die} {p : PortId} {v : Port} {i j : Nat} {a b : LaneSess}

/-- A lane of the port is written. -/
theorem State.setLane_host_retrained (h : x.Retrained p.key (v.lanePair i j a b) (s.die p.die)) {m : LaneSess} (hm : m.state = 3) :
    x.Retrained p.key (v.lanePair i j m b) ((s.setLane p.die p.key .host i .session m).die p.die) := by
  have hput : (v.lanePair i j m b) = (v.lanePair i j a b).setLanes .host (SMap.put {} ((v.lanePair i j a b).lanes .host) i m) := by
    simp only [Port.lanePair, Port.lanes, Port.setLanes, SMap.put_single hm]
  have hset := State.onPort_retrained h fun q => q.setLanes .host (SMap.put {} (q.lanes .host) i m)
  rw [← hput] at hset
  simpa only [State.setLane, portId_of_key] using hset

theorem State.setLane_line_retrained (h : x.Retrained p.key (v.lanePair i j a b) (s.die p.die)) {m : LaneSess} (hm : m.state = 3) :
    x.Retrained p.key (v.lanePair i j a m) ((s.setLane p.die p.key .line j .session m).die p.die) := by
  have hput : (v.lanePair i j a m) = (v.lanePair i j a b).setLanes .line (SMap.put {} ((v.lanePair i j a b).lanes .line) j m) := by
    simp only [Port.lanePair, Port.lanes, Port.setLanes, SMap.put_single hm]
  have hset := State.onPort_retrained h fun q => q.setLanes .line (SMap.put {} (q.lanes .line) j m)
  rw [← hput] at hset
  simpa only [State.setLane, portId_of_key] using hset

/-- A converged lane in HOLD, told nothing new. -/
def LaneSess.waits (l : LaneSess) : Prop := l.state = 3 ∧ l.fresh = false

/-- One decision of the engine: the lane it is of is held, the other stands. -/
theorem State.engineDecides_pair (hx : x.Single p.key i j) (hv : v.inSession = (x.port p.key).inSession)
    (h : x.Retrained p.key (v.lanePair i j a b) (s.die p.die)) (ha : a.waits) (hb : b.waits) {q : Nat} (hq : q < 136) :
    x.Retrained p.key (v.lanePair i j (if q = txOf (p.key / 8) .host i then a.held else a)
      (if q = txOf (p.key / 8) .line j then b.held else b)) ((s.engineDecides p.die q).die p.die) := by
  have hy := hx.retrained h hv
  have hne : txOf (p.key / 8) .host i ≠ txOf (p.key / 8) .line j := by
    have hc : p.key / 8 < 8 := by have := hx.lt; omega
    have := (txOf_host_parts hc hx.host_lt).1
    have := (txOf_line_parts hc hx.line_lt).1
    omega
  rw [State.engineDecides, hy.engineAt_eq hq]
  by_cases hqh : q = txOf (p.key / 8) .host i
  · have hlane : (s.die p.die).lane p.key .host i .session = a := by rw [Die.lane, h.port]; simp [Port.lanePair, Port.lanes, SMap.get]
    rw [if_pos hqh, if_pos hqh, if_neg (fun ht => hne (hqh.symm.trans ht))]
    dsimp only
    rw [State.engineLane_held (by rw [hy.laneKind, hy.host]; simp) hlane ha.1 ha.2 hy.convHost hy.lattice hy.gearbox]
    exact State.setLane_host_retrained h ha.1
  · by_cases hql : q = txOf (p.key / 8) .line j
    · have hlane : (s.die p.die).lane p.key .line j .session = b := by rw [Die.lane, h.port]; simp [Port.lanePair, Port.lanes, SMap.get]
      rw [if_neg hqh, if_neg hqh, if_pos hql, if_pos hql]
      dsimp only
      rw [State.engineLane_held (by rw [hy.laneKind, hy.line]; simp) hlane hb.1 hb.2 hy.convLine hy.lattice hy.gearbox]
      exact State.setLane_line_retrained h hb.1
    · rw [if_neg hqh, if_neg hqh, if_neg hql, if_neg hql]
      exact h

/-- All decisions of the engine's fret: both lanes of the port are held. -/
theorem State.engineDecides_all (hx : x.Single p.key i j) (hv : v.inSession = (x.port p.key).inSession) {l : List Nat} (hl : ∀ q ∈ l, q < 136)
    (h : x.Retrained p.key (v.lanePair i j a b) (s.die p.die)) (ha : a.waits) (hb : b.waits) :
    x.Retrained p.key (v.lanePair i j (if txOf (p.key / 8) .host i ∈ l then a.held else a)
      (if txOf (p.key / 8) .line j ∈ l then b.held else b)) ((l.foldl (fun t q => t.engineDecides p.die q) s).die p.die) := by
  induction l generalizing s a b with
  | nil => simpa using h
  | cons q l ih =>
    have hstep := State.engineDecides_pair hx hv h ha hb (hl q List.mem_cons_self)
    have hkept (c : LaneSess) (hc : c.waits) (t : Nat) : (if q = t then c.held else c).waits := by split <;> exact hc
    have hheld (c : LaneSess) (t : Nat) : (if t ∈ l then (if q = t then c.held else c).held else if q = t then c.held else c)
        = if t ∈ q :: l then c.held else c := by
      by_cases hqt : q = t
      · simp [hqt, LaneSess.held]
      · simp [hqt, Ne.symm hqt]
    rw [List.foldl_cons, ← hheld, ← hheld]
    exact ih (fun r hr => hl r (List.mem_cons_of_mem _ hr)) hstep (hkept a ha _) (hkept b hb _)

end

/-! #### The exit of the pair -/

/-- What of a port its modes are agreed by. -/
def Port.terms (v : Port) : (Nat × Bool × Bool) × Half × Nat := (v.inSession, v.trn, v.modes)

/-- y is x but for its port n, which has one lane in session on each segment, and the terms t. -/
structure Die.PairAt (x : Die) (n i j : Nat) (a b : LaneSess) (t : (Nat × Bool × Bool) × Half × Nat) (y : Die) : Prop where
  retrained : x.Retrained n (y.port n) y
  host : (y.port n).hlanes = [(i, a)]
  line : (y.port n).llanes = [(j, b)]
  terms : (y.port n).terms = t

section
variable {s : State} {x : Die} {p : PortId} {i j : Nat} {a b : LaneSess} {t : (Nat × Bool × Bool) × Half × Nat}

theorem State.onPort_pair (h : x.PairAt p.key i j a b t (s.die p.die)) {f : Port → Port} {c d : LaneSess}
    (hhost : (f (s.port p)).hlanes = [(i, c)]) (hline : (f (s.port p)).llanes = [(j, d)]) (hterms : (f (s.port p)).terms = (s.port p).terms) :
    x.PairAt p.key i j c d t ((s.onPort p f).die p.die) := by
  have hport : ((s.onPort p f).die p.die).port p.key = f (s.port p) := State.onPort_port_same s p f
  exact {
    retrained := by rw [hport]; exact State.onPort_retrained h.retrained f
    host := by rw [hport, hhost]
    line := by rw [hport, hline]
    terms := by rw [hport, hterms]; exact h.terms }

theorem State.postPort_pair (h : x.PairAt p.key i j a b t (s.die p.die)) (cause data : Nat) :
    x.PairAt p.key i j a b t ((s.postPort p cause data).die p.die) := by
  have hport : ((s.postPort p cause data).die p.die).port p.key = (s.die p.die).port p.key := State.port_of_blk (s := s) (by simp) p
  exact {
    retrained := by rw [hport]; exact State.postPort_retrained h.retrained cause data
    host := by rw [hport]; exact h.host
    line := by rw [hport]; exact h.line
    terms := by rw [hport]; exact h.terms }

/-- Telling a partner's restart changes nothing that the engine goes by. -/
theorem State.restartsTold_pair (h : x.PairAt p.key i j a b t (s.die p.die)) : x.PairAt p.key i j a b t ((s.restartsTold p).die p.die) := by
  unfold State.restartsTold
  extract_lets w tell told
  have htell {u : State} (hu : x.PairAt p.key i j a b t (u.die p.die)) (g : Side) (l : List (Nat × Nat)) (o : Option Nat) :
      x.PairAt p.key i j a b t ((tell u g l o).die p.die) := by
    unfold tell
    split
    · exact hu
    · exact State.postPort_pair hu _ _
  have htold : x.PairAt p.key i j a b t (told.die p.die) := htell (htell h _ _ _) _ _ _
  exact State.onPort_pair htold htold.host htold.line rfl

/-- A port without lattice and gearbox that asks for no precoding agrees no modes. -/
theorem Die.PairAt.modesNow {y : Die} {n : Nat} (h : x.PairAt n i j a b t y) (hpre : fld t.2.1 3 3 = 0) (hbits : b.bits < 8) :
    y.modesNow n = 0 := by
  have htrn : y.trnCfg n = t.2.1 := congrArg (fun t => t.2.1) h.terms
  have hrx (g : Side) : y.preRxNow n g = false := by
    rw [Die.preRxNow, htrn, hpre]
    rfl
  have hbit (k : Nat) (hk : 3 ≤ k) : bit b.bits k = false :=
    Nat.testBit_lt_two_pow (Nat.lt_of_lt_of_le hbits (Nat.pow_le_pow_right (n := 2) (by decide) hk))
  have hboth (k : Nat) (hk : 3 ≤ k) (got : LaneSess → Bool) : y.allLanes n .line (fun l => bit l.bits k && got l) = false := by
    rw [Die.allLanes, Port.lanes, h.line]
    simp [hbit k hk]
  simp [Die.modesNow, Die.preAgreed, hrx, hboth, b2n]

theorem State.portModes_pair (h : x.PairAt p.key i j a b t (s.die p.die)) (hpre : fld t.2.1 3 3 = 0) (hbits : b.bits < 8)
    (hlat : hasLattice (x.cfga p.key) = false) : x.PairAt p.key i j a b t ((s.portModes p).die p.die) := by
  unfold State.portModes
  extract_lets y v m noted agreed data
  have hm : m = v.modes := by simp only [m, y, h.modesNow hpre hbits, Nat.or_zero]
  have hlat' : hasLattice (y.cfga p.key) = false := by rw [h.retrained.cfga]; exact hlat
  rw [if_neg (by simp [hlat'])]
  unfold agreed
  rw [if_pos hm]
  exact State.onPort_pair h h.host h.line rfl

/-- Both lanes have converged and the other's partner is ready: the readiness rule holds (R163). -/
theorem Die.readyRule_pair {y : Die} {n : Nat} (hy : y.Single n i j) (hhost : (y.port n).hlanes = [(i, a)])
    (hline : (y.port n).llanes = [(j, b)]) (ha : a.rrRx = true) (hb : b.rrRx = true) :
    y.readyRule n .host .line = true ∧ y.readyRule n .line .host = true := by
  simp [Die.readyRule, Die.allLanes, Port.lanes, hhost, hline, hy.convHost, hy.convLine, ha, hb]

/-- A lane of HOLD that the engine has decided is READY while the rule holds (R163). -/
def LaneSess.readied (l : LaneSess) : LaneSess := { l with state := 4, rrTx := true }

theorem applyReady_single {m : SMap LaneSess} {k : Nat} {l : LaneSess} {decided : Nat → Bool} (hm : m = [(k, l)]) (hl : l.state = 3)
    (hdecided : decided k = true) : m.map (fun q =>
      (q.1, if !decided q.1 then q.2
            else if q.2.state = 3 && true then { q.2 with state := 4, rrTx := true }
            else if q.2.state = 4 && !true then { q.2 with state := 3, rrTx := false }
            else if q.2.state = 5 || q.2.state = 6 then { q.2 with rrTx := true } else q.2)) = [(k, l.readied)] := by
  simp [hm, hl, hdecided, LaneSess.readied]

theorem Port.applyReady_pair {v : Port} {f g : Nat → Bool} (hhost : v.hlanes = [(i, a)]) (hline : v.llanes = [(j, b)]) (ha : a.state = 3)
    (hb : b.state = 3) (hf : f i = true) (hg : g j = true) :
    ((v.applyReady .host true f).applyReady .line true g).hlanes = [(i, a.readied)] ∧
    ((v.applyReady .host true f).applyReady .line true g).llanes = [(j, b.readied)] :=
  ⟨applyReady_single hhost ha hf, applyReady_single hline hb hg⟩

theorem Port.terms_setLanes (v : Port) (h : Side) (m : SMap LaneSess) : (v.setLanes h m).terms = v.terms := by cases h <;> rfl

theorem Port.terms_applyReady (v : Port) (f g : Nat → Bool) : ((v.applyReady .host true f).applyReady .line true g).terms = v.terms := by
  rw [Port.applyReady, Port.terms_setLanes, Port.applyReady, Port.terms_setLanes]

/-- A segment whose lane is READY, and its partner, may leave for EXIT (R164). -/
theorem Die.exitHolds_pair {y : Die} {n : Nat} (hhost : (y.port n).hlanes = [(i, a)]) (hline : (y.port n).llanes = [(j, b)])
    (ha : a.state = 4 ∧ a.rrRx = true) (hb : b.state = 4 ∧ b.rrRx = true) (hmodes : bit (y.port n).modes 0 = false) :
    y.exitHolds n .host = true ∧ y.exitHolds n .line = true := by
  simp [Die.exitHolds, Die.allLanes, Port.lanes, hhost, hline, ha, hb, hmodes]

/-- The port's part of the engine's work, with both lanes in HOLD and told ready by their partners (R163, R164, R180). -/
theorem State.enginePort_pair (hx : x.Single p.key i j) (h : x.PairAt p.key i j a b t (s.die p.die)) (hsess : t.1 = (x.port p.key).inSession)
    (hpre : fld t.2.1 3 3 = 0) (hmodes : bit t.2.2 0 = false) (hleft : x.stroke.trainLeft = []) (hbits : b.bits < 8)
    (ha : a.state = 3 ∧ a.rrRx = true) (hb : b.state = 3 ∧ b.rrRx = true) :
    x.PairAt p.key i j { a with state := 5, rrTx := true, count := endCount false }
      { b with state := 5, rrTx := true, count := endCount (x.peerSeg p.key .line) } t ((s.enginePort p).die p.die) := by
  have hdecided {y : Die} (hy : x.PairAt p.key i j a b t y) (g : Side) (m : Nat) : y.decided p.key g m = true := by
    rw [Die.decided, hy.retrained.stroke, hleft]
    rfl
  have hwhole : (((s.die p.die).segPos p.key .host).all ((s.die p.die).decided p.key .host)
      && ((s.die p.die).segPos p.key .line).all ((s.die p.die).decided p.key .line)) = true := by
    simp [hdecided h]
  unfold State.enginePort
  extract_lets n y whole told moded z rh rl ready u peer
  have hmoded : x.PairAt p.key i j a b t (moded.die p.die) := by
    unfold moded
    rw [if_pos hwhole]
    exact State.portModes_pair (State.restartsTold_pair h) hpre hbits hx.lattice
  have hz : z.Single n i j := hx.retrained hmoded.retrained ((congrArg Prod.fst hmoded.terms).trans hsess)
  obtain ⟨hrh, hrl⟩ : rh = true ∧ rl = true := Die.readyRule_pair hz hmoded.host hmoded.line ha.2 hb.2
  have hready : x.PairAt p.key i j a.readied b.readied t (ready.die p.die) := by
    obtain ⟨hhost, hline⟩ := Port.applyReady_pair hmoded.host hmoded.line ha.1 hb.1 (hdecided hmoded .host i) (hdecided hmoded .line j)
    unfold ready
    rw [hrh, hrl]
    exact State.onPort_pair hmoded hhost hline (Port.terms_applyReady ..)
  clear_value ready
  obtain ⟨hexh, hexl⟩ : u.exitHolds n .host = true ∧ u.exitHolds n .line = true :=
    Die.exitHolds_pair hready.host hready.line ⟨rfl, ha.2⟩ ⟨rfl, hb.2⟩ (by
      rw [show ((ready.die p.die).port n).modes = t.2.2 from congrArg (fun t => t.2.2) hready.terms]
      exact hmodes)
  have hpeer : peer = x.peerSeg p.key .line := hready.retrained.peerSeg _ _
  rw [if_pos (by rw [hexh, hexl, show whole = true from hwhole]; rfl), hpeer]
  exact State.onPort_pair hready (by rw [show (ready.port p).hlanes = _ from hready.host]; rfl)
    (by rw [show (ready.port p).llanes = _ from hready.line]; rfl) rfl

end

/-! #### The fret of the pair -/

theorem foldl_single {α β : Type} {f : α → β → α} {l : List β} (hnodup : l.Nodup) {k : β} (hk : k ∈ l) {a : α}
    (hbefore : ∀ b ∈ l, b ≠ k → f a b = a) (hafter : ∀ b ∈ l, b ≠ k → f (f a k) b = f a k) : l.foldl f a = f a k := by
  obtain ⟨l₁, l₂, rfl⟩ := List.append_of_mem hk
  have hne : (∀ b ∈ l₁, b ≠ k) ∧ ∀ b ∈ l₂, b ≠ k := by
    rw [List.nodup_append, List.nodup_cons] at hnodup
    obtain ⟨-, ⟨hk₂, -⟩, hdisj⟩ := hnodup
    exact ⟨fun b hb => hdisj b hb k List.mem_cons_self, fun b hb h => hk₂ (h ▸ hb)⟩
  rw [List.foldl_append, foldl_idle fun b hb => hbefore b (by simp [hb]) (hne.1 b hb), List.foldl_cons,
    foldl_idle fun b hb => hafter b (by simp [hb]) (hne.2 b hb)]

theorem Die.mem_engineOrder {x : Die} {q : Nat} : q ∈ x.engineOrder ↔ q < 136 ∧ (x.engineAt q).isSome = true := by
  simp only [Die.engineOrder, List.mem_append, List.mem_filter, List.mem_range]
  cases x.stroke.trainLeft.contains q <;> simp

section
variable {s t : State} {p : PortId} {i j : Nat} {a b : LaneSess}

theorem State.engineEnds_off {d : DieId} {n : Nat} (h : ((s.die d).port n).enabled = false) : s.engineEnds d n = s := by
  rw [State.engineEnds, h]
  rfl

theorem State.engineEnds_session {n : Nat} (h : ((s.die p.die).port p.key).enabled = true) (hsess : ((s.die p.die).port p.key).sess = true)
    (hn : n = p.key) : s.engineEnds p.die n = s.enginePort p := by
  subst hn
  rw [State.engineEnds, h, hsess, portId_of_key]
  rfl

/-- What the engine's frets change before the lanes leaves what a single port is. -/
theorem Die.Single.moved {x y : Die} {n i j : Nat} (hx : x.Single n i j) (hactive : y.active = x.active) (hslices : y.slices = x.slices)
    (hcourses : y.courses = x.courses) (hports : y.ports = x.ports) : y.Single n i j := by
  have hport (m : Nat) : y.port m = x.port m := Die.port_congr hports m
  have hseg (g : Side) : y.segPos n g = x.segPos n g := Die.segPos_congr hactive (by rw [hport]) g
  have hconv (g : Side) (m : Nat) : y.laneConv n g m = x.laneConv n g m := by
    have hserving : y.serving (n / 8) g m = x.serving (n / 8) g m := Die.serving_congr (fun c g => by rw [Die.course_congr hcourses]) _ _ _
    rw [Die.laneConv, Die.laneConv, hserving, Die.slice, Die.slice, hslices]
  exact {
    lt := hx.lt
    enabled := by rw [hport]; exact hx.enabled
    sess := by rw [hport]; exact hx.sess
    others := fun m hm hne => by rw [hport]; exact hx.others m hm hne
    host := (hseg _).trans hx.host
    line := (hseg _).trans hx.line
    lattice := by rw [Die.cfga_congr hactive]; exact hx.lattice
    gearbox := by rw [Die.cfga_congr hactive]; exact hx.gearbox
    convHost := (hconv _ _).trans hx.convHost
    convLine := (hconv _ _).trans hx.convLine }

theorem LaneSess.held_bits_lt (l : LaneSess) : l.held.bits < 8 := by
  unfold LaneSess.held b2n
  dsimp only
  split <;> split <;> omega

/-- The engine's work of one stroke for a die with one port in session, both lanes in HOLD, converged and told ready. -/
theorem State.engine_pair {order : List Nat} (hx : (s.die p.die).Single p.key i j) (hleft : (s.die p.die).stroke.trainLeft = [])
    (hhost : (s.port p).hlanes = [(i, a)]) (hline : (s.port p).llanes = [(j, b)]) (hpre : fld (s.port p).trn 3 3 = 0)
    (hmodes : bit (s.port p).modes 0 = false) (ha : a.waits ∧ a.rrRx = true) (hb : b.waits ∧ b.rrRx = true)
    (horder : ∀ q ∈ order, q < 136) (hi : txOf (p.key / 8) .host i ∈ order) (hj : txOf (p.key / 8) .line j ∈ order)
    (ht : (List.range 64).foldl (fun t n => t.engineEnds p.die n) (order.foldl (fun t q => t.engineDecides p.die q) s) = t) :
    (t.port p).hlanes = [(i, { a.held with state := 5, rrTx := true, count := endCount false })] ∧
    (t.port p).llanes = [(j, { b.held with state := 5, rrTx := true, count := endCount ((s.die p.die).peerSeg p.key .line) })] := by
  have hself : (s.port p).lanePair i j a b = s.port p := by rw [Port.lanePair, ← hhost, ← hline]
  have hstart : (s.die p.die).Retrained p.key ((s.port p).lanePair i j a b) (s.die p.die) :=
    ⟨rfl, rfl, rfl, rfl, hself.symm, fun _ _ _ => rfl⟩
  have hheld := State.engineDecides_all hx rfl horder hstart ha.1 hb.1
  rw [if_pos hi, if_pos hj] at hheld
  generalize order.foldl (fun t q => t.engineDecides p.die q) s = u at hheld ht
  have hu := hx.retrained hheld rfl
  have hpair : (s.die p.die).PairAt p.key i j a.held b.held (s.port p).terms (u.die p.die) := {
    retrained := { hheld with port := rfl }
    host := by rw [hheld.port]; rfl
    line := by rw [hheld.port]; rfl
    terms := by rw [hheld.port]; rfl }
  have hdone := State.enginePort_pair hx hpair rfl hpre hmodes hleft b.held_bits_lt ⟨ha.1.1, ha.2⟩ ⟨hb.1.1, hb.2⟩
  have hafter := hx.retrained hdone.retrained (congrArg Prod.fst hdone.terms)
  have hend : u.engineEnds p.die p.key = u.enginePort p := State.engineEnds_session hu.enabled hu.sess rfl
  rw [foldl_single List.nodup_range (List.mem_range.mpr hx.lt)
    (fun n hn hne => State.engineEnds_off (hu.others n (List.mem_range.mp hn) hne))
    (fun n hn hne => State.engineEnds_off (by rw [hend]; exact hafter.others n (List.mem_range.mp hn) hne)), hend] at ht
  subst ht
  exact ⟨hdone.host, hdone.line⟩

/-- The engine's fret on a die with one port in session, both its lanes in HOLD, converged and told ready (R161, R163, R164, R180). -/
theorem trainingEngineFret_pair (hup : up s p.die = true) (hruns : (s.die p.die).trainRuns = true) (hopen : s.fretOpen p.die 17 20 = true)
    (hcut : (s.die p.die).stroke.trainCut = 0) (hx : (s.die p.die).Single p.key i j) (hhost : (s.port p).hlanes = [(i, a)])
    (hline : (s.port p).llanes = [(j, b)]) (hpre : fld ((s.die p.die).trnCfg p.key) 3 3 = 0) (hmodes : bit (s.port p).modes 0 = false)
    (ha : a.state = 3 ∧ a.rrRx = true ∧ a.fresh = false) (hb : b.state = 3 ∧ b.rrRx = true ∧ b.fresh = false) :
    Completes (.trainingEngineFret p.die) s (fun t =>
      (t.port p).hlanes = [(i, { a with state := 5, rrTx := true, count := endCount false, bits := 2 * b2n a.flock + 4 * b2n a.reqPre })] ∧
      (t.port p).llanes = [(j, { b with
        state := 5, rrTx := true, count := endCount ((s.die p.die).peerSeg p.key .line), bits := 2 * b2n b.flock + 4 * b2n b.reqPre })]) := by
  have hopened (u : State) (hu : u.blk .active = s.blk .active ∧ u.blk .slices = s.blk .slices ∧ u.blk .ports = s.blk .ports)
      (hcourses : (u.die p.die).courses = ((s.toFret 17).die p.die).courses) : (u.die p.die).Single p.key i j :=
    hx.moved (State.active_of_blk hu.1 _) (State.slices_of_blk hu.2.1 _) (hcourses.trans (s.advance_courses (by decide) p.die))
      (State.ports_of_blk hu.2.2 _)
  have hxran := hopened ((s.toFret 17).onDie p.die fun x => x.didFret 17) (by simp) (by simp [Die.didFret])
  have hxE := hopened (s.engineOpens p.die []) (by simp [State.engineOpens]) (by simp [State.engineOpens, Die.didFret])
  have hcutran : (((s.toFret 17).onDie p.die fun x => x.didFret 17).die p.die).stroke.trainCut = 0 := by
    obtain ⟨m, t, cs, ts, r, h⟩ := State.advance_die (s := s) (40 * 17) p.die
    rw [State.die_onDie_same, State.toFret, h]
    exact hcut
  have hleft : ((s.engineOpens p.die []).die p.die).stroke.trainLeft = [] := by simp [State.engineOpens]
  have hport : (s.engineOpens p.die []).port p = s.port p := State.port_of_blk (by simp [State.engineOpens]) p
  have hpeer : ((s.engineOpens p.die []).die p.die).peerSeg p.key .line = (s.die p.die).peerSeg p.key .line :=
    Die.peerSeg_congr (State.active_of_blk (by simp [State.engineOpens]) _) _ _
  suffices ∃ t, execTrainingEngineFret p.die s = .next t ∧ _ from this
  rw [execTrainingEngineFret_next hup hruns hopen rfl rfl, hcutran, Nat.sub_zero, List.take_length, List.drop_length]
  refine ⟨_, rfl, ?_⟩
  have hc : p.key / 8 < 8 := by have := hx.lt; omega
  obtain ⟨hlow, -, -, -⟩ := txOf_host_parts hc hx.host_lt
  obtain ⟨hhigh, hlt, -, -, -⟩ := txOf_line_parts hc hx.line_lt
  rw [← hport] at hhost hline hmodes
  have hpair := State.engine_pair (order := (((s.toFret 17).onDie p.die fun x => x.didFret 17).die p.die).engineOrder) hxE hleft hhost hline
    (by rw [hport]; exact hpre) hmodes ⟨⟨ha.1, ha.2.2⟩, ha.2.1⟩ ⟨⟨hb.1, hb.2.2⟩, hb.2.1⟩ (fun q hq => (Die.mem_engineOrder.mp hq).1)
    (Die.mem_engineOrder.mpr ⟨by omega, by rw [hxran.engineAt_eq (by omega), if_pos rfl]; rfl⟩)
    (Die.mem_engineOrder.mpr ⟨hlt, by rw [hxran.engineAt_eq hlt, if_neg (by omega), if_pos rfl]; rfl⟩) rfl
  rw [hpeer] at hpair
  exact hpair

end

end Sys2Proof.Machine
end

section
/-! SUPPORT. Which dies are under a restore (R286), the stroke that a boundary opens for the others (R21, R40), and the boundary at
which a training budget runs out (R158). -/

set_option Elab.async false

namespace Sys2Proof.Machine

/-! ### The restores -/

/-- Which dies are under a restore (R286). -/
def State.restores (s : State) : DieId → Bool := fun d => (s.die d).brg.restoring

theorem State.restores_blk (s : State) : (s.blk .brg).restores = s.restores := by
  funext d
  rw [State.restores, State.die_brg_blk, State.restores]

/-- Writing a die that stands as it did. -/
@[simp] theorem State.restores_setDie {s : State} {d : DieId} {x : Die} (hx : x.brg.restoring = (s.die d).brg.restoring) :
    (s.setDie d x).restores = s.restores := by
  funext e
  unfold State.restores
  rw [State.die_setDie]
  split
  next he => rw [he, hx]
  next => rfl

theorem State.restores_onDie (s : State) (d : DieId) (f : Die → Die) (hf : ∀ x, (f x).brg.restoring = x.brg.restoring) :
    (s.onDie d f).restores = s.restores :=
  State.restores_setDie (hf _)

@[simp] theorem State.restores_ite (c : Prop) [Decidable c] (s t : State) :
    (if c then s else t).restores = if c then s.restores else t.restores := apply_ite State.restores c s t

@[simp] theorem State.restores_foldl {α : Type} (s : State) (f : State → α → State) (l : List α)
    (h : ∀ t a, ((f t a).blk .brg).restores = (t.blk .brg).restores) : ((l.foldl f s).blk .brg).restores = (s.blk .brg).restores :=
  State.foldl_keeps s (fun t => (t.blk .brg).restores) f h l

@[simp] theorem State.restores_onAll (s : State) (f : State → DieId → State)
    (h : ∀ t d, ((f t d).blk .brg).restores = (t.blk .brg).restores) : ((s.onAll f).blk .brg).restores = (s.blk .brg).restores :=
  State.onAll_keeps s (fun t => (t.blk .brg).restores) f h

@[simp] theorem State.restores_onAwake (s : State) (f : State → DieId → State)
    (h : ∀ t d, ((f t d).blk .brg).restores = (t.blk .brg).restores) : ((s.onAwake f).blk .brg).restores = (s.blk .brg).restores := by
  simp [State.onAwake, h]

@[simp] theorem State.sendTo_restores (s : State) (a b : DieId) (body : Body) (answered : Bool) :
    ((s.sendTo a b body answered).blk .brg).restores = (s.blk .brg).restores := by
  simp [State.sendTo]

@[simp] theorem State.broadcast_restores (s : State) (a : DieId) (body : Body) :
    ((s.broadcast a body).blk .brg).restores = (s.blk .brg).restores := by
  simp [State.broadcast]

@[simp] theorem State.dispatch_restores (s : State) (d : DieId) (x : Packet × Nat) :
    ((s.dispatch d x).blk .brg).restores = (s.blk .brg).restores := by
  simp [State.dispatch]

@[simp] theorem State.startHeld_restores (s : State) (d : DieId) (n : QueueId) :
    ((s.startHeld d n).blk .brg).restores = (s.blk .brg).restores := by
  simp [State.startHeld]

@[simp] theorem State.receive_restores (s : State) (d : DieId) (r : Rec) :
    ((s.receive d r).blk .brg).restores = (s.blk .brg).restores := by
  simp [State.receive]

@[simp] theorem State.deliver_restores (s : State) (at_ : DieId) (r : Rec) :
    ((s.deliver at_ r).blk .brg).restores = (s.blk .brg).restores := by
  simp [State.deliver]

@[simp] theorem State.finish_restores (s : State) (k : Packet) (op : Nat) (r : Rec) (span : Nat) :
    ((s.finish k op r span).blk .brg).restores = (s.blk .brg).restores := by
  simp [State.finish]

@[simp] theorem State.finishHw_restores (s : State) (k : Packet) (op : Nat) (r : Rec) (span : Nat) :
    ((s.finishHw k op r span).blk .brg).restores = (s.blk .brg).restores := by
  simp [State.finishHw]

@[simp] theorem State.endOp_restores (s : State) (d : DieId) (o : Op) (status effect : Nat) (data : List Nat) :
    ((s.endOp d o status effect data).blk .brg).restores = (s.blk .brg).restores := by
  simp [State.endOp]

@[simp] theorem State.progress_restores (s : State) (d : DieId) (o : Op) (pos : Nat) :
    ((s.progress d o pos).blk .brg).restores = (s.blk .brg).restores := by
  simp [State.progress]

@[simp] theorem State.conclude_restores (s : State) (d : DieId) (o : Op) (status effect : Nat) (data : List Nat) :
    ((s.conclude d o status effect data).blk .brg).restores = (s.blk .brg).restores := by
  simp [State.conclude]

@[simp] theorem State.closeTest_restores (s : State) (d : DieId) (t : Test) (r : TestResult) (status : Nat) (rec extra : List Nat) :
    ((s.closeTest d t r status rec extra).blk .brg).restores = (s.blk .brg).restores := by
  simp only [State.closeTest]
  (repeat' split) <;> simp

@[simp] theorem State.hoFail_restores (s : State) (d : DieId) (c : Nat) (h : Side) (r : SideRot) (live reason status : Nat) (kept : Bool) :
    ((s.hoFail d c h r live reason status kept).blk .brg).restores = (s.blk .brg).restores := by
  simp only [State.hoFail]
  (repeat' split) <;> simp

@[simp] theorem State.hoDrop_restores (s : State) (d : DieId) (c : Nat) (h : Side) (status : Nat) :
    ((s.hoDrop d c h status).blk .brg).restores = (s.blk .brg).restores := by
  simp [State.hoDrop]

@[simp] theorem State.workEnd_restores (s : State) (d : DieId) (c : Nat) (h : Side) (o : Op) (why status effect : Nat) (data : List Nat) :
    ((s.workEnd d c h o why status effect data).blk .brg).restores = (s.blk .brg).restores := by
  simp [State.workEnd]

@[simp] theorem State.workAbort_restores (s : State) (d : DieId) (c : Nat) (h : Side) (o : Op) (why : Nat) :
    ((s.workAbort d c h o why).blk .brg).restores = (s.blk .brg).restores := by
  simp [State.workAbort]

@[simp] theorem State.endCheck_restores (s : State) (d : DieId) (o : Op) (status : Nat) (data : List Nat) :
    ((s.endCheck d o status data).blk .brg).restores = (s.blk .brg).restores := by
  simp [State.endCheck]

@[simp] theorem State.checkCut_restores (s : State) (d : DieId) (o : Op) (status : Nat) :
    ((s.checkCut d o status).blk .brg).restores = (s.blk .brg).restores := by
  unfold State.checkCut
  split <;> simp

@[simp] theorem State.cutChecks_restores (s : State) (p : PortId) :
    ((s.cutChecks p).blk .brg).restores = (s.blk .brg).restores := by
  simp [State.cutChecks]

@[simp] theorem State.testCut_restores (s : State) (d : DieId) (t : Test) (r : TestResult) (status : Nat) :
    ((s.testCut d t r status).blk .brg).restores = (s.blk .brg).restores := by
  simp [State.testCut]

@[simp] theorem State.testFinish_restores (s : State) (d : DieId) (t : Test) (status : Nat) :
    ((s.testFinish d t status).blk .brg).restores = (s.blk .brg).restores := by
  unfold State.testFinish
  extract_lets u
  simp

@[simp] theorem State.cutTests_restores (s : State) (p : PortId) :
    ((s.cutTests p).blk .brg).restores = (s.blk .brg).restores := by
  simp [State.cutTests]

@[simp] theorem State.fuseCut_restores (s : State) (d : DieId) (o : Op) (status : Nat) :
    ((s.fuseCut d o status).blk .brg).restores = (s.blk .brg).restores := by
  unfold State.fuseCut
  split <;> simp

@[simp] theorem State.twiFinish_restores (s : State) (d : DieId) (m : Nat) (o : Op) (result status : Nat) (acked : Nat)
    (data : List Byte) (stop : Bool) :
    ((s.twiFinish d m o result status acked data stop).blk .brg).restores = (s.blk .brg).restores := by
  simp [State.twiFinish]

@[simp] theorem State.twiCut_restores (s : State) (d : DieId) (m status : Nat) (stop : Bool) :
    ((s.twiCut d m status stop).blk .brg).restores = (s.blk .brg).restores := by
  unfold State.twiCut
  split <;> simp

@[simp] theorem State.trainEnd_restores (s : State) (p : PortId) (status effect reason seg : Nat) :
    ((s.trainEnd p status effect reason seg).blk .brg).restores = (s.blk .brg).restores := by
  unfold State.trainEnd
  split <;> simp

@[simp] theorem State.startEnd_restores (s : State) (p : PortId) (status reason seg : Nat) :
    ((s.startEnd p status reason seg).blk .brg).restores = (s.blk .brg).restores := by
  unfold State.startEnd
  split <;> simp

@[simp] theorem State.portOff_restores (s : State) (p : PortId) (reason : Nat) :
    ((s.portOff p reason).blk .brg).restores = (s.blk .brg).restores := by
  unfold State.portOff
  extract_lets -lift d n x v u₁ u₂ u₃ u₄ u₅ u₆
  have h₁ : (u₁.blk .brg).restores = (s.blk .brg).restores := by
    unfold u₁
    split <;> simp
  simp [u₂, u₃, u₄, u₅, u₆, h₁]

@[simp] theorem State.queueAt_restores (s : State) (d : DieId) (n : QueueId) :
    ((s.queueAt d n).blk .brg).restores = (s.blk .brg).restores := by
  simp [State.queueAt]

@[simp] theorem State.mcDisable_restores (s : State) (d : DieId) (m : Nat) :
    ((s.mcDisable d m).blk .brg).restores = (s.blk .brg).restores := by
  simp [State.mcDisable]

@[simp] theorem State.useLedger_restores (s : State) (d : DieId) :
    ((s.useLedger d).blk .brg).restores = (s.blk .brg).restores := by
  unfold State.useLedger
  extract_lets old loaded x queued seq moved pwm masters
  have hqueued : (queued.blk .brg).restores = (s.blk .brg).restores := by
    unfold queued
    split <;> simp [loaded]
  simp [masters, pwm, seq, hqueued]

@[simp] theorem State.loadLedger_restores (s : State) (d : DieId) :
    ((s.loadLedger d).blk .brg).restores = (s.blk .brg).restores := by
  simp [State.loadLedger]

@[simp] theorem State.adoptCount_restores (s : State) (d : DieId) :
    ((s.adoptCount d).blk .brg).restores = (s.blk .brg).restores := by
  simp [State.adoptCount]

@[simp] theorem State.sendGlobal_restores (s : State) (d : DieId) (mask kind : Nat) :
    ((s.sendGlobal d mask kind).blk .brg).restores = (s.blk .brg).restores := by
  simp [State.sendGlobal]

@[simp] theorem State.releaseHeld_restores (s : State) (d : DieId) :
    ((s.releaseHeld d).blk .brg).restores = (s.blk .brg).restores := by
  simp [State.releaseHeld]

@[simp] theorem State.fwSend_restores (s : State) (mask : Nat) :
    ((s.fwSend mask).blk .brg).restores = (s.blk .brg).restores := by
  simp [State.fwSend]

@[simp] theorem State.fwRelease_restores (s : State) (d : DieId) :
    ((s.fwRelease d).blk .brg).restores = (s.blk .brg).restores := by
  simp [State.fwRelease]

@[simp] theorem State.snapSend_restores (s : State) (k : Packet) :
    ((s.snapSend k).blk .brg).restores = (s.blk .brg).restores := by
  simp [State.snapSend]

@[simp] theorem State.snapRelease_restores (s : State) (d : DieId) :
    ((s.snapRelease d).blk .brg).restores = (s.blk .brg).restores := by
  unfold State.snapRelease
  split <;> simp

@[simp] theorem State.dropUnreached_restores (s : State) (d : DieId) :
    ((s.dropUnreached d).blk .brg).restores = (s.blk .brg).restores := by
  unfold State.dropUnreached
  split
  · rfl
  · extract_lets lost
    simp [apply_ite]

@[simp] theorem State.resend_restores (s : State) (d : DieId) (r : Sent) :
    ((s.resend d r).blk .brg).restores = (s.blk .brg).restores := by
  simp [State.resend]

@[simp] theorem State.routesAt_restores (s : State) (d : DieId) :
    ((s.routesAt d).blk .brg).restores = (s.blk .brg).restores := by
  unfold State.routesAt
  extract_lets x
  split
  · rfl
  · split
    simp

@[simp] theorem State.markIsol_restores (s : State) (a d : DieId) (on : Bool) :
    ((s.markIsol a d on).blk .brg).restores = (s.blk .brg).restores := by
  simp [State.markIsol]

@[simp] theorem State.tellIsolated_restores (s : State) (d : DieId) (lost : Bool) :
    ((s.tellIsolated d lost).blk .brg).restores = (s.blk .brg).restores := by
  unfold State.tellIsolated
  extract_lets u
  split <;> simp [u]

@[simp] theorem State.lostAt_restores (s : State) (d : DieId) :
    ((s.lostAt d).blk .brg).restores = (s.blk .brg).restores := by
  unfold State.lostAt
  extract_lets b
  split <;> simp

@[simp] theorem State.ringAt_restores (s : State) : (s.ringAt.blk .brg).restores = (s.blk .brg).restores := by
  unfold State.ringAt
  extract_lets was u v teller w
  have hw : (w.blk .brg).restores = (s.blk .brg).restores := by
    unfold w
    clear_value teller
    (repeat' split) <;> simp [v, u]
  simp [hw]

@[simp] theorem State.rootAt_restores (s : State) : (s.rootAt.blk .brg).restores = (s.blk .brg).restores := by
  unfold State.rootAt
  split
  · rfl
  · extract_lets u used w
    have hu : (u.blk .brg).restores = (s.blk .brg).restores := by simp [u]
    have hw : (w.blk .brg).restores = (u.blk .brg).restores :=
      State.restores_onAll u _ fun t d => State.restores_foldl t _ _ fun t a => by simp
    split <;> simp [hw, hu]

/-! ### What ends a restore -/

section
variable {s : State} {e : DieId}

/-- Writing a die whose restore ends starts none. -/
theorem State.restores_setDie_ended (h : s.restores e = false) {d : DieId} {x : Die} (hx : x.brg.restoring = false) :
    (s.setDie d x).restores e = false := by
  unfold State.restores at h ⊢
  rw [State.die_setDie]
  split
  · exact hx
  · exact h

theorem State.abortOp_restores (h : (s.blk .brg).restores e = false) (d : DieId) (o : Op) (status : Nat) :
    ((s.abortOp d o status).blk .brg).restores e = false := by
  simp only [State.abortOp]
  (repeat' split) <;> simp [h, State.restores_setDie_ended]

theorem State.abortOps_restores (h : (s.blk .brg).restores e = false) (d : DieId) (f : Op → Bool) (status : Nat) :
    ((s.abortOps d f status).blk .brg).restores e = false :=
  List.foldlRecOn (motive := fun t : State => (t.blk .brg).restores e = false) _ _ h fun _ ht o _ => State.abortOp_restores ht d o status

/-- The end of a die's work starts no restore (R284). -/
theorem State.stopDie_restores (h : (s.blk .brg).restores e = false) (d : DieId) : ((s.stopDie d).blk .brg).restores e = false := by
  unfold State.stopDie
  extract_lets -lift u₁ u₂ u₃ u₄ u₅ u₆ u₇ u₈
  have h₁ : (u₁.blk .brg).restores = (s.blk .brg).restores :=
    State.restores_foldl s _ _ fun t c => State.restores_foldl t _ _ fun t h => by split <;> simp
  have h₂ : (u₂.blk .brg).restores e = false := State.abortOps_restores ((congrFun h₁ e).trans h) d _ stAborted
  have h₃ : (u₃.blk .brg).restores = (u₂.blk .brg).restores := by simp [u₃]
  have h₄ : (u₄.blk .brg).restores = (u₃.blk .brg).restores := State.restores_foldl u₃ _ _ fun t n => by simp
  have h₆ : (u₆.blk .brg).restores = (u₄.blk .brg).restores := by simp [u₆, u₅]
  have h₇ : u₇.restores e = false :=
    State.restores_setDie_ended (s := u₆) (by rw [← State.restores_blk, h₆, h₄, h₃, h₂])
      (congrArg Brg.restoring (u₆.die d).workStopped_brg :)
  simpa [u₈, State.restores_blk] using h₇

theorem State.isolateAt_restores (h : (s.blk .brg).restores e = false) (d : DieId) :
    ((s.isolateAt d).blk .brg).restores e = false := by
  unfold State.isolateAt
  split
  · simpa using State.stopDie_restores h d
  · exact h

theorem State.rejoin_restores (h : (s.blk .brg).restores e = false) (d : DieId) (o : Op) :
    ((s.rejoin d o).blk .brg).restores e = false := by
  unfold State.rejoin
  extract_lets took u₁ u₂ u₃ u₄ u₅
  have h₁ : u₁.restores e = false :=
    State.restores_setDie_ended (by rwa [← State.restores_blk, State.useLedger_restores]) rfl
  have h₂ : (u₂.blk .brg).restores = (u₁.blk .brg).restores := u₁.markIsol_restores d d false
  have h₃ : (u₃.blk .brg).restores = (u₂.blk .brg).restores := State.restores_foldl u₂ _ _ fun t n => by simp
  rw [← State.restores_blk, ← h₂, ← h₃] at h₁
  simpa [u₅, u₄] using h₁

/-- Going on to a restore's next step starts none. -/
theorem State.restoreStep_restores (h : (s.blk .brg).restores e = false) (d : DieId) (o : Op) (n : Nat) :
    (((s.onDie d (fun x => { x with brg := { x.brg with restStep := n } })).progress d o n).blk .brg).restores e = false := by
  rw [State.progress_restores, State.restores_blk, State.restores_onDie (hf := by intro; rfl), ← State.restores_blk, h]

theorem State.restoreAt_restores (h : (s.blk .brg).restores e = false) (d : DieId) :
    ((s.restoreAt d).blk .brg).restores e = false := by
  simp only [State.restoreAt]
  split
  · exact h
  split
  · exact h
  split
  · exact State.restoreStep_restores (by simpa using h) d _ 1
  · split
    · exact State.restoreStep_restores (by simpa using h) d _ 2
    · rw [State.endOp_restores, State.restores_blk]
      exact State.restores_setDie_ended (by rwa [← State.restores_blk]) rfl
  · (repeat' split)
    · exact State.restoreStep_restores (by simpa using h) d _ 3
    · simpa using h
    · exact h
  · exact State.rejoin_restores h d _

end

/-! ### The stroke that a boundary opens -/

/-- Which dies are under a restore is set by their bridge blocks. -/
theorem State.restores_of_blk {s t : State} (h : (t.blk .brg).restores = (s.blk .brg).restores) : t.restores = s.restores := by
  rwa [State.restores_blk, State.restores_blk] at h

@[simp] theorem Die.newStroke_restoring (x : Die) (back : Bool) : (x.newStroke back).brg.restoring = x.brg.restoring := rfl

@[simp] theorem Die.crcStroke_brg (x : Die) (a : Bool) : (x.crcStroke a).brg = x.brg := by
  simpa only [Die.brg_blk] using congrArg Die.brg (x.crcStroke_blk a (β := .brg) (by simp))

/-- Opening the stroke starts no restore and ends none (R21). -/
theorem State.newStrokes_restores (s : State) (back : Bool) :
    ((s.onAwake fun s d => s.onDie d fun x => (x.crcStroke (isAccess s.part d)).newStroke (back && d = 0)).blk .brg).restores =
      (s.blk .brg).restores :=
  s.restores_onAwake _ fun t d => by
    rw [State.restores_blk, State.restores_blk]
    exact t.restores_onDie d _ fun x => by simp

/-- A step of a restore moves the count of no die that is under none (R286). -/
theorem State.restoreAt_count (s : State) (d e : DieId) (h : (s.die e).brg.restoring = false) :
    ((s.restoreAt d).die e).stroke.count = (s.die e).stroke.count := by
  rcases s.restoreAt_stroke d with hkeep | ⟨hrest, hadopt⟩
  · rw [State.stroke_of_blk hkeep]
  · have hne : e ≠ d := fun he => by simp [he, hrest] at h
    rw [State.stroke_of_blk hadopt, (s.adoptCount_stroke d).2.2 e hne]

/-- The turns of parity, isolation and restore move the count of no die that is under no restore (R286). -/
theorem State.restoreTurns_count (s : State) (e : DieId) (h : s.restores e = false) :
    ((s.onAwake fun s d => ((s.parityAt d).isolateAt d).restoreAt d).die e).stroke.count = (s.die e).stroke.count := by
  refine (State.onAwake_induction
    (motive := fun t : State => (t.blk .brg).restores e = false ∧ (t.die e).stroke.count = (s.die e).stroke.count)
    s _ ⟨by rwa [State.restores_blk], rfl⟩ fun t d ht => ?_).2
  obtain ⟨hrest, hcount⟩ := ht
  have hisol : ((((t.parityAt d).isolateAt d).blk .brg).restores e) = false :=
    State.isolateAt_restores (by simpa using hrest) d
  have hstroke : (((t.parityAt d).isolateAt d).die e).stroke = (t.die e).stroke := State.stroke_of_blk (by simp) e
  refine ⟨State.restoreAt_restores hisol d, ?_⟩
  rw [State.restoreAt_count _ d e (by rwa [State.restores_blk] at hisol), hstroke, hcount]

/-- At a boundary a die of the part that is awake and under no restore enters its next stroke (R21, R40). -/
theorem State.boundary_stroke (s : State) (obs : BoundaryObs) {d : DieId} (hd : present s.part d = true)
    (hawake : (s.die d).stroke.asleep = false) (hrest : (s.die d).brg.restoring = false) :
    (s.boundary obs).stroke d = s.stroke d + 1 := by
  unfold State.boundary
  extract_lets u1 back u2 u3 u4 u5 u6 u7
  have h1 : u1.clocks = s.clocks := by
    have hmeas : u1.clocks = ((s.advance 1279).onAwake (fun s d => s.onDie d (fun x => x.frets 1))).clocks :=
      State.clocks_of_blk (by simp [u1])
    have hfrets : ((s.advance 1279).onAwake (fun s d => s.onDie d (fun x => x.frets 1))).clocks = (s.advance 1279).clocks :=
      State.clocks_of_blk (by simp)
    rw [hmeas, hfrets, State.advance_clocks]
  have hr1 : (u1.blk .brg).restores = (s.blk .brg).restores := by simp [u1]
  have hpart : u1.part = s.part := (congrArg State.part (by simp [u1] : u1.blk .fixed = s.blk .fixed) :)
  clear_value u1 back
  have hawake1 : (u1.die d).stroke.asleep = false := (congrArg (fun c => (c d).2.2) h1 :).trans hawake
  have hcount1 : (u1.die d).stroke.count = s.stroke d := (congrArg (fun c => (c d).1) h1 :)
  have h2 : u2.clocks d = ((u1.die d).stroke.count + 1, 0, false) := u1.newStrokes_clock back (hpart ▸ hd) hawake1
  have hr2 : (u2.blk .brg).restores = (u1.blk .brg).restores := u1.newStrokes_restores back
  clear_value u2
  have h3 : u3.clocks d = u2.clocks d := State.resumesAt_clock _ (congrArg (fun c => c.2.2) h2 :)
  have hr3 : (u3.blk .brg).restores = (u2.blk .brg).restores :=
    congrArg State.restores (State.resumesAt_blk ({ u2 with pos := 0 } : State) (by simp))
  clear_value u3
  have h5 : u5.clocks = u3.clocks := State.clocks_of_blk (by simp [u5, u4])
  have hr5 : (u5.blk .brg).restores = (u3.blk .brg).restores := by simp [u5, u4]
  have hcount5 : (u5.die d).stroke.count = (u1.die d).stroke.count + 1 :=
    (congrArg (fun c => c.1) ((congrFun h5 d).trans (h3.trans h2)) :)
  have hrest5 : u5.restores d = false := by
    rw [State.restores_of_blk (hr5.trans (hr3.trans (hr2.trans hr1)))]
    exact hrest
  clear_value u5
  have hcount6 : (u6.die d).stroke.count = s.stroke d + 1 :=
    (u5.restoreTurns_count d hrest5).trans (hcount5.trans (congrArg (· + 1) hcount1))
  clear_value u6
  have hclocks := State.clocks_of_blk (s := u6) (t := (u7.onAll fun s d => s.snapAnswer d).onAwake fun s d =>
    if isAccess s.part d then (s.ringRelease d).resyncAt d else s) (by simp [u7])
  exact (congrArg (fun c => (c d).1) hclocks :).trans hcount6

/-! ### The boundary at which a training budget runs out -/

/-- What a stroke measured when nothing new was seen. -/
def emptyObs : BoundaryObs := { slices := [], fec := [], fills := [], prs := [], agree := [], limits := [], sent := [], eyes := [], twi := [] }

/-- TRAIN_BUDGET_EXPIRED, when the budget of a session that is not yet ENDING runs out, is the boundary (R158). -/
theorem execTrainBudgetExpired_boundary {s : State} {p : PortId} (hup : up s p.die = true) (hsess : (s.port p).sess = true)
    (hover : (s.port p).begun + (s.die p.die).budget p.key ≤ s.stroke p.die + 1) (hreason : (s.die p.die).budgetReason p.key ≠ 0) :
    execTrainBudgetExpired p s = .next (s.boundary emptyObs) := by
  obtain ⟨hhere, hrun⟩ := up_iff.mp hup
  unfold execTrainBudgetExpired
  extract_lets v x
  rw [if_pos (by simp [hhere, hrun, v, x, hsess, hover, hreason])]
  rfl

theorem execStrokeBoundary_running {s : State} (hrun : s.running = true) (obs : BoundaryObs) :
    execStrokeBoundary obs s = .next (s.boundary obs) := by
  rw [execStrokeBoundary, if_pos hrun]

/-- The boundary at which a training budget runs out opens the next stroke (R21, R158, R181). -/
theorem trainBudgetExpired_boundary {s : State} {p : PortId} (hup : up s p.die = true) (hsess : (s.port p).sess = true)
    (hover : (s.port p).begun + (s.die p.die).budget p.key ≤ s.stroke p.die + 1) (hreason : (s.die p.die).budgetReason p.key ≠ 0) :
    Completes (.trainBudgetExpired p) s (fun t => exec (.strokeBoundary emptyObs) s = .next t ∧ t.pos = 0 ∧ t.phase = 2 ∧
      ∀ d : DieId, present s.part d = true → (s.die d).brg.restoring = false → (s.die d).stroke.asleep = false →
        t.stroke d = s.stroke d + 1) := by
  obtain ⟨-, hrun⟩ := up_iff.mp hup
  have hphase : s.phase = 2 := by simpa [State.running] using hrun
  exact Completes.of _ (execTrainBudgetExpired_boundary hup hsess hover hreason)
    ⟨execStrokeBoundary_running hrun emptyObs, s.boundary_pos emptyObs, (s.boundary_phase emptyObs).trans hphase,
      fun _ hd hrest hawake => s.boundary_stroke emptyObs hd hawake hrest⟩

end Sys2Proof.Machine
end

section
/-! PROOFS. Training sessions: the engine's fret, the end of a session at its budget, and the training commands. -/

open Sys2Proof Sys2Proof.Machine

/-- Settles O32: the engine's fret is followed lane by lane and then port by port; a session ends at its budget at the boundary, whose
stroke blocks are followed through its phases; the commands answer by their checks (R158 to R164, R181 to R185). -/
theorem trainingSessions : Obligations.TrainingSessions := by
  unfold Obligations.TrainingSessions
  refine ⟨?engineIdle, ?enginePair, ?budgetExpires, ?budgetFails, ?starts, ?runsAlready, ?aborts, ?status⟩
  case engineIdle =>
    intro s d hup hruns hopen _ hports
    exact trainingEngineFret_noPort hup hruns hopen hports
  case enginePair =>
    intro s p i j a b hup hruns hopen hcut hen hsess hothers hhost hline ha hb hlat hgear hpre hmodes hwaitA hwaitB hconvA hconvB
    have hsingle : (s.die p.die).Single p.key i j := {
      lt := PortId.key_lt p
      enabled := hen
      sess := hsess
      others := fun m hm hne => by
        have hkey : 8 * (m / 8) + m % 8 = m := Nat.div_add_mod m 8
        have hoff := hothers ⟨m % 8, by omega⟩ ⟨m / 8, by omega⟩ (by rw [hkey]; exact hne)
        rwa [hkey] at hoff
      host := hhost
      line := hline
      lattice := hlat
      gearbox := hgear
      convHost := hconvA
      convLine := hconvB }
    exact trainingEngineFret_pair hup hruns hopen hcut hsingle ha hb hpre hmodes hwaitA hwaitB
  case budgetExpires =>
    intro s p hup hsess hover hreason
    exact trainBudgetExpired_boundary hup hsess hover hreason
  case budgetFails =>
    intro s p hstate hpres hgoes hover hreason
    rw [State.portAt_budget hstate hpres hgoes hover hreason]
    obtain ⟨hdetected, hsess, hfailed, htold, hstart⟩ := s.trainFail_port p ((s.die p.die).budgetReason p.key)
    exact ⟨hdetected, hsess, hfailed, htold, hstart, fun hseek => htold.trans (Die.budgetReason_seek hseek)⟩
  case starts =>
    intro s u k p htakes hstate hbusy hover hholds hroom
    exact trainStart_enters htakes hstate hbusy hover hholds hroom
  case runsAlready =>
    intro s u k p htakes hlow hhigh
    exact Answers.of u (execTrainStart_running htakes hlow hhigh) rfl
  case aborts =>
    intro s u k p htakes hcount hsess
    exact Completes.of _ (execTrainAbort_session htakes hcount hsess) rfl
  case status =>
    intro s u k p htakes
    exact Answers.of (u.toFret 21) (execTrainStatus_done htakes) rfl
end

section
/-! SUPPORT. The datapath: alignment lock and degraded windows of the FEC engines (R196, R197, R199), and the block lock of the 64b/66b
monitors (R203). -/

namespace Sys2Proof.Machine

/-! ### One direction of a port -/

@[simp] theorem Port.dir_setDir (v : Port) (h : Side) (x : DirSt) : (v.setDir h x).dir h = x := by cases h <;> rfl

theorem State.onDir_dir (s : State) (p : PortId) (h : Side) (f : DirSt → DirSt) :
    ((s.onDir p h f).port p).dir h = f ((s.port p).dir h) := by
  rw [State.onDir, State.onPort_port_same, Port.dir_setDir]

/-- An operation that leaves the ports' block alone, after a change of a direction, leaves that direction as it was changed. -/
theorem State.onDir_dir_kept {s t : State} {p : PortId} {h : Side} {f : DirSt → DirSt}
    (hports : t.blk .ports = (s.onDir p h f).blk .ports) : (t.port p).dir h = f ((s.port p).dir h) := by
  rw [State.port_of_blk hports, State.onDir_dir]

/-! ### Alignment lock (R196, R197) -/

section
variable {s : State} {p : PortId} (h : Side) (skew : Nat) (hup : up s p.die = true) (hcarry : (s.port p).carrying = true)
  (hfec : hasFec ((s.die p.die).cfga p.key) = true)
include hup hcarry hfec

/-- An engine that gains lock within the skew it passed at before: its pass-through stands (R196, R197). -/
theorem fecLockChange_gains (hlock : ((s.port p).dir h).fecLock = false)
    (hbypass : ((s.port p).dir h).bypass = (dpath ((s.die p.die).cfga p.key) == 2 && decide (20 < skew))) :
    Posts (.fecLockChange p h true skew) s p.die (296 + p.key) 0x20 (Side.code h + 256 * min skew 255) (fun u =>
      (u.port p).dir h = { (s.port p).dir h with fecLock := true, skew := min skew 255 }) := by
  obtain ⟨hhere, hrun⟩ := up_iff.mp hup
  refine Posts.of (s.onDir p h fun x => { x with fecLock := true, skew := min skew 255, bypass := ((s.port p).dir h).bypass }) ?_
    (s.onDir_dir p h _)
  change execFecLockChange p h true skew s = _
  simp [execFecLockChange, hhere, hrun, hcarry, hfec, hlock, ← hbypass, State.postPort]

/-- An FT engine that gains lock beyond 20 dc of skew passes its codewords through, counted and told (R197). -/
theorem fecLockChange_passes (hlock : ((s.port p).dir h).fecLock = false) (hbypass : ((s.port p).dir h).bypass = false)
    (hpath : dpath ((s.die p.die).cfga p.key) = 2) (hskew : 20 < skew) :
    Posts (.fecLockChange p h true skew) s p.die (296 + p.key) 0x24 (Side.code h + 256 * min skew 255 + 65536) (fun u =>
      (u.port p).dir h = { (s.port p).dir h with fecLock := true, skew := min skew 255, bypass := true }) := by
  obtain ⟨hhere, hrun⟩ := up_iff.mp hup
  refine Posts.of (((s.onDir p h fun x => { x with fecLock := true, skew := min skew 255, bypass := true }).postPort p 0x20
    (Side.code h + 256 * min skew 255)).count p.die (cDp p.course.val p.idx.val h + 0x60)) ?_ ?dir
  case dir => exact State.onDir_dir_kept ((State.count_blk _ _ _ _ (by simp)).trans (State.postPort_blk _ _ _ _ (by simp)))
  change execFecLockChange p h true skew s = _
  simp [execFecLockChange, hhere, hrun, hcarry, hfec, hlock, hbypass, hpath, hskew, State.postPort, b2n]

/-- An engine that loses lock keeps its skew and its pass-through (R196, R197). -/
theorem fecLockChange_loses (hlock : ((s.port p).dir h).fecLock = true) :
    Posts (.fecLockChange p h false skew) s p.die (296 + p.key) 0x21 (Side.code h) (fun u =>
      (u.port p).dir h = { (s.port p).dir h with fecLock := false, fecRan := true, metLow := true }) := by
  obtain ⟨hhere, hrun⟩ := up_iff.mp hup
  refine Posts.of ((s.onDir p h fun x => { x with fecLock := false, fecRan := true, metLow := true }).count p.die
    (cDp p.course.val p.idx.val h + 0x1C)) ?_ ?dir
  case dir => exact State.onDir_dir_kept (State.count_blk _ _ _ _ (by simp))
  change execFecLockChange p h false skew s = _
  simp [execFecLockChange, hhere, hrun, hcarry, hfec, hlock, State.postPort]

end

/-! ### Degraded windows (R199) -/

/-- The end of a whole window with 2^E corrected symbols or more sets the flag, and the next window counts afresh. -/
theorem fecDegWindowEnd_sets {s : State} {p : PortId} {h : Side} {e : Nat} (hup : up s p.die = true)
    (hon : fld ((s.die p.die).act (oDp p.course.val p.idx.val)) 5 5 = 1)
    (he : fld ((s.die p.die).act (oDp p.course.val p.idx.val)) 4 0 = e)
    (hfec : hasFec ((s.die p.die).cfga p.key) = true) (hend : s.stroke p.die % 1024 = 0)
    (hnew : s.stroke p.die ≠ ((s.port p).dir h).degAt) (hwhole : ((s.port p).dir h).degWhole = true)
    (hdeg : ((s.port p).dir h).deg = false) (hmany : 2 ^ e ≤ ((s.port p).dir h).degCount) :
    Posts (.fecDegWindowEnd p h) s p.die (296 + p.key) 0x22 (Side.code h + 256 * min ((s.port p).dir h).degCount 16777215) (fun u =>
      (u.port p).dir h = { (s.port p).dir h with deg := true, degCount := 0, degWhole := true, degAt := s.stroke p.die }) := by
  obtain ⟨hhere, hrun⟩ := up_iff.mp hup
  have hfew : ¬ 2 * ((s.port p).dir h).degCount < 2 ^ e := by omega
  refine Posts.of (s.onDir p h fun y => { y with deg := y.deg || true, degCount := 0, degWhole := true, degAt := s.stroke p.die }) ?_
    ((s.onDir_dir p h _).trans (by simp))
  change execFecDegWindowEnd p h s = _
  simp [execFecDegWindowEnd, hhere, hrun, hon, he, hfec, hend, hnew, hwhole, hdeg, hmany, hfew, State.postPort]

/-! ### Block lock (R203) -/

theorem headerOk_iff (q : BitVec 2) : headerOk q = true ↔ q = 1 ∨ q = 2 := by simp [headerOk]

theorem not_headerOk (q : BitVec 2) : (!headerOk q) = (q == 0 || q == 3) := by
  revert q
  decide

/-- 64 valid headers in succession end a search. -/
theorem lockTurns_gains {headers : List (BitVec 2)} (hlen : headers.length = 64) (hvalid : ∀ q ∈ headers, q = 1 ∨ q = 2) :
    lockTurns false headers = true := by
  have hall : headers.all headerOk = true := List.all_eq_true.mpr fun q hq => (headerOk_iff q).mpr (hvalid q hq)
  simp [lockTurns, hlen, hall]

/-- The sixteenth invalid header among at most 64, as the newest, ends a lock. -/
theorem lockTurns_loses {headers : List (BitVec 2)} (hlen : headers.length ≤ 64)
    (hbad : (headers.filter (fun q => q == 0 || q == 3)).length = 16)
    (hlast : headers.getLast? = some 0 ∨ headers.getLast? = some 3) : lockTurns true headers = true := by
  have hnewest : headers.getLast?.any (fun q => q == 0 || q == 3) = true := by rcases hlast with h | h <;> rw [h] <;> rfl
  simp only [lockTurns, not_headerOk, hlen, hbad, hnewest]
  rfl

/-- The direction whose monitor j has lost block lock: it slips by a bit, of the 66 of a block. -/
def DirSt.slips (y : DirSt) (j : Nat) : DirSt :=
  { y with block := y.block ^^^ 2 ^ j, slip := SMap.put 0 y.slip j ((SMap.get 0 y.slip j + 1) % 66), blockRan := true, metLow := true }

section
variable {s : State} {p : PortId} {h : Side} {j : Fin 8} {headers : List (BitVec 2)} (hup : up s p.die = true)
  (hen : (s.port p).enabled = true) (hblocks : hasBlocks ((s.die p.die).cfga p.key) = true)
  (hhost : ((s.die p.die).portHost p.key).contains j.val = true)
include hup hen hblocks hhost

/-- A monitor that gains block lock is blind for the first payload (R203). -/
theorem blockLockChange_gains (hopen : bit ((s.port p).dir h).block j.val = false) (hturns : lockTurns false headers = true) :
    Posts (.blockLockChange p h j headers) s p.die (296 + p.key) 0x25 (Side.code h + 2 * j.val + 16) (fun u =>
      (u.port p).dir h = { (s.port p).dir h with
        block := ((s.port p).dir h).block ^^^ 2 ^ j.val, blind := ((s.port p).dir h).blind ||| 2 ^ j.val }) := by
  obtain ⟨hhere, hrun⟩ := up_iff.mp hup
  refine Posts.of (s.onDir p h fun y => { y with block := y.block ^^^ 2 ^ j.val, blind := y.blind ||| 2 ^ j.val }) ?_ (s.onDir_dir p h _)
  change execBlockLockChange p h j headers s = _
  simp only [execBlockLockChange, hhere, hrun, hen, hblocks, hhost, hopen, State.postPort]
  simp [hturns, b2n]

/-- A monitor that loses block lock slips and searches again (R203). -/
theorem blockLockChange_loses (hlocked : bit ((s.port p).dir h).block j.val = true) (hturns : lockTurns true headers = true) :
    Posts (.blockLockChange p h j headers) s p.die (296 + p.key) 0x25 (Side.code h + 2 * j.val) (fun u =>
      ((u.port p).dir h).block = ((s.port p).dir h).block ^^^ 2 ^ j.val ∧ ((u.port p).dir h).blockRan = true ∧
      ((u.port p).dir h).metLow = true ∧
      SMap.get 0 ((u.port p).dir h).slip j.val = (SMap.get 0 ((s.port p).dir h).slip j.val + 1) % 66) := by
  obtain ⟨hhere, hrun⟩ := up_iff.mp hup
  have hdir := State.onDir_dir_kept (f := fun y => y.slips j.val)
    (State.count_blk (s.onDir p h fun y => y.slips j.val) p.die (cDp p.course.val p.idx.val h + 0x78) 1 (by simp))
  refine Posts.of _ ?_ (by rw [hdir]; exact ⟨rfl, rfl, rfl, SMap.get_put_same ..⟩)
  change execBlockLockChange p h j headers s = _
  simp only [execBlockLockChange, hhere, hrun, hen, hblocks, hhost, hlocked, State.postPort]
  simp [hturns, b2n, DirSt.slips]

end

end Sys2Proof.Machine
end

section
/-! SUPPORT. The lanes of a gearbox port: pair slips (R234), and phase sessions from start to end (R237, R238, R246). -/

namespace Sys2Proof.Machine

/-! ### Gearbox lanes read back -/

/-- A port that owns a line position of a course is one of that course's. -/
theorem Die.gbxPort_key {x : Die} {c k n : Nat} (hc : c < 8) (h : x.gbxPort c k = some n) : n < 64 ∧ n / 8 = c := by
  unfold Die.gbxPort at h
  split at h
  · cases h
  next m howner =>
  obtain ⟨-, rfl⟩ : hasGearbox (x.cfga m) = true ∧ m = n := by simpa using h
  obtain ⟨i, hi, rfl⟩ := List.mem_map.mp (List.mem_of_find?_eq_some howner)
  have := List.mem_range.mp hi
  omega

theorem Course.gbxLane_setIfInBounds_ne (v : Course) {j k : Nat} (h : j ≠ k) (g : Gbx) :
    ({ v with gbx := v.gbx.setIfInBounds k g } : Course).gbxLane j = v.gbxLane j := by
  simp [Course.gbxLane, h.symm]

section
variable (s : State) (d : DieId) (c : Nat) {k : Nat} (hk : k < 4)

theorem State.onGbx_gbxLane_ne (f : Gbx → Gbx) {j : Nat} (h : j ≠ k) :
    (((s.onGbx d c k f).die d).course c).gbxLane j = ((s.die d).course c).gbxLane j := by
  rw [State.onGbx, State.setCourse_course, Course.gbxLane_setIfInBounds_ne _ h]

include hk

theorem State.onGbx_gbxLane (f : Gbx → Gbx) :
    (((s.onGbx d c k f).die d).course c).gbxLane k = f (((s.die d).course c).gbxLane k) := by
  rw [State.onGbx, State.setCourse_course, Course.gbxLane_setIfInBounds _ hk]

/-- A phase that is back is held, and nothing else of its lane differs (R237). -/
theorem State.phaseBack_gbxLane {n : Nat} (hn : n / 8 = c) (bySession : Bool) :
    (((s.phaseBack d n k bySession).die d).course c).gbxLane k =
      { ((s.die d).course c).gbxLane k with phase := true, lostAt := none } := by
  subst hn
  unfold State.phaseBack
  extract_lets v g back
  have hback : ((back.die d).course (n / 8)).gbxLane k = { g with phase := true, lostAt := none } := by
    rw [State.setCourse_course, Course.gbxLane_setIfInBounds _ hk]
  split
  · exact hback
  · rw [State.course_of_blk (s := back) (by simp), hback]

/-- The frame that begins in a phase session changes nothing of its lane but the fields sent. -/
theorem State.frameBegin_gbxLane {n : Nat} (hn : n / 8 = c) :
    ∃ a b, (((s.frameBegin d n .line k .phase).die d).course c).gbxLane k =
      { ((s.die d).course c).gbxLane k with lane := (((s.die d).course c).gbxLane k).lane.sending a b } := by
  subst hn
  unfold State.frameBegin
  extract_lets x l
  split
  · rw [State.setLane, State.setCourse_course, Course.gbxLane_setIfInBounds _ hk]
    exact ⟨_, _, rfl⟩
  · exact ⟨l.sentCtl, l.sentSts, rfl⟩

end

/-! ### Pair slips (R234) -/

/-- A pair FIFO that runs empty or full slips, alone of the course's four. -/
theorem pairSlip_posts {s : State} {d : DieId} {c : CourseId} {k : Fin 4} {fill : BitVec 9} {n : Nat} (hup : up s d = true)
    (hport : (s.die d).gbxPort c.val k.val = some n) (hcarry : ((s.die d).port n).carrying = true)
    (hslip : (((s.die d).course c.val).gbxLane k.val).slip = false) (hfill : fill = 0 ∨ fill = 511) :
    Posts (.pairSlip d c k fill) s d (296 + n) 0x40 (k.val + 65536 * fill.toNat) (fun u =>
      ((u.die d).course c.val).gbxLane k.val = { ((s.die d).course c.val).gbxLane k.val with slip := true, fill := fill.toNat } ∧
      ∀ j : Fin 4, j ≠ k → ((u.die d).course c.val).gbxLane j.val = ((s.die d).course c.val).gbxLane j.val) := by
  obtain ⟨hhere, hrun⟩ := up_iff.mp hup
  obtain ⟨hn, -⟩ := Die.gbxPort_key c.isLt hport
  refine Posts.of ((s.onGbx d c.val k.val fun g => { g with slip := true, fill := fill.toNat }).count d
    (cCourse c.val + 0x1100 + 4 * k.val)) ?_ ?_
  · change execPairSlip d c k fill s = _
    unfold execPairSlip
    extract_lets x
    rw [hport]
    dsimp only
    rw [if_pos (by simpa [x, hhere, hrun, hcarry, hslip] using hfill), State.postPort, portId_key d hn]
    rfl
  · rw [State.die_count_same, Die.course_count]
    exact ⟨s.onGbx_gbxLane d c.val k.isLt _, fun j hj => s.onGbx_gbxLane_ne d c.val _ fun h => hj (Fin.ext h)⟩

/-! ### Phase sessions (R237, R238) -/

/-- A transmitter's refresh leaves whether a single lane's session has it. -/
theorem State.refreshTx_single (s : State) (d : DieId) (t : Nat) : (((s.refreshTx d t).die d).tx t).single = ((s.die d).tx t).single := by
  unfold State.refreshTx
  extract_lets x v m now gen start pre w set
  have hset : (set.die d).tx t = w := by simp [set]
  split
  · rw [hset]
  · have htx : (((set.count d (cTx t)).postTx d t 0x01 (v.mode + 16 * m.1 + 256 * m.2)).die d).txs = (set.die d).txs :=
      State.txs_of_blk (by simp) d
    rw [Die.tx, htx, ← Die.tx, hset]

/-- A session on a pin clears what its slice converged to; the slice's lock stays (R97). -/
theorem State.sliceSession_slice (s : State) (d : DieId) (c : Nat) (h : Side) (j : Nat) :
    (((s.sliceSession d c h j).die d).slice ((s.die d).serving c h j)).converged = false ∧
    (((s.sliceSession d c h j).die d).slice ((s.die d).serving c h j)).locked = ((s.die d).slice ((s.die d).serving c h j)).locked := by
  unfold State.sliceSession
  extract_lets t
  have hserving : (t.die d).serving c h j = (s.die d).serving c h j :=
    Die.serving_congr (fun a g => by rw [State.course_of_blk (s := s) (by simp [t])]) c h j
  rw [hserving, State.acquireAfresh_slice, State.slice_of_blk (s := s) (t := t) (by simp [t])]
  exact ⟨rfl, rfl⟩

/-- A single lane's session takes a transmitter, or gives it back (R221). -/
def State.singleTx (s : State) (d : DieId) (t : Nat) (on : Bool) : State := s.setTx d t { (s.die d).tx t with single := on }

@[simp ↓] theorem State.singleTx_blk {β : Blk} (s : State) (d : DieId) (t : Nat) (on : Bool) (hb : β ∉ [Blk.txs, .tele]) :
    (s.singleTx d t on).blk β = s.blk β := by
  simp_all [State.singleTx]

/-- What follows without a change of the transmitters leaves it so. -/
theorem State.singleTx_kept {s u : State} {d : DieId} {t : Nat} {on : Bool} (h : u.blk .txs = (s.singleTx d t on).blk .txs) :
    ((u.die d).tx t).single = on := by
  rw [Die.tx, State.txs_of_blk h, ← Die.tx, State.singleTx, State.die_setTx_same, Die.tx_setTx_same]

/-- The session identifier that a port takes next (R175; log entry 15). -/
def Die.nextId (x : Die) (n : Nat) : Nat := ((x.port n).ownId + 1) % 256

/-- A port takes its next session identifier. -/
def State.numbered (s : State) (d : DieId) (n : Nat) : State := s.onPort (portId d n) fun v => { v with ownId := (s.die d).nextId n }

@[simp ↓] theorem State.numbered_blk {β : Blk} (s : State) (d : DieId) (n : Nat) (hb : β ∉ [Blk.ports]) :
    (s.numbered d n).blk β = s.blk β := by
  simp_all [State.numbered]

/-- The number of a session is nothing that a lane at SEEK takes from its port. -/
theorem State.numbered_laneSeek {s t : State} {d : DieId} {n : Nat} (hn : n < 64) (h : t.blk .ports = (s.numbered d n).blk .ports)
    (g : Side) (j own : Nat) (noReq : Bool) : (t.die d).laneSeek n g j own noReq = (s.die d).laneSeek n g j own noReq := by
  have hport : (t.port (portId d n)) = { s.port (portId d n) with ownId := (s.die d).nextId n } :=
    (State.port_of_blk h _).trans (State.onPort_port_same ..)
  rw [State.port, State.port, portId_key d hn] at hport
  unfold Die.laneSeek
  rw [show (t.die d).port n = _ from hport]
  cases g <;> rfl

/-- A lane whose phase session starts at SEEK at stroke `now` (R161, R237, R238). -/
def Gbx.opened (g : Gbx) (now : Nat) (l : LaneSess) : Gbx := { g with phses := true, sessAt := now, lane := l }

/-- The port's next session begins on the slice and the transmitter of line lane k (R97, R162). -/
def State.laneBegins (s : State) (d : DieId) (c k n : Nat) : State :=
  ((s.numbered d n).sliceSession d c .line k).tapsStart d n .line k

@[simp ↓] theorem State.laneBegins_blk {β : Blk} (s : State) (d : DieId) (c k n : Nat)
    (hb : β ∉ [Blk.active, .slices, .pins, .ports, .evt, .tele]) : (s.laneBegins d c k n).blk β = s.blk β := by
  simp_all [State.laneBegins]

theorem State.laneBegins_laneSeek (s : State) (d : DieId) (c k : Nat) {n : Nat} (hn : n < 64) (j own : Nat) (noReq : Bool) :
    ((s.laneBegins d c k n).die d).laneSeek n .line j own noReq = (s.die d).laneSeek n .line j own noReq :=
  State.numbered_laneSeek hn ((State.tapsStart_blk _ _ _ _ _ (by simp)).trans (State.sliceSession_blk _ _ _ _ _ (by simp))) _ _ _ _

/-- As a session begins, what the lane's slice converged to is cleared, and its lock stays (R97). -/
theorem State.laneBegins_slice (s : State) (d : DieId) (c k n : Nat) :
    (((s.laneBegins d c k n).die d).slice ((s.die d).serving c .line k)).converged = false ∧
    (((s.laneBegins d c k n).die d).slice ((s.die d).serving c .line k)).locked = ((s.die d).slice ((s.die d).serving c .line k)).locked := by
  have hserving : ((s.numbered d n).die d).serving c .line k = (s.die d).serving c .line k :=
    Die.serving_congr (fun a g => by rw [State.course_of_blk (s := s) (by simp)]) _ _ _
  have hslice := (s.numbered d n).sliceSession_slice d c .line k
  rw [hserving, State.slice_of_blk (State.numbered_blk s d n (by simp))] at hslice
  rwa [State.laneBegins, State.slice_of_blk (State.tapsStart_blk _ _ _ _ _ (by simp))]

/-- The phase session of line lane k is open: it has begun on the slice and the transmitter, and its lane is at SEEK. -/
def State.phaseOpened (s : State) (d : DieId) (c k n : Nat) : State :=
  let u := s.laneBegins d c k n
  u.onGbx d c k fun g => g.opened (u.stroke d) ((u.die d).laneSeek n .line k ((s.die d).nextId n) true)

theorem State.phaseOpened_gbxLane (s : State) (d : DieId) (c : Nat) {k n : Nat} (hk : k < 4) (hn : n < 64) :
    (((s.phaseOpened d c k n).die d).course c).gbxLane k = (((s.die d).course c).gbxLane k).opened (s.stroke d)
      ((s.die d).laneSeek n .line k ((s.die d).nextId n) true) := by
  have hstroke : (s.laneBegins d c k n).stroke d = s.stroke d :=
    congrArg StrokeBlk.count (State.stroke_of_blk (State.laneBegins_blk _ _ _ _ _ (by simp)) d)
  rw [State.phaseOpened, State.onGbx_gbxLane _ _ _ hk, State.course_of_blk (State.laneBegins_blk _ _ _ _ _ (by simp)),
    s.laneBegins_laneSeek d c k hn, hstroke]

/-- The phase session of line lane k is over: its phase is back, and its transmitter is given back. -/
def State.phaseClosed (s : State) (d : DieId) (c k n : Nat) : State :=
  ((s.onGbx d c k fun g => { g with phses := false }).phaseBack d n k true).singleTx d (txOf c .line k) false

theorem State.phaseClosed_gbxLane (s : State) (d : DieId) {c k n : Nat} (hk : k < 4) (hn : n / 8 = c) :
    (((s.phaseClosed d c k n).die d).course c).gbxLane k =
      { ((s.die d).course c).gbxLane k with phses := false, phase := true, lostAt := none } := by
  rw [State.phaseClosed, State.course_of_blk (State.singleTx_blk _ _ _ _ (by simp)), State.phaseBack_gbxLane _ _ _ hk hn,
    State.onGbx_gbxLane _ _ _ hk]

section
variable {s : State} {d : DieId} {c : CourseId} {k : Fin 4} {n : Nat} (hup : up s d = true)
  (hport : (s.die d).gbxPort c.val k.val = some n)
include hup hport

theorem execPhaseSession_starts (hcarry : ((s.die d).port n).carrying = true)
    (hphase : (((s.die d).course c.val).gbxLane k.val).phase = false) (hphses : (((s.die d).course c.val).gbxLane k.val).phses = false)
    (hlocked : (s.die d).lineLocked c.val k.val = true)
    (hlat : hasLattice ((s.die d).cfga n) = false ∨ ((s.die d).course c.val).lat.protects = false) :
    execPhaseSession d c k s = .next ((((s.phaseOpened d c.val k.val n).singleTx d (txOf c.val .line k.val) true).frameBegin
      d n .line k.val .phase).refreshTx d (txOf c.val .line k.val)) := by
  obtain ⟨hhere, hrun⟩ := up_iff.mp hup
  have hbare : (hasLattice ((s.die d).cfga n) && ((s.die d).course c.val).lat.protects) = false := by rcases hlat with h | h <;> simp [h]
  unfold execPhaseSession
  extract_lets x g t
  rw [hport]
  exact congrArg _ (if_pos (by simp only [x, g, hhere, hrun, hcarry, hphase, hphses, hlocked, hbare]; rfl))

/-- A phase session starts at SEEK under the next session identifier, on the lane's slice, whose lock stays, and on its transmitter
(R97, R221, R237). -/
theorem phaseSession_starts (hcarry : ((s.die d).port n).carrying = true)
    (hphase : (((s.die d).course c.val).gbxLane k.val).phase = false) (hphses : (((s.die d).course c.val).gbxLane k.val).phses = false)
    (hlocked : (s.die d).lineLocked c.val k.val = true)
    (hlat : hasLattice ((s.die d).cfga n) = false ∨ ((s.die d).course c.val).lat.protects = false) :
    Completes (.phaseSession d c k) s (fun t =>
      (∃ a b, ((t.die d).course c.val).gbxLane k.val = (((s.die d).course c.val).gbxLane k.val).opened (s.stroke d)
        (((s.die d).laneSeek n .line k.val ((s.die d).nextId n) true).sending a b)) ∧
      ((t.die d).slice ((s.die d).serving c.val .line k.val)).converged = false ∧
      ((t.die d).slice ((s.die d).serving c.val .line k.val)).locked = ((s.die d).slice ((s.die d).serving c.val .line k.val)).locked ∧
      ((t.die d).tx (txOf c.val .line k.val)).single = true) := by
  obtain ⟨hn, hcourse⟩ := Die.gbxPort_key c.isLt hport
  refine Completes.of _ (execPhaseSession_starts hup hport hcarry hphase hphses hlocked hlat) ?_
  obtain ⟨hconv, hkept⟩ := s.laneBegins_slice d c.val k.val n
  have hslices : (s.phaseOpened d c.val k.val n).blk .slices = (s.laneBegins d c.val k.val n).blk .slices := by
    simp [State.phaseOpened]
  have hlane := s.phaseOpened_gbxLane d c.val k.isLt hn
  generalize s.phaseOpened d c.val k.val n = u at hslices hlane ⊢
  obtain ⟨a, b, hframe⟩ := (u.singleTx d (txOf c.val .line k.val) true).frameBegin_gbxLane d c.val k.isLt hcourse
  refine ⟨⟨a, b, ?_⟩, ?_⟩
  · rw [State.course_of_blk (State.refreshTx_blk _ _ _ (by simp)), hframe, State.course_of_blk (State.singleTx_blk _ _ _ _ (by simp)), hlane]
    rfl
  · rw [State.slice_of_blk (s := u) (by simp), State.slice_of_blk hslices, State.refreshTx_single]
    exact ⟨hconv, hkept, State.singleTx_kept (State.frameBegin_blk _ _ _ _ _ _ (by simp))⟩

/-- Once DONE has been sent and received the session ends, the phase is back, the transmitter is given back, and the port may have its
lane again (R221, R238). -/
theorem execPhaseRestored_returns (last : Fin 4) (hphses : (((s.die d).course c.val).gbxLane k.val).phses = true)
    (hstate : (((s.die d).course c.val).gbxLane k.val).lane.state = 6)
    (hsent : (((s.die d).course c.val).gbxLane k.val).lane.doneTx = true)
    (hreceived : (((s.die d).course c.val).gbxLane k.val).lane.doneRx = true) :
    ∃ f, execPhaseRestored d c k last s = .next (((((s.phaseClosed d c.val k.val n).refreshTx d (txOf c.val .line k.val)).heardLast
      d n k.val last.val).onPort (portId d n) f).count d (cCourse c.val + 0x1114)) := by
  obtain ⟨hhere, hrun⟩ := up_iff.mp hup
  unfold execPhaseRestored
  extract_lets x g t
  rw [hport]
  exact ⟨_, congrArg _ (if_pos (by simp only [g, x, hhere, hrun, hphses, hstate, hsent, hreceived]; rfl))⟩

theorem phaseRestored_returns (last : Fin 4) (hphses : (((s.die d).course c.val).gbxLane k.val).phses = true)
    (hstate : (((s.die d).course c.val).gbxLane k.val).lane.state = 6)
    (hsent : (((s.die d).course c.val).gbxLane k.val).lane.doneTx = true)
    (hreceived : (((s.die d).course c.val).gbxLane k.val).lane.doneRx = true) :
    Completes (.phaseRestored d c k last) s (fun t =>
      ((t.die d).course c.val).gbxLane k.val = { ((s.die d).course c.val).gbxLane k.val with phses := false, phase := true, lostAt := none } ∧
      ((t.die d).tx (txOf c.val .line k.val)).single = false) := by
  obtain ⟨-, hcourse⟩ := Die.gbxPort_key c.isLt hport
  obtain ⟨f, hexec⟩ := execPhaseRestored_returns hup hport last hphses hstate hsent hreceived
  refine Completes.of _ hexec ?_
  generalize hv : (s.phaseClosed d c.val k.val n).refreshTx d (txOf c.val .line k.val) = v
  constructor
  · rw [State.course_of_blk (s := s.phaseClosed d c.val k.val n) (by simp [← hv]), s.phaseClosed_gbxLane d k.isLt hcourse]
  · rw [Die.tx, State.txs_of_blk (s := v) (by simp), ← Die.tx, ← hv, State.refreshTx_single]
    exact State.singleTx_kept rfl

/-- A phase session whose budget runs out below ENDING starts over at SEEK under the next session identifier, counted and told with what
its lane waited for (R175, R238). -/
theorem execPhaseSessionFailed_restarts (hphses : (((s.die d).course c.val).gbxLane k.val).phses = true)
    (hstate : (((s.die d).course c.val).gbxLane k.val).lane.state < 5)
    (hover : (((s.die d).course c.val).gbxLane k.val).sessAt + (s.die d).budget n ≤ s.stroke d) :
    execPhaseSessionFailed d c k s = .next (((((s.numbered d n).onGbx d c.val k.val fun g => { g with
      sessAt := s.stroke d, lane := (s.die d).laneSeek n .line k.val ((s.die d).nextId n) true }).frameBegin d n .line k.val .phase).count d
      (cCourse c.val + 0x1118)).post d (296 + n) 0x43
        (k.val + 256 * laneReason (((s.die d).course c.val).gbxLane k.val).lane.state)) := by
  obtain ⟨hhere, hrun⟩ := up_iff.mp hup
  have hstroke : (s.numbered d n).stroke d = s.stroke d := congrArg StrokeBlk.count (State.stroke_of_blk (by simp) d)
  obtain ⟨hn, -⟩ := Die.gbxPort_key c.isLt hport
  unfold execPhaseSessionFailed
  extract_lets x g
  rw [hport]
  refine congrArg _ ((if_pos (by simp only [g, x, hhere, hrun, hphses, hstate, hover]; rfl)).trans ?_)
  rw [State.postPort, portId_key d hn, ← hstroke]
  rfl

theorem phaseSessionFailed_restarts (hphses : (((s.die d).course c.val).gbxLane k.val).phses = true)
    (hstate : (((s.die d).course c.val).gbxLane k.val).lane.state < 5)
    (hover : (((s.die d).course c.val).gbxLane k.val).sessAt + (s.die d).budget n ≤ s.stroke d) :
    Posts (.phaseSessionFailed d c k) s d (296 + n) 0x43
      (k.val + 256 * laneReason (((s.die d).course c.val).gbxLane k.val).lane.state) (fun u =>
        ∃ a b, ((u.die d).course c.val).gbxLane k.val = { ((s.die d).course c.val).gbxLane k.val with
          sessAt := s.stroke d, lane := ((s.die d).laneSeek n .line k.val ((s.die d).nextId n) true).sending a b }) := by
  obtain ⟨-, hcourse⟩ := Die.gbxPort_key c.isLt hport
  refine Posts.of _ (execPhaseSessionFailed_restarts hup hport hphses hstate hover) ?_
  generalize (s.die d).laneSeek n .line k.val ((s.die d).nextId n) true = seek
  obtain ⟨a, b, hframe⟩ := State.frameBegin_gbxLane ((s.numbered d n).onGbx d c.val k.val fun g => { g with
    sessAt := s.stroke d, lane := seek }) d c.val k.isLt hcourse
  refine ⟨a, b, ?_⟩
  rw [State.course_of_blk (State.count_blk _ _ _ _ (by simp)), hframe, State.onGbx_gbxLane _ _ _ k.isLt,
    State.course_of_blk (State.numbered_blk s d n (by simp))]

end

end Sys2Proof.Machine
end

section
/-! PROOFS. The datapath: FEC engines, 64b/66b monitors and gearbox lanes (R196, R197, R199, R203, R234, R235, R237, R238, R246). -/

open Sys2Proof Sys2Proof.Machine

/-- Settles O33: each row is followed to the event it posts last, or to its end. The next session identifier is the choice of log
entry 15. -/
theorem datapath : Obligations.Datapath := by
  unfold Obligations.Datapath
  refine ⟨?fecGains, ?fecPasses, ?fecLoses, ?degraded, ?blockGains, ?blockLoses, ?slips, ?phaseStarts, ?phaseReturns, ?phaseFails⟩
  case fecGains =>
    intro s p h skew hup hcarry hfec hlock hbypass
    exact fecLockChange_gains h skew hup hcarry hfec hlock hbypass
  case fecPasses =>
    intro s p h skew hup hcarry hfec hlock hbypass hpath hskew
    exact fecLockChange_passes h skew hup hcarry hfec hlock hbypass hpath hskew
  case fecLoses =>
    intro s p h skew hup hcarry hfec hlock
    exact fecLockChange_loses h skew hup hcarry hfec hlock
  case degraded =>
    intro s p h e hup hon he hfec hend hnew hwhole hdeg hmany
    exact fecDegWindowEnd_sets hup hon he hfec hend hnew hwhole hdeg hmany
  case blockGains =>
    intro s p h j headers hup hen hblocks hhost hopen hlen hvalid
    exact blockLockChange_gains hup hen hblocks hhost hopen (lockTurns_gains hlen hvalid)
  case blockLoses =>
    intro s p h j headers hup hen hblocks hhost hlocked hlen hbad hlast
    exact blockLockChange_loses hup hen hblocks hhost hlocked (lockTurns_loses hlen hbad hlast)
  case slips =>
    intro s d c k fill n hup hport hcarry hslip hfill
    exact pairSlip_posts hup hport hcarry hslip hfill
  case phaseStarts =>
    intro s d c k n hup hport hcarry hphase hphses hlocked hlat
    refine (phaseSession_starts hup hport hcarry hphase hphses hlocked hlat).mono ?_
    rintro t ⟨⟨a, b, hlane⟩, hslice⟩
    exact ⟨by rw [hlane]; rfl, hslice⟩
  case phaseReturns =>
    intro s d c k last n hup hport hphses hstate hsent hreceived
    exact phaseRestored_returns hup hport last hphses hstate hsent hreceived
  case phaseFails =>
    intro s d c k n hup hport hphses hstate hover
    refine (phaseSessionFailed_restarts hup hport hphses hstate hover).mono ?_
    rintro t ⟨u, hposted, a, b, hlane⟩
    refine ⟨u, hposted, ?_⟩
    dsimp only
    rw [hlane]
    rfl
end

section
/-! SUPPORT. The lattice: LATTICE_ENABLE in its three actions and LATTICE_STATUS (R225, R226), and a single-lane session of a course
that stays disarmed (R224). -/

set_option Elab.async false

namespace Sys2Proof.Machine

/-! ### The word of LATTICE_ENABLE (R225) -/

/-- Word 4 with ACTION 2 and a position holds these two alone. -/
theorem bits_readmit : ∀ pos < 16, bits (2 + 16 * pos) 1 0 = 2 ∧ bits (2 + 16 * pos) 3 2 = 0 ∧ bits (2 + 16 * pos) 7 4 = pos := by
  decide

/-! ### LATTICE_ENABLE (R225) -/

section
variable {s u : State} {k : Packet} {p : PortId} (htakes : takesPort s u k 0x0601 p = true)
  (hlattice : hasLattice ((u.die p.die).cfga p.key) = true) {l : Lattice} (hl : ((u.die p.die).course p.course.val).lat = l)
include htakes hlattice hl

/-- ACTION 0 asks for the disarm, and waits for the next boundary. -/
theorem State.latEnable_disarms (hword : k.w 4 = 0) (hmine : (u.die p.die).latKey p.course.val = p.key) (hlow : 2 ≤ l.state)
    (harmed : l.state ≠ 7) : s.latEnable k =
      (u.onLat p.die p.course.val fun l => { l with disarm := true }).await k 0x0601 (u.stroke p.die + 1) p.course.val := by
  rw [State.latEnable, State.commandDefined_takes _ htakes]
  simp [hword, bits, hlattice, hmine, hl, harmed, Nat.not_lt.mpr hlow]

/-- ACTION 1 re-arms a disarmed course of a carrying port, and replies with its new state. -/
theorem State.latEnable_rearms (hword : k.w 4 = 1) (hcarry : (u.port p).carrying = true) (hdisarmed : l.state = 7)
    (hreason : l.dreason ≠ 3) : s.latEnable k =
      (u.latRearm p.die p.course.val).finish k 0x0601 (mkRec k stDone 1 [{ l with state := 2, pos := 15 }.stat]) := by
  have hstat : (((u.latRearm p.die p.course.val).die p.die).course p.course.val).lat.stat = { l with state := 2, pos := 15 }.stat := by
    rw [State.latRearm, State.onLat_lat, State.latMove_lat, hl]
    rfl
  rw [State.latEnable, State.commandDefined_takes _ htakes, ← hstat]
  simp [hword, bits, hlattice, hcarry, hl, hdisarmed, hreason, State.done, stDone]

/-- ACTION 2 of the lane that waits announces its re-admission. What LAT_STAT shows does not change with it. -/
theorem State.latEnable_announces (hword : k.w 4 = 2 + 16 * l.pos) (hpos : l.pos < 16) (hawaits : l.awaits = true)
    (hnew : l.announced = false) :
    s.latEnable k = (u.latAnnounce p.die p.course.val l.pos).finish k 0x0601 (mkRec k stDone 1 [l.stat]) := by
  obtain ⟨haction, hzero, hnamed⟩ := bits_readmit _ hpos
  have hsmall : ¬256 ≤ 2 + 16 * l.pos := by omega
  have hstat : (((u.latAnnounce p.die p.course.val l.pos).die p.die).course p.course.val).lat.stat = l.stat := by
    rw [State.latAnnounce, State.lat_of_blk (State.count_blk _ _ _ _ (by simp)), State.onLat_lat, hl]
    rfl
  have hidle : ¬(l.state = 5 ∨ l.state = 6) := by
    simp only [Lattice.awaits, Bool.or_eq_true, Bool.and_eq_true, beq_iff_eq] at hawaits
    omega
  rw [State.latEnable, State.commandDefined_takes _ htakes, ← hstat]
  simp [hword, haction, hzero, hnamed, hsmall, hlattice, hl, hidle, hawaits, hnew, State.done, stDone]

end

/-! ### LATTICE_STATUS (R226) -/

/-- The words of LATTICE_STATUS of course c at stroke `now`: the state, its age, the agreement, the syndromes, the waits. -/
def Die.latWords (x : Die) (now c : Nat) : List Nat :=
  let l := (x.course c).lat
  [pair l.stat l.skew, sat32 (now - l.changed), pair (l.agree / 1024) (sat16 l.singles), l.nonzero]
    ++ (List.range 5).map fun m => pair (x.latWait c (2 * m)) (x.latWait c (2 * m + 1))

/-- The words are told by the configuration and the courses. -/
theorem Die.latWords_congr {x y : Die} (hactive : y.active = x.active) (hcourses : y.courses = x.courses) (now c : Nat) :
    y.latWords now c = x.latWords now c := by
  have hwait (v : Nat) : y.latWait c v = x.latWait c v := by
    rw [Die.latWait, Die.latWait, Die.latKey, Die.latKey, Die.course_congr hcourses, Die.cfga_congr hactive]
  simp only [Die.latWords, Die.course_congr hcourses, hwait]

/-- Up to fret 27 time passing leaves a die's lattices, its configuration and its stroke count as they were (R22, R146), and so what
LATTICE_STATUS tells. -/
theorem State.toFret_latWords (s : State) (d : DieId) {f : Nat} (hf : f < 28) (c : Nat) :
    ((s.toFret f).die d).latWords ((s.toFret f).stroke d) c = (s.die d).latWords (s.stroke d) c := by
  have hstroke : (s.toFret f).stroke d = s.stroke d := congrArg Prod.fst (congrFun (s.advance_clocks (40 * f)) d)
  have hactive : ((s.toFret f).die d).active = (s.die d).active := State.active_of_blk (s.toFret_blk f (by simp)) d
  rw [hstroke, Die.latWords_congr hactive (s.advance_courses (by omega) d)]

section
variable {s u : State} {k : Packet} {p : PortId} (htakes : takesPort s u k 0x0602 p = true)
include htakes

theorem execLatticeStatus_done (hlattice : hasLattice ((u.die p.die).cfga p.key) = true) :
    execLatticeStatus k s = .next ((u.toFret 21).finish k 0x0602
      (mkRec k stDone 3 ((u.die p.die).latWords (u.stroke p.die) p.course.val))) := by
  rw [execLatticeStatus, State.commandDefined_takes _ htakes, ← u.toFret_latWords p.die (f := 21) (by decide)]
  simp [hlattice, State.done, stDone, Die.latWords]

theorem execLatticeStatus_unprotected (hlattice : hasLattice ((u.die p.die).cfga p.key) = false) :
    execLatticeStatus k s = .next (u.finish k 0x0602 (mkRec k stNotReady 0 [])) := by
  rw [execLatticeStatus, State.commandDefined_takes _ htakes]
  simp [hlattice, State.refuse]

end

/-! ### A single-lane session of a course that stays disarmed (R224) -/

/-- Where a course was disarmed, but not by the protection lane, while its transmitter sends frames, a single-lane session that starts
leaves it disarmed. -/
theorem State.singleStart_disarmed (s : State) (d : DieId) (c pos : Nat) (hdisarmed : ((s.die d).course c).lat.state = 7)
    (hreason : ((s.die d).course c).lat.dreason ≠ 4) (hframes : ((s.die d).course c).lat.txFrames = true) :
    (((s.singleStart d c pos).die d).course c).lat.state = 7 := by
  unfold State.singleStart
  extract_lets n lat own moved started opened numbered
  have hmoved : moved = s := if_pos (by simp [lat, hdisarmed, hreason, hframes])
  have hstarted : ((started.die d).course c).lat = ((s.die d).course c).lat := by
    unfold started
    rw [hmoved]
    exact State.lat_of_blk (by simp) d c
  have hnumbered : ((numbered.die d).course c).lat = ((opened.die d).course c).lat :=
    State.lat_of_blk (opened.onPort_blk _ _ (by simp)) d c
  obtain ⟨lane, hframe⟩ := numbered.frameBegin_lat d n .line pos c
  rw [hframe, hnumbered]
  unfold opened
  rw [State.onLat_lat, hstarted]
  exact hdisarmed

/-- READMIT_TRAIN_SWITCH of such a course does not enter READMIT. -/
theorem readmitTrainSwitch_disarmed {s : State} {d : DieId} {c : CourseId} (hup : up s d = true) (hon : (s.die d).latOn c.val = true)
    (hannounced : ((s.die d).course c.val).lat.announced = true) (hdisarmed : ((s.die d).course c.val).lat.state = 7)
    (hreason : ((s.die d).course c.val).lat.dreason ≠ 4) (hframes : ((s.die d).course c.val).lat.txFrames = true) :
    Completes (.readmitTrainSwitch d c) s (fun t => ((t.die d).course c.val).lat.state = 7) := by
  obtain ⟨hhere, hrun⟩ := up_iff.mp hup
  refine Completes.of _ (congrArg Host.Outcome.next (if_pos (by simp [hhere, hrun, hon, hannounced]))) ?_
  rw [State.lat_of_blk (s := s.singleStart d c.val ((s.die d).course c.val).lat.ann) (by simp)]
  exact s.singleStart_disarmed d c.val _ hdisarmed hreason hframes

/-- A running package on whose die 0 port 0 has lattice and carries. A single-lane session of its course has failed, with the
transmitter left in TRAIN (R223), a second lane has disarmed the course (R224), and the partner's announcement has been accepted
(R220). -/
def State.disarmedAnnounced : State :=
  ({ State.reset with phase := 2 } : State).onDie 0 fun x => ((x.setAct (oCfga 0 0) 0x0803).setPort 0 { state := 4 }).setCourse 0
    { x.course 0 with lat := { state := 7, pos := 0, pos2 := 1, dreason := 2, txFrames := true, spos := 0, announced := true, ann := 2 } }

end Sys2Proof.Machine
end

section
/-! PROOFS. The lattice: its events and its commands. -/

open Sys2Proof Sys2Proof.Machine

/-- Refutes O34: a course disarmed with DREASON 2 after a failed single-lane session accepts an announcement, and at the switch to TRAIN
it stays disarmed (R224; log entry 27), where the statement has it enter READMIT. -/
theorem not_latticeEvents : ¬ Obligations.LatticeEvents := by
  unfold Obligations.LatticeEvents
  rintro ⟨-, -, -, -, -, -, -, -, -, -, hswitch, -⟩
  have hup : up State.disarmedAnnounced 0 = true := by decide
  have hon : (State.disarmedAnnounced.die 0).latOn 0 = true := by decide
  obtain ⟨t, ht, u, rfl, hreadmit, -⟩ := hswitch State.disarmedAnnounced 0 0 hup hon (by decide)
  obtain ⟨v, hv, hdisarmed⟩ := readmitTrainSwitch_disarmed (c := 0) hup hon (by decide) (by decide) (by decide) (by decide)
  obtain rfl : v = _ := Host.Outcome.next.inj (hv.symm.trans ht)
  rw [State.lat_of_blk (State.post_blk _ _ _ _ _ (by simp))] at hdisarmed
  exact absurd (hdisarmed.symm.trans hreadmit) (by decide)

/-- Settles O35: each action runs its branch of LATTICE_ENABLE on the port that TARGET names, and the status words of fret 21 are those of
before, since time passing up to there changes no lattice. What a reply shows is log entry 35. -/
theorem latticeCommands : Obligations.LatticeCommands := by
  unfold Obligations.LatticeCommands
  refine ⟨?disarm, ?rearm, ?announce, ?status, ?unprotected⟩
  case disarm =>
    intro s u k p htakes hword hlattice hmine hlow harmed
    exact Completes.of _ (congrArg Host.Outcome.next (State.latEnable_disarms htakes hlattice rfl hword hmine hlow harmed)) rfl
  case rearm =>
    intro s u k p htakes hword hlattice hcarry hdisarmed hreason
    exact Answers.of _ (congrArg Host.Outcome.next (State.latEnable_rearms htakes hlattice rfl hword hcarry hdisarmed hreason)) rfl
  case announce =>
    intro s u k p htakes hword hlattice hpos hawaits hnew
    exact Answers.of _ (congrArg Host.Outcome.next (State.latEnable_announces htakes hlattice rfl hword hpos hawaits hnew)) rfl
  case status =>
    intro s u k p htakes hlattice
    exact Answers.of _ (execLatticeStatus_done htakes hlattice) rfl
  case unprotected =>
    intro s u k p htakes hlattice
    exact Answers.of _ (execLatticeStatus_unprotected htakes hlattice) rfl
end

section
/-! SUPPORT. The boundary-scan registers outside the rows that write them (R480). -/

set_option Elab.async false

namespace Sys2Proof.Machine

/-- The boundary reaches no boundary-scan register: outside writesScan a row leaves those of every die as they were (R480). -/
theorem exec_keeps_scan (c : Instr) (s : State) (h : writesScan c = false) : Keeps .scan s (exec c s) := by
  have hboundary : ∀ obs, (s.boundary obs).blk .scan = s.blk .scan := fun obs => State.boundary_blk s obs (by simp)
  cases c with
  | powerOnReset | brownout | resetN => cases h
  | strokeBoundary => exact execStrokeBoundary_meets (fun t => t.blk .scan = s.blk .scan) rfl hboundary _
  | trainBudgetExpired => exact execTrainBudgetExpired_meets (fun t => t.blk .scan = s.blk .scan) rfl hboundary _
  | _ => exact exec_keeps _ s (by rw [Blk.writtenBy, h]; rfl)

end Sys2Proof.Machine
end

section
/-! SUPPORT. The references and the soundpost (R249 to R259): what the end of a window counts, what a trip of a reference takes away, the
holdover of the lane PLLs, and the change of SYS to the soundpost. -/

set_option Elab.async false

namespace Sys2Proof.Machine

/-! ### The clock block read back -/

theorem State.clk_of_blk {s t : State} (h : t.blk .clk = s.blk .clk) (d : DieId) : (t.die d).clk = (s.die d).clk :=
  (congrArg Die.clk (State.die_of_blk h d) :)

@[simp] theorem State.onClk_clk (s : State) (d : DieId) (f : Clk → Clk) : ((s.onClk d f).die d).clk = f (s.die d).clk := by
  simp [State.onClk]

@[simp] theorem State.onClk_stroke (s : State) (d e : DieId) (f : Clk → Clk) : (s.onClk d f).stroke e = s.stroke e := by
  rw [State.stroke, State.stroke_of_blk (s.onClk_blk d f (by simp)), ← State.stroke]

/-- What leaves the position and the stroke blocks alone leaves every timestamp (R29). -/
theorem State.stamp_of_blk {s t : State} (hpos : t.blk .pos = s.blk .pos) (hstroke : t.blk .stroke = s.blk .stroke) (d : DieId) :
    t.stamp d = s.stamp d := by
  rw [State.stamp, State.ownTime, State.stroke_of_blk hstroke, State.pos_of_blk hpos, ← State.ownTime, ← State.stamp]

/-! ### References that pass and fail (R249, R250) -/

theorem State.setReady_clk (s : State) (d : DieId) (r : Nat) (on : Bool) : ((s.setReady d r on).die d).clk =
    if (s.die d).clk.ready r = on then (s.die d).clk
    else if r = 0 then
      { (s.die d).clk with aReady := on, aPass := if on then (s.die d).clk.aPass else 0, aSince := s.stroke d }
    else { (s.die d).clk with bReady := on, bPass := if on then (s.die d).clk.bPass else 0, bSince := s.stroke d } := by
  unfold State.setReady
  dsimp only
  split
  · rfl
  · rw [State.post_die_clk, State.onClk_clk]

/-- v after a window that reference r passes: the fourth in a row makes it READY, since stroke `since`. -/
def Clk.passes (v : Clk) (since : Nat) : Ref → Clk
  | .a => { v with aPass := v.aPass + 1, aReady := v.aReady || decide (4 ≤ v.aPass + 1), aSince := since }
  | .b => { v with bPass := v.bPass + 1, bReady := v.bReady || decide (4 ≤ v.bPass + 1), bSince := since }

theorem State.qualify_passes (s : State) (d : DieId) (r : Ref) :
    ∃ since, ((s.qualify d (refNum r) true false).die d).clk = (s.die d).clk.passes since r := by
  cases r
  case a =>
    refine ⟨if 4 ≤ (s.die d).clk.aPass + 1 ∧ (s.die d).clk.aReady = false then s.stroke d else (s.die d).clk.aSince, ?_⟩
    by_cases hfour : 4 ≤ (s.die d).clk.aPass + 1 <;> cases hready : (s.die d).clk.aReady <;>
      simp [State.qualify, refNum, State.setReady_clk, Clk.ready, Clk.passes, hfour, hready]
  case b =>
    refine ⟨if 4 ≤ (s.die d).clk.bPass + 1 ∧ (s.die d).clk.bReady = false then s.stroke d else (s.die d).clk.bSince, ?_⟩
    by_cases hfour : 4 ≤ (s.die d).clk.bPass + 1 <;> cases hready : (s.die d).clk.bReady <;>
      simp [State.qualify, refNum, State.setReady_clk, Clk.ready, Clk.passes, hfour, hready]

/-- A READY reference in use keeps READY through a disagreement (R250). -/
theorem State.qualify_keeps {s : State} {d : DieId} {r : Nat} (hready : (s.die d).clk.ready r = true)
    (huse : (s.die d).clk.inUse r = true) : s.qualify d r true true = s := by
  simp [State.qualify, hready, huse]

/-- A disagreement touches no more than what is kept of reference B, and takes READY from it where it is not in use (R250). -/
theorem State.qualify_disagrees (s : State) (d : DieId) : ∃ on n since,
    ((s.qualify d 1 true true).die d).clk = { (s.die d).clk with bReady := on, bPass := n, bSince := since }
      ∧ ((s.die d).clk.inUse 1 = false → on = false ∧ n = 0) := by
  by_cases hkeeps : (s.die d).clk.ready 1 = true ∧ (s.die d).clk.inUse 1 = true
  · obtain ⟨hready, huse⟩ := hkeeps
    exact ⟨_, _, _, by rw [State.qualify_keeps hready huse], by simp [huse]⟩
  · refine ⟨false, 0, if (s.die d).clk.bReady then s.stroke d else (s.die d).clk.bSince, ?_, fun _ => ⟨rfl, rfl⟩⟩
    have hbranch : ¬(true && (s.die d).clk.ready 1 && (s.die d).clk.inUse 1) = true := by simpa using hkeeps
    unfold State.qualify
    dsimp only
    rw [if_neg (by simp), if_neg hbranch, State.count_die_clk, State.setReady_clk]
    cases hready : (s.die d).clk.bReady <;> simp [Clk.ready, hready]

/-- w is v with READY taken from reference r, and no more changed than what is kept of the two references. -/
def Clk.Trips (v : Clk) (r : Ref) (w : Clk) : Prop :=
  w.ready (refNum r) = false ∧ ∃ aReady bReady aPass bPass aSince bSince, w =
    { v with aReady := aReady, bReady := bReady, aPass := aPass, bPass := bPass, aSince := aSince, bSince := bSince }

theorem State.setReady_trips (s : State) (d : DieId) (r : Ref) :
    (s.die d).clk.Trips r ((s.setReady d (refNum r) false).die d).clk := by
  rw [State.setReady_clk]
  split
  next hoff => exact ⟨hoff, _, _, _, _, _, _, rfl⟩
  next =>
    cases r
    · exact ⟨rfl, _, _, _, _, _, _, rfl⟩
    · exact ⟨rfl, _, _, _, _, _, _, rfl⟩

/-! ### The lane PLLs hold over (R253) -/

theorem State.enterHold_clk (s : State) (d : DieId) : ((s.enterHold d).die d).clk =
    { (s.die d).clk with laneUse := 3, lanePend := none, inHold := true, holdFrom := s.stroke d, aged := false } := by
  unfold State.enterHold
  extract_lets now held courses slices
  exact (State.clk_of_blk (t := List.foldl _ slices _) (s := held) (by simp [slices, courses]) d).trans (s.onClk_clk d _)

theorem State.enterHold_course (s : State) (d : DieId) {c : Nat} (hc : c < 8) : ((s.enterHold d).die d).course c =
    { (s.die d).course c with hold := true, relock := false, pllH := false, pllL := false } := by
  unfold State.enterHold
  extract_lets now held courses slices
  rw [State.course_of_blk (t := List.foldl _ slices _) (s := courses) (by simp [slices])]
  simp only [courses, State.die_onDie_same]
  rw [Die.course_mapCourses _ _ hc]
  rw [State.course_of_blk (t := held) (s := s) (by simp [held])]

theorem State.onSlice_slice_ne (s : State) (d : DieId) {n m : Nat} (f : Slice → Slice) (h : m ≠ n) :
    ((s.onSlice d n f).die d).slice m = (s.die d).slice m := by
  unfold State.onSlice
  dsimp only
  split
  · simp [h]
  · rw [State.slice_of_blk (State.postRx_blk _ _ _ _ _ (by simp))]
    simp [h]

/-- HOLDOVER is set on the slices that a fold reaches, and stays set on the others (R253). -/
theorem State.hold_slices (d : DieId) {n : Nat} {l : List Nat} {s : State} (h : n ∈ l ∨ ((s.die d).slice n).capoHold = true) :
    (((l.foldl (fun s n => s.onSlice d n fun v => { v with capoHold := true }) s).die d).slice n).capoHold = true := by
  induction l generalizing s with
  | nil => exact h.resolve_left List.not_mem_nil
  | cons m l ih =>
    rw [List.foldl_cons]
    by_cases hnm : n = m
    · exact ih (Or.inr (by rw [hnm, State.onSlice_slice]))
    · refine ih (h.imp (fun hmem => (List.mem_cons.mp hmem).resolve_left hnm) fun hset => ?_)
      rw [State.onSlice_slice_ne s d _ hnm, hset]

theorem State.enterHold_slice (s : State) (d : DieId) (n : SliceId) : (((s.enterHold d).die d).slice n.val).capoHold = true := by
  unfold State.enterHold
  extract_lets now held courses slices
  rw [State.slice_of_blk (t := List.foldl _ slices _) (s := slices) (State.foldl_blk _ _ _ fun t m => by split <;> simp)]
  exact State.hold_slices d (Or.inl (List.mem_range.mpr n.isLt))

/-! ### The changes of the SYS source (R252, R255, R258) -/

theorem State.sysTo_clk (s : State) (d : DieId) (src : Nat) (forced : Bool) : ((s.sysTo d src forced).die d).clk =
    { (s.die d).clk with
      sysUse := src, sysPend := none, sysStop := false, forcedSys := forced, failing := false, defer := false,
      spRun := (s.die d).clk.spRun || (s.die d).clk.failing || (s.die d).clk.defer,
      refSp := if src = 2 then 0 else (s.die d).clk.refSp } := by
  unfold State.sysTo
  extract_lets v changed fell counted posted
  exact (State.clk_of_blk (s := changed) (by simp [posted, counted, fell]) d).trans (s.onClk_clk d _)

/-! ### The rows -/

/-- What a trip of reference r brings before a source changes (R251, R260, R266): READY ends, REF_FAIL is counted and posted, and the
failover of the domains that ran from r is noted. -/
def State.refTrip (s : State) (d : DieId) (r : Ref) (sys lane stopped : Bool) : State :=
  (((s.setReady d (refNum r) false).count d cClk).post d 360 0x01 (failData r sys lane stopped)).onClk d fun v =>
    { v with failover := v.failover ||| (b2n sys + 2 * b2n lane) }

theorem State.refTrip_clk (s : State) (d : DieId) (r : Ref) (sys lane stopped : Bool) : ∃ v, (s.die d).clk.Trips r v ∧
    ((s.refTrip d r sys lane stopped).die d).clk = { v with failover := (s.die d).clk.failover ||| (b2n sys + 2 * b2n lane) } := by
  obtain ⟨hoff, a, b, p, q, i, j, hv⟩ := s.setReady_trips d r
  refine ⟨_, ⟨hoff, a, b, p, q, i, j, hv⟩, ?_⟩
  rw [State.refTrip, State.onClk_clk, State.post_die_clk, State.count_die_clk, hv]

theorem State.refTrip_blk {β : Blk} (s : State) (d : DieId) (r : Ref) (sys lane stopped : Bool) (hb : β ∉ [Blk.clk, .evt, .tele]) :
    (s.refTrip d r sys lane stopped).blk β = s.blk β := by
  simp_all [State.refTrip]

/-- A trip of the SYS reference during a restart of the soundpost: what happens of it before SYS enters free-run holdover (R258). -/
def State.restartTrip (s : State) (d : DieId) (r : Ref) (stopped : Bool) : State :=
  let lane := (s.die d).clk.laneUse == refNum r
  let t := ((s.setReady d (refNum r) false).count d cClk).post d 360 0x02 (failData r true lane stopped)
  if lane then t.enterHold d else t

theorem State.restartTrip_clk (s : State) (d : DieId) (r : Ref) (stopped : Bool) :
    ((s.restartTrip d r stopped).die d).clk.ready (refNum r) = false ∧ ((s.restartTrip d r stopped).die d).clk.laneUse =
      if (s.die d).clk.laneUse = refNum r then 3 else (s.die d).clk.laneUse := by
  obtain ⟨hoff, a, b, p, q, i, j, hv⟩ := s.setReady_trips d r
  unfold State.restartTrip
  extract_lets lane t
  have ht : (t.die d).clk = ((s.setReady d (refNum r) false).die d).clk := by
    simp [t]
  by_cases hlane : (s.die d).clk.laneUse = refNum r
  · rw [if_pos (beq_iff_eq.mpr hlane), if_pos hlane, State.enterHold_clk, ht]
    exact ⟨hoff, rfl⟩
  · rw [if_neg (fun h => hlane (beq_iff_eq.mp h)), if_neg hlane, ht]
    exact ⟨hoff, by rw [hv]⟩

theorem State.restartTrip_stamp (s : State) (d : DieId) (r : Ref) (stopped : Bool) : (s.restartTrip d r stopped).stamp d = s.stamp d :=
  State.stamp_of_blk (by simp [State.restartTrip]) (by simp [State.restartTrip]) d

section
variable {s : State} {d : DieId} (hup : up s d = true)
include hup

/-- A trip of the LANE reference alone (R253). -/
theorem execRefFail_lane {r : Ref} {stopped : Bool} (hlane : (s.die d).clk.laneUse = refNum r) (hsys : (s.die d).clk.sysUse ≠ refNum r)
    (hseen : stopped = true ∨ ((s.die d).clk.spReady = true ∧ (s.die d).refTest = none)) :
    execRefFail d r stopped s = .next ((s.refTrip d r false true stopped).enterHold d) := by
  obtain ⟨hpresent, hrun⟩ := up_iff.mp hup
  have hmon : (stopped || ((s.die d).clk.spReady && (s.die d).refTest.isNone)) = true := by simpa using hseen
  have hlane' : ((s.die d).clk.laneUse == refNum r) = true := beq_iff_eq.mpr hlane
  have hsys' : ((s.die d).clk.sysUse == refNum r && !(s.die d).clk.failing) = false := by simp [hsys]
  unfold execRefFail
  dsimp only
  rw [hsys', hlane', if_pos (by simp [hpresent, hrun, hmon])]
  rfl

/-- A trip of the SYS reference alone, with no restart of the soundpost under way (R252). -/
theorem execRefFail_sys {r : Ref} {stopped : Bool} (hsys : (s.die d).clk.sysUse = refNum r) (hlane : (s.die d).clk.laneUse ≠ refNum r)
    (hfirst : (s.die d).clk.failing = false) (hsettled : (s.die d).clk.restart = false)
    (hseen : stopped = true ∨ ((s.die d).clk.spReady = true ∧ (s.die d).refTest = none)) :
    execRefFail d r stopped s = .next ((s.refTrip d r true false stopped).onClk d fun v =>
      { v with sysPend := some 2, sysStop := stopped, failing := true }) := by
  obtain ⟨hpresent, hrun⟩ := up_iff.mp hup
  have hmon : (stopped || ((s.die d).clk.spReady && (s.die d).refTest.isNone)) = true := by simpa using hseen
  have hlane' : ((s.die d).clk.laneUse == refNum r) = false := beq_eq_false_iff_ne.mpr hlane
  have hsys' : ((s.die d).clk.sysUse == refNum r && !(s.die d).clk.failing) = true := by simp [hsys, hfirst]
  unfold execRefFail
  dsimp only
  rw [hsys', hlane', if_pos (by simp [hpresent, hrun, hsettled, hmon])]
  rfl

theorem execRefFailFallbackDeferred_eq {r : Ref} (hsys : (s.die d).clk.sysUse = refNum r) (hfirst : (s.die d).clk.failing = false)
    (hrestart : (s.die d).clk.restart = true) : execRefFailFallbackDeferred d r true s =
      .next ((s.restartTrip d r true).onClk d fun v => { v with
        sysUse := 3, sysPend := none, sysStop := true, defer := true, deferAt := s.stamp d,
        failover := v.failover ||| (1 + 2 * b2n ((s.die d).clk.laneUse == refNum r)), refSp := 0 }) := by
  obtain ⟨hpresent, hrun⟩ := up_iff.mp hup
  unfold execRefFailFallbackDeferred
  dsimp only
  rw [if_pos (by simp [hpresent, hrun, hsys, hfirst, hrestart]), ← s.restartTrip_stamp d r true]
  rfl

theorem execSpNotReady_eq (hdefer : (s.die d).clk.defer = true) (hready : (s.die d).clk.spReady = false)
    (hdue : (s.die d).clk.deferAt + 25000 ≤ s.stamp d) :
    execSpNotReady d s = .next ((s.sysTo d 2 (s.die d).clk.sysStop).post d 360 0x03 0) := by
  obtain ⟨hpresent, hrun⟩ := up_iff.mp hup
  simp [execSpNotReady, hpresent, hrun, hdefer, hready, hdue]

end

theorem State.setSp_clk (s : State) (d : DieId) (on : Bool) : ((s.setSp d on).die d).clk =
    if (s.die d).clk.spReady = on then (s.die d).clk else { (s.die d).clk with spReady := on, spPass := 0 } := by
  unfold State.setSp
  split
  · rfl
  · rw [State.post_die_clk, State.onClk_clk]

/-- v after the soundpost has failed (R257, R259): SLOW runs from SYS ÷ 50 where SYS runs from a reference, a restart is over, and a
change of SYS from the soundpost that waits for an edge is one from a stopped source. -/
def Clk.spLost (v : Clk) (stopped : Bool) : Clk :=
  { v with
    slowAlt := v.slowAlt || decide (v.sysUse < 2), restart := false,
    sysStop := v.sysStop || (stopped && v.sysUse == 2 && v.sysPend.isSome) }

theorem execSpFail_clk {s : State} {d : DieId} {stopped : Bool} {e : Byte} (hup : up s d = true)
    (hfails : (if stopped then (s.die d).clk.spReady || (s.die d).clk.restart
      else (s.die d).clk.spReady && ((s.die d).clk.aReady || (s.die d).clk.bReady)) = true) :
    Completes (.spFail d stopped e) s fun t => (t.die d).clk =
      (if (s.die d).clk.spReady = false then (s.die d).clk else { (s.die d).clk with spReady := false, spPass := 0 }).spLost stopped := by
  obtain ⟨hpresent, hrun⟩ := up_iff.mp hup
  refine Completes.of _ (congrArg Host.Outcome.next (if_pos (by rw [hpresent, hrun, hfails]; rfl))) ?_
  rw [State.onClk_clk, State.setSp_clk, State.post_die_clk]
  rfl

/-! ### The end of a window (R249, R250) -/

/-- v after a window in which both references were plausible: what was measured, and whether they disagree, as REF_DISAGREE has told. -/
def Clk.compared (v : Clk) (o : QualObs) : Clk :=
  { v with diff := o.diff, refSp := if v.sysUse < 2 then o.refSp else 0, disagree := !o.agree, told := !o.agree }

/-- v after the soundpost's own window (R259). -/
def Clk.spWindow (v : Clk) (o : QualObs) : Clk :=
  { v with spPass := if o.spOk then v.spPass + 1 else 0, slowAlt := v.slowAlt && decide ((if o.spOk then v.spPass + 1 else 0) < 4) }

/-- A window that judges two plausible references notes the comparison, then judges A, B and the soundpost in turn. -/
theorem execQualWindowEnd_plausible {s : State} {d : DieId} {o : QualObs} (hpresent : present s.part d = true) (hphase : s.phase ≠ 0)
    (hready : (s.die d).clk.spReady = true) (hfree : (s.die d).refTest = none) (ha : o.aToggles = true ∧ o.aPlaus = true)
    (hb : o.bToggles = true ∧ o.bPlaus = true)  : ∃ u : State, (u.die d).clk = (s.die d).clk.compared o ∧ execQualWindowEnd d o s =
      .next (((u.qualify d 0 true (!o.agree)).qualify d 1 true (!o.agree)).onClk d fun v => v.spWindow o) := by
  unfold execQualWindowEnd
  rw [if_pos (by simp [hpresent, hphase, hready, hfree])]
  extract_lets a b dis s1 s2 s3
  have hAB : a = true ∧ b = true := by simp [a, b, ha, hb]
  obtain ⟨hA, hB⟩ := hAB
  have hdis : dis = !o.agree := by simp [dis, hA, hB]
  refine ⟨s2, ?_, ?_⟩
  · simp only [s2, s1, hdis, hA, hB]
    cases hagree : o.agree
    · cases htold : (s.die d).clk.told <;> simp [Clk.compared, hagree, htold]
    · simp [Clk.compared, hagree]
  · simp only [s3, hdis, hA, hB]
    rfl

end Sys2Proof.Machine
end

section
/-! SUPPORT. The last record of a local buffer (R346, R347, R350), and a state on which the statement about clock changes fails. -/

set_option Elab.async false

namespace Sys2Proof.Machine

/-- A buffer with room left has the record at its end (R347). -/
theorem Die.buffer_last {x : Die} {r : Evt} (hroom : (x.buffer r).evt.local_.length < 4096) :
    (x.buffer r).evt.local_.getLast? = some r := by
  unfold Die.buffer at hroom ⊢
  by_cases hshort : x.evt.local_.length < 4096
  · simp [hshort]
  · simp only [hshort, if_false] at hroom ⊢
    by_cases hplace : roomAt x.evt.local_ < x.evt.local_.length
    · simp [hplace]
    · by_cases hnmi : r.nmi = true
      · simp [hplace, hnmi]
      · simp only [hplace, hnmi, if_false] at hroom
        exact absurd (by simpa using hroom) hshort

/-- Where a source of die d has written fewer than 4 records this stroke and the local buffer has room left, the record at its end is the
one that was posted last (R346, R350). -/
theorem State.post_last_source {s : State} {d : DieId} {src cause data : Nat}
    (hfew : SMap.get 0 ((s.post d src cause data).die d).evt.stroke src < 4)
    (hroom : ((s.post d src cause data).die d).evt.local_.length < 4096) :
    ((s.post d src cause data).die d).evt.local_.getLast?.map (·.source) = some (d.val * 512 + src) := by
  unfold State.post at hfew hroom ⊢
  simp only [State.die_onDie_same] at hfew hroom ⊢
  split at hfew
  case isTrue hmany =>
    simp only [Bool.and_eq_true, decide_eq_true_eq] at hmany
    exact absurd hfew (Nat.not_lt.mpr hmany.2)
  case isFalse hfree =>
    rw [if_neg hfree] at hroom ⊢
    rw [Die.buffer_last hroom]
    rfl

/-- A running package with die 4 leading. Die 0 reads LOCKED to its markers, which do not come, with SYS on the lead's
reference B (R39); its change to reference A waits for an edge (R255). -/
def State.switchingAway : State :=
  (({ State.reset with phase := 2, lead := some 4 } : State).onClk 4 fun v => { v with sysUse := 1 }).onDie 0 fun x =>
    { x with clk := { x.clk with sysUse := 1, sysPend := some 0 }, stroke := { x.stroke with state := 2, mloss := true, lead := 4 } }

/-- SWITCH_FORCED takes SYS of die 0 off that reference: ALIGN_TRACKING (R39) follows SYS_SWITCHED (R255). -/
theorem State.switchingAway_tracks : ∃ t, exec (.switchForced 0 .sys) State.switchingAway = .next t ∧
    (t.die 0).evt.local_.map (·.source) = [360, 375] ∧ SMap.get 0 (t.die 0).evt.stroke 360 = 1 :=
  ⟨_, rfl, by decide, by decide⟩

end Sys2Proof.Machine
end

section
/-! SUPPORT. The clock commands: what CLK_SWITCH stages, on its die or on every die (R262), the gate of a node or of the root (R263),
and the words of CLK_STATUS (R264). -/

set_option Elab.async false

namespace Sys2Proof.Machine

/-! ### Staging and waiting -/

/-- What leaves the position and the stroke blocks alone leaves the die's place in the stroke (R38). -/
theorem State.ownPos_of_blk {s t : State} (hpos : t.blk .pos = s.blk .pos) (hstroke : t.blk .stroke = s.blk .stroke) (d : DieId) :
    t.ownPos d = s.ownPos d := by
  rw [State.ownPos, State.stroke_of_blk hstroke, State.pos_of_blk hpos, ← State.ownPos]

theorem State.globalDue_of_blk {s t : State} (hpos : t.blk .pos = s.blk .pos) (hstroke : t.blk .stroke = s.blk .stroke) (d : DieId) :
    t.globalDue d = s.globalDue d := by
  rw [State.globalDue, State.stroke, State.ownPos_of_blk hpos hstroke, State.stroke_of_blk hstroke, ← State.stroke, ← State.globalDue]

theorem State.strobeDue_of_blk {s t : State} (hpos : t.blk .pos = s.blk .pos) (hstroke : t.blk .stroke = s.blk .stroke) (d : DieId) :
    t.strobeDue d = s.strobeDue d := by
  rw [State.strobeDue, State.stroke, State.ownPos_of_blk hpos hstroke, State.stroke_of_blk hstroke, ← State.stroke, ← State.strobeDue]

/-- What a command stages and waits for does not depend on the clock block. -/
theorem StagesAndWaits.of_onClk {s t : State} {k : Packet} {op g arg : Nat} {l : List (Nat × Half)} {d : DieId} {f : Clk → Clk}
    (h : StagesAndWaits (s.onClk d f) t k op g l arg) : StagesAndWaits s t k op g l arg := by
  have hkept {b : Blk} (hb : b ∉ [Blk.clk]) : (s.onClk d f).blk b = s.blk b := s.onClk_blk d f hb
  have hactive (e : DieId) := State.active_of_blk (hkept (b := .active) (by simp)) e
  have hbase (o : Nat) : ((s.onClk d f).die k.die).base o = (s.die k.die).base o := by
    rw [Die.base, Die.stg, State.staged_of_blk (hkept (by simp)), ← Die.stg, Die.act_congr (hactive _), ← Die.base]
  unfold StagesAndWaits at h ⊢
  rw [State.ownPos_of_blk (hkept (by simp)) (hkept (by simp)), State.strobeDue_of_blk (hkept (by simp)) (hkept (by simp)),
    State.onClk_stroke] at h
  simpa only [hbase, hactive] using h

/-! ### CLK_SWITCH (R262) -/

/-- CLK_CFG is in the map, in commit group 2 (R299). -/
theorem lookup_oClkCfg : ∃ sel, lookup oClkCfg = some sel ∧ sel.group = some 2 := lookup_of_groupOf (by decide)

theorem State.commitAnswer_switch (u : State) (k : Packet) (v : Half) :
    StagesAndWaits u (u.commitAnswer k 0x0701 2 [(oClkCfg, v)]) k 0x0701 2 [(oClkCfg, v)] 0 :=
  u.commitAnswer_stages k 0x0701 2 _ 0 (List.nodup_singleton _) fun _ hp => List.mem_singleton.mp hp ▸ lookup_oClkCfg

/-- A CLK_SWITCH with GLOBAL stages its change on die e, where it reaches that and it is not isolated. -/
def State.stageSwitch (k : Packet) (s : State) (e : DieId) : State :=
  if s.reaches k.die e && !s.isolated e then
    s.onDie e fun x => { (x.stage oClkCfg (x.switchCfg k)) with clk := x.clk.start }
  else s

/-- A die with a staged CLK_CFG, its group pending. -/
def Die.switchStaged (x : Die) : Prop := bit x.pend 2 = true ∧ (x.stg oClkCfg).isSome = true

theorem Die.stage_switchStaged (x : Die) (v : Half) : (x.stage oClkCfg v).switchStaged := by
  obtain ⟨sel, hsel, hgroup⟩ := lookup_oClkCfg
  refine ⟨?_, by rw [Die.stg_stage_same x hsel hgroup]; rfl⟩
  rw [Die.stage_eq x hsel hgroup, bit, Nat.testBit_or, Nat.testBit_two_pow_self, Bool.or_true]

theorem State.switchStaged_of_blk {s t : State} (h : t.blk .staging = s.blk .staging) {d : DieId} (hs : (s.die d).switchStaged) :
    (t.die d).switchStaged := by
  have hpend : (t.die d).pend = (s.die d).pend := (congrArg Die.pend (State.die_of_blk h d) :)
  rwa [Die.switchStaged, Die.stg, State.staged_of_blk h, hpend, ← Die.stg, ← Die.switchStaged]

theorem State.stageSwitch_blk {β : Blk} (k : Packet) (s : State) (e : DieId) (hb : β ∉ [Blk.staging, .clk]) :
    (s.stageSwitch k e).blk β = s.blk β := by
  simp at hb
  unfold State.stageSwitch
  split
  · rw [State.onDie_blk, Die.with_clk_blk _ _ (by simp [hb]), Die.stage_blk _ _ _ (by simp [hb]), State.die_blk, State.setDie_die]
  · rfl

theorem State.stageSwitch_reached {k : Packet} {s : State} {d : DieId} (h : s.reaches k.die d = true ∧ s.isolated d = false) :
    ((State.stageSwitch k s d).die d).switchStaged := by
  rw [State.stageSwitch, if_pos (by simp [h]), State.die_onDie_same]
  exact (s.die d).stage_switchStaged _

theorem State.stageSwitch_keeps {k : Packet} {s : State} {d : DieId} (h : (s.die d).switchStaged) (e : DieId) :
    ((State.stageSwitch k s e).die d).switchStaged := by
  unfold State.stageSwitch
  split
  · rw [State.die_onDie]
    split
    · exact (s.die d).stage_switchStaged _
    · exact h
  · exact h

/-- Every die of a list that the change reaches has it staged after them all. -/
theorem State.stageSwitch_fold {k : Packet} {d : DieId} {l : List DieId} (hd : d ∈ l) {s : State}
    (h : s.reaches k.die d = true ∧ s.isolated d = false) : ((l.foldl (State.stageSwitch k) s).die d).switchStaged := by
  induction l generalizing s with
  | nil => simp at hd
  | cons e l ih =>
    rw [List.foldl_cons]
    by_cases heq : d = e
    · exact List.foldlRecOn (motive := fun t : State => (t.die d).switchStaged) l _ (heq ▸ State.stageSwitch_reached h)
        fun t ht e _ => State.stageSwitch_keeps ht e
    · refine ih ((List.mem_cons.mp hd).resolve_left heq) ?_
      have hbrg (a : DieId) := State.brg_of_blk (State.stageSwitch_blk k s e (by simp)) a
      simpa only [State.reaches, State.isolated, hbrg] using h

/-- A CLK_SWITCH with GLOBAL, taken up in state u: it is staged on every die it reaches, its commit strobed, and it waits for boundary `due`
(R36, R262). -/
def State.switchAll (u : State) (k : Packet) (due : Nat) : State :=
  (((u.onClk k.die Clk.start).onAll (State.stageSwitch k)).globalStrobe k.die 4).await k 0x0701 due 0

section
variable {s u : State} {k : Packet} (htakes : takes0 s u k 0x0701 = true) (hdomain : swDomain k ≠ 3) (hsrc : swSrc k ≠ 3)
  (hpair : ¬(swSrc k = 2 ∧ swDomain k ≠ 0)) (hhere : (u.die k.die).brg.isolated = false)
include htakes hdomain hsrc hpair hhere

theorem execClkSwitch_tested {b : Test} (hword : k.w 4 < 32) (htest : (u.die k.die).refTest = some b) :
    execClkSwitch k s = .next (u.finish k 0x0701 (mkRec k stBusyTest 0 [b.wait])) := by
  rw [execClkSwitch, State.command0_takes _ htakes]
  simp [Nat.not_le.mpr hword, hdomain, hsrc, hpair, hhere, htest, State.refuse]

variable (hfree : (u.die k.die).refTest = none) (hsettled : (u.die k.die).clk.defer = false)
include hfree hsettled

/-- CLK_SWITCH is staged and waits, on its die alone or with GLOBAL on every die it reaches. -/
theorem execClkSwitch_eq (hword : k.w 4 < 32) : execClkSwitch k s = .next (
    if swGlobal k then u.switchAll k ((u.onClk k.die Clk.start).globalDue k.die)
    else (u.onClk k.die Clk.start).commitAnswer k 0x0701 2 [(oClkCfg, (u.die k.die).switchCfg k)]) := by
  rw [execClkSwitch, State.command0_takes _ htakes]
  dsimp only
  rw [if_neg (by simp [Nat.not_le.mpr hword, hdomain, hsrc, hpair]), if_neg (by simp [hhere]), hfree]
  dsimp only
  rw [if_neg (by simp [hsettled])]
  rfl

theorem execClkSwitch_local (hword : k.w 4 < 16) : execClkSwitch k s =
    .next ((u.onClk k.die Clk.start).commitAnswer k 0x0701 2 [(oClkCfg, (u.die k.die).switchCfg k)]) := by
  have hlocal : swGlobal k = false := Nat.testBit_lt_two_pow hword
  rw [execClkSwitch_eq htakes hdomain hsrc hpair hhere hfree hsettled (by omega), hlocal]
  rfl

theorem execClkSwitch_global (hlow : 16 ≤ k.w 4) (hhigh : k.w 4 < 32) :
    execClkSwitch k s = .next (u.switchAll k (u.globalDue k.die)) := by
  have hglobal : swGlobal k = true := by
    have hbit : k.w 4 / 2 ^ 4 % 2 = 1 := by omega
    rw [swGlobal, bit, Nat.testBit_eq_decide_div_mod_eq, hbit]
    rfl
  have hdue : (u.onClk k.die Clk.start).globalDue k.die = u.globalDue k.die :=
    State.globalDue_of_blk (u.onClk_blk _ _ (by simp)) (u.onClk_blk _ _ (by simp)) k.die
  rw [execClkSwitch_eq htakes hdomain hsrc hpair hhere hfree hsettled hhigh, hglobal, hdue]
  rfl

end

/-- A command that waits is the last of those that do, at the stroke it began to wait in. -/
theorem State.await_mem (s : State) (k : Packet) (op due arg : Nat) :
    ⟨k, op, due, arg, s.stroke k.die⟩ ∈ ((s.await k op due arg).die k.die).peg.awaits := by
  simp [State.await]

@[simp] theorem State.globalStrobe_clocks (s : State) (d : DieId) (mask : Nat) :
    ((s.globalStrobe d mask).blk .stroke).clocks = (s.blk .stroke).clocks := by
  unfold State.globalStrobe
  (repeat' split) <;> simp

/-- A CLK_SWITCH with GLOBAL waits from the stroke it came in. -/
theorem State.switchAll_awaits (u : State) (k : Packet) (due : Nat) :
    ⟨k, 0x0701, due, 0, u.stroke k.die⟩ ∈ ((u.switchAll k due).die k.die).peg.awaits := by
  have hstaged : ((u.onClk k.die Clk.start).onAll (State.stageSwitch k)).blk .stroke = u.blk .stroke :=
    (State.onAll_blk _ _ fun t e => State.stageSwitch_blk k t e (by simp)).trans (u.onClk_blk _ _ (by simp))
  have hclocks := State.clocks_of_blk ((State.globalStrobe_clocks _ k.die 4).trans (congrArg State.clocks hstaged))
  have hstroke : (((u.onClk k.die Clk.start).onAll (State.stageSwitch k)).globalStrobe k.die 4).stroke k.die = u.stroke k.die :=
    congrArg Prod.fst (congrFun hclocks k.die)
  rw [← hstroke]
  exact State.await_mem _ k 0x0701 due 0

/-- A CLK_SWITCH with GLOBAL is staged on every die of the part that it reaches and that is not isolated. -/
theorem State.switchAll_staged {u : State} {k : Packet} (due : Nat) {d : DieId} (hd : present u.part d = true)
    (hreach : u.reaches k.die d = true) (hin : u.isolated d = false) : ((u.switchAll k due).die d).switchStaged := by
  refine State.switchStaged_of_blk ((State.await_blk _ _ _ _ _ (by simp)).trans (State.globalStrobe_blk _ _ _ (by simp))) ?_
  have hbrg (a : DieId) := State.brg_of_blk (u.onClk_blk k.die Clk.start (β := .brg) (by simp)) a
  refine State.stageSwitch_fold (List.mem_filter.mpr ⟨List.mem_finRange d, hd⟩) ?_
  simp only [State.reaches, State.isolated, hbrg]
  exact ⟨hreach, hin⟩

/-! ### CLK_GATE (R263) and CLK_STATUS (R264) -/

section
variable {s u : State} {k : Packet} (htakes : takes s u k 0x0702 = true)
include htakes

/-- Closing the root goes to every die as a global commit does (R470, R472). -/
theorem execClkGate_root (htarget : k.target = 0) (hword : k.w 4 = 1) (huse : u.rootUse = false) :
    execClkGate k s = .next ((u.sendGlobal k.die 0 1).await k 0x0702 (u.globalDue k.die) 0) := by
  obtain ⟨hready, hu⟩ := takes_iff.mp htakes
  rw [execClkGate, State.command_ready _ hready, ← hu]
  simp [htarget, hword, huse, bits]

variable {l n : Nat} (hzero : bits k.target.toNat 27 8 = 0) (hlevel : k.target.toNat / 2 ^ 28 = l) (hnode : k.target.toNat % 256 = n)
  (hok : nodeOk k.die l n = true)
include hzero hlevel hnode hok

/-- CLK_GATE of a node below the root. -/
theorem execClkGate_node (hword : k.w 4 ≤ 1) : execClkGate k s = .next (
    if (k.w 4 != 1) && (decide (1 < l) && ((u.die k.die).clk.gDie ||
      (u.die k.die).gated (parentOf k.die l n).1 (parentOf k.die l n).2)) then u.refuse k 0x0702 stNotReady
    else if (u.die k.die).gated l n = (k.w 4 == 1) then u.done k 0x0702 0 []
    else if (k.w 4 == 1) && u.nodeUse k.die l n then u.refuse k 0x0702 stInUse
    else (u.onClk k.die fun v => { v with gWant := v.gWant ++ [(l, n, k.w 4 == 1)] }).await k 0x0702 (u.stroke k.die + 1) 1) := by
  obtain ⟨hready, hu⟩ := takes_iff.mp htakes
  have hl : l ≠ 0 := by
    rintro rfl
    exact absurd hok (by simp [nodeOk])
  rw [execClkGate, State.command_ready _ hready, ← hu]
  dsimp only
  rw [hlevel, hnode, if_neg (by simp [hzero, hok]), if_neg (by omega), if_neg hl, State.onClk_stroke]
  rfl

end

/-- The words of CLK_STATUS at stroke `now` (R264). -/
def Die.clkWords (x : Die) (now : Nat) : List Nat :=
  [pair x.clk.stat x.lpll, pair x.clk.diff.toNat x.clk.refSp.toNat, x.gateStat,
    if x.clk.inHold then sat32 (now - x.clk.holdFrom) else 0]

/-- The words are told by the clock block and the courses. -/
theorem Die.clkWords_congr {x y : Die} (hclk : y.clk = x.clk) (hcourses : y.courses = x.courses) (now : Nat) :
    y.clkWords now = x.clkWords now := by
  have hmask (f : Course → Bool) : y.courseMask f = x.courseMask f := by
    simp only [Die.courseMask, Die.course_congr hcourses]
  simp only [Die.clkWords, Die.lpll, Die.gateStat, hmask, hclk]

/-- Up to fret 27 time passing leaves a die's clocks, its courses and its stroke count as they were (R22, R146). -/
theorem State.toFret_clkWords (s : State) (d : DieId) {f : Nat} (hf : f < 28) :
    ((s.toFret f).die d).clkWords ((s.toFret f).stroke d) = (s.die d).clkWords (s.stroke d) := by
  have hstroke : (s.toFret f).stroke d = s.stroke d := congrArg Prod.fst (congrFun (s.advance_clocks (40 * f)) d)
  rw [hstroke, Die.clkWords_congr (State.clk_of_blk (s.toFret_blk f (by simp)) d) (s.advance_courses (by omega) d)]

theorem execClkStatus_eq {s u : State} {k : Packet} (htakes : takes0 s u k 0x0703 = true) : execClkStatus k s =
    .next ((u.toFret 21).finish k 0x0703 (mkRec k stDone 3 ((u.die k.die).clkWords (u.stroke k.die)))) := by
  rw [execClkStatus, State.command0_takes _ htakes, ← u.toFret_clkWords k.die (f := 21) (by decide)]
  rfl

end Sys2Proof.Machine
end

section
/-! PROOFS. The frame of the blocks of a die, and the clocks. -/

open Sys2Proof Sys2Proof.Machine

/-- Settles O10: five of the six tables name every row that may write their block, so outside them exec_keeps gives the block of every
die back; for the boundary-scan registers exec_keeps_scan covers the rows of the boundary, which reach neither. -/
theorem blockFrame : Obligations.BlockFrame := by
  unfold Obligations.BlockFrame
  intro c s t ht
  have hkept : ∀ b : Blk, b.writtenBy c = false → ∀ d : DieId, (t.die d).blk b = (s.die d).blk b :=
    fun b hb => (exec_keeps c s hb).die ht
  refine ⟨fun hclk d => ?_, fun hhk d => ?_, fun htwi d => ?_, fun hbist d => ?_, fun hprot d => ?_, fun hscan d => ?_⟩
  · exact (congrArg Die.clk (hkept .clk hclk d) :)
  · exact (congrArg Die.hk (hkept .hk hhk d) :)
  · exact (congrArg Die.twi (hkept .twi htwi d) :)
  · exact (congrArg Die.bist (hkept .bist hbist d) :)
  · exact (congrArg Die.prot (hkept .prot hprot d) :)
  · have h := (exec_keeps_scan c s hscan).die ht d
    exact ⟨(congrArg Die.ir h :), (congrArg Die.irCap h :)⟩

/-- Settles O36: a window judges A, B and the soundpost in turn (execQualWindowEnd_plausible); a trip takes READY from its reference
(State.setReady_trips) before the lane PLLs hold over (State.enterHold) or the SYS source changes. -/
theorem qualification : Obligations.Qualification := by
  unfold Obligations.Qualification
  refine ⟨?agrees, ?disagrees, ?lane, ?sys, ?restart, ?deferred, ?spFails, ?spFailsAgain⟩
  case agrees =>
    intro s d o hpresent hphase hready hfree ha hb hagree
    obtain ⟨u, hu, hexec⟩ := execQualWindowEnd_plausible hpresent hphase hready hfree ha hb
    obtain ⟨i, hA⟩ := u.qualify_passes d .a
    obtain ⟨j, hB⟩ := (u.qualify d 0 true false).qualify_passes d .b
    rw [hagree] at hexec
    refine Completes.of _ hexec ?_
    rw [State.onClk_clk]
    simp only [refNum] at hA hB
    simp [hB, hA, hu, Clk.passes, Clk.compared, Clk.spWindow, hagree]
  case disagrees =>
    intro s d o hpresent hphase hready hfree ha hb hagree huse hA
    obtain ⟨u, hu, hexec⟩ := execQualWindowEnd_plausible hpresent hphase hready hfree ha hb
    rw [hagree, Bool.not_false, State.qualify_keeps (r := 0) (by rw [hu]; exact hA) (by rw [hu]; exact huse)] at hexec
    obtain ⟨on, n, i, hB, hoff⟩ := u.qualify_disagrees d
    refine Completes.of _ hexec ?_
    rw [State.onClk_clk, hB]
    rw [hu] at hoff ⊢
    exact ⟨by simp [Clk.spWindow, Clk.compared, hagree], by simp [Clk.spWindow, Clk.compared, hagree], hA, rfl, hoff⟩
  case lane =>
    intro s d r stopped hup hlane hsys hseen
    obtain ⟨v, ⟨hoff, a, b, p, q, i, j, hv⟩, hclk⟩ := s.refTrip_clk d r false true stopped
    refine Completes.of _ (execRefFail_lane hup hlane hsys hseen) ?_
    have hstroke : (s.refTrip d r false true stopped).stroke d = s.stroke d := by
      rw [State.stroke, State.stroke_of_blk (s.refTrip_blk d r _ _ _ (by simp)), ← State.stroke]
    rw [State.enterHold_clk, hclk, hstroke]
    refine ⟨rfl, rfl, rfl, rfl, rfl, hoff, by rw [hv], State.enterHold_slice _ d, fun c => ?_⟩
    rw [State.enterHold_course _ d c.isLt]
    exact ⟨rfl, rfl, rfl⟩
  case sys =>
    intro s d r stopped hup hsys hlane hfirst hsettled hseen
    obtain ⟨v, ⟨hoff, a, b, p, q, i, j, hv⟩, hclk⟩ := s.refTrip_clk d r true false stopped
    refine Completes.of _ (execRefFail_sys hup hsys hlane hfirst hsettled hseen) ?_
    rw [State.onClk_clk, hclk]
    refine ⟨rfl, rfl, rfl, rfl, hoff, by rw [hv], by rw [hv], ?_⟩
    rw [State.slices_of_blk (State.onClk_blk _ _ _ (by simp)), State.slices_of_blk (s.refTrip_blk d r _ _ _ (by simp))]
  case restart =>
    rintro s d r stopped hup hsys hfirst hrestart rfl
    obtain ⟨hoff, hlane⟩ := s.restartTrip_clk d r true
    refine Completes.of _ (execRefFailFallbackDeferred_eq hup hsys hfirst hrestart) ?_
    rw [State.onClk_clk]
    exact ⟨rfl, rfl, rfl, rfl, rfl, rfl, hoff, fun h => hlane.trans (if_pos h), fun h => hlane.trans (if_neg h)⟩
  case deferred =>
    intro s d hup hdefer hready hdue
    refine Posts.of _ (execSpNotReady_eq hup hdefer hready hdue) ?_
    rw [State.sysTo_clk]
    exact ⟨rfl, rfl, rfl, hready⟩
  case spFails =>
    intro s d stopped e hup hready hseen
    obtain ⟨t, ht, hclk⟩ := execSpFail_clk (stopped := stopped) (e := e) hup (by
      cases stopped
      · simpa [hready] using hseen
      · simp [hready])
    refine Completes.of t ht ?_
    rw [hclk, if_neg (by simp [hready])]
    rfl
  case spFailsAgain =>
    intro s d e hup hready hrestart
    obtain ⟨t, ht, hclk⟩ := execSpFail_clk (stopped := true) (e := e) hup (by simp [hrestart])
    refine Completes.of t ht ?_
    rw [hclk, if_pos hready]
    rfl

/-- Refutes O37: where a LOCKED die without markers switches SYS off the lead's reference, ALIGN_TRACKING follows SYS_SWITCHED (R39), which
the statement has come last. -/
theorem not_clockChanges : ¬ Obligations.ClockChanges := by
  unfold Obligations.ClockChanges
  rintro ⟨-, -, -, hforced, -⟩
  obtain ⟨t, ht, u, rfl, -⟩ := hforced State.switchingAway 0 0 (by decide) rfl (by decide)
  obtain ⟨v, hv, hsources, hfew⟩ := State.switchingAway_tracks
  obtain rfl : v = _ := Host.Outcome.next.inj (hv.symm.trans ht)
  have hlength := congrArg List.length hsources
  rw [List.length_map] at hlength
  have hlast := State.post_last_source (hfew.trans_lt (by decide)) (hlength.trans_lt (by decide))
  rw [← List.getLast?_map, hsources] at hlast
  exact absurd hlast (by decide)

/-- Settles O38: CLK_SWITCH and CLK_GATE run the branch that the hypotheses name (execClkSwitch_eq, execClkGate_node); a die that GLOBAL
reaches has its change staged when all have had their turn (State.stageSwitch_fold); the words of fret 21 are those of before, since
time passing up to there changes no clock and no course. The nodes and their parents are log entry 40. -/
theorem clockCommands : Obligations.ClockCommands := by
  unfold Obligations.ClockCommands
  refine ⟨?alone, ?everywhere, ?tested, ?gate, ?same, ?parent, ?root, ?status⟩
  case alone =>
    intro s u k htakes hword hdomain hsrc hpair hhere hfree hsettled
    refine Completes.of _ (execClkSwitch_local htakes hdomain hsrc (fun h => h.2 (hpair h.1)) hhere hfree hsettled hword)
      ⟨StagesAndWaits.of_onClk (State.commitAnswer_switch _ _ _), ?_⟩
    rw [State.clk_of_blk (State.commitAnswer_blk _ _ _ _ _ _ (by simp)), State.onClk_clk]
  case everywhere =>
    intro s u k htakes hlow hhigh hdomain hsrc hpair hhere hfree hsettled
    refine Completes.of _ (execClkSwitch_global htakes hdomain hsrc (fun h => h.2 (hpair h.1)) hhere hfree hsettled hlow hhigh)
      ⟨u.switchAll_awaits k _, fun d hd hreach hin => State.switchAll_staged _ hd hreach hin⟩
  case tested =>
    intro s u k b htakes hword hdomain hsrc hpair hhere htest
    exact Answers.of u (execClkSwitch_tested htakes hdomain hsrc (fun h => h.2 (hpair h.1)) hhere hword htest) rfl
  case gate =>
    intro s u k l n htakes hzero hlevel hnode _ hok hword hopen huse
    refine Completes.of _ ((execClkGate_node htakes hzero hlevel hnode hok hword.le).trans ?_) rfl
    simp [hword, hopen, huse]
  case same =>
    intro s u k l n htakes hzero hlevel hnode _ hok hword hsame hparent
    refine Answers.of u ((execClkGate_node htakes hzero hlevel hnode hok hword).trans ?_) rfl
    have hopen : (decide (1 < l) && ((u.die k.die).clk.gDie ||
        (u.die k.die).gated (parentOf k.die l n).1 (parentOf k.die l n).2)) = false := by
      by_cases hdeep : 1 < l
      · obtain ⟨hdie, hgate⟩ := hparent hdeep
        simp [hdie, hgate]
      · simp [hdeep]
    rw [hopen, Bool.and_false, if_neg Bool.false_ne_true, if_pos hsame]
    rfl
  case parent =>
    intro s u k l n htakes hzero hlevel hnode hl hok hword hparent
    refine Answers.of u ((execClkGate_node htakes hzero hlevel hnode hok (by omega)).trans ?_) rfl
    simp [hword, hl, hparent, State.refuse]
  case root =>
    intro s u k htakes hword huse
    obtain ⟨hready, hu, htarget⟩ := takes0_iff.mp htakes
    exact Completes.of _ (execClkGate_root (takes_iff.mpr ⟨hready, hu⟩) htarget hword huse) rfl
  case status =>
    intro s u k htakes
    exact Answers.of _ (execClkStatus_eq htakes) rfl
end

section
/-! SUPPORT. Boundary scan in and out of service (R481), and NOP and BIST_RESULT, whose packet the pegbox checks alone. -/

set_option Elab.async false

namespace Sys2Proof.Machine

theorem mem_dieList {s : State} {d : DieId} : d ∈ s.dieList ↔ present s.part d = true := by simp [State.dieList]

theorem State.inService_iff (s : State) :
    s.inService = true ↔ ∃ e, present s.part e = true ∧ ((s.die e).anyPort = true ∨ (s.die e).peg.ops ≠ []) := by
  simp [State.inService, mem_dieList]

theorem State.not_inService_iff (s : State) :
    s.inService = false ↔ ∀ e, present s.part e = true → (s.die e).anyPort = false ∧ (s.die e).peg.ops = [] := by
  simp [State.inService, mem_dieList]

/-- Of the codes that a die may not load in service each selects its own instruction (R480). -/
theorem scanCode_disturbing {c : Nat} (h : [0x00, 0x04, 0x05, 0x08, 0x09].contains c = true) : scanCode c = c := by
  simp at h
  rcases h with rfl | rfl | rfl | rfl | rfl <;> rfl

theorem scanCode_harmless {c : Nat} (h : [0x00, 0x04, 0x05, 0x08, 0x09].contains c = false) :
    [0x00, 0x04, 0x05, 0x08, 0x09].contains (scanCode c) = false := by
  unfold scanCode
  split
  · exact h
  · rfl

/-- JTAG_INSTRUCTION outside service, or of a code that disturbs nothing. -/
theorem execJtagInstruction_selects {s : State} {d : DieId} {code : Byte} (hd : present s.part d = true)
    (h : [0x00, 0x04, 0x05, 0x08, 0x09].contains code.toNat = false ∨
      ∀ e : DieId, present s.part e = true → (s.die e).anyPort = false ∧ (s.die e).peg.ops = []) :
    execJtagInstruction d code s = .next (s.onDie d (fun x => { x with irCap := 1, ir := scanCode code.toNat })) := by
  have hheld : ([0x00, 0x04, 0x05, 0x08, 0x09].contains (scanCode code.toNat) && s.inService) = false := by
    rcases h with hcode | hout
    · rw [scanCode_harmless hcode, Bool.false_and]
    · rw [s.not_inService_iff.mpr hout, Bool.and_false]
  simp only [execJtagInstruction, hheld, hd, if_true]
  rfl

theorem execNop_eq {s u : State} {k : Packet} (h : takes s u k 0x0001 = true) :
    execNop k s = .next (if k.target = 0 then u.done k 0x0001 3 [] else u.refuse k 0x0001 stBadTarget) := by
  obtain ⟨hready, rfl⟩ := takes_iff.mp h
  rw [execNop, State.command0, State.command_ready _ hready]

/-- A packet whose LENGTH its opcode cannot have, once its turn has come (R326, R508). -/
theorem State.command_badLength {s : State} {k : Packet} {op : Nat} (body : State → State) (h : comes s k op = true)
    (hlen : lenOk op k.length.toNat = false) :
    s.command k op body = (s.takeInbox k op).refuse k op (if (s.takeInbox k op).targetShape k op then stBadParam else stBadTarget) := by
  simp only [comes, Bool.and_eq_true, Bool.not_eq_true', Bool.or_eq_true] at h
  obtain ⟨⟨⟨⟨haccess, hheader⟩, hpresent⟩, ⟨hruns, hturn⟩, hlate⟩, hreach⟩ := h
  unfold State.command
  simp only [haccess, hheader, hpresent, hruns, hturn, hlate, hlen]
  rcases hreach with hhere | ⟨hfree, hreach⟩
  · simp [hhere]
  · simp [hfree, hreach]

/-- Result r is that of a row which runs packet k as opcode op, with some rules of its own behind the common checks (R326). -/
def RunsCommand (s : State) (k : Packet) (op : Nat) (r : Result) : Prop := ∃ body, r = .next (s.command k op body)

theorem RunsCommand.command (s : State) (k : Packet) (op : Nat) (body : State → State) :
    RunsCommand s k op (.next (s.command k op body)) := ⟨body, rfl⟩

theorem RunsCommand.command0 (s : State) (k : Packet) (op : Nat) (body : State → State) :
    RunsCommand s k op (.next (s.command0 k op body)) := ⟨_, by rw [State.command0]⟩

theorem RunsCommand.commandPort (s : State) (k : Packet) (op : Nat) (body : State → PortId → State) :
    RunsCommand s k op (.next (s.commandPort k op body)) := ⟨_, by rw [State.commandPort]⟩

theorem RunsCommand.commandDefined (s : State) (k : Packet) (op : Nat) (body : State → PortId → State) :
    RunsCommand s k op (.next (s.commandDefined k op body)) := by
  rw [State.commandDefined]
  exact .commandPort ..

theorem RunsCommand.commandSlice (s : State) (k : Packet) (op : Nat) (body : State → Nat → State) :
    RunsCommand s k op (.next (s.commandSlice k op body)) := ⟨_, by rw [State.commandSlice]⟩

/-- Each command row runs its packet as the opcode that names it. -/
theorem exec_runsCommand {c : Instr} {k : Packet} {op : Nat} (h : commandOf c = some (k, op)) (s : State) :
    RunsCommand s k op (exec c s) := by
  cases c <;> cases h
  case portDefine => exact .commandPort ..
  case portEnable | portDisable | portStatus | portAttachPolicy | trainStart | trainAbort | trainStatus | latticeStatus =>
    exact .commandDefined ..
  case laneEqSet | laneEqGet | laneCapo => exact .commandSlice ..
  case clkSwitch | clkStatus | dieIsolate | nop | getInfo | opStatus | opCancel | fwActivate | hkInject | hkCalibrate
      | cntSnapshot | bistResult =>
    exact .command0 ..
  all_goals exact .command ..

/-- What the checks make of a packet, whatever the rules of its row, is what its row completes with. -/
theorem Completes.of_command {c : Instr} {s : State} {k : Packet} {op : Nat} (h : commandOf c = some (k, op)) {t : State}
    (ht : ∀ body, s.command k op body = t) : Completes c s (fun u => u = t) := by
  obtain ⟨body, hbody⟩ := exec_runsCommand h s
  exact ⟨_, hbody, ht body⟩

theorem lenOk_nop {n : BitVec 12} (h : n ≠ 4) : lenOk 0x0001 n.toNat = false := by
  have hne : n.toNat ≠ 4 := fun q => h (BitVec.eq_of_toNat_eq q)
  simp [lenOk, opLengths]
  omega

theorem lenOk_bistResult {n : BitVec 12} (h : n ≠ 5) : lenOk 0x0C02 n.toNat = false := by
  have hne : n.toNat ≠ 5 := fun q => h (BitVec.eq_of_toNat_eq q)
  simp [lenOk, opLengths]
  omega

/-- A NOP and a BIST_RESULT of TARGET 0 have the shape that R508 asks for. -/
theorem State.targetShape_zero (s : State) {k : Packet} {op : Nat} (hop : op = 0x0001 ∨ op = 0x0C02) (h : k.target = 0) :
    s.targetShape k op = true := by
  rcases hop with rfl | rfl <;> simp [State.targetShape, h]

theorem execBistResult_eq {s u : State} {k : Packet} {l : List Nat} (h : takes0 s u k 0x0C02 = true)
    (hword : k.w 4 < 64 ∨ k.w 4 = 0x7F)
    (hl : SMap.get [] (u.die k.die).bist.ring (if k.w 4 = 0x7F then ((u.die k.die).bist.wp + 63) % 64 else k.w 4) = l) :
    execBistResult k s = .next (if l = [] then u.refuse k 0x0C02 stNotReady else u.done k 0x0C02 3 l) := by
  have hlow : ¬ 128 ≤ k.w 4 := by omega
  have hindex : (decide (64 ≤ k.w 4) && decide (k.w 4 ≠ 0x7F)) = false := by simp; omega
  rw [execBistResult, State.command0_takes _ h]
  simp only [hlow, hindex, if_false, Bool.false_eq_true, hl]
  cases l <;> rfl

end Sys2Proof.Machine
end

section
/-! PROOFS. Boundary scan, NOP and BIST_RESULT. -/

open Sys2Proof Sys2Proof.Machine

/-- Settles O57: scanCode leaves the five codes as they are and turns no other into one of them, and the service that
execJtagInstruction asks for is the one the statement names. The codes are R480's. -/
theorem boundaryScan : Obligations.BoundaryScan := by
  unfold Obligations.BoundaryScan
  refine ⟨fun s d code hd hcode hservice => ?_, fun s d code hd h => ⟨_, execJtagInstruction_selects hd h, rfl⟩⟩
  refine ⟨_, ?_, rfl⟩
  show execJtagInstruction d code s = _
  rw [execJtagInstruction, scanCode_disturbing hcode, hcode, s.inService_iff.mpr hservice, hd]
  rfl

/-- Settles O14: every row of commandOf runs State.command, whose checks come one after another, in the order of log entry 43; objects
that commands share are those of log entry 9. The answer to a wrong length is R508's. -/
theorem commandChecks : Obligations.CommandChecks := by
  unfold Obligations.CommandChecks
  refine ⟨?header, ?length, ?absent, ?tag, ?unreachable, ?notRunning, ?staysDown, ?waits, ?stays⟩
  case header =>
    intro c s k op hc haccess hnew hlen
    exact .of_command hc fun body => by simp [State.command, haccess, hnew, hlen]
  case length =>
    intro c s k op hc _ hcomes hlen
    exact .of_command hc fun body => State.command_badLength body hcomes hlen
  case absent =>
    intro c s k op hc haccess hnew hlen hpresent
    exact .of_command hc fun body => by simp [State.command, haccess, hnew, hlen, hpresent]
  case tag =>
    intro c s k op hc haccess hlen hpresent hnew htag
    exact .of_command hc fun body => by simp only [State.command, haccess, hnew, hlen, hpresent, htag]; rfl
  case unreachable =>
    intro c s k op hc haccess hlen hpresent hnew htag hreach
    exact .of_command hc fun body => by simp only [State.command, haccess, hnew, hlen, hpresent, htag, hreach]; rfl
  case notRunning =>
    intro c s k op hc haccess hlen hpresent hnew htag hreach hruns
    exact .of_command hc fun body => by simp only [State.command, haccess, hnew, hlen, hpresent, htag, hreach, hruns]; rfl
  case staysDown =>
    intro c s k op hc haccess hlen hpresent hhere hruns
    exact .of_command hc fun body => by simp only [State.command, haccess, hhere, hpresent, hruns]; rfl
  case waits =>
    intro c s k op hc haccess hlen hpresent hnew htag hreach hturn
    exact .of_command hc fun body => by simp [State.command, haccess, hnew, hlen, hpresent, htag, hreach, hturn]
  case stays =>
    intro c s k op hc haccess hlen hpresent hhere hturn
    exact .of_command hc fun body => by simp [State.command, haccess, hhere, hpresent, hturn]

/-- Settles O58: the pegbox answers a NOP by its TARGET alone (execNop_eq), and one of another length before it looks further
(State.command_badLength). The order of the checks is log entry 43, the answer to a wrong TARGET R508's. -/
theorem nopAnswers : Obligations.NopAnswers := by
  unfold Obligations.NopAnswers
  refine ⟨fun s u k h => ?_, fun s u k h htarget => ?_, fun s k h hlength htarget => ?_⟩
  · obtain ⟨hready, hu, htarget⟩ := takes0_iff.mp h
    exact Answers.of u ((execNop_eq (takes_iff.mpr ⟨hready, hu⟩)).trans (by rw [if_pos htarget]; rfl)) rfl
  · exact Answers.of u ((execNop_eq h).trans (by rw [if_neg htarget]; rfl)) rfl
  · refine Answers.of (s.takeInbox k 0x0001) ?_ rfl
    refine congrArg _ ((State.command_badLength _ h (lenOk_nop hlength)).trans ?_)
    rw [State.targetShape_zero _ (.inl rfl) htarget]
    rfl

/-- Settles O59: execBistResult_eq with the record that the index names, or none. The order of the checks is log entry 43. -/
theorem bistResults : Obligations.BistResults := by
  unfold Obligations.BistResults
  refine ⟨fun s u k l h hword hl hne => ?_, fun s u k h hword hnone => ?_, fun s k h hlength htarget => ?_⟩
  · exact Answers.of u ((execBistResult_eq h hword hl.symm).trans (by rw [if_neg hne]; rfl)) rfl
  · exact Answers.of u ((execBistResult_eq h hword hnone).trans (by rw [if_pos rfl]; rfl)) rfl
  · refine Answers.of (s.takeInbox k 0x0C02) ?_ rfl
    refine congrArg _ ((State.command_badLength _ h (lenOk_bistResult hlength)).trans ?_)
    rw [State.targetShape_zero _ (.inr rfl) htarget]
    rfl
end

section
/-! PROOFS. Every row answers a next state (R326, R19). -/

set_option Elab.async false

namespace Sys2Proof.Machine

theorem exec_completes (c : Instr) (s : State) : ∃ t, exec c s = .next t := by
  cases c <;> exact ⟨_, rfl⟩

end Sys2Proof.Machine
end

section
open Sys2Proof Sys2Proof.Machine

/-- Settles O2: no arm of exec answers anything but .next, and every row keeps the fixed part of the state. -/
theorem everyRowCompletes : Obligations.EveryRowCompletes := by
  unfold Obligations.EveryRowCompletes
  intro c s
  obtain ⟨t, ht⟩ := exec_completes c s
  have hfixed := exec_keeps_fixed c s t ht
  exact ⟨t, ht, (congrArg State.pending hfixed :), (congrArg State.part hfixed :)⟩

end

section
/-! SUPPORT. An exchange of echoes between two dies, which belongs to both. -/

set_option Elab.async false

namespace Sys2Proof.Machine

/-- The package runs, as it left its reset. -/
def State.started : State := { State.reset with phase := 2 }

/-- In an ECHO exchange (R273, R277) die 0 sends the request and its east neighbour, die 1, the reply: each counts a packet of its own. -/
theorem State.started_echo :
    ∃ t, exec (.echo 0 .east 0) State.started = .next t ∧ (State.started.die 1).brg.nextTag = 0 ∧ (t.die 1).brg.nextTag = 1 :=
  ⟨_, rfl, by decide, by decide⟩

end Sys2Proof.Machine
end

section
/-! PROOFS. What a row of one die leaves alone on the other dies. -/

open Sys2Proof Sys2Proof.Machine

/-- Refutes O13: ECHO at die 0 is a row of die 0, and its exchange takes the next packet number of the neighbour that replies (R277). -/
theorem not_rowsStayOnTheirDie : ¬ Obligations.RowsStayOnTheirDie := by
  unfold Obligations.RowsStayOnTheirDie
  intro ⟨hrows, _⟩
  obtain ⟨t, ht, hbefore, hafter⟩ := State.started_echo
  have hkept := hrows (.echo 0 .east 0) State.started t 0 rfl ht 1 (by decide)
  exact absurd (hbefore.symm.trans (congrArg (fun x => x.brg.nextTag) hkept.symm)) (by rw [hafter]; decide)

end

section
/-! SUPPORT. A command that times out in its inbox while its queue, disabled since, holds a fenced command behind it. -/

set_option Elab.async false

namespace Sys2Proof.Machine

/-- A NOP of queue 0 of die 0 for die 0. -/
def nopPacket (tag : BitVec 16) (fence : Bool) : Packet :=
  { origin := 0, queue := 0, tag := tag, length := 4, die := 0, fence := fence, noprog := false, irq := false, target := 0,
    cookie := 0, words := [] }

/-- A NOP that entered its die's inbox in stroke 0. -/
def Waiting.overdue : Waiting := ⟨nopPacket 1 false, 0x0001, 0⟩

/-- Die 0's pegbox has not run for 1,024 strokes. Its inbox holds a NOP; a second one, with FENCE, waits for the record of the first in
queue 0, which software has disabled (R322, R324). -/
def State.fenced : State :=
  State.started.onDie 0 fun x => { x with
    stroke := { x.stroke with count := 1024 },
    peg := { x.peg with inbox := [Waiting.overdue] },
    q0 := { exec := [(nopPacket 1 false, 0x0001), (nopPacket 2 true, 0x0001)], held := [(nopPacket 2 true, 0x0001)] } }

/-- The record of the command that timed out is discarded, as the queue is disabled (R322): the fence opens, and the second command enters
the inbox. -/
theorem State.fenced_inbox :
    ∃ t, exec (.inboxTimeout 0) State.fenced = .next t ∧ (t.die 0).peg.inbox = [⟨nopPacket 2 true, 0x0001, 1024⟩] :=
  ⟨_, rfl, by decide⟩

/-- An INBOX_TIMEOUT there does not leave the inbox as taking the command out of it does. -/
theorem State.fenced_refills {P : State → Prop}
    (hP : ∀ t, P t → (t.die 0).peg.inbox = ((State.fenced.takeInbox Waiting.overdue.packet Waiting.overdue.op).die 0).peg.inbox) :
    ¬ Completes (.inboxTimeout 0) State.fenced P := by
  rintro ⟨u, hu, hu'⟩
  obtain ⟨t, ht, hinbox⟩ := State.fenced_inbox
  obtain rfl : u = t := Host.Outcome.next.inj (hu.symm.trans ht)
  exact absurd (hinbox.symm.trans (hP u hu')) (by decide)

end Sys2Proof.Machine
end

section
/-! PROOFS. What answering a command, posting an event, and a command of the queues leave behind. -/

open Sys2Proof Sys2Proof.Machine

/-- Refutes O15: the record of an INBOX_TIMEOUT that a disabled queue discards starts the commands it held, and one for the same die
enters the inbox that the command has just left (R322, R324, R331). -/
theorem not_recordsAndEvents : ¬ Obligations.RecordsAndEvents := by
  unfold Obligations.RecordsAndEvents
  rintro ⟨-, -, -, -, -, -, -, -, -, -, -, -, -, -, -, -, -, -, -, htimeout⟩
  exact State.fenced_refills (fun _ h => h.1) (htimeout State.fenced 0 Waiting.overdue (by decide) (by decide) (by decide) rfl)

/-- Refutes O46: as in O15, the inbox that an INBOX_TIMEOUT leaves may hold a command that its record has started (R322, R324, R331). -/
theorem not_queues : ¬ Obligations.Queues := by
  unfold Obligations.Queues
  rintro ⟨-, -, -, -, -, -, -, -, -, htimeout, -⟩
  exact State.fenced_refills (fun _ h => h.2.1) (htimeout State.fenced 0 Waiting.overdue (by decide) (by decide) (by decide) rfl)

end

section
/-! SUPPORT. States on which statements about packets between dies, two-wire frames, the package ring, restarts and repairs fail. -/

set_option Elab.async false

namespace Sys2Proof.Machine

/-! ### A packet that is sent again ahead of others -/

/-- An answer on its way from die 0 to die 1. -/
def Flit.answer (tag : Nat) : Flit :=
  { src := 0, dst := 1, bcast := false, tag := tag, ttl := 7, here := 1, dir := .east, body := .ack tag }

/-- A packet of an urgent type that waits for its answer. -/
def Sent.urgent : Sent := { dst := 1, tag := 0, first := 0, last := 0, body := .gcommit 5 1 0 }

/-- Die 0 waits for the answer to an urgent packet, and has two other packets queued on its east bridge. No row makes an urgent packet
wait for an answer, but CrossDieAccess speaks of every one that does. -/
def State.resending : State :=
  { State.started.onDie 0 fun x => { x with
      stroke := { x.stroke with count := 4 },
      brg := { x.brg with east := { state := 1 }, sent := [Sent.urgent] } } with
    air := [Flit.answer 1, Flit.answer 2] }

/-- It goes ahead of every packet that is not in transmission (R276). -/
theorem State.resending_air :
    ∃ t, exec (.packetResend 0 0) State.resending = .next t ∧
      t.air = [Flit.answer 1, sentOver State.resending 0 1 false 0 .east Sent.urgent.body, Flit.answer 2] :=
  ⟨_, rfl, by decide⟩

/-! ### A two-wire frame with its reserved address bits set -/

/-- A write frame to die 0's target port whose X has a bit of [28:25] set, as far as its PEC. -/
def oddFrame : List Byte := [0x98, 0x02, 0, 0, 0, 0, 0, 0, 0]

/-- Whatever its PEC, it is a frame of another shape: it is counted, and the outcome of the last write stays (R296, R297). -/
theorem State.started_oddFrame (p : Byte) :
    ∃ t, exec (.twiWriteFrame 0 (oddFrame ++ [p])) State.started = .next t ∧ (t.die 0).twi.wres = 5 :=
  ⟨State.started.count 0 (cProt + 0x1C), rfl, by decide⟩

theorem Byte.succ_ne (p : Byte) : p + 1 ≠ p := by
  bv_omega

/-! ### A write pointer outside the ring -/

/-- A record of source 1 of die 0. -/
def Evt.early : Evt := { time := 1, source := 1, cause := 1, nmi := false, late := false, seq := 1, data := 0 }

/-- Die 0 has a new record; the write pointer of its ring is 4,096. No row takes it there, but Events speaks of every pointer. -/
def State.wpPastRing : State :=
  State.started.onDie 0 fun x => { x with evt := { x.evt with wp := 4096, local_ := [Evt.early], fresh := 1 } }

/-- The record goes where the pointer points: behind the 64 KiB of the ring. -/
theorem State.wpPastRing_sram :
    ∃ t, exec (.eventForward 0) State.wpPastRing = .next t ∧ Memory.read (t.die 0).sram 0x40000 = 1 :=
  ⟨_, rfl, by decide⟩

/-! ### A restart that ends the self-test of a slice -/

/-- A test of slice 0 that die 0 has started itself, its slice isolated. -/
def Test.ofSlice : Test := { tag := 0xFFD0, test := 1, target := 0, packet := nopPacket 0 false, isol := true, auto_ := true }

/-- Die 0's pegbox waits for its restart while the test runs; adaptation has moved the CTLE of the slice from its committed value. -/
def State.restarting : State :=
  State.started.onDie 0 fun x => { x with
    active := [(oRx 0 0x08, 0)], peg := { x.peg with state := 2 }, bist := { x.bist with tests := [Test.ofSlice] } }

/-- The restart ends the test (R426), and its slice takes its configuration from the ledger (R420). -/
theorem State.restarting_active :
    ∃ t, exec (.pegRestart 0 false) State.restarting = .next t ∧ (t.die 0).act (oRx 0 0x08) ≠ (State.restarting.die 0).act (oRx 0 0x08) :=
  ⟨_, rfl, by decide⟩

/-! ### A repair while the BIST frets are off -/

/-- A REPAIR_SOFT of row 5 of memory 0 of die 0. -/
def repairPacket : Packet :=
  { origin := 0, queue := 0, tag := 1, length := 6, die := 0, fence := false, noprog := false, irq := false, target := 0, cookie := 0,
    words := [0xFF, 5] }

/-- Die 0 is isolated, and its BIST frets are off (R25). -/
def State.fretless : State :=
  State.started.onDie 0 fun x => { x with
    active := [(0x2010, 0)], peg := { x.peg with state := 1 }, brg := { x.brg with isolated := true } }

/-- The repeat of the memory's test waits for its frets (R25, R422). -/
theorem State.fretless_tests :
    ∃ t, exec (.repairSoft repairPacket) State.fretless = .next t ∧ (t.die 0).bist.tests.all (fun b => b.paused) = true :=
  ⟨_, rfl, by decide⟩

end Sys2Proof.Machine
end

section
/-! PROOFS. Statements about packets between dies, two-wire frames, events, package commands and repairs that fail. -/

open Sys2Proof Sys2Proof.Machine

/-- Refutes O40: a packet that is sent again enters the queue of its bridge by its type, an urgent one ahead of the queued packets that
are not (R276), and not always at the end. -/
theorem not_crossDieAccess : ¬ Obligations.CrossDieAccess := by
  unfold Obligations.CrossDieAccess
  rintro ⟨-, -, -, -, hresend, -⟩
  obtain ⟨t, ht, hair⟩ := State.resending_air
  obtain ⟨u, hu, -, hback⟩ := hresend State.resending 0 0 Sent.urgent (by decide) (by decide) (by decide)
  obtain rfl : u = t := Host.Outcome.next.inj (hu.symm.trans ht)
  exact absurd (hair.symm.trans hback) (by decide)

/-- Refutes O45: a write frame whose reserved address bits are set has another shape, whatever its PEC is (R296): it is counted, and its
outcome is not reported. -/
theorem not_twoWireTarget : ¬ Obligations.TwoWireTarget := by
  unfold Obligations.TwoWireTarget
  rintro ⟨-, -, hpec, -⟩
  obtain ⟨t, ht, hwres⟩ := State.started_oddFrame (pec oddFrame + 1)
  obtain ⟨u, hu, hthree, -⟩ := hpec State.started 0 oddFrame 0x02000000 0 (pec oddFrame + 1) (by decide) (by decide) (by decide) (Byte.succ_ne _)
  obtain rfl : u = t := Host.Outcome.next.inj (hu.symm.trans ht)
  exact absurd (hwres.symm.trans hthree) (by decide)

/-- Refutes O47: EVENT_FORWARD writes its records where the write pointer of the ring points, and nothing in the statement keeps that
within the ring's 4,096 slots (R346, R348). -/
theorem not_events : ¬ Obligations.Events := by
  unfold Obligations.Events
  rintro ⟨-, -, hforward, -⟩
  obtain ⟨t, ht, hsram⟩ := State.wpPastRing_sram
  obtain ⟨u, hu, -, -, houtside, -⟩ := hforward State.wpPastRing 0 (by decide) (by decide) (by decide) (.inl (by decide))
  obtain rfl : u = t := Host.Outcome.next.inj (hu.symm.trans ht)
  exact absurd (hsram.symm.trans (houtside 0x40000 (.inr (by decide)))) (by decide)

/-- Refutes O48: a restart ends the tests the device started itself (R426), and a slice under test is re-initialised from the ledger,
which may differ from its active values after adaptation (R420). -/
theorem not_packageCommands : ¬ Obligations.PackageCommands := by
  unfold Obligations.PackageCommands
  rintro ⟨-, -, -, -, -, -, -, -, -, -, -, -, hrestart⟩
  obtain ⟨t, ht, hmoved⟩ := State.restarting_active
  obtain ⟨u, hu, -, hactive, -⟩ := hrestart State.restarting 0 false (by decide) rfl rfl rfl
  obtain rfl : u = t := Host.Outcome.next.inj (hu.symm.trans ht)
  exact hmoved (by simp only [Die.act, hactive])

/-- Refutes O55: with the BIST frets off the test that a REPAIR_SOFT repeats starts suspended (R25, R422). -/
theorem not_repairs : ¬ Obligations.Repairs := by
  unfold Obligations.Repairs
  rintro ⟨hsoft, -⟩
  obtain ⟨t, ht, hpaused⟩ := State.fretless_tests
  obtain ⟨u, hu, -, -, htest⟩ :=
    hsoft State.fretless (State.fretless.takeInbox repairPacket 0x0C03) repairPacket (by decide) (by decide) (by decide) (by decide) (by decide)
      (by decide) (by decide) (by decide)
  obtain rfl : u = t := Host.Outcome.next.inj (hu.symm.trans ht)
  exact absurd (List.all_eq_true.mp hpaused _ htest) (by decide)

end

section
/-! SUPPORT. The endpoints, and what a post leaves of the MSI-X state. -/

set_option Elab.async false

namespace Sys2Proof.Machine

/-! ### Endpoints -/

variable {s : State}

@[simp] theorem State.ep_setEp_same (e : AccessId) (v : Endpoint) : (s.setEp e v).ep e = v := by
  unfold State.setEp State.ep
  split <;> rfl

@[simp] theorem State.setEp_dies (e : AccessId) (v : Endpoint) : (s.setEp e v).dies = s.dies := by
  unfold State.setEp
  split <;> rfl

@[simp] theorem State.setEp_die (e : AccessId) (v : Endpoint) (d : DieId) : (s.setEp e v).die d = s.die d := by
  simp [State.die]

@[simp] theorem State.setEp_part (e : AccessId) (v : Endpoint) : (s.setEp e v).part = s.part := by
  unfold State.setEp
  split <;> rfl

@[simp] theorem State.setEp_phase (e : AccessId) (v : Endpoint) : (s.setEp e v).phase = s.phase := by
  unfold State.setEp
  split <;> rfl

@[simp] theorem State.setEp_running (e : AccessId) (v : Endpoint) : (s.setEp e v).running = s.running := by
  simp [State.running]

@[simp] theorem State.ep_onDie (d : DieId) (f : Die → Die) (e : AccessId) : (s.onDie d f).ep e = s.ep e := by simp [State.ep]

@[simp] theorem State.ep_post (d : DieId) (src cause data : Nat) (e : AccessId) : (s.post d src cause data).ep e = s.ep e := by
  simp [State.ep]

/-! ### MSI-X (R293) -/

/-- The MSI-X state of two event blocks is one: its masks, its pending bits, and the function's mask. -/
def EvtBlk.sameMsix (v w : EvtBlk) : Prop := v.mask = w.mask ∧ v.pend = w.pend ∧ v.fmask = w.fmask

/-- The local buffer takes a record without the MSI-X logic. -/
theorem Die.buffer_msix (x : Die) (r : Evt) : (x.buffer r).evt.sameMsix x.evt := by
  unfold Die.buffer
  dsimp only
  split
  · exact ⟨rfl, rfl, rfl⟩
  · split
    · exact ⟨rfl, rfl, rfl⟩
    · split <;> exact ⟨rfl, rfl, rfl⟩

/-- A cause that occurs touches no mask and no pending bit of a vector: messages are sent at the end of fret 30 (R293). -/
theorem State.post_msix (d : DieId) (src cause data : Nat) : ((s.post d src cause data).die d).evt.sameMsix (s.die d).evt := by
  unfold State.post
  dsimp only
  rw [State.die_onDie_same]
  split
  · exact ⟨rfl, rfl, rfl⟩
  · exact Die.buffer_msix _ _

/-- Taking entries of other keys out of a map leaves what a key reads. -/
theorem SMap.get_filter {β : Type} (d : β) (f : Nat → Bool) (m : List (Nat × β)) (k : Nat) (h : f k = true) :
    SMap.get d (m.filter (fun p => f p.1)) k = SMap.get d m k := by
  induction m with
  | nil => rfl
  | cons p m ih =>
    obtain ⟨i, v⟩ := p
    by_cases hi : i = k
    · subst hi
      simp [h, SMap.get]
    · by_cases hf : f i = true <;> simp [hf, SMap.get, hi, ih]

/-- The reset of the MSI-X table takes no byte above the table (R295). -/
theorem Die.msixReset_read (x : Die) (a : Nat) (h : 0x200 ≤ a) : Memory.read x.msixReset.sram a = Memory.read x.sram a :=
  SMap.get_filter _ (fun k => !decide (k < 0x200)) _ _ (by simpa using h)

/-- PERST of a package out of power-down (R295): the endpoint and the table first, LINK after them where the link was up. -/
theorem execPerst_completes {e : AccessId} (h : 1 ≤ s.phase) (P : State → Prop)
    (hreset : P ((s.setEp e {}).onDie (accessDie s.part e) Die.msixReset))
    (hpost : ∀ data, P (((s.setEp e {}).onDie (accessDie s.part e) Die.msixReset).post (accessDie s.part e) 445 0x03 data)) :
    Completes (.perst e) s P := by
  refine Completes.of _ rfl ?_
  rw [if_pos h]
  dsimp only
  split
  · rw [State.onDie_part, State.setEp_part]
    exact hpost _
  · exact hreset

end Sys2Proof.Machine
end

section
/-! PROOFS. The events of the PCI Express links. -/

open Sys2Proof Sys2Proof.Machine

/-- Settles O19: each row does what it names at the endpoint, and its post leaves the endpoint and the vectors. That the
reset of the table sets every mask is log entries 6 and 52. -/
theorem linkEvents : Obligations.LinkEvents := by
  unfold Obligations.LinkEvents
  refine ⟨?perst, ?link, ?poison⟩
  case perst =>
    intro s e h
    refine execPerst_completes h _ ?_ fun data => ?_
    · refine ⟨by simp, by simp [Die.msixReset], by simp [Die.msixReset], by simp [Die.msixReset], fun a ha => ?_⟩
      simp [Die.msixReset_read _ a ha]
    · obtain ⟨hmask, hpend, hf⟩ := State.post_msix (s := (s.setEp e {}).onDie (accessDie s.part e) Die.msixReset)
        (accessDie s.part e) 445 0x03 data
      refine ⟨by simp, hmask.trans ?_, hpend.trans ?_, hf.trans ?_, fun a ha => ?_⟩
      · simp [Die.msixReset]
      · simp [Die.msixReset]
      · simp [Die.msixReset]
      · simp [Die.msixReset_read _ a ha]
  case link =>
    intro s e up speed width hrun hup
    have hphase : 1 ≤ s.phase := by simp [State.running] at hrun; omega
    refine Posts.of (s.setEp e { s.ep e with l0 := up, speed := speed.val, width := width.val }) ?_ ?_
    · exact congrArg Host.Outcome.next (if_pos (by simpa [hphase] using hup))
    · simp
  case poison =>
    intro s e off hrun
    refine Posts.of (s.setEp e { s.ep e with poison := true }) ?_ ?_
    · exact congrArg Host.Outcome.next (if_pos hrun)
    · simp

end

section
/-! SUPPORT. A request at an endpoint: what a reserved one leaves, a write to a register, and one to the memory window. -/

set_option Elab.async false

namespace Sys2Proof.Machine

variable {s t : State}

theorem State.q2_of_blk (h : t.blk .queues = s.blk .queues) (d : DieId) : (t.die d).q2 = (s.die d).q2 :=
  (congrArg Die.q2 (State.die_of_blk h d) :)

@[simp] theorem State.setEp_setEp (e : AccessId) (v w : Endpoint) : (s.setEp e v).setEp e w = s.setEp e w := by
  unfold State.setEp
  split <;> rfl

/-! ### Memories (R319) -/

/-- A number stored least significant byte first reads back, as many of its bytes as were stored. -/
theorem Memory.readLE_writeLE_same (n : Nat) : ∀ (m : List Host.Cell) (a v : Nat),
    Memory.readLE (Memory.writeLE m a n v) a n = v % 256 ^ n := by
  induction n with
  | zero => intro m a v; simp [Memory.readLE, Nat.mod_one]
  | succ n ih =>
    intro m a v
    have hfirst : Memory.read (Memory.writeLE (Memory.write m a (BitVec.ofNat 8 v)) (a + 1) n (v / 256)) a = BitVec.ofNat 8 v := by
      rw [Memory.read_writeLE_ne _ _ _ _ _ (.inl (by omega)), Memory.read_write_same]
    simp only [Memory.readLE, Memory.writeLE, ih, hfirst, BitVec.toNat_ofNat]
    exact ((congrArg (v % ·) (pow_succ' 256 n)).trans Nat.mod_mul).symm

/-! ### The register map (R299) -/

/-- A row holds an offset only at one of its own registers. -/
theorem RegRow.at?_some {r : RegRow} {o : Nat} {sel : RegSel} (h : r.at? o = some sel) : sel.row = r ∧ sel.offset = o := by
  unfold RegRow.at? at h
  by_cases hlow : o < r.off
  · simp [hlow] at h
  · simp only [hlow, if_false, Option.ite_none_right_eq_some, Bool.and_eq_true, beq_iff_eq, Option.some.injEq] at h
    obtain ⟨⟨-, hrest⟩, rfl⟩ := h
    refine ⟨rfl, ?_⟩
    have hinst : (if r.na = 1 then 0 else (o - r.off) / r.sa) * r.sa ≤ o - r.off := by
      split
      · simp
      · exact Nat.div_mul_le_self _ _
    simp only [RegSel.offset]
    omega

/-- The map holds a register at its own offset, in a row of its block. -/
theorem lookup_some {o : Nat} {sel : RegSel} (h : lookup o = some sel) : sel.row ∈ blockRows o ∧ sel.offset = o := by
  obtain ⟨r, hr, hat⟩ := List.exists_of_findSome?_eq_some h
  obtain ⟨hrow, hoff⟩ := RegRow.at?_some hat
  exact ⟨hrow ▸ hr, hoff⟩

/-- Every row of a block with a staged field has a commit group (R33). -/
def groupedRows (l : List RegRow) : Bool := l.all (fun r => r.rws == 0 || r.group != .none)

theorem blockRows_grouped (o : Nat) : groupedRows (blockRows o) = true := by
  unfold blockRows
  repeat' refine iteInduction (motive := fun l => groupedRows l = true) (fun _ => ?_) fun _ => ?_
  all_goals decide +kernel

/-- A register with a staged field has a commit group. -/
theorem group_of_rws {o : Nat} {sel : RegSel} (h : lookup o = some sel) (hrws : sel.rws ≠ 0) : ∃ g, sel.group = some g := by
  have hrow : sel.row.rws ≠ 0 := by
    intro h0
    simp [RegSel.rws, h0] at hrws
  have hrows := List.all_eq_true.mp (blockRows_grouped o) _ (lookup_some h).1
  simp only [Bool.or_eq_true, beq_iff_eq, bne_iff_ne] at hrows
  have hgroup := hrows.resolve_left hrow
  unfold RegSel.group
  split
  · exact absurd ‹_› hgroup
  all_goals exact ⟨_, rfl⟩

theorem State.register_lookup {d : DieId} {o : Nat} {sel : RegSel} (h : s.register d o = some sel) : lookup o = some sel := by
  unfold State.register at h
  split at h
  · exact absurd h (by simp)
  · split at h
    · exact absurd h (by simp)
    · exact Option.some.inj h ▸ ‹_›

theorem State.busRegister_register {twi : Bool} {d : DieId} {o : Nat} {sel : RegSel} (h : s.busRegister twi d o = some sel) :
    s.register d o = some sel := by
  unfold State.busRegister at h
  split at h
  · exact absurd h (by simp)
  · split at h
    · exact absurd h (by simp)
    · exact Option.some.inj h ▸ ‹_›

/-- A doorbell of another bus's queue is a reserved location (R319). -/
theorem State.busRegister_foreign {twi : Bool} {d : DieId} {o : Nat} {sel : RegSel} (h : s.register d o = some sel)
    (hf : sel.foreign twi = true) : s.busRegister twi d o = none := by
  simp [State.busRegister, h, hf]

/-- A write through a view to a register with staged fields stages the value at its offset (R300, R303). -/
theorem State.writeReg_stages {d : DieId} {view : Nat} {w : Word} {sel : RegSel} (hrws : sel.rws ≠ 0)
    (hsel : viewSelects view w &&& sel.rws ≠ 0) :
    s.writeReg d sel view w = s.onDie d (fun x => x.stage sel.offset (viewWrite view (x.base sel.offset) w)) := by
  rw [State.writeReg, if_pos hrws, if_neg hsel]

@[simp] theorem Bus.pcie_beq_twoWire : (Bus.pcie == Bus.twoWire) = false := rfl

/-! ### Requests of one DW over PCI Express (R292, R308) -/

/-- With no access of its endpoint under way a request is served at once. -/
theorem execRegisterWrite_request {e : AccessId} {win : Window} {off : BitVec 25} {r : Request} (hrun : s.running = true)
    (hcross : (s.ep e).crossings = 0) : exec (.registerWrite e .pcie win off r) s = .next (s.request e (win, off, r)) := by
  have hphase : s.phase ≠ 3 := by
    intro h
    simp [State.running, h] at hrun
  show execRegisterWrite e .pcie win off r s = _
  simp [execRegisterWrite, hrun, hcross, hphase]

/-- With all four bytes enabled the whole word is written. -/
theorem byEnables_all (v w : Word) : byEnables v w 15#4 = w := by
  have hmask : (List.range 4).foldl (fun m i => if (15#4).getLsbD i then m + 255 * 256 ^ i else m) 0 = 0xFFFFFFFF := by decide
  unfold byEnables
  rw [hmask]
  show v &&& ~~~BitVec.allOnes 32 ||| w &&& BitVec.allOnes 32 = w
  rw [BitVec.not_allOnes, BitVec.and_zero, BitVec.zero_or, BitVec.and_allOnes]

theorem State.request_put_regs {e : AccessId} {off : BitVec 25} {w : Word} (hd3 : (s.ep e).d3 = false) (halign : off.toNat % 4 = 0) :
    s.request e (.regs, off, .put w) = s.busWriteReg e .pcie off.toNat w := by
  simp [State.request, Request.put, hd3, halign, State.busWrite]

theorem State.request_get_regs {e : AccessId} {off : BitVec 25} (hd3 : (s.ep e).d3 = false) (halign : off.toNat % 4 = 0) :
    s.request e (.regs, off, .get) = s.busReadReg e off.toNat := by
  simp [State.request, Request.get, hd3, halign]

theorem State.request_put_mem {e : AccessId} {off : BitVec 25} {w : Word} (hd3 : (s.ep e).d3 = false) :
    s.request e (.mem, off, .put w) = s.busWrite e .pcie .mem (off.toNat % 0x100000 / 4 * 4) w := by
  simp [State.request, Request.put, hd3, beOf, byEnables_all, List.range_succ]

/-- A write to the registers that is not one aligned whole DW is of an unsupported form (R292). -/
theorem State.request_write_regs_unsupported {e : AccessId} {off : BitVec 25} {l : List Word} {f la : BitVec 4}
    (hd3 : (s.ep e).d3 = false) (h : off.toNat % 4 ≠ 0 ∨ l.length ≠ 1 ∨ f ≠ 15 ∨ la ≠ 0) :
    s.request e (.regs, off, .write l f la) = s.unsupported e (.regs, off, .write l f la) := by
  match l with
  | [] => simp [State.request, hd3]
  | [w] =>
    simp only [State.request, hd3, Bool.false_eq_true, if_false]
    refine if_neg fun hform => ?_
    simp only [Bool.and_eq_true, decide_eq_true_eq, beq_iff_eq] at hform
    obtain ⟨⟨ha, hf⟩, hl⟩ := hform
    simp [ha, hf, hl] at h
  | _ :: _ :: _ => simp [State.request, hd3]

/-! ### What a reserved access leaves (R294, R306) -/

/-- An access over PCI Express to a reserved location: its access die records the address and the direction, and the endpoint aborts. -/
theorem State.reserved_abort (e : AccessId) {off : Nat} (write : Bool) (r : Tlp) (hoff : off < 2 ^ 25) :
    let u := (s.reserved (accessDie s.part e) .pcie off write 0).abort e write r
    (u.die (accessDie s.part e)).prot.errAddr = off ∧ (u.die (accessDie s.part e)).prot.errBus = 0 ∧
      (u.die (accessDie s.part e)).prot.errWr = write ∧ (u.ep e).caStatus = true ∧ (write = false → (u.ep e).rdata = some (true, [])) := by
  simp only [State.abort, State.reserved, State.accessError, busCode]
  simp only [State.setEp_die, State.post_die_prot, State.die_onDie_same, State.ep_setEp_same, Nat.mod_eq_of_lt hoff]
  exact ⟨rfl, rfl, rfl, trivial, fun h => by rw [h]; rfl⟩

/-- The same, as the statements have it for a write: nothing of any die changes but the record, its count and its event. -/
theorem State.reserved_abort_frame (e : AccessId) (off : Nat) (write : Bool) (r : Tlp) (d : DieId) :
    let u := (s.reserved (accessDie s.part e) .pcie off write 0).abort e write r
    (u.die d).active = (s.die d).active ∧ (u.die d).staged = (s.die d).staged ∧ (u.die d).sram = (s.die d).sram ∧
      (u.die d).q2 = (s.die d).q2 :=
  ⟨State.active_of_blk (by simp) d, State.staged_of_blk (by simp) d, State.sram_of_blk (by simp) d, State.q2_of_blk (by simp) d⟩

/-- A write to the registers of a die the part has not is reserved (R306). -/
theorem State.busWriteReg_absent {e : AccessId} {off : Nat} {w : Word} (h : present s.part (windowDie off) = false) :
    s.busWriteReg e .pcie off w = (s.reserved (accessDie s.part e) .pcie off true 0).abort e true (oneDw .regs off (some w)) := by
  simp [State.busWriteReg, h, State.busFails]

/-- A write to a location of the access die that holds no register for the bus is reserved (R306). -/
theorem State.busWriteReg_none {e : AccessId} {off : Nat} {w : Word} (hdie : windowDie off = accessDie s.part e)
    (hreg : s.busRegister false (accessDie s.part e) (windowOff off) = none) :
    s.busWriteReg e .pcie off w = (s.reserved (accessDie s.part e) .pcie off true 0).abort e true (oneDw .regs off (some w)) := by
  simp [State.busWriteReg, hdie, hreg, State.busFails]

/-- A write to a register of the access die goes through its view (R299). -/
theorem State.busWriteReg_register {e : AccessId} {off : Nat} {w : Word} {sel : RegSel}
    (hp : present s.part (accessDie s.part e) = true) (hdie : windowDie off = accessDie s.part e)
    (hreg : s.busRegister false (accessDie s.part e) (windowOff off) = some sel) :
    s.busWriteReg e .pcie off w = s.writeReg (accessDie s.part e) sel (windowView off) w := by
  simp [State.busWriteReg, hp, hdie, hreg]

/-- A write of the memory window to a slot of the other bus's queue is reserved (R319). -/
theorem State.busWrite_mem_foreign {e : AccessId} {off : Nat} {w : Word} (h : foreignSlot false (off % 0x100000 / 4 * 4) = true) :
    s.busWrite e .pcie .mem off w =
      (s.reserved (accessDie s.part e) .pcie off true 0).abort e true (oneDw .mem off (some w)) := by
  simp [State.busWrite, h, State.busFails]

/-- A write of the memory window to a place that is no vector, no pending bit and no locked slot stores its four bytes (R291, R320). -/
theorem State.memWrite_stores {d : DieId} {a : Nat} {w : Word} (ha : 0x1004 ≤ a) (hlock : lockedAt (s.die d) a = false) :
    s.memWrite d a w = s.onDie d (fun x => { x with sram := Memory.writeLE x.sram a 4 w.toNat }) := by
  have hvector : ¬a < 0x200 := by omega
  have hpend : ¬a < 0x1004 := by omega
  unfold lockedAt at hlock
  unfold State.memWrite
  cases hslot : sqSlotAt a with
  | none => simp [hvector, hpend]
  | some p =>
    simp only [hslot] at hlock
    simp [hvector, hpend, hlock]

theorem State.busWrite_mem_stores {e : AccessId} {off : Nat} {w : Word} (ha : 0x1004 ≤ off % 0x100000 / 4 * 4)
    (hf : foreignSlot false (off % 0x100000 / 4 * 4) = false) (hhk : s.hkWindow (off % 0x100000 / 4 * 4) = none)
    (hlock : lockedAt (s.die (accessDie s.part e)) (off % 0x100000 / 4 * 4) = false) :
    s.busWrite e .pcie .mem off w = s.onDie (accessDie s.part e) (fun x =>
      { x with sram := Memory.writeLE x.sram (off % 0x100000 / 4 * 4) 4 w.toNat }) := by
  simp [State.busWrite, hf, hhk, State.memWrite_stores ha hlock]

/-- A read of a register of the access die completes with its value (R308). -/
theorem State.busReadReg_register {e : AccessId} {off : Nat} {sel : RegSel}
    (hp : present s.part (accessDie s.part e) = true) (hdie : windowDie off = accessDie s.part e)
    (hreg : s.busRegister false (accessDie s.part e) (windowOff off) = some sel) :
    s.busReadReg e off = s.setEp e { s.ep e with rdata := some (false, [(s.readReg (accessDie s.part e) sel).setWidth 32]) } := by
  simp [State.busReadReg, hp, hdie, hreg, State.readStart, State.readDw]

end Sys2Proof.Machine
end

section
/-! PROOFS. Accesses of registers and of the memory window over a bus. -/

open Sys2Proof Sys2Proof.Machine

/-- Settles O43: a request of one DW is the write or the read of its register or of its memory word, and every refused one is a
reserved access. The places of the memory window are log entries 10 and 44, the access that crosses log entry 58. -/
theorem registerAccess : Obligations.RegisterAccess := by
  unfold Obligations.RegisterAccess
  refine ⟨?stages, ?stores, ?doorbell, ?slot, ?absent, ?waits, ?reads, ?form, ?mailbox, ?reserved, ?twoWire⟩
  case stages =>
    intro s e off w sel hrun hcross hd3 halign hdie hp hreg hrws hview
    have hlookup := State.register_lookup (State.busRegister_register hreg)
    obtain ⟨-, hoff⟩ := lookup_some hlookup
    obtain ⟨g, hg⟩ := group_of_rws hlookup hrws
    refine Completes.of _ (execRegisterWrite_request hrun hcross) ?_
    rw [State.request_put_regs hd3 halign, State.busWriteReg_register hp hdie hreg, State.writeReg_stages hrws hview]
    refine ⟨?_, ?_, fun d hd => State.die_onDie_ne _ _ _ _ hd⟩
    · rw [State.die_onDie_same]
      exact Die.stg_stage_same _ (hoff.symm ▸ hlookup) hg
    · rw [State.die_onDie_same, Die.stage_eq _ (hoff.symm ▸ hlookup) hg]
  case stores =>
    intro s e off w m hrun hcross hd3 hm hlow hforeign hhk hlock
    have hplace : m % 0x100000 / 4 * 4 = m := by omega
    refine Completes.of _ (execRegisterWrite_request hrun hcross) ?_
    rw [State.request_put_mem hd3, ← hm, State.busWrite_mem_stores (by rwa [hplace]) (by rwa [hplace]) (by rwa [hplace]) (by rwa [hplace]),
      hplace, State.die_onDie_same]
    refine ⟨rfl, ?_, fun a ha => Memory.read_writeLE_ne _ _ _ _ _ ha, fun d hd => State.die_onDie_ne _ _ _ _ hd⟩
    exact (Memory.readLE_writeLE_same 4 _ m w.toNat).trans (Nat.mod_eq_of_lt w.isLt)
  case doorbell =>
    intro s e off w sel hrun hcross hd3 halign hdie hp hreg hforeign
    refine Completes.of _ (execRegisterWrite_request hrun hcross) ?_
    rw [State.request_put_regs hd3 halign, State.busWriteReg_none hdie (State.busRegister_foreign hreg hforeign)]
    obtain ⟨haddr, hbus, hwr, hca, -⟩ := State.reserved_abort (s := s) e true (oneDw .regs off.toNat (some w)) off.isLt
    refine ⟨haddr, hbus, hwr, hca, fun d => ?_⟩
    obtain ⟨hact, hstg, -, hq2⟩ := State.reserved_abort_frame (s := s) e off.toNat true (oneDw .regs off.toNat (some w)) d
    exact ⟨hact, hstg, hq2⟩
  case slot =>
    intro s e off w m hrun hcross hd3 hm hforeign
    have hplace : m % 0x100000 / 4 * 4 = m := by omega
    refine Completes.of _ (execRegisterWrite_request hrun hcross) ?_
    rw [State.request_put_mem hd3, ← hm, State.busWrite_mem_foreign (by rwa [hplace])]
    obtain ⟨haddr, hbus, hwr, hca, -⟩ := State.reserved_abort (s := s) e true (oneDw .mem m (some w)) (off := m) (by omega)
    refine ⟨haddr, hbus, hwr, hca, fun d => ?_⟩
    obtain ⟨-, -, hsram, -⟩ := State.reserved_abort_frame (s := s) e m true (oneDw .mem m (some w)) d
    exact hsram
  case absent =>
    intro s e off w hrun hcross hd3 halign habsent
    refine Completes.of _ (execRegisterWrite_request hrun hcross) ?_
    rw [State.request_put_regs hd3 halign, State.busWriteReg_absent habsent]
    obtain ⟨haddr, hbus, hwr, hca, -⟩ := State.reserved_abort (s := s) e true (oneDw .regs off.toNat (some w)) off.isLt
    refine ⟨haddr, hbus, hwr, hca, fun d => ?_⟩
    obtain ⟨hact, hstg, hsram, -⟩ := State.reserved_abort_frame (s := s) e off.toNat true (oneDw .regs off.toNat (some w)) d
    exact ⟨hact, hstg, hsram⟩
  case waits =>
    intro s e win off r hrun hcross
    refine Completes.of _ ?_ rfl
    show execRegisterWrite e .pcie win off r s = _
    simp [execRegisterWrite, hrun, hcross]
  case reads =>
    intro s e off sel hrun hcross hd3 halign hdie hp hreg
    refine Completes.of _ (execRegisterWrite_request hrun hcross) ?_
    rw [State.request_get_regs hd3 halign, State.busReadReg_register hp hdie hreg]
  case form =>
    intro s e off l f la hrun hcross hd3 hform
    refine Completes.of _ (execRegisterWrite_request hrun hcross) ?_
    rw [State.request_write_regs_unsupported hd3 hform]
    obtain ⟨haddr, hbus, hwr, hca, -⟩ := State.reserved_abort (s := s) e true (.regs, off, .write l f la) off.isLt
    refine ⟨haddr, hbus, hwr, hca, fun d => ?_⟩
    obtain ⟨hact, hstg, hsram, -⟩ := State.reserved_abort_frame (s := s) e off.toNat true (.regs, off, .write l f la) d
    exact ⟨hact, hstg, hsram⟩
  case mailbox =>
    intro s d m a hup
    refine Completes.of _ (congrArg Host.Outcome.next (if_pos hup)) ⟨?_, by simp [State.wmbSelect]⟩
    ext i hi : 1
    simp [State.wmbSelect, Vector.getElem_setIfInBounds, Vector.getElem_set]
  case reserved =>
    intro s e off wr sp hrun
    refine Completes.of _ (congrArg Host.Outcome.next (if_pos hrun)) ?_
    obtain ⟨haddr, hbus, hwr, hca, hrdata⟩ := State.reserved_abort (s := s) e wr (oneDw .regs off.toNat (if wr then some 0 else none)) off.isLt
    exact ⟨haddr, hbus, hwr, hca, hrdata, (State.reserved_abort_frame (s := s) e off.toNat wr _ _).1⟩
  case twoWire =>
    intro s e off sp hrun
    refine Completes.of _ (congrArg Host.Outcome.next (if_pos hrun)) ?_
    have haddr := Nat.mod_eq_of_lt off.isLt
    simp [State.reserved, State.accessError, State.busFails, State.twiOutcome, busCode, haddr]

end

section
/-! SUPPORT. The two-wire block of a die: its controller ports under the updates of the model, and the rows of a transfer. -/

set_option Elab.async false

namespace Sys2Proof.Machine

variable {s t u : State}

theorem State.twi_of_blk (h : t.blk .twi = s.blk .twi) (d : DieId) : (t.die d).twi = (s.die d).twi :=
  (congrArg Die.twi (State.die_of_blk h d) :)

@[simp] theorem State.onTwi_part (d : DieId) (f : Twi → Twi) : (s.onTwi d f).part = s.part := rfl

/-! ### A controller port under an update of itself -/

/-- The update of one controller port, as a function of the two-wire block. -/
def Twi.onPort (t : Twi) (m : Nat) (f : Mc → Mc) : Twi := { t with mc := t.mc.setIfInBounds m (f (t.port m)) }

theorem Twi.port_onPort (t : Twi) (m : McId) (f : Mc → Mc) : (t.onPort m.val f).port m.val = f (t.port m.val) := by
  have hm : m.val < 2 := m.isLt
  simp [Twi.onPort, Twi.port, Vector.getElem?_eq_getElem hm]

theorem Twi.onPort_onPort (t : Twi) (m : McId) (f g : Mc → Mc) :
    (t.onPort m.val f).onPort m.val g = t.onPort m.val (fun v => g (f v)) := by
  have hport := t.port_onPort m f
  unfold Twi.onPort at *
  simp only [hport, Twi.mk.injEq, true_and]
  ext i hi : 1
  simp only [Vector.getElem_setIfInBounds]
  split <;> rfl

theorem State.twi_onMc (d : DieId) (m : Nat) (f : Mc → Mc) : ((s.onMc d m f).die d).twi = (s.die d).twi.onPort m f := by
  simp [State.onMc, State.onTwi, Twi.onPort]

theorem State.port_onMc (d : DieId) (m : McId) (f : Mc → Mc) :
    ((s.onMc d m.val f).die d).twi.port m.val = f ((s.die d).twi.port m.val) := by
  rw [State.twi_onMc, Twi.port_onPort]

theorem State.onMc_onMc (d : DieId) (m : McId) (f g : Mc → Mc) :
    (s.onMc d m.val f).onMc d m.val g = s.onMc d m.val (fun v => g (f v)) := by
  have h := fun x : Twi => x.onPort_onPort m f g
  unfold State.onMc State.onTwi Twi.onPort at *
  rw [State.onDie_onDie]
  simp only [h]

/-! ### How a transfer ends (R371, R372) -/

/-- What the end of a transfer makes of its port. -/
def Mc.ended (v : Mc) (result : Nat) (stop : Bool) : Mc :=
  { v with active := false, free := stop || (v.free && !v.active), high := 0, last := result, check := v.check || result == 4 }

/-- The end of a transfer changes its own port as Mc.ended says; the final record is made elsewhere. -/
theorem State.twiFinish_port (d : DieId) (m : McId) (o : Op) (result status acked : Nat) (data : List Byte) (stop : Bool) :
    ((s.twiFinish d m.val o result status acked data stop).die d).twi.port m.val = ((s.die d).twi.port m.val).ended result stop := by
  have hmc : ∀ u : State, u.blk .twi = (s.onMc d m.val (fun v => v.ended result stop)).blk .twi →
      (u.die d).twi.port m.val = ((s.die d).twi.port m.val).ended result stop := by
    intro u hu
    rw [State.twi_of_blk hu, State.port_onMc]
  refine hmc _ ?_
  unfold State.twiFinish
  dsimp only
  split <;> split <;> simp <;> rfl

/-- The transfer whose wrong PEC byte or whose final STOP has come (R371). -/
theorem execTwiTransferEnd_runs {d : DieId} {m : McId} {acked : Byte} {data : List Byte} {o : Op} (hup : up s d = true)
    (hruns : (s.die d).mcRuns m.val = some o) (hkeeps : o.cancel = false) (hop : o.opcode = 0x0E01) :
    exec (.twiTransferEnd d m 0 acked data) s = .next
      ((s.onMc d m.val (fun v => { v with stuck := false, scl := true, sda := true, check := false })).twiFinish d m.val o
        (if twiPecOk o.packet data then 0 else 7) (twiStatus (if twiPecOk o.packet data then 0 else 7)) acked.toNat data true) := by
  obtain ⟨hp, hrun⟩ := up_iff.mp hup
  show execTwiTransferEnd d m 0 acked data s = _
  cases hpec : twiPecOk o.packet data <;> simp [execTwiTransferEnd, hrun, hp, hruns, hkeeps, hop, hpec]

/-- A transfer that takes its port (R370, R371). -/
theorem State.twiCommand_starts {k : Packet} {op : Nat} (htarget : k.target.toNat < 2) (hen : (u.die k.die).mcEn k.target.toNat = true)
    (hfree : (u.die k.die).busy 5 k.target.toNat = false) (hroom : (u.die k.die).peg.ops.length < 64) :
    u.twiCommand k op true = (u.accept k op 5 k.target.toNat []).twiWait k.die k.target.toNat := by
  simp [State.twiCommand, State.start, Nat.not_le.mpr htarget, hen, hfree, Nat.not_le.mpr hroom]

/-- A transfer that has taken its port waits there, and the port counts from the start (R370). -/
theorem State.twiCommand_enters {k : Packet} {op : Nat} (htarget : k.target.toNat < 2) (hen : (u.die k.die).mcEn k.target.toNat = true)
    (hfree : (u.die k.die).busy 5 k.target.toNat = false) (hroom : (u.die k.die).peg.ops.length < 64) :
    let t := u.twiCommand k op true
    runsOp t k op 5 k.target.toNat = true ∧ (t.die k.die).twi.port k.target.toNat =
      { (u.die k.die).twi.port k.target.toNat with retries := 0, cleared := false, acked := 0, got := [], low := 0 } := by
  dsimp only
  rw [State.twiCommand_starts htarget hen hfree hroom]
  constructor
  · rw [runsOp, State.peg_of_blk (s := u.accept k op 5 k.target.toNat []) (by simp)]
    exact (u.accept_enters k op 5 k.target.toNat [] hroom).1
  · have hport := State.port_onMc (s := u.accept k op 5 k.target.toNat []) k.die ⟨k.target.toNat, htarget⟩
      (fun v => { v with retries := 0, cleared := false, acked := 0, got := [], low := 0 })
    rw [State.twi_of_blk (s := u) (t := u.accept k op 5 k.target.toNat []) (by simp)] at hport
    exact hport

@[simp] theorem Twi.mc_drain (v : Twi) : v.drain.mc = v.mc := by
  unfold Twi.drain
  split <;> rfl

@[simp] theorem Twi.addr_drain (v : Twi) : v.drain.addr = v.addr := by
  unfold Twi.drain
  split <;> rfl

/-! ### The target port beside the controller ports (R296 to R298) -/

/-- The four bytes a frame carries, most significant first, are its word (R296). -/
theorem bigWord_extract (x : Word) :
    bigWord (x.extractLsb' 24 8) (x.extractLsb' 16 8) (x.extractLsb' 8 8) (x.extractLsb' 0 8) = x := by
  unfold bigWord
  ext i hi
  simp only [BitVec.getElem_append, BitVec.getElem_extractLsb']
  split
  · simp [BitVec.getLsbD_eq_getElem hi]
  · split
    · rw [← BitVec.getLsbD_eq_getElem hi]; congr 1; omega
    · split <;> (rw [← BitVec.getLsbD_eq_getElem hi]; congr 1; omega)

/-- What the rows of the target port leave of the rest of its die: the controller ports, the active values and the address. -/
theorem State.target_keeps {d : DieId} {v : Twi} (htwi : (t.die d).twi = v) (hmc : v.mc = (s.die d).twi.mc)
    (haddr : v.addr = (s.die d).twi.addr) (hact : t.blk .active = s.blk .active) :
    (∀ m : McId, (t.die d).twi.port m.val = (s.die d).twi.port m.val) ∧ (t.die d).active = (s.die d).active ∧
      (t.die d).twi.addr = (s.die d).twi.addr := by
  subst htwi
  exact ⟨fun m => by simp only [Twi.port, hmc], State.active_of_blk hact d, haddr⟩

/-- A write frame of this bus for a register of another die waits in the buffer for the response from there (R298). -/
theorem State.twiWrite_crosses {e : AccessId} {x w : Word} (hspace : frameSpace x = 0)
    (haway : windowDie (frameOff x) ≠ accessDie s.part e) (hp : present s.part (windowDie (frameOff x)) = true) :
    ((s.twiWrite e x w).die (accessDie s.part e)).twi =
      { (s.die (accessDie s.part e)).twi with ready := false, wbuf := some (x, w), wres := 4 } := by
  have hsent : ∀ v : State, v.blk .twi = (s.onTwi (accessDie s.part e) (fun t => { t.began with wbuf := some (x, w), wres := 4 })).blk .twi →
      ((v.onTwi (accessDie s.part e) Twi.drain).die (accessDie s.part e)).twi =
        { (s.die (accessDie s.part e)).twi with ready := false, wbuf := some (x, w), wres := 4 } := by
    intro v hv
    simp [State.onTwi, State.twi_of_blk hv, Twi.drain, Twi.began]
  refine hsent _ ?_
  simp [hspace, spaceWindow, State.busWrite, State.busWriteReg, State.onTwi_part, haway, hp, State.crossDie]

/-- The eight bytes of a frame of this port that carry X and D, after its address byte (R296). -/
def Twi.writeBytes (t : Twi) (x w : Word) : List Byte :=
  [t.addrByte false, x.extractLsb' 24 8, x.extractLsb' 16 8, x.extractLsb' 8 8, x.extractLsb' 0 8, w.extractLsb' 24 8,
    w.extractLsb' 16 8, w.extractLsb' 8 8, w.extractLsb' 0 8]

/-- A write frame with a good PEC that finds the buffer free is accepted into it (R296, R298). -/
theorem execTwiWriteFrame_good {e : AccessId} {x w : Word} (hrun : s.running = true)
    (hfree : (s.die (accessDie s.part e)).twi.occupied = false) (hok : frameOk x = true) :
    execTwiWriteFrame e ((s.die (accessDie s.part e)).twi.writeBytes x w ++ [pec ((s.die (accessDie s.part e)).twi.writeBytes x w)]) s =
      .next (s.twiWrite e x w) := by
  simp only [execTwiWriteFrame, Twi.writeBytes, List.cons_append, List.nil_append, bigWord_extract]
  simp [hrun, hfree, hok]

/-- The bytes of a read frame of this port that carry X, between its address bytes (R296). -/
def Twi.readBytes (t : Twi) (x : Word) : List Byte :=
  [t.addrByte false, x.extractLsb' 24 8, x.extractLsb' 16 8, x.extractLsb' 8 8, x.extractLsb' 0 8, t.addrByte true]

/-- A read frame of a register of the access die answers with its value (R297). -/
theorem execTwiReadFrame_here {e : AccessId} {x : Word} {sel : RegSel} (hrun : s.running = true)
    (hfree : (s.die (accessDie s.part e)).twi.occupied = false) (hidle : (s.die (accessDie s.part e)).twi.read = none)
    (hok : frameOk x = true) (hspace : frameSpace x = 0) (hhere : windowDie (frameOff x) = accessDie s.part e)
    (hp : present s.part (accessDie s.part e) = true)
    (hreg : s.busRegister true (accessDie s.part e) (windowOff (frameOff x)) = some sel) :
    ∃ v, execTwiReadFrame e ((s.die (accessDie s.part e)).twi.readBytes x) s =
      .next ((s.onTwi (accessDie s.part e) (fun t => t.began.drain)).twiOutcome (accessDie s.part e) false 0 v) := by
  have hreg' : (s.onTwi (accessDie s.part e) (fun t => t.began.drain)).busRegister true (accessDie s.part e) (windowOff (frameOff x)) =
      some sel := hreg
  refine ⟨((s.onTwi (accessDie s.part e) (fun t => t.began.drain)).readReg (accessDie s.part e) sel).setWidth 32, ?_⟩
  simp only [execTwiReadFrame, Twi.readBytes, bigWord_extract]
  simp [hrun, hfree, hidle, hok, State.twiRead, hspace, hhere, hp, hreg']

end Sys2Proof.Machine
end

section
/-! PROOFS. The two-wire controller ports, and the target port beside them. -/

open Sys2Proof Sys2Proof.Machine

/-- Settles O52: a transfer takes its port by `twiCommand_enters` and leaves it by `twiFinish_port`; the rows of the target port change
other fields of the two-wire block. -/
theorem controllerPorts : Obligations.ControllerPorts := by
  unfold Obligations.ControllerPorts
  refine ⟨?transfer, ?busy, ?disabled, ?identify, ?arbLost, ?stretch, ?cleared, ?stuck, ?busError, ?stop, ?pecError, ?idle,
    ?writeFrame, ?readFrame, ?bufEmpty, ?busyNack, ?notReady, ?startInAck, ?timeout, ?alert, ?redrive⟩
  case transfer =>
    intro s u k htakes htarget hok hen hfree hroom
    obtain ⟨hready, rfl⟩ := takes_iff.mp htakes
    refine Completes.of _ (congrArg Host.Outcome.next (State.command_ready _ hready)) ?_
    rw [hok]
    exact State.twiCommand_enters htarget hen hfree hroom
  case busy =>
    intro s u k htakes htarget hok hen hbusy
    obtain ⟨hready, rfl⟩ := takes_iff.mp htakes
    refine Answers.of _ (congrArg Host.Outcome.next ((State.command_ready _ hready).trans ?_)) rfl
    simp [State.twiCommand, Nat.not_le.mpr htarget, hok, hen, hbusy, State.refuse]
  case disabled =>
    intro s u k htakes htarget hok hen
    obtain ⟨hready, rfl⟩ := takes_iff.mp htakes
    refine Answers.of _ (congrArg Host.Outcome.next ((State.command_ready _ hready).trans ?_)) rfl
    simp [State.twiCommand, Nat.not_le.mpr htarget, hok, hen, State.refuse]
  case identify =>
    intro s u k htakes htarget hok hen hfree hroom
    obtain ⟨hready, rfl⟩ := takes_iff.mp htakes
    refine Completes.of _ (congrArg Host.Outcome.next (State.command_ready _ hready)) ?_
    rw [decide_eq_true hok]
    exact State.twiCommand_enters htarget hen hfree hroom
  case arbLost =>
    intro s d m acked o hup hruns hfirst hleft
    obtain ⟨hp, hrun⟩ := up_iff.mp hup
    obtain ⟨rfl, hkeeps⟩ := hfirst
    refine Completes.of ((((s.count d (cMc m.val 8)).post d (393 + m.val) 0x01 (twiAddr o.opcode o.packet + 256 * ((s.die d).twi.port m.val).retries + 1024)).onMc d m.val
      (fun v => { v with retries := v.retries + 1, active := false, free := false, high := 0, acked := 0, got := [] })).onDie d
      (fun x => x.mapOps (fun z => z.is o.origin o.queue o.tag) (fun z => { z with phase := 0 }))) ?_ ⟨?_, rfl⟩
    · show execArbLost d m 0 [] s = _
      simp [execArbLost, hruns, hrun, hp, hkeeps, hleft, b2n]
    · rw [State.die_onDie_same]
      refine (State.port_onMc d m _).trans ?_
      simp
  case stretch =>
    intro s d m acked data o hup hruns hactive
    obtain ⟨hp, hrun⟩ := up_iff.mp hup
    refine Completes.of _ ?_ ⟨rfl, ?_⟩
    · show execStretchTimeout d m acked data s = _
      simp [execStretchTimeout, hruns, hrun, hp]
    · rw [State.twiFinish_port, State.port_onMc]
      simp [Mc.ended, hactive]
  case cleared =>
    intro s d m pulses hup hen hdue
    obtain ⟨hp, hrun⟩ := up_iff.mp hup
    refine Posts.of ((s.count d (cMc m.val 0x10)).onMc d m.val (fun v => { v with sda := true, stuck := false, check := false, cleared := true, free := true })) ?_ ?_
    · show execBusClear d m pulses true s = _
      simp [execBusClear, hrun, hp, hen, hdue]
    · rw [State.port_onMc]
      simp
  case stuck =>
    intro s d m hup hen hdue hnone
    obtain ⟨hp, hrun⟩ := up_iff.mp hup
    refine Posts.of (((s.count d (cMc m.val 0x10)).onMc d m.val (fun v => { v with sda := false, stuck := true, check := true, cleared := true })).count d (cMc m.val 0x14)) ?_ ?_
    · have hidle : ∀ t : State, t.blk .peg = s.blk .peg → (t.die d).mcOp m.val = none := fun t ht => by
        rw [Die.mcOp, State.peg_of_blk ht]
        exact hnone
      show execBusClear d m 9 false s = _
      simp [execBusClear, hrun, hp, hen, hdue, hidle]
    · have hport := State.port_onMc (s := s.count d (cMc m.val 0x10)) d m (fun v => { v with sda := false, stuck := true, check := true, cleared := true })
      simp [hport]
  case busError =>
    intro s d m acked data o hup hruns hactive
    obtain ⟨hp, hrun⟩ := up_iff.mp hup
    refine Completes.of _ ?_ ⟨rfl, ?_⟩
    · show execBusError d m acked data s = _
      simp [execBusError, hruns, hrun, hp]
    · rw [State.twiFinish_port]
      simp [Mc.ended, hactive]
  case stop =>
    intro s d m acked data o hup hruns hkeeps hpeg hstarted hop hacked hread hpec
    refine Completes.of _ (execTwiTransferEnd_runs hup hruns hkeeps hop) ?_
    have hpeg' : ∀ f, ((s.onMc d m.val f).die d).pegRuns = true := fun f => by
      rw [Die.pegRuns, State.peg_of_blk (s := s) (by simp)]
      exact hpeg
    have hstroke : ∀ f, (s.onMc d m.val f).stroke d = s.stroke d := fun f => by
      rw [State.stroke, State.stroke_of_blk (s := s) (by simp)]
      rfl
    have hnone : acked.toNat = 0 ↔ acked = 0#8 := by rw [BitVec.toNat_eq]; rfl
    rw [if_pos hpec, State.twiFinish_port, State.port_onMc]
    refine ⟨rfl, rfl, rfl, rfl, ?_⟩
    simp [State.twiFinish, State.onMc_onMc, hop, ← hacked, twiEffect, twiStatus, hstarted, State.conclude, hpeg', Mc.reply, hread,
      State.port_onMc, hstroke, hnone]
  case pecError =>
    intro s d m acked data o hup hruns hkeeps hop hpec
    refine Completes.of _ (execTwiTransferEnd_runs hup hruns hkeeps hop) ?_
    rw [hpec, State.twiFinish_port]
    simp [Mc.ended]
  case idle =>
    intro s d m result acked data hruns
    refine Completes.of _ ?_ rfl
    show execTwiTransferEnd d m result acked data s = _
    simp [execTwiTransferEnd, hruns]
  case writeFrame =>
    intro s e l x w hl hrun hfree hok hspace haway hp
    subst hl
    have htwi := State.twiWrite_crosses (w := w) hspace haway hp
    refine Completes.of (s.twiWrite e x w) (execTwiWriteFrame_good hrun hfree hok) ⟨by rw [htwi]; rfl, State.target_keeps htwi rfl rfl (by simp)⟩
  case readFrame =>
    intro s e l x sel hl hrun hfree hidle hok hspace hhere hp hreg
    subst hl
    obtain ⟨v, hexec⟩ := execTwiReadFrame_here hrun hfree hidle hok hspace hhere hp hreg
    refine Completes.of _ hexec ⟨?_, State.target_keeps rfl ?_ ?_ (by simp)⟩
    · simp [State.twiOutcome]
    · simp [State.twiOutcome, State.onTwi, Twi.began]
    · simp [State.twiOutcome, State.onTwi, Twi.began]
  case bufEmpty =>
    intro s e hrun hdone
    have htwi : ((s.onTwi (accessDie s.part e) Twi.drain).die (accessDie s.part e)).twi =
        { (s.die (accessDie s.part e)).twi with wbuf := none } := by
      simp [State.onTwi, Twi.drain, hdone]
    exact Completes.of _ (congrArg Host.Outcome.next (if_pos hrun)) ⟨by rw [htwi], State.target_keeps htwi rfl rfl (by simp)⟩
  case busyNack =>
    intro s e hrun hbusy
    have htwi : ((s.count (accessDie s.part e) (cProt + 0x20)).die (accessDie s.part e)).twi = (s.die (accessDie s.part e)).twi := by simp
    exact Completes.of _ (congrArg Host.Outcome.next (if_pos (by simp [hrun, hbusy]))) ⟨htwi, State.target_keeps htwi rfl rfl (by simp)⟩
  case notReady =>
    intro s e hrun hread
    refine Completes.of _ (congrArg Host.Outcome.next (if_pos (by simp [hrun, hread]))) ⟨?_, State.target_keeps rfl ?_ ?_ (by simp)⟩ <;>
      simp [State.twiOutcome]
  case startInAck =>
    intro s e hrun
    have htwi : ((s.count (accessDie s.part e) (cProt + 0x1C)).die (accessDie s.part e)).twi = (s.die (accessDie s.part e)).twi := by simp
    exact Completes.of _ (congrArg Host.Outcome.next (if_pos hrun)) ⟨htwi, State.target_keeps htwi rfl rfl (by simp)⟩
  case timeout =>
    intro s e frame hrun hen hread
    refine Completes.of _ (congrArg Host.Outcome.next (if_pos (by simp [hrun, hen]))) ⟨?_, State.target_keeps rfl ?_ ?_ (by simp)⟩ <;>
      simp [State.onTwi]
  case alert =>
    intro s e hrun halert hen
    refine Completes.of _ (congrArg Host.Outcome.next (if_pos (by simp [hrun, halert, hen]))) ⟨?_, State.target_keeps rfl ?_ ?_ (by simp)⟩
    · simp [Die.alert]
    · simp
    · simp
  case redrive =>
    intro s e hrun hrel hpast
    refine Completes.of _ (congrArg Host.Outcome.next (if_pos (by simp [hrun, hrel, hpast]))) ⟨?_, State.target_keeps rfl ?_ ?_ (by simp)⟩ <;> simp

end

section
/-! SUPPORT. What the counters of a die leave of its telemetry, and what time passing leaves of a die. -/

set_option Elab.async false

namespace Sys2Proof.Machine

variable {s t u : State}

/-! ### What a die's telemetry holds (R403, R418) -/

/-- What the telemetry of a die holds beside its counters: the latched live region, and the profiling samples with their pointer. -/
def Die.held (x : Die) : Option (SMap Nat) × SMap Nat × Nat := (x.tele.latch, x.tele.profBuf, x.tele.profWp)

/-- The same, of die e of a state. -/
def State.heldAt (s : State) (e : DieId) : Option (SMap Nat) × SMap Nat × Nat := (s.die e).held

@[simp] theorem Die.held_count (x : Die) (o n : Nat) : (x.count o n).held = x.held := rfl

@[simp] theorem Die.held_remember (x : Die) (r : Ended) : (x.remember r).held = x.held := rfl

@[simp] theorem Die.held_setQueue (x : Die) (q : QueueId) (v : Queue) : (x.setQueue q v).held = x.held := by
  unfold Die.setQueue
  split
  · rfl
  · split <;> rfl

theorem State.heldAt_onDie (d : DieId) (f : Die → Die) (h : (f (s.die d)).held = (s.die d).held) (e : DieId) :
    (s.onDie d f).heldAt e = s.heldAt e := State.onDie_field s Die.held d e f h

theorem Die.held_buffer (x : Die) (r : Evt) : (x.buffer r).held = x.held := by
  unfold Die.buffer
  dsimp only
  split
  · rfl
  · split
    · rfl
    · split <;> rfl

@[simp] theorem State.heldAt_post (d : DieId) (src cause data : Nat) (e : DieId) : (s.post d src cause data).heldAt e = s.heldAt e := by
  refine State.heldAt_onDie d _ ?_ e
  dsimp only
  split
  · rfl
  · exact (Die.held_buffer _ _).trans rfl

@[simp] theorem State.heldAt_count (d : DieId) (o n : Nat) (e : DieId) : (s.count d o n).heldAt e = s.heldAt e :=
  State.heldAt_onDie d _ rfl e

@[simp] theorem State.heldAt_setQueue (d : DieId) (q : QueueId) (v : Queue) (e : DieId) : (s.setQueue d q v).heldAt e = s.heldAt e :=
  State.heldAt_onDie d _ (Die.held_setQueue _ q v) e

@[simp] theorem State.heldAt_sendTo (a b : DieId) (body : Body) (answered : Bool) (e : DieId) :
    (s.sendTo a b body answered).heldAt e = s.heldAt e := by
  obtain ⟨g, air, h⟩ := s.sendTo_eq a b body answered
  rw [h]
  exact (State.heldAt_onDie a (fun x => { x with brg := g }) rfl e :)

@[simp] theorem State.heldAt_dispatch (d : DieId) (k : Packet × Nat) (e : DieId) : (s.dispatch d k).heldAt e = s.heldAt e := by
  unfold State.dispatch State.enqueue
  split
  · exact State.heldAt_onDie d _ rfl e
  · exact State.heldAt_sendTo _ _ _ _ e

@[simp] theorem State.heldAt_startHeld (d : DieId) (n : QueueId) (e : DieId) : (s.startHeld d n).heldAt e = s.heldAt e := by
  unfold State.startHeld
  dsimp only
  rw [State.foldl_keeps _ (fun t : State => t.heldAt e) _ (fun t k => t.heldAt_dispatch d k e)]
  exact State.heldAt_setQueue d n _ e

@[simp] theorem State.heldAt_receive (d : DieId) (r : Rec) (e : DieId) : (s.receive d r).heldAt e = s.heldAt e := by
  unfold State.receive
  dsimp only
  split
  · simp
  · split <;> simp

/-- A record that is handed over counts at most: it leaves what the telemetry holds (R328, R331). -/
@[simp] theorem State.heldAt_deliver (d : DieId) (r : Rec) (e : DieId) : (s.deliver d r).heldAt e = s.heldAt e := by
  unfold State.deliver
  split <;> simp

@[simp] theorem State.heldAt_finishHw (k : Packet) (op : Nat) (r : Rec) (span : Nat) (e : DieId) :
    (s.finishHw k op r span).heldAt e = s.heldAt e := by
  unfold State.finishHw
  split
  · exact (State.heldAt_deliver _ _ e).trans (State.heldAt_onDie k.die _ rfl e)
  · exact State.heldAt_onDie k.die _ rfl e

/-- Answering the snapshot commands that are complete leaves what the telemetry holds (R409). -/
@[simp] theorem State.heldAt_snapAnswer (d e : DieId) : (s.snapAnswer d).heldAt e = s.heldAt e := by
  refine State.foldl_keeps _ (fun t : State => t.heldAt e) _ (fun t a => ?_) _
  dsimp only
  split
  · rfl
  · exact (State.heldAt_finishHw _ _ _ _ e).trans (State.heldAt_onDie d _ rfl e)

/-! ### Time that passes (R22, R400) -/

/-- What every part of the passing of time leaves of a die, time passing leaves: the ends of frets, the passing of fret 16, of the start of
fret 21, of fret 24 and of fret 27, the last two only where time goes past them. -/
theorem State.advance_field {α : Type} (φ : Die → α) {p : Nat} (hfrets : ∀ x n, φ (Die.frets x n) = φ x)
    (hmark : ∀ x, φ (Die.markerDue x) = φ x) (hsnap : ∀ x, φ (Die.snapDone x) = φ x) (hcopy : 1000 ≤ p → ∀ x, φ (Die.copyDone x) = φ x)
    (hbank : 1120 ≤ p → ∀ x, φ (Die.bankStep x) = φ x) (d : DieId) : φ ((s.advance p).die d) = φ (s.die d) := by
  unfold State.advance
  split
  next h =>
    dsimp only
    generalize hf : (fun x : Die => _) = f
    have hkeep (x : Die) : φ (f x) = φ x := by
      have hif {b : Bool} {g : Die → Die} (hg : b = true → ∀ x, φ (g x) = φ x) (x : Die) : φ (if b then g x else x) = φ x := by
        cases b
        · rfl
        · exact hg rfl x
      subst hf
      dsimp only
      rw [hif (g := Die.bankStep) ?bank, hif (g := Die.copyDone) ?copy, hif (g := Die.snapDone) fun _ => hsnap,
        hif (g := Die.markerDue) fun _ => hmark, hfrets]
      case bank =>
        intro hb
        simp only [decide_eq_true_eq, Bool.and_eq_true] at hb
        exact hbank hb.2
      case copy =>
        intro hc
        simp only [decide_eq_true_eq, Bool.and_eq_true] at hc
        exact hcopy hc.2
    change φ ((s.onAwake fun s e => s.onDie e f).die d) = _
    rw [State.die_onAwake]
    split
    · exact hkeep _
    · rfl
  next => rfl

/-- The end of frets changes counters, marks and the count of frets of the telemetry. -/
theorem Die.held_frets (x : Die) (n : Nat) : (x.frets n).held = x.held := by
  have hcounts (l : List Nat) (g : Nat → Nat) (y : Die) : (l.foldl (fun z o => z.count o (g o)) y).held = y.held :=
    List.foldlRecOn (motive := fun z : Die => z.held = y.held) l _ rfl fun z hz o _ => (Die.held_count z o _).trans hz
  unfold Die.frets
  split
  · rfl
  · dsimp only
    split
    · exact hcounts _ (fun _ => 1) x
    · exact (hcounts _ (fun _ => n - 1) _).trans (hcounts _ (fun _ => 1) x)

theorem Die.held_markerDue (x : Die) : x.markerDue.held = x.held := by
  unfold Die.markerDue
  split <;> rfl

theorem Die.held_snapDone (x : Die) : x.snapDone.held = x.held := by
  unfold Die.snapDone
  split <;> rfl

/-- At the end of fret 24 the latch empties, and the samples stay. -/
theorem Die.held_copyDone (x : Die) : x.copyDone.held.2 = x.held.2 := by
  unfold Die.copyDone
  split <;> rfl

@[simp] theorem Die.held_fall (x : Die) (o : Nat) (b a : Bool) : (x.fall o b a).held = x.held := by
  unfold Die.fall Die.mark
  split
  · split <;> rfl
  · rfl

@[simp] theorem Die.held_setCourse (x : Die) (c : Nat) (v : Course) : (x.setCourse c v).held = x.held := by
  show (((x.fall _ _ _).fall _ _ _).fall _ _ _).held = _
  simp

theorem Die.held_bankStep (x : Die) : x.bankStep.held = x.held := by
  have hhalf : x.halfStep.held = x.held := by
    unfold Die.halfStep
    split <;> rfl
  unfold Die.bankStep
  split
  · refine List.foldlRecOn (motive := fun y : Die => y.held = x.held) _ _ hhalf fun y hy c _ => ?_
    dsimp only
    split
    · exact (Die.held_setCourse _ _ _).trans hy
    · exact hy
  · rfl

/-- Before the end of fret 24 the latch stands (R403). -/
theorem State.advance_latch {p : Nat} (hp : p < 1000) (d : DieId) : ((s.advance p).die d).tele.latch = (s.die d).tele.latch :=
  State.advance_field (fun x => x.held.1) (fun x n => congrArg Prod.fst (x.held_frets n)) (fun x => congrArg Prod.fst x.held_markerDue)
    (fun x => congrArg Prod.fst x.held_snapDone) (fun h => absurd h (by omega)) (fun _ x => congrArg Prod.fst x.held_bankStep) d

/-- The profiling samples stay while time passes (R418). -/
theorem State.advance_profile (p : Nat) (d : DieId) : ((s.advance p).die d).held.2 = (s.die d).held.2 :=
  State.advance_field (fun x => x.held.2) (fun x n => congrArg Prod.snd (x.held_frets n)) (fun x => congrArg Prod.snd x.held_markerDue)
    (fun x => congrArg Prod.snd x.held_snapDone) (fun _ => Die.held_copyDone) (fun _ x => congrArg Prod.snd x.held_bankStep) d

/-- No overrun of frets 21 to 24 comes or goes with time alone. -/
theorem State.advance_pegOvr (p : Nat) (d : DieId) : ((s.advance p).die d).stroke.pegOvr = (s.die d).stroke.pegOvr := by
  obtain ⟨m, t, cs, ts, r, h⟩ := s.advance_die p d
  rw [h]

/-! ### The rows of telemetry -/

/-- LIVE_COPY in its fret latches the live region, unless an overrun keeps the copy before (R403). -/
theorem execLiveCopy_latch {d : DieId} (hup : up s d = true) (hopen : s.fretOpen d 21 24 = true) (P : State → Prop)
    (h : ∀ t, (t.die d).tele.latch = (if (s.die d).stroke.pegOvr then (s.die d).tele.latch else some ((s.toFret 21).die d).liveImage) → P t) :
    Completes (.liveCopy d) s P := by
  obtain ⟨hp, hrun⟩ := up_iff.mp hup
  have hlatch : ((s.toFret 21).die d).tele.latch = (s.die d).tele.latch := State.advance_latch (by omega) d
  have hovr : (((s.toFret 21).onDie d fun x => x.didFret 21).die d).stroke.pegOvr = (s.die d).stroke.pegOvr := by
    rw [State.die_onDie_same]
    exact State.advance_pegOvr _ d
  refine Completes.of _ (congrArg Host.Outcome.next (if_pos (by rw [hp, hrun, hopen]; rfl))) (h _ ?_)
  dsimp only
  refine (congrArg Prod.fst (State.heldAt_snapAnswer (s := _) d d)).trans ?_
  rw [hovr]
  split
  · show (((s.toFret 21).onDie d fun x => x.didFret 21).die d).tele.latch = _
    rw [State.die_onDie_same]
    exact hlatch
  · show ((((s.toFret 21).onDie d fun x => x.didFret 21).onDie d _).die d).tele.latch = _
    rw [State.die_onDie_same, State.die_onDie_same]
    rfl

/-- PROFILE_SAMPLE moves to the sc of the sample and writes it (R417, R418). -/
theorem execProfileSample_writes {d : DieId} {pc : Word} {n : Nat} (hup : up s d = true) (hprof : (s.die d).tele.profRun = true)
    (hpeg : (s.die d).pegRuns = true) (hn : n = (s.die d).tele.nextSample (s.stroke d * 1280 + s.pos))
    (hlow : s.stroke d * 1280 + s.pos ≤ n) (hhigh : n < (s.stroke d + 1) * 1280) :
    Completes (.profileSample d pc) s (fun t => (t.die d).tele.profLast = n ∧ (t.die d).held.2 =
      (SMap.put 0 (s.die d).tele.profBuf (s.die d).tele.profWp
        (pc.toNat + 2 ^ 32 * (s.stroke d % 2 ^ 27 + 2 ^ 27 * ((n - s.stroke d * 1280) / 40))), ((s.die d).tele.profWp + 1) % 4096)) := by
  obtain ⟨hp, hrun⟩ := up_iff.mp hup
  have hhere : n - s.stroke d * 1280 < 1280 := by omega
  have hpos : (s.advance (n - s.stroke d * 1280)).pos = n - s.stroke d * 1280 := by
    rw [State.advance_pos]
    split
    · rfl
    · next h =>
      simp only [hrun, Bool.true_and, Bool.and_eq_true, decide_eq_true_eq] at h
      omega
  have hbuf : ((s.advance (n - s.stroke d * 1280)).die d).tele.profBuf = (s.die d).tele.profBuf :=
    congrArg Prod.fst (State.advance_profile _ d)
  refine Completes.of _ (congrArg Host.Outcome.next (if_pos (by simp only [hp, hrun, hprof, hpeg, ← hn, hhere]; rfl))) ?_
  dsimp only
  rw [← hn]
  have hfret : ∀ f : Die → Die, ((s.advance (n - s.stroke d * 1280)).onDie d f).fret = (n - s.stroke d * 1280) / 40 := fun f =>
    congrArg (· / 40) hpos
  rw [hfret, ← hbuf]
  split
  · simp only [State.count, State.die_onDie_same]
    exact ⟨rfl, rfl⟩
  · simp only [State.die_onDie_same]
    exact ⟨trivial, rfl⟩

/-- A TAG_CONFIG of a port, its parameters in range, waits for the next boundary where the port has what it configures (R419). -/
theorem State.tagPort_takes {k : Packet} {p : PortId} {f : Nat} (able : Half → Bool) (htakes : takesPort s u k 0x0B02 p = true)
    (hfunc : k.w 4 % 4 = f) (hf : f ≠ 3) :
    s.tagPort k f able = if !tagParamsOk f (k.w 4) (k.w 5) then u.refuse k 0x0B02 stBadParam
      else if !able ((u.die p.die).cfga p.key) then u.refuse k 0x0B02 stNotReady else u.tagLater k := by
  subst hfunc
  rw [State.tagPort, if_neg hf, if_neg (not_not.mpr rfl), State.commandDefined_takes _ htakes]

/-- What waits for the boundary is the command alone (R419). -/
theorem State.tagLater_waits (k : Packet) :
    ⟨k, 0x0B02, u.stroke k.die + 1, 0, u.stroke k.die⟩ ∈ ((u.tagLater k).die k.die).peg.awaits ∧
      (∀ q : PortId, (u.tagLater k).port q = u.port q) ∧ ((u.tagLater k).die k.die).tele = (u.die k.die).tele :=
  ⟨State.await_mem _ _ _ _ _, State.port_of_blk (by simp), by simp [State.tagLater, State.await]⟩

/-- CNT_SNAPSHOT of a die, in range and with none waiting, names the next boundary (R409). -/
theorem State.cntSnapshot_waits {k : Packet} (htakes : takes0 s u k 0x0B01 = true) (hfirst : k.w 4 < 65536) (hlow : 1 ≤ k.w 5)
    (hhigh : k.w 5 ≤ 3068) (hregion : 4 * (k.w 4 + k.w 5) ≤ 0xD000) (hfree : (u.die k.die).snapWaits = false) :
    exec (.cntSnapshot k) s = .next ((u.onDie k.die (fun x => { x with tele := { x.tele with
      snapAt := some (u.stroke k.die + 1), snapReq := (k.w 4, k.w 5) } })).await k 0x0B01 (u.stroke k.die + 1) (dbit k.die)) := by
  have hbits : bits (k.w 4) 30 16 = 0 := by
    rw [bits, Nat.shiftRight_eq_div_pow, Nat.div_eq_of_lt hfirst, Nat.zero_mod]
  have hlocal : bit (k.w 4) 31 = false := Nat.testBit_lt_two_pow (by omega)
  refine congrArg Host.Outcome.next ((State.command0_takes _ htakes).trans ?_)
  simp [hbits, hlocal, Nat.mod_eq_of_lt hfirst, hfree, show k.w 5 ≠ 0 by omega, Nat.not_lt.mpr hhigh, Nat.not_lt.mpr hregion]

/-- The window that ends at this boundary is written, from its blocks (R410, R412). -/
theorem execMeterWindowEnd_writes {p : PortId} {dir : Side} {k : Nat} (l : List (MBlock × Word)) (hup : up s p.die = true)
    (hen : ((s.port p).dir dir).metEn = true) (hcarry : (s.port p).carrying = true)
    (hedge : (s.stroke p.die - ((s.port p).dir dir).metFrom) % ((s.port p).dir dir).metW = 0)
    (hk : k + 1 = (s.stroke p.die - ((s.port p).dir dir).metFrom) / ((s.port p).dir dir).metW) (hwin : ((s.port p).dir dir).metWin ≤ k) :
    Completes (.meterWindowEnd p dir l) s (fun t =>
      ((t.port p).dir dir).metVals = [(meterSum (rate ((s.die p.die).cfga p.key) == 3) l).1 % 2 ^ 32,
        (meterSum (rate ((s.die p.die).cfga p.key) == 3) l).2 % 2 ^ 32, k % 2 ^ 32, 1 + 2 * b2n (((s.port p).dir dir).metLow ||
          !s.dirLocked p dir || decide (s.stroke p.die - ((s.port p).dir dir).metW < (s.die p.die).tele.lowAt))] ∧
      ((t.port p).dir dir).metWin = k + 1 ∧ ((t.port p).dir dir).metLow = !s.dirLocked p dir) := by
  obtain ⟨hp, hrun⟩ := up_iff.mp hup
  have hwindows : ((s.port p).dir dir).windows (s.stroke p.die) = k + 1 := hk.symm
  refine Completes.of _ (congrArg Host.Outcome.next (if_pos ?_)) ?_
  · simp only [hp, hrun, hen, hcarry, hedge, hwindows]
    simpa using Nat.lt_succ_of_le hwin
  · dsimp only
    rw [State.onDir_dir, hwindows]
    exact ⟨rfl, rfl, rfl⟩

end Sys2Proof.Machine
end

section
/-! PROOFS. Telemetry. -/

open Sys2Proof Sys2Proof.Machine

/-- Settles O53: the live copy latches an image that counting leaves; a meter, a histogram and a profiling sample write what their rows
name; a TAG_CONFIG waits. The copies at the end of fret 24 are log entry 59, the bytes of a window log entry 89. -/
theorem telemetry : Obligations.Telemetry := by
  unfold Obligations.Telemetry
  refine ⟨?copy, ?overrun, ?snapshot, ?snapRange, ?meter, ?meterIdle, ?tagged, ?untagged, ?profile, ?tagFec, ?tagNoFec, ?tagSeed,
    ?tagMeter, ?tagProfile⟩
  case copy =>
    intro s d hup hopen hovr
    refine execLiveCopy_latch hup hopen _ fun t ht => ?_
    rw [ht, hovr]
    rfl
  case overrun =>
    intro s d hup hopen hovr
    refine execLiveCopy_latch hup hopen _ fun t ht => ?_
    rw [ht, hovr]
    rfl
  case snapshot =>
    intro s u k htakes hfirst hlow hhigh hregion hfree
    refine Completes.of _ (State.cntSnapshot_waits htakes hfirst hlow hhigh hregion hfree) ⟨?_, ?_, ?_, ?_⟩
    · simp [State.await]
    · simp [State.await]
    · simp [State.await, State.stroke, dbit]
    · simp [State.await]
  case snapRange =>
    intro s u k htakes hrange
    refine Answers.of u (congrArg Host.Outcome.next ((State.command0_takes _ htakes).trans ?_)) rfl
    refine if_pos ?_
    simp only [Bool.or_eq_true, decide_eq_true_eq]
    omega
  case meter =>
    intro s p dir k l hup hen hcarry _ hedge _ hk hwin
    exact execMeterWindowEnd_writes l hup hen hcarry hedge hk hwin
  case meterIdle =>
    intro s p dir k a b x y hup hen hcarry _ hedge _ hk hwin hrate hx hy
    obtain ⟨t, hexec, hvals, -, -⟩ := execMeterWindowEnd_writes [(.data257, a), (.mixed257 x y x y, b)] hup hen hcarry hedge hk hwin
    refine ⟨t, hexec, hvals.trans ?_⟩
    have hpam : (rate ((s.die p.die).cfga p.key) == 3) = false := beq_false_of_ne hrate
    rw [hpam]
    simp [meterSum, blockCounts, hx, hy, b2n]
  case tagged =>
    intro s p dir n tp hup hen hlock hnext htags hfec hcarry
    obtain ⟨hp, hrun⟩ := up_iff.mp hup
    refine Completes.of _ (congrArg Host.Outcome.next (if_pos (by simp [hp, hrun, hen, hlock, hnext, htags, hfec, hcarry]))) ?_
    dsimp only
    rw [State.onDir_dir_kept (State.count_blk _ _ _ _ (by simp))]
    exact ⟨SMap.get_put_same _ _ _ _, fun i hi => SMap.get_put_ne _ _ _ _ _ hi, rfl⟩
  case untagged =>
    intro s p dir n tp htags
    refine Completes.of _ (congrArg Host.Outcome.next (if_neg ?_)) rfl
    simp [htags]
  case profile =>
    intro s d pc n hup hprof hpeg hn hlow hhigh
    obtain ⟨t, hexec, hlast, hheld⟩ := execProfileSample_writes (pc := pc) hup hprof hpeg hn hlow hhigh
    obtain ⟨hbuf, hwp⟩ := Prod.mk.inj hheld
    refine ⟨t, hexec, hwp, hlast, ?_, fun i hi => ?_⟩
    · rw [hbuf, SMap.get_put_same]
    · rw [hbuf, SMap.get_put_ne _ _ _ _ _ hi]
  case tagFec =>
    intro s u k p htakes hfunc hparams hfec
    refine Completes.of (u.tagLater k) (congrArg Host.Outcome.next ?_) (State.tagLater_waits k)
    simp [State.tagPort_takes hasFec htakes hfunc, hparams, hfec]
  case tagNoFec =>
    intro s u k p htakes hfunc hparams hfec
    refine Answers.of u (congrArg Host.Outcome.next ?_) rfl
    simp [State.tagPort_takes hasFec htakes hfunc, hparams, hfec, State.refuse]
  case tagSeed =>
    intro s u k p htakes hfunc hbit hseed
    have hparams : tagParamsOk 0 (k.w 4) (k.w 5) = false := by simp [tagParamsOk, hbit, hseed]
    refine Answers.of u (congrArg Host.Outcome.next ?_) rfl
    simp [State.tagPort_takes hasFec htakes hfunc, hparams, State.refuse]
  case tagMeter =>
    intro s u k p htakes hfunc hparams hmeter
    refine Completes.of (u.tagLater k) (congrArg Host.Outcome.next ?_) (State.tagLater_waits k)
    simp [State.tagPort_takes hasMeter htakes hfunc, hparams, hmeter]
  case tagProfile =>
    intro s u k htakes hfunc hparams
    refine Completes.of (u.tagLater k) (congrArg Host.Outcome.next ?_) (State.tagLater_waits k)
    rw [if_neg (by omega), if_neg (by omega), State.command0_takes _ htakes, if_pos hparams]

end

section
/-! SUPPORT. The housekeeping block of a die: what the converter's next work leaves of it, its records, and the PWM channels. -/

set_option Elab.async false

namespace Sys2Proof.Machine

variable {s t u : State} {x : Die}

theorem State.hk_of_blk (h : t.blk .hk = s.blk .hk) (d : DieId) : (t.die d).hk = (s.die d).hk :=
  (congrArg Die.hk (State.die_of_blk h d) :)

@[simp] theorem State.onHk_hk (d : DieId) (f : Hk → Hk) : ((s.onHk d f).die d).hk = f (s.die d).hk := by simp [State.onHk]

@[simp] theorem State.onHk_part (d : DieId) (f : Hk → Hk) : (s.onHk d f).part = s.part := rfl

/-- Two updates of the housekeeping block that agree on what it holds are one. -/
theorem State.onHk_congr {d : DieId} {f g : Hk → Hk} (h : f (s.die d).hk = g (s.die d).hk) : s.onHk d f = s.onHk d g := by
  simp only [State.onHk, State.onDie, h]

@[simp] theorem Hk.seq_setSeq_same (v : Hk) (n : Nat) (q : Seq) : (v.setSeq n q).seq n = q := by
  unfold Hk.setSeq Hk.seq
  split <;> rfl

theorem Hk.seq_setSeq_other (v : Hk) {n m : Nat} (q : Seq) (h : ¬(m = 0 ↔ n = 0)) : (v.setSeq n q).seq m = v.seq m := by
  unfold Hk.setSeq Hk.seq
  split <;> split <;> first | rfl | omega

/-- The two sequences, by number. -/
theorem Hk.seq_setSeq_ne (v : Hk) {n m : Fin 2} (q : Seq) (h : m ≠ n) : (v.setSeq n.val q).seq m.val = v.seq m.val :=
  v.seq_setSeq_other q (by omega)

/-- A housekeeping block without its sequences, and without what the converter's next work may change. -/
def Hk.rest (v : Hk) : Hk := { v with seq0 := {}, seq1 := {}, conv := 0, cal := 0, calRes := [] }

@[simp] theorem Hk.rest_setSeq (v : Hk) (n : Nat) (q : Seq) : (v.setSeq n q).rest = v.rest := by
  unfold Hk.setSeq
  split <;> rfl

section

variable {v w : Hk}

/-! A field that the rest of two blocks shares -/

theorem Hk.wp_of_rest (h : v.rest = w.rest) : v.wp = w.wp := (congrArg Hk.wp h :)
theorem Hk.rp_of_rest (h : v.rest = w.rest) : v.rp = w.rp := (congrArg Hk.rp h :)
theorem Hk.count_of_rest (h : v.rest = w.rest) : v.count = w.count := (congrArg Hk.count h :)
theorem Hk.inj_of_rest (h : v.rest = w.rest) : v.inj = w.inj := (congrArg Hk.inj h :)
theorem Hk.injDone_of_rest (h : v.rest = w.rest) : v.injDone = w.injDone := (congrArg Hk.injDone h :)
theorem Hk.injOps_of_rest (h : v.rest = w.rest) : v.injOps = w.injOps := (congrArg Hk.injOps h :)
theorem Hk.last_of_rest (h : v.rest = w.rest) : v.last = w.last := (congrArg Hk.last h :)
theorem Hk.ofs_of_rest (h : v.rest = w.rest) : v.ofs = w.ofs := (congrArg Hk.ofs h :)
theorem Hk.gain_of_rest (h : v.rest = w.rest) : v.gain = w.gain := (congrArg Hk.gain h :)
theorem Hk.calOp_of_rest (h : v.rest = w.rest) : v.calOp = w.calOp := (congrArg Hk.calOp h :)
theorem Hk.calAfter_of_rest (h : v.rest = w.rest) : v.calAfter = w.calAfter := (congrArg Hk.calAfter h :)
theorem Hk.pwm_of_rest (h : v.rest = w.rest) : v.pwm = w.pwm := (congrArg Hk.pwm h :)
theorem Hk.load_of_rest (h : v.rest = w.rest) : v.load = w.load := (congrArg Hk.load h :)

end

/-! ### The converter takes its next work (R381) -/

/-- Everything that taking the next work can be: nothing, a conversion after the passes are suspended or resumed, the start of a
calibration, or a new pass. -/
theorem Die.takeWork_cases (x : Die) : x.takeWork = x ∨ (∃ on c, x.takeWork = { x with hk := { x.hk.suspend on with conv := c } }) ∨
    (x.hk.cal = 1 ∧ x.takeWork = { x with hk := { x.hk.suspend true with cal := 2, calRes := [] } }) ∨
    ∃ n : Fin 2, (x.hk.seq n.val).state = 1 ∧ x.takeWork = x.startPass n.val := by
  unfold Die.takeWork
  dsimp only
  split
  · exact .inl rfl
  · split
    · exact .inr (.inl ⟨true, 1, rfl⟩)
    · split
      next hcal => exact .inr (.inr (.inl ⟨hcal, rfl⟩))
      · split
        · exact .inr (.inl ⟨true, 1, rfl⟩)
        · split
          · exact .inr (.inl ⟨false, 2, rfl⟩)
          · split
            · exact .inr (.inl ⟨false, 3, rfl⟩)
            · split
              next hqueued => exact .inr (.inr (.inr ⟨0, hqueued, rfl⟩))
              · split
                next hqueued => exact .inr (.inr (.inr ⟨1, hqueued, rfl⟩))
                · exact .inl rfl

/-- A sequence without its progress through a pass. -/
def Seq.still (q : Seq) : Seq := { q with state := 0, step := 0, cfg := 0, steps := [] }

/-- Suspending or resuming the passes moves the state of a sequence that runs or stands suspended (R378). -/
theorem Hk.seq_suspend (v : Hk) (on : Bool) (n : Nat) : ∃ st, (v.suspend on).seq n = { v.seq n with state := st } ∧
    (1 ≤ (v.seq n).state → 1 ≤ st) := by
  have hone (q : Seq) : ∃ st, (if q.state = 2 && on then { q with state := 3 } else if q.state = 3 && !on then { q with state := 2 } else q) =
      { q with state := st } ∧ (1 ≤ q.state → 1 ≤ st) := by
    split
    · exact ⟨3, rfl, fun _ => by omega⟩
    · split
      · exact ⟨2, rfl, fun _ => by omega⟩
      · exact ⟨q.state, rfl, id⟩
  unfold Hk.seq Hk.suspend
  split
  · exact hone v.seq0
  · exact hone v.seq1

/-- What the next work leaves of the housekeeping block: all but the sequences and the conversion under way. -/
theorem Die.takeWork_rest (x : Die) : x.takeWork.hk.rest = x.hk.rest := by
  obtain h | ⟨on, c, h⟩ | ⟨-, h⟩ | ⟨n, -, h⟩ := x.takeWork_cases
  · rw [h]
  · rw [h]; rfl
  · rw [h]; rfl
  · rw [h]
    exact (Hk.rest_setSeq x.hk n.val _ :)

/-- The next work leaves a sequence waiting or running that was, and its triggers and delay as they were. -/
theorem Die.takeWork_seq (x : Die) (n : Fin 2) : (x.takeWork.hk.seq n.val).still = (x.hk.seq n.val).still ∧
    (1 ≤ (x.hk.seq n.val).state → 1 ≤ (x.takeWork.hk.seq n.val).state) ∧
    ((x.hk.seq n.val).state ≠ 1 → (x.takeWork.hk.seq n.val).step = (x.hk.seq n.val).step) := by
  have hsuspend (v : Hk) (on : Bool) : ((v.suspend on).seq n.val).still = (v.seq n.val).still ∧
      (1 ≤ (v.seq n.val).state → 1 ≤ ((v.suspend on).seq n.val).state) ∧
      ((v.seq n.val).state ≠ 1 → ((v.suspend on).seq n.val).step = (v.seq n.val).step) := by
    obtain ⟨st, h, hst⟩ := v.seq_suspend on n.val
    rw [h]
    exact ⟨rfl, hst, fun _ => rfl⟩
  obtain h | ⟨on, c, h⟩ | ⟨-, h⟩ | ⟨m, hm, h⟩ := x.takeWork_cases <;> rw [h]
  · exact ⟨rfl, id, fun _ => rfl⟩
  · exact hsuspend x.hk on
  · exact hsuspend x.hk true
  · by_cases hn : n = m
    · subst hn
      have hseq : ((x.startPass n.val).hk.seq n.val) = _ := Hk.seq_setSeq_same x.hk n.val _
      rw [hseq]
      exact ⟨rfl, fun _ => Nat.le_succ 1, fun h1 => absurd hm h1⟩
    · have hseq : ((x.startPass m.val).hk.seq n.val) = _ := Hk.seq_setSeq_ne x.hk _ hn
      rw [hseq]
      exact ⟨rfl, id, fun _ => rfl⟩

/-- The next work starts a calibration, but ends none. -/
theorem Die.takeWork_cal (x : Die) : (x.hk.cal = 0 → x.takeWork.hk.cal = 0 ∧ x.takeWork.hk.calRes = x.hk.calRes) ∧
    (x.hk.cal ≠ 0 → x.takeWork.hk.cal ≠ 0) := by
  obtain h | ⟨on, c, h⟩ | ⟨hcal, h⟩ | ⟨n, -, h⟩ := x.takeWork_cases <;> rw [h]
  · exact ⟨fun h0 => ⟨h0, rfl⟩, id⟩
  · exact ⟨fun h0 => ⟨h0, rfl⟩, id⟩
  · exact ⟨fun h0 => absurd h0 (by omega), fun _ => Nat.succ_ne_zero 1⟩
  · have hset : (x.startPass n.val).hk.cal = x.hk.cal ∧ (x.startPass n.val).hk.calRes = x.hk.calRes := by
      unfold Die.startPass Hk.setSeq
      dsimp only
      split <;> exact ⟨rfl, rfl⟩
    rw [hset.1, hset.2]
    exact ⟨fun h0 => ⟨h0, rfl⟩, id⟩

/-- While a calibration runs the converter takes nothing else (R383). -/
theorem Die.takeWork_calibrating (h : x.hk.cal = 2) : x.takeWork = x := by
  unfold Die.takeWork
  simp [h]

/-- The converter's next work leaves every other block of its die. -/
theorem Die.takeWork_sram (x : Die) : x.takeWork.sram = x.sram :=
  (congrArg Die.sram (x.takeWork_blk (β := .sram) (by simp)) :)

/-! ### Records and triggers -/

/-- A record moves the indices of the buffer, nothing else of the housekeeping block (R385, R386). -/
theorem State.hkRecord_hk (d : DieId) (w : Nat) :
    ∃ wp rp c told, ((s.hkRecord d w).die d).hk = { (s.die d).hk with wp := wp, rp := rp, count := c, owTold := told } := by
  unfold State.hkRecord
  dsimp only
  split
  · exact ⟨_, _, _, _, rfl⟩
  · split
    · exact ⟨_, _, _, _, by simp; exact ⟨rfl, rfl, rfl, rfl⟩⟩
    · split
      · exact ⟨_, _, _, _, by simp; exact ⟨rfl, rfl, rfl, rfl⟩⟩
      · exact ⟨_, _, _, _, by simp; exact ⟨rfl, rfl, rfl, rfl⟩⟩

/-- A record of a buffer that is in use and not full is written at the write index (R385). -/
theorem State.hkRecord_writes {d : DieId} (w : Nat) (hbuf : fld ((s.die d).act oHkBuf) 0 0 = 1) (hroom : (s.die d).hk.count < 8192) :
    ((s.hkRecord d w).die d).hk = { (s.die d).hk with wp := ((s.die d).hk.wp + 1) % 8192, count := (s.die d).hk.count + 1 } ∧
      ((s.hkRecord d w).die d).sram =
        Memory.writeWords (s.die d).sram (hkBase + 8 * (s.die d).hk.wp) [w, s.stamp d / 8 % 4294967296] := by
  unfold State.hkRecord
  rw [if_neg (not_not.mpr hbuf)]
  dsimp only
  rw [if_pos hroom]
  refine ⟨?_, ?_⟩
  · rw [State.onHk_hk, State.die_onDie_same]
  · rw [State.sram_of_blk (State.onHk_blk _ _ _ (by simp)), State.die_onDie_same]

/-- A trigger of an idle sequence queues it, and the converter may take it at once (R380, R381). -/
theorem State.hkTrigger_queues {d : DieId} {n : Fin 2} {late : Bool} (h : ((s.die d).hk.seq n.val).state = 0) :
    let v := ((s.hkTrigger d n.val late).die d).hk
    1 ≤ (v.seq n.val).state ∧ (v.seq n.val).still = { (s.die d).hk.seq n.val with late := late, calDel := false, dropped := false }.still ∧
      v.rest = (s.die d).hk.rest := by
  dsimp only
  rw [State.hkTrigger, if_pos h, State.die_onDie_same]
  obtain ⟨hstill, hstate, -⟩ := Die.takeWork_seq ((s.onHk d (fun v => v.setSeq n.val { (s.die d).hk.seq n.val with
    state := 1, late := late, calDel := false, dropped := false })).die d) n
  rw [State.onHk_hk, Hk.seq_setSeq_same] at hstill hstate
  exact ⟨hstate (Nat.le_refl 1), hstill, by rw [Die.takeWork_rest, State.onHk_hk, Hk.rest_setSeq]⟩

/-- Time that passes leaves the housekeeping block (R22). -/
@[simp] theorem State.advance_hk (p : Nat) (d : DieId) : ((s.advance p).die d).hk = (s.die d).hk := State.hk_of_blk (by simp) d

@[simp] theorem State.toFret_hk (f : Nat) (d : DieId) : ((s.toFret f).die d).hk = (s.die d).hk := State.advance_hk _ d

/-! ### PWM channels (R388, R389) -/

/-- What an entry reads as, whatever an unlisted one does, after a write of another entry. -/
theorem SMap.get_put_other {β : Type} [DecidableEq β] (d e : β) (m : SMap β) {k j : Nat} (v : β) (h : j ≠ k) :
    SMap.get d (SMap.put e m k v) j = SMap.get d m j := by
  unfold SMap.put
  split
  · exact SMap.get_del_ne _ _ _ _ h
  · exact SMap.get_ins_ne _ _ _ _ _ h

/-- The four registers of channel p, as they come in, put over a map of PWM registers. -/
def pwmPut (m : SMap Half) (p : Nat) (f : Nat → Half) : SMap Half :=
  [0, 1, 2, 3].foldl (fun m k => SMap.put (pwmReset (4 * p + k)) m (4 * p + k) (f k)) m

theorem get_pwmPut_same (m : SMap Half) (p : Nat) (f : Nat → Half) (j : Fin 4) :
    SMap.get (pwmReset (4 * p + j.val)) (pwmPut m p f) (4 * p + j.val) = f j.val := by
  fin_cases j <;> simp [pwmPut, SMap.get_put_other]

theorem get_pwmPut_ne (m : SMap Half) {p q : Nat} (f : Nat → Half) (j : Fin 4) (h : q ≠ p) :
    SMap.get (pwmReset (4 * q + j.val)) (pwmPut m p f) (4 * q + j.val) = SMap.get (pwmReset (4 * q + j.val)) m (4 * q + j.val) := by
  have hj := j.isLt
  have hne (k : Nat) (hk : k < 4) : 4 * q + j.val ≠ 4 * p + k := by omega
  simp only [pwmPut, List.foldl_cons, List.foldl_nil]
  rw [SMap.get_put_other _ _ _ _ (hne 3 (by decide)), SMap.get_put_other _ _ _ _ (hne 2 (by decide)),
    SMap.get_put_other _ _ _ _ (hne 1 (by decide)), SMap.get_put_other _ _ _ _ (hne 0 (by decide))]

end Sys2Proof.Machine
end

section
/-! SUPPORT. The rows of the housekeeping converter and of the PWM channels. -/

set_option Elab.async false

namespace Sys2Proof.Machine

variable {s t u : State}

/-! ### Conversions that end (R377, R381, R383) -/

/-- A conversion has ended: the converter is free, and it is counted. -/
def State.converted (s : State) (d : DieId) : State := (s.onHk d (fun v => { v with conv := 0 })).count d cHk

@[simp] theorem State.converted_hk (d : DieId) : ((s.converted d).die d).hk = { (s.die d).hk with conv := 0 } := by
  simp [State.converted]

@[simp ↓] theorem State.converted_blk {β : Blk} (d : DieId) (hb : β ∉ [Blk.hk, .tele]) : (s.converted d).blk β = s.blk β := by
  simp_all [State.converted]

/-- The step of a sequence ends with its record, and the converter takes the next work (R378, R385). -/
theorem execHkConversionEnd_step {d : DieId} {code : BitVec 12} {n : Fin 2} {q : Seq} (hup : up s d = true)
    (hconv : (s.die d).hk.conv = 2 + n.val) (hq : (s.die d).hk.seq n.val = q) :
    exec (.hkConversionEnd d code) s =
      .next (((s.converted d).stepEnd d n.val ((s.die d).hkResult ((q.steps[q.step]?).getD 0) code)).onDie d Die.takeWork) := by
  obtain ⟨hp, hrun⟩ := up_iff.mp hup
  have hone : 2 + n.val ≠ 1 := by omega
  show execHkConversionEnd d code s = _
  simp [execHkConversionEnd, hp, hrun, Hk.input, hconv, hone, hq, State.converted]

/-- An injected conversion ends with its result kept for its command (R382, R392). -/
theorem execHkConversionEnd_injected {d : DieId} {code : BitVec 12} {i : Nat} {f : Bool} {l : List (Nat × Bool)} (hup : up s d = true)
    (hconv : (s.die d).hk.conv = 1) (hinj : (s.die d).hk.inj = (i, f) :: l) :
    exec (.hkConversionEnd d code) s =
      .next (((s.converted d).injEnd d ((s.die d).hkResult i code) i f).onDie d Die.takeWork) := by
  obtain ⟨hp, hrun⟩ := up_iff.mp hup
  show execHkConversionEnd d code s = _
  simp [execHkConversionEnd, hp, hrun, Hk.input, hconv, hinj, State.converted]

/-- A conversion of a calibration ends with its result kept for the calibration (R383). -/
theorem execHkConversionEnd_calibration {d : DieId} {code : BitVec 12} (hup : up s d = true) (hconv : (s.die d).hk.conv = 0)
    (hcal : (s.die d).hk.cal = 2) (hleft : (s.die d).hk.calRes.length < 96) :
    exec (.hkConversionEnd d code) s =
      .next (((s.converted d).calEnd d ((s.die d).hkResult (14 + (s.die d).hk.calRes.length % 2) code)
        (14 + (s.die d).hk.calRes.length % 2)).onDie d Die.takeWork) := by
  obtain ⟨hp, hrun⟩ := up_iff.mp hup
  show execHkConversionEnd d code s = _
  simp [execHkConversionEnd, hp, hrun, Hk.input, hconv, hcal, calConversions, hleft, State.converted]

/-- The injected conversions of a command of which more are to come: the result is kept, the command stays (R392). -/
theorem State.injEnd_keeps {d : DieId} {code i : Nat} {f : Bool} {k : Packet × Nat} {m : List (Packet × Nat)}
    (hops : (s.die d).hk.injOps = k :: m) (hmore : (s.die d).hk.injDone.length + 1 < injCount k.1) :
    ∃ wp rp c told, ((s.injEnd d code i f).die d).hk = { (s.die d).hk with
      inj := (s.die d).hk.inj.drop 1, injDone := (s.die d).hk.injDone ++ [(code, f)], calAfter := (s.die d).hk.calAfter - 1,
      last := SMap.put 0 (s.die d).hk.last i code, wp := wp, rp := rp, count := c, owTold := told } := by
  obtain ⟨wp, rp, c, told, hhk⟩ := State.hkRecord_hk (s := s.onHk d (fun v => { v with
    inj := v.inj.drop 1, injDone := v.injDone ++ [(code, f)], calAfter := v.calAfter - 1, last := SMap.put 0 v.last i code }))
    d (code + i * 2 ^ 12 + 2 ^ 21 + b2n f * 2 ^ 23)
  rw [State.onHk_hk] at hhk
  refine ⟨wp, rp, c, told, ?_⟩
  unfold State.injEnd
  dsimp only
  rw [hhk]
  dsimp only
  rw [hops]
  dsimp only
  rw [if_pos (by simpa using hmore), hhk, ← hops]

/-! ### PWM (R388, R389) -/

theorem State.pwmAnswer_hk (d : DieId) (p : Nat) : ∃ w, ((s.pwmAnswer d p).die d).hk = { (s.die d).hk with waiters := w } := by
  unfold State.pwmAnswer
  dsimp only
  refine ⟨(s.die d).hk.waiters.filter (fun w => w.arg != p), (State.foldl_keeps _ (fun t : State => (t.die d).hk) _ (fun t w => State.hk_of_blk (by simp) d) _).trans ?_⟩
  exact State.onHk_hk d _

/-- A channel that takes its load register counts with it from then on, and from 0 (R389). -/
theorem Hk.pwmTake_eq (v : Hk) (p : Nat) (t : Int) : ∃ m, v.pwmTake p t = { v with
    pwm := pwmPut v.pwm p (fun k => SMap.get (pwmReset (4 * p + k)) v.load (4 * p + k)),
    loading := if bit v.loading p then v.loading ^^^ 2 ^ p else v.loading, pwmZero := SMap.put 0 v.pwmZero p t, pwmUsed := m } :=
  ⟨_, rfl⟩

/-- What a move to the load registers leaves of the housekeeping block: the buffer's indices and the channels still to load. -/
def Hk.buffer (v : Hk) : Nat × Nat × Nat × Nat := (v.wp, v.rp, v.count, v.dueLoad)

/-- A channel's committed values move to its load register, and no other channel's (R389). -/
theorem State.pwmMove_hk (d : DieId) (p : Nat) : ((s.pwmMove d p).die d).hk.load = pwmPut (s.die d).hk.load p (fun k => (s.die d).act (oPwm p k)) ∧
    ((s.pwmMove d p).die d).hk.buffer = (s.die d).hk.buffer := by
  unfold State.pwmMove
  dsimp only
  split
  · rw [State.die_onDie_same]
    exact ⟨rfl, rfl⟩
  · obtain ⟨w, hw⟩ := State.pwmAnswer_hk (s := ((s.onDie d _).onHk d _)) d p
    rw [hw, State.onHk_hk, State.die_onDie_same]
    exact ⟨rfl, rfl⟩

theorem State.pwmMove_act (d : DieId) (p o : Nat) : ((s.pwmMove d p).die d).act o = (s.die d).act o := by
  rw [Die.act, Die.act, State.active_of_blk (State.pwmMove_blk _ _ _ (by simp))]

/-- The channels of a list that are due move to their load registers, one after another (R26). -/
def State.pwmMoves (s : State) (d : DieId) (due : Nat) (l : List Nat) : State :=
  l.foldl (fun s p => if bit due p then s.pwmMove d p else s) s

theorem State.pwmMoves_cons (d : DieId) (due p : Nat) (l : List Nat) :
    s.pwmMoves d due (p :: l) = (if bit due p then s.pwmMove d p else s).pwmMoves d due l := rfl

theorem State.pwmMoves_buffer (d : DieId) (due : Nat) (l : List Nat) : ((s.pwmMoves d due l).die d).hk.buffer = (s.die d).hk.buffer := by
  refine State.foldl_keeps _ (fun t : State => (t.die d).hk.buffer) _ (fun t p => ?_) l
  split
  · exact (State.pwmMove_hk d p).2
  · rfl

@[simp ↓] theorem State.pwmMoves_blk {β : Blk} (d : DieId) (due : Nat) (l : List Nat) (hb : β ∉ [Blk.hk] ++ carriers) :
    (s.pwmMoves d due l).blk β = s.blk β := by
  refine State.foldl_keeps _ (fun t : State => t.blk β) _ (fun t p => ?_) l
  split
  · exact State.pwmMove_blk _ _ _ hb
  · rfl

theorem State.pwmMoves_load_ne (d : DieId) (due : Nat) (l : List Nat) {q : Nat} (hq : q ∉ l) (j : Fin 4) :
    SMap.get (pwmReset (4 * q + j.val)) ((s.pwmMoves d due l).die d).hk.load (4 * q + j.val) =
      SMap.get (pwmReset (4 * q + j.val)) (s.die d).hk.load (4 * q + j.val) := by
  induction l generalizing s with
  | nil => rfl
  | cons p l ih =>
    obtain ⟨hne, hl⟩ := List.ne_and_not_mem_of_not_mem_cons hq
    rw [State.pwmMoves_cons, ih hl]
    split
    · rw [(State.pwmMove_hk d p).1, get_pwmPut_ne _ _ j hne]
    · rfl

/-- Every channel of the list that is due has its committed values in its load register (R389). -/
theorem State.pwmMoves_load (d : DieId) (due : Nat) (l : List Nat) {q : Nat} (hq : q ∈ l) (hdue : bit due q = true) (j : Fin 4) :
    SMap.get (pwmReset (4 * q + j.val)) ((s.pwmMoves d due l).die d).hk.load (4 * q + j.val) = (s.die d).act (oPwm q j.val) := by
  induction l generalizing s with
  | nil => exact absurd hq List.not_mem_nil
  | cons p l ih =>
    rw [State.pwmMoves_cons]
    by_cases hl : q ∈ l
    · rw [ih hl]
      split
      · exact State.pwmMove_act d p _
      · rfl
    · obtain rfl := (List.mem_cons.mp hq).resolve_right hl
      rw [State.pwmMoves_load_ne d due l hl, if_pos hdue, (State.pwmMove_hk d q).1, get_pwmPut_same]

/-- PWM_LOAD within frets 28 and 29 moves every channel that is due (R26, R389). -/
theorem execPwmLoad_moves {d : DieId} (hup : up s d = true) (hopen : s.fretOpen d 28 29 = true) (hovr : (s.die d).stroke.hkOvr = false)
    (hdue : (s.die d).hk.dueLoad ≠ 0) : exec (.pwmLoad d) s =
      .next ((((s.toFret 28).onDie d (fun x => x.didFret 28)).onHk d (fun v => { v with dueLoad := 0 })).pwmMoves d (s.die d).hk.dueLoad courseList) := by
  obtain ⟨hp, hrun⟩ := up_iff.mp hup
  exact congrArg Host.Outcome.next (if_pos (by simp [hp, hrun, hopen, hovr, hdue]))

/-- What PWM_LOAD starts its moves from: the housekeeping block with no channel due, and the rest of the die as it was. -/
theorem State.pwmLoad_start (d : DieId) :
    let u := ((s.toFret 28).onDie d (fun x => x.didFret 28)).onHk d (fun v => { v with dueLoad := 0 })
    (u.die d).hk = { (s.die d).hk with dueLoad := 0 } ∧ (u.die d).active = (s.die d).active ∧ (u.die d).sram = (s.die d).sram := by
  refine ⟨?_, State.active_of_blk (by simp) d, State.sram_of_blk (by simp) d⟩
  rw [State.onHk_hk, State.die_onDie_same]
  show { ((s.toFret 28).die d).hk with dueLoad := 0 } = _
  rw [State.toFret_hk]

/-- A running channel with new values takes them at its wrap (R389). -/
theorem execPwmWrap_takes {d : DieId} {p : Fin 8} {w : Int} (hup : up s d = true) (hon : (s.die d).hk.pwmOn p.val = true)
    (hload : bit (s.die d).hk.loading p.val = true) (hw : w = (s.die d).hk.nextWrap p.val (SMap.get 0 (s.die d).hk.moved p.val * 1280 + 1120))
    (hhere : w < (s.stroke d + 1) * 1280) : exec (.pwmWrap d p) s =
      .next (((s.advance (w - s.stroke d * 1280).toNat).onHk d (fun v => v.pwmTake p.val w)).pwmAnswer d p.val) := by
  obtain ⟨hp, hrun⟩ := up_iff.mp hup
  subst hw
  refine congrArg Host.Outcome.next (if_pos ?_)
  simp only [hp, hrun, hon, hload, Bool.and_self, Bool.true_and, decide_eq_true_eq]
  omega

/-- Its housekeeping block after that: the channel's registers and its count, and who waits for it. -/
theorem State.pwmWrap_hk (d : DieId) (p : Fin 8) (w : Int) (n : Nat) : ∃ m l,
    ((((s.advance n).onHk d (fun v => v.pwmTake p.val w)).pwmAnswer d p.val).die d).hk = { (s.die d).hk with
      pwm := pwmPut (s.die d).hk.pwm p.val (fun k => SMap.get (pwmReset (4 * p.val + k)) (s.die d).hk.load (4 * p.val + k)),
      loading := if bit (s.die d).hk.loading p.val then (s.die d).hk.loading ^^^ 2 ^ p.val else (s.die d).hk.loading,
      pwmZero := SMap.put 0 (s.die d).hk.pwmZero p.val w, pwmUsed := m, waiters := l } := by
  obtain ⟨l, hl⟩ := State.pwmAnswer_hk (s := (s.advance n).onHk d (fun v => v.pwmTake p.val w)) d p.val
  rw [hl, State.onHk_hk, State.advance_hk]
  obtain ⟨m, hm⟩ := (s.die d).hk.pwmTake_eq p.val w
  rw [hm]
  exact ⟨m, l, rfl⟩

/-! ### The commands (R391 to R394) -/

theorem execHkInject_queues {k : Packet} (htakes : takes0 s u k 0x0902 = true) (hlow : 1 ≤ k.w 4) (hhigh : k.w 4 ≤ 4)
    (hroom : (u.die k.die).hk.inj.length + k.w 4 ≤ 4) : exec (.hkInject k) s =
      .next (((u.gateOpen k.die 2 11).onHk k.die (fun v => { v with
        inj := v.inj ++ (List.range (k.w 4)).map (fun i => (bits (k.w 5) (8 * i + 4) (8 * i), false)),
        injOps := v.injOps ++ [(k, (u.gateOpen k.die 2 11).stroke k.die)] })).onDie k.die Die.takeWork) := by
  refine congrArg Host.Outcome.next ((State.command0_takes _ htakes).trans ?_)
  simp [show k.w 4 ≠ 0 by omega, Nat.not_lt.mpr hhigh, Nat.not_lt.mpr hroom]

/-- The conversions of HK_INJECT stand behind those pending (R382). -/
theorem execHkInject_rest {k : Packet} : (((((u.gateOpen k.die 2 11).onHk k.die (fun v => { v with
        inj := v.inj ++ (List.range (k.w 4)).map (fun i => (bits (k.w 5) (8 * i + 4) (8 * i), false)),
        injOps := v.injOps ++ [(k, (u.gateOpen k.die 2 11).stroke k.die)] })).onDie k.die Die.takeWork).die k.die).hk).rest =
      { (u.die k.die).hk with
        inj := (u.die k.die).hk.inj ++ (List.range (k.w 4)).map (fun i => (bits (k.w 5) (8 * i + 4) (8 * i), false)),
        injOps := (u.die k.die).hk.injOps ++ [(k, u.stroke k.die)] }.rest := by
  rw [State.die_onDie_same, Die.takeWork_rest, State.onHk_hk, State.hk_of_blk (s := u) (t := u.gateOpen k.die 2 11) (by simp), State.stroke,
    State.stroke_of_blk (s := u) (t := u.gateOpen k.die 2 11) (by simp), State.stroke]

theorem execHkCalibrate_asks {k : Packet} (htakes : takes0 s u k 0x0903 = true) (hidle : (u.die k.die).hk.cal = 0) :
    exec (.hkCalibrate k) s = .next (((u.gateOpen k.die 2 11).onHk k.die (fun v => { v with
        cal := 1, calAfter := v.inj.length, calOp := some (k, (u.gateOpen k.die 2 11).stroke k.die) })).onDie k.die Die.takeWork) := by
  refine congrArg Host.Outcome.next ((State.command0_takes _ htakes).trans ?_)
  simp [hidle]

/-- The calibration that HK_CALIBRATE asks for waits behind the injected conversions, or has begun (R383, R393). -/
theorem execHkCalibrate_rest {k : Packet} : let v := ((((u.gateOpen k.die 2 11).onHk k.die (fun v => { v with
        cal := 1, calAfter := v.inj.length, calOp := some (k, (u.gateOpen k.die 2 11).stroke k.die) })).onDie k.die Die.takeWork).die k.die).hk
    v.cal ≠ 0 ∧ v.rest = { (u.die k.die).hk with
      calAfter := (u.die k.die).hk.inj.length, calOp := some (k, u.stroke k.die) }.rest := by
  dsimp only
  rw [State.die_onDie_same]
  constructor
  · refine (Die.takeWork_cal _).2 ?_
    rw [State.onHk_hk]
    exact Nat.one_ne_zero
  · rw [Die.takeWork_rest, State.onHk_hk, State.hk_of_blk (s := u) (t := u.gateOpen k.die 2 11) (by simp), State.stroke,
      State.stroke_of_blk (s := u) (t := u.gateOpen k.die 2 11) (by simp), State.stroke]
    rfl

end Sys2Proof.Machine
end
section
/-! SUPPORT. What the statements of the housekeeping converter name, from the rows. -/

set_option Elab.async false

namespace Sys2Proof.Machine

variable {s t u : State}

/-- The step of a sequence that is not the last of its pass writes its record and moves the pass on (R378, R385). -/
theorem State.stepEnd_writes {d : DieId} {n : Fin 2} {code : Nat} {q : Seq} (hq : (s.die d).hk.seq n.val = q) (hmore : q.step + 1 < seqSteps q.cfg)
    (hbuf : fld ((s.die d).act oHkBuf) 0 0 = 1) (hroom : (s.die d).hk.count < 8192) :
    let u := s.stepEnd d n.val code
    (u.die d).hk.seq n.val = { q with step := q.step + 1 } ∧ (u.die d).hk.wp = ((s.die d).hk.wp + 1) % 8192 ∧
      (u.die d).hk.count = (s.die d).hk.count + 1 ∧ (u.die d).sram = Memory.writeWords (s.die d).sram (hkBase + 8 * (s.die d).hk.wp)
        [code + ((q.steps[q.step]?).getD 0) * 2 ^ 12 + q.step * 2 ^ 17 + n.val * 2 ^ 22 + b2n q.calDel * 2 ^ 23 + b2n q.late * 2 ^ 24
          + b2n (seqTrig q.cfg == 2) * 2 ^ 25 + q.pass * 2 ^ 26, s.stamp d / 8 % 4294967296] := by
  dsimp only
  unfold State.stepEnd
  dsimp only
  rw [hq, if_pos hmore]
  generalize hF : (fun v : Hk => ({ v.setSeq n.val { q with step := q.step + 1 } with
    last := SMap.put 0 v.last ((q.steps[q.step]?).getD 0) code } : Hk)) = F
  have hrest (v : Hk) : (F v).seq n.val = { q with step := q.step + 1 } ∧ (F v).wp = v.wp ∧ (F v).count = v.count := by
    subst hF
    exact ⟨Hk.seq_setSeq_same v n.val _, (Hk.wp_of_rest (v.rest_setSeq n.val _) :), (Hk.count_of_rest (v.rest_setSeq n.val _) :)⟩
  obtain ⟨hseq, hwp, hcount⟩ := hrest (s.die d).hk
  have hact : ((s.onHk d F).die d).act oHkBuf = (s.die d).act oHkBuf := by
    rw [Die.act, Die.act, State.active_of_blk (s := s) (by simp)]
  obtain ⟨hhk, hsram⟩ := State.hkRecord_writes (s := s.onHk d F) (d := d) _ (hact ▸ hbuf) (by rw [State.onHk_hk, hcount]; exact hroom)
  rw [State.onHk_hk] at hhk hsram
  rw [State.sram_of_blk (s := s) (t := s.onHk d F) (by simp), hwp, State.stamp_of_blk (s := s) (by simp) (by simp)] at hsram
  rw [hhk]
  exact ⟨hseq, by rw [hwp], by rw [hcount], hsram⟩

/-- A conversion of a calibration is kept with those before it, and is the latest of its input (R383). -/
theorem State.calEnd_hk (d : DieId) (code input : Nat) : ∃ wp rp c told, ((s.calEnd d code input).die d).hk = { (s.die d).hk with
    calRes := (s.die d).hk.calRes ++ [code], last := SMap.put 0 (s.die d).hk.last input code, wp := wp, rp := rp, count := c, owTold := told } := by
  obtain ⟨wp, rp, c, told, hhk⟩ := State.hkRecord_hk (s := s.onHk d (fun v => { v with
    calRes := v.calRes ++ [code], last := SMap.put 0 v.last input code })) d (code + input * 2 ^ 12)
  rw [State.onHk_hk] at hhk
  exact ⟨wp, rp, c, told, hhk⟩

/-! ### Triggers (R379, R380) -/

/-- HK_STROKE_TRIGGER on time: the trigger is marked as delivered and reaches its sequence (R379). -/
theorem execHkStrokeTrigger_onTime {d : DieId} {n : Fin 2} (hup : up s d = true) (hpos : s.pos < 1160)
    (hen : seqEn ((s.die d).act (oSeqCfg n.val)) = true) (htrig : seqTrig ((s.die d).act (oSeqCfg n.val)) = 1)
    (hdiv : ((s.die d).act (oSeqN n.val)).toNat ≠ 0) (hdue : s.stroke d % ((s.die d).act (oSeqN n.val)).toNat = 0)
    (hovr : (s.die d).stroke.hkOvr = false) (hgate : (s.die d).clk.gHk = false) (hnew : ((s.die d).hk.seq n.val).trigAt ≠ s.stroke d + 1) :
    exec (.hkStrokeTrigger d n false) s =
      .next (((s.toFret 28).onHk d (fun v => v.setSeq n.val { v.seq n.val with trigAt := s.stroke d + 1 })).hkTrigger d n.val false) := by
  obtain ⟨hp, hrun⟩ := up_iff.mp hup
  exact congrArg Host.Outcome.next (if_pos (by simp [hp, hrun, hen, htrig, hdiv, hdue, hovr, hgate, hpos, hnew]))

/-- The trigger reaches an idle sequence, which is queued, or taken at once. -/
theorem State.strokeTrigger_queues {d : DieId} {n : Fin 2} (hidle : ((s.die d).hk.seq n.val).state = 0) :
    let v := ((((s.toFret 28).onHk d (fun v => v.setSeq n.val { v.seq n.val with trigAt := s.stroke d + 1 })).hkTrigger d n.val false).die d).hk
    (v.seq n.val).trigAt = s.stroke d + 1 ∧ 1 ≤ (v.seq n.val).state ∧ (v.seq n.val).late = false ∧ v.rest = (s.die d).hk.rest := by
  have hseq : (((s.toFret 28).onHk d (fun v => v.setSeq n.val { v.seq n.val with trigAt := s.stroke d + 1 })).die d).hk.seq n.val =
      { (s.die d).hk.seq n.val with trigAt := s.stroke d + 1 } := by
    rw [State.onHk_hk, Hk.seq_setSeq_same, State.toFret_hk]
  obtain ⟨hstate, hstill, hrest⟩ := State.hkTrigger_queues (late := false) (d := d) (n := n)
    (s := (s.toFret 28).onHk d (fun v => v.setSeq n.val { v.seq n.val with trigAt := s.stroke d + 1 })) (by rw [hseq]; exact hidle)
  rw [hseq] at hstill
  rw [State.onHk_hk, Hk.rest_setSeq, State.toFret_hk] at hrest
  exact ⟨(congrArg Seq.trigAt hstill :), hstate, (congrArg Seq.late hstill :), hrest⟩

/-- An edge at pin p, as sequence n meets it: execHkPwmEdge runs it for sequence 0, then for 1. -/
def State.edgeAt (s : State) (d : DieId) (p : Fin 8) (rising : Bool) (n : Nat) : State :=
  if seqEn ((s.die d).act (oSeqCfg n)) && seqTrig ((s.die d).act (oSeqCfg n)) = 2 && seqCh ((s.die d).act (oSeqCfg n)) = p.val
      && seqFall ((s.die d).act (oSeqCfg n)) != rising then
    if ((s.die d).hk.seq n).delay then s.count d (cHk + 0xC + 4 * n)
    else s.onHk d (fun v => v.setSeq n { (s.die d).hk.seq n with delay := true, delayAt := s.stamp d })
  else s

@[simp ↓] theorem State.edgeAt_blk {β : Blk} (d : DieId) (p : Fin 8) (rising : Bool) (n : Nat) (hb : β ∉ [Blk.hk, .tele]) :
    (s.edgeAt d p rising n).blk β = s.blk β := by
  simp_all [State.edgeAt]

theorem State.edgeAt_rest (d : DieId) (p : Fin 8) (rising : Bool) (n : Nat) : ((s.edgeAt d p rising n).die d).hk.rest = (s.die d).hk.rest := by
  unfold State.edgeAt
  split
  · split
    · rw [State.hk_of_blk (State.count_blk _ _ _ _ (by simp))]
    · rw [State.onHk_hk, Hk.rest_setSeq]
  · rfl

/-- What an edge means for one sequence leaves the other. -/
theorem State.edgeAt_seq_ne (d : DieId) (p : Fin 8) (rising : Bool) {n m : Nat} (h : ¬(n = 0 ↔ m = 0)) :
    ((s.edgeAt d p rising m).die d).hk.seq n = (s.die d).hk.seq n := by
  unfold State.edgeAt
  split
  · split
    · rw [State.hk_of_blk (State.count_blk _ _ _ _ (by simp))]
    · rw [State.onHk_hk, Hk.seq_setSeq_other _ _ h]
  · rfl

/-- The edge starts the delay of a sequence that selects it, and whose delay does not run (R379). -/
theorem State.edgeAt_delays {d : DieId} {p : Fin 8} {rising : Bool} {n : Nat} (hen : seqEn ((s.die d).act (oSeqCfg n)) = true)
    (htrig : seqTrig ((s.die d).act (oSeqCfg n)) = 2) (hch : seqCh ((s.die d).act (oSeqCfg n)) = p.val)
    (hfall : seqFall ((s.die d).act (oSeqCfg n)) ≠ rising) (hfree : ((s.die d).hk.seq n).delay = false) :
    ((s.edgeAt d p rising n).die d).hk.seq n = { (s.die d).hk.seq n with delay := true, delayAt := s.stamp d } := by
  rw [State.edgeAt, if_pos (by simp [hen, htrig, hch, hfall]), if_neg (by simp [hfree]), State.onHk_hk, Hk.seq_setSeq_same]

/-- The same, after the edge has met the other sequence. -/
theorem State.edgeAt_edgeAt_delays {d : DieId} {p : Fin 8} {rising : Bool} {n m : Nat} (h : ¬(n = 0 ↔ m = 0))
    (hen : seqEn ((s.die d).act (oSeqCfg n)) = true) (htrig : seqTrig ((s.die d).act (oSeqCfg n)) = 2)
    (hch : seqCh ((s.die d).act (oSeqCfg n)) = p.val) (hfall : seqFall ((s.die d).act (oSeqCfg n)) ≠ rising)
    (hfree : ((s.die d).hk.seq n).delay = false) : (((s.edgeAt d p rising m).edgeAt d p rising n).die d).hk.seq n =
      { (s.die d).hk.seq n with delay := true, delayAt := s.stamp d } := by
  have hact (o : Nat) : ((s.edgeAt d p rising m).die d).act o = (s.die d).act o := by
    rw [Die.act, Die.act, State.active_of_blk (State.edgeAt_blk _ _ _ _ (by simp))]
  have hseq := State.edgeAt_seq_ne (s := s) d p rising h
  have hstamp : (s.edgeAt d p rising m).stamp d = s.stamp d :=
    State.stamp_of_blk (State.edgeAt_blk _ _ _ _ (by simp)) (State.edgeAt_blk _ _ _ _ (by simp)) d
  rw [State.edgeAt_delays, hseq, hstamp] <;> simp only [hact, hseq] <;> assumption

theorem execHkPwmEdge_eq {d : DieId} {c : Fin 8} {rising : Bool} (hup : up s d = true)
    (hgate : (s.die d).clk.gHk = false ∧ (s.die d).clk.gDie = false) :
    exec (.hkPwmEdge d c rising) s = .next ((s.edgeAt d c rising 0).edgeAt d c rising 1) := by
  obtain ⟨hp, hrun⟩ := up_iff.mp hup
  show Host.Outcome.next (if _ then [0, 1].foldl (fun t n => State.edgeAt t d c rising n) s else s) = _
  rw [if_pos (by simp [hp, hrun, hgate])]
  rfl

/-- An edge at the pin that an enabled sequence selects starts its delay (R379). -/
theorem State.edges_delay {d : DieId} {c : Fin 8} {rising : Bool} {n : Fin 2}
    (hen : seqEn ((s.die d).act (oSeqCfg n.val)) = true) (htrig : seqTrig ((s.die d).act (oSeqCfg n.val)) = 2)
    (hch : seqCh ((s.die d).act (oSeqCfg n.val)) = c.val) (hfall : seqFall ((s.die d).act (oSeqCfg n.val)) ≠ rising)
    (hfree : ((s.die d).hk.seq n.val).delay = false) : (((s.edgeAt d c rising 0).edgeAt d c rising 1).die d).hk.seq n.val =
      { (s.die d).hk.seq n.val with delay := true, delayAt := s.stamp d } := by
  obtain hn | hn : n.val = 0 ∨ n.val = 1 := by omega
  · rw [hn] at hen htrig hch hfall hfree ⊢
    rw [State.edgeAt_seq_ne d c rising (by decide), State.edgeAt_delays hen htrig hch hfall hfree]
  · rw [hn] at hen htrig hch hfall hfree ⊢
    exact State.edgeAt_edgeAt_delays (by decide) hen htrig hch hfall hfree

/-- HK_DELAY_END: the delay is over, and its trigger reaches an idle sequence (R379). -/
theorem execHkDelayEnd_queues {d : DieId} {n : Fin 2} (hup : up s d = true) (hdelay : ((s.die d).hk.seq n.val).delay = true)
    (hgate : (s.die d).clk.gHk = false ∧ (s.die d).clk.gDie = false)
    (hover : ((s.die d).hk.seq n.val).delayAt + 2 * ((s.die d).act (oSeqDly n.val)).toNat ≤ s.stamp d)
    (hidle : ((s.die d).hk.seq n.val).state = 0) :
    Completes (.hkDelayEnd d n) s (fun t => t.blk .active = s.blk .active ∧ t.blk .staging = s.blk .staging ∧
      ((t.die d).hk.seq n.val).delay = false ∧ 1 ≤ ((t.die d).hk.seq n.val).state ∧ (t.die d).hk.rest = (s.die d).hk.rest) := by
  obtain ⟨hp, hrun⟩ := up_iff.mp hup
  have hseq : ((s.onHk d (fun v => v.setSeq n.val { (s.die d).hk.seq n.val with delay := false })).die d).hk.seq n.val =
      { (s.die d).hk.seq n.val with delay := false } := by rw [State.onHk_hk, Hk.seq_setSeq_same]
  obtain ⟨hstate, hstill, hrest⟩ := State.hkTrigger_queues (late := false) (d := d) (n := n)
    (s := s.onHk d (fun v => v.setSeq n.val { (s.die d).hk.seq n.val with delay := false })) (by rw [hseq]; exact hidle)
  rw [hseq] at hstill
  rw [State.onHk_hk, Hk.rest_setSeq] at hrest
  exact Completes.of _ (congrArg Host.Outcome.next (if_pos (by simp [hp, hrun, hdelay, hgate, hover])))
    ⟨by simp, by simp, (congrArg Seq.delay hstill :), hstate, hrest⟩

/-- A trigger that finds its sequence taken is dropped and counted, and posted where no drop has been since a clean pass (R380). -/
theorem execOverrun_posts {d : DieId} {n : Fin 2} (hup : up s d = true) (hen : seqEn ((s.die d).act (oSeqCfg n.val)) = true)
    (htaken : ((s.die d).hk.seq n.val).state = 1 ∨ (2 ≤ ((s.die d).hk.seq n.val).state ∧ ((s.die d).hk.seq n.val).pend = true))
    (hfirst : ((s.die d).hk.seq n.val).told = false) :
    exec (.overrun d n) s = .next (((s.onHk d (fun v => v.setSeq n.val { (s.die d).hk.seq n.val with
      dropped := true, pendDrop := ((s.die d).hk.seq n.val).pendDrop || ((s.die d).hk.seq n.val).pend, told := true })).count d
        (cHk + 4 + 4 * n.val)).post d 408 0x01 n.val) := by
  obtain ⟨hp, hrun⟩ := up_iff.mp hup
  refine congrArg Host.Outcome.next ((if_pos ?_).trans ?_)
  · simpa [hp, hrun, hen] using htaken
  · rw [State.hkDrop, hfirst]
    rfl

/-! ### The end of a calibration (R383, R393) -/

/-- The housekeeping block after a calibration, its sequences aside: the corrections that the results give are in use, and what waited is
marked. -/
def Hk.corrected (v : Hk) : Hk :=
  { v with ofs := (Config.hkCorrections v.calRes).1, gain := (Config.hkCorrections v.calRes).2, calOp := none,
           inj := v.inj.map (fun p => (p.1, true)) }

/-- CAL_DONE puts the corrections into use, answers its command, and the converter takes what waited. -/
theorem execCalDone_ends {d : DieId} (hup : up s d = true) (hcal : (s.die d).hk.cal = 2) (hall : (s.die d).hk.calRes.length = 96) :
    Completes (.calDone d) s (fun t => t.blk .active = s.blk .active ∧ t.blk .staging = s.blk .staging ∧ (t.die d).hk.cal = 0 ∧
      (t.die d).hk.calRes = [] ∧ (t.die d).hk.rest = (s.die d).hk.corrected.rest) := by
  obtain ⟨hp, hrun⟩ := up_iff.mp hup
  refine Completes.of _ (congrArg Host.Outcome.next (if_pos (by simp [hp, hrun, hcal, hall, calConversions]))) ?_
  dsimp only
  generalize hv : s.onHk d _ = v
  have hcarried : ∀ w : State, w.blk .hk = v.blk .hk → w.blk .active = v.blk .active → w.blk .staging = v.blk .staging →
      (w.onDie d Die.takeWork).blk .active = s.blk .active ∧ (w.onDie d Die.takeWork).blk .staging = s.blk .staging ∧
      ((w.onDie d Die.takeWork).die d).hk.cal = 0 ∧ ((w.onDie d Die.takeWork).die d).hk.calRes = [] ∧
      ((w.onDie d Die.takeWork).die d).hk.rest = (s.die d).hk.corrected.rest := by
    intro w hhk hact hstg
    have hdone : (w.die d).hk = (v.die d).hk := State.hk_of_blk hhk d
    subst hv
    rw [State.onHk_hk] at hdone
    obtain ⟨hcal0, hres⟩ := (w.die d).takeWork_cal.1 (by rw [hdone])
    rw [State.die_onDie_same]
    refine ⟨?_, ?_, hcal0, hres.trans (by rw [hdone]), ?_⟩
    · simp [hact]
    · simp [hstg]
    · rw [Die.takeWork_rest, hdone]
      rfl
  refine hcarried _ ?_ ?_ ?_ <;> split <;> simp

/-! ### What a conversion leaves (R377, R385) -/

/-- The end of a step that is not the last of its pass: its record is written, and the pass has moved on. -/
theorem execHkConversionEnd_writes {d : DieId} {code : BitVec 12} {n : Fin 2} {q : Seq} (hup : up s d = true)
    (hconv : (s.die d).hk.conv = 2 + n.val) (hq : (s.die d).hk.seq n.val = q) (hstate : q.state = 2) (hmore : q.step + 1 < seqSteps q.cfg)
    (hbuf : fld ((s.die d).act oHkBuf) 0 0 = 1) (hroom : (s.die d).hk.count < 8192) :
    Completes (.hkConversionEnd d code) s (fun t => ((t.die d).hk.seq n.val).step = q.step + 1 ∧
      (t.die d).hk.wp = ((s.die d).hk.wp + 1) % 8192 ∧ (t.die d).hk.count = (s.die d).hk.count + 1 ∧
      (t.die d).sram = Memory.writeWords (s.die d).sram (hkBase + 8 * (s.die d).hk.wp)
        [(s.die d).hkResult ((q.steps[q.step]?).getD 0) code + ((q.steps[q.step]?).getD 0) * 2 ^ 12 + q.step * 2 ^ 17 + n.val * 2 ^ 22
          + b2n q.calDel * 2 ^ 23 + b2n q.late * 2 ^ 24 + b2n (seqTrig q.cfg == 2) * 2 ^ 25 + q.pass * 2 ^ 26, s.stamp d / 8 % 4294967296]) := by
  refine Completes.of _ (execHkConversionEnd_step hup hconv hq) ?_
  have hact : ((s.converted d).die d).act oHkBuf = (s.die d).act oHkBuf := by
    rw [Die.act, Die.act, State.active_of_blk (State.converted_blk d (by simp))]
  have hkept : ((s.converted d).die d).hk.seq n.val = q ∧ ((s.converted d).die d).hk.wp = (s.die d).hk.wp ∧
      ((s.converted d).die d).hk.count = (s.die d).hk.count := by
    rw [State.converted_hk]
    exact ⟨hq, rfl, rfl⟩
  obtain ⟨hq', hwp', hcount'⟩ := hkept
  obtain ⟨hseq, hwp, hcount, hsram⟩ := State.stepEnd_writes (code := (s.die d).hkResult ((q.steps[q.step]?).getD 0) code) hq' hmore
    (hact ▸ hbuf) (hcount' ▸ hroom)
  rw [hwp', State.sram_of_blk (State.converted_blk d (by simp)), State.stamp_of_blk (State.converted_blk d (by simp))
    (State.converted_blk d (by simp))] at hsram
  generalize (s.converted d).stepEnd d n.val _ = v at *
  rw [State.die_onDie_same]
  have hrest := (v.die d).takeWork_rest
  refine ⟨?_, (Hk.wp_of_rest hrest).trans (hwp.trans (by rw [hwp'])), (Hk.count_of_rest hrest).trans (hcount.trans (by rw [hcount'])),
    (Die.takeWork_sram _).trans hsram⟩
  rw [((v.die d).takeWork_seq n).2.2 (by rw [hseq]; show q.state ≠ 1; omega), hseq]

/-- An injected conversion of which its command awaits more: the rest of them stay pending, and its result is kept. -/
theorem execHkConversionEnd_keeps {d : DieId} {code : BitVec 12} {i : Nat} {f : Bool} {l : List (Nat × Bool)} {k : Packet × Nat}
    {m : List (Packet × Nat)} (hup : up s d = true) (hconv : (s.die d).hk.conv = 1) (hinj : (s.die d).hk.inj = (i, f) :: l)
    (hops : (s.die d).hk.injOps = k :: m) (hmore : (s.die d).hk.injDone.length + 1 < injCount k.1) :
    Completes (.hkConversionEnd d code) s (fun t => t.blk .active = s.blk .active ∧ t.blk .staging = s.blk .staging ∧ ∃ wp rp c told,
      (t.die d).hk.rest = { (s.die d).hk with
        inj := l, injDone := (s.die d).hk.injDone ++ [((s.die d).hkResult i code, f)],
        calAfter := (s.die d).hk.calAfter - 1, last := SMap.put 0 (s.die d).hk.last i ((s.die d).hkResult i code),
        wp := wp, rp := rp, count := c, owTold := told }.rest) := by
  refine Completes.of _ (execHkConversionEnd_injected hup hconv hinj) ⟨by simp, by simp, ?_⟩
  obtain ⟨wp, rp, c, told, hhk⟩ := State.injEnd_keeps (s := s.converted d) (d := d) (code := (s.die d).hkResult i code) (i := i) (f := f)
    (by rw [State.converted_hk]; exact hops) (by rw [State.converted_hk]; exact hmore)
  refine ⟨wp, rp, c, told, ?_⟩
  rw [State.die_onDie_same, Die.takeWork_rest, hhk, State.converted_hk]
  dsimp only
  rw [hinj]
  rfl

/-! ### The registers that HK_SEQ_DEFINE and PWM_SET stage (R391, R394) -/

/-- The registers of a sequence are in commit group 5, each at an offset of its own. -/
theorem seqOffsets_grouped : ∀ n : Fin 2, ([oSeqCfg n.val, oSeqN n.val, oSeqDly n.val] ++ (List.range 16).map (oStep n.val)).Nodup ∧
    ∀ o ∈ [oSeqCfg n.val, oSeqN n.val, oSeqDly n.val] ++ (List.range 16).map (oStep n.val), groupOf o = some 5 := by decide +kernel

/-- So are those of a PWM channel. -/
theorem pwmOffsets_grouped : ∀ p : Fin 8, ([oPwm p.val 0, oPwm p.val 1, oPwm p.val 2, oPwm p.val 3]).Nodup ∧
    ∀ o ∈ [oPwm p.val 0, oPwm p.val 1, oPwm p.val 2, oPwm p.val 3], groupOf o = some 5 := by decide +kernel

/-- What HK_SEQ_DEFINE stages (R391). -/
def seqDefined (k : Packet) : List (Nat × Half) :=
  [(oSeqCfg k.target.toNat, BitVec.ofNat 16 (k.w 4)), (oSeqN k.target.toNat, BitVec.ofNat 16 (k.w 5)),
    (oSeqDly k.target.toNat, BitVec.ofNat 16 (k.w 5 / 65536))]
   ++ (List.range 16).map (fun j => (oStep k.target.toNat j, BitVec.ofNat 16 (bits (k.w (6 + j / 4)) (8 * (j % 4) + 4) (8 * (j % 4)))))

/-- What PWM_SET stages (R394). -/
def pwmSetting (k : Packet) : List (Nat × Half) :=
  [(oPwm k.target.toNat 0, BitVec.ofNat 16 (bits (k.w 5) 18 16)), (oPwm k.target.toNat 1, BitVec.ofNat 16 (k.w 4)),
   (oPwm k.target.toNat 2, BitVec.ofNat 16 (k.w 4 / 65536)), (oPwm k.target.toNat 3, BitVec.ofNat 16 (k.w 5))]

/-- A command that stages registers of one commit group, each once, waits for its boundary (R65, R303). -/
theorem State.commitAnswer_grouped {k : Packet} {op g : Nat} {l : List (Nat × Half)} (arg : Nat) (hnodup : (l.map (·.1)).Nodup)
    (hgroup : ∀ o ∈ l.map (·.1), groupOf o = some g) : StagesAndWaits u (u.commitAnswer k op g l arg) k op g l arg :=
  u.commitAnswer_stages k op g l arg hnodup fun p hp => lookup_of_groupOf (hgroup p.1 (List.mem_map_of_mem hp))

theorem State.seqDefine_stages {k : Packet} (hn : k.target.toNat < 2) :
    StagesAndWaits u (u.commitAnswer k 0x0901 5 (seqDefined k)) k 0x0901 5 (seqDefined k) 0 := by
  obtain ⟨hnodup, hgroup⟩ := seqOffsets_grouped ⟨k.target.toNat, hn⟩
  have hoffsets : (seqDefined k).map (·.1) =
      [oSeqCfg k.target.toNat, oSeqN k.target.toNat, oSeqDly k.target.toNat] ++ (List.range 16).map (oStep k.target.toNat) := by
    simp [seqDefined, Function.comp_def]
  exact State.commitAnswer_grouped 0 (hoffsets ▸ hnodup) (hoffsets ▸ hgroup)

theorem State.pwmSet_stages {k : Packet} (hp : k.target.toNat < 8) :
    StagesAndWaits u (u.commitAnswer k 0x0904 5 (pwmSetting k) k.target.toNat) k 0x0904 5 (pwmSetting k) k.target.toNat := by
  obtain ⟨hnodup, hgroup⟩ := pwmOffsets_grouped ⟨k.target.toNat, hp⟩
  exact State.commitAnswer_grouped _ hnodup hgroup

theorem execHkSeqDefine_stages {k : Packet} (htakes : takes s u k 0x0901 = true) (hn : k.target.toNat < 2) (hcfg : k.w 4 < 2048)
    (htrig : seqTrig (BitVec.ofNat 16 (k.w 4)) ≠ 3) (hdiv : seqTrig (BitVec.ofNat 16 (k.w 4)) = 1 → k.w 5 % 65536 ≠ 0)
    (hfirst : stepsOk (k.w 6) = true ∧ stepsOk (k.w 7) = true) (hlast : stepsOk (k.w 8) = true ∧ stepsOk (k.w 9) = true) :
    exec (.hkSeqDefine k) s = .next (u.commitAnswer k 0x0901 5 (seqDefined k)) := by
  obtain ⟨hready, rfl⟩ := takes_iff.mp htakes
  refine congrArg Host.Outcome.next ((State.command_ready _ hready).trans ?_)
  dsimp only
  rw [if_neg (by omega), if_neg]
  · rfl
  · simpa [Nat.not_le.mpr hcfg, htrig, hfirst, hlast] using hdiv

theorem execPwmSet_stages {k : Packet} (htakes : takes s u k 0x0904 = true) (hp : k.target.toNat < 8) (hctl : k.w 5 < 2 ^ 19)
    (hduty : k.w 5 % 65536 ≤ k.w 4 % 65536) :
    exec (.pwmSet k) s = .next (u.commitAnswer k 0x0904 5 (pwmSetting k) k.target.toNat) := by
  obtain ⟨hready, rfl⟩ := takes_iff.mp htakes
  refine congrArg Host.Outcome.next ((State.command_ready _ hready).trans ?_)
  dsimp only
  rw [if_neg (by omega), if_neg (by simp only [Bool.or_eq_true, decide_eq_true_eq]; omega)]
  rfl

end Sys2Proof.Machine
end

section
/-! SUPPORT. A critical temperature, and its end. -/

set_option Elab.async false

namespace Sys2Proof.Machine

variable {s : State}

theorem execTempCritical_posts {d : DieId} {m : Byte} (hup : up s d = true) (htrip : (s.die d).hk.trip = false) (hm : m ≠ 0) :
    exec (.tempCritical d m) s = .next ((s.onHk d (fun v => { v with trip := true, above := m.toNat, owed := false })).post d 409 0x01
      (m.toNat + 256 * fld ((s.die d).act oTcrit) 7 0)) := by
  obtain ⟨hp, hrun⟩ := up_iff.mp hup
  refine congrArg Host.Outcome.next (((if_neg ?_).trans (if_pos ?_)).trans ((if_pos (show s.running = true from hrun)).trans ?_))
  · simp [htrip]
  · have : (m != 0) = true := bne_iff_ne.mpr hm
    rw [hp, hrun, this]
    rfl
  · rw [Die.act, State.active_of_blk (s := s) (t := s.onHk d _) (by simp) d, hrun]
    rfl

theorem execTempCritCleared_posts {d : DieId} (hup : up s d = true) (htrip : (s.die d).hk.trip = true) :
    exec (.tempCritCleared d) s = .next ((s.onDie d (fun x => { x with
      hk := { x.hk with trip := false, above := 0 }, tele := (x.fall (cHk + 0x20) true false).tele })).post d 409 0x02 0) := by
  obtain ⟨hp, hrun⟩ := up_iff.mp hup
  refine congrArg Host.Outcome.next ((if_pos ?_).trans (if_pos (show s.running = true from hrun)))
  rw [hp, hrun, htrip]
  rfl

end Sys2Proof.Machine
end

section
/-! PROOFS. The housekeeping converter, and the PWM channels beside it. -/

open Sys2Proof Sys2Proof.Machine

/-- Settles O50: the converter's next work leaves all that a row has written (`takeWork_rest`, `takeWork_seq`). The references of a
calibration in turn, and their codes in HK_LAST, are log entry 54. -/
theorem housekeeping : Obligations.Housekeeping := by
  unfold Obligations.Housekeeping
  refine ⟨?step, ?injected, ?calibration, ?strokeTrigger, ?edge, ?delayEnd, ?overrun, ?calDone, ?rpWrite, ?critical, ?cleared, ?pwmLoad,
    ?pwmWrap, ?seqDefine, ?inject, ?calibrate, ?pwmSet⟩
  case step =>
    intro s d code n q hup hconv hq hstate hmore hbuf hroom
    obtain ⟨t, hexec, hstep, hwp, hcount, hsram⟩ := execHkConversionEnd_writes (code := code) hup hconv hq hstate hmore hbuf hroom
    exact ⟨t, hexec, hstep, hwp, hcount, hsram, fun a ha => hsram ▸ Memory.read_writeWords_ne _ _ _ _ ha⟩
  case injected =>
    intro s d code i f l k m hup hconv hinj hops hmore
    obtain ⟨t, hexec, -, -, wp, rp, c, told, hrest⟩ := execHkConversionEnd_keeps (code := code) hup hconv hinj hops hmore
    refine ⟨t, hexec, (Hk.inj_of_rest hrest :), (Hk.injDone_of_rest hrest :), (Hk.injOps_of_rest hrest).trans hops, ?_⟩
    rw [Hk.last_of_rest hrest]
    exact SMap.get_put_same _ _ _ _
  case calibration =>
    intro s d code hup hconv hcal hleft
    refine Completes.of _ (execHkConversionEnd_calibration hup hconv hcal hleft) ?_
    obtain ⟨wp, rp, c, told, hhk⟩ := State.calEnd_hk (s := s.converted d) d ((s.die d).hkResult (14 + (s.die d).hk.calRes.length % 2) code)
      (14 + (s.die d).hk.calRes.length % 2)
    rw [State.converted_hk] at hhk
    rw [State.die_onDie_same, Die.takeWork_calibrating (by rw [hhk]; exact hcal), hhk]
    exact ⟨rfl, SMap.get_put_same _ _ _ _, hcal⟩
  case strokeTrigger =>
    intro s d n hup hpos hen htrig hdiv hdue hovr hgate hidle hnew
    obtain ⟨htrigAt, hstate, hlate, -⟩ := State.strokeTrigger_queues hidle
    exact Completes.of _ (execHkStrokeTrigger_onTime hup hpos hen htrig hdiv hdue hovr hgate hnew) ⟨htrigAt, hstate, hlate⟩
  case edge =>
    intro s d c rising n hup hen htrig hch hfall hgate hfree
    exact Completes.of _ (execHkPwmEdge_eq hup hgate) (State.edges_delay hen htrig hch hfall hfree)
  case delayEnd =>
    intro s d n hup hdelay hgate hover hidle
    obtain ⟨t, hexec, -, -, hover, hstate, -⟩ := execHkDelayEnd_queues hup hdelay hgate hover hidle
    exact ⟨t, hexec, hover, hstate⟩
  case overrun =>
    intro s d n hup hen htaken hfirst
    refine Posts.of _ (execOverrun_posts hup hen htaken hfirst) ⟨?_, ?_⟩
    · rw [State.hk_of_blk (State.count_blk _ _ _ _ (by simp)), State.onHk_hk, Hk.seq_setSeq_same]
    · rw [State.count, State.die_onDie_same, Die.counter_count_same]
      simp [State.onHk, Die.counter]
  case calDone =>
    intro s d hup hcal hall
    obtain ⟨t, hexec, -, -, hcal0, hres, hrest⟩ := execCalDone_ends hup hcal hall
    exact ⟨t, hexec, hcal0, hres, (Hk.ofs_of_rest hrest :), (Hk.gain_of_rest hrest :), (Hk.calOp_of_rest hrest :), (Hk.inj_of_rest hrest :)⟩
  case rpWrite =>
    intro s d rp hup hspan
    refine Completes.of _ (congrArg Host.Outcome.next (if_pos hup)) (State.onHk_congr ?_)
    simp only [hspan, if_true]
  case critical =>
    intro s d m hup htrip hm
    exact Posts.of _ (execTempCritical_posts hup htrip hm) (State.onHk_hk d _)
  case cleared =>
    intro s d hup htrip
    refine Posts.of _ (execTempCritCleared_posts hup htrip) ?_
    rw [State.die_onDie_same]
  case pwmLoad =>
    intro s d hup hopen hovr hdue
    obtain ⟨hhk, hact, hsram⟩ := State.pwmLoad_start (s := s) d
    refine Completes.of _ (execPwmLoad_moves hup hopen hovr hdue) ?_
    have hbuffer := State.pwmMoves_buffer (s := ((s.toFret 28).onDie d (fun x => x.didFret 28)).onHk d (fun v => { v with dueLoad := 0 })) d
      (s.die d).hk.dueLoad courseList
    rw [hhk] at hbuffer
    refine ⟨(congrArg (fun b => b.2.2.2) hbuffer :), (congrArg (fun b => b.2.2.1) hbuffer :), (congrArg (fun b => b.2.1) hbuffer :), ?_, ?_⟩
    · rw [State.sram_of_blk (State.pwmMoves_blk _ _ _ (by simp)), hsram]
    · rw [State.active_of_blk (State.pwmMoves_blk _ _ _ (by simp)), hact]
  case pwmWrap =>
    intro s d p w hup hon hload hw hhere
    refine Completes.of _ (execPwmWrap_takes hup hon hload hw hhere) ?_
    obtain ⟨m, l, hhk⟩ := State.pwmWrap_hk (s := s) d p w (w - s.stroke d * 1280).toNat
    refine ⟨?_, by rw [hhk], by rw [hhk], State.sram_of_blk (by simp) d, State.active_of_blk (by simp) d⟩
    rw [hhk]
    dsimp only
    rw [if_pos hload]
    exact bit_xor_pow hload
  case seqDefine =>
    intro s u k htakes hn hcfg htrig hdiv hfirst hlast
    have hhk : ((u.commitAnswer k 0x0901 5 (seqDefined k)).die k.die).hk = (u.die k.die).hk := State.hk_of_blk (by simp) _
    obtain ⟨-, -, -, hwaits, hact⟩ := State.seqDefine_stages (u := u) hn
    refine Completes.of _ (execHkSeqDefine_stages htakes hn hcfg htrig hdiv hfirst hlast) ⟨hwaits, ?_, ?_, State.sram_of_blk (by simp) _, hact _⟩
    · rw [hhk]
    · rw [hhk]
  case inject =>
    intro s u k htakes hlow hhigh hroom _ _
    refine Completes.of _ (execHkInject_queues htakes hlow hhigh hroom) ?_
    have hrest := execHkInject_rest (u := u) (k := k)
    refine ⟨?_, (Hk.count_of_rest hrest :), (Hk.rp_of_rest hrest :), State.sram_of_blk (by simp) _, State.active_of_blk (by simp) _⟩
    rw [Hk.inj_of_rest hrest]
    simp
  case calibrate =>
    intro s u k htakes hidle _ _
    refine Completes.of _ (execHkCalibrate_asks htakes hidle) ?_
    obtain ⟨hcal, hrest⟩ := execHkCalibrate_rest (u := u) (k := k)
    exact ⟨hcal, (Hk.count_of_rest hrest :), (Hk.rp_of_rest hrest :), State.sram_of_blk (by simp) _, State.active_of_blk (by simp) _⟩
  case pwmSet =>
    intro s u k htakes hp hctl hduty
    have hhk : ((u.commitAnswer k 0x0904 5 (pwmSetting k) k.target.toNat).die k.die).hk = (u.die k.die).hk := State.hk_of_blk (by simp) _
    obtain ⟨-, -, -, hwaits, hact⟩ := State.pwmSet_stages (u := u) hp
    refine Completes.of _ (execPwmSet_stages htakes hp hctl hduty) ⟨hwaits, ?_, ?_, State.sram_of_blk (by simp) _, hact _⟩
    · rw [hhk]
    · rw [hhk]

/-- Settles O51: a move writes each due channel's load register (`pwmMoves_load`), and the rows of the converter leave the channels with the
rest of the housekeeping block. -/
theorem pwmAndHkCommands : Obligations.PwmAndHkCommands := by
  unfold Obligations.PwmAndHkCommands
  refine ⟨?load, ?wrap, ?seqDefine, ?inject, ?calibrate, ?calibrating, ?pwmSet, ?injected, ?strokeTrigger, ?edge, ?delayEnd, ?overrun,
    ?calDone, ?rpWrite, ?critical, ?cleared⟩
  case load =>
    intro s d hup hopen hovr hdue
    obtain ⟨hhk, hact, -⟩ := State.pwmLoad_start (s := s) d
    refine Completes.of _ (execPwmLoad_moves hup hopen hovr hdue) ?_
    generalize ((s.toFret 28).onDie d (fun x => x.didFret 28)).onHk d (fun v => { v with dueLoad := 0 }) = v at *
    have hbuffer := State.pwmMoves_buffer (s := v) d (s.die d).hk.dueLoad courseList
    rw [hhk] at hbuffer
    refine ⟨(congrArg (fun b => b.2.2.2) hbuffer :), fun p hp j => ?_⟩
    rw [State.pwmMoves_load d _ courseList (List.mem_range.mpr p.isLt) hp j, Die.act, Die.act, hact]
  case wrap =>
    intro s d p w hup hon hload hw hhere
    refine Completes.of _ (execPwmWrap_takes hup hon hload hw hhere) ?_
    obtain ⟨m, l, hhk⟩ := State.pwmWrap_hk (s := s) d p w (w - s.stroke d * 1280).toNat
    rw [hhk]
    refine ⟨?_, SMap.get_put_same _ _ _ _, fun j => get_pwmPut_same (s.die d).hk.pwm p.val (fun k => SMap.get (pwmReset (4 * p.val + k)) (s.die d).hk.load (4 * p.val + k)) j⟩
    dsimp only
    rw [if_pos hload]
    exact bit_xor_pow hload
  case seqDefine =>
    intro s u k htakes hn hcfg htrig hdiv hfirst hlast
    exact Completes.of _ (execHkSeqDefine_stages htakes hn hcfg htrig hdiv hfirst hlast) (State.seqDefine_stages hn)
  case inject =>
    intro s u k htakes hlow hhigh hroom _ _
    have hrest := execHkInject_rest (u := u) (k := k)
    exact Completes.of _ (execHkInject_queues htakes hlow hhigh hroom)
      ⟨(Hk.injOps_of_rest hrest :), (Hk.inj_of_rest hrest :), State.active_of_blk (by simp) _⟩
  case calibrate =>
    intro s u k htakes hidle _ _
    obtain ⟨hcal, hrest⟩ := execHkCalibrate_rest (u := u) (k := k)
    exact Completes.of _ (execHkCalibrate_asks htakes hidle) ⟨(Hk.calOp_of_rest hrest :), (Hk.calAfter_of_rest hrest :), hcal⟩
  case calibrating =>
    intro s u k htakes hcal
    refine Answers.of u (congrArg Host.Outcome.next ((State.command0_takes _ htakes).trans ?_)) rfl
    exact if_pos hcal
  case pwmSet =>
    intro s u k htakes hp hctl hduty
    exact Completes.of _ (execPwmSet_stages htakes hp hctl hduty) (State.pwmSet_stages hp)
  case injected =>
    intro s d code i f l k m hup hconv hinj hops hmore
    obtain ⟨t, hexec, hact, hstg, wp, rp, c, told, hrest⟩ := execHkConversionEnd_keeps (code := code) hup hconv hinj hops hmore
    exact ⟨t, hexec, (Hk.inj_of_rest hrest :), (Hk.pwm_of_rest hrest :), (Hk.load_of_rest hrest :), State.active_of_blk hact d, State.staged_of_blk hstg d⟩
  case strokeTrigger =>
    intro s d n hup hpos hen htrig hdiv hdue hovr hgate hidle hnew
    obtain ⟨htrigAt, -, -, hrest⟩ := State.strokeTrigger_queues hidle
    exact Completes.of _ (execHkStrokeTrigger_onTime hup hpos hen htrig hdiv hdue hovr hgate hnew)
      ⟨htrigAt, (Hk.pwm_of_rest hrest :), (Hk.load_of_rest hrest :), State.active_of_blk (by simp) d, State.staged_of_blk (by simp) d⟩
  case edge =>
    intro s d c rising n hup hen htrig hch hfall hgate hfree
    have hrest : ((((s.edgeAt d c rising 0).edgeAt d c rising 1).die d).hk).rest = (s.die d).hk.rest :=
      (State.edgeAt_rest d c rising 1).trans (State.edgeAt_rest d c rising 0)
    exact Completes.of _ (execHkPwmEdge_eq hup hgate) ⟨congrArg Seq.delay (State.edges_delay hen htrig hch hfall hfree),
      (Hk.pwm_of_rest hrest :), (Hk.load_of_rest hrest :), State.active_of_blk (by simp) d, State.staged_of_blk (by simp) d⟩
  case delayEnd =>
    intro s d n hup hdelay hgate hover hidle
    obtain ⟨t, hexec, hact, hstg, hover, -, hrest⟩ := execHkDelayEnd_queues hup hdelay hgate hover hidle
    exact ⟨t, hexec, hover, (Hk.pwm_of_rest hrest :), (Hk.load_of_rest hrest :), State.active_of_blk hact d, State.staged_of_blk hstg d⟩
  case overrun =>
    intro s d n hup hen htaken hfirst
    refine Completes.of _ (execOverrun_posts hup hen htaken hfirst) ?_
    have hrest (q : Seq) := (s.die d).hk.rest_setSeq n.val q
    rw [State.post_die_hk, State.hk_of_blk (State.count_blk _ _ _ _ (by simp)), State.onHk_hk, Hk.seq_setSeq_same]
    exact ⟨rfl, Hk.pwm_of_rest (hrest _), Hk.load_of_rest (hrest _), State.active_of_blk (by simp) d, State.staged_of_blk (by simp) d⟩
  case calDone =>
    intro s d hup hcal hall
    obtain ⟨t, hexec, hact, hstg, hcal0, -, hrest⟩ := execCalDone_ends hup hcal hall
    exact ⟨t, hexec, hcal0, (Hk.pwm_of_rest hrest :), (Hk.load_of_rest hrest :), State.active_of_blk hact d, State.staged_of_blk hstg d⟩
  case rpWrite =>
    intro s d rp hup _
    refine Completes.of _ (congrArg Host.Outcome.next (if_pos hup)) ?_
    refine ⟨?_, ?_, ?_, State.active_of_blk (by simp) d, State.staged_of_blk (by simp) d⟩ <;> simp [State.hkRp]
  case critical =>
    intro s d m hup htrip hm
    refine Completes.of _ (execTempCritical_posts hup htrip hm) ?_
    refine ⟨?_, ?_, ?_, State.active_of_blk (by simp) d, State.staged_of_blk (by simp) d⟩ <;> simp
  case cleared =>
    intro s d hup htrip
    refine Completes.of _ (execTempCritCleared_posts hup htrip) ?_
    rw [State.post_die_hk, State.post_die_active, State.post_die_staged, State.die_onDie_same]
    exact ⟨rfl, rfl, rfl, rfl, rfl⟩

end

section
/-! SUPPORT. The words of a mirror: what is read after words were written, and the stores of both mirrors. -/

set_option Elab.async false

namespace Sys2Proof.Machine

/-! ### Numbers in a memory (R319) -/

theorem Memory.readLE_congr {m m' : List Host.Cell} (n : Nat) : ∀ a : Nat,
    (∀ b, a ≤ b → b < a + n → Memory.read m b = Memory.read m' b) → Memory.readLE m a n = Memory.readLE m' a n := by
  induction n with
  | zero => exact fun _ _ => rfl
  | succ n ih =>
    intro a h
    rw [Memory.readLE, Memory.readLE, h a le_rfl (by omega), ih (a + 1) (fun b hlow hhigh => h b (by omega) (by omega))]

theorem Memory.readLE_lt (m : List Host.Cell) (n : Nat) : ∀ a : Nat, Memory.readLE m a n < 256 ^ n := by
  induction n with
  | zero => intro a; simp [Memory.readLE]
  | succ n ih =>
    intro a
    have hbyte := (Memory.read m a).isLt
    have hrest := ih (a + 1)
    rw [Memory.readLE, pow_succ]
    omega

theorem Memory.readLE_add (m : List Host.Cell) (j n : Nat) : ∀ a : Nat,
    Memory.readLE m a (j + n) = Memory.readLE m a j + 256 ^ j * Memory.readLE m (a + j) n := by
  induction j with
  | zero => intro a; simp [Memory.readLE]
  | succ j ih =>
    intro a
    rw [Nat.succ_add, Memory.readLE, Memory.readLE, ih, Nat.add_assoc a 1 j, Nat.add_comm 1 j, pow_succ]
    ring

theorem Memory.writeLE_add (j n : Nat) : ∀ (m : List Host.Cell) (a v : Nat),
    Memory.writeLE m a (j + n) v = Memory.writeLE (Memory.writeLE m a j v) (a + j) n (v / 256 ^ j) := by
  induction j with
  | zero => intro m a v; simp [Memory.writeLE]
  | succ j ih =>
    intro m a v
    rw [Nat.succ_add, Memory.writeLE, Memory.writeLE, ih, Nat.add_assoc a 1 j, Nat.add_comm 1 j, Nat.div_div_eq_div_mul, ← pow_succ']

/-- A write stores only the low bytes of its number. -/
theorem Memory.writeLE_congr (n : Nat) : ∀ (m : List Host.Cell) (a v w : Nat), v % 256 ^ n = w % 256 ^ n →
    Memory.writeLE m a n v = Memory.writeLE m a n w := by
  induction n with
  | zero => exact fun _ _ _ _ _ => rfl
  | succ n ih =>
    intro m a v w h
    rw [pow_succ', Nat.mod_mul, Nat.mod_mul] at h
    have hv := Nat.mod_lt v (show 0 < 256 by decide)
    have hw := Nat.mod_lt w (show 0 < 256 by decide)
    have hfirst : BitVec.ofNat 8 v = BitVec.ofNat 8 w := BitVec.eq_of_toNat_eq (by simp only [BitVec.toNat_ofNat]; omega)
    rw [Memory.writeLE, Memory.writeLE, hfirst, ih _ _ _ (w / 256) (by omega)]

/-- Writing a number back where it was read leaves every byte. -/
theorem Memory.read_writeLE_back (n : Nat) : ∀ (m : List Host.Cell) (a b : Nat),
    Memory.read (Memory.writeLE m a n (Memory.readLE m a n)) b = Memory.read m b := by
  induction n with
  | zero => exact fun _ _ _ => rfl
  | succ n ih =>
    intro m a b
    have hbyte := (Memory.read m a).isLt
    have hfirst : BitVec.ofNat 8 (Memory.readLE m a (n + 1)) = Memory.read m a :=
      BitVec.eq_of_toNat_eq (by rw [Memory.readLE, BitVec.toNat_ofNat]; omega)
    have hsame (c : Nat) : Memory.read (Memory.write m a (Memory.read m a)) c = Memory.read m c := by
      by_cases hc : c = a
      · rw [hc, Memory.read_write_same]
      · exact Memory.read_write_ne _ _ _ _ hc
    have hrest : Memory.readLE m a (n + 1) / 256 = Memory.readLE (Memory.write m a (Memory.read m a)) (a + 1) n := by
      rw [Memory.readLE, Memory.readLE_congr n (a + 1) (fun c _ _ => hsame c)]
      omega
    rw [Memory.writeLE, hfirst, hrest, ih, hsame]

/-- A 64-bit word whose high half is written back stores its low half, and no other byte. -/
theorem Memory.writeLE_lowHalf (m : List Host.Cell) (a v : Nat) (hv : v < 2 ^ 32) :
    Memory.readLE (Memory.writeLE m a 8 (Memory.readLE m a 8 / 2 ^ 32 * 2 ^ 32 + v)) a 4 = v ∧ ∀ b, (b < a ∨ a + 4 ≤ b) →
      Memory.read (Memory.writeLE m a 8 (Memory.readLE m a 8 / 2 ^ 32 * 2 ^ 32 + v)) b = Memory.read m b := by
  generalize hw : Memory.readLE m a 8 / 2 ^ 32 * 2 ^ 32 + v = w
  have hhalf : Memory.readLE m a 8 = Memory.readLE m a 4 + 256 ^ 4 * Memory.readLE m (a + 4) 4 := Memory.readLE_add m 4 4 a
  have hlow := Memory.readLE_lt m 4 a
  have hkept : w / 256 ^ 4 = Memory.readLE (Memory.writeLE m a 4 w) (a + 4) 4 := by
    rw [Memory.readLE_congr (m' := m) 4 (a + 4) (fun b h _ => Memory.read_writeLE_ne 4 _ _ _ _ (.inr h))]
    omega
  rw [show 8 = 4 + 4 from rfl, Memory.writeLE_add, hkept]
  refine ⟨?_, fun b hb => ?_⟩
  · rw [Memory.readLE_congr 4 a (fun b _ h => Memory.read_writeLE_back 4 _ _ b), Memory.readLE_writeLE_same]
    omega
  · rw [Memory.read_writeLE_back, Memory.read_writeLE_ne 4 _ _ _ _ hb]

/-- A 64-bit word whose low half is written back stores its high half, and no other byte. -/
theorem Memory.writeLE_highHalf (m : List Host.Cell) (a v : Nat) (hv : v < 2 ^ 32) :
    Memory.readLE (Memory.writeLE m a 8 (Memory.readLE m a 8 % 2 ^ 32 + v * 2 ^ 32)) (a + 4) 4 = v ∧ ∀ b, (b < a + 4 ∨ a + 8 ≤ b) →
      Memory.read (Memory.writeLE m a 8 (Memory.readLE m a 8 % 2 ^ 32 + v * 2 ^ 32)) b = Memory.read m b := by
  generalize hw : Memory.readLE m a 8 % 2 ^ 32 + v * 2 ^ 32 = w
  have hhalf : Memory.readLE m a 8 = Memory.readLE m a 4 + 256 ^ 4 * Memory.readLE m (a + 4) 4 := Memory.readLE_add m 4 4 a
  have hlow := Memory.readLE_lt m 4 a
  have hkept : Memory.writeLE m a 4 w = Memory.writeLE m a 4 (Memory.readLE m a 4) := Memory.writeLE_congr 4 m a _ _ (by omega)
  rw [show 8 = 4 + 4 from rfl, Memory.writeLE_add, hkept]
  refine ⟨?_, fun b hb => ?_⟩
  · rw [Memory.readLE_writeLE_same]
    omega
  · rw [Memory.read_writeLE_ne 4 _ _ _ _ hb, Memory.read_writeLE_back]

/-! ### Words written upward -/

/-- A mirror's bytes after words have been stored upward from an offset. -/
def nvWritten (m : List Host.Cell) (off : Nat) : List Nat → List Host.Cell
  | [] => m
  | v :: vs => nvWritten (Memory.writeLE m off 8 v) (off + 8) vs

theorem read_nvWritten_ne (vs : List Nat) : ∀ (m : List Host.Cell) (off a : Nat), (a < off ∨ off + 8 * vs.length ≤ a) →
    Memory.read (nvWritten m off vs) a = Memory.read m a := by
  induction vs with
  | nil => exact fun _ _ _ _ => rfl
  | cons v vs ih =>
    intro m off a h
    rw [List.length_cons] at h
    rw [nvWritten, ih _ _ _ (by omega), Memory.read_writeLE_ne _ _ _ _ _ (by omega)]

theorem readLE_nvWritten (vs : List Nat) : ∀ (m : List Host.Cell) (off i : Nat) (h : i < vs.length),
    Memory.readLE (nvWritten m off vs) (off + 8 * i) 8 = vs[i] % 256 ^ 8 := by
  induction vs with
  | nil => exact fun _ _ i h => absurd h (Nat.not_lt_zero i)
  | cons v vs ih =>
    intro m off i h
    rw [nvWritten]
    cases i with
    | zero =>
      rw [Memory.readLE_congr 8 (off + 8 * 0) (fun b _ hb => read_nvWritten_ne vs _ _ _ (.inl (by omega)))]
      exact Memory.readLE_writeLE_same 8 m off v
    | succ i =>
      rw [show off + 8 * (i + 1) = off + 8 + 8 * i by ring, ih _ _ i (Nat.lt_of_succ_lt_succ h)]
      rfl

/-! ### Stores of both mirrors (R484, R486) -/

variable {s : State}

theorem otherAccess_ne_zero (p : Part) : otherAccess p ≠ 0 := by
  cases p <;> decide

theorem State.mirrorOf_ne (m : DieId) : s.mirrorOf m ≠ m := by
  unfold State.mirrorOf
  split
  next h => exact h ▸ otherAccess_ne_zero _
  next h => exact Ne.symm h

theorem State.mirrorUp_of_blk {t : State} (h : t.blk .brg = s.blk .brg) (a b : DieId) : t.mirrorUp a b = s.mirrorUp a b := by
  simp only [State.mirrorUp, State.reaches, State.brg_of_blk h]

theorem Die.nvPut_nv_eq (x : Die) (off v : Nat) : (x.nvPut off v).nv = Memory.writeLE x.nv off 8 v := rfl

/-- A store wears its block by one, and no other (R486). -/
theorem Die.nvPut_wear (x : Die) (off v b : Nat) :
    SMap.get 0 (x.nvPut off v).nvs.wear b ≤ SMap.get 0 x.nvs.wear b + 1 := by
  show SMap.get 0 (SMap.put 0 x.nvs.wear (nvBlock off) (SMap.get 0 x.nvs.wear (nvBlock off) + 1)) b ≤ _
  rw [SMap.get_put]
  split
  next h => rw [h]
  next => omega

theorem State.nvStore_part (m : DieId) (off v : Nat) : (s.nvStore m off v).part = s.part := by
  unfold State.nvStore
  dsimp only
  split
  · rfl
  · split <;> rfl

theorem State.nvStore_up (m : DieId) (off v : Nat) (hup : s.mirrorUp m (s.mirrorOf m) = true) :
    s.nvStore m off v = (s.onDie m (fun x => x.nvPut off v)).onDie (s.mirrorOf m) (fun x => x.nvPut off v) :=
  if_pos ((State.mirrorUp_of_blk (by simp) _ _).trans hup)

/-- With the other access die out of reach only the master holds the store, and its block is STALE, with those that were before. -/
theorem State.nvStore_cut (m : DieId) (off v : Nat) (hcut : s.mirrorUp m (s.mirrorOf m) = false) :
    ∃ l : List Nat, nvBlock off ∈ l ∧ (∀ b ∈ (s.die m).nvs.stale, b ∈ l) ∧
      ((s.nvStore m off v).die m).nv = ((s.die m).nvPut off v).nv ∧
      ((s.nvStore m off v).die m).nvs = { ((s.die m).nvPut off v).nvs with stale := l } ∧
      ∀ e, e ≠ m → ((s.nvStore m off v).die e).nv = (s.die e).nv := by
  have hdown : (s.onDie m (fun x => x.nvPut off v)).mirrorUp m (s.mirrorOf m) ≠ true := by
    rw [State.mirrorUp_of_blk (s := s) (by simp), hcut]
    exact Bool.false_ne_true
  have hstale : ((s.onDie m (fun x => x.nvPut off v)).die m).nvs.stale = (s.die m).nvs.stale := by rw [State.die_onDie_same]; rfl
  unfold State.nvStore
  rw [if_neg hdown]
  split
  next hmarked =>
    rw [hstale] at hmarked
    refine ⟨(s.die m).nvs.stale, List.contains_iff_mem.mp hmarked, fun b hb => hb, ?_, ?_, fun e he => ?_⟩
    · rw [State.die_onDie_same]
    · rw [State.die_onDie_same]; rfl
    · rw [State.die_onDie_ne _ _ _ _ he]
  next =>
    refine ⟨(s.die m).nvs.stale ++ [nvBlock off], by simp, fun b hb => by simp [hb], ?_, ?_, fun e he => ?_⟩
    · rw [State.post_die_nv, State.die_onDie_same, State.die_onDie_same]
    · rw [State.post_die_nvs, State.die_onDie_same, State.die_onDie_same]; rfl
    · rw [State.post_die_nv, State.die_onDie_ne _ _ _ _ he, State.die_onDie_ne _ _ _ _ he]

/-- The master holds the store. -/
theorem State.nvStore_master (m : DieId) (off v : Nat) : ((s.nvStore m off v).die m).nv = Memory.writeLE (s.die m).nv off 8 v := by
  cases hup : s.mirrorUp m (s.mirrorOf m) with
  | true =>
    rw [State.nvStore_up m off v hup, State.die_onDie_ne _ _ _ _ (Ne.symm (State.mirrorOf_ne m)), State.die_onDie_same]
    rfl
  | false =>
    obtain ⟨l, -, -, hnv, -⟩ := State.nvStore_cut m off v hup
    exact hnv

theorem State.nvStore_wear (m : DieId) (off v b : Nat) :
    SMap.get 0 ((s.nvStore m off v).die m).nvs.wear b ≤ SMap.get 0 (s.die m).nvs.wear b + 1 := by
  cases hup : s.mirrorUp m (s.mirrorOf m) with
  | true =>
    rw [State.nvStore_up m off v hup, State.die_onDie_ne _ _ _ _ (Ne.symm (State.mirrorOf_ne m)), State.die_onDie_same]
    exact Die.nvPut_wear _ _ _ _
  | false =>
    obtain ⟨l, -, -, -, hnvs, -⟩ := State.nvStore_cut m off v hup
    rw [hnvs]
    exact Die.nvPut_wear (s.die m) off v b

/-- Where the words that follow fit the wear of their blocks, they fit it after a store as well. -/
theorem State.wearFits_nvStore {m : DieId} {off v n : Nat} (hwear : ∀ i, i < n + 1 →
      SMap.get 0 (s.die m).nvs.wear (nvBlock (off + 8 * i)) + (n + 1) ≤ wearLimit) (i : Nat) (hi : i < n) :
    SMap.get 0 ((s.nvStore m off v).die m).nvs.wear (nvBlock (off + 8 + 8 * i)) + n ≤ wearLimit := by
  have hnext := hwear (i + 1) (by omega)
  have hstep := State.nvStore_wear (s := s) m off v (nvBlock (off + 8 + 8 * i))
  rw [show off + 8 * (i + 1) = off + 8 + 8 * i by ring] at hnext
  omega

/-- A store whose block is not worn is made, and the rest follows. -/
theorem State.nvStores_cons {m : DieId} {off v : Nat} {vs : List Nat} (hworn : s.nvWornAt m off = false) :
    s.nvStores m off (v :: vs) = (((s.nvStore m off v).nvStores m (off + 8) vs).1, ((s.nvStore m off v).nvStores m (off + 8) vs).2 + 1) :=
  if_neg (by simp [hworn])

theorem State.nvWornAt_of_fits {m : DieId} {off n : Nat} (hwear : ∀ i, i < n + 1 →
      SMap.get 0 (s.die m).nvs.wear (nvBlock (off + 8 * i)) + (n + 1) ≤ wearLimit) : s.nvWornAt m off = false := by
  have hfirst := hwear 0 (by omega)
  simp only [Nat.mul_zero, Nat.add_zero] at hfirst
  exact decide_eq_false (by omega)

/-- Stores that fit the wear of their blocks are all made, in both mirrors. -/
theorem State.nvStores_up (m : DieId) (vs : List Nat) : ∀ (s : State) (off : Nat), s.mirrorUp m (s.mirrorOf m) = true →
    (∀ i, i < vs.length → SMap.get 0 (s.die m).nvs.wear (nvBlock (off + 8 * i)) + vs.length ≤ wearLimit) →
    (s.nvStores m off vs).2 = vs.length ∧
      ∀ e, e = m ∨ e = s.mirrorOf m → ((s.nvStores m off vs).1.die e).nv = nvWritten (s.die e).nv off vs := by
  induction vs with
  | nil => exact fun s off _ _ => ⟨rfl, fun _ _ => rfl⟩
  | cons v vs ih =>
    intro s off hup hwear
    have hof : (s.nvStore m off v).mirrorOf m = s.mirrorOf m := by rw [State.nvStore_up m off v hup]; rfl
    obtain ⟨hall, hnv⟩ := ih (s.nvStore m off v) (off + 8) (by rw [hof, State.mirrorUp_of_blk (s := s) (by simp), hup]) (State.wearFits_nvStore hwear)
    rw [State.nvStores_cons (State.nvWornAt_of_fits hwear)]
    refine ⟨congrArg (· + 1) hall, fun e he => (hnv e (by rwa [hof])).trans ?_⟩
    have hstored : ((s.nvStore m off v).die e).nv = Memory.writeLE (s.die e).nv off 8 v := by
      rcases he with rfl | rfl
      · exact State.nvStore_master _ _ _
      · rw [State.nvStore_up m off v hup, State.die_onDie_same, State.die_onDie_ne _ _ _ _ (State.mirrorOf_ne m)]
        rfl
    rw [hstored, nvWritten]

/-- Stores that fit the wear of their blocks, with the other access die out of reach: in the master's mirror alone, their blocks STALE. -/
theorem State.nvStores_cut (m : DieId) (vs : List Nat) : ∀ (s : State) (off : Nat), s.mirrorUp m (s.mirrorOf m) = false →
    (∀ i, i < vs.length → SMap.get 0 (s.die m).nvs.wear (nvBlock (off + 8 * i)) + vs.length ≤ wearLimit) →
    (s.nvStores m off vs).2 = vs.length ∧ ((s.nvStores m off vs).1.die m).nv = nvWritten (s.die m).nv off vs ∧
      (∀ e, e ≠ m → ((s.nvStores m off vs).1.die e).nv = (s.die e).nv) ∧
      (∀ b ∈ (s.die m).nvs.stale, b ∈ ((s.nvStores m off vs).1.die m).nvs.stale) ∧
      (vs ≠ [] → nvBlock off ∈ ((s.nvStores m off vs).1.die m).nvs.stale) := by
  induction vs with
  | nil => exact fun s off _ _ => ⟨rfl, rfl, fun _ _ => rfl, fun _ hb => hb, fun h => absurd rfl h⟩
  | cons v vs ih =>
    intro s off hcut hwear
    have hof : (s.nvStore m off v).mirrorOf m = s.mirrorOf m := by simp only [State.mirrorOf, State.nvStore_part]
    obtain ⟨hall, hnv, hothers, hstale, -⟩ :=
      ih (s.nvStore m off v) (off + 8) (by rw [hof, State.mirrorUp_of_blk (s := s) (by simp), hcut]) (State.wearFits_nvStore hwear)
    obtain ⟨l, hmarked, hkept, -, hnvs, hfirst⟩ := State.nvStore_cut m off v hcut
    rw [State.nvStores_cons (State.nvWornAt_of_fits hwear)]
    rw [hnvs] at hstale
    refine ⟨congrArg (· + 1) hall, ?_, fun e he => (hothers e he).trans (hfirst e he), fun b hb => hstale b (hkept b hb), fun _ => hstale _ hmarked⟩
    rw [hnv, State.nvStore_master, nvWritten]

end Sys2Proof.Machine
end

section
/-! SUPPORT. Reads of the mirrors, the copying of STALE blocks, and the commands of the nonvolatile store. -/

set_option Elab.async false

namespace Sys2Proof.Machine

variable {s u : State} {k : Packet}

/-! ### Words that are read (R485) -/

theorem State.nvFetch_clean (d : DieId) (off : Nat) (other : EccResult) :
    s.nvFetch d off .clean other = (s.count d cNvs, some ((s.die d).nvWord off)) := by
  unfold State.nvFetch
  simp [Die.nvWord]

theorem State.nvFetch_corrected (d : DieId) (off : Nat) (other : EccResult) : s.nvFetch d off .corrected other =
    ((((s.count d cNvs).onDie d (fun x => x.nvPut off ((s.die d).nvWord off))).count d (cNvs + 8)).post d 440 0x01 (off / 8),
      some ((s.die d).nvWord off)) := by
  unfold State.nvFetch
  simp [Die.nvWord]

/-- A word that is lost in both mirrors. -/
theorem State.nvFetch_lost (d : DieId) (off : Nat) : s.nvFetch d off .uncorrectable .uncorrectable =
    (((s.count d cNvs).count d (cNvs + 0xC)).post d 440 0x02 (off / 8 + 2 ^ 18), none) := rfl

/-- A word that is lost in the named die's mirror alone comes from the other one. -/
theorem State.nvFetch_other (d : DieId) (off : Nat) (hup : s.mirrorUp d (s.mirrorOf d) = true) :
    s.nvFetch d off .uncorrectable .clean = ((((s.count d cNvs).count d (cNvs + 0xC)).onDie d (fun x =>
      x.nvPut off ((s.die (s.mirrorOf d)).nvWord off))).post d 440 0x02 (off / 8), some ((s.die (s.mirrorOf d)).nvWord off)) := by
  have hreach : ((s.count d cNvs).count d (cNvs + 0xC)).mirrorUp d (s.mirrorOf d) = true :=
    (State.mirrorUp_of_blk (s := s) (by simp) _ _).trans hup
  unfold State.nvFetch
  simp only [hreach]
  simp [Die.nvWord]

theorem getD_clean {ecc : List EccResult} (h : ecc.all (fun e => e == .clean) = true) (i : Nat) : (ecc[i]?).getD .clean = .clean := by
  cases hi : ecc[i]? with
  | none => rfl
  | some e => exact beq_iff_eq.mp (List.all_eq_true.mp h e (List.mem_of_getElem? hi))

/-- Words that ECC finds clean are read in order, and no mirror changes. -/
theorem State.nvFetches_clean {ecc : List EccResult} (hecc : ecc.all (fun e => e == .clean) = true) (d : DieId) (n off : Nat) :
    ∀ (c : Nat) (s : State), c ≤ n → (s.nvFetches d ecc n off c).2 = some ((List.range c).flatMap (fun i =>
        [(s.die d).nvWord (off + 8 * (n - c + i)) % 2 ^ 32, (s.die d).nvWord (off + 8 * (n - c + i)) / 2 ^ 32])) ∧
      ∀ e, ((s.nvFetches d ecc n off c).1.die e).nv = (s.die e).nv := by
  intro c
  induction c with
  | zero => exact fun s _ => ⟨rfl, fun _ => rfl⟩
  | succ c ih =>
    intro s hc
    obtain ⟨hwords, hnv⟩ := ih (s.count d cNvs) (by omega)
    have hword (a : Nat) : ((s.count d cNvs).die d).nvWord a = (s.die d).nvWord a := by simp [Die.nvWord]
    have hindex (i : Nat) : n - (c + 1) + (i + 1) = n - c + i := by omega
    rw [State.nvFetches, getD_clean hecc, State.nvFetch_clean]
    refine ⟨?_, fun e => (hnv e).trans (by simp)⟩
    simp only [hwords, hword]
    rw [List.range_succ_eq_map, List.flatMap_cons, List.flatMap_map]
    simp only [Nat.succ_eq_add_one, hindex, Nat.add_zero]
    rfl

/-! ### Blocks that are copied (R484) -/

theorem SMap.get_of_notMem {β : Type} (d : β) (m : List (Nat × β)) (k : Nat) (h : ∀ p ∈ m, p.1 ≠ k) : SMap.get d m k = d := by
  induction m with
  | nil => rfl
  | cons p m ih =>
    obtain ⟨hp, hm⟩ := List.forall_mem_cons.mp h
    exact (if_neg hp).trans (ih hm)

theorem Memory.read_writes_ne (l : List Host.Cell) : ∀ (m : List Host.Cell) (a : Nat), (∀ p ∈ l, p.1 ≠ a) →
    Memory.read (l.foldl (fun m p => Memory.write m p.1 p.2) m) a = Memory.read m a := by
  induction l with
  | nil => exact fun _ _ _ => rfl
  | cons p l ih =>
    intro m a h
    obtain ⟨hp, hl⟩ := List.forall_mem_cons.mp h
    rw [List.foldl_cons, ih _ _ hl, Memory.read_write_ne _ _ _ _ (Ne.symm hp)]

/-- Cells at rising addresses, written one by one, read as they read among themselves. -/
theorem Memory.read_writes (l : List Host.Cell) (hl : SMap.rising l = true) : ∀ (m : List Host.Cell) (a : Nat), (∃ p ∈ l, p.1 = a) →
    Memory.read (l.foldl (fun m p => Memory.write m p.1 p.2) m) a = Memory.read l a := by
  induction l with
  | nil => exact fun _ _ ⟨p, hp, _⟩ => absurd hp List.not_mem_nil
  | cons p l ih =>
    intro m a ⟨q, hq, hqa⟩
    rw [SMap.rising, Bool.and_eq_true, SMap.above, List.all_eq_true] at hl
    obtain ⟨habove, hrest⟩ := hl
    rw [List.foldl_cons]
    by_cases hp : p.1 = a
    · rw [Memory.read_writes_ne l _ _ (fun r hr => hp ▸ Nat.ne_of_gt (of_decide_eq_true (habove r hr))), hp, Memory.read_write_same]
      exact (if_pos hp).symm
    · rcases List.mem_cons.mp hq with rfl | hq
      · exact absurd hqa hp
      · rw [ih hrest _ _ ⟨q, hq, hqa⟩]
        exact (if_neg hp).symm

/-- A block that is copied reads as in the source; every other one as before. -/
theorem read_copyBlock {src : List Host.Cell} (hsrc : Memory.wf src = true) (dst : List Host.Cell) (b a : Nat) :
    Memory.read (copyBlock src dst b) a = if nvBlock a = b then Memory.read src a else Memory.read dst a := by
  have hrising : SMap.rising (src.filter (fun p => nvBlock p.1 == b)) = true :=
    SMap.rising_filter _ _ (Bool.and_eq_true_iff.mp hsrc).1
  unfold copyBlock
  split
  next hin =>
    have hown : Memory.read (src.filter (fun p => nvBlock p.1 == b)) a = Memory.read src a :=
      SMap.get_filter _ (fun a => nvBlock a == b) src a (beq_iff_eq.mpr hin)
    by_cases hmem : ∃ p ∈ src.filter (fun p => nvBlock p.1 == b), p.1 = a
    · exact (Memory.read_writes _ hrising _ a hmem).trans hown
    · rw [Memory.read_writes_ne _ _ _ (fun p hp h => hmem ⟨p, hp, h⟩), ← hown]
      refine (SMap.get_of_notMem _ _ _ fun p hp h => ?_).trans (SMap.get_of_notMem _ _ _ fun p hp h => hmem ⟨p, hp, h⟩).symm
      have := (List.mem_filter.mp hp).2
      rw [h, hin] at this
      simp at this
  next hout =>
    rw [Memory.read_writes_ne _ _ _ (fun p hp h => hout (by rw [← h]; exact beq_iff_eq.mp (List.mem_filter.mp hp).2))]
    exact SMap.get_filter _ (fun a => nvBlock a != b) dst a (bne_iff_ne.mpr hout)

/-- The blocks of a resynchronisation read as in the source, and no STALE mark of the die changes. -/
theorem Die.resyncBlocks_read {src : List Host.Cell} (hsrc : Memory.wf src = true) (l : List Nat) : ∀ x : Die,
    (∀ a, Memory.read (l.foldl (fun x b => x.resyncBlock src b) x).nv a = if nvBlock a ∈ l then Memory.read src a else Memory.read x.nv a) ∧
      (l.foldl (fun x b => x.resyncBlock src b) x).nvs.stale = x.nvs.stale := by
  induction l with
  | nil => exact fun x => ⟨fun a => by simp, rfl⟩
  | cons b l ih =>
    intro x
    obtain ⟨hread, hstale⟩ := ih (x.resyncBlock src b)
    refine ⟨fun a => ?_, hstale⟩
    rw [List.foldl_cons, hread a, show (x.resyncBlock src b).nv = copyBlock src x.nv b from rfl, read_copyBlock hsrc]
    by_cases hl : nvBlock a ∈ l
    · simp [hl]
    · simp [hl]

/-- The state in which master m has copied its STALE blocks to die o, before it counts and posts them. -/
def State.resynced (s : State) (m o : DieId) : State :=
  (s.onDie o (fun x =>
    let y := (s.die m).nvs.stale.foldl (fun x b => x.resyncBlock (s.die m).nv b) x
    { y with nvs := y.nvs.follow (s.die m).nvs (s.die m).nvs.stale })).onDie m (fun x =>
      { x with nvs := { x.nvs with stale := [], resync := false } })

/-- What MIRROR_RESYNC does of one master. -/
def State.resyncFrom (s : State) (m : DieId) : State :=
  if (s.die m).nvs.stale.isEmpty || !(s.die m).nvs.resync || !s.mirrorUp m (s.mirrorOf m) then s
  else ((s.resynced m (s.mirrorOf m)).count m (cNvs + 0x14) (s.die m).nvs.stale.length).post m 440 0x04 (s.die m).nvs.stale.length

theorem execMirrorResync_eq (hrun : s.running = true) :
    exec .mirrorResync s = .next ((s.resyncFrom 0).resyncFrom (otherAccess s.part)) := congrArg Host.Outcome.next (if_pos hrun)

theorem State.resyncFrom_none {m : DieId} (h : (s.die m).nvs.stale = []) : s.resyncFrom m = s := if_pos (by rw [h]; rfl)

theorem State.resyncFrom_copies {m : DieId} (hl : (s.die m).nvs.stale ≠ []) (hgo : (s.die m).nvs.resync = true)
    (hup : s.mirrorUp m (s.mirrorOf m) = true) : s.resyncFrom m =
      ((s.resynced m (s.mirrorOf m)).count m (cNvs + 0x14) (s.die m).nvs.stale.length).post m 440 0x04 (s.die m).nvs.stale.length :=
  if_neg (by simp [hl, hgo, hup])

/-- The other access die reads as its master in the blocks that were STALE; its own STALE marks stay. -/
theorem State.resynced_other {m o : DieId} (hne : o ≠ m) (hsrc : Memory.wf (s.die m).nv = true) :
    (∀ a, Memory.read ((s.resynced m o).die o).nv a =
      if nvBlock a ∈ (s.die m).nvs.stale then Memory.read (s.die m).nv a else Memory.read (s.die o).nv a) ∧
    ((s.resynced m o).die o).nvs.stale = (s.die o).nvs.stale := by
  rw [State.resynced, State.die_onDie_ne _ _ _ _ hne, State.die_onDie_same]
  exact Die.resyncBlocks_read hsrc _ _

/-- MIRROR_RESYNC of die 0's blocks, with none of the other access die's (R484). -/
theorem execMirrorResync_copies (hrun : s.running = true) (hl : (s.die 0).nvs.stale ≠ []) (hgo : (s.die 0).nvs.resync = true)
    (hup : s.mirrorUp 0 (otherAccess s.part) = true) (hnone : (s.die (otherAccess s.part)).nvs.stale = [])
    (hsrc : Memory.wf (s.die 0).nv = true) : exec .mirrorResync s = .next (((s.resynced 0 (otherAccess s.part)).count 0 (cNvs + 0x14)
      (s.die 0).nvs.stale.length).post 0 440 0x04 (s.die 0).nvs.stale.length) := by
  rw [execMirrorResync_eq hrun, State.resyncFrom_copies hl hgo hup, State.resyncFrom_none]
  · rfl
  · rw [State.post_die_nvs, State.count_die_nvs]
    exact (State.resynced_other (otherAccess_ne_zero _) hsrc).2.trans hnone

/-! ### The commands (R487, R488, R491) -/

/-- An NV_READ whose packet is well formed answers the words it fetches (R487). -/
theorem execNvRead_fetches {ecc : List EccResult} (htakes : takes s u k 0x0801 = true) (hd : isAccess u.part k.die = true)
    (halign : k.target.toNat % 8 = 0) (hlow : 1 ≤ k.w 4) (hhigh : k.w 4 ≤ 30) (hend : k.target.toNat + 8 * k.w 4 ≤ 0x200000) :
    (∀ l, (u.nvFetches k.die ecc (k.w 4) k.target.toNat (k.w 4)).2 = some l →
      exec (.nvRead k ecc) s = .next ((u.nvFetches k.die ecc (k.w 4) k.target.toNat (k.w 4)).1.done k 0x0801 3 l)) ∧
    ((u.nvFetches k.die ecc (k.w 4) k.target.toNat (k.w 4)).2 = none →
      exec (.nvRead k ecc) s = .next ((u.nvFetches k.die ecc (k.w 4) k.target.toNat (k.w 4)).1.refuse k 0x0801 stIncomplete)) := by
  obtain ⟨hready, hu⟩ := takes_iff.mp htakes
  have hargs : ¬(k.w 4 = 0 ∨ 30 < k.w 4 ∨ nvSize < k.target.toNat + 8 * k.w 4) := by unfold nvSize; omega
  refine ⟨fun l hfetch => congrArg Host.Outcome.next ((State.command_ready _ hready).trans ?_),
    fun hfetch => congrArg Host.Outcome.next ((State.command_ready _ hready).trans ?_)⟩
  all_goals
    rw [← hu]
    simp [hd, halign, hargs, hfetch, or_assoc]

/-- An NV_WRITE whose packet is well formed stores its words (R488). -/
theorem State.nvWriteCmd_stores (hd : isAccess u.part k.die = true) (halign : k.target.toNat % 8 = 0) (hlow : 1 ≤ k.w 4)
    (hhigh : k.w 4 ≤ 29) (hlen : k.length.toNat = 5 + 2 * k.w 4) (hin : nvWritable k.target.toNat (k.w 4) = true) {r : State} {n : Nat}
    (hstores : u.nvStores (u.nvMaster k.die) k.target.toNat (nvData k (k.w 4)) = (r, n)) : u.nvWriteCmd k =
      if n = k.w 4 then r.done k 0x0802 1 [] else r.finish k 0x0802 (mkRec k stWorn (if n = 0 then 0 else 2) []) := by
  simp [State.nvWriteCmd, hd, halign, show k.w 4 ≠ 0 by omega, Nat.not_lt.mpr hhigh, hlen, hin, hstores]

theorem execNvWrite_eq (htakes : takes s u k 0x0802 = true) : exec (.nvWrite k) s = .next (u.nvWriteCmd k) := by
  obtain ⟨hready, hu⟩ := takes_iff.mp htakes
  exact congrArg Host.Outcome.next ((State.command_ready _ hready).trans (by rw [← hu]))

theorem execNvWorn_eq (htakes : takes s u k 0x0802 = true) (hlow : 1 ≤ k.w 4) (hhigh : k.w 4 ≤ 29)
    (hworn : s.nvWornAt (s.nvMaster k.die) k.target.toNat = true) : exec (.nvWorn k) s = .next (u.nvWriteCmd k) := by
  obtain ⟨hready, hu⟩ := takes_iff.mp htakes
  have hany : (List.range (k.w 4 % 32)).any (fun i => s.nvWornAt (s.nvMaster k.die) (k.target.toNat + 8 * i)) = true :=
    List.any_eq_true.mpr ⟨0, List.mem_range.mpr (by omega), hworn⟩
  exact congrArg Host.Outcome.next ((if_pos hany).trans ((State.command_ready _ hready).trans (by rw [← hu])))

theorem length_nvData (n : Nat) : (nvData k n).length = n := by simp [nvData]

theorem getElem_nvData {n i : Nat} (h : i < (nvData k n).length) : (nvData k n)[i] % 256 ^ 8 = k.w (5 + 2 * i) + 2 ^ 32 * k.w (6 + 2 * i) := by
  have hlow := ((k.words[5 + 2 * i - 4]?).getD 0).isLt
  have hhigh := ((k.words[6 + 2 * i - 4]?).getD 0).isLt
  simp only [nvData, List.getElem_map, List.getElem_range, Packet.w]
  omega

/-- A first word whose block is worn: nothing is stored (R486). -/
theorem State.nvStores_worn {m : DieId} {off n : Nat} (hn : 1 ≤ n) (hworn : s.nvWornAt m off = true) :
    s.nvStores m off (nvData k n) = (s.nvRefuse m off, 0) := by
  obtain ⟨n, rfl⟩ := Nat.exists_eq_add_of_le' hn
  rw [nvData, List.range_succ_eq_map, List.map_cons, State.nvStores, if_pos hworn]

/-! ### The calibration table (R489) -/

theorem calOffset_mod {p : Part} {key off : Nat} (h : calOffset p key = some off) : off % 4 = 0 := by
  unfold calOffset at h
  extract_lets d at h
  split at h
  · cases h
  · obtain ⟨n, -, rfl⟩ := Option.map_eq_some_iff.mp h
    omega

/-- An entry is a half of its word. -/
theorem calHalf (x : Die) {off : Nat} (h : off % 4 = 0) :
    (if off % 8 = 0 then x.nvWord (off / 8 * 8) % 4294967296 else x.nvWord (off / 8 * 8) / 4294967296) = Memory.readLE x.nv off 4 := by
  have hlow := Memory.readLE_lt x.nv 4 (off / 8 * 8)
  have hword : x.nvWord (off / 8 * 8) = Memory.readLE x.nv (off / 8 * 8) 4 + 256 ^ 4 * Memory.readLE x.nv (off / 8 * 8 + 4) 4 :=
    Memory.readLE_add _ 4 4 _
  rw [hword]
  split
  · rw [show off / 8 * 8 = off by omega] at hlow ⊢
    omega
  · rw [show off / 8 * 8 + 4 = off by omega]
    omega

/-- The word of an entry that is written: the entry's half takes the value, the other half stays (R490). -/
def calWord (x : Die) (off v : Nat) : Nat :=
  if off % 8 = 0 then x.nvWord (off / 8 * 8) / 4294967296 * 4294967296 + v else x.nvWord (off / 8 * 8) % 4294967296 + v * 4294967296

theorem writeLE_calWord (x : Die) {off v : Nat} (h : off % 4 = 0) (hv : v < 2 ^ 32) :
    Memory.readLE (Memory.writeLE x.nv (off / 8 * 8) 8 (calWord x off v)) off 4 = v ∧ ∀ a, (a < off ∨ off + 4 ≤ a) →
      Memory.read (Memory.writeLE x.nv (off / 8 * 8) 8 (calWord x off v)) a = Memory.read x.nv a := by
  unfold calWord Die.nvWord
  split
  · have := Memory.writeLE_lowHalf x.nv (off / 8 * 8) v hv
    rwa [show off / 8 * 8 = off by omega] at this ⊢
  · obtain ⟨hread, hrest⟩ := Memory.writeLE_highHalf x.nv (off / 8 * 8) v hv
    rw [show off / 8 * 8 + 4 = off by omega] at hread
    exact ⟨hread, fun a ha => hrest a (by omega)⟩

theorem execCalWrite_stores {off : Nat} {m : DieId} (htakes : takes s u k 0x0804 = true) (hoff : calOffset u.part k.target.toNat = some off)
    (hd : isAccess u.part k.die = true) (hkey : k.w 4 / 65536 = 0xCA1B) (hm : m = u.nvMaster k.die) (hworn : u.nvWornAt m (off / 8 * 8) = false) :
    exec (.calWrite k) s = .next (((u.nvStore m (off / 8 * 8) (calWord (u.die m) off (k.w 4 % 65536))).post m 441 0x01 k.target.toNat).done
      k 0x0804 1 [Memory.readLE (u.die m).nv off 4 % 131072]) := by
  obtain ⟨hready, hu⟩ := takes_iff.mp htakes
  refine congrArg Host.Outcome.next ((State.command_ready _ hready).trans ?_)
  rw [← hu, hm] at *
  simp [hoff, hd, hkey, hworn, calWord]

/-- CAL_READ of an entry whose word is found in one of the mirrors (R491). -/
theorem execCalRead_found {off v : Nat} {own other : EccResult} {r : State} (htakes : takes s u k 0x0803 = true)
    (hoff : calOffset u.part k.target.toNat = some off) (hd : isAccess u.part k.die = true)
    (hfetch : u.nvFetch k.die (off / 8 * 8) own other = (r, some v)) : exec (.calRead k own other) s =
      .next (r.done k 0x0803 3 [if off % 8 = 0 then v % 4294967296 else v / 4294967296]) := by
  obtain ⟨hready, hu⟩ := takes_iff.mp htakes
  refine congrArg Host.Outcome.next ((State.command_ready _ hready).trans ?_)
  rw [← hu]
  simp [hoff, hd, hfetch]

theorem execCalRead_lost {off : Nat} {own other : EccResult} {r : State} (htakes : takes s u k 0x0803 = true)
    (hoff : calOffset u.part k.target.toNat = some off) (hd : isAccess u.part k.die = true)
    (hfetch : u.nvFetch k.die (off / 8 * 8) own other = (r, none)) : exec (.calRead k own other) s =
      .next (r.refuse k 0x0803 stIncomplete) := by
  obtain ⟨hready, hu⟩ := takes_iff.mp htakes
  refine congrArg Host.Outcome.next ((State.command_ready _ hready).trans ?_)
  rw [← hu]
  simp [hoff, hd, hfetch]

end Sys2Proof.Machine
end

section
/-! PROOFS. The nonvolatile store and the calibration table. -/

open Sys2Proof Sys2Proof.Machine

/-- Settles O56: words that fit the wear of their blocks are stored one after another in both mirrors, or in the master's with their blocks
STALE (`nvStores_up`, `nvStores_cut`); the records that follow a resynchronised block are log entry 48. -/
theorem nonvolatileStore : Obligations.NonvolatileStore := by
  unfold Obligations.NonvolatileStore
  refine ⟨?read, ?corrected, ?lost, ?write, ?writeStale, ?readOnly, ?worn, ?resync, ?calRead, ?calOther, ?calLost, ?calWrite, ?calKey, ?calTarget,
    ?jtag⟩
  case read =>
    intro s u k ecc htakes hd halign hlow hhigh hend hecc
    obtain ⟨hwords, hnv⟩ := State.nvFetches_clean hecc k.die (k.w 4) k.target.toNat (k.w 4) u le_rfl
    simp only [Nat.sub_self, Nat.zero_add] at hwords
    exact Answers.of _ ((execNvRead_fetches htakes hd halign hlow hhigh hend).1 _ hwords) hnv
  case corrected =>
    intro s u k ecc htakes hd halign hone hend hecc
    have hfetch : u.nvFetches k.die ecc 1 k.target.toNat 1 =
        ((u.nvFetch k.die k.target.toNat .corrected ((ecc[1]?).getD .clean)).1,
          some [(u.die k.die).nvWord k.target.toNat % 2 ^ 32, (u.die k.die).nvWord k.target.toNat / 2 ^ 32]) := by
      simp [State.nvFetches, hecc, State.nvFetch_corrected]
    have hexec := (execNvRead_fetches (ecc := ecc) htakes hd halign (by omega) (by omega) (by omega)).1
    rw [hone, hfetch] at hexec
    refine Answers.of _ (hexec _ rfl) ⟨fun e a => ?_, ?_⟩
    · rw [State.nvFetch_corrected, State.post_die_nv, State.count_die_nv]
      by_cases he : e = k.die
      · rw [he, State.die_onDie_same, Die.nvPut_nv_eq, State.count_die_nv]
        exact Memory.read_writeLE_back 8 _ _ a
      · rw [State.die_onDie_ne _ _ _ _ he, State.count_die_nv]
    · rw [State.nvFetch_corrected]
      exact ⟨_, rfl⟩
  case lost =>
    intro s u k ecc htakes hd halign hone hend hown hother
    have hfetch : u.nvFetches k.die ecc 1 k.target.toNat 1 = ((u.nvFetch k.die k.target.toNat .uncorrectable .uncorrectable).1, none) := by
      simp [State.nvFetches, hown, hother, State.nvFetch_lost]
    have hexec := (execNvRead_fetches (ecc := ecc) htakes hd halign (by omega) (by omega) (by omega)).2
    rw [hone, hfetch] at hexec
    refine Answers.of _ (hexec rfl) ⟨fun e => ?_, _, rfl⟩
    rw [State.nvFetch_lost, State.post_die_nv, State.count_die_nv, State.count_die_nv]
  case write =>
    intro s u k m htakes hd halign hlow hhigh hlen hin hm hwear hup
    obtain ⟨hall, hnv⟩ := State.nvStores_up m (nvData k (k.w 4)) u k.target.toNat hup (by
      rw [length_nvData]
      exact fun i hi => of_decide_eq_true (List.all_eq_true.mp hwear i (List.mem_range.mpr hi)))
    rw [length_nvData] at hall
    have hexec := execNvWrite_eq htakes
    rw [State.nvWriteCmd_stores hd halign hlow hhigh hlen hin rfl, ← hm, if_pos hall] at hexec
    refine Answers.of _ hexec fun e he => ⟨fun i hi => ?_, fun a ha => ?_⟩
    · have hi' : i < (nvData k (k.w 4)).length := by rwa [length_nvData]
      rw [Die.nvWord, hnv e he, readLE_nvWritten _ _ _ _ hi', getElem_nvData]
    · rw [hnv e he, read_nvWritten_ne _ _ _ _ (by rwa [length_nvData])]
  case writeStale =>
    intro s u k m htakes hd halign hlow hhigh hlen hin hm hwear hcut
    obtain ⟨hall, hnv, hothers, -, hstale⟩ := State.nvStores_cut m (nvData k (k.w 4)) u k.target.toNat hcut (by
      rw [length_nvData]
      exact fun i hi => of_decide_eq_true (List.all_eq_true.mp hwear i (List.mem_range.mpr hi)))
    rw [length_nvData] at hall
    have hexec := execNvWrite_eq htakes
    rw [State.nvWriteCmd_stores hd halign hlow hhigh hlen hin rfl, ← hm, if_pos hall] at hexec
    refine Answers.of _ hexec ⟨hstale ?_, fun i hi => ?_, hothers⟩
    · rw [← List.length_pos_iff, length_nvData]
      exact hlow
    · have hi' : i < (nvData k (k.w 4)).length := by rwa [length_nvData]
      rw [Die.nvWord, hnv, readLE_nvWritten _ _ _ _ hi', getElem_nvData]
  case readOnly =>
    intro s u k htakes hd halign hlow hhigh hlen hin
    refine Answers.of u ((execNvWrite_eq htakes).trans (congrArg Host.Outcome.next ?_)) rfl
    simp [State.nvWriteCmd, hd, halign, show k.w 4 ≠ 0 by omega, Nat.not_lt.mpr hhigh, hlen, hin, State.refuse]
  case worn =>
    intro s u k m htakes hd halign hlow hhigh hlen hin hm hsworn hworn
    have hexec := execNvWorn_eq htakes hlow hhigh hsworn
    rw [State.nvWriteCmd_stores hd halign hlow hhigh hlen hin (State.nvStores_worn hlow (hm ▸ hworn)), ← hm, if_neg (by omega), if_pos rfl] at hexec
    refine Answers.of _ hexec ⟨fun e => ?_, _, rfl⟩
    rw [State.nvRefuse, State.post_die_nv, State.count_die_nv]
  case resync =>
    intro s l hrun hl hne hgo hup hnone hsrc
    subst hl
    have hown : ((s.resynced 0 (otherAccess s.part)).die 0).nvs.stale = [] ∧ ((s.resynced 0 (otherAccess s.part)).die 0).nvs.resync = false := by
      rw [State.resynced, State.die_onDie_same]
      exact ⟨rfl, rfl⟩
    refine Completes.of _ (execMirrorResync_copies hrun hne hgo hup hnone hsrc) ⟨?_, ?_, ⟨_, rfl⟩, fun a => ?_⟩
    · rw [State.post_die_nvs, State.count_die_nvs]
      exact hown.1
    · rw [State.post_die_nvs, State.count_die_nvs]
      exact hown.2
    · rw [State.post_die_nv, State.count_die_nv]
      exact (State.resynced_other (otherAccess_ne_zero _) hsrc).1 a
  case calRead =>
    intro s u k off other htakes hoff hd
    have hexec := execCalRead_found htakes hoff hd (State.nvFetch_clean k.die (off / 8 * 8) other)
    rw [calHalf _ (calOffset_mod hoff)] at hexec
    exact Answers.of _ hexec fun e => by simp
  case calOther =>
    intro s u k off htakes hoff hd hup
    have hexec := execCalRead_found htakes hoff hd (State.nvFetch_other k.die (off / 8 * 8) hup)
    rw [calHalf _ (calOffset_mod hoff)] at hexec
    refine Answers.of _ hexec ?_
    rw [Die.nvWord, State.post_die_nv, State.die_onDie_same, Die.nvPut_nv_eq, Memory.readLE_writeLE_same]
    exact Nat.mod_eq_of_lt (Memory.readLE_lt _ 8 _)
  case calLost =>
    intro s u k off htakes hoff hd
    refine Answers.of _ (execCalRead_lost htakes hoff hd (State.nvFetch_lost k.die (off / 8 * 8))) fun e => ?_
    rw [State.post_die_nv, State.count_die_nv, State.count_die_nv]
  case calWrite =>
    intro s u k off m htakes hoff hd hkey hm hworn
    obtain ⟨hvalue, hrest⟩ := writeLE_calWord (u.die m) (v := k.w 4 % 65536) (calOffset_mod hoff) (by omega)
    refine Answers.of _ (execCalWrite_stores htakes hoff hd hkey hm hworn) ⟨?_, fun a ha => ?_, _, rfl⟩
    · rw [State.post_die_nv, State.nvStore_master, hvalue]
    · rw [State.post_die_nv, State.nvStore_master, hrest a ha]
  case calKey =>
    intro s u k off htakes hoff hd hkey
    obtain ⟨hready, hu⟩ := takes_iff.mp htakes
    refine Answers.of u (congrArg Host.Outcome.next ((State.command_ready _ hready).trans ?_)) rfl
    rw [← hu]
    simp [hoff, hd, hkey, State.refuse]
  case calTarget =>
    intro s u k own other htakes hoff
    obtain ⟨hready, hu⟩ := takes_iff.mp htakes
    refine Answers.of u (congrArg Host.Outcome.next ((State.command_ready _ hready).trans ?_)) rfl
    rw [← hu]
    simp [hoff, State.refuse]
  case jtag =>
    intro s d code hd h
    refine Completes.of _ (execJtagInstruction_selects hd h) ⟨by rw [State.die_onDie_same], fun e => ⟨?_, ?_, ?_⟩⟩
    · exact s.onDie_field (·.nv) d e _ rfl
    · exact s.onDie_field (·.nvs) d e _ rfl
    · exact s.onDie_field (·.active) d e _ rfl

end

section
/-! SUPPORT. What of a pegbox outlasts the commands it takes up and ends (R330, R331, R340): its images, its staging session, and when it
started. -/

set_option Elab.async false

namespace Sys2Proof.Machine

/-- A pegbox without its commands. -/
def Peg.firm (p : Peg) : Peg := { p with ops := [], ended := [], inbox := [], awaits := [], late := [] }

/-- The same of all dies. -/
def State.firm (s : State) : DieId → Peg := fun d => (s.die d).peg.firm

@[simp] theorem Die.peg_blk (x : Die) : (x.blk .peg).peg = x.peg := by
  simp only [Die.blk]

@[simp] theorem State.die_peg_blk (s : State) (d : DieId) : ((s.blk .peg).die d).peg = (s.die d).peg := by
  rw [← State.die_blk, Die.peg_blk]

theorem State.firm_blk (s : State) : (s.blk .peg).firm = s.firm := by
  funext d
  rw [State.firm, State.die_peg_blk, State.firm]

/-- Writing a die whose pegbox keeps all but its commands. -/
@[simp] theorem State.firm_setDie {s : State} {d : DieId} {x : Die} (hx : x.peg.firm = (s.die d).peg.firm) :
    (s.setDie d x).firm = s.firm := by
  funext e
  unfold State.firm
  rw [State.die_setDie]
  split
  next he => rw [he, hx]
  next => rfl

@[simp] theorem State.firm_ite (c : Prop) [Decidable c] (s t : State) :
    (if c then s else t).firm = if c then s.firm else t.firm := apply_ite State.firm c s t

@[simp] theorem State.firm_foldl {α : Type} (s : State) (f : State → α → State) (l : List α)
    (h : ∀ t a, ((f t a).blk .peg).firm = (t.blk .peg).firm) : ((l.foldl f s).blk .peg).firm = (s.blk .peg).firm :=
  State.foldl_keeps s (fun t => (t.blk .peg).firm) f h l

@[simp] theorem Die.remember_firm (x : Die) (e : Ended) : (x.remember e).peg.firm = x.peg.firm := rfl

@[simp] theorem Die.mapOps_firm (x : Die) (f : Op → Bool) (g : Op → Op) : (x.mapOps f g).peg.firm = x.peg.firm := rfl

@[simp] theorem Die.count_firm (x : Die) (o n : Nat) : (x.count o n).peg.firm = x.peg.firm := rfl

/-- A pegbox whose operations alone are written. -/
@[simp] theorem Peg.with_ops_firm (p : Peg) (l : List Op) : ({ p with ops := l } : Peg).firm = p.firm := rfl

@[simp] theorem State.dispatch_firm (s : State) (d : DieId) (x : Packet × Nat) :
    ((s.dispatch d x).blk .peg).firm = (s.blk .peg).firm := by
  simp [State.dispatch, State.enqueue, Peg.firm]

@[simp] theorem State.startHeld_firm (s : State) (d : DieId) (n : QueueId) :
    ((s.startHeld d n).blk .peg).firm = (s.blk .peg).firm := by
  simp [State.startHeld]

@[simp] theorem State.receive_firm (s : State) (d : DieId) (r : Rec) :
    ((s.receive d r).blk .peg).firm = (s.blk .peg).firm := by
  simp [State.receive]

@[simp] theorem State.deliver_firm (s : State) (at_ : DieId) (r : Rec) :
    ((s.deliver at_ r).blk .peg).firm = (s.blk .peg).firm := by
  simp [State.deliver]

@[simp] theorem State.finishLate_firm (s : State) (d : DieId) (op span : Nat) (r : Rec) :
    ((s.finishLate d op span r).blk .peg).firm = (s.blk .peg).firm := by
  simp [State.finishLate]

@[simp] theorem State.finish_firm (s : State) (k : Packet) (op : Nat) (r : Rec) (span : Nat) :
    ((s.finish k op r span).blk .peg).firm = (s.blk .peg).firm := by
  simp [State.finish]

@[simp] theorem State.accept_firm (s : State) (k : Packet) (op cls obj : Nat) (data : List Nat)  :
    ((s.accept k op cls obj data).blk .peg).firm = (s.blk .peg).firm := by
  simp [State.accept, State.refuse]

@[simp] theorem State.endOp_firm (s : State) (d : DieId) (o : Op) (status effect : Nat) (data : List Nat) :
    ((s.endOp d o status effect data).blk .peg).firm = (s.blk .peg).firm := by
  simp [State.endOp]

@[simp] theorem State.conclude_firm (s : State) (d : DieId) (o : Op) (status effect : Nat) (data : List Nat) :
    ((s.conclude d o status effect data).blk .peg).firm = (s.blk .peg).firm := by
  simp [State.conclude]

@[simp] theorem State.closeTest_firm (s : State) (d : DieId) (t : Test) (r : TestResult) (status : Nat)
    (rec extra : List Nat) :
    ((s.closeTest d t r status rec extra).blk .peg).firm = (s.blk .peg).firm := by
  simp only [State.closeTest]
  (repeat' split) <;> simp

@[simp] theorem State.hoFail_firm (s : State) (d : DieId) (c : Nat) (h : Side) (r : SideRot)
    (live reason status : Nat) (kept : Bool) :
    ((s.hoFail d c h r live reason status kept).blk .peg).firm = (s.blk .peg).firm := by
  simp only [State.hoFail]
  (repeat' split) <;> simp

@[simp] theorem State.hoDrop_firm (s : State) (d : DieId) (c : Nat) (h : Side) (status : Nat) :
    ((s.hoDrop d c h status).blk .peg).firm = (s.blk .peg).firm := by
  simp [State.hoDrop]

@[simp] theorem State.workEnd_firm (s : State) (d : DieId) (c : Nat) (h : Side) (o : Op) (why status effect : Nat)
    (data : List Nat) :
    ((s.workEnd d c h o why status effect data).blk .peg).firm = (s.blk .peg).firm := by
  simp [State.workEnd]

@[simp] theorem State.workAbort_firm (s : State) (d : DieId) (c : Nat) (h : Side) (o : Op) (why : Nat) :
    ((s.workAbort d c h o why).blk .peg).firm = (s.blk .peg).firm := by
  simp [State.workAbort]

@[simp] theorem State.endCheck_firm (s : State) (d : DieId) (o : Op) (status : Nat) (data : List Nat) :
    ((s.endCheck d o status data).blk .peg).firm = (s.blk .peg).firm := by
  simp [State.endCheck]

@[simp] theorem State.checkCut_firm (s : State) (d : DieId) (o : Op) (status : Nat) :
    ((s.checkCut d o status).blk .peg).firm = (s.blk .peg).firm := by
  unfold State.checkCut
  split <;> simp

@[simp] theorem State.testCut_firm (s : State) (d : DieId) (t : Test) (r : TestResult) (status : Nat) :
    ((s.testCut d t r status).blk .peg).firm = (s.blk .peg).firm := by
  simp [State.testCut]

@[simp] theorem State.testFinish_firm (s : State) (d : DieId) (t : Test) (status : Nat) :
    ((s.testFinish d t status).blk .peg).firm = (s.blk .peg).firm := by
  unfold State.testFinish
  extract_lets u
  simp

@[simp] theorem State.fuseCut_firm (s : State) (d : DieId) (o : Op) (status : Nat) :
    ((s.fuseCut d o status).blk .peg).firm = (s.blk .peg).firm := by
  unfold State.fuseCut
  split <;> simp

@[simp] theorem State.twiFinish_firm (s : State) (d : DieId) (m : Nat) (o : Op) (result status : Nat) (acked : Nat)
    (data : List Byte) (stop : Bool) :
    ((s.twiFinish d m o result status acked data stop).blk .peg).firm = (s.blk .peg).firm := by
  simp [State.twiFinish]

@[simp] theorem State.twiCut_firm (s : State) (d : DieId) (m status : Nat) (stop : Bool) :
    ((s.twiCut d m status stop).blk .peg).firm = (s.blk .peg).firm := by
  unfold State.twiCut
  split <;> simp

/-! ### Commands that are settled (R340) -/

/-- The image a pegbox runs, since when, and what of a swap is open; neither its session nor its standby image. -/
def Peg.image (p : Peg) : Peg :=
  { p.firm with staging := false, stBytes := [], stCover := [], sbValid := false, romS := false, verS := 0, secS := 0, swapAt := none }

/-- Every pegbox runs the image that it ran, and no standby image has been verified. -/
def State.Settles (s t : State) : Prop :=
  ∀ e, (t.die e).peg.image = (s.die e).peg.image ∧ ((s.die e).peg.sbValid = false → (t.die e).peg.sbValid = false)

section
variable {s t u : State}

theorem State.Settles.trans (h : s.Settles t) (h' : t.Settles u) : s.Settles u := fun e =>
  ⟨(h' e).1.trans (h e).1, fun hs => (h' e).2 ((h e).2 hs)⟩

theorem State.Settles.of_firm (h : (t.blk .peg).firm = (s.blk .peg).firm) : s.Settles t := by
  rw [State.firm_blk, State.firm_blk] at h
  intro e
  have he : (t.die e).peg.firm = (s.die e).peg.firm := congrFun h e
  refine ⟨?_, fun hs => ?_⟩
  · rw [Peg.image, he, Peg.image]
  · rw [← hs]
    exact (congrArg Peg.sbValid he :)

theorem State.Settles.refl (s : State) : s.Settles s := .of_firm rfl

/-- Writing a die whose pegbox goes on with its image, and with no standby image verified. -/
theorem State.settles_onDie (d : DieId) (f : Die → Die) (himage : (f (s.die d)).peg.image = (s.die d).peg.image)
    (hsb : (s.die d).peg.sbValid = false → (f (s.die d)).peg.sbValid = false) : s.Settles (s.onDie d f) := by
  intro e
  by_cases he : e = d
  · rw [he, State.die_onDie_same]
    exact ⟨himage, hsb⟩
  · rw [State.die_onDie_ne _ _ _ _ he]
    exact ⟨rfl, id⟩

theorem State.settles_stageClear (d : DieId) : s.Settles (s.onDie d Die.stageClear) :=
  State.settles_onDie d _ rfl fun _ => rfl

theorem State.settles_foldl {α : Type} (f : State → α → State) (h : ∀ t a, State.Settles t (f t a)) (l : List α) : ∀ s : State,
    s.Settles (l.foldl f s) := by
  induction l with
  | nil => exact fun s => .refl s
  | cons a l ih => exact fun s => (h s a).trans (ih _)

theorem State.settles_fwClear : s.Settles s.fwClear :=
  State.settles_foldl _ (fun _ d => State.settles_onDie d _ rfl id) _ { s with gsync := none, fwHeld := false, fwOp := none, fwDone := 0, fwBack := 0 }

theorem State.settles_abortOp (d : DieId) (o : Op) (status : Nat) : s.Settles (s.abortOp d o status) := by
  simp only [State.abortOp]
  split
  case h_12 => exact (State.settles_stageClear d).trans (.of_firm (by simp))
  case h_13 => exact State.settles_fwClear.trans (.of_firm (by simp))
  case h_7 | h_8 => exact .of_firm (by split <;> simp)
  all_goals exact .of_firm (by simp)

theorem State.settles_settle (d : DieId) (swap : Bool) : s.Settles (s.settle d swap) := by
  unfold State.settle
  extract_lets late u₁ u₂ past u₃ keep u₄ u₅
  have h₃ : s.Settles u₃ := .of_firm (by simp [u₃, u₂, u₁, Peg.firm])
  have h₄ : u₃.Settles u₄ := State.settles_foldl _ (fun t o => State.settles_abortOp d o _) _ _
  have h₅ : u₄.Settles ((u₅.mcEnable d 0).mcEnable d 1) := .of_firm (by simp [u₅])
  exact (h₃.trans h₄).trans h₅

theorem State.settles_fwFinish : s.Settles s.fwFinish := by
  unfold State.fwFinish
  split
  · exact .refl s
  · split
    · exact .refl s
    · split
      · exact State.settles_fwClear
      · extract_lets all data sec v
        have hv : s.Settles v := .of_firm (by unfold v; split <;> simp)
        exact (hv.trans State.settles_fwClear).trans (.of_firm (by simp))

end

end Sys2Proof.Machine
end

section
/-! SUPPORT. The bits of a set of dies, what a packet that is sent leaves of its die's bridges, and the activation of images. -/

set_option Elab.async false

namespace Sys2Proof.Machine

variable {s u : State} {k : Packet}

/-! ### Sets of dies -/

/-- Dies in ascending order, added up by their bits. -/
theorem testBit_dbits (l : List DieId) (hl : l.Pairwise (· < ·)) : ∀ (acc i : Nat), (∀ d ∈ l, acc < 2 ^ d.val) →
    (l.foldl (fun m d => m + dbit d) acc).testBit i = (acc.testBit i || l.any (fun d => d.val == i)) := by
  induction l with
  | nil => exact fun acc i _ => by simp
  | cons d l ih =>
    intro acc i hacc
    obtain ⟨habove, hrest⟩ := List.pairwise_cons.mp hl
    have hlow : acc < 2 ^ d.val := hacc d List.mem_cons_self
    rw [List.foldl_cons, ih hrest, dbit, ← Nat.or_two_pow_eq_add_of_lt hlow, Nat.testBit_or, Nat.testBit_two_pow, List.any_cons, Bool.or_assoc]
    · rfl
    · intro e he
      have hstep : 2 ^ (d.val + 1) ≤ 2 ^ e.val := Nat.pow_le_pow_right (by decide) (habove e he)
      rw [dbit]
      omega

/-- The bit of a die in the mask of those of the part that satisfy f. -/
theorem State.testBit_mask (f : DieId → Bool) (d : DieId) :
    ((s.dieList.filter f).foldl (fun m d => m + dbit d) 0).testBit d.val = (present s.part d && f d) := by
  have hascending : (s.dieList.filter f).Pairwise (· < ·) := ((List.pairwise_lt_finRange 8).filter _).filter _
  rw [testBit_dbits _ hascending 0 d.val (fun e _ => Nat.two_pow_pos _), Nat.zero_testBit, Bool.false_or, Bool.eq_iff_iff]
  simp [State.dieList, Fin.val_inj, and_comm]

/-- A mask of dies that all satisfy f is a part of the mask of those that do. -/
theorem State.and_mask {f : DieId → Bool} {m : Nat} (hm : m < 256) (h : ∀ d : DieId, bit m d.val = true → present s.part d = true ∧ f d = true) :
    m &&& (s.dieList.filter f).foldl (fun m d => m + dbit d) 0 = m := by
  refine Nat.eq_of_testBit_eq fun i => ?_
  rw [Nat.testBit_and]
  cases hi : m.testBit i with
  | false => rfl
  | true =>
    have hlt : i < 8 := Nat.lt_of_not_le fun hge => by
      rw [Nat.testBit_lt_two_pow (Nat.lt_of_lt_of_le hm (Nat.pow_le_pow_right (n := 2) (by decide) hge))] at hi
      cases hi
    obtain ⟨hp, hf⟩ := h ⟨i, hlt⟩ hi
    rw [Bool.true_and, State.testBit_mask (d := ⟨i, hlt⟩), hp, hf]
    rfl

/-! ### Packets that are sent (R274) -/

/-- The bridges of a die without the numbers of its packets and what waits for an answer. -/
def Brg.still (b : Brg) : Brg := { b with nextTag := 0, sent := [] }

/-- The same of all dies. -/
def State.still (s : State) : DieId → Brg := fun d => (s.die d).brg.still

theorem State.still_blk (s : State) : (s.blk .brg).still = s.still := by
  funext d
  rw [State.still, State.die_brg_blk, State.still]

@[simp] theorem State.still_setDie {s : State} {d : DieId} {x : Die} (hx : x.brg.still = (s.die d).brg.still) : (s.setDie d x).still = s.still := by
  funext e
  unfold State.still
  rw [State.die_setDie]
  split
  next he => rw [he, hx]
  next => rfl

@[simp] theorem State.still_ite (c : Prop) [Decidable c] (s t : State) :
    (if c then s else t).still = if c then s.still else t.still := apply_ite State.still c s t

@[simp] theorem State.still_foldl {α : Type} (s : State) (f : State → α → State) (l : List α)
    (h : ∀ t a, ((f t a).blk .brg).still = (t.blk .brg).still) : ((l.foldl f s).blk .brg).still = (s.blk .brg).still :=
  State.foldl_keeps s (fun t => (t.blk .brg).still) f h l

@[simp] theorem State.sendTo_still (s : State) (a b : DieId) (body : Body) (answered : Bool) :
    ((s.sendTo a b body answered).blk .brg).still = (s.blk .brg).still := by
  simp [State.sendTo, Brg.still]

@[simp] theorem State.dispatch_still (s : State) (d : DieId) (x : Packet × Nat) :
    ((s.dispatch d x).blk .brg).still = (s.blk .brg).still := by
  simp [State.dispatch]

@[simp] theorem State.startHeld_still (s : State) (d : DieId) (n : QueueId) :
    ((s.startHeld d n).blk .brg).still = (s.blk .brg).still := by
  simp [State.startHeld]

@[simp] theorem State.receive_still (s : State) (d : DieId) (r : Rec) : ((s.receive d r).blk .brg).still = (s.blk .brg).still := by
  simp [State.receive]

@[simp] theorem State.deliver_still (s : State) (at_ : DieId) (r : Rec) : ((s.deliver at_ r).blk .brg).still = (s.blk .brg).still := by
  simp [State.deliver]

@[simp] theorem State.accept_still (s : State) (k : Packet) (op cls obj : Nat) (data : List Nat) :
    ((s.accept k op cls obj data).blk .brg).still = (s.blk .brg).still := by
  simp [State.accept, State.refuse, State.finish]

/-! ### Staging sessions (R336, R337) -/

theorem State.stager_staging {d : DieId} (h : s.stager = some d) : (s.die d).peg.staging = true :=
  List.find?_some (p := fun d => (s.die d).peg.staging) h

theorem State.closeStage_open {d : DieId} (h : (s.die d).peg.staging = true) :
    s.closeStage d = (s.onDie d Die.stageClear).post (s.stageCloser d) 456 0x03 5 := if_pos h

/-- FW_STAGE that its die takes up runs its rules by ABORT. -/
theorem State.fwStage_takes (htakes : takes0 s u k 0x0A01 = true) (hd : isAccess u.part k.die = true) :
    s.fwStage k = if bit (k.w 4) 21 then u.stageAbort k else u.stageChunks k := by
  obtain ⟨hready, hu, htarget⟩ := takes0_iff.mp htakes
  rw [State.fwStage, State.command_ready _ hready, ← hu]
  simp [htarget, hd]

/-- A chunk of the open session's own queue (R336). -/
theorem State.stageChunks_copies (hfirst : bit (k.w 4) 18 = false) (hlast : bit (k.w 4) 19 = false) (hres : bits (k.w 4) 31 22 = 0)
    (halign : bits (k.w 4) 17 0 % 4 = 0) (hfits : bits (k.w 4) 17 0 + 4 * (k.length.toNat - 6) ≤ fwMax) (hact : u.activating = false)
    (hstager : u.stager = some k.die) (horigin : (u.die k.die).peg.stOrigin = k.origin) (hqueue : (u.die k.die).peg.stQueue = k.queue)
    (hnone : (u.die k.die).lastOp = none) (hidle : (u.die k.die).regionTest = none) :
    u.stageChunks k = (u.onDie k.die (fun x => x.stageChunk k (u.stroke k.die))).done k 0x0A01 1 [] := by
  simp [State.stageChunks, hact, hstager, horigin, hqueue, hnone, hidle, halign, hres, Nat.not_lt.mpr hfits, hfirst, hlast,
    State.stager_staging hstager]

/-! ### Activation (R338) -/

/-- Every access die stops fetching. -/
def State.drained (s : State) : State :=
  let hold := fun (s : State) (d : DieId) => s.onDie d (fun x =>
    { x with q0 := { x.q0 with drain := true }, q1 := { x.q1 with drain := true }, q2 := { x.q2 with drain := true } })
  hold (hold s 0) (otherAccess s.part)

/-- The activation of packet k begins. -/
def State.opened (s : State) (k : Packet) : State := { s with fwOp := some k, fwDone := 0, fwBack := 0 }

theorem State.drained_queues : (s.drained.die 0).q0.drain = true ∧ (s.drained.die (otherAccess s.drained.part)).q2.drain = true := by
  constructor
  · rw [State.drained, State.die_onDie_ne _ _ _ _ (Ne.symm (otherAccess_ne_zero _)), State.die_onDie_same]
  · rw [State.drained]
    exact congrArg (fun x : Die => x.q2.drain) (State.die_onDie_same ..)

theorem State.drained_peg (d : DieId) : (s.drained.die d).peg = (s.die d).peg := State.peg_of_blk (by simp [State.drained]) d

theorem execFwActivate_starts {m : Nat} (htakes : takes0 s u k 0x0A02 = true) (hw : k.w 4 < 512) (hm : k.w 4 % 256 = m) (hsome : m ≠ 0)
    (hstager : u.stager = none) (hact : u.activating = false) (hlast : u.dieList.any (fun d => (u.die d).lastOp.isSome) = false)
    (hdies : ∀ d : DieId, bit m d.val = true → present u.part d = true ∧ (u.die d).peg.sbValid = true ∧ u.reachable k.die d = true)
    (hroom : (u.die k.die).peg.ops.length < 64) : exec (.fwActivate k) s = .next (State.drained
      (if ((u.accept k 0x0A02 0 0 []).opened k).globalHeld ((u.accept k 0x0A02 0 0 []).opened k).leadDie then
        { (u.accept k 0x0A02 0 0 []).opened k with gsync := some (0, m), fwHeld := true }
      else ((u.accept k 0x0A02 0 0 []).opened k).fwSend m)) := by
  have hmask := State.and_mask (s := u) (f := fun d => (u.die d).peg.sbValid && u.reachable k.die d) (m := m) (by omega) fun d hd => by
    obtain ⟨hp, hsb, hreach⟩ := hdies d hd
    exact ⟨hp, by simp [hsb, hreach]⟩
  refine congrArg Host.Outcome.next ((State.command0_takes _ htakes).trans ?_)
  simp only [hm, if_neg hsome, hmask, hstager, hact, hlast, if_neg (Nat.not_le.mpr hw)]
  simp only [State.start, if_neg (Nat.not_le.mpr hroom)]
  simp [hsome]
  rfl

/-- The operation that starts leaves its die's bridges but for packets, and every pegbox but for its commands. -/
theorem State.accept_leaves (op cls obj : Nat) (data : List Nat) (d : DieId) :
    ((u.accept k op cls obj data).die d).brg.still = (u.die d).brg.still ∧ ((u.accept k op cls obj data).die d).peg.firm = (u.die d).peg.firm := by
  have hstill := congrFun (u.accept_still k op cls obj data) d
  have hfirm := congrFun (u.accept_firm k op cls obj data) d
  rw [State.still_blk, State.still_blk] at hstill
  rw [State.firm_blk, State.firm_blk] at hfirm
  exact ⟨hstill, hfirm⟩

theorem State.accept_leadDie (op cls obj : Nat) (data : List Nat) : (u.accept k op cls obj data).leadDie = u.leadDie := by
  have hmode : (u.accept k op cls obj data).blk .mode = u.blk .mode := by simp
  have hlead : (u.accept k op cls obj data).lead = u.lead := (congrArg State.lead hmode :)
  rw [State.leadDie, State.leadDie, hlead]

/-- What an activation is to find of its lead is as it was when its command was taken up. -/
theorem State.accept_lead (op cls obj : Nat) (data : List Nat) (d : DieId) :
    (u.accept k op cls obj data).globalHeld d = u.globalHeld d ∧ ((u.accept k op cls obj data).die d).inCommits = (u.die d).inCommits ∧
      (u.accept k op cls obj data).stroke d = u.stroke d := by
  have hmode : (u.accept k op cls obj data).blk .mode = u.blk .mode := by simp
  have hstroke : ((u.accept k op cls obj data).die d).stroke = (u.die d).stroke := State.stroke_of_blk (by simp) d
  have hstill := (State.accept_leaves (u := u) (k := k) op cls obj data d).1
  have hfailover : ((u.accept k op cls obj data).die d).brg.failover = (u.die d).brg.failover := (congrArg Brg.failover hstill :)
  have hisolated : ((u.accept k op cls obj data).die d).brg.isolated = (u.die d).brg.isolated := (congrArg Brg.isolated hstill :)
  have hwaking : (u.accept k op cls obj data).waking = u.waking := (congrArg State.waking hmode :)
  refine ⟨?_, ?_, ?_⟩
  · rw [State.globalHeld, State.globalHeld, hfailover, hwaking]
  · rw [Die.inCommits, Die.inCommits, hisolated, hstroke]
  · rw [State.stroke, State.stroke, hstroke]

/-- The lead sends T at once: it is its own swap's boundary, and no other pegbox changes (R338). -/
theorem State.fwSend_sets (m : Nat) : (s.fwSend m).gsync = some (s.stroke s.leadDie + 64, m) ∧ (s.fwSend m).fwOp = s.fwOp ∧
    (s.fwSend m).fwHeld = false ∧ ∀ d, ((s.fwSend m).die d).peg =
      if d = s.leadDie ∧ (s.die d).inCommits = true ∧ bit m d.val = true then
        { (s.die d).peg with swapAt := some (s.stroke s.leadDie + 64) } else (s.die d).peg := by
  unfold State.fwSend
  extract_lets l t v
  have hv : State.broadcast { s with gsync := some (t, m), fwHeld := false } l (.gcommit t m 3) = v := rfl
  clear_value v
  have himages : v.blk .images = ({ s with gsync := some (t, m), fwHeld := false } : State).blk .images := by rw [← hv]; simp
  refine ⟨(congrArg State.gsync himages :), (congrArg State.fwOp himages :), (congrArg State.fwHeld himages :), fun d => ?_⟩
  by_cases hd : d = l
  · have hlead : v.die d = { s.die d with brg := { (s.die d).brg with nextTag := ((s.die d).brg.nextTag + 1) % 65536 } } := by
      rw [← hv, hd, State.broadcast_die]
      rfl
    have hin : (v.die d).inCommits = (s.die d).inCommits := by rw [hlead]; rfl
    have hpeg : (v.die d).peg = (s.die d).peg := by rw [hlead]
    rw [hd] at hin hpeg ⊢
    rw [State.die_onDie_same, Die.schedule, if_pos rfl, hin]
    simp only [Bool.and_eq_true, true_and, show s.leadDie = l from rfl]
    split
    · rw [← hpeg]
    · exact hpeg
  · rw [State.die_onDie_ne _ _ _ _ hd, if_neg (fun h => hd h.1)]
    exact State.peg_of_blk (s := s) (by rw [← hv]; simp) d

/-! ### Swaps and restarts (R338 to R340) -/

/-- A recovery's EPOCH record leaves every pegbox, register and slice. -/
theorem execFwSwap_swaps {d : DieId} {n : Nat} (hup : up s d = true) (hpos : s.pos = 0) (hswap : (s.die d).peg.swapAt = some n)
    (hdue : n ≤ s.stroke d) : exec (.fwSwap d) s = .next (((s.onDie d (fun x => { x with
      peg := { x.peg.swap with state := 2, swapAt := none, swapped := some n, wdtAt := s.stroke d } })).count d (cPeg + 0x38)).epoch d 2 (dbit d)) := by
  obtain ⟨hp, hrun⟩ := up_iff.mp hup
  show execFwSwap d s = _
  unfold execFwSwap
  rw [hswap]
  exact congrArg Host.Outcome.next (if_pos (by simp [hp, hrun, hpos, hdue]))

/-- The state in which a pegbox has swapped its image back and runs the old one again, before its commands are settled. -/
def State.swappedBack (s : State) (d : DieId) : State :=
  let s := s.onDie d (fun x => { x with peg := { x.peg.swap with sbValid := false } })
  let s := (s.count d (cPeg + 0x38)).epoch d 3 (dbit d)
  let s := (s.pegStart d).post d 456 0x05 (65536 * ((s.die d).peg.verA.toNat % 65536))
  { s with fwBack := s.fwBack ||| dbit d }

theorem State.swappedBack_peg (d : DieId) : ∃ n, ((s.swappedBack d).die d).peg =
    { (s.die d).peg.swap with sbValid := false, state := 1, startAt := n, swapped := none } := by
  unfold State.swappedBack
  extract_lets u v w
  have hu : (v.die d).peg = { (s.die d).peg.swap with sbValid := false } := by
    rw [State.peg_of_blk (s := u) (by simp [v]) d, State.die_onDie_same]
  have hw : (w.die d).peg = { (v.die d).peg with state := 1, startAt := v.stroke d, swapped := none } := by
    rw [State.post_die_peg, State.pegStart, State.die_onDie_same]
  rw [hu] at hw
  exact ⟨_, hw⟩

theorem execFwReverted_settles {d : DieId} {n : Nat} (hup : up s d = true) (hpos : s.pos = 0) (hswapped : (s.die d).peg.swapped = some n)
    (hstate : (s.die d).peg.state = 2) (hdue : n + 1024 ≤ s.stroke d) :
    exec (.fwReverted d) s = .next (((s.swappedBack d).settle d true).fwFinish) := by
  obtain ⟨hp, hrun⟩ := up_iff.mp hup
  show execFwReverted d s = _
  unfold execFwReverted
  rw [hswapped]
  exact congrArg Host.Outcome.next (if_pos (by simp [hp, hrun, hpos, hdue, hstate]))

theorem execWatchdogExpiry_stops {d : DieId} (hup : up s d = true) (hruns : (s.die d).pegRuns = true) (hresumed : (s.die d).stroke.resumed = none)
    (hdue : (s.die d).peg.startAt + fld ((s.die d).act oWdt) 7 0 * 1024 ≤ s.stroke d) : exec (.watchdogExpiry d) s =
      .next ((s.onDie d (fun x => { x with
        peg := { x.peg with state := 2, wdtAt := s.stroke d, restarts := x.peg.restarts + 1 } })).count d (cPeg + 0x34)) := by
  obtain ⟨hp, hrun⟩ := up_iff.mp hup
  exact congrArg Host.Outcome.next (if_pos (by simp [hp, hrun, hruns, hresumed, hdue]))

/-- The state in which a pegbox runs again after a watchdog expiry, before its commands are settled. -/
def State.restarted (s : State) (d : DieId) (rom : Bool) : State :=
  let p := (s.die d).peg
  let s := s.pegStart d
  let s := if rom then s.onDie d (fun x => { x with peg := { x.peg with romImg := true, verA := Config.romVersion, secA := 0 } }) else s
  let s := s.epoch d 1 (dbit d)
  s.post d 456 0x01 (b2n rom + 65536 * sat16 (s.stroke d - p.wdtAt))

theorem State.restarted_peg (d : DieId) (rom : Bool) : ((s.restarted d rom).die d).peg.state = 1 ∧
    ((s.restarted d rom).die d).peg.startAt = s.stroke d ∧
    (rom = true → ((s.restarted d rom).die d).peg.romImg = true ∧ ((s.restarted d rom).die d).peg.verA = Config.romVersion) := by
  unfold State.restarted
  extract_lets p u v w
  have hw : (w.die d).peg = (v.die d).peg := State.peg_of_blk (s := v) (by simp [w]) d
  have hu : (u.die d).peg = { (s.die d).peg with state := 1, startAt := s.stroke d, swapped := none } := by
    simp only [u, State.pegStart, State.die_onDie_same]
  rw [State.post_die_peg, hw]
  cases rom with
  | false => exact ⟨(congrArg Peg.state hu :), (congrArg Peg.startAt hu :), fun h => by cases h⟩
  | true =>
    have hv : (v.die d).peg = { (u.die d).peg with romImg := true, verA := Config.romVersion, secA := 0 } := by
      simp only [v, if_true, State.die_onDie_same]
    rw [hv, hu]
    exact ⟨rfl, rfl, fun _ => ⟨rfl, rfl⟩⟩

/-- The state in which a new image has reported running, before its commands are settled. -/
def State.swappedIn (s : State) (d : DieId) : State :=
  let u := (s.pegStart d).post d 456 0x04 (65536 * ((s.die d).peg.verA.toNat % 65536))
  { u with fwDone := u.fwDone ||| dbit d }

theorem State.swappedIn_peg (d : DieId) : ((s.swappedIn d).die d).peg =
    { (s.die d).peg with state := 1, startAt := s.stroke d, swapped := none } := by
  show (((s.pegStart d).post d 456 0x04 _).die d).peg = _
  rw [State.post_die_peg, State.pegStart, State.die_onDie_same]

theorem execPegRestart_expired {d : DieId} {rom : Bool} (hup : up s d = true) (hpos : s.pos = 0) (hstate : (s.die d).peg.state = 2)
    (hnone : (s.die d).peg.swapped = none) : exec (.pegRestart d rom) s = .next (((s.restarted d rom).settle d false).fwFinish) := by
  obtain ⟨hp, hrun⟩ := up_iff.mp hup
  show execPegRestart d rom s = _
  unfold execPegRestart
  extract_lets p
  rw [if_pos (by simp [hp, hrun, hpos, p, hstate]), show p.swapped = none from hnone]
  rfl

theorem execPegRestart_swapped {d : DieId} {rom : Bool} {n : Nat} (hup : up s d = true) (hpos : s.pos = 0) (hstate : (s.die d).peg.state = 2)
    (hswapped : (s.die d).peg.swapped = some n) (hdue : s.stroke d ≤ n + 1024) :
    exec (.pegRestart d rom) s = .next (((s.swappedIn d).settle d true).fwFinish) := by
  obtain ⟨hp, hrun⟩ := up_iff.mp hup
  show execPegRestart d rom s = _
  unfold execPegRestart
  extract_lets p
  rw [if_pos (by simp [hp, hrun, hpos, p, hstate]), show p.swapped = some n from hswapped]
  exact congrArg Host.Outcome.next (if_neg (Nat.not_lt.mpr hdue))

end Sys2Proof.Machine
end

section
/-! SUPPORT. What of a pegbox stays while its commands are settled. -/

set_option Elab.async false

namespace Sys2Proof.Machine

variable {s u : State} {k : Packet}

theorem runsOp_of_peg {t : State} {op cls obj : Nat} (h : (t.die k.die).peg.ops = (s.die k.die).peg.ops) :
    runsOp t k op cls obj = runsOp s k op cls obj := by
  rw [runsOp, runsOp, h]

theorem Peg.swapAt_of_firm {p q : Peg} (h : q.firm = p.firm) : q.swapAt = p.swapAt := (congrArg Peg.swapAt h :)

theorem State.opened_die (d : DieId) : (s.opened k).die d = s.die d := rfl
theorem State.opened_stroke (d : DieId) : (s.opened k).stroke d = s.stroke d := rfl
theorem State.opened_leadDie : (s.opened k).leadDie = s.leadDie := rfl
theorem State.opened_globalHeld (d : DieId) : (s.opened k).globalHeld d = s.globalHeld d := rfl

theorem State.accept_swapAt (op cls obj : Nat) (data : List Nat) (d : DieId) :
    ((u.accept k op cls obj data).die d).peg.swapAt = (u.die d).peg.swapAt :=
  Peg.swapAt_of_firm (State.accept_leaves op cls obj data d).2

/-- What is open of an activation is as it was when the queues stop. -/
theorem State.drained_images : s.drained.gsync = s.gsync ∧ s.drained.fwOp = s.fwOp ∧ s.drained.fwHeld = s.fwHeld := ⟨rfl, rfl, rfl⟩

/-- An activation that is sent at once, from the state in which its command was taken up (R338). -/
theorem State.activated_sends {m : Nat} {t : State} (ht : t = (((u.accept k 0x0A02 0 0 []).opened k).fwSend m).drained)
    (hroom : (u.die k.die).peg.ops.length < 64) :
    runsOp t k 0x0A02 0 0 = true ∧ t.gsync = some (u.stroke u.leadDie + 64, m) ∧ t.fwOp = some k ∧ t.fwHeld = false ∧
      (∀ d : DieId, (t.die d).peg.swapAt = if d = u.leadDie ∧ (u.die d).inCommits = true ∧ bit m d.val = true then
        some (u.stroke u.leadDie + 64) else (u.die d).peg.swapAt) ∧
      (t.die 0).q0.drain = true ∧ (t.die (otherAccess t.part)).q2.drain = true := by
  obtain ⟨hgsync, hop, hheld, hpeg⟩ := State.fwSend_sets (s := (u.accept k 0x0A02 0 0 []).opened k) m
  have haccept := State.accept_lead (u := u) (k := k) 0x0A02 0 0 []
  simp only [State.opened_leadDie, State.opened_stroke, State.opened_die, State.accept_leadDie, fun d => (haccept d).2.1,
    fun d => (haccept d).2.2] at hgsync hpeg
  obtain ⟨hg, hf, hh⟩ := State.drained_images (s := ((u.accept k 0x0A02 0 0 []).opened k).fwSend m)
  rw [ht]
  refine ⟨?_, hg.trans hgsync, hf.trans hop, hh.trans hheld, fun d => ?_, State.drained_queues⟩
  · rw [runsOp_of_peg (s := u.accept k 0x0A02 0 0 []), (u.accept_enters k 0x0A02 0 0 [] hroom).1]
    rw [State.drained_peg, hpeg]
    split <;> rfl
  · rw [State.drained_peg, hpeg, apply_ite Peg.swapAt, State.accept_swapAt]

/-- An activation that waits for the end of a ring failover, or of a start out of Standby (R37, R338). -/
theorem State.activated_waits {m : Nat} {t : State}
    (ht : t = State.drained { (u.accept k 0x0A02 0 0 []).opened k with gsync := some (0, m), fwHeld := true })
    (hroom : (u.die k.die).peg.ops.length < 64) :
    runsOp t k 0x0A02 0 0 = true ∧ t.gsync = some (0, m) ∧ t.fwOp = some k ∧ t.fwHeld = true ∧
      (∀ d : DieId, (t.die d).peg.swapAt = (u.die d).peg.swapAt) ∧
      (t.die 0).q0.drain = true ∧ (t.die (otherAccess t.part)).q2.drain = true := by
  obtain ⟨hg, hf, hh⟩ := State.drained_images (s := { (u.accept k 0x0A02 0 0 []).opened k with gsync := some (0, m), fwHeld := true })
  rw [ht]
  refine ⟨?_, hg, hf, hh, fun d => ?_, State.drained_queues⟩
  · rw [runsOp_of_peg (s := u.accept k 0x0A02 0 0 []), (u.accept_enters k 0x0A02 0 0 [] hroom).1]
    rw [State.drained_peg]
    rfl
  · rw [State.drained_peg]
    exact State.accept_swapAt 0x0A02 0 0 [] d

/-- Whether the lead holds an activation is as it was when its command was taken up. -/
theorem State.opened_held : ((u.accept k 0x0A02 0 0 []).opened k).globalHeld ((u.accept k 0x0A02 0 0 []).opened k).leadDie =
    u.globalHeld u.leadDie := by
  rw [State.opened_leadDie, State.opened_globalHeld, State.accept_leadDie, (State.accept_lead 0x0A02 0 0 [] u.leadDie).1]

theorem execFwStage_copies (htakes : takes0 s u k 0x0A01 = true) (hd : isAccess u.part k.die = true) (habort : bit (k.w 4) 21 = false)
    (hres : bits (k.w 4) 31 22 = 0) (hfirst : bit (k.w 4) 18 = false) (hlast : bit (k.w 4) 19 = false)
    (halign : bits (k.w 4) 17 0 % 4 = 0) (hfits : bits (k.w 4) 17 0 + 4 * (k.length.toNat - 6) ≤ fwMax) (hact : u.activating = false)
    (hstager : u.stager = some k.die) (horigin : (u.die k.die).peg.stOrigin = k.origin) (hqueue : (u.die k.die).peg.stQueue = k.queue)
    (hnone : (u.die k.die).lastOp = none) (hidle : (u.die k.die).regionTest = none) :
    exec (.fwStage k) s = .next ((u.onDie k.die (fun x => x.stageChunk k (u.stroke k.die))).done k 0x0A01 1 []) := by
  show Host.Outcome.next (s.fwStage k) = _
  rw [State.fwStage_takes htakes hd, habort, if_neg Bool.false_ne_true,
    State.stageChunks_copies hfirst hlast hres halign hfits hact hstager horigin hqueue hnone hidle]

theorem execFwStageAbort_closes {d : DieId} (htakes : takes0 s u k 0x0A01 = true) (hd : isAccess u.part k.die = true)
    (habort : bit (k.w 4) 21 = true) (hfirst : bit (k.w 4) 18 = false) (hlast : bit (k.w 4) 19 = false) (hlen : k.length.toNat = 6)
    (hact : u.activating = false) (hnone : u.dieList.any (fun d => (u.die d).lastOp.isSome) = false) (hstager : u.stager = some d) :
    exec (.fwStageAbort k) s = .next ((u.closeStage d).done k 0x0A01 1 []) := by
  show Host.Outcome.next (s.fwStage k) = _
  rw [State.fwStage_takes htakes hd, if_pos habort, State.stageAbort]
  simp only [hfirst, hlast, hlen, hact, hnone, hstager]
  rfl

/-- 976,563 strokes without a chunk (R337). -/
theorem execStagingSessionTimeout_late {d : DieId} (hrun : s.running = true) (hstager : s.stager = some d)
    (hopen : (s.die d).peg.staging = true) (hnone : (s.die d).lastOp = none) (hdue : (s.die d).peg.stLast + 976563 ≤ s.stroke d) :
    exec .stagingSessionTimeout s = .next ((s.onDie d Die.stageClear).post (s.stageCloser d) 456 0x03 5) := by
  refine congrArg Host.Outcome.next ?_
  simp only [hstager, hnone, hrun]
  simp [hdue, State.closeStage_open hopen]

/-- A session whose access die is out of reach, its LAST under way (R337). -/
theorem execStagingSessionTimeout_gone {d : DieId} {o : Op} (hrun : s.running = true) (hstager : s.stager = some d)
    (hlast : (s.die d).lastOp = some o) (hgone : s.stagerGone d = true) :
    exec .stagingSessionTimeout s = .next ((s.closeStage d).abortOp d o stAborted) := by
  refine congrArg Host.Outcome.next ?_
  simp [hstager, hlast, hrun, hgone]

/-- FW_ACTIVATE with the lead free to send (R338). -/
theorem execFwActivate_sends {m : Nat} (htakes : takes0 s u k 0x0A02 = true) (hw : k.w 4 < 512) (hm : k.w 4 % 256 = m) (hsome : m ≠ 0)
    (hstager : u.stager = none) (hact : u.activating = false) (hlast : u.dieList.any (fun d => (u.die d).lastOp.isSome) = false)
    (hdies : ∀ d : DieId, bit m d.val = true → present u.part d = true ∧ (u.die d).peg.sbValid = true ∧ u.reachable k.die d = true)
    (hroom : (u.die k.die).peg.ops.length < 64) (hheld : u.globalHeld u.leadDie = false) : exec (.fwActivate k) s =
      .next (((u.accept k 0x0A02 0 0 []).opened k).fwSend m).drained := by
  rw [execFwActivate_starts htakes hw hm hsome hstager hact hlast hdies hroom, State.opened_held, hheld, if_neg Bool.false_ne_true]

/-- FW_ACTIVATE with global commits held (R37, R338). -/
theorem execFwActivate_waits {m : Nat} (htakes : takes0 s u k 0x0A02 = true) (hw : k.w 4 < 512) (hm : k.w 4 % 256 = m) (hsome : m ≠ 0)
    (hstager : u.stager = none) (hact : u.activating = false) (hlast : u.dieList.any (fun d => (u.die d).lastOp.isSome) = false)
    (hdies : ∀ d : DieId, bit m d.val = true → present u.part d = true ∧ (u.die d).peg.sbValid = true ∧ u.reachable k.die d = true)
    (hroom : (u.die k.die).peg.ops.length < 64) (hheld : u.globalHeld u.leadDie = true) : exec (.fwActivate k) s =
      .next (State.drained { (u.accept k 0x0A02 0 0 []).opened k with gsync := some (0, m), fwHeld := true }) := by
  rw [execFwActivate_starts htakes hw hm hsome hstager hact hlast hdies hroom, State.opened_held, hheld, if_pos rfl]

theorem State.settles_settled (d : DieId) (swap : Bool) : s.Settles ((s.settle d swap).fwFinish) :=
  (State.settles_settle d swap).trans State.settles_fwFinish

/-- What two pegboxes of the same image share. -/
theorem Peg.image_fields {p q : Peg} (h : q.image = p.image) : q.state = p.state ∧ q.startAt = p.startAt ∧ q.swapped = p.swapped ∧
    q.region = p.region ∧ q.verA = p.verA ∧ q.romImg = p.romImg :=
  ⟨(congrArg Peg.state h :), (congrArg Peg.startAt h :), (congrArg Peg.swapped h :), (congrArg Peg.region h :), (congrArg Peg.verA h :),
    (congrArg Peg.romImg h :)⟩

end Sys2Proof.Machine
end

section
/-! PROOFS. Firmware: staging, activation, swaps, the watchdog and restarts. -/

open Sys2Proof Sys2Proof.Machine

/-- Settles O49: what a settled pegbox runs outlasts the commands that its restart ends (`settles_settled`). That T is 64 strokes from the
command, and that a copied image is announced by its own time, are log entry 17; that a swap and a restart stand at a boundary, sc 0, is
log entry 45. -/
theorem firmware : Obligations.Firmware := by
  unfold Obligations.Firmware
  refine ⟨?chunk, ?abort, ?timeout, ?gone, ?activate, ?activateHeld, ?swap, ?reverted, ?watchdog, ?restart, ?restartSwapped⟩
  case chunk =>
    intro s u k htakes hd habort hres hfirst hlast halign hfits hact hstager horigin hqueue hnone hidle
    exact Answers.of _ (execFwStage_copies htakes hd habort hres hfirst hlast halign hfits hact hstager horigin hqueue hnone hidle) rfl
  case abort =>
    intro s u k d htakes hd habort hfirst hlast hlen hact hnone hstager
    refine Answers.of _ (execFwStageAbort_closes htakes hd habort hfirst hlast hlen hact hnone hstager) ⟨rfl, ?_⟩
    rw [State.closeStage_open (State.stager_staging hstager), State.post_die_peg, State.die_onDie_same]
    exact ⟨rfl, rfl⟩
  case timeout =>
    intro s d hrun hstager hopen hnone hdue
    exact Posts.of _ (execStagingSessionTimeout_late hrun hstager hopen hnone hdue) rfl
  case gone =>
    intro s d o hrun hstager hlast hgone
    exact Completes.of _ (execStagingSessionTimeout_gone hrun hstager hlast hgone) rfl
  case activate =>
    intro s u k m htakes hw hm hsome hstager hact hlast hdies hroom hheld
    have hexec := execFwActivate_sends htakes hw hm hsome hstager hact hlast hdies hroom hheld
    have hstate := State.activated_sends (u := u) (k := k) (m := m) rfl hroom
    generalize State.drained _ = t at hexec hstate
    exact Completes.of t hexec hstate
  case activateHeld =>
    intro s u k m htakes hw hm hsome hstager hact hlast hdies hroom hheld
    have hexec := execFwActivate_waits htakes hw hm hsome hstager hact hlast hdies hroom hheld
    have hstate := State.activated_waits (u := u) (k := k) (m := m) rfl hroom
    generalize State.drained _ = t at hexec hstate
    exact Completes.of t hexec hstate
  case swap =>
    intro s d n hup hpos hswap hdue
    refine Completes.of _ (execFwSwap_swaps hup hpos hswap hdue) ⟨?_, ?_, ?_⟩
    · rw [State.peg_of_blk (State.epoch_blk _ _ _ _ (by simp)), State.count_die_peg, State.die_onDie_same]
    · exact State.active_of_blk (by simp) d
    · exact State.slices_of_blk (by simp) d
  case reverted =>
    intro s d n hup hpos hswapped hstate hdue
    obtain ⟨t, hpeg⟩ := State.swappedBack_peg (s := s) d
    obtain ⟨hst, -, hsw, hregion, hver, -⟩ := Peg.image_fields (State.settles_settled (s := s.swappedBack d) d true d).1
    refine Completes.of _ (execFwReverted_settles hup hpos hswapped hstate hdue) ⟨?_, ?_, ?_, ?_, ?_⟩
    · rw [hst, hpeg]
    · rw [hsw, hpeg]
    · rw [hregion, hpeg]
      rfl
    · rw [hver, hpeg]
      rfl
    · exact (State.settles_settled d true d).2 (by rw [hpeg])
  case watchdog =>
    intro s d hup hruns hresumed hdue
    refine Completes.of _ (execWatchdogExpiry_stops hup hruns hresumed hdue) ⟨?_, ?_, ?_, ?_, ?_, ?_, ?_⟩
    · rw [State.count_die_peg, State.die_onDie_same]
    · exact State.active_of_blk (by simp) d
    · exact State.staged_of_blk (by simp) d
    · exact State.slices_of_blk (by simp) d
    all_goals rw [State.die_count_same, State.die_onDie_same]; rfl
  case restart =>
    intro s d rom hup hpos hstate hnone
    obtain ⟨hruns, hstart, hrom⟩ := State.restarted_peg (s := s) d rom
    obtain ⟨hst, hsince, -, -, hver, himg⟩ := Peg.image_fields (State.settles_settled (s := s.restarted d rom) d false d).1
    exact Completes.of _ (execPegRestart_expired hup hpos hstate hnone) ⟨hst.trans hruns, hsince.trans hstart, fun h =>
      ⟨himg.trans (hrom h).1, hver.trans (hrom h).2⟩⟩
  case restartSwapped =>
    intro s d rom n hup hpos hstate hswapped hdue
    have hpeg := State.swappedIn_peg (s := s) d
    obtain ⟨hst, -, hsw, hregion, hver, -⟩ := Peg.image_fields (State.settles_settled (s := s.swappedIn d) d true d).1
    refine Completes.of _ (execPegRestart_swapped hup hpos hstate hswapped hdue) ⟨?_, ?_, ?_, ?_⟩
    · rw [hst, hpeg]
    · rw [hsw, hpeg]
    · rw [hregion, hpeg]
    · rw [hver, hpeg]

end

section
/-! SUPPORT. States on which statements about the soundposts and about Standby fail. -/

set_option Elab.async false

namespace Sys2Proof.Machine

/-! ### A deferred switch that the soundpost's return completes -/

/-- Die 0 waits for its soundpost with a deferred switch of SYS (R258). Die 1 runs from its own soundpost; it reads LOCKED and has lost its
markers. -/
def State.deferring : State :=
  (State.started.onDie 0 fun x => { x with clk := { x.clk with defer := true } }).onDie 1 fun x => { x with
    clk := { x.clk with sysUse := 2 }, stroke := { x.stroke with state := 2, mloss := true } }

/-- The switch of die 0 completes, and with it every LOCKED die that has no markers and shares no reference with its lead changes to
TRACKING (R39). -/
theorem State.deferring_realigns : ∃ t, exec (.soundpostReady 0) State.deferring = .next t ∧ (t.die 1).stroke.state = 1 :=
  ⟨_, rfl, by decide⟩

/-! ### A package asleep without a lead -/

/-- In Standby no die of a package of two leads; the first marker that reached die 0 has named stroke 7 (R472). -/
def State.leaderless : State :=
  { State.reset.onDie 0 fun x => { x with stroke := { x.stroke with wakeTo := some 7 } } with part := .q128, phase := 3 }

/-- Die 0 resumes at the stroke that the marker has named. -/
theorem State.leaderless_wakes : ∃ t, exec (.standbyWake 1 0) State.leaderless = .next t ∧ t.stroke 0 = 7 :=
  ⟨_, rfl, by decide⟩

end Sys2Proof.Machine
end

section
/-! PROOFS. Statements about start-up and Standby that fail. -/

open Sys2Proof Sys2Proof.Machine

/-- Refutes O18: SOUNDPOST_READY of a running package completes a deferred switch of SYS (R258), at which another die that no longer shares
a reference with its lead changes to TRACKING (R39). -/
theorem not_startUp : ¬ Obligations.StartUp := by
  unfold Obligations.StartUp
  rintro ⟨-, hback, -⟩
  obtain ⟨t, ht, htracking⟩ := State.deferring_realigns
  obtain ⟨u, hu, -, hothers⟩ := hback State.deferring 0 (by decide) (by decide)
  obtain rfl : u = t := Host.Outcome.next.inj (hu.symm.trans ht)
  rw [hothers 1 (by decide)] at htracking
  exact absurd htracking (by decide)

/-- Refutes O20: with no leading die every die resumes at once (log entry 51), and one that a marker has reached in Standby resumes at the
stroke that the marker named, not at its own count (R472). -/
theorem not_standby : ¬ Obligations.Standby := by
  unfold Obligations.Standby
  rintro ⟨-, hwake, -⟩
  obtain ⟨t, ht, hseven⟩ := State.leaderless_wakes
  obtain ⟨u, hu, -, -, -, -, -, hdies⟩ := hwake State.leaderless 1 0 rfl (by decide) (fun h => absurd h (by decide))
  obtain rfl : u = t := Host.Outcome.next.inj (hu.symm.trans ht)
  obtain ⟨hcount, -⟩ := hdies 0 (by decide)
  exact absurd (hcount.symm.trans hseven) (by decide)

end

section
/-! SUPPORT. Self-tests: their list, their checkpoints and their results. -/

set_option Elab.async false

namespace Sys2Proof.Machine

variable {s u : State} {k : Packet} {d : DieId}

/-! ### The tests of a die -/

section
variable {x y : Die} {b t : Test}

@[simp] theorem Die.setTest_self (t : Test) : x.setTest t t = x := by
  have hid : (fun z : Test => if z == t then t else z) = id := by
    funext z
    split
    next h => exact (beq_iff_eq.mp h).symm
    next => rfl
  rw [Die.setTest, hid, List.map_id]

/-- The first test of a tag is replaced by another one of that tag. -/
theorem Die.testOf_setTest (hb : x.testOf b.tag = some b) (ht : t.tag = b.tag) : (x.setTest b t).testOf b.tag = some t := by
  have hsame : ((fun z : Test => z.tag == b.tag) ∘ fun z => if z == b then t else z) = fun z => z.tag == b.tag := by
    funext z
    by_cases hz : z = b
    · simp [hz, ht]
    · simp [hz]
  show List.find? _ (List.map _ x.bist.tests) = some t
  rw [List.find?_map, hsame, show List.find? (fun z => z.tag == b.tag) x.bist.tests = some b from hb]
  simp

theorem Die.testOf_of_bist (h : y.bist = x.bist) (tag : BitVec 16) : y.testOf tag = x.testOf tag := by
  rw [Die.testOf, Die.testOf, h]

theorem Die.mem_of_testOf {tag : BitVec 16} (h : x.testOf tag = some t) : t ∈ x.bist.tests := List.mem_of_find?_eq_some h

/-- The operation of a test is found by its packet. -/
theorem Die.testOp_of_ops (hops : y.peg.ops = x.peg.ops) (hpacket : t.packet = b.packet) : y.testOp t = x.testOp b := by
  rw [Die.testOp, Die.testOp, hops, hpacket]

end

theorem State.onDie_self {f : Die → Die} (h : f (s.die d) = s.die d) : s.onDie d f = s := by
  rw [State.onDie, h, State.setDie_die]

/-! ### Checkpoints (R422) -/

/-- The state at the checkpoint of a test of die d: fret 25 has begun, where the BIST frets are enabled. -/
def State.atCheckpoint (s : State) (d : DieId) : State := if (s.die d).bistOn then s.toFret 25 else s

theorem State.atCheckpoint_die : ((s.atCheckpoint d).die d).bist = (s.die d).bist ∧ ((s.atCheckpoint d).die d).peg.ops = (s.die d).peg.ops ∧
    (s.atCheckpoint d).stroke d = s.stroke d := by
  unfold State.atCheckpoint
  split
  · have hbist : ((s.toFret 25).die d).bist = (s.die d).bist :=
      State.advance_field Die.bist (fun x n => (congrArg Die.bist (x.frets_blk n (β := .bist) (by simp)) :))
        (fun x => (congrArg Die.bist (x.markerDue_blk (β := .bist) (by simp)) :))
        (fun x => (congrArg Die.bist (x.snapDone_blk (β := .bist) (by simp)) :))
        (fun _ x => (congrArg Die.bist (x.copyDone_blk (β := .bist) (by simp)) :)) (fun h => absurd h (by omega)) d
    obtain ⟨m, t, cs, ts, r, hdie⟩ := State.advance_die (s := s) (40 * 25) d
    refine ⟨hbist, ?_, ?_⟩
    · rw [State.toFret, hdie]
    · rw [State.toFret, State.stroke, State.stroke, hdie]
  · exact ⟨rfl, rfl, rfl⟩

theorem State.atCheckpoint_stroke : (s.atCheckpoint d).stroke d = s.stroke d := State.atCheckpoint_die.2.2

/-- A test with the work of the slice that ends in stroke `now`. -/
def Test.worked (b : Test) (work now : Nat) : Test := { b with done := b.done + work, sliceAt := now + 1 }

/-- A test that a handover, or a deadline-class request, has suspended. -/
def Test.givenUp (b : Test) : Test := { b with isol := false, paused := true, susp := b.susp + 1 }

/-- The state in which test b of die d has reached its checkpoint as t. -/
def State.checked (s : State) (d : DieId) (b t : Test) : State := (s.atCheckpoint d).onDie d (fun x => x.setTest b t)

/-- The test of a tag shows its progress, where its die still has one. -/
def State.testShown (s : State) (d : DieId) (tag : BitVec 16) : State :=
  match (s.die d).testOf tag with
  | none => s
  | some t => s.testProgress d t t

/-- The row's own conditions on the test b of its tag. -/
def State.checkpointOpen (s : State) (d : DieId) (b : Test) (work : Nat) : Prop :=
  up s d = true ∧ (s.die d).testOf b.tag = some b ∧ b.isol = true ∧ b.paused = false ∧ (s.die d).clk.fresh 2 10 = false ∧ b.copies = false ∧
    work ≤ b.sliceMax (s.stroke d) ∧ ((s.die d).bistOn = true → s.pos < 1120)

theorem State.checkpointOpen.guard {b : Test} {work : Nat} (h : s.checkpointOpen d b work) :
    (present s.part d && s.running && b.isol && !b.paused && !(s.die d).clk.fresh 2 10 && !b.copies && decide (work ≤ b.sliceMax (s.stroke d)) &&
      (!(s.die d).bistOn || decide (s.pos < 1120))) = true := by
  obtain ⟨hup, -, hisol, hpaused, hfresh, hcopies, hwork, hpos⟩ := h
  obtain ⟨hp, hrun⟩ := up_iff.mp hup
  rw [hp, hrun, hisol, hpaused, hfresh, hcopies, decide_eq_true hwork]
  cases hon : (s.die d).bistOn with
  | false => rfl
  | true => simp [hpos hon]

theorem execWorkSliceEnd_cancelled {b : Test} {work : Nat} {o : Op} (h : s.checkpointOpen d b work) (hop : (s.die d).testOp b = some o)
    (hcancel : o.cancel = true) : exec (.workSliceEnd d b.tag work) s =
      .next ((s.checked d b (b.worked work (s.stroke d))).testCut d (b.worked work (s.stroke d)) .incomplete stCancelled) := by
  rw [← State.atCheckpoint_stroke]
  show execWorkSliceEnd d b.tag work s = _
  unfold execWorkSliceEnd
  rw [h.2.1]
  dsimp only
  rw [if_pos h.guard, hop]
  dsimp only
  rw [if_pos hcancel]
  rfl

/-- The state in which a checkpoint that does not end the test leaves it: given up, waiting, or at work (R422). -/
def State.wentOn (s : State) (d : DieId) (b t : Test) : State :=
  if (s.die d).yields b then (s.checked d b t).yieldTest d t
  else if !(s.die d).bistOn && !testFree b.test then (s.checked d b t).onDie d (fun x => x.setTest t { t with paused := true })
  else s.checked d b t

theorem execWorkSliceEnd_goesOn {b : Test} {work : Nat} (h : s.checkpointOpen d b work) (hop : (s.die d).testOp b = none) :
    exec (.workSliceEnd d b.tag work) s = .next ((s.wentOn d b (b.worked work (s.stroke d))).testShown d b.tag) := by
  rw [← State.atCheckpoint_stroke]
  show execWorkSliceEnd d b.tag work s = _
  unfold execWorkSliceEnd
  rw [h.2.1]
  dsimp only
  rw [if_pos h.guard, hop]
  dsimp only
  rw [if_neg (by decide)]
  rfl

@[simp] theorem State.testShown_bist (tag : BitVec 16) : ((s.testShown d tag).die d).bist = (s.die d).bist := by
  unfold State.testShown
  split
  next => rfl
  next t _ =>
    unfold State.testProgress
    rw [State.onDie_self (Die.setTest_self t)]
    dsimp only
    split
    next => rfl
    next o _ =>
      split
      · exact State.bist_of_blk (s := s) (s.progress_blk d o _ (by simp [carriers])) d
      · rfl

theorem State.checked_bist (b t : Test) : ((s.checked d b t).die d).bist = ((s.die d).setTest b t).bist := by
  rw [State.checked, State.die_onDie_same, Die.setTest, Die.setTest, State.atCheckpoint_die.1]

theorem State.checked_testOf {b t : Test} (hb : (s.die d).testOf b.tag = some b) (ht : t.tag = b.tag) :
    ((s.checked d b t).die d).testOf b.tag = some t :=
  (Die.testOf_of_bist (State.checked_bist b t) _).trans (Die.testOf_setTest hb ht)

/-- A test that yields its slice is given up, and nothing else of the self-tests changes. -/
theorem State.yieldTest_bist (t : Test) : ((s.yieldTest d t).die d).bist = ((s.die d).setTest t t.givenUp).bist := by
  rw [State.yieldTest, State.bist_of_blk (s := s.onDie d (fun x => (x.setTest t t.givenUp).lowered)) (by simp [Test.givenUp]),
    State.die_onDie_same, Die.lowered_bist]

theorem State.yieldTest_testOf {t : Test} (ht : (s.die d).testOf t.tag = some t) :
    ((s.yieldTest d t).die d).testOf t.tag = some t.givenUp :=
  (Die.testOf_of_bist (State.yieldTest_bist t) _).trans (Die.testOf_setTest ht rfl)

end Sys2Proof.Machine
end

section
/-! SUPPORT. Self-tests: slices that are aborted, and results. -/

set_option Elab.async false

namespace Sys2Proof.Machine

variable {s u : State} {k : Packet} {d : DieId}

/-! ### Aborted slices (R425) -/

/-- The state in which a deadline-class request has taken the block of test b on die d. -/
def State.cutShort (s : State) (d : DieId) (b : Test) : State :=
  ((s.onDie d (fun x => (x.setTest b b.givenUp).lowered)).count d (cBist + 0xC)).count d (cBist + 0x10)

theorem State.cutShort_testOf {b : Test} (hb : (s.die d).testOf b.tag = some b) :
    ((s.cutShort d b).die d).testOf b.tag = some b.givenUp := by
  have hbist : ((s.cutShort d b).die d).bist = ((s.die d).setTest b b.givenUp).bist := by
    rw [State.cutShort, State.bist_of_blk (s := s.onDie d (fun x => (x.setTest b b.givenUp).lowered)) (by simp), State.die_onDie_same,
      Die.lowered_bist]
  exact (Die.testOf_of_bist hbist _).trans (Die.testOf_setTest hb rfl)

theorem execSliceAborted_eq {b : Test} {clock : Bool} (hup : up s d = true) (hb : (s.die d).testOf b.tag = some b) (hisol : b.isol = true)
    (hpaused : b.paused = false) (hdead : (s.die d).deadline b clock = true) : exec (.sliceAborted d b.tag clock) s =
      .next (if b.test = 1 then ((s.cutShort d b).post d 424 0x02 (b.test + 256 * b2n clock)).reinitSlice d b.target
        else (s.cutShort d b).post d 424 0x02 (b.test + 256 * b2n clock)) := by
  obtain ⟨hp, hrun⟩ := up_iff.mp hup
  have hguard : (present s.part d && s.running && b.isol && !b.paused && (s.die d).deadline b clock) = true := by
    rw [hp, hrun, hisol, hpaused, hdead]
    rfl
  show execSliceAborted d b.tag clock s = _
  unfold execSliceAborted
  rw [hb]
  dsimp only
  rw [if_pos hguard]
  rfl

/-- A slice that is re-initialised is parked, and its sub-ADC corrections are those of its record (R420). -/
theorem State.reinitSlice_slice (n : Nat) : ((s.reinitSlice d n).die d).slice n =
    { ((s.die d).slice n).park with h1 := 0, h2 := 0, corr := ((s.die d).slice n).stored, capoHost := false } := by
  unfold State.reinitSlice
  extract_lets u v
  have hslice : (v.die d).slice n = (s.die d).slice n := State.slice_of_blk (by simp [v, u]) d n
  rw [State.onSlice_slice, hslice]

/-! ### Results (R427, R428) -/

/-- A result enters the ring at its write index, and the test leaves the list. -/
def Bist.closed (v : Bist) (t : Test) (rec : List Nat) : Bist :=
  { v with tests := v.tests.erase t, ring := SMap.put [] v.ring v.wp rec, wp := (v.wp + 1) % 64, count := min 64 (v.count + 1) }

theorem State.closeTest_bist (t : Test) (r : TestResult) (status : Nat) (rec extra : List Nat) :
    ((s.closeTest d t r status rec extra).die d).bist = (s.die d).bist.closed t rec := by
  have hrest : (s.closeTest d t r status rec extra).blk .bist =
      (s.onDie d (fun x => ({ x with bist := { x.bist with tests := x.bist.tests.erase t } } : Die).storeResult rec)).blk .bist := by
    simp only [State.closeTest]
    (repeat' split) <;> simp [carriers]
  rw [State.bist_of_blk hrest, State.die_onDie_same]
  rfl

theorem State.closeTest_released_bist (t v : Test) (r : TestResult) (status : Nat) (rec extra : List Nat) :
    (((s.closeTest d t r status rec extra).testRelease d v).die d).bist = (s.die d).bist.closed t rec :=
  (State.bist_of_blk (State.testRelease_blk _ d v (by simp)) d).trans (State.closeTest_bist t r status rec extra)

/-- The ring holds the record that a test has just left. -/
@[simp] theorem Bist.closed_ring (v : Bist) (t : Test) (rec : List Nat) : SMap.get [] (v.closed t rec).ring v.wp = rec :=
  SMap.get_put_same [] v.ring v.wp rec

/-- A test that is no handover's ends with a record of the work it has done (R427). -/
theorem State.testCut_bist {t : Test} {r : TestResult} {status : Nat} (hisol : t.isol = true) :
    ∃ rec, ((s.testCut d t r status).die d).bist = (s.die d).bist.closed t rec ∧
      rec[0]? = some (t.test + resultCode r * 256 + t.target * 65536) ∧ rec[2]? = some t.done := by
  have hstill : (s.die d).displacing t = false := by simp [Die.displacing, hisol]
  unfold State.testCut
  rw [hstill]
  refine ⟨(s.cutRecord d t r).2, State.closeTest_released_bist t t r status _ [], rfl, rfl⟩

theorem State.setTest_self (t : Test) : s.onDie d (fun x => x.setTest t t) = s := State.onDie_self (Die.setTest_self t)

/-- What follows the result r0 of test t (R429, R431): the state, the repair action of the record, and whether a repeat passed. -/
def State.afterResult (s : State) (d : DieId) (t : Test) (r0 : TestResult) (loc : Nat) (repaired : Bool) : State × Nat × Bool :=
  if r0 != .fail then (s, 0, false)
  else if t.rep = 0 then s.afterFail d t loc repaired
  else (if t.test = 3 || t.test = 4 then s.retire d t ((s.die d).testMacro t loc) else s, 0, false)

/-- The status that a test's command ends with (R427, R428). -/
def Test.endStatus (t : Test) : TestResult → Nat
  | .pass | .fail => if t.rep = 3 then stWorn else stDone
  | .incomplete => stCancelled
  | .aborted => stAborted

/-- Test t of die d ends with result r, once `e` has followed from it: its record enters the ring and its block is re-initialised. -/
def State.closeAfter (e : State × Nat × Bool) (d : DieId) (t : Test) (r : TestResult) (sig loc : Nat) : State :=
  (e.1.closeTest d t r (t.endStatus r) ((e.1.die d).finalRecord t r sig loc e.2.1 (e.1.stroke d)) []).testRelease d t

/-- The row, for a test that may end so now and is no LEDGER_SCRUB. -/
theorem execTestEnded_eq {b : Test} {r : TestResult} {sig loc : Word} {rep : Bool} (hup : up s d = true) (hb : (s.die d).testOf b.tag = some b)
    (hend : (s.die d).mayEnd b r sig.toNat = true) (h8 : b.test ≠ 8) {r0 : TestResult} (hr0 : (s.die d).resultOf b r sig.toNat = r0)
    {e : State × Nat × Bool} (he : s.afterResult d b r0 loc.toNat rep = e) :
    exec (.testEnded d b.tag r sig loc rep) s = .next (State.closeAfter e d b (if e.2.2 then .pass else r0) sig.toNat loc.toNat) := by
  obtain ⟨hp, hrun⟩ := up_iff.mp hup
  have hguard : (present s.part d && s.running && (s.die d).mayEnd b r sig.toNat) = true := by
    rw [hp, hrun, hend]
    rfl
  subst he hr0
  show execTestEnded d b.tag r sig loc rep s = _
  unfold execTestEnded
  rw [hb]
  refine congrArg Host.Outcome.next ((if_pos hguard).trans ?_)
  extract_lets t v r0
  have ht : t = b := if_neg (by simp [h8])
  have hv : v = s := by
    rw [show v = s.onDie d (fun x => x.setTest b t) by simp only [v, hb], ht]
    exact State.setTest_self b
  clear_value t v
  subst ht hv
  rfl

/-- A test of a slice whose result is FAIL retires the slice (R146, R429). -/
theorem State.afterResult_slice {b : Test} (h1 : b.test = 1) (hrep : b.rep = 0) (loc : Nat) (rep : Bool) :
    s.afterResult d b .fail loc rep = (s.retire d b ((s.die d).testMacro b loc), 4, false) := by
  simp [State.afterResult, State.afterFail, testHasSpares, h1, hrep]

theorem State.closeAfter_bist (e : State × Nat × Bool) (t : Test) (r : TestResult) (sig loc : Nat) :
    ((State.closeAfter e d t r sig loc).die d).bist =
      (e.1.die d).bist.closed t ((e.1.die d).finalRecord t r sig loc e.2.1 (e.1.stroke d)) :=
  State.closeTest_released_bist t t r _ _ []

theorem State.retire_slice_bist {t : Test} (h1 : t.test = 1) (m : Nat) : ((s.retire d t m).die d).bist = (s.die d).bist := by
  unfold State.retire
  rw [h1]
  exact State.bist_of_blk (s := s) (by simp) d

theorem State.retire_slice_retired {t : Test} (h1 : t.test = 1) (m : Nat) : (((s.retire d t m).die d).slice t.target).retired = true := by
  unfold State.retire
  rw [h1]
  dsimp only
  rw [State.slice_of_blk (s := s.onSlice d t.target (fun v => { v with retired := true })) (by simp), State.onSlice_slice]

/-- The release of a slice under test leaves it retired. -/
theorem State.testRelease_slice_retired {t : Test} (h1 : t.test = 1) :
    (((s.testRelease d t).die d).slice t.target).retired = ((s.die d).slice t.target).retired := by
  unfold State.testRelease
  rw [if_pos h1]
  split
  · rw [State.reinitSlice_slice]
    rfl
  · rfl

theorem State.closeAfter_slice_retired {e : State × Nat × Bool} {t : Test} (h1 : t.test = 1) (r : TestResult) (sig loc : Nat) :
    (((State.closeAfter e d t r sig loc).die d).slice t.target).retired = ((e.1.die d).slice t.target).retired := by
  rw [State.closeAfter, State.testRelease_slice_retired h1,
    State.slice_of_blk (s := e.1) (State.closeTest_blk _ d t r _ _ [] (by simp [carriers]))]

end Sys2Proof.Machine
end

section
/-! SUPPORT. Self-tests: their start, and repairs. -/

set_option Elab.async false

namespace Sys2Proof.Machine

variable {s u : State} {k : Packet} {d : DieId}

/-! ### The start of a test (R420 to R424) -/

/-- A live slice of die d that test t is of must be displaced first (R423). -/
def State.testDisplaces (s : State) (d : DieId) (t : Test) : Bool := t.test == 1 && (s.die d).testLive t.target

/-- Test t as its die enters it in stroke s.stroke d: isolated, unless it displaces a live slice or isolates nothing. -/
def State.testBegun (s : State) (d : DieId) (t : Test) : Test :=
  let isol := t.test != 2 && t.test != 8 && !s.testDisplaces d t
  { t with isol := isol, paused := isol && !(s.die d).bistOn && !testFree t.test, sliceAt := s.stroke d + 1 }

/-- The state in which die d has entered test t and not yet touched its target. -/
def State.testEntered (s : State) (d : DieId) (t : Test) : State :=
  (s.onDie d (fun x => ({ x with bist := { x.bist with tests := x.bist.tests ++ [s.testBegun d t] } } : Die).lowered)).count d cBist

theorem State.testStart_eq (t : Test) : s.testStart d t =
    if s.testDisplaces d t then
      (s.testEntered d t).hoBegin d (sliceCourse t.target) (sliceSide t.target) (((s.die d).posOf t.target).getD 0) 2 6 0 0
    else if t.test = 1 then (s.testEntered d t).parkSlice d t.target
    else if t.test = 2 then (s.testEntered d t).attachNext d (txCourse t.target) (txSide t.target) (txPos t.target) true false 1 6 true
    else if t.test = 5 then
      (s.testEntered d t).onDie d (fun x => { x with peg := { x.peg with sbValid := false, romS := false, verS := 0, secS := 0 } })
    else s.testEntered d t := rfl

theorem State.testEntered_bist (t : Test) : ((s.testEntered d t).die d).bist =
    { (s.die d).bist with tests := (s.die d).bist.tests ++ [s.testBegun d t] } := by
  rw [State.testEntered, State.bist_of_blk (State.count_blk _ _ _ _ (by simp)), State.die_onDie_same, Die.lowered_bist]

theorem State.testEntered_ops (t : Test) : ((s.testEntered d t).die d).peg.ops = (s.die d).peg.ops := by
  rw [State.testEntered, State.peg_of_blk (State.count_blk _ _ _ _ (by simp)), State.die_onDie_same, Die.lowered_peg]

/-- A test that starts is entered, and what follows for its target leaves the self-tests and the long operations as they are. -/
theorem State.testStart_kept (t : Test) : ((s.testStart d t).die d).bist = ((s.testEntered d t).die d).bist ∧
    ((s.testStart d t).die d).peg.ops = ((s.testEntered d t).die d).peg.ops := by
  rw [State.testStart_eq]
  split_ifs
  · exact ⟨State.bist_of_blk (State.hoBegin_blk _ _ _ _ _ _ _ _ _ (by simp)) d,
      congrArg Peg.ops (State.peg_of_blk (State.hoBegin_blk _ _ _ _ _ _ _ _ _ (by simp)) d)⟩
  · exact ⟨State.bist_of_blk (State.parkSlice_blk _ _ _ (by simp)) d, congrArg Peg.ops (State.peg_of_blk (State.parkSlice_blk _ _ _ (by simp)) d)⟩
  · exact ⟨State.bist_of_blk (State.attachNext_blk _ _ _ _ _ _ _ _ _ _ (by simp)) d,
      congrArg Peg.ops (State.peg_of_blk (State.attachNext_blk _ _ _ _ _ _ _ _ _ _ (by simp)) d)⟩
  · rw [State.die_onDie_same]
    exact ⟨rfl, rfl⟩
  · exact ⟨rfl, rfl⟩

theorem State.testStart_bist (t : Test) : ((s.testStart d t).die d).bist =
    { (s.die d).bist with tests := (s.die d).bist.tests ++ [s.testBegun d t] } :=
  (State.testStart_kept t).1.trans (State.testEntered_bist t)

theorem State.testStart_ops (t : Test) : ((s.testStart d t).die d).peg.ops = (s.die d).peg.ops :=
  (State.testStart_kept t).2.trans (State.testEntered_ops t)

/-- The handover that displaces a live slice is asked for at the slice's own position (R423). -/
theorem State.testStart_displaces {t : Test} (h : s.testDisplaces d t = true) :
    let r := ((s.testStart d t).die d).rot (sliceCourse t.target) (sliceSide t.target)
    r.want = 1 ∧ r.wantOwner = 6 ∧ r.wantPos = ((s.die d).posOf t.target).getD 0 ∧ r.phase = 1 := by
  rw [State.testStart_eq, if_pos h]
  unfold State.hoBegin State.attachNext
  dsimp only
  rw [State.onSide_rot, State.setSide_rot]
  exact ⟨rfl, rfl, rfl, rfl⟩

/-! ### BIST_RUN (R434) -/

/-- The gate of the self-test engine opens, and no slice has another role by it (R261). -/
theorem State.gateTo_courses {level node : Nat} (hnode : level = 1 ∨ (level = 2 ∧ 8 ≤ node)) (close dev : Bool) :
    (s.gateTo d level node close dev).blk .courses = s.blk .courses := by
  have hgate : ∀ x : Die, (x.setGate level node close).blk .courses = x.blk .courses := by
    intro x
    rcases hnode with rfl | ⟨rfl, hnode⟩
    · rfl
    · unfold Die.setGate
      dsimp only
      rw [if_neg (by omega)]
      split_ifs <;> rfl
  unfold State.gateTo
  split
  · rfl
  · rw [State.post_blk _ _ _ _ _ (by simp), State.onClk_blk _ _ _ (by simp), State.onDie_blk, hgate]
    simp

/-- BIST_RUN has taken its place among the long operations, and the gate of the self-test engine is open. -/
def State.bistReady (u : State) (k : Packet) : State :=
  (u.accept k 0x0C01 6 (k.w 4 % 256 * 65536 + k.target.toNat) []).gateOpen k.die 2 10

section
variable (hroom : (u.die k.die).peg.ops.length < 64)

theorem State.bistReady_courses : (u.bistReady k).blk .courses = u.blk .courses := by
  show (((u.accept k 0x0C01 6 _ []).gateTo k.die 1 k.die.val false true).gateTo k.die 2 10 false true).blk .courses = _
  rw [State.gateTo_courses (.inr ⟨rfl, by decide⟩), State.gateTo_courses (.inl rfl),
    State.accept_blk _ _ _ _ _ _ (by simp [carriers])]

theorem State.bistReady_blk {β : Blk} (hb : β ∉ [Blk.txs, .courses, .clk] ++ carriers) : (u.bistReady k).blk β = u.blk β := by
  unfold State.bistReady
  rw [State.gateOpen_blk _ _ _ _ (by simp_all [carriers]), State.accept_blk _ _ _ _ _ _ (by simp_all [carriers])]

theorem State.bistReady_sameRoles : (u.die k.die).sameRoles ((u.bistReady k).die k.die) where
  bist := State.bist_of_blk (State.bistReady_blk (by simp [carriers])) k.die
  courses := State.courses_of_blk State.bistReady_courses k.die
  ports := State.ports_of_blk (State.bistReady_blk (by simp [carriers])) k.die
  act o _ := by rw [Die.act, Die.act, State.active_of_blk (State.bistReady_blk (by simp [carriers]))]

theorem State.bistReady_bistOn : ((u.bistReady k).die k.die).bistOn = (u.die k.die).bistOn := by
  rw [Die.bistOn, Die.bistOn, State.active_of_blk (State.bistReady_blk (by simp [carriers]))]

theorem State.bistReady_stroke : (u.bistReady k).stroke k.die = u.stroke k.die := by
  rw [State.stroke, State.stroke, State.stroke_of_blk (State.bistReady_blk (by simp [carriers]))]

include hroom in
theorem State.bistReady_runsOp : runsOp (u.bistReady k) k 0x0C01 6 (k.w 4 % 256 * 65536 + k.target.toNat) = true := by
  rw [runsOp, State.bistReady, State.peg_of_blk (State.gateOpen_blk _ _ _ _ (by simp))]
  exact (u.accept_enters k 0x0C01 6 _ [] hroom).1

end

/-- A test that is not denied has its BIST frets, unless it does not need them (R25, R423). -/
theorem State.testDenied_none_bistOn {n w : Nat} (h : s.testDenied d n w = none) (hn : n ≠ 8) (hn' : n ≠ 9) : (s.die d).bistOn = true := by
  by_contra hoff
  unfold State.testDenied at h
  rw [if_pos (by simp [hn, hn', hoff])] at h
  exact Option.some_ne_none _ h

theorem execBistRun_starts (htakes : takes s u k 0x0C01 = true) (hlow : 1 ≤ k.w 4 % 256) (hhigh : k.w 4 % 256 ≤ 9) (hw4 : k.w 4 < 1024)
    (hw5 : k.w 5 < 2 ^ 24) (hcount : k.w 4 % 256 ≠ 2 → k.w 5 = 0) (hok : u.testTargetOk k (k.w 4 % 256) = true)
    (hfree : u.testDenied k.die (k.w 4 % 256) k.target.toNat = none) (hroom : (u.die k.die).peg.ops.length < 64) :
    exec (.bistRun k) s = .next ((u.bistReady k).testStart k.die
      { tag := k.tag, test := k.w 4 % 256, target := k.target.toNat, packet := k }) := by
  obtain ⟨hready, rfl⟩ := takes_iff.mp htakes
  refine congrArg Host.Outcome.next ((State.command_ready _ hready).trans ?_)
  dsimp only
  rw [if_neg (by simp [hok]), if_neg (by simp; omega), hfree]
  exact if_neg (Nat.not_le.mpr hroom)

end Sys2Proof.Machine
end

section
/-! SUPPORT. Self-tests: the tests BIST_RUN enters, and the rows that repair. -/

set_option Elab.async false

namespace Sys2Proof.Machine

variable {s u : State} {k : Packet} {d : DieId}

/-! ### The tests that BIST_RUN enters (R423) -/

/-- The test that BIST_RUN asks for. -/
def bistTest (k : Packet) : Test := { tag := k.tag, test := k.w 4 % 256, target := k.target.toNat, packet := k }

theorem State.bistReady_testLive {n : Nat} (hn : n < 152) : ((u.bistReady k).die k.die).testLive n = (u.die k.die).testLive n := by
  rw [Die.testLive, Die.testLive, State.bistReady_sameRoles.role hn]

/-- A slice that the packet names is one of the die's. -/
theorem State.testTargetOk_slice {n : Nat} (h : s.testTargetOk k n = true) (hn : n = 1) : k.target.toNat < 152 := by
  subst hn
  exact of_decide_eq_true h

/-- BIST_RUN of a target that is not live. -/
theorem State.bistReady_idle (hok : u.testTargetOk k (k.w 4 % 256) = true) (hidle : k.w 4 % 256 = 1 → (u.die k.die).testLive k.target.toNat = false) :
    (u.bistReady k).testDisplaces k.die (bistTest k) = false := by
  by_cases hn : k.w 4 % 256 = 1
  · simp [State.testDisplaces, bistTest, State.bistReady_testLive (State.testTargetOk_slice hok hn), hidle hn]
  · simp [State.testDisplaces, bistTest, hn]

/-- BIST_RUN of a live slice. -/
theorem State.bistReady_live (hok : u.testTargetOk k 1 = true) (hn : k.w 4 % 256 = 1) (hlive : (u.die k.die).testLive k.target.toNat = true) :
    (u.bistReady k).testDisplaces k.die (bistTest k) = true := by
  simp [State.testDisplaces, bistTest, State.bistReady_testLive (State.testTargetOk_slice hok rfl), hlive, hn]

theorem State.testBegun_idle {t : Test} (hidle : s.testDisplaces d t = false)
    (hfrets : (t.test != 2 && t.test != 8) = true → (!(s.die d).bistOn && !testFree t.test) = false) (hpaused : t.paused = false) :
    s.testBegun d t = { t with isol := t.test != 2 && t.test != 8, sliceAt := s.stroke d + 1 } := by
  have hgo : ((t.test != 2 && t.test != 8) && !(s.die d).bistOn && !testFree t.test) = t.paused := by
    rw [hpaused, Bool.and_assoc]
    cases hisol : t.test != 2 && t.test != 8 with
    | false => rfl
    | true => exact hfrets hisol
  unfold State.testBegun
  rw [hidle]
  simp only [Bool.not_false, Bool.and_true]
  rw [hgo]

theorem State.testBegun_displaces {t : Test} (h : s.testDisplaces d t = true) (hpaused : t.paused = false) :
    s.testBegun d t = { t with isol := false, sliceAt := s.stroke d + 1 } := by
  unfold State.testBegun
  rw [h]
  simp only [Bool.not_true, Bool.and_false, Bool.false_and]
  rw [← hpaused]

/-- The test that BIST_RUN has entered. -/
theorem State.testStart_mem (t : Test) : s.testBegun d t ∈ ((s.testStart d t).die d).bist.tests := by
  rw [State.testStart_bist]
  exact List.mem_append_right _ (List.mem_singleton.mpr rfl)

theorem runsOp_bistRun (hroom : (u.die k.die).peg.ops.length < 64) :
    runsOp ((u.bistReady k).testStart k.die (bistTest k)) k 0x0C01 6 (k.w 4 % 256 * 65536 + k.target.toNat) = true :=
  (runsOp_of_peg (State.testStart_ops _)).trans (State.bistReady_runsOp hroom)

/-! ### Repairs (R430, R436, R437) -/

theorem State.softRepair_bist (m v : Nat) (nv : Bool) : ((s.softRepair d m v nv).die d).bist = { (s.die d).bist with
    soft := if (s.die d).bist.soft.contains (m, v) then (s.die d).bist.soft else (s.die d).bist.soft ++ [(m, v)] } := by
  unfold State.softRepair
  dsimp only
  rw [State.bist_of_blk (State.post_blk _ _ _ _ _ (by simp)), State.bist_of_blk (State.count_blk _ _ _ _ (by simp)), State.die_onDie_same]

theorem State.softRepair_mem (m v : Nat) (nv : Bool) : (m, v) ∈ ((s.softRepair d m v nv).die d).bist.soft := by
  rw [State.softRepair_bist]
  dsimp only
  split
  next h => exact List.contains_iff_mem.mp h
  next => exact List.mem_append_right _ (List.mem_singleton.mpr rfl)

/-- REPAIR_SOFT of a row or column that its packet names, with no NV record (R436). -/
theorem execRepairSoft_repairs (htakes : takes s u k 0x0C03 = true) (hm : k.target.toNat < 65536) (hok : macOk k.target.toNat = true)
    (hw4 : k.w 4 = 0xFF) (hw5 : k.w 5 < 2 ^ 17) (hisol : (u.die k.die).macroIsolated k.target.toNat = true)
    (hspare : (u.die k.die).spareFree k.target.toNat (k.w 5) = true) (hroom : (u.die k.die).peg.ops.length < 64) :
    exec (.repairSoft k) s = .next (((u.accept k 0x0C03 6 (0x1000000 + k.target.toNat) []).softRepair k.die k.target.toNat (k.w 5) false).testStart
      k.die { tag := k.tag, test := (macroTest k.target.toNat).1, target := (macroTest k.target.toNat).2, packet := k, rep := 1 }) := by
  obtain ⟨hready, rfl⟩ := takes_iff.mp htakes
  have hwhat : (((s.takeInbox k 0x0C03).die k.die).softWhat k k.target.toNat) = some (k.w 5) := if_pos (by rw [hw4])
  have hwant : bit (k.w 4) 8 = false := by rw [hw4]; decide
  refine congrArg Host.Outcome.next ((State.command_ready _ hready).trans ?_)
  dsimp only
  rw [if_neg (by simp [hm, hok]), if_neg (by simp [hw4]; omega), if_neg (by simp [hisol]), hwhat]
  dsimp only
  rw [if_neg (by simp [hspare])]
  refine (if_neg (Nat.not_le.mpr hroom)).trans ?_
  rw [hwant]
  rfl

theorem execRepairFuse_programs (htakes : takes s u k 0x0C04 = true) (hm : k.target.toNat < 65536) (hok : macOk k.target.toNat = true)
    (hkey : k.w 4 = Config.serial.toNat % 65536 ^^^ 0xA5A5) (hidle : (u.die k.die).bist.burnOf = [])
    (hsome : u.nvRepairs k.die k.target.toNat ≠ []) (hfuses : (u.die k.die).bist.fuses + (u.nvRepairs k.die k.target.toNat).length ≤ 1024)
    (hroom : (u.die k.die).peg.ops.length < 64) : exec (.repairFuse k) s =
      .next ((u.accept k 0x0C04 6 (0x2000000 + k.target.toNat) []).onDie k.die (fun x =>
        { x with bist := { x.bist with burnOf := u.nvRepairs k.die k.target.toNat, burnt := 0 } })) := by
  obtain ⟨hready, rfl⟩ := takes_iff.mp htakes
  refine congrArg Host.Outcome.next ((State.command_ready _ hready).trans ?_)
  generalize s.takeInbox k 0x0C04 = v at *
  dsimp only
  rw [if_neg (by simp [hm, hok]), if_neg (not_not.mpr hkey), if_neg (by simp [hidle]), if_neg (by simp [hsome]; omega)]
  exact if_neg (Nat.not_le.mpr hroom)

/-- One entry is programmed, and others are left (R437). -/
theorem execFuseWritten_programs {e : Nat × Nat} {l : List (Nat × Nat)} {o : Op} (hup : up s d = true) (hburn : (s.die d).bist.burnOf = e :: l)
    (hop : (s.die d).fuseOp = some o) (hdue : o.from_ + 40 * ((s.die d).bist.burnt + 1) ≤ s.stroke d) (hmore : l ≠ []) :
    exec (.fuseWritten d) s = .next (s.fuseEntry d e).1 := by
  obtain ⟨hp, hrun⟩ := up_iff.mp hup
  show execFuseWritten d s = _
  simp [execFuseWritten, hburn, hop, hp, hrun, hdue, hmore]

theorem State.fuseEntry_kept (e : Nat × Nat) : ((s.fuseEntry d e).1.die d).bist.fuses = (s.die d).bist.fuses + 1 ∧
    ((s.fuseEntry d e).1.die d).bist.ring = (s.die d).bist.ring ∧ ((s.fuseEntry d e).1.die d).active = (s.die d).active := by
  unfold State.fuseEntry
  dsimp only
  rw [State.bist_of_blk (State.post_blk _ _ _ _ _ (by simp)), State.bist_of_blk (State.count_blk _ _ _ _ (by simp)),
    State.active_of_blk (State.post_blk _ _ _ _ _ (by simp)), State.active_of_blk (State.count_blk _ _ _ _ (by simp)), State.die_onDie_same]
  exact ⟨rfl, rfl, rfl⟩

end Sys2Proof.Machine
end

section
/-! PROOFS. Self-tests. -/

open Sys2Proof Sys2Proof.Machine

set_option Elab.async false

/-- Settles O54: BIST_RUN enters `testBegun`, and the checkpoint, the aborted slice and the end of a test come down to what `setTest` and
`closeTest` make of the list of tests and of the ring. That the frets 25 to 27 are passed as one move is log entry 39. -/
theorem selfTests : Obligations.SelfTests := by
  unfold Obligations.SelfTests
  refine ⟨?idle, ?live, ?badTest, ?checkpoint, ?tooMuch, ?yields, ?cancelled, ?waits, ?aborted, ?sliceAborted, ?passes, ?fails, ?soft, ?fuse, ?fuseWritten⟩
  case idle =>
    intro s u k n htakes hn hlow hhigh hw4 hw5 hcount hok hfree hroom hidle
    subst hn
    have hstill := State.bistReady_idle hok hidle
    refine Completes.of _ (execBistRun_starts htakes hlow hhigh hw4 hw5 hcount hok hfree hroom) ⟨runsOp_bistRun hroom, ?_⟩
    have hfrets : ((bistTest k).test != 2 && (bistTest k).test != 8) = true →
        (!((u.bistReady k).die k.die).bistOn && !testFree (bistTest k).test) = false := by
      intro hisol
      rw [State.bistReady_bistOn]
      by_cases h9 : k.w 4 % 256 = 9
      · simp [bistTest, testFree, h9]
      · have h8 : k.w 4 % 256 ≠ 8 := by
          rw [Bool.and_eq_true] at hisol
          exact bne_iff_ne.mp hisol.2
        rw [State.testDenied_none_bistOn hfree h8 h9]
        rfl
    have hmem := State.testStart_mem (s := u.bistReady k) (d := k.die) (bistTest k)
    rw [State.testBegun_idle hstill hfrets rfl, State.bistReady_stroke] at hmem
    exact hmem
  case live =>
    intro s u k pos htakes hn hw4 hw5 hok hfree hroom hlive hpos
    have hmoves := State.bistReady_live hok hn hlive
    have hrun := runsOp_bistRun hroom
    have hmem := State.testStart_mem (s := u.bistReady k) (d := k.die) (bistTest k)
    have hside := State.testStart_displaces hmoves
    rw [State.testBegun_displaces hmoves rfl, State.bistReady_stroke] at hmem
    rw [State.bistReady_sameRoles.posOf, show (u.die k.die).posOf (bistTest k).target = some pos from hpos] at hside
    refine Completes.of _ (execBistRun_starts htakes (by omega) (by omega) hw4 (by omega) (fun _ => hw5) (by rwa [hn]) (by rwa [hn]) hroom)
      ⟨?_, ?_, hside⟩
    · rw [hn] at hrun
      exact hrun
    · rw [bistTest, hn] at hmem
      rw [hn]
      exact hmem
  case badTest =>
    intro s u k htakes hbad
    obtain ⟨hready, rfl⟩ := takes_iff.mp htakes
    refine Answers.of _ (congrArg Host.Outcome.next ((State.command_ready _ hready).trans ?_)) rfl
    dsimp only
    rw [if_neg (by simp; omega), if_pos (by simp; omega)]
    rfl
  case checkpoint =>
    intro s d b work hup hb hisol hpaused hfresh hcopies hwork hpos hop htest hfrets
    refine Completes.of _ (execWorkSliceEnd_goesOn ⟨hup, hb, hisol, hpaused, hfresh, hcopies, hwork, hpos⟩ hop) ?_
    have hon : s.wentOn d b (b.worked work (s.stroke d)) = s.checked d b (b.worked work (s.stroke d)) := by
      have hstays : (s.die d).yields b = false := by simp [Die.yields, htest.1]
      have hworks : (!(s.die d).bistOn && !testFree b.test) = false := by
        rcases hfrets with h | h <;> simp [h]
      rw [State.wentOn, hstays, hworks]
      rfl
    rw [hon, State.testShown_bist]
    refine ⟨Die.mem_of_testOf (State.checked_testOf hb rfl), ?_⟩
    rw [State.checked_bist]
    rfl
  case tooMuch =>
    intro s d b work hmore hb
    refine Completes.of s ?_ rfl
    show execWorkSliceEnd d b.tag work s = _
    unfold execWorkSliceEnd
    rw [hb]
    exact congrArg Host.Outcome.next (if_neg (by simp [Nat.not_le.mpr hmore]))
  case yields =>
    intro s d b work hup hb hisol hpaused hfresh hcopies hwork hpos hop htest hwant
    refine Completes.of _ (execWorkSliceEnd_goesOn ⟨hup, hb, hisol, hpaused, hfresh, hcopies, hwork, hpos⟩ hop) ?_
    have hyields : (s.die d).yields b = true := by simp [Die.yields, htest, hwant]
    rw [State.wentOn, if_pos hyields, State.testShown_bist]
    exact Die.mem_of_testOf (State.yieldTest_testOf (t := b.worked work (s.stroke d)) (State.checked_testOf hb rfl))
  case cancelled =>
    intro s d b work o hup hb hisol hpaused hfresh hcopies hwork hpos hop hcancel
    refine Completes.of _ (execWorkSliceEnd_cancelled ⟨hup, hb, hisol, hpaused, hfresh, hcopies, hwork, hpos⟩ hop hcancel) ?_
    obtain ⟨rec, hbist, htest, hdone⟩ := State.testCut_bist (s := s.checked d b (b.worked work (s.stroke d))) (d := d)
      (t := b.worked work (s.stroke d)) (r := .incomplete) (status := stCancelled) hisol
    rw [State.checked_bist] at hbist
    have hring := Bist.closed_ring ((s.die d).setTest b (b.worked work (s.stroke d))).bist (b.worked work (s.stroke d)) rec
    rw [← hbist] at hring
    refine ⟨?_, ?_, by rw [hbist]; rfl⟩
    · exact (congrArg (fun l : List Nat => l[0]?) hring).trans htest
    · exact (congrArg (fun l : List Nat => l[2]?) hring).trans hdone
  case waits =>
    intro s d b work hup hb hisol hpaused hfresh hcopies hwork hpos hop htest hoff
    refine Completes.of _ (execWorkSliceEnd_goesOn ⟨hup, hb, hisol, hpaused, hfresh, hcopies, hwork, hpos⟩ hop) ?_
    have hstays : (s.die d).yields b = false := by simp [Die.yields, htest]
    have hidle : (!(s.die d).bistOn && !testFree b.test) = true := by simp [hoff.1, hoff.2]
    rw [State.testShown_bist, State.wentOn, hstays, if_neg (by decide), if_pos hidle, State.die_onDie_same]
    exact Die.mem_of_testOf (Die.testOf_setTest (b := b.worked work (s.stroke d)) (State.checked_testOf hb rfl) rfl)
  case aborted =>
    intro s d b clock hup hb hisol hpaused hclock hport
    have hdead : (s.die d).deadline b clock = true := by
      cases clock with
      | true =>
        obtain ⟨htest, hfails⟩ := hclock rfl
        simp [Die.deadline, htest, hfails]
      | false =>
        obtain ⟨htest, htrains⟩ := hport rfl
        simp [Die.deadline, htest, htrains]
    have htest : b.test ≠ 1 := by
      cases clock with
      | true => rw [(hclock rfl).1]; decide
      | false => rw [(hport rfl).1]; decide
    refine Posts.of (s.cutShort d b) ((execSliceAborted_eq hup hb hisol hpaused hdead).trans ?_) (Die.mem_of_testOf (State.cutShort_testOf hb))
    rw [if_neg htest]
  case sliceAborted =>
    intro s d b hup hb hisol hpaused htest htarget htrains
    have hdead : (s.die d).deadline b false = true := by simp [Die.deadline, htest, htrains]
    refine Completes.of ((((s.cutShort d b).post d 424 0x02 (b.test + 256 * b2n false))).reinitSlice d b.target)
      ((execSliceAborted_eq hup hb hisol hpaused hdead).trans ?_) ⟨?_, ?_⟩
    · rw [if_pos htest]
    · rw [State.bist_of_blk (State.reinitSlice_blk _ _ _ (by simp)), State.bist_of_blk (State.post_blk _ _ _ _ _ (by simp))]
      exact Die.mem_of_testOf (State.cutShort_testOf hb)
    · have hslice : (((s.cutShort d b).post d 424 0x02 (b.test + 256 * b2n false)).die d).slice b.target = (s.die d).slice b.target :=
        State.slice_of_blk (by simp [State.cutShort]) d b.target
      rw [State.reinitSlice_slice, hslice]
      exact ⟨rfl, rfl⟩
  case passes =>
    intro s d b sig loc rep hup hb hend htest
    have hisPass : (s.die d).resultOf b .pass sig.toNat = .pass := by simp [Die.resultOf, htest.1]
    refine Completes.of _ (execTestEnded_eq hup hb hend htest.2 hisPass (e := (s, 0, false)) rfl) ?_
    obtain ⟨⟨-, hwork⟩, -⟩ : (_ ∧ b.done = testWork b) ∧ _ := by simpa [Die.mayEnd, htest.1, htest.2] using hend
    rw [State.closeAfter_bist]
    refine ⟨?_, ?_, ?_, rfl, rfl, rfl⟩
    · rw [Bist.closed_ring]
      simp [Die.finalRecord, Die.testRecord, resultCode]
    · rw [Bist.closed_ring, ← hwork]
      rfl
    · rw [Bist.closed_ring]
      rfl
  case fails =>
    intro s d b sig loc rep hup hb hend htest hrep htarget
    have hisFail : (s.die d).resultOf b .fail sig.toNat = .fail := by simp [Die.resultOf]
    have hbist := State.retire_slice_bist (s := s) (d := d) htest ((s.die d).testMacro b loc.toNat)
    refine Completes.of _ (execTestEnded_eq hup hb hend (by omega) hisFail (State.afterResult_slice htest hrep loc.toNat rep)) ⟨?_, ?_, ?_⟩
    · rw [State.closeAfter_slice_retired htest]
      exact State.retire_slice_retired htest _
    · rw [State.closeAfter_bist, hbist, Bist.closed_ring]
      simp [Die.finalRecord, Die.testRecord, htest, resultCode]
    · rw [State.closeAfter_bist, hbist]
      rfl
  case soft =>
    intro s u k htakes hm hok hw4 hw5 hisol hspare hroom
    refine Completes.of _ (execRepairSoft_repairs htakes hm hok hw4 hw5 hisol hspare hroom) ⟨?_, ?_, ?_⟩
    · rw [State.testStart_bist]
      exact State.softRepair_mem _ _ _
    · rw [State.testStart_bist]
      dsimp only
      rw [State.softRepair_bist]
      dsimp only
      rw [State.bist_of_blk (State.accept_blk u k _ _ _ _ (by simp [carriers]))]
    · rw [State.active_of_blk (State.testStart_blk _ _ _ (by simp)), State.active_of_blk (State.softRepair_blk _ _ _ _ _ (by simp)),
        State.active_of_blk (State.accept_blk u k _ _ _ _ (by simp [carriers]))]
  case fuse =>
    intro s u k htakes hm hok hkey hidle hsome hfuses hroom
    refine Completes.of _ (execRepairFuse_programs htakes hm hok hkey hidle hsome hfuses hroom) ?_
    rw [State.die_onDie_same]
    refine ⟨rfl, ?_, State.active_of_blk (State.accept_blk u k _ _ _ _ (by simp [carriers])) k.die⟩
    dsimp only
    rw [State.bist_of_blk (State.accept_blk u k _ _ _ _ (by simp [carriers]))]
  case fuseWritten =>
    intro s d e l o hup hburn hop hdue hmore
    exact Completes.of _ (execFuseWritten_programs hup hburn hop hdue hmore) (State.fuseEntry_kept e)
end
